-- ==== Sys2Proof/Word.lean ====
section
/-! DEFINITION. The word types of the DV9616 and the plainest arithmetic on them: fields of a 32-bit register
(R11), little-endian byte packing of payloads (R16, R60, R100), saturation. -/

namespace Sys2Proof

/-- One byte of a stored codeword, a payload or a fuse array. -/
abbrev Byte := BitVec 8
/-- One register of the register space (R104). -/
abbrev Word := BitVec 32
/-- One data word of a burst (R304). -/
abbrev DWord := BitVec 64
/-- One stored codeword: 64 data bits and 16 check bits (R304). -/
abbrev Codeword := BitVec 80
/-- The 64-byte payload of a flit (R15); byte `k` is bits `8k+7 : 8k`. -/
abbrev Payload := BitVec 512

/-- The field of `w` bits that starts at bit `lo` of a register. -/
def Word.field (x : Word) (lo w : Nat) : Nat := (x.toNat >>> lo) % 2 ^ w

/-- `x` with the field of `w` bits at bit `lo` set to `v`, all other bits as they were. -/
def Word.setField (x : Word) (lo w v : Nat) : Word :=
  (x &&& ~~~(BitVec.ofNat 32 ((2 ^ w - 1) <<< lo))) ||| BitVec.ofNat 32 ((v % 2 ^ w) <<< lo)

/-- Bytes `off .. off + n - 1` of a packed number, byte `off` least significant. -/
def bytesAt (x off n : Nat) : Nat := (x >>> (8 * off)) % 2 ^ (8 * n)

/-- A packed number from its (offset, length in bytes, value) parts, each least significant byte first. -/
def packBytes (parts : List (Nat × Nat × Nat)) : Nat :=
  parts.foldl (fun acc p => acc ||| ((p.2.2 % 2 ^ (8 * p.2.1)) <<< (8 * p.1))) 0

/-- A flit payload from its (offset, length, value) parts. -/
def payload (parts : List (Nat × Nat × Nat)) : Payload := BitVec.ofNat 512 (packBytes parts)

/-- Bytes `off .. off + n - 1` of a payload as a number, least significant byte first. -/
def Payload.at (p : Payload) (off n : Nat) : Nat := bytesAt p.toNat off n

/-- The 64-bit word `k` of a payload. -/
def Payload.word (p : Payload) (k : Nat) : DWord := BitVec.ofNat 64 (p.at (8 * k) 8)

/-- Addition that stops at the largest value of `w` bits. -/
def satAdd (w a b : Nat) : Nat := min (a + b) (2 ^ w - 1)

/-- Least significant byte first, `n` bytes of `v`. -/
def leBytes (n v : Nat) : List Byte := (List.range n).map fun k => BitVec.ofNat 8 (v >>> (8 * k))

/-- The number that a list of bytes spells, least significant byte first. -/
def ofLeBytes : List Byte → Nat
  | [] => 0
  | b :: bs => b.toNat + 256 * ofLeBytes bs

/-- The low bit that is set in the least significant position of `x`, looking at `n` bits; `n` when none is. -/
def lowestSet (n x : Nat) : Nat := ((List.range n).find? fun k => x.testBit k).getD n

/-- How many of the low `n` bits of `x` are set. -/
def popcount (n x : Nat) : Nat := ((List.range n).filter fun k => x.testBit k).length

end Sys2Proof
end

