-- ==== Sys2Proof/Syntax.lean ====
section
/-! DEFINITION. The commands of the DV9616, one constructor for each row of spec/opcode_table.json (generated from the
list of rows: the summaries are the rows' own). A command that is an event carries what the event brings with it: the
flit that arrived, the value written, what a sensor or a step of training found. -/

namespace Sys2Proof

/-- Host link HL00-HL15 (R5). -/
abbrev Link := Fin 16
/-- Lane index 0-69 of one direction of a link (R13). -/
abbrev Lane := Fin 70
/-- Port 0-63 (R5). -/
abbrev Port := Fin 64
/-- Owner code of a register path (R99): port 0-63, 64 sideband, 65 test port. -/
abbrev Path := Fin 66
/-- Tile, channel or riser 0-31, and the spare 32 (R5). -/
abbrev Tile := Fin 33
/-- Channel 0-31. -/
abbrev Channel := Fin 32
/-- Quadrant 0-3. -/
abbrev Quad := Fin 4
/-- Letterbox LB0-LB5 (R117). -/
abbrev Lb := Fin 6

/-- What one training step of R51 or R53 found: whether every lane could be centred (T1), the eye widths in 1/256 UI
of the lanes the step measured or the other end reported, whether T3 reached offset 0, which decision lanes read
correctly (T4), whether rate and grade agree (T5), and whether the TRAIN content was well formed. -/
structure TrainObs where
  centred : Bool
  eyeIn : List (Lane × BitVec 8)
  eyeOut : List (Lane × BitVec 8)
  aligned : Bool
  d0 : Bool
  d1 : Bool
  gradeOk : Bool
  wellFormed : Bool
deriving DecidableEq, Repr

/-- What a housekeeping round has measured (R367, R368): raw codes, diode readings in 1/16 °C, monitors in mV, currents in
10 mA (what is not listed keeps its last value), and how many compensation tables clip. -/
structure RoundObs where
  codes : List (Fin 192 × BitVec 24)
  temps : List (Fin 104 × BitVec 16)
  volts : List (Fin 40 × BitVec 16)
  currents : List (Fin 24 × BitVec 16)
  clips : Nat
deriving DecidableEq, Repr

/-- A line's trims as training or calibration has set them, at the base end or the die end of a riser (R358, R359). -/
structure TrimObs where
  dieEnd : Bool
  line : Fin 208
  value : BitVec 18
deriving DecidableEq, Repr

/-- A unit of self-test or of a return to service (R394, R396, R409, R413). -/
inductive TestUnit where
  | engine (e : Fin 128)
  | core (c : Quad)
  | riser
  | row (c : Channel)
  | lbank (q : Quad)
  | remap
  | spareBank (q : Quad)
  | tile (t : Tile)
  | link (l : Link)
  | quadrant (q : Quad)
deriving DecidableEq, Repr

/-- An access of the test port under way at a test reset (R535): SEC or REG_ACCESS, and whether Update-DR has passed. -/
structure TapAccess where
  sec : Bool
  write : Bool
  addr : BitVec 24
  data : Word
  updated : Bool
deriving DecidableEq, Repr

/-- How the burning of antifuse words goes (R440-R443): what the word under the pump reads at NORMAL, PROG and UNPROG after
each pulse, in order (a pulse that is not listed burns what was asked), the readings that have changed when a section is read
again, the word of the command after which a condition of R442 has arisen, and the pulse that a reset or a fatal fault cuts. -/
structure BurnObs where
  pulses : List (Word × Word × Word)
  reread : List (Fin 2048 × Word × Word × Word)
  stop : Option Nat
  cut : Option Nat
deriving DecidableEq, Repr

/-- The registers whose W1C bits release contained units (R425, R434). -/
inductive ContainReg where
  | link | portLo | portHi | tile | misc
deriving DecidableEq, Repr

/-- The commands, in the order of the table. -/
inductive Instr where
  /-- A link's forwarded clock departs from the reference by more than ±300 ppm, and the link leaves OPEN for TRAINING (R14). -/
  | clockDrift (l : Link)
  /-- A REQ flit arrives; when it fails its CRC it is discarded whole and all four of its positions are reported deferred (R27). -/
  | reqFlit (l : Link) (side : BitVec 48) (data : Payload) (badLane : Option Lane)
  /-- The port gate applies its checks to one request header in position order, and accepts it with its charges or defers it (R174). -/
  | requestHeader (l : Link)
  /-- In flit 7 of each frame, the device drives the 16-bit decision vector on DEFER[1:0] (R25). -/
  | decisionVector (l : Link)
  /-- In flit 0 of the next frame, the device drives the complement of the previous frame's decision vector (R26). -/
  | decisionComplement (l : Link)
  /-- A WDATA flit arrives and is matched to the oldest accepted write whose data is incomplete (R23). -/
  | wdata (l : Link)
  /-- The 16-frame data limit of an accepted write expires with its data incomplete, and the write is counted in LNK_CNT_WDLATE (R24). -/
  | wdataLate (p : Port) (tag : BitVec 9)
  /-- A sequenced flit arrives; its sequence number is reconstructed and it is accepted, or discarded as a duplicate (R37). -/
  | sequencedFlit (l : Link) (side : BitVec 48) (data : Payload) (badLane : Option Lane)
  /-- A RETRY is received, and the transmitter resends every held flit from ack + 1 onward (R39). -/
  | retry (l : Link)
  /-- The oldest held flit reaches LNK_RPL.timer, and every held flit is replayed (R40). -/
  | replayTimeout (l : Link) (tie : Bool)
  /-- The device returns header credits through crd codes no later than 2 frames after the decision frame (R33). -/
  | creditReturn (l : Link) (n : Fin 15)
  /-- At an epoch boundary where every condition holds, a link moves from the vestibule state to OPEN and receives its credit grant (R44). -/
  | linkOpen (l : Link)
  /-- At the next epoch boundary after a condition of R44 ceases to hold, an OPEN link moves to the vestibule state (R45). -/
  | linkToVestibule (l : Link)
  /-- A PARK message is received and answered with PARK_ACK or PARK_NAK (R47). -/
  | park (l : Link)
  /-- A PARK_ACK is received for a PARK that this end sent (R47). -/
  | parkAck (l : Link)
  /-- A PARK_NAK is received, and the park does not take place (R47). -/
  | parkNak (l : Link)
  /-- At the epoch boundary named in an acknowledged PARK, the link enters DOZE or SLEEP (R47). -/
  | parkEntry (l : Link)
  /-- The doze_idle count of idle epochs expires with auto_doze = 1, and the device sends PARK for DOZE (R47). -/
  | autoDoze (l : Link) (e : BitVec 64)
  /-- The other end restarts its forwarded clock on a DOZE or SLEEP link, and this end restarts its own within 8 ns (R48). -/
  | linkWake (l : Link)
  /-- The host drives its forwarded clock and TRAIN flits, and a link leaves DOWN, or another state, for TRAINING (R50). -/
  | trainingStart (l : Link)
  /-- The other end's forwarded clock stops for 64 UI or more, and the link retrains or training returns to T0 (R51). -/
  | forwardedClockStop (l : Link)
  /-- A write of 1 to LNK_CTL.retrain starts retraining from OPEN, the vestibule state or DOZE (R50). -/
  | lnkRetrain (l : Link) (path : Path) (data : Word)
  /-- A training step T0–T5 completes; the next step starts, or the link enters the vestibule state after T5 (R51). -/
  | trainStepDone (l : Link) (obs : TrainObs) (tie : Bool)
  /-- A training step reaches its own timeout before completing (R51). -/
  | trainStepTimeout (l : Link)
  /-- LNK_TRAIN.timeout expires, and training fails with cause TOTAL (R51). -/
  | trainTotalTimeout (l : Link)
  /-- LNK_TRAIN.backoff runs out after a failure, and the link may be trained again (R51). -/
  | trainBackoffExpiry (l : Link)
  /-- A short-retrain step S0–S3 completes after a SLEEP wake (R53). -/
  | shortRetrainStepDone (l : Link) (obs : TrainObs) (tie : Bool)
  /-- A short-retrain step fails or times out, and training continues from T0 as a full training (R53). -/
  | shortRetrainTimeout (l : Link)
  /-- A lane's count reaches lane_thresh or hard_thresh, and the receiver sends a REPAIR message (R57). -/
  | laneRepairRequest (l : Link) (lane : Lane) (e : BitVec 64)
  /-- A REPAIR message is received and answered with REPAIR_ACK, or with REPAIR_NAK when the spare is assigned (R57). -/
  | repair (l : Link)
  /-- A REPAIR_ACK is received, and the repair is set for epoch E (R57). -/
  | repairAck (l : Link)
  /-- A REPAIR_NAK is received, and the repair is not made (R57). -/
  | repairNak (l : Link)
  /-- At the boundary that starts epoch E, both ends move the lane onto the spare (R57). -/
  | laneRepairSwitch (l : Link)
  /-- Epoch E − 2 arrives with no REPAIR_ACK, and neither end switches (R57). -/
  | repairAckTimeout (l : Link)
  /-- A write of LNK_REPAIR_REQ.go starts the repair exchange for the named lane (R57). -/
  | lnkRepairReq (l : Link) (path : Path) (data : Word)
  /-- A DQUERY is received and answered within 8 frames from the running or frozen decision history (R30). -/
  | dquery (l : Link)
  /-- The first 64 frames of OPEN after a frozen history end, and the frozen history is discarded (R30). -/
  | historyDiscard (l : Link)
  /-- While the event link is OPEN and enabled, the device sends queued event flits in order (R61). -/
  | eventDelivery
  /-- A write of LNK_CTL.hold_down = 1 takes the link to DOWN and holds it there (R43). -/
  | lnkHoldDown (l : Link) (path : Path) (data : Word)
  /-- A write to LNK_CNT_CLR.cnt clears the selected link counters (R62). -/
  | lnkCntClear (l : Link) (path : Path) (data : Word)
  /-- A write of LNK_CNT_CLR.lane_err clears all 70 inbound lane counts (R62). -/
  | lnkLaneErrClear (l : Link) (path : Path) (data : Word)
  /-- A write of any value to LNK_EVT_LOST clears its count (R62). -/
  | lnkEvtLostClear (path : Path) (data : Word)
  /-- An accepted RD reads 1–8 DRAM bursts and returns the data with its poison mask and status (R91). -/
  | rd (p : Port) (tag : BitVec 9)
  /-- An accepted WR writes its bursts from WDATA and clears the poison of each word (R92). -/
  | wr (p : Port) (tag : BitVec 9)
  /-- An accepted WRM writes the whole words its mask covers, or is refused for a narrow mask (R71). -/
  | wrm (p : Port) (tag : BitVec 9)
  /-- An accepted LRD reads scratchpad lines in one flit per quadrant (R293). `met` is the word of its lines, eight to a line, that an
access of the engine path with no row of its own uses in the flit, such as the write-back of a corrected word (R91), and `wrote` whether
that access writes (R94). -/
  | lrd (p : Port) (tag : BitVec 9) (met : Option (Fin 64)) (wrote : Bool)
  /-- An accepted LWR writes whole scratchpad lines in one flit (R293). -/
  | lwr (p : Port) (tag : BitVec 9) (met : Option (Fin 64)) (wrote : Bool)
  /-- An accepted LWRM writes the scratchpad words its mask covers, or is refused for a narrow mask (R71). -/
  | lwrm (p : Port) (tag : BitVec 9) (met : Option (Fin 64)) (wrote : Bool)
  /-- A FENCE orders the port's later requests after its earlier ones, and is answered after their responses (R88). -/
  | fence (p : Port) (tag : BitVec 9)
  /-- A TQUERY reports whether the queried tag is busy at the device for the port (R97). -/
  | tquery (p : Port) (tag : BitVec 9)
  /-- A CADD64 adds a 64-bit increment to a counter word under its overflow policy (R202). `k` is the engine of the tile that does
the work, here and below. -/
  | cadd64 (p : Port) (tag : BitVec 9) (k : Fin 4)
  /-- A CADDPB adds packet and byte increments in P24B40 layout (R202). -/
  | caddpb (p : Port) (tag : BitVec 9) (k : Fin 4)
  /-- A CADDD32 adds two 32-bit increments in D32 layout (R202). -/
  | caddd32 (p : Port) (tag : BitVec 9) (k : Fin 4)
  /-- A CRD returns a counter word as stored and changes nothing (R204). -/
  | crd (p : Port) (tag : BitVec 9) (k : Fin 4)
  /-- A CRDCLR returns a counter word and writes it to 0 in one atomic action (R204). -/
  | crdclr (p : Port) (tag : BitVec 9) (k : Fin 4)
  /-- A CFLUSH writes back dirty counter-cache lines, one line or all, and answers once every write-back completes (R211). -/
  | cflush (p : Port) (tag : BitVec 9)
  /-- A POL refills a policer's buckets, marks the packet's colour and takes tokens (R225). -/
  | pol (p : Port) (tag : BitVec 9) (k : Fin 4)
  /-- An HLK searches the key's two candidate buckets and returns the matching entry or MISS (R238). -/
  | hlk (p : Port) (tag : BitVec 9)
  /-- An HINS inserts or replaces an entry, displacing victims along a path when needed (R240). -/
  | hins (p : Port) (tag : BitVec 9)
  /-- An HDEL clears a matching entry (R239). -/
  | hdel (p : Port) (tag : BitVec 9)
  /-- An LPM walks a prefix table level by level and returns the longest matching prefix's next hop (R247). -/
  | lpm (p : Port) (tag : BitVec 9)
  /-- A DRAM trie node fetch returns, and the walk continues, ends or moves to the next node's tile (R249). -/
  | walkNodeReturn (p : Port) (tag : BitVec 9) (tie : Bool)
  /-- A walk-step timer expires before its node returns, and the walk ends with TIMEOUT (R250). -/
  | walkStepTimeout (p : Port) (tag : BitVec 9)
  /-- When its last WDATA flit arrives, the home engine decides an ENQ, allocating and linking cells (R269). -/
  | enq (p : Port) (tag : BitVec 9)
  /-- A DEQ delivers a queue's head cell and advances the head (R272). -/
  | deq (p : Port) (tag : BitVec 9)
  /-- A QSTAT returns a queue's descriptor (R274). -/
  | qstat (p : Port) (tag : BitVec 9)
  /-- The response to an accepted request is transmitted, at its fixed latency in DETERMINISTIC, and its tag frees (R159). -/
  | responseSend (p : Port) (tag : BitVec 9)
  /-- An in-band REGWR message writes consecutive registers and is answered with one REGRSP (R101). -/
  | regwr (l : Link) (late : Bool)
  /-- An in-band REGRD message reads consecutive registers and is answered with one REGRSP (R101). -/
  | regrd (l : Link) (late : Bool)
  /-- A write, through any view, to a register that has no row of its own (R105). -/
  | registerWrite (path : Path) (addr : BitVec 24) (data : Word) (late : Bool)
  /-- A sideband STATUS transaction returns the STATUS word (R129). -/
  | sbStatus
  /-- A sideband READ transaction reads one register (R129). -/
  | sbRead (addr : BitVec 24) (late : Bool)
  /-- A sideband WRITE transaction writes one register (R129). -/
  | sbWrite (addr : BitVec 24) (data : Word) (late : Bool)
  /-- A sideband transaction with another opcode has no effect, and SB_SDO stays 0 (R129). -/
  | sbUnknownOpcode (op : BitVec 8)
  /-- SB_CS_N rises before 0xA5; a READ is abandoned, and a received WRITE completes with its result lost (R130). -/
  | sbCsRise (received : Option (BitVec 24 × Word)) (late : Bool)
  /-- A write to MBX_BUF claims an unowned letterbox, or ends BUSY for a non-owner (R118). -/
  | mbxBufWrite (n : Lb) (word : Fin 64) (path : Path) (data : Word)
  /-- The owner rings the doorbell, which starts the command and its deadline (R120). -/
  | mbxDoorbell (n : Lb) (path : Path) (data : Word)
  /-- A write of MBX_CTL.abort ends a RUNNING command before its commit point with ABORTED (R121). -/
  | mbxAbort (n : Lb) (path : Path) (data : Word)
  /-- The owner writes MBX_OWNER.release and gives up the letterbox (R118). -/
  | mbxRelease (n : Lb) (path : Path) (data : Word)
  /-- An owned letterbox with no command running goes MBX_CLAIM.timeout without access, and is released (R118). -/
  | mbxClaimTimeout (n : Lb) (tie : Bool)
  /-- A command's deadline expires before its commit point, and it ends DEADLINE with no effect (R121). -/
  | mbxDeadlineExpiry (n : Lb) (tie : Bool)
  /-- INFO.ID returns the part, grade, step, firmware version and serial (R125). -/
  | infoId (n : Lb)
  /-- INFO.STATUS returns the STATUS word, CFG_STATUS and the fault summary (R125). -/
  | infoStatus (n : Lb)
  /-- INFO.CAPS returns the recipe version, the usable engine count and the DEGRADED channels (R125). -/
  | infoCaps (n : Lb)
  /-- MODE.GET returns the current, previous and pending modes and the draw (R515). -/
  | modeGet (n : Lb)
  /-- MODE.SET checks a target mode and schedules the change at boundary B (R495). -/
  | modeSet (n : Lb)
  /-- PLAN.LOAD stores one chunk of a plan image in the firmware area (R196). -/
  | planLoad (n : Lb)
  /-- PLAN.CHECK runs the admission check on the loaded image or the active configuration (R192). -/
  | planCheck (n : Lb)
  /-- PLAN.COMMIT checks the loaded plan, writes the staged port and pool registers, and commits as CFG.COMMIT (R196). -/
  | planCommit (n : Lb)
  /-- PLAN.GET returns a chunk of the active configuration as a plan image (R195). -/
  | planGet (n : Lb)
  /-- PORT.SET writes one port's staged registers, converting its guarantee from GB/s (R196). -/
  | portSet (n : Lb)
  /-- PORT.GET returns a port's active record and PRT_STATUS (R195). -/
  | portGet (n : Lb)
  /-- PORT.RESET resets a port's tags, carry and quota use after its earlier requests complete (R514). -/
  | portReset (n : Lb)
  /-- At the next epoch boundary after PORT.RESET, the port fails the rights check and its fixed carry is cancelled (R514). -/
  | portResetCommit
  /-- ZONE.SET writes a zone's staged map order, opening a session when none is open (R144). -/
  | zoneSet (n : Lb)
  /-- ZONE.GET returns the active orders and, optionally, translates one address (R144). -/
  | zoneGet (n : Lb)
  /-- RETIRE.ROW records a physical row as retired and returns its burst addresses (R328). -/
  | retireRow (n : Lb)
  /-- RETIRE.BANK records a bank as retired (R328). -/
  | retireBank (n : Lb)
  /-- RETIRE.RESTORE returns a retired row or bank, or an engine that is out, to service under R409 (R410). -/
  | retireRestore (n : Lb)
  /-- RETIRE.REMAP copies a row to a spare row, probes it, and switches it at a boundary, or unmaps it (R329). -/
  | retireRemap (n : Lb)
  /-- LOG.READ returns error log entries (R327). -/
  | logRead (n : Lb)
  /-- LOG.CLEAR discards the log entries below the next seq (R327). -/
  | logClear (n : Lb)
  /-- LOG.SNAPSHOT takes a counter snapshot and completes after the copy (R125). -/
  | logSnapshot (n : Lb)
  /-- TEST.RUN runs one test of a given kind on a unit and completes when it ends (R413). -/
  | testRun (n : Lb)
  /-- TEST.RESULT returns the last result held for a unit (R413). -/
  | testResult (n : Lb)
  /-- TEST.SCHEDULE writes the staged BST_ registers in a session (R413). -/
  | testSchedule (n : Lb)
  /-- THERM.GET returns the governing temperatures and unit states (R388). -/
  | thermGet (n : Lb)
  /-- THERM.SET writes the staged thermal thresholds, fractions and diode mask (R388). -/
  | thermSet (n : Lb)
  /-- CAL.RUN queues calibration of risers and, optionally, crossing tuning (R388). -/
  | calRun (n : Lb)
  /-- CAL.STATUS returns the calibration queue state and the last outcomes (R388). -/
  | calStatus (n : Lb)
  /-- OTP.READ returns resolved Cornerstone words and the state of a section (R454). -/
  | otpRead (n : Lb)
  /-- OTP.BURN appends words to a section, pulsing, verifying and sparing as needed (R441). -/
  | otpBurn (n : Lb) (obs : BurnObs)
  /-- OTP.FINALISE burns a section's count, digest and lock after checking it (R443). -/
  | otpFinalise (n : Lb) (obs : BurnObs)
  /-- SEC.ATTEST builds and returns the attestation body, its signature or the identity key (R471). -/
  | secAttest (n : Lb)
  /-- SEC.CHALLENGE returns a one-use nonce (R476). -/
  | secChallenge (n : Lb)
  /-- SEC.UNLOCK sets the debug level, with a signature above the open level (R477). -/
  | secUnlock (n : Lb) (tie : Bool)
  /-- SEC.LIFECYCLE op 1 checks the signed move and burns the next lifecycle words (R472). -/
  | secLifecycleMove (n : Lb) (obs : BurnObs) (tie : Bool)
  /-- SEC.LIFECYCLE op 2 revokes an owner key slot (R474). -/
  | secLifecycleRevoke (n : Lb) (obs : BurnObs) (tie : Bool)
  /-- FW.LOAD writes one image chunk to the non-primary slot or to the code stores (R483). -/
  | fwLoad (n : Lb)
  /-- FW.ACTIVATE op 0 verifies the loaded image, marks it trial and rolls the cores and engines over (R483). -/
  | fwActivateTry (n : Lb)
  /-- FW.ACTIVATE op 1 raises the anti-rollback counters and makes the trial slot primary (R483). -/
  | fwActivateCommit (n : Lb) (obs : BurnObs)
  /-- FW.ACTIVATE op 2 clears the trial and rolls back to the primary image (R483). -/
  | fwActivateRevert (n : Lb)
  /-- FW.STATUS returns the slots, versions, counters and load state (R485). -/
  | fwStatus (n : Lb)
  /-- CFG.BEGIN opens a configuration session for the caller's path (R111). -/
  | cfgBegin (n : Lb)
  /-- CFG.COMMIT compares 37 CRC references and schedules a commit, or rejects it (R112). -/
  | cfgCommit (n : Lb)
  /-- CFG.ABORT reloads the staged copies from the active copies and closes the session (R115). -/
  | cfgAbort (n : Lb)
  /-- CFG.REF returns the CFG_REF words (R125). -/
  | cfgRef (n : Lb)
  /-- CFG.SAVE writes the active configuration and its records to the boot flash (R510). -/
  | cfgSave (n : Lb)
  /-- At the commit boundary, every staged copy is copied to its active copy (R108). -/
  | configCommitBoundary
  /-- A domain completes a CRC pass over its active copies and compares it with CFG_REF (R114). -/
  | cfgCrcPass (d : Fin 37) (flip : Option (BitVec 24 × Word)) (overlap : Bool)
  /-- The copies of a triplicate field disagree; one copy is rewritten, or vote_lost is raised (R116). -/
  | voteDisagreement (field : Fin 90) (quad : Quad) (lost : Bool)
  /-- A session goes CFG_SESSION.idle without owner activity, and is aborted (R115). -/
  | cfgSessionIdle (tie : Bool)
  /-- When the first link reaches the vestibule state, a valid flash configuration image is applied and committed (R510). -/
  | bootFlashConfigApply
  /-- A write of CFG_SNAP.req requests a counter snapshot (R132). -/
  | snapshotRequest (path : Path) (data : Word)
  /-- At the following epoch boundary, every snapshot counter is copied to its holding register (R132). -/
  | snapshotTake
  /-- At each epoch boundary, every tile fixes the epoch's plan: refresh, maintenance, mitigation and admitted slots (R145). -/
  | epochBoundary (lanes : List (Link × Nat)) (lines : List (Tile × Nat))
  /-- A row's activation count reaches SCH_HAM.thresh, and the row is queued for mitigation (R155). -/
  | hammerTrigger (c : Channel) (bank : Fin 32) (row : BitVec 16)
  /-- A penalty period ends, and the full budget returns at the next boundary (R157). -/
  | penaltyExpiry
  /-- At each epoch whose count is a multiple of 64, every activation count returns to 0 (R186). -/
  | actBudgetPeriod
  /-- The 256-epoch merge window ends, and the merged SHORTFALL event is sent (R191). -/
  | shortfallMergeExpiry
  /-- In frame 7 of each epoch, each gate reports its demand at every tile (R181). -/
  | demandReport
  /-- A write to PRT_CNT_CLR clears the selected port counters (R197). -/
  | prtCntClear (p : Port) (path : Path) (data : Word)
  /-- A write of any value to SCH_POOL_OVER clears it (R198). -/
  | schPoolOverClear (t : Tile) (path : Path) (data : Word)
  /-- A write to SCH_CNT_CLR clears the selected scheduler counters (R170). -/
  | schCntClear (t : Tile) (path : Path) (data : Word)
  /-- A riser training step V0–V5 completes for a riser (R168). -/
  | riserTrainStepDone (r : Tile) (ok : Bool) (fails : List (BitVec 8)) (trims : List TrimObs)
  /-- The array has been written with valid codewords (R168). -/
  | arrayFillDone
  /-- Staged spill records are written to the ring in a maintenance slot, and the producer index advances (R217). -/
  | spillRecordWrite (q : Quad)
  /-- The 256-epoch window after a SPILL_LOST ends, and one merged SPILL_LOST is sent if losses occurred (R219). -/
  | spillLostMergeExpiry (q : Quad)
  /-- A host write of ENG_RING_CONS_WR sets the consumer index, or is ignored when out of range (R216). -/
  | engRingConsWr (path : Path) (data : Word)
  /-- A read of ENG_EPOCH_LO latches the high half of the epoch counter into ENG_EPOCH_HI (R230). -/
  | engEpochLoRead (t : Tile) (path : Path)
  /-- A write to ENG_CNT_CLR clears the selected engine counters (R230). -/
  | engCntClear (t : Tile) (path : Path) (data : Word)
  /-- A write to ENG_LK_CNT_CLR clears the selected lookup counters (R255). -/
  | engLkCntClear (t : Tile) (path : Path) (data : Word)
  /-- A refill block lands in a quadrant's free-pair cache (R265). -/
  | freeRefillLand (q : Quad)
  /-- A freed pair enters its quadrant's cache once its cells are read, no earlier than N + 3 (R267). -/
  | pairFree (q : Quad)
  /-- A queue has no DEQ for CEL_HC.idle × 256 epochs, and its head-cache entry is released (R276). -/
  | headCacheIdleRelease (queue : BitVec 18) (tie : Bool)
  /-- A write of CEL_QRESET resets a queue's descriptor to empty and adds its pairs to CEL_LOST (R281). -/
  | celQreset (path : Path) (data : Word)
  /-- After the earlier Cellar requests complete, initialisation starts, writing descriptors and the free stack (R282). -/
  | cellarInit
  /-- Initialisation ends; CEL_LOST clears and ready becomes 1 (R282). -/
  | cellarInitDone
  /-- A write to CEL_CNT_CLR clears the selected Cellar counters (R284). -/
  | celCntClear (path : Path) (data : Word)
  /-- A write to LAR_CNT_CLR clears the selected Larder counters (R301). -/
  | larCntClear (q : Quad) (path : Path) (data : Word)
  /-- Any write to LAR_CONF_CLR clears all 48 conflict counters (R301). -/
  | larConfClear (q : Quad) (path : Path) (data : Word)
  /-- A recurrence entry reaches max_age, and its burst is queued for a probe (R316). -/
  | recurrenceAgeExpiry (c : Channel) (tie : Bool)
  /-- A queued probe begins in a maintenance slot, holding the burst in the probe buffer (R317). -/
  | probeStart (c : Channel)
  /-- A probe restores its burst and classifies each erring word (R319). -/
  | probeComplete (c : Channel) (obs : List (Fin 8 × Bool))
  /-- The Polisher reads the next burst of its patrol and acts on what it finds (R321). -/
  | polisherRead (c : Channel)
  /-- In its next maintenance slot, the Polisher writes back a burst it could not queue for a probe (R322). -/
  | polisherWriteback (c : Channel)
  /-- The Polisher reads a Larder line on an unused engine flit, writing back or probing as needed (R324). -/
  | larderScrub (q : Quad) (obs : List (Fin 8 × Bool))
  /-- Parlour core 0 moves captured error records into the log ring (R325). -/
  | logMove
  /-- A write of ECC_INJ_CTL.arm in MAINTENANCE arms an error injection (R333). -/
  | eccInjArm (path : Path) (data : Word)
  /-- A write to ECC_CNT_CLR clears the selected integrity counters (R333). -/
  | eccCntClear (c : Channel) (path : Path) (data : Word)
  /-- A riser line's count reaches line_thresh, or its monitor reaches hard_thresh, and the line is failing (R341). -/
  | lineFailing (r : Tile) (line : BitVec 8) (tie : Bool)
  /-- A spare line's 16-epoch PRBS verify ends, passing, or failing and marking the spare bad (R342). -/
  | softRepairVerifyDone (r : Tile) (line : BitVec 8) (mismatch : Bool)
  /-- At the next boundary, both ends move the failing line onto the verified spare (R342). -/
  | softRepairSwitch (r : Tile)
  /-- A write of VRT_REPAIR_REQ.go starts a soft repair of the named line (R342). -/
  | vrtRepairReq (r : Tile) (path : Path) (data : Word)
  /-- At the boundary at least 2 epochs after a third dead line, the channel moves to the spare riser (R344). -/
  | spareRiserMove (c : Channel)
  /-- A write to VRT_CNT_CLR clears the selected riser counters (R358). -/
  | vrtCntClear (r : Tile) (path : Path) (data : Word)
  /-- A quadrant reference PLL loses lock; its links leave OPEN and the source is raised (R348). -/
  | pllLockLoss (q : Quad)
  /-- A crossing tuning of a quadrant ends, closing or failing (R349). -/
  | crossingTuneDone (q : Quad) (setup : BitVec 16) (hold : BitVec 16)
  /-- After a failed tuning, the device enters the distributed-clock fallback at a boundary (R350). -/
  | clockFallbackEntry
  /-- After a retune that closes with exit margin, the device leaves the fallback at a boundary (R351). -/
  | clockFallbackExit
  /-- A write to CLK_CNT_CLR clears the selected clock counters (R360). -/
  | clkCntClear (path : Path) (data : Word)
  /-- A tier's IDCODE instruction returns its 32-bit die identifier (R355). -/
  | dieIdcode (tier : Fin 18)
  /-- DWR_SAMPLE captures a tier's die wrapper register (R355). -/
  | dwrSample (tier : Fin 18) (lines : BitVec 6864)
  /-- DWR_EXTEST drives and captures a tier's riser lines for TSV test (R356). -/
  | dwrExtest (tier : Fin 18) (lines data : BitVec 6864)
  /-- DIE_REG reads or writes a tier's register block through the 56-bit register (R355). -/
  | dieReg (tier : Fin 18) (write : Bool) (addr : BitVec 23) (data : Word) (late : Bool)
  /-- A tier's BYPASS instruction selects its 1-bit bypass (R355). -/
  | dieBypass (tier : Fin 18)
  /-- A housekeeping round ends, and the Chimney publishes and acts on every result (R367). -/
  | housekeepingRoundEnd (obs : RoundObs)
  /-- A weathervane group's hold period ends; its rows are read and mapped to a temperature (R372). -/
  | weathervaneRead (g : Fin 32) (reading : Option (BitVec 16)) (tie : Bool)
  /-- A group estimate reaches 4 × hold since its read and is no longer fresh (R372). -/
  | weathervaneFreshnessExpiry (g : Fin 32)
  /-- A die's W has not been fresh for 16 × hold, and the stale source is raised (R374). -/
  | weathervaneStale (d : Fin 16)
  /-- A shutdown comparator trips at 118 °C, and the device shuts down until cold reset (R380). -/
  | thermalShutdown (tier : Fin 18)
  /-- A calibration step K0–K4 completes for a riser (R384). -/
  | calStepDone (bad : List (BitVec 8)) (trims : List TrimObs)
  /-- A 32-epoch reduced calibration chunk runs on the riser in service (R387). -/
  | reducedCalChunk (bad : List (BitVec 8)) (trims : List TrimObs)
  /-- A write to HKP_CNT_CLR clears the selected housekeeping counters (R390). -/
  | hkpCntClear (path : Path) (data : Word)
  /-- A write to THM_CNT_CLR clears the selected thermal counters (R390). -/
  | thmCntClear (path : Path) (data : Word)
  /-- A scheduled period or rate in service becomes due, and the next test of its kind starts (R412). -/
  | infieldTestDue (u : TestUnit)
  /-- An engine under test has completed its held operations, and its scan starts (R398). -/
  | engineDrainDone (e : Fin 128)
  /-- A slice's signature is ready and is compared with its golden value (R397). -/
  | logicTestDone (u : TestUnit) (sig : BitVec 64) (fails : List (Fin 185)) (tie : Bool)
  /-- A slice's budget expires before its signature is ready, and the slice fails (R397). -/
  | logicTestTimeout (u : TestUnit)
  /-- A riser test step A0–A4 completes (R401). -/
  | riserTestStepDone (bad : List (BitVec 8))
  /-- A row test copies, tests or restores a burst in maintenance slots (R404). -/
  | rowTestStep (c : Channel) (differs lost : Bool)
  /-- A Larder bank test copies to the spare, marches, or returns the bank (R407). -/
  | larderBankTestStep (q : Quad) (lines : List (Fin 2048)) (banks : List (Fin 129))
  /-- A shadow-served RT request is later than the bound, and the test ends its borrowing (R408). -/
  | testYield (u : TestUnit)
  /-- The yield retry time runs out, and the test resumes with a fresh copy (R408). -/
  | yieldRetryExpiry (u : TestUnit) (delay : Bool)
  /-- A unit whose mirror and probe pass takes over from its stand-in at an epoch boundary (R409). -/
  | unitReturnSwitch (u : TestUnit) (ok : Bool) (bad : List (BitVec 8))
  /-- A write to BST_CNT_CLR clears the selected self-test counters (R417). -/
  | bstCntClear (path : Path) (data : Word)
  /-- The package IDCODE instruction returns the 32-bit device identifier (R414). -/
  | idcode
  /-- SAMPLE/PRELOAD samples or preloads the boundary register (R414). -/
  | samplePreload (pins data : BitVec 2452)
  /-- EXTEST drives and captures the boundary register (R414). -/
  | extest (pins data : BitVec 2452)
  /-- CLAMP holds the boundary outputs and selects bypass (R414). -/
  | clamp
  /-- HIGHZ floats the boundary outputs and selects bypass (R414). -/
  | highz
  /-- TIER_SEL selects the 18-bit tier-select register (R414). -/
  | tierSel (sel : BitVec 18)
  /-- TIER_SCAN shifts the IEEE 1838 tier chain (R414). -/
  | tierScan (codes : List (Fin 18 × BitVec 4))
  /-- CORE_SEL selects an IEEE 1500 core (R415). -/
  | coreSel (sel : BitVec 8)
  /-- WIR_SCAN shifts the selected core's wrapper instruction register (R414). -/
  | wirScan (code : BitVec 3)
  /-- WDR_SCAN shifts the data register that the wrapper instruction selects (R414). -/
  | wdrScan (pins data : Nat)
  /-- REG_ACCESS reads or writes a register through the test port with owner code 65 (R414). -/
  | regAccess (write : Bool) (addr : BitVec 24) (data : Word) (late : Bool)
  /-- The SEC instruction reaches the LB5 block at every debug level (R488). -/
  | sec (write : Bool) (addr : BitVec 24) (data : Word) (late : Bool)
  /-- BYPASS selects the 1-bit bypass register (R414). -/
  | bypass
  /-- WS_BYPASS selects a core wrapper's 1-bit bypass (R415). -/
  | wsBypass
  /-- WS_EXTEST drives and captures the wrapper boundary (R415). -/
  | wsExtest (pins data : Nat)
  /-- WS_INTEST scans the core through its wrapper (R415). -/
  | wsIntest (pins data : Nat)
  /-- WS_PRELOAD loads the wrapper boundary (R415). -/
  | wsPreload (pins data : Nat)
  /-- WS_LBIST runs the slice's logic self-test (R415). -/
  | wsLbist
  /-- WS_CLAMP holds the wrapper outputs (R415). -/
  | wsClamp (pins data : Nat)
  /-- A test reset ends the test port's work; REG_ACCESS or SEC completes only if it came after Update-DR (R535). -/
  | testReset (access : Option TapAccess)
  /-- The quiet period expires with no new raise, and the device leaves the fault state (R426). -/
  | quietPeriodExpiry
  /-- At the first epoch boundary after a contain-severity latch, its unit stops (R425). -/
  | containUnit
  /-- A write of 1 to an FLT_CONTAIN bit releases a contained unit at the next boundary (R425). -/
  | containRelease (reg : ContainReg) (path : Path) (data : Word)
  /-- A write to FLT_DET_CLR clears one latch, a group's latches, or all latches (R434). -/
  | fltDetClr (path : Path) (data : Word)
  /-- A write to FLT_CNT_CLR clears the selected fault counters (R434). -/
  | fltCntClear (path : Path) (data : Word)
  /-- A write to CST_CNT_CLR clears the selected Cornerstone counters (R456). -/
  | cstCntClear (path : Path) (data : Word)
  /-- At each start, the Strongroom senses the fuses, scans itself, verifies and loads an image, and releases the parlour cores (R484). -/
  | strongroomBoot (fuses : List (Fin 2048 × Word × Word × Word)) (sig : Option (BitVec 64))
  /-- A parlour core's watchdog runs out without a kick, and the core is checked and restarted (R480). -/
  | parlourWatchdogExpiry (c : Quad) (upsets : List (BitVec 21 × BitVec 8))
  /-- A parlour core writes SEC_WD_KICK and restarts its watchdog (R480). -/
  | secWdKick (c : Quad) (tie : Bool)
  /-- The Strongroom watchdog expires, and the fatal source is raised (R481). -/
  | strongroomWatchdogExpiry (kick : Bool)
  /-- An unlock's duration runs out, and the debug level falls to the open level (R477). -/
  | unlockExpiry
  /-- A challenge nonce lapses after 60 s (R476). -/
  | nonceLapse
  /-- At the boundary after the last lifecycle burn, the new state, the mirror and the open level take effect (R472). -/
  | lifecycleEffect
  /-- The wipe of DRAM, Larder and flash configuration for RETURNED completes, and wiped is set (R473). -/
  | returnedWipeDone
  /-- A write to SEC_DBGHALT halts or releases parlour cores (R487). -/
  | secDbghalt (path : Path) (data : Word)
  /-- A write of SEC_DBGMEM_CTL.go performs one debug memory access in an open slot (R487). -/
  | secDbgmemAccess (path : Path) (data : Word)
  /-- A write to SEC_CNT_CLR clears the selected security counters (R487). -/
  | secCntClear (path : Path) (data : Word)
  /-- At boundary B, the mode field changes and the entering and leaving effects apply (R496). -/
  | modeChangeBoundary
  /-- An odd link's conditions come to hold in COOL, and the device sends PARK(SLEEP) (R500). -/
  | coolPark (l : Link)
  /-- An odd link's conditions have not held within 1,024 epochs of B, and it is taken to DOWN (R500). -/
  | coolParkTimeout (l : Link)
  /-- The RETENTION drain completes; links park and domains retain (R501). -/
  | retentionDrainDone (tie : Bool)
  /-- The drain limit expires, and the device returns to the previous mode and raises mode_fail (R501). -/
  | retentionDrainTimeout
  /-- A write of PWR_WAKE.wake in RETENTION starts the exit (R502). -/
  | pwrWake (path : Path) (data : Word)
  /-- The RETENTION exit completes at a boundary in the exit mode (R502). -/
  | retentionExitDone (elapsed : Nat) (us : Nat) (bad : List Tile)
  /-- A rail stays below 90 % of nominal for 2 µs (R505). -/
  | brownOut (rail : Fin 6)
  /-- A power domain fails to reach its state within 100 µs, and reads FAULT (R506). -/
  | domainFault (d : Fin 96)
  /-- PWROK rises, and the boot timeline starts (R507). -/
  | powerGood
  /-- A boot phase completes, and the device moves to the next phase (R507). -/
  | bootPhaseAdvance (fuses : List (Fin 2048 × Word × Word × Word))
  /-- 600 ms pass without AWAITCFG or READY, and the device enters HALTED (R508). -/
  | bootTimeout
  /-- PWROK stays low for 1 ms, and everything except the burned fuses is lost (R511). -/
  | coldReset
  /-- RST_N falls while PWROK is high; links go DOWN and the dies self-refresh (R512). -/
  | warmReset
  /-- RST_N rises, and the device restarts from the FIRMWARE phase (R512). -/
  | warmResetRelease
  /-- A write of a PWR_LRST bit takes the link to DOWN and discards its sequence state (R513). -/
  | linkReset (path : Path) (data : Word)
  /-- A write to PWR_CNT_CLR clears the selected power counters (R517). -/
  | pwrCntClear (path : Path) (data : Word)
  /-- An unsequenced IDLE flit arrives; its CRC is checked and its ack field releases the held flits it covers (R36). -/
  | idleFlit (l : Link) (side : BitVec 48) (badLane : Option Lane)
  /-- A quadrant reference PLL that had lost lock locks again, and CLK_STATUS.pll_lock returns to 1 so the quadrant's links can train (R348). -/
  | pllLock (q : Quad)
deriving DecidableEq, Repr

end Sys2Proof
end

