-- ==== Sys2Proof/Decode.lean ====
section
/-! DEFINITION. The command that a word spells by the table's bits. No row of spec/opcode_table.json gives bits: the
commands of this block are flits, register accesses, pins and events, not words of one form. -/

namespace Sys2Proof

/-- The command of a word: none for every word, for no row of the table has bits. -/
def decodeTableWord (_nbits _w : Nat) : Option Instr := none

end Sys2Proof
end

