-- ==== Sys2Proof/Machine/Crc.lean ====
section
/-! DEFINITION. The two cyclic redundancy checks: CRC-24 of a flit (R18) and CRC-32C (R110). -/

namespace Sys2Proof.Machine

/-- One message bit through the CRC-24 register, most significant bit first. -/
def crc24Bit (r : Nat) (b : Bool) : Nat :=
  let x := (2 * r) % 2 ^ 24
  if (r.testBit 23 != b) then x ^^^ 0x5D6DCB else x

/-- The `n` bits of `v` from the most significant down, through the register. -/
def crc24Bits (r v : Nat) : Nat → Nat
  | 0 => r
  | n + 1 => crc24Bits (crc24Bit r (v.testBit n)) v n

/-- The bytes of a payload from byte `k` on, each from bit 7 down. -/
def crc24Bytes (r : Nat) (p : Nat) : Nat → Nat
  | 0 => r
  | n + 1 => crc24Bytes (crc24Bits r (p % 256) 8) (p / 256) n

/-- R18: the CRC of a flit with the upper four bits of its number, its side field and its payload. -/
def crc24 (hi4 : Nat) (side : BitVec 48) (p : Payload) : Nat :=
  crc24Bytes (crc24Bits (crc24Bits 0xFFFFFF hi4 4) (side.toNat >>> 24) 24) p.toNat 64

/-- One byte through the reflected CRC-32C register. -/
def crc32cByte (r : Nat) (b : Byte) : Nat :=
  (List.range 8).foldl (fun r _ => if r.testBit 0 then (r >>> 1) ^^^ 0x82F63B78 else r >>> 1) (r ^^^ b.toNat)

/-- CRC-32C of a message (R110): preset and final XOR of all ones. -/
def crc32c (bs : List Byte) : Nat := (bs.foldl crc32cByte 0xFFFFFFFF) ^^^ 0xFFFFFFFF


end Sys2Proof.Machine
end

