-- ==== Sys2Proof/Machine/Tab.lean ====
section
/-! DEFINITION. Tables: sparse data by key, held as a list of (key, value) pairs in one canonical form: keys strictly
rising, and no entry equal to what an unlisted key reads as. Memories, the register maps and every per-unit record of
the state are tables, so that two equal states are equal data. -/

namespace Sys2Proof.Machine

/-- A table from unit numbers, addresses or keys to values. -/
abbrev Tab (α : Type) := List (Nat × α)

variable {α : Type}

/-- The value at key `k`; `d` says what an unlisted key reads as. -/
def Tab.get (d : Nat → α) : Tab α → Nat → α
  | [], k => d k
  | (k', v) :: t, k => if k' = k then v else Tab.get d t k

/-- Put `v` at key `k` into a table whose keys rise, keeping them rising. -/
def Tab.insert (k : Nat) (v : α) : Tab α → Tab α
  | [] => [(k, v)]
  | (k', v') :: t => if k < k' then (k, v) :: (k', v') :: t else if k = k' then (k, v) :: t else (k', v') :: Tab.insert k v t

/-- Take key `k` out. -/
def Tab.erase (k : Nat) : Tab α → Tab α
  | [] => []
  | (k', v') :: t => if k' = k then Tab.erase k t else (k', v') :: Tab.erase k t

/-- Write `v` at key `k`: the entry is removed when `v` is what an unlisted key reads as. -/
def Tab.set [DecidableEq α] (d : Nat → α) (t : Tab α) (k : Nat) (v : α) : Tab α :=
  if v = d k then Tab.erase k t else Tab.insert k v t

/-- Whether key `k` lies above the bound, when there is one. -/
def Tab.above : Option Nat → Nat → Bool
  | none, _ => true
  | some l, k => decide (l < k)

/-- Every key of the table lies above `lo`, keys rise, and no entry equals the default. -/
def Tab.wfFrom [DecidableEq α] (d : Nat → α) : Option Nat → Tab α → Bool
  | _, [] => true
  | lo, (k, v) :: t => Tab.above lo k && decide (v ≠ d k) && Tab.wfFrom d (some k) t

/-- The canonical form. -/
def Tab.wf [DecidableEq α] (d : Nat → α) (t : Tab α) : Bool := Tab.wfFrom d none t

/-- Change the value at key `k` by `f`. -/
def Tab.modify [DecidableEq α] (d : Nat → α) (t : Tab α) (k : Nat) (f : α → α) : Tab α :=
  Tab.set d t k (f (Tab.get d t k))

end Sys2Proof.Machine
end

