-- ==== Sys2Proof/Machine/RegTable.lean ====
section
/-! DEFINITION. The register map of the DV9616 as data (R107 and the register table of each chapter): every register
block with its base, instances and stride, every register with its offset, array dimensions, fields, access codes
(R11) and reset values. -/

namespace Sys2Proof.Machine

/-- Access codes of R11. A bit in no field of a register is KEEP. No register of the device has a LOCK field. -/
inductive Acc where
  | rw | ro | w1c | w1s | wo | guarded
deriving DecidableEq, Repr

/-- A field of a register: bits `hi : lo`, access code, reset value. -/
structure RegField where
  hi : Nat
  lo : Nat
  acc : Acc
  reset : Nat
deriving DecidableEq, Repr

/-- What a register does beside holding its fields: the effect of a write, or a value computed at a read. -/
inductive Act where
  | plain
  | counter
  | lnkCtl
  | lnkRepairReq
  | lnkCntClr
  | lnkLaneErr
  | lnkEvtLost
  | fltStatus
  | fltSumLo
  | fltSumHi
  | fltDetStat
  | fltDetFirst
  | fltDetLast
  | fltDetClr
  | fltContainLink
  | fltContainPortLo
  | fltContainPortHi
  | fltContainTile
  | fltContainMisc
  | fltCntClr
  | fltSev
  | pwrWake
  | pwrLrst
  | pwrCntClr
  | clkCntClr
  | secWdKick
  | secDbghalt
  | secDbgmemCtl
  | secCntClr
  | cstCntClr
  | hkpCntClr
  | thmCntClr
  | bstHeldData
  | bstCntClr
  | celQreset
  | celCntClr
  | mbxCtl
  | mbxDoorbell
  | mbxOwner
  | mbxBuf
  | cfgSnap
  | cfgSnapN
  | cfgProbeActive
  | cfgProbeMask
  | prtCntClr
  | prtStatus
  | larCntClr
  | larConfClr
  | larScrMap
  | schPoolOver
  | schCntClr
  | engEpochLo
  | engCntClr
  | engLkCntClr
  | engRingConsWr
  | engHtSeed1
  | engHtSeed2
  | eccRemapData
  | eccInjCtl
  | eccCntClr
  | vrtRepairReq
  | vrtLineErr
  | vrtCntClr
  | cfgLegStatus
  | cfgLegTemp
  | cfgLegEccCnt
deriving DecidableEq, Repr

/-- One register, or one array of registers (`dims`: stride and count of each dimension, outermost first;
`first` is the index of the row's first member where a table of the manual is split over several rows). -/
structure RegRow where
  off : Nat
  dims : List (Nat × Nat)
  first : Nat
  act : Act
  fields : List RegField
deriving DecidableEq, Repr

/-- One block of R107: `n` instances, `stride` apart, each `size` bytes long. -/
structure RegBlock where
  base : Nat
  n : Nat
  stride : Nat
  size : Nat
  staged : Bool
  rows : List RegRow
deriving DecidableEq, Repr

/-- A named field of the register map: its register's normal-view address, its lowest bit, its width, and whether it
is configuration (an RW field of a staged block, R108). -/
structure Fld where
  addr : Nat
  lo : Nat
  width : Nat
  cfg : Bool
deriving DecidableEq, Repr

/-- Registers of the block CFG (R134). -/
def blockCFGRows0 : List RegRow := [
  ⟨0x0, [], 0, .plain, [⟨23, 16, .ro, 255⟩, ⟨15, 9, .ro, 0⟩, ⟨8, 8, .ro, 0⟩, ⟨7, 7, .ro, 0⟩, ⟨6, 6, .ro, 0⟩, ⟨5, 5, .w1c, 0⟩]⟩,
  ⟨0x4, [], 0, .plain, [⟨31, 0, .w1c, 0⟩]⟩,
  ⟨0x8, [], 0, .plain, [⟨4, 0, .w1c, 0⟩]⟩,
  ⟨0xc, [], 0, .plain, [⟨31, 0, .ro, 0⟩]⟩,
  ⟨0x10, [], 0, .plain, [⟨15, 0, .rw, 10000⟩]⟩,
  ⟨0x14, [], 0, .plain, [⟨0, 0, .rw, 0⟩]⟩,
  ⟨0x18, [], 0, .plain, [⟨23, 2, .rw, 0⟩]⟩,
  ⟨0x1c, [], 0, .cfgProbeActive, [⟨31, 0, .ro, 0⟩]⟩,
  ⟨0x20, [], 0, .cfgProbeMask, [⟨31, 0, .ro, 0⟩]⟩,
  ⟨0x24, [], 0, .cfgSnap, [⟨31, 16, .ro, 0⟩, ⟨1, 1, .ro, 0⟩, ⟨0, 0, .w1s, 0⟩]⟩,
  ⟨0x28, [], 0, .plain, [⟨31, 0, .ro, 0⟩]⟩,
  ⟨0x2c, [], 0, .counter, [⟨31, 0, .ro, 0⟩]⟩,
  ⟨0x30, [], 0, .cfgSnapN, [⟨12, 0, .ro, 0⟩]⟩,
  ⟨0x100, [(4, 37)], 0, .plain, [⟨31, 0, .ro, 0⟩]⟩,
  ⟨0x200, [(4, 37)], 0, .plain, [⟨31, 0, .ro, 0⟩]⟩]
/-- The block CFG (R134). -/
def blockCFG : RegBlock := ⟨0x0, 1, 0x0, 0x294, false, blockCFGRows0⟩

/-- Registers of the block FLT (R434). -/
def blockFLTRows0 : List RegRow := [
  ⟨0x0, [], 0, .plain, [⟨2, 2, .rw, 1⟩, ⟨1, 1, .rw, 1⟩, ⟨0, 0, .rw, 1⟩]⟩,
  ⟨0x4, [], 0, .fltStatus, [⟨7, 7, .ro, 0⟩, ⟨6, 6, .ro, 0⟩, ⟨5, 5, .ro, 0⟩, ⟨4, 4, .ro, 0⟩, ⟨3, 3, .w1c, 0⟩, ⟨2, 0, .ro, 0⟩]⟩,
  ⟨0x8, [], 0, .plain, [⟨7, 0, .rw, 10⟩]⟩,
  ⟨0xc, [], 0, .plain, [⟨15, 0, .ro, 0⟩]⟩,
  ⟨0x10, [], 0, .plain, [⟨31, 31, .ro, 0⟩, ⟨9, 0, .ro, 0⟩]⟩,
  ⟨0x20, [], 0, .fltSumLo, [⟨31, 0, .ro, 0⟩]⟩,
  ⟨0x24, [], 0, .fltSumHi, [⟨31, 0, .ro, 0⟩]⟩,
  ⟨0x30, [], 0, .plain, [⟨9, 0, .wo, 0⟩]⟩,
  ⟨0x34, [], 0, .fltDetStat, [⟨31, 31, .ro, 0⟩, ⟨30, 28, .ro, 0⟩, ⟨23, 16, .ro, 0⟩, ⟨15, 0, .ro, 0⟩]⟩,
  ⟨0x38, [], 0, .fltDetFirst, [⟨31, 0, .ro, 0⟩]⟩,
  ⟨0x3c, [], 0, .fltDetLast, [⟨31, 0, .ro, 0⟩]⟩,
  ⟨0x40, [], 0, .fltDetClr, [⟨31, 31, .wo, 0⟩, ⟨24, 24, .wo, 0⟩, ⟨21, 16, .wo, 0⟩, ⟨9, 0, .wo, 0⟩]⟩,
  ⟨0x50, [], 0, .fltContainLink, [⟨15, 0, .w1c, 0⟩]⟩,
  ⟨0x54, [], 0, .fltContainPortLo, [⟨31, 0, .w1c, 0⟩]⟩,
  ⟨0x58, [], 0, .fltContainPortHi, [⟨31, 0, .w1c, 0⟩]⟩,
  ⟨0x5c, [], 0, .fltContainTile, [⟨31, 0, .w1c, 0⟩]⟩,
  ⟨0x60, [], 0, .fltContainMisc, [⟨8, 8, .w1c, 0⟩, ⟨5, 0, .w1c, 0⟩]⟩,
  ⟨0x80, [], 0, .counter, [⟨31, 0, .ro, 0⟩]⟩,
  ⟨0x84, [], 0, .counter, [⟨31, 0, .ro, 0⟩]⟩,
  ⟨0x88, [], 0, .counter, [⟨31, 0, .ro, 0⟩]⟩]
/-- Registers of the block FLT (R434). -/
def blockFLTRows1 : List RegRow := [
  ⟨0x8c, [], 0, .fltCntClr, [⟨2, 0, .wo, 0⟩]⟩,
  ⟨0x400, [(4, 77)], 0, .fltSev, [⟨30, 28, .rw, 0⟩, ⟨26, 24, .rw, 0⟩, ⟨22, 20, .rw, 0⟩, ⟨18, 16, .rw, 0⟩, ⟨14, 12, .rw, 0⟩, ⟨10, 8, .rw, 0⟩, ⟨6, 4, .rw, 0⟩, ⟨2, 0, .rw, 0⟩]⟩,
  ⟨0x534, [], 77, .fltSev, [⟨30, 28, .rw, 0⟩, ⟨26, 24, .rw, 0⟩, ⟨22, 20, .rw, 0⟩, ⟨18, 16, .rw, 0⟩, ⟨14, 12, .rw, 0⟩, ⟨10, 8, .rw, 0⟩, ⟨6, 4, .rw, 0⟩, ⟨2, 0, .ro, 5⟩]⟩,
  ⟨0x538, [(4, 12)], 78, .fltSev, [⟨30, 28, .rw, 0⟩, ⟨26, 24, .rw, 0⟩, ⟨22, 20, .rw, 0⟩, ⟨18, 16, .rw, 0⟩, ⟨14, 12, .rw, 0⟩, ⟨10, 8, .rw, 0⟩, ⟨6, 4, .rw, 0⟩, ⟨2, 0, .rw, 0⟩]⟩,
  ⟨0x568, [], 90, .fltSev, [⟨6, 4, .rw, 0⟩, ⟨2, 0, .rw, 0⟩]⟩]
/-- The block FLT (R434). -/
def blockFLT : RegBlock := ⟨0x1000, 1, 0x0, 0x56c, true, blockFLTRows0 ++ blockFLTRows1⟩

/-- Registers of the block PWR (R517). -/
def blockPWRRows0 : List RegRow := [
  ⟨0x0, [], 0, .plain, [⟨6, 6, .rw, 0⟩, ⟨5, 5, .rw, 1⟩, ⟨4, 4, .rw, 1⟩, ⟨2, 0, .rw, 1⟩]⟩,
  ⟨0x4, [], 0, .plain, [⟨10, 8, .ro, 7⟩, ⟨7, 7, .ro, 0⟩, ⟨6, 4, .ro, 1⟩, ⟨2, 0, .ro, 1⟩]⟩,
  ⟨0x8, [], 0, .plain, [⟨31, 0, .ro, 0⟩]⟩,
  ⟨0xc, [], 0, .plain, [⟨15, 8, .rw, 50⟩, ⟨2, 0, .rw, 7⟩]⟩,
  ⟨0x10, [], 0, .plain, [⟨15, 8, .rw, 208⟩, ⟨7, 0, .rw, 62⟩]⟩,
  ⟨0x14, [], 0, .pwrWake, [⟨0, 0, .w1s, 0⟩]⟩,
  ⟨0x18, [], 0, .pwrLrst, [⟨15, 0, .w1s, 0⟩]⟩,
  ⟨0x1c, [], 0, .plain, [⟨31, 31, .ro, 0⟩, ⟨30, 28, .ro, 0⟩, ⟨15, 0, .ro, 0⟩]⟩,
  ⟨0x20, [], 0, .plain, [⟨16, 16, .ro, 0⟩, ⟨15, 0, .ro, 0⟩]⟩,
  ⟨0x24, [], 0, .plain, [⟨31, 16, .ro, 0⟩, ⟨15, 0, .ro, 0⟩]⟩,
  ⟨0x40, [(4, 6)], 0, .plain, [⟨31, 0, .ro, 2863311530⟩]⟩,
  ⟨0x80, [], 0, .counter, [⟨31, 0, .ro, 0⟩]⟩,
  ⟨0x84, [], 0, .counter, [⟨31, 0, .ro, 0⟩]⟩,
  ⟨0x88, [], 0, .counter, [⟨31, 0, .ro, 0⟩]⟩,
  ⟨0x8c, [], 0, .counter, [⟨31, 0, .ro, 0⟩]⟩,
  ⟨0x90, [], 0, .counter, [⟨31, 0, .ro, 0⟩]⟩,
  ⟨0x94, [], 0, .counter, [⟨31, 0, .ro, 0⟩]⟩,
  ⟨0x98, [], 0, .counter, [⟨31, 0, .ro, 0⟩]⟩,
  ⟨0x9c, [], 0, .counter, [⟨31, 0, .ro, 0⟩]⟩,
  ⟨0xa0, [], 0, .pwrCntClr, [⟨7, 0, .wo, 0⟩]⟩]
/-- The block PWR (R517). -/
def blockPWR : RegBlock := ⟨0x2000, 1, 0x0, 0xa4, true, blockPWRRows0⟩

/-- Registers of the block CLK (R360). -/
def blockCLKRows0 : List RegRow := [
  ⟨0x0, [], 0, .plain, [⟨1, 1, .rw, 0⟩, ⟨0, 0, .rw, 1⟩]⟩,
  ⟨0x4, [], 0, .plain, [⟨11, 8, .ro, 0⟩, ⟨7, 4, .ro, 0⟩, ⟨0, 0, .ro, 0⟩]⟩,
  ⟨0x8, [], 0, .plain, [⟨15, 8, .rw, 30⟩, ⟨7, 0, .rw, 20⟩]⟩,
  ⟨0x10, [(4, 4)], 0, .plain, [⟨31, 16, .ro, 0⟩, ⟨15, 0, .ro, 0⟩]⟩,
  ⟨0x40, [], 0, .counter, [⟨31, 0, .ro, 0⟩]⟩,
  ⟨0x44, [], 0, .counter, [⟨31, 0, .ro, 0⟩]⟩,
  ⟨0x60, [], 0, .clkCntClr, [⟨1, 0, .wo, 0⟩]⟩]
/-- The block CLK (R360). -/
def blockCLK : RegBlock := ⟨0x3000, 1, 0x0, 0x64, true, blockCLKRows0⟩

/-- Registers of the block SEC (R487). -/
def blockSECRows0 : List RegRow := [
  ⟨0x0, [], 0, .plain, [⟨31, 31, .ro, 0⟩, ⟨30, 30, .ro, 0⟩, ⟨29, 29, .ro, 0⟩, ⟨28, 28, .ro, 0⟩, ⟨27, 24, .ro, 0⟩, ⟨23, 20, .ro, 0⟩, ⟨15, 8, .ro, 0⟩, ⟨5, 4, .ro, 0⟩, ⟨1, 0, .ro, 0⟩]⟩,
  ⟨0x4, [], 0, .plain, [⟨1, 0, .guarded, 0⟩]⟩,
  ⟨0x8, [], 0, .plain, [⟨1, 0, .guarded, 0⟩]⟩,
  ⟨0xc, [], 0, .plain, [⟨31, 0, .ro, 0⟩]⟩,
  ⟨0x10, [], 0, .plain, [⟨5, 5, .guarded, 0⟩, ⟨4, 4, .guarded, 0⟩, ⟨3, 3, .guarded, 0⟩, ⟨2, 2, .guarded, 0⟩, ⟨1, 1, .guarded, 0⟩, ⟨0, 0, .guarded, 0⟩]⟩,
  ⟨0x14, [], 0, .plain, [⟨3, 0, .guarded, 0⟩]⟩,
  ⟨0x18, [], 0, .secDbghalt, [⟨3, 0, .rw, 0⟩]⟩,
  ⟨0x1c, [], 0, .plain, [⟨31, 16, .ro, 50⟩, ⟨15, 0, .ro, 100⟩]⟩,
  ⟨0x20, [(4, 4)], 0, .secWdKick, [⟨0, 0, .wo, 0⟩]⟩,
  ⟨0x40, [(4, 32)], 0, .plain, [⟨31, 0, .ro, 0⟩]⟩,
  ⟨0xc0, [], 0, .plain, [⟨31, 3, .rw, 0⟩]⟩,
  ⟨0xc4, [], 0, .plain, [⟨9, 9, .rw, 0⟩, ⟨8, 8, .rw, 0⟩, ⟨7, 0, .rw, 0⟩]⟩,
  ⟨0xc8, [], 0, .plain, [⟨31, 0, .rw, 0⟩]⟩,
  ⟨0xcc, [], 0, .plain, [⟨31, 0, .rw, 0⟩]⟩,
  ⟨0xd0, [], 0, .secDbgmemCtl, [⟨31, 16, .rw, 0⟩, ⟨5, 5, .ro, 0⟩, ⟨4, 4, .ro, 0⟩, ⟨3, 3, .ro, 0⟩, ⟨2, 2, .ro, 0⟩, ⟨1, 1, .rw, 0⟩, ⟨0, 0, .w1s, 0⟩]⟩,
  ⟨0x100, [], 0, .counter, [⟨31, 0, .ro, 0⟩]⟩,
  ⟨0x104, [], 0, .counter, [⟨31, 0, .ro, 0⟩]⟩,
  ⟨0x108, [], 0, .counter, [⟨31, 0, .ro, 0⟩]⟩,
  ⟨0x10c, [], 0, .counter, [⟨31, 0, .ro, 0⟩]⟩,
  ⟨0x110, [], 0, .counter, [⟨31, 0, .ro, 0⟩]⟩]
/-- Registers of the block SEC (R487). -/
def blockSECRows1 : List RegRow := [
  ⟨0x120, [], 0, .secCntClr, [⟨4, 0, .wo, 0⟩]⟩]
/-- The block SEC (R487). -/
def blockSEC : RegBlock := ⟨0x4000, 1, 0x0, 0x124, false, blockSECRows0 ++ blockSECRows1⟩

/-- Registers of the block CST (R456). -/
def blockCSTRows0 : List RegRow := [
  ⟨0x0, [], 0, .plain, [⟨31, 31, .ro, 0⟩, ⟨30, 30, .ro, 0⟩, ⟨29, 29, .ro, 0⟩, ⟨15, 8, .ro, 0⟩, ⟨7, 0, .ro, 0⟩]⟩,
  ⟨0x40, [(4, 32)], 0, .plain, [⟨31, 28, .ro, 15⟩, ⟨27, 20, .ro, 0⟩, ⟨9, 0, .ro, 0⟩]⟩,
  ⟨0xc0, [(4, 8)], 0, .plain, [⟨9, 5, .ro, 0⟩, ⟨4, 0, .ro, 0⟩]⟩,
  ⟨0xe0, [], 0, .plain, [⟨8, 0, .ro, 0⟩]⟩,
  ⟨0xe4, [], 0, .plain, [⟨8, 0, .ro, 0⟩]⟩,
  ⟨0xe8, [], 0, .plain, [⟨7, 4, .ro, 0⟩, ⟨1, 0, .ro, 0⟩]⟩,
  ⟨0x100, [], 0, .counter, [⟨31, 0, .ro, 0⟩]⟩,
  ⟨0x104, [], 0, .counter, [⟨31, 0, .ro, 0⟩]⟩,
  ⟨0x108, [], 0, .counter, [⟨31, 0, .ro, 0⟩]⟩,
  ⟨0x10c, [], 0, .counter, [⟨31, 0, .ro, 0⟩]⟩,
  ⟨0x110, [], 0, .cstCntClr, [⟨3, 0, .wo, 0⟩]⟩]
/-- The block CST (R456). -/
def blockCST : RegBlock := ⟨0x5000, 1, 0x0, 0x114, false, blockCSTRows0⟩

/-- Registers of the block HKP (R390). -/
def blockHKPRows0 : List RegRow := [
  ⟨0x0, [], 0, .plain, [⟨1, 0, .rw, 0⟩]⟩,
  ⟨0x4, [], 0, .plain, [⟨3, 3, .ro, 0⟩, ⟨2, 2, .ro, 0⟩, ⟨1, 1, .ro, 0⟩, ⟨0, 0, .ro, 0⟩]⟩,
  ⟨0x8, [], 0, .plain, [⟨31, 0, .ro, 0⟩]⟩,
  ⟨0x10, [(4, 7)], 0, .plain, [⟨15, 8, .rw, 20⟩, ⟨7, 0, .rw, 20⟩]⟩,
  ⟨0x100, [(4, 24)], 0, .plain, [⟨15, 0, .ro, 0⟩]⟩,
  ⟨0x200, [(4, 40)], 0, .plain, [⟨17, 17, .ro, 0⟩, ⟨16, 16, .ro, 0⟩, ⟨15, 0, .ro, 0⟩]⟩,
  ⟨0x400, [(4, 192)], 0, .plain, [⟨31, 31, .ro, 0⟩, ⟨23, 0, .ro, 0⟩]⟩,
  ⟨0x800, [], 0, .counter, [⟨31, 0, .ro, 0⟩]⟩,
  ⟨0x804, [], 0, .counter, [⟨31, 0, .ro, 0⟩]⟩,
  ⟨0x808, [], 0, .counter, [⟨31, 0, .ro, 0⟩]⟩,
  ⟨0x810, [], 0, .hkpCntClr, [⟨2, 0, .wo, 0⟩]⟩]
/-- The block HKP (R390). -/
def blockHKP : RegBlock := ⟨0x6000, 1, 0x0, 0x814, true, blockHKPRows0⟩

/-- Registers of the block THM (R390). -/
def blockTHMRows0 : List RegRow := [
  ⟨0x0, [], 0, .plain, [⟨2, 2, .rw, 1⟩, ⟨1, 1, .rw, 1⟩, ⟨0, 0, .rw, 1⟩]⟩,
  ⟨0x4, [], 0, .plain, [⟨31, 24, .rw, 55⟩, ⟨23, 16, .rw, 85⟩, ⟨15, 8, .rw, 100⟩, ⟨7, 0, .rw, 95⟩]⟩,
  ⟨0x8, [], 0, .plain, [⟨19, 16, .rw, 6⟩, ⟨15, 8, .rw, 112⟩, ⟨7, 0, .rw, 180⟩]⟩,
  ⟨0xc, [], 0, .plain, [⟨11, 8, .rw, 8⟩, ⟨3, 0, .rw, 6⟩]⟩,
  ⟨0x10, [], 0, .plain, [⟨6, 0, .rw, 16⟩]⟩,
  ⟨0x14, [], 0, .plain, [⟨8, 8, .rw, 1⟩, ⟨4, 0, .rw, 8⟩]⟩,
  ⟨0x18, [], 0, .plain, [⟨17, 17, .ro, 0⟩, ⟨16, 16, .ro, 0⟩, ⟨15, 8, .ro, 0⟩, ⟨5, 0, .ro, 63⟩]⟩,
  ⟨0x1c, [], 0, .plain, [⟨31, 31, .ro, 0⟩, ⟨4, 0, .ro, 0⟩]⟩,
  ⟨0x20, [(4, 3)], 0, .plain, [⟨31, 0, .rw, 0⟩]⟩,
  ⟨0x2c, [], 3, .plain, [⟨7, 0, .rw, 0⟩]⟩,
  ⟨0x80, [(4, 24)], 0, .plain, [⟨23, 23, .ro, 0⟩, ⟨22, 22, .ro, 0⟩, ⟨21, 21, .ro, 0⟩, ⟨20, 19, .ro, 0⟩, ⟨18, 18, .ro, 0⟩, ⟨17, 17, .ro, 0⟩, ⟨16, 16, .ro, 0⟩, ⟨15, 0, .ro, 0⟩]⟩,
  ⟨0x100, [(4, 104)], 0, .plain, [⟨18, 16, .ro, 0⟩, ⟨15, 0, .ro, 0⟩]⟩,
  ⟨0x2a0, [(4, 16)], 0, .plain, [⟨18, 18, .ro, 0⟩, ⟨17, 17, .ro, 0⟩, ⟨16, 16, .ro, 0⟩, ⟨15, 0, .ro, 0⟩]⟩,
  ⟨0x300, [(4, 33)], 0, .plain, [⟨18, 16, .ro, 0⟩, ⟨15, 0, .ro, 0⟩]⟩,
  ⟨0x3c0, [], 0, .counter, [⟨31, 0, .ro, 0⟩]⟩,
  ⟨0x3c4, [], 0, .counter, [⟨31, 0, .ro, 0⟩]⟩,
  ⟨0x3c8, [], 0, .counter, [⟨31, 0, .ro, 0⟩]⟩,
  ⟨0x3cc, [], 0, .counter, [⟨31, 0, .ro, 0⟩]⟩,
  ⟨0x3d0, [], 0, .counter, [⟨31, 0, .ro, 0⟩]⟩,
  ⟨0x3d4, [], 0, .counter, [⟨31, 0, .ro, 0⟩]⟩]
/-- Registers of the block THM (R390). -/
def blockTHMRows1 : List RegRow := [
  ⟨0x3d8, [], 0, .counter, [⟨31, 0, .ro, 0⟩]⟩,
  ⟨0x3dc, [], 0, .counter, [⟨31, 0, .ro, 0⟩]⟩,
  ⟨0x3e0, [], 0, .counter, [⟨31, 0, .ro, 0⟩]⟩,
  ⟨0x3e4, [], 0, .counter, [⟨31, 0, .ro, 0⟩]⟩,
  ⟨0x3f0, [], 0, .thmCntClr, [⟨9, 0, .wo, 0⟩]⟩]
/-- The block THM (R390). -/
def blockTHM : RegBlock := ⟨0x7000, 1, 0x0, 0x3f4, true, blockTHMRows0 ++ blockTHMRows1⟩

/-- Registers of the block BST (R417). -/
def blockBSTRows0 : List RegRow := [
  ⟨0x0, [], 0, .plain, [⟨6, 6, .rw, 1⟩, ⟨5, 5, .rw, 1⟩, ⟨4, 4, .rw, 1⟩, ⟨3, 3, .rw, 1⟩, ⟨2, 2, .rw, 1⟩, ⟨1, 1, .rw, 1⟩, ⟨0, 0, .rw, 1⟩]⟩,
  ⟨0x4, [], 0, .plain, [⟨31, 16, .rw, 600⟩, ⟨15, 0, .rw, 60⟩]⟩,
  ⟨0x8, [], 0, .plain, [⟨15, 8, .rw, 1⟩, ⟨7, 0, .rw, 1⟩]⟩,
  ⟨0xc, [], 0, .plain, [⟨15, 0, .rw, 60⟩]⟩,
  ⟨0x10, [], 0, .plain, [⟨15, 8, .rw, 16⟩, ⟨7, 0, .rw, 3⟩]⟩,
  ⟨0x20, [], 0, .plain, [⟨31, 31, .ro, 0⟩, ⟨30, 30, .ro, 0⟩, ⟨29, 24, .ro, 63⟩, ⟨23, 16, .ro, 0⟩, ⟨15, 8, .ro, 0⟩, ⟨7, 4, .ro, 0⟩, ⟨3, 0, .ro, 0⟩]⟩,
  ⟨0x30, [(4, 4)], 0, .plain, [⟨31, 0, .ro, 0⟩]⟩,
  ⟨0x40, [], 0, .plain, [⟨6, 0, .wo, 0⟩]⟩,
  ⟨0x44, [], 0, .bstHeldData, [⟨31, 31, .ro, 0⟩, ⟨30, 26, .ro, 0⟩, ⟨25, 21, .ro, 0⟩, ⟨15, 0, .ro, 0⟩]⟩,
  ⟨0x80, [], 0, .counter, [⟨31, 0, .ro, 0⟩]⟩,
  ⟨0x84, [], 0, .counter, [⟨31, 0, .ro, 0⟩]⟩,
  ⟨0x88, [], 0, .counter, [⟨31, 0, .ro, 0⟩]⟩,
  ⟨0x8c, [], 0, .counter, [⟨31, 0, .ro, 0⟩]⟩,
  ⟨0x90, [], 0, .counter, [⟨31, 0, .ro, 0⟩]⟩,
  ⟨0x94, [], 0, .counter, [⟨31, 0, .ro, 0⟩]⟩,
  ⟨0xa0, [], 0, .bstCntClr, [⟨5, 0, .wo, 0⟩]⟩]
/-- The block BST (R417). -/
def blockBST : RegBlock := ⟨0x8000, 1, 0x0, 0xa4, true, blockBSTRows0⟩

/-- Registers of the block MAP (R170). -/
def blockMAPRows0 : List RegRow := [
  ⟨0x0, [(4, 24)], 0, .plain, [⟨1, 0, .rw, 0⟩]⟩,
  ⟨0x80, [], 0, .counter, [⟨31, 0, .ro, 0⟩]⟩]
/-- The block MAP (R170). -/
def blockMAP : RegBlock := ⟨0x9000, 1, 0x0, 0x84, true, blockMAPRows0⟩

/-- Registers of the block CEL (R284). -/
def blockCELRows0 : List RegRow := [
  ⟨0x0, [], 0, .plain, [⟨1, 1, .rw, 1⟩, ⟨0, 0, .rw, 0⟩]⟩,
  ⟨0x4, [], 0, .plain, [⟨6, 0, .rw, 1⟩]⟩,
  ⟨0x8, [], 0, .plain, [⟨19, 0, .rw, 0⟩]⟩,
  ⟨0xc, [], 0, .plain, [⟨16, 0, .rw, 0⟩]⟩,
  ⟨0x10, [], 0, .plain, [⟨19, 0, .rw, 0⟩]⟩,
  ⟨0x14, [], 0, .plain, [⟨7, 0, .rw, 16⟩]⟩,
  ⟨0x18, [], 0, .plain, [⟨27, 0, .rw, 0⟩]⟩,
  ⟨0x20, [], 0, .plain, [⟨31, 31, .ro, 0⟩, ⟨30, 30, .ro, 0⟩, ⟨27, 0, .ro, 0⟩]⟩,
  ⟨0x24, [], 0, .plain, [⟨27, 0, .ro, 0⟩]⟩,
  ⟨0x30, [(4, 4)], 0, .plain, [⟨31, 16, .ro, 0⟩, ⟨15, 0, .ro, 0⟩]⟩,
  ⟨0x40, [], 0, .celQreset, [⟨31, 31, .wo, 0⟩, ⟨17, 0, .wo, 0⟩]⟩,
  ⟨0x80, [], 0, .counter, [⟨31, 0, .ro, 0⟩]⟩,
  ⟨0x84, [], 0, .counter, [⟨31, 0, .ro, 0⟩]⟩,
  ⟨0x88, [], 0, .counter, [⟨31, 0, .ro, 0⟩]⟩,
  ⟨0x8c, [], 0, .counter, [⟨31, 0, .ro, 0⟩]⟩,
  ⟨0x90, [], 0, .counter, [⟨31, 0, .ro, 0⟩]⟩,
  ⟨0x94, [], 0, .counter, [⟨31, 0, .ro, 0⟩]⟩,
  ⟨0x98, [], 0, .counter, [⟨31, 0, .ro, 0⟩]⟩,
  ⟨0x9c, [], 0, .counter, [⟨31, 0, .ro, 0⟩]⟩,
  ⟨0xa0, [], 0, .counter, [⟨31, 0, .ro, 0⟩]⟩]
/-- Registers of the block CEL (R284). -/
def blockCELRows1 : List RegRow := [
  ⟨0xc0, [], 0, .celCntClr, [⟨8, 0, .wo, 0⟩]⟩]
/-- The block CEL (R284). -/
def blockCEL : RegBlock := ⟨0xa000, 1, 0x0, 0xc4, true, blockCELRows0 ++ blockCELRows1⟩

/-- Registers of the block MBX (R133). -/
def blockMBXRows0 : List RegRow := [
  ⟨0x0, [], 0, .mbxCtl, [⟨2, 2, .w1s, 0⟩, ⟨1, 1, .rw, 1⟩, ⟨0, 0, .rw, 1⟩]⟩,
  ⟨0x4, [], 0, .mbxDoorbell, [⟨0, 0, .w1s, 0⟩]⟩,
  ⟨0x8, [], 0, .plain, [⟨31, 0, .ro, 8454144⟩]⟩,
  ⟨0xc, [], 0, .mbxOwner, [⟨8, 8, .w1s, 0⟩, ⟨7, 7, .ro, 0⟩, ⟨6, 0, .ro, 0⟩]⟩,
  ⟨0x10, [], 0, .plain, [⟨15, 0, .rw, 10000⟩]⟩,
  ⟨0x14, [], 0, .plain, [⟨15, 0, .rw, 100⟩]⟩,
  ⟨0x18, [], 0, .counter, [⟨31, 0, .ro, 0⟩]⟩,
  ⟨0x1c, [], 0, .counter, [⟨31, 0, .ro, 0⟩]⟩,
  ⟨0x20, [], 0, .counter, [⟨31, 0, .ro, 0⟩]⟩,
  ⟨0x100, [(4, 64)], 0, .mbxBuf, [⟨31, 0, .rw, 0⟩]⟩]
/-- The block MBX (R133). -/
def blockMBX : RegBlock := ⟨0x10000, 6, 0x400, 0x200, false, blockMBXRows0⟩

/-- Registers of the block LNK (R62). -/
def blockLNKRows0 : List RegRow := [
  ⟨0x0, [], 0, .lnkCtl, [⟨3, 3, .w1s, 0⟩, ⟨2, 2, .rw, 0⟩, ⟨1, 1, .rw, 0⟩, ⟨0, 0, .rw, 1⟩]⟩,
  ⟨0x4, [], 0, .plain, [⟨23, 16, .ro, 0⟩, ⟨15, 12, .ro, 0⟩, ⟨11, 11, .ro, 0⟩, ⟨10, 10, .ro, 0⟩, ⟨9, 9, .ro, 0⟩, ⟨8, 8, .ro, 0⟩, ⟨2, 0, .ro, 0⟩]⟩,
  ⟨0x8, [], 0, .plain, [⟨31, 24, .rw, 50⟩, ⟨23, 16, .rw, 16⟩, ⟨7, 0, .rw, 90⟩]⟩,
  ⟨0xc, [], 0, .plain, [⟨19, 18, .ro, 0⟩, ⟨17, 17, .ro, 0⟩, ⟨16, 10, .ro, 0⟩, ⟨9, 8, .ro, 0⟩, ⟨7, 7, .ro, 0⟩, ⟨6, 0, .ro, 0⟩]⟩,
  ⟨0x10, [], 0, .plain, [⟨19, 18, .ro, 0⟩, ⟨17, 17, .ro, 0⟩, ⟨16, 10, .ro, 0⟩, ⟨9, 8, .ro, 0⟩, ⟨7, 7, .ro, 0⟩, ⟨6, 0, .ro, 0⟩]⟩,
  ⟨0x14, [], 0, .lnkRepairReq, [⟨8, 8, .w1s, 0⟩, ⟨7, 7, .rw, 0⟩, ⟨6, 0, .rw, 0⟩]⟩,
  ⟨0x18, [], 0, .plain, [⟨19, 16, .rw, 8⟩, ⟨9, 0, .rw, 128⟩]⟩,
  ⟨0x1c, [], 0, .plain, [⟨6, 0, .rw, 48⟩]⟩,
  ⟨0x20, [], 0, .plain, [⟨15, 8, .rw, 32⟩, ⟨1, 1, .rw, 1⟩, ⟨0, 0, .rw, 0⟩]⟩,
  ⟨0x24, [], 0, .plain, [⟨31, 24, .rw, 64⟩, ⟨15, 8, .rw, 32⟩, ⟨7, 0, .rw, 16⟩]⟩,
  ⟨0x28, [], 0, .plain, [⟨6, 0, .rw, 0⟩]⟩,
  ⟨0x2c, [], 0, .lnkLaneErr, [⟨31, 0, .ro, 0⟩]⟩,
  ⟨0x40, [], 0, .counter, [⟨31, 0, .ro, 0⟩]⟩,
  ⟨0x44, [], 0, .counter, [⟨31, 0, .ro, 0⟩]⟩,
  ⟨0x48, [], 0, .counter, [⟨31, 0, .ro, 0⟩]⟩,
  ⟨0x4c, [], 0, .counter, [⟨31, 0, .ro, 0⟩]⟩,
  ⟨0x50, [], 0, .counter, [⟨31, 0, .ro, 0⟩]⟩,
  ⟨0x54, [], 0, .counter, [⟨31, 0, .ro, 0⟩]⟩,
  ⟨0x58, [], 0, .counter, [⟨31, 0, .ro, 0⟩]⟩,
  ⟨0x5c, [], 0, .counter, [⟨31, 0, .ro, 0⟩]⟩]
/-- Registers of the block LNK (R62). -/
def blockLNKRows1 : List RegRow := [
  ⟨0x60, [], 0, .lnkCntClr, [⟨8, 8, .wo, 0⟩, ⟨7, 0, .wo, 0⟩]⟩]
/-- The block LNK (R62). -/
def blockLNK : RegBlock := ⟨0x20000, 16, 0x400, 0x64, false, blockLNKRows0 ++ blockLNKRows1⟩

/-- Registers of the block LNKC (R62). -/
def blockLNKCRows0 : List RegRow := [
  ⟨0x0, [], 0, .plain, [⟨7, 7, .rw, 1⟩, ⟨5, 0, .rw, 0⟩]⟩,
  ⟨0x4, [], 0, .lnkEvtLost, [⟨31, 0, .ro, 0⟩]⟩]
/-- The block LNKC (R62). -/
def blockLNKC : RegBlock := ⟨0x24000, 1, 0x0, 0x8, false, blockLNKCRows0⟩

/-- Registers of the block PRT (R197). -/
def blockPRTRows0 : List RegRow := [
  ⟨0x0, [], 0, .plain, [⟨11, 8, .rw, 3⟩, ⟨2, 2, .rw, 0⟩, ⟨1, 1, .rw, 0⟩, ⟨0, 0, .rw, 0⟩]⟩,
  ⟨0x4, [], 0, .plain, [⟨8, 0, .rw, 511⟩]⟩,
  ⟨0x8, [], 0, .plain, [⟨9, 0, .rw, 256⟩]⟩,
  ⟨0xc, [], 0, .plain, [⟨7, 0, .rw, 32⟩]⟩,
  ⟨0x10, [], 0, .plain, [⟨31, 24, .rw, 0⟩, ⟨23, 16, .rw, 0⟩, ⟨15, 8, .rw, 0⟩, ⟨7, 0, .rw, 0⟩]⟩,
  ⟨0x20, [(4, 8)], 0, .plain, [⟨31, 24, .rw, 0⟩, ⟨23, 16, .rw, 0⟩, ⟨15, 8, .rw, 0⟩, ⟨7, 0, .rw, 0⟩]⟩,
  ⟨0x40, [], 0, .prtStatus, [⟨24, 16, .ro, 256⟩, ⟨10, 10, .ro, 0⟩, ⟨9, 0, .ro, 0⟩]⟩,
  ⟨0x80, [], 0, .counter, [⟨31, 0, .ro, 0⟩]⟩,
  ⟨0x84, [], 0, .counter, [⟨31, 0, .ro, 0⟩]⟩,
  ⟨0x88, [], 0, .counter, [⟨31, 0, .ro, 0⟩]⟩,
  ⟨0x8c, [], 0, .counter, [⟨31, 0, .ro, 0⟩]⟩,
  ⟨0x90, [], 0, .counter, [⟨31, 0, .ro, 0⟩]⟩,
  ⟨0x94, [], 0, .counter, [⟨31, 0, .ro, 0⟩]⟩,
  ⟨0x98, [], 0, .counter, [⟨31, 0, .ro, 0⟩]⟩,
  ⟨0x9c, [], 0, .counter, [⟨31, 0, .ro, 0⟩]⟩,
  ⟨0xa0, [], 0, .counter, [⟨31, 0, .ro, 0⟩]⟩,
  ⟨0xa4, [], 0, .counter, [⟨31, 0, .ro, 0⟩]⟩,
  ⟨0xa8, [], 0, .counter, [⟨31, 0, .ro, 0⟩]⟩,
  ⟨0xac, [], 0, .prtCntClr, [⟨10, 0, .wo, 0⟩]⟩]
/-- The block PRT (R197). -/
def blockPRT : RegBlock := ⟨0x30000, 64, 0x100, 0xb0, true, blockPRTRows0⟩

/-- Registers of the block LAR (R301). -/
def blockLARRows0 : List RegRow := [
  ⟨0x0, [], 0, .plain, [⟨2, 0, .rw, 0⟩]⟩,
  ⟨0x8, [], 0, .plain, [⟨31, 4, .rw, 21246501⟩, ⟨3, 0, .ro, 15⟩]⟩,
  ⟨0xc, [], 0, .plain, [⟨31, 0, .rw, 286331153⟩]⟩,
  ⟨0x10, [], 0, .plain, [⟨7, 7, .rw, 0⟩, ⟨6, 0, .rw, 0⟩]⟩,
  ⟨0x20, [], 0, .larScrMap, [⟨21, 16, .ro, 0⟩, ⟨10, 4, .ro, 36⟩, ⟨3, 0, .ro, 9⟩]⟩,
  ⟨0x24, [], 0, .plain, [⟨8, 8, .ro, 0⟩, ⟨6, 0, .ro, 0⟩]⟩,
  ⟨0x28, [], 0, .plain, [⟨15, 0, .ro, 0⟩]⟩,
  ⟨0x40, [], 0, .counter, [⟨31, 0, .ro, 0⟩]⟩,
  ⟨0x44, [], 0, .counter, [⟨31, 0, .ro, 0⟩]⟩,
  ⟨0x48, [], 0, .counter, [⟨31, 0, .ro, 0⟩]⟩,
  ⟨0x4c, [], 0, .counter, [⟨31, 0, .ro, 0⟩]⟩,
  ⟨0x60, [], 0, .larCntClr, [⟨3, 0, .wo, 0⟩]⟩,
  ⟨0x100, [(4, 16)], 0, .counter, [⟨31, 0, .ro, 0⟩]⟩,
  ⟨0x140, [(4, 32)], 0, .counter, [⟨31, 0, .ro, 0⟩]⟩,
  ⟨0x1c0, [], 0, .larConfClr, [⟨31, 0, .wo, 0⟩]⟩]
/-- The block LAR (R301). -/
def blockLAR : RegBlock := ⟨0x40000, 4, 0x1000, 0x1c4, true, blockLARRows0⟩

/-- Registers of the block SCH (R170). -/
def blockSCHRows0 : List RegRow := [
  ⟨0x0, [], 0, .plain, [⟨8, 4, .rw, 16⟩, ⟨3, 3, .rw, 1⟩, ⟨2, 2, .rw, 1⟩, ⟨1, 0, .rw, 2⟩]⟩,
  ⟨0x4, [], 0, .plain, [⟨14, 8, .rw, 64⟩, ⟨6, 0, .rw, 56⟩]⟩,
  ⟨0x8, [], 0, .plain, [⟨23, 16, .rw, 8⟩, ⟨10, 0, .rw, 1024⟩]⟩,
  ⟨0xc, [], 0, .plain, [⟨15, 8, .ro, 0⟩, ⟨7, 7, .ro, 0⟩, ⟨6, 6, .ro, 0⟩, ⟨5, 5, .ro, 0⟩, ⟨4, 4, .ro, 0⟩, ⟨3, 3, .ro, 0⟩, ⟨2, 2, .ro, 0⟩, ⟨1, 1, .ro, 0⟩, ⟨0, 0, .ro, 0⟩]⟩,
  ⟨0x10, [], 0, .plain, [⟨31, 24, .ro, 0⟩, ⟨23, 16, .ro, 0⟩, ⟨15, 12, .ro, 0⟩, ⟨11, 8, .ro, 0⟩, ⟨7, 4, .ro, 0⟩]⟩,
  ⟨0x14, [], 0, .plain, [⟨7, 0, .ro, 56⟩]⟩,
  ⟨0x18, [], 0, .plain, [⟨25, 25, .rw, 0⟩, ⟨24, 24, .ro, 0⟩, ⟨23, 16, .rw, 0⟩, ⟨15, 8, .rw, 0⟩, ⟨7, 0, .rw, 0⟩]⟩,
  ⟨0x1c, [], 0, .plain, [⟨23, 18, .ro, 0⟩, ⟨17, 17, .ro, 0⟩, ⟨16, 16, .ro, 0⟩, ⟨8, 0, .ro, 256⟩]⟩,
  ⟨0x20, [], 0, .schPoolOver, [⟨31, 0, .ro, 0⟩]⟩,
  ⟨0x40, [], 0, .counter, [⟨31, 0, .ro, 0⟩]⟩,
  ⟨0x44, [], 0, .counter, [⟨31, 0, .ro, 0⟩]⟩,
  ⟨0x48, [], 0, .counter, [⟨31, 0, .ro, 0⟩]⟩,
  ⟨0x4c, [], 0, .counter, [⟨31, 0, .ro, 0⟩]⟩,
  ⟨0x50, [], 0, .counter, [⟨31, 0, .ro, 0⟩]⟩,
  ⟨0x54, [], 0, .counter, [⟨31, 0, .ro, 0⟩]⟩,
  ⟨0x58, [], 0, .counter, [⟨31, 0, .ro, 0⟩]⟩,
  ⟨0x5c, [], 0, .counter, [⟨31, 0, .ro, 0⟩]⟩,
  ⟨0x60, [], 0, .schCntClr, [⟨7, 0, .wo, 0⟩]⟩]
/-- The block SCH (R170). -/
def blockSCH : RegBlock := ⟨0x100000, 33, 0x8000, 0x64, true, blockSCHRows0⟩

/-- Registers of the block ENG (R230). -/
def blockENGRows0 : List RegRow := [
  ⟨0x0, [], 0, .plain, [⟨1, 1, .ro, 0⟩, ⟨0, 0, .rw, 1⟩]⟩,
  ⟨0x10, [], 0, .engEpochLo, [⟨31, 0, .ro, 0⟩]⟩,
  ⟨0x14, [], 0, .plain, [⟨31, 0, .ro, 0⟩]⟩,
  ⟨0x40, [], 0, .counter, [⟨31, 0, .ro, 0⟩]⟩,
  ⟨0x44, [], 0, .counter, [⟨31, 0, .ro, 0⟩]⟩,
  ⟨0x48, [], 0, .counter, [⟨31, 0, .ro, 0⟩]⟩,
  ⟨0x4c, [], 0, .counter, [⟨31, 0, .ro, 0⟩]⟩,
  ⟨0x50, [], 0, .counter, [⟨31, 0, .ro, 0⟩]⟩,
  ⟨0x54, [], 0, .counter, [⟨31, 0, .ro, 0⟩]⟩,
  ⟨0x58, [], 0, .counter, [⟨31, 0, .ro, 0⟩]⟩,
  ⟨0x5c, [], 0, .counter, [⟨31, 0, .ro, 0⟩]⟩,
  ⟨0x60, [], 0, .counter, [⟨31, 0, .ro, 0⟩]⟩,
  ⟨0x64, [], 0, .counter, [⟨31, 0, .ro, 0⟩]⟩,
  ⟨0x80, [], 0, .engCntClr, [⟨9, 0, .wo, 0⟩]⟩,
  ⟨0x100, [(8, 16)], 0, .plain, [⟨31, 31, .rw, 0⟩, ⟨29, 28, .rw, 0⟩, ⟨20, 0, .rw, 0⟩]⟩,
  ⟨0x104, [(8, 16)], 0, .plain, [⟨20, 0, .rw, 0⟩]⟩,
  ⟨0x180, [], 0, .counter, [⟨31, 0, .ro, 0⟩]⟩,
  ⟨0x184, [], 0, .counter, [⟨31, 0, .ro, 0⟩]⟩,
  ⟨0x188, [], 0, .counter, [⟨31, 0, .ro, 0⟩]⟩,
  ⟨0x18c, [], 0, .counter, [⟨31, 0, .ro, 0⟩]⟩]
/-- Registers of the block ENG (R230). -/
def blockENGRows1 : List RegRow := [
  ⟨0x190, [], 0, .counter, [⟨31, 0, .ro, 0⟩]⟩,
  ⟨0x194, [], 0, .counter, [⟨31, 0, .ro, 0⟩]⟩,
  ⟨0x198, [], 0, .counter, [⟨31, 0, .ro, 0⟩]⟩,
  ⟨0x19c, [], 0, .counter, [⟨31, 0, .ro, 0⟩]⟩,
  ⟨0x1a0, [], 0, .counter, [⟨31, 0, .ro, 0⟩]⟩,
  ⟨0x1a4, [], 0, .counter, [⟨31, 0, .ro, 0⟩]⟩,
  ⟨0x1a8, [], 0, .counter, [⟨31, 0, .ro, 0⟩]⟩,
  ⟨0x1ac, [], 0, .counter, [⟨31, 0, .ro, 0⟩]⟩,
  ⟨0x1c0, [], 0, .engLkCntClr, [⟨11, 0, .wo, 0⟩]⟩,
  ⟨0x1e0, [], 0, .plain, [⟨7, 0, .rw, 16⟩]⟩,
  ⟨0x800, [(32, 64)], 0, .plain, [⟨2, 2, .rw, 0⟩, ⟨1, 0, .rw, 0⟩]⟩,
  ⟨0x804, [(32, 64)], 0, .plain, [⟨31, 0, .rw, 0⟩]⟩,
  ⟨0x808, [(32, 64)], 0, .plain, [⟨31, 0, .rw, 0⟩]⟩,
  ⟨0x80c, [(32, 64)], 0, .plain, [⟨31, 0, .rw, 0⟩]⟩,
  ⟨0x810, [(32, 64)], 0, .plain, [⟨31, 0, .rw, 0⟩]⟩,
  ⟨0x814, [(32, 64)], 0, .plain, []⟩,
  ⟨0x818, [(32, 64)], 0, .plain, []⟩,
  ⟨0x81c, [(32, 64)], 0, .plain, []⟩,
  ⟨0x1000, [(16, 64)], 0, .plain, [⟨31, 31, .rw, 0⟩, ⟨30, 29, .rw, 0⟩, ⟨28, 25, .rw, 8⟩, ⟨20, 16, .rw, 5⟩, ⟨5, 0, .rw, 8⟩]⟩,
  ⟨0x1004, [(16, 64)], 0, .plain, [⟨28, 0, .rw, 0⟩]⟩]
/-- Registers of the block ENG (R230). -/
def blockENGRows2 : List RegRow := [
  ⟨0x1008, [(16, 64)], 0, .engHtSeed1, [⟨31, 0, .rw, 518848512⟩]⟩,
  ⟨0x100c, [(16, 64)], 0, .engHtSeed2, [⟨31, 0, .rw, 518848513⟩]⟩,
  ⟨0x1400, [(128, 16)], 0, .plain, [⟨31, 31, .rw, 0⟩, ⟨30, 30, .rw, 0⟩, ⟨26, 24, .rw, 0⟩, ⟨11, 8, .rw, 0⟩, ⟨3, 0, .rw, 1⟩]⟩,
  ⟨0x1404, [(128, 16)], 0, .plain, [⟨31, 31, .rw, 0⟩, ⟨23, 0, .rw, 0⟩]⟩,
  ⟨0x1440, [(128, 16), (8, 8)], 0, .plain, [⟨31, 6, .rw, 0⟩]⟩,
  ⟨0x1444, [(128, 16), (8, 8)], 0, .plain, [⟨12, 8, .rw, 8⟩, ⟨7, 0, .rw, 0⟩]⟩]
/-- The block ENG (R230). -/
def blockENG : RegBlock := ⟨0x102000, 33, 0x8000, 0x1c00, true, blockENGRows0 ++ blockENGRows1 ++ blockENGRows2⟩

/-- Registers of the block ENG0 (R230). -/
def blockENG0Rows0 : List RegRow := [
  ⟨0xc0, [], 0, .plain, [⟨31, 6, .rw, 0⟩]⟩,
  ⟨0xc4, [], 0, .plain, [⟨7, 0, .rw, 0⟩]⟩,
  ⟨0xc8, [], 0, .plain, [⟨31, 31, .rw, 0⟩, ⟨11, 8, .rw, 12⟩, ⟨4, 0, .rw, 16⟩]⟩,
  ⟨0xcc, [], 0, .plain, [⟨31, 0, .ro, 0⟩]⟩,
  ⟨0xd0, [], 0, .plain, [⟨31, 0, .ro, 0⟩]⟩,
  ⟨0xd4, [], 0, .engRingConsWr, [⟨31, 0, .wo, 0⟩]⟩,
  ⟨0xd8, [], 0, .plain, [⟨12, 0, .ro, 0⟩]⟩]
/-- The block ENG0 (R230). -/
def blockENG0 : RegBlock := ⟨0x102000, 1, 0x0, 0xdc, true, blockENG0Rows0⟩

/-- Registers of the block ECC (R333). -/
def blockECCRows0 : List RegRow := [
  ⟨0x0, [], 0, .plain, [⟨2, 2, .rw, 1⟩, ⟨1, 1, .rw, 1⟩, ⟨0, 0, .rw, 1⟩]⟩,
  ⟨0x4, [], 0, .plain, [⟨7, 0, .rw, 24⟩]⟩,
  ⟨0x8, [], 0, .plain, [⟨15, 8, .rw, 16⟩, ⟨2, 0, .rw, 2⟩]⟩,
  ⟨0xc, [], 0, .plain, [⟨13, 8, .rw, 40⟩, ⟨2, 0, .rw, 2⟩]⟩,
  ⟨0x10, [], 0, .plain, [⟨20, 16, .ro, 0⟩, ⟨12, 8, .ro, 0⟩, ⟨0, 0, .ro, 0⟩]⟩,
  ⟨0x14, [], 0, .plain, [⟨17, 17, .ro, 0⟩, ⟨16, 16, .ro, 0⟩, ⟨15, 8, .ro, 0⟩, ⟨7, 0, .ro, 0⟩]⟩,
  ⟨0x18, [], 0, .plain, [⟨31, 16, .ro, 0⟩, ⟨12, 8, .ro, 0⟩, ⟨4, 0, .ro, 0⟩]⟩,
  ⟨0x1c, [], 0, .plain, [⟨31, 0, .ro, 0⟩]⟩,
  ⟨0x20, [], 0, .plain, [⟨8, 4, .wo, 0⟩, ⟨3, 0, .wo, 0⟩]⟩,
  ⟨0x24, [], 0, .eccRemapData, [⟨31, 31, .ro, 0⟩, ⟨30, 30, .ro, 0⟩, ⟨15, 0, .ro, 0⟩]⟩,
  ⟨0x28, [], 0, .plain, [⟨15, 8, .ro, 0⟩, ⟨7, 0, .ro, 0⟩]⟩,
  ⟨0x80, [], 0, .counter, [⟨31, 0, .ro, 0⟩]⟩,
  ⟨0x84, [], 0, .counter, [⟨31, 0, .ro, 0⟩]⟩,
  ⟨0x88, [], 0, .counter, [⟨31, 0, .ro, 0⟩]⟩,
  ⟨0x8c, [], 0, .counter, [⟨31, 0, .ro, 0⟩]⟩,
  ⟨0x90, [], 0, .counter, [⟨31, 0, .ro, 0⟩]⟩,
  ⟨0x94, [], 0, .counter, [⟨31, 0, .ro, 0⟩]⟩,
  ⟨0x98, [], 0, .counter, [⟨31, 0, .ro, 0⟩]⟩,
  ⟨0x9c, [], 0, .counter, [⟨31, 0, .ro, 0⟩]⟩,
  ⟨0xa0, [], 0, .counter, [⟨31, 0, .ro, 0⟩]⟩]
/-- Registers of the block ECC (R333). -/
def blockECCRows1 : List RegRow := [
  ⟨0xa4, [], 0, .counter, [⟨31, 0, .ro, 0⟩]⟩,
  ⟨0xa8, [], 0, .counter, [⟨31, 0, .ro, 0⟩]⟩,
  ⟨0xac, [], 0, .counter, [⟨31, 0, .ro, 0⟩]⟩,
  ⟨0xb0, [], 0, .counter, [⟨31, 0, .ro, 0⟩]⟩,
  ⟨0xb4, [], 0, .counter, [⟨31, 0, .ro, 0⟩]⟩,
  ⟨0xb8, [], 0, .counter, [⟨31, 0, .ro, 0⟩]⟩,
  ⟨0xe0, [], 0, .eccCntClr, [⟨17, 0, .wo, 0⟩]⟩]
/-- The block ECC (R333). -/
def blockECC : RegBlock := ⟨0x104000, 32, 0x8000, 0xe4, true, blockECCRows0 ++ blockECCRows1⟩

/-- Registers of the block ECC0 (R333). -/
def blockECC0Rows0 : List RegRow := [
  ⟨0x30, [], 0, .plain, [⟨31, 3, .wo, 0⟩]⟩,
  ⟨0x34, [], 0, .plain, [⟨7, 0, .wo, 0⟩]⟩,
  ⟨0x38, [], 0, .plain, [⟨31, 0, .wo, 0⟩]⟩,
  ⟨0x3c, [], 0, .plain, [⟨31, 0, .wo, 0⟩]⟩,
  ⟨0x40, [], 0, .plain, [⟨15, 0, .wo, 0⟩]⟩,
  ⟨0x44, [], 0, .eccInjCtl, [⟨1, 1, .ro, 0⟩, ⟨0, 0, .w1s, 0⟩]⟩]
/-- The block ECC0 (R333). -/
def blockECC0 : RegBlock := ⟨0x104000, 1, 0x0, 0x48, true, blockECC0Rows0⟩

/-- Registers of the block ECCQ (R333). -/
def blockECCQRows0 : List RegRow := [
  ⟨0xc0, [], 0, .counter, [⟨31, 0, .ro, 0⟩]⟩,
  ⟨0xc4, [], 0, .counter, [⟨31, 0, .ro, 0⟩]⟩]
/-- The block ECCQ (R333). -/
def blockECCQ : RegBlock := ⟨0x104000, 4, 0x40000, 0xc8, true, blockECCQRows0⟩

/-- Registers of the block VRT (R358). -/
def blockVRTRows0 : List RegRow := [
  ⟨0x0, [], 0, .plain, [⟨2, 2, .rw, 1⟩, ⟨1, 1, .rw, 1⟩, ⟨0, 0, .rw, 1⟩]⟩,
  ⟨0x4, [], 0, .plain, [⟨31, 24, .rw, 64⟩, ⟨15, 8, .rw, 32⟩, ⟨7, 0, .rw, 32⟩]⟩,
  ⟨0x8, [], 0, .plain, [⟨20, 20, .ro, 0⟩, ⟨19, 12, .ro, 0⟩, ⟨11, 4, .ro, 0⟩, ⟨2, 0, .ro, 0⟩]⟩,
  ⟨0x10, [(4, 8)], 0, .plain, [⟨9, 8, .ro, 0⟩, ⟨7, 0, .ro, 0⟩]⟩,
  ⟨0x40, [], 0, .vrtRepairReq, [⟨8, 8, .w1s, 0⟩, ⟨7, 0, .rw, 0⟩]⟩,
  ⟨0x44, [], 0, .plain, [⟨7, 0, .rw, 0⟩]⟩,
  ⟨0x48, [], 0, .vrtLineErr, [⟨31, 0, .ro, 0⟩]⟩,
  ⟨0x4c, [], 0, .plain, [⟨8, 8, .ro, 0⟩, ⟨7, 0, .ro, 0⟩]⟩,
  ⟨0x80, [], 0, .counter, [⟨31, 0, .ro, 0⟩]⟩,
  ⟨0x84, [], 0, .counter, [⟨31, 0, .ro, 0⟩]⟩,
  ⟨0x88, [], 0, .counter, [⟨31, 0, .ro, 0⟩]⟩,
  ⟨0x8c, [], 0, .counter, [⟨31, 0, .ro, 0⟩]⟩,
  ⟨0x90, [], 0, .counter, [⟨31, 0, .ro, 0⟩]⟩,
  ⟨0x94, [], 0, .counter, [⟨31, 0, .ro, 0⟩]⟩,
  ⟨0x98, [], 0, .counter, [⟨31, 0, .ro, 0⟩]⟩,
  ⟨0xc0, [], 0, .vrtCntClr, [⟨6, 0, .wo, 0⟩]⟩,
  ⟨0x400, [(4, 208)], 0, .plain, [⟨17, 12, .ro, 32⟩, ⟨11, 6, .ro, 32⟩, ⟨5, 0, .ro, 32⟩]⟩]
/-- The block VRT (R358). -/
def blockVRT : RegBlock := ⟨0x106000, 33, 0x8000, 0x740, true, blockVRTRows0⟩

/-- Registers of the block VRTS (R358). -/
def blockVRTSRows0 : List RegRow := [
  ⟨0x60, [], 0, .plain, [⟨7, 7, .ro, 0⟩, ⟨6, 5, .ro, 0⟩, ⟨4, 0, .ro, 0⟩]⟩,
  ⟨0x64, [], 0, .plain, [⟨15, 0, .ro, 0⟩]⟩]
/-- The block VRTS (R358). -/
def blockVRTS : RegBlock := ⟨0x206000, 1, 0x0, 0x68, true, blockVRTSRows0⟩

/-- Registers of the block SNAP (R132). -/
def blockSNAPRows0 : List RegRow := [
  ⟨0x0, [(4, 4096)], 0, .plain, [⟨31, 0, .ro, 0⟩]⟩]
/-- The block SNAP (R132). -/
def blockSNAP : RegBlock := ⟨0x300000, 1, 0x0, 0x4000, false, blockSNAPRows0⟩

/-- Registers of the block VRTD (R359). -/
def blockVRTDRows0 : List RegRow := [
  ⟨0x0, [(1024, 3), (4, 208)], 0, .plain, [⟨17, 12, .ro, 32⟩, ⟨11, 6, .ro, 32⟩, ⟨5, 0, .ro, 32⟩]⟩,
  ⟨0xc00, [], 0, .plain, [⟨1, 0, .ro, 0⟩]⟩]
/-- The block VRTD (R359). -/
def blockVRTD : RegBlock := ⟨0x380000, 16, 0x4000, 0xc04, true, blockVRTDRows0⟩

/-- Registers of the block LEG (R106). -/
def blockLEGRows0 : List RegRow := [
  ⟨0x0, [], 0, .plain, [⟨31, 0, .ro, 1208522262⟩]⟩,
  ⟨0x4, [], 0, .cfgLegStatus, [⟨2, 2, .ro, 0⟩, ⟨1, 1, .ro, 0⟩, ⟨0, 0, .ro, 0⟩]⟩,
  ⟨0x10, [], 0, .cfgLegTemp, [⟨15, 0, .ro, 0⟩]⟩,
  ⟨0x20, [], 0, .cfgLegEccCnt, [⟨31, 0, .ro, 0⟩]⟩]
/-- The block LEG (R106). -/
def blockLEG : RegBlock := ⟨0x3f0000, 1, 0x0, 0x24, false, blockLEGRows0⟩

/-- Every block of the register map. -/
def regBlocks : List RegBlock := [blockCFG,
  blockFLT,
  blockPWR,
  blockCLK,
  blockSEC,
  blockCST,
  blockHKP,
  blockTHM,
  blockBST,
  blockMAP,
  blockCEL,
  blockMBX,
  blockLNK,
  blockLNKC,
  blockPRT,
  blockLAR,
  blockSCH,
  blockENG,
  blockENG0,
  blockECC,
  blockECC0,
  blockECCQ,
  blockVRT,
  blockVRTS,
  blockSNAP,
  blockVRTD,
  blockLEG]

/-! The address of every register (`R.…`) and every field of it (`F.…`), by instance and index. -/

def R.CFG_STATUS : Nat := 0x0
def F.CFG_STATUS_mismatch_staged : Fld := ⟨0x0, 16, 8, false⟩
def F.CFG_STATUS_session_owner : Fld := ⟨0x0, 9, 7, false⟩
def F.CFG_STATUS_session : Fld := ⟨0x0, 8, 1, false⟩
def F.CFG_STATUS_committed : Fld := ⟨0x0, 7, 1, false⟩
def F.CFG_STATUS_adopted : Fld := ⟨0x0, 6, 1, false⟩
def F.CFG_STATUS_vote_fixed : Fld := ⟨0x0, 5, 1, false⟩
def R.CFG_MISMATCH_T : Nat := 0x4
def F.CFG_MISMATCH_T_tile : Fld := ⟨0x4, 0, 32, false⟩
def R.CFG_MISMATCH_Q : Nat := 0x8
def F.CFG_MISMATCH_Q_quad : Fld := ⟨0x8, 0, 5, false⟩
def R.CFG_COMMIT_EPOCH : Nat := 0xc
def F.CFG_COMMIT_EPOCH_epoch : Fld := ⟨0xc, 0, 32, false⟩
def R.CFG_SESSION : Nat := 0x10
def F.CFG_SESSION_idle : Fld := ⟨0x10, 0, 16, false⟩
def R.CFG_CTL : Nat := 0x14
def F.CFG_CTL_adopt_allow : Fld := ⟨0x14, 0, 1, false⟩
def R.CFG_PROBE_ADDR : Nat := 0x18
def F.CFG_PROBE_ADDR_addr : Fld := ⟨0x18, 2, 22, false⟩
def R.CFG_PROBE_ACTIVE : Nat := 0x1c
def F.CFG_PROBE_ACTIVE_value : Fld := ⟨0x1c, 0, 32, false⟩
def R.CFG_PROBE_MASK : Nat := 0x20
def F.CFG_PROBE_MASK_mask : Fld := ⟨0x20, 0, 32, false⟩
def R.CFG_SNAP : Nat := 0x24
def F.CFG_SNAP_seq : Fld := ⟨0x24, 16, 16, false⟩
def F.CFG_SNAP_done : Fld := ⟨0x24, 1, 1, false⟩
def F.CFG_SNAP_req : Fld := ⟨0x24, 0, 1, false⟩
def R.CFG_SNAP_EPOCH : Nat := 0x28
def F.CFG_SNAP_EPOCH_epoch : Fld := ⟨0x28, 0, 32, false⟩
def R.CFG_CNT_NEARMISS : Nat := 0x2c
def F.CFG_CNT_NEARMISS_count : Fld := ⟨0x2c, 0, 32, false⟩
def R.CFG_SNAP_N : Nat := 0x30
def F.CFG_SNAP_N_count : Fld := ⟨0x30, 0, 13, false⟩
def R.CFG_REF (i : Nat) : Nat := 0x100 + 0x4 * i
def F.CFG_REF_ref (i : Nat) : Fld := ⟨0x100 + 0x4 * i, 0, 32, false⟩
def R.CFG_CUR (i : Nat) : Nat := 0x200 + 0x4 * i
def F.CFG_CUR_crc (i : Nat) : Fld := ⟨0x200 + 0x4 * i, 0, 32, false⟩
def R.FLT_CTL : Nat := 0x1000
def F.FLT_CTL_contain_en : Fld := ⟨0x1000, 2, 1, true⟩
def F.FLT_CTL_alert_en : Fld := ⟨0x1000, 1, 1, true⟩
def F.FLT_CTL_event_en : Fld := ⟨0x1000, 0, 1, true⟩
def R.FLT_STATUS : Nat := 0x1004
def F.FLT_STATUS_fatal : Fld := ⟨0x1004, 7, 1, false⟩
def F.FLT_STATUS_quiet_running : Fld := ⟨0x1004, 6, 1, false⟩
def F.FLT_STATUS_fault_state : Fld := ⟨0x1004, 5, 1, false⟩
def F.FLT_STATUS_contained : Fld := ⟨0x1004, 4, 1, false⟩
def F.FLT_STATUS_degraded : Fld := ⟨0x1004, 3, 1, false⟩
def F.FLT_STATUS_highest : Fld := ⟨0x1004, 0, 3, false⟩
def R.FLT_QUIET : Nat := 0x1008
def F.FLT_QUIET_period : Fld := ⟨0x1008, 0, 8, true⟩
def R.FLT_RECOVERY : Nat := 0x100c
def F.FLT_RECOVERY_count : Fld := ⟨0x100c, 0, 16, false⟩
def R.FLT_FATAL_SRC : Nat := 0x1010
def F.FLT_FATAL_SRC_valid : Fld := ⟨0x1010, 31, 1, false⟩
def F.FLT_FATAL_SRC_source : Fld := ⟨0x1010, 0, 10, false⟩
def R.FLT_SUM_LO : Nat := 0x1020
def F.FLT_SUM_LO_sum : Fld := ⟨0x1020, 0, 32, false⟩
def R.FLT_SUM_HI : Nat := 0x1024
def F.FLT_SUM_HI_sum : Fld := ⟨0x1024, 0, 32, false⟩
def R.FLT_DET_SEL : Nat := 0x1030
def F.FLT_DET_SEL_source : Fld := ⟨0x1030, 0, 10, false⟩
def R.FLT_DET_STAT : Nat := 0x1034
def F.FLT_DET_STAT_latched : Fld := ⟨0x1034, 31, 1, false⟩
def F.FLT_DET_STAT_severity : Fld := ⟨0x1034, 28, 3, false⟩
def F.FLT_DET_STAT_count : Fld := ⟨0x1034, 16, 8, false⟩
def F.FLT_DET_STAT_info : Fld := ⟨0x1034, 0, 16, false⟩
def R.FLT_DET_FIRST : Nat := 0x1038
def F.FLT_DET_FIRST_epoch : Fld := ⟨0x1038, 0, 32, false⟩
def R.FLT_DET_LAST : Nat := 0x103c
def F.FLT_DET_LAST_epoch : Fld := ⟨0x103c, 0, 32, false⟩
def R.FLT_DET_CLR : Nat := 0x1040
def F.FLT_DET_CLR_all : Fld := ⟨0x1040, 31, 1, false⟩
def F.FLT_DET_CLR_by_group : Fld := ⟨0x1040, 24, 1, false⟩
def F.FLT_DET_CLR_group : Fld := ⟨0x1040, 16, 6, false⟩
def F.FLT_DET_CLR_source : Fld := ⟨0x1040, 0, 10, false⟩
def R.FLT_CONTAIN_LINK : Nat := 0x1050
def F.FLT_CONTAIN_LINK_link : Fld := ⟨0x1050, 0, 16, false⟩
def R.FLT_CONTAIN_PORT_LO : Nat := 0x1054
def F.FLT_CONTAIN_PORT_LO_port : Fld := ⟨0x1054, 0, 32, false⟩
def R.FLT_CONTAIN_PORT_HI : Nat := 0x1058
def F.FLT_CONTAIN_PORT_HI_port : Fld := ⟨0x1058, 0, 32, false⟩
def R.FLT_CONTAIN_TILE : Nat := 0x105c
def F.FLT_CONTAIN_TILE_tile : Fld := ⟨0x105c, 0, 32, false⟩
def R.FLT_CONTAIN_MISC : Nat := 0x1060
def F.FLT_CONTAIN_MISC_cellar : Fld := ⟨0x1060, 8, 1, false⟩
def F.FLT_CONTAIN_MISC_lb : Fld := ⟨0x1060, 0, 6, false⟩
def R.FLT_CNT_RAISE : Nat := 0x1080
def F.FLT_CNT_RAISE_count : Fld := ⟨0x1080, 0, 32, false⟩
def R.FLT_CNT_EVENT : Nat := 0x1084
def F.FLT_CNT_EVENT_count : Fld := ⟨0x1084, 0, 32, false⟩
def R.FLT_CNT_QUIETRESTART : Nat := 0x1088
def F.FLT_CNT_QUIETRESTART_count : Fld := ⟨0x1088, 0, 32, false⟩
def R.FLT_CNT_CLR : Nat := 0x108c
def F.FLT_CNT_CLR_cnt : Fld := ⟨0x108c, 0, 3, false⟩
def R.FLT_SEV (i : Nat) : Nat := 0x1400 + 0x4 * i
def F.FLT_SEV_sev7 (i : Nat) : Fld := ⟨0x1400 + 0x4 * i, 28, 3, true⟩
def F.FLT_SEV_sev6 (i : Nat) : Fld := ⟨0x1400 + 0x4 * i, 24, 3, true⟩
def F.FLT_SEV_sev5 (i : Nat) : Fld := ⟨0x1400 + 0x4 * i, 20, 3, true⟩
def F.FLT_SEV_sev4 (i : Nat) : Fld := ⟨0x1400 + 0x4 * i, 16, 3, true⟩
def F.FLT_SEV_sev3 (i : Nat) : Fld := ⟨0x1400 + 0x4 * i, 12, 3, true⟩
def F.FLT_SEV_sev2 (i : Nat) : Fld := ⟨0x1400 + 0x4 * i, 8, 3, true⟩
def F.FLT_SEV_sev1 (i : Nat) : Fld := ⟨0x1400 + 0x4 * i, 4, 3, true⟩
def F.FLT_SEV_sev0 (i : Nat) : Fld := ⟨0x1400 + 0x4 * i, 0, 3, true⟩
def R.PWR_CTL : Nat := 0x2000
def F.PWR_CTL_gov_all : Fld := ⟨0x2000, 6, 1, true⟩
def F.PWR_CTL_link_wake : Fld := ⟨0x2000, 5, 1, true⟩
def F.PWR_CTL_ret_larder : Fld := ⟨0x2000, 4, 1, true⟩
def F.PWR_CTL_boot_mode : Fld := ⟨0x2000, 0, 3, true⟩
def R.PWR_MODE : Nat := 0x2004
def F.PWR_MODE_target : Fld := ⟨0x2004, 8, 3, false⟩
def F.PWR_MODE_pending : Fld := ⟨0x2004, 7, 1, false⟩
def F.PWR_MODE_prev : Fld := ⟨0x2004, 4, 3, false⟩
def F.PWR_MODE_mode : Fld := ⟨0x2004, 0, 3, false⟩
def R.PWR_MODE_EPOCH : Nat := 0x2008
def F.PWR_MODE_EPOCH_epoch : Fld := ⟨0x2008, 0, 32, false⟩
def R.PWR_RET : Nat := 0x200c
def F.PWR_RET_drain_limit : Fld := ⟨0x200c, 8, 8, true⟩
def F.PWR_RET_exit_mode : Fld := ⟨0x200c, 0, 3, true⟩
def R.PWR_CAP : Nat := 0x2010
def F.PWR_CAP_cut : Fld := ⟨0x2010, 8, 8, true⟩
def F.PWR_CAP_limit : Fld := ⟨0x2010, 0, 8, true⟩
def R.PWR_WAKE : Nat := 0x2014
def F.PWR_WAKE_wake : Fld := ⟨0x2014, 0, 1, false⟩
def R.PWR_LRST : Nat := 0x2018
def F.PWR_LRST_link : Fld := ⟨0x2018, 0, 16, false⟩
def R.PWR_STATUS : Nat := 0x201c
def F.PWR_STATUS_gov_active : Fld := ⟨0x201c, 31, 1, false⟩
def F.PWR_STATUS_reset_cause : Fld := ⟨0x201c, 28, 3, false⟩
def F.PWR_STATUS_draw : Fld := ⟨0x201c, 0, 16, false⟩
def R.PWR_RET_LAST : Nat := 0x2020
def F.PWR_RET_LAST_larder_kept : Fld := ⟨0x2020, 16, 1, false⟩
def F.PWR_RET_LAST_exit_us : Fld := ⟨0x2020, 0, 16, false⟩
def R.PWR_BOOT_MS : Nat := 0x2024
def F.PWR_BOOT_MS_ready_ms : Fld := ⟨0x2024, 16, 16, false⟩
def F.PWR_BOOT_MS_awaitcfg_ms : Fld := ⟨0x2024, 0, 16, false⟩
def R.PWR_DOM (i : Nat) : Nat := 0x2040 + 0x4 * i
def F.PWR_DOM_states (i : Nat) : Fld := ⟨0x2040 + 0x4 * i, 0, 32, false⟩
def R.PWR_CNT_MODE : Nat := 0x2080
def F.PWR_CNT_MODE_count : Fld := ⟨0x2080, 0, 32, false⟩
def R.PWR_CNT_RET : Nat := 0x2084
def F.PWR_CNT_RET_count : Fld := ⟨0x2084, 0, 32, false⟩
def R.PWR_CNT_REVERT : Nat := 0x2088
def F.PWR_CNT_REVERT_count : Fld := ⟨0x2088, 0, 32, false⟩
def R.PWR_CNT_RETSLOW : Nat := 0x208c
def F.PWR_CNT_RETSLOW_count : Fld := ⟨0x208c, 0, 32, false⟩
def R.PWR_CNT_WARM : Nat := 0x2090
def F.PWR_CNT_WARM_count : Fld := ⟨0x2090, 0, 32, false⟩
def R.PWR_CNT_LRST : Nat := 0x2094
def F.PWR_CNT_LRST_count : Fld := ⟨0x2094, 0, 32, false⟩
def R.PWR_CNT_PRST : Nat := 0x2098
def F.PWR_CNT_PRST_count : Fld := ⟨0x2098, 0, 32, false⟩
def R.PWR_CNT_NEARMISS : Nat := 0x209c
def F.PWR_CNT_NEARMISS_count : Fld := ⟨0x209c, 0, 32, false⟩
def R.PWR_CNT_CLR : Nat := 0x20a0
def F.PWR_CNT_CLR_cnt : Fld := ⟨0x20a0, 0, 8, false⟩
def R.CLK_CTL : Nat := 0x3000
def F.CLK_CTL_force_fallback : Fld := ⟨0x3000, 1, 1, true⟩
def F.CLK_CTL_exit_allow : Fld := ⟨0x3000, 0, 1, true⟩
def R.CLK_STATUS : Nat := 0x3004
def F.CLK_STATUS_pll_lock : Fld := ⟨0x3004, 8, 4, false⟩
def F.CLK_STATUS_tune_fail : Fld := ⟨0x3004, 4, 4, false⟩
def F.CLK_STATUS_fallback : Fld := ⟨0x3004, 0, 1, false⟩
def R.CLK_XTUNE : Nat := 0x3008
def F.CLK_XTUNE_exit_margin : Fld := ⟨0x3008, 8, 8, true⟩
def F.CLK_XTUNE_min_margin : Fld := ⟨0x3008, 0, 8, true⟩
def R.CLK_XMARGIN (i : Nat) : Nat := 0x3010 + 0x4 * i
def F.CLK_XMARGIN_hold (i : Nat) : Fld := ⟨0x3010 + 0x4 * i, 16, 16, false⟩
def F.CLK_XMARGIN_setup (i : Nat) : Fld := ⟨0x3010 + 0x4 * i, 0, 16, false⟩
def R.CLK_CNT_FALLBACK : Nat := 0x3040
def F.CLK_CNT_FALLBACK_count : Fld := ⟨0x3040, 0, 32, false⟩
def R.CLK_CNT_TUNE : Nat := 0x3044
def F.CLK_CNT_TUNE_count : Fld := ⟨0x3044, 0, 32, false⟩
def R.CLK_CNT_CLR : Nat := 0x3060
def F.CLK_CNT_CLR_cnt : Fld := ⟨0x3060, 0, 2, false⟩
def R.SEC_STATUS : Nat := 0x4000
def F.SEC_STATUS_limited : Fld := ⟨0x4000, 31, 1, false⟩
def F.SEC_STATUS_wiped : Fld := ⟨0x4000, 30, 1, false⟩
def F.SEC_STATUS_identity : Fld := ⟨0x4000, 29, 1, false⟩
def F.SEC_STATUS_trial : Fld := ⟨0x4000, 28, 1, false⟩
def F.SEC_STATUS_halt_cause : Fld := ⟨0x4000, 24, 4, false⟩
def F.SEC_STATUS_last_img : Fld := ⟨0x4000, 20, 4, false⟩
def F.SEC_STATUS_unlock_fail : Fld := ⟨0x4000, 8, 8, false⟩
def F.SEC_STATUS_level : Fld := ⟨0x4000, 4, 2, false⟩
def F.SEC_STATUS_lifecycle : Fld := ⟨0x4000, 0, 2, false⟩
def R.SEC_LC : Nat := 0x4004
def F.SEC_LC_mirror : Fld := ⟨0x4004, 0, 2, false⟩
def R.SEC_DBG : Nat := 0x4008
def F.SEC_DBG_level : Fld := ⟨0x4008, 0, 2, false⟩
def R.SEC_DBG_TIME : Nat := 0x400c
def F.SEC_DBG_TIME_seconds : Fld := ⟨0x400c, 0, 32, false⟩
def R.SEC_GATE : Nat := 0x4010
def F.SEC_GATE_raw : Fld := ⟨0x4010, 5, 1, false⟩
def F.SEC_GATE_dbgmem : Fld := ⟨0x4010, 4, 1, false⟩
def F.SEC_GATE_halt : Fld := ⟨0x4010, 3, 1, false⟩
def F.SEC_GATE_scan : Fld := ⟨0x4010, 2, 1, false⟩
def F.SEC_GATE_tap_d2 : Fld := ⟨0x4010, 1, 1, false⟩
def F.SEC_GATE_tap_d1 : Fld := ⟨0x4010, 0, 1, false⟩
def R.SEC_PARLOUR : Nat := 0x4014
def F.SEC_PARLOUR_hold : Fld := ⟨0x4014, 0, 4, false⟩
def R.SEC_DBGHALT : Nat := 0x4018
def F.SEC_DBGHALT_halt : Fld := ⟨0x4018, 0, 4, false⟩
def R.SEC_WDOG : Nat := 0x401c
def F.SEC_WDOG_strong_ms : Fld := ⟨0x401c, 16, 16, false⟩
def F.SEC_WDOG_parlour_ms : Fld := ⟨0x401c, 0, 16, false⟩
def R.SEC_WD_KICK (i : Nat) : Nat := 0x4020 + 0x4 * i
def F.SEC_WD_KICK_kick (i : Nat) : Fld := ⟨0x4020 + 0x4 * i, 0, 1, false⟩
def R.SEC_MEAS (i : Nat) : Nat := 0x4040 + 0x4 * i
def F.SEC_MEAS_bytes (i : Nat) : Fld := ⟨0x4040 + 0x4 * i, 0, 32, false⟩
def R.SEC_DBGMEM_ADDR_LO : Nat := 0x40c0
def F.SEC_DBGMEM_ADDR_LO_addr : Fld := ⟨0x40c0, 3, 29, false⟩
def R.SEC_DBGMEM_ADDR_HI : Nat := 0x40c4
def F.SEC_DBGMEM_ADDR_HI_raw : Fld := ⟨0x40c4, 9, 1, false⟩
def F.SEC_DBGMEM_ADDR_HI_l : Fld := ⟨0x40c4, 8, 1, false⟩
def F.SEC_DBGMEM_ADDR_HI_addr : Fld := ⟨0x40c4, 0, 8, false⟩
def R.SEC_DBGMEM_DATA_LO : Nat := 0x40c8
def F.SEC_DBGMEM_DATA_LO_data : Fld := ⟨0x40c8, 0, 32, false⟩
def R.SEC_DBGMEM_DATA_HI : Nat := 0x40cc
def F.SEC_DBGMEM_DATA_HI_data : Fld := ⟨0x40cc, 0, 32, false⟩
def R.SEC_DBGMEM_CTL : Nat := 0x40d0
def F.SEC_DBGMEM_CTL_upper : Fld := ⟨0x40d0, 16, 16, false⟩
def F.SEC_DBGMEM_CTL_uncorr : Fld := ⟨0x40d0, 5, 1, false⟩
def F.SEC_DBGMEM_CTL_corr : Fld := ⟨0x40d0, 4, 1, false⟩
def F.SEC_DBGMEM_CTL_poison : Fld := ⟨0x40d0, 3, 1, false⟩
def F.SEC_DBGMEM_CTL_done : Fld := ⟨0x40d0, 2, 1, false⟩
def F.SEC_DBGMEM_CTL_write : Fld := ⟨0x40d0, 1, 1, false⟩
def F.SEC_DBGMEM_CTL_go : Fld := ⟨0x40d0, 0, 1, false⟩
def R.SEC_CNT_IMGREJ : Nat := 0x4100
def F.SEC_CNT_IMGREJ_count : Fld := ⟨0x4100, 0, 32, false⟩
def R.SEC_CNT_UNLOCKFAIL : Nat := 0x4104
def F.SEC_CNT_UNLOCKFAIL_count : Fld := ⟨0x4104, 0, 32, false⟩
def R.SEC_CNT_WDOG : Nat := 0x4108
def F.SEC_CNT_WDOG_count : Fld := ⟨0x4108, 0, 32, false⟩
def R.SEC_CNT_NEARMISS_P : Nat := 0x410c
def F.SEC_CNT_NEARMISS_P_count : Fld := ⟨0x410c, 0, 32, false⟩
def R.SEC_CNT_NEARMISS : Nat := 0x4110
def F.SEC_CNT_NEARMISS_count : Fld := ⟨0x4110, 0, 32, false⟩
def R.SEC_CNT_CLR : Nat := 0x4120
def F.SEC_CNT_CLR_cnt : Fld := ⟨0x4120, 0, 5, false⟩
def R.CST_STATUS : Nat := 0x5000
def F.CST_STATUS_sensed : Fld := ⟨0x5000, 31, 1, false⟩
def F.CST_STATUS_limited : Fld := ⟨0x5000, 30, 1, false⟩
def F.CST_STATUS_burning : Fld := ⟨0x5000, 29, 1, false⟩
def F.CST_STATUS_marginal : Fld := ⟨0x5000, 8, 8, false⟩
def F.CST_STATUS_unverified : Fld := ⟨0x5000, 0, 8, false⟩
def R.CST_SECT (i : Nat) : Nat := 0x5040 + 0x4 * i
def F.CST_SECT_state (i : Nat) : Fld := ⟨0x5040 + 0x4 * i, 28, 4, false⟩
def F.CST_SECT_resolved (i : Nat) : Fld := ⟨0x5040 + 0x4 * i, 20, 8, false⟩
def F.CST_SECT_count (i : Nat) : Fld := ⟨0x5040 + 0x4 * i, 0, 10, false⟩
def R.CST_SPARE (i : Nat) : Nat := 0x50c0 + 0x4 * i
def F.CST_SPARE_bad (i : Nat) : Fld := ⟨0x50c0 + 0x4 * i, 5, 5, false⟩
def F.CST_SPARE_used (i : Nat) : Fld := ⟨0x50c0 + 0x4 * i, 0, 5, false⟩
def R.CST_CTR_FW : Nat := 0x50e0
def F.CST_CTR_FW_value : Fld := ⟨0x50e0, 0, 9, false⟩
def R.CST_CTR_RCP : Nat := 0x50e4
def F.CST_CTR_RCP_value : Fld := ⟨0x50e4, 0, 9, false⟩
def R.CST_CTR_MISC : Nat := 0x50e8
def F.CST_CTR_MISC_revoked : Fld := ⟨0x50e8, 4, 4, false⟩
def F.CST_CTR_MISC_lifecycle : Fld := ⟨0x50e8, 0, 2, false⟩
def R.CST_CNT_PULSE : Nat := 0x5100
def F.CST_CNT_PULSE_count : Fld := ⟨0x5100, 0, 32, false⟩
def R.CST_CNT_RETRY : Nat := 0x5104
def F.CST_CNT_RETRY_count : Fld := ⟨0x5104, 0, 32, false⟩
def R.CST_CNT_SPARE : Nat := 0x5108
def F.CST_CNT_SPARE_count : Fld := ⟨0x5108, 0, 32, false⟩
def R.CST_CNT_SKIPPED : Nat := 0x510c
def F.CST_CNT_SKIPPED_count : Fld := ⟨0x510c, 0, 32, false⟩
def R.CST_CNT_CLR : Nat := 0x5110
def F.CST_CNT_CLR_cnt : Fld := ⟨0x5110, 0, 4, false⟩
def R.HKP_CTL : Nat := 0x6000
def F.HKP_CTL_conv : Fld := ⟨0x6000, 0, 2, true⟩
def R.HKP_STATUS : Nat := 0x6004
def F.HKP_STATUS_comp_clip : Fld := ⟨0x6004, 3, 1, false⟩
def F.HKP_STATUS_b_failed : Fld := ⟨0x6004, 2, 1, false⟩
def F.HKP_STATUS_a_failed : Fld := ⟨0x6004, 1, 1, false⟩
def F.HKP_STATUS_slow : Fld := ⟨0x6004, 0, 1, false⟩
def R.HKP_ROUND : Nat := 0x6008
def F.HKP_ROUND_round : Fld := ⟨0x6008, 0, 32, false⟩
def R.HKP_VWIN (i : Nat) : Nat := 0x6010 + 0x4 * i
def F.HKP_VWIN_high (i : Nat) : Fld := ⟨0x6010 + 0x4 * i, 8, 8, true⟩
def F.HKP_VWIN_low (i : Nat) : Fld := ⟨0x6010 + 0x4 * i, 0, 8, true⟩
def R.HKP_CUR (i : Nat) : Nat := 0x6100 + 0x4 * i
def F.HKP_CUR_current (i : Nat) : Fld := ⟨0x6100 + 0x4 * i, 0, 16, false⟩
def R.HKP_VOLT (i : Nat) : Nat := 0x6200 + 0x4 * i
def F.HKP_VOLT_high (i : Nat) : Fld := ⟨0x6200 + 0x4 * i, 17, 1, false⟩
def F.HKP_VOLT_low (i : Nat) : Fld := ⟨0x6200 + 0x4 * i, 16, 1, false⟩
def F.HKP_VOLT_mv (i : Nat) : Fld := ⟨0x6200 + 0x4 * i, 0, 16, false⟩
def R.HKP_SAMPLE (i : Nat) : Nat := 0x6400 + 0x4 * i
def F.HKP_SAMPLE_valid (i : Nat) : Fld := ⟨0x6400 + 0x4 * i, 31, 1, false⟩
def F.HKP_SAMPLE_code (i : Nat) : Fld := ⟨0x6400 + 0x4 * i, 0, 24, false⟩
def R.HKP_CNT_VOUT : Nat := 0x6800
def F.HKP_CNT_VOUT_count : Fld := ⟨0x6800, 0, 32, false⟩
def R.HKP_CNT_CONVFAIL : Nat := 0x6804
def F.HKP_CNT_CONVFAIL_count : Fld := ⟨0x6804, 0, 32, false⟩
def R.HKP_CNT_COMPCLIP : Nat := 0x6808
def F.HKP_CNT_COMPCLIP_count : Fld := ⟨0x6808, 0, 32, false⟩
def R.HKP_CNT_CLR : Nat := 0x6810
def F.HKP_CNT_CLR_cnt : Fld := ⟨0x6810, 0, 3, false⟩
def R.THM_CTL : Nat := 0x7000
def F.THM_CTL_wv_en : Fld := ⟨0x7000, 2, 1, true⟩
def F.THM_CTL_relax_en : Fld := ⟨0x7000, 1, 1, true⟩
def F.THM_CTL_throttle_en : Fld := ⟨0x7000, 0, 1, true⟩
def R.THM_THRESH : Nat := 0x7004
def F.THM_THRESH_relax_max : Fld := ⟨0x7004, 24, 8, true⟩
def F.THM_THRESH_hot_ref : Fld := ⟨0x7004, 16, 8, true⟩
def F.THM_THRESH_throttle : Fld := ⟨0x7004, 8, 8, true⟩
def F.THM_THRESH_warn : Fld := ⟨0x7004, 0, 8, true⟩
def R.THM_THROT : Nat := 0x7008
def F.THM_THROT_step2 : Fld := ⟨0x7008, 16, 4, true⟩
def F.THM_THROT_cap2 : Fld := ⟨0x7008, 8, 8, true⟩
def F.THM_THROT_cap1 : Fld := ⟨0x7008, 0, 8, true⟩
def R.THM_SUSPECT : Nat := 0x700c
def F.THM_SUSPECT_broken_rounds : Fld := ⟨0x700c, 8, 4, true⟩
def F.THM_SUSPECT_dev : Fld := ⟨0x700c, 0, 4, true⟩
def R.THM_WV : Nat := 0x7010
def F.THM_WV_hold : Fld := ⟨0x7010, 0, 7, true⟩
def R.THM_CAL : Nat := 0x7014
def F.THM_CAL_auto : Fld := ⟨0x7014, 8, 1, true⟩
def F.THM_CAL_dtcal : Fld := ⟨0x7014, 0, 5, true⟩
def R.THM_CAL_STATUS : Nat := 0x7018
def F.THM_CAL_STATUS_spare_blocked : Fld := ⟨0x7018, 17, 1, false⟩
def F.THM_CAL_STATUS_reduced : Fld := ⟨0x7018, 16, 1, false⟩
def F.THM_CAL_STATUS_queued : Fld := ⟨0x7018, 8, 8, false⟩
def F.THM_CAL_STATUS_riser : Fld := ⟨0x7018, 0, 6, false⟩
def R.THM_SHUT : Nat := 0x701c
def F.THM_SHUT_tripped : Fld := ⟨0x701c, 31, 1, false⟩
def F.THM_SHUT_tier : Fld := ⟨0x701c, 0, 5, false⟩
def R.THM_DIODE_MASK (i : Nat) : Nat := 0x7020 + 0x4 * i
def F.THM_DIODE_MASK_mask (i : Nat) : Fld := ⟨0x7020 + 0x4 * i, 0, 32, true⟩
def R.THM_UNIT (i : Nat) : Nat := 0x7080 + 0x4 * i
def F.THM_UNIT_blind (i : Nat) : Fld := ⟨0x7080 + 0x4 * i, 23, 1, false⟩
def F.THM_UNIT_broken (i : Nat) : Fld := ⟨0x7080 + 0x4 * i, 22, 1, false⟩
def F.THM_UNIT_wv_gov (i : Nat) : Fld := ⟨0x7080 + 0x4 * i, 21, 1, false⟩
def F.THM_UNIT_throttle (i : Nat) : Fld := ⟨0x7080 + 0x4 * i, 19, 2, false⟩
def F.THM_UNIT_warn (i : Nat) : Fld := ⟨0x7080 + 0x4 * i, 18, 1, false⟩
def F.THM_UNIT_relax_ok (i : Nat) : Fld := ⟨0x7080 + 0x4 * i, 17, 1, false⟩
def F.THM_UNIT_hot (i : Nat) : Fld := ⟨0x7080 + 0x4 * i, 16, 1, false⟩
def F.THM_UNIT_temp (i : Nat) : Fld := ⟨0x7080 + 0x4 * i, 0, 16, false⟩
def R.THM_DIODE (i : Nat) : Nat := 0x7100 + 0x4 * i
def F.THM_DIODE_state (i : Nat) : Fld := ⟨0x7100 + 0x4 * i, 16, 3, false⟩
def F.THM_DIODE_temp (i : Nat) : Fld := ⟨0x7100 + 0x4 * i, 0, 16, false⟩
def R.THM_WVEST (i : Nat) : Nat := 0x72a0 + 0x4 * i
def F.THM_WVEST_unreliable (i : Nat) : Fld := ⟨0x72a0 + 0x4 * i, 18, 1, false⟩
def F.THM_WVEST_below (i : Nat) : Fld := ⟨0x72a0 + 0x4 * i, 17, 1, false⟩
def F.THM_WVEST_fresh (i : Nat) : Fld := ⟨0x72a0 + 0x4 * i, 16, 1, false⟩
def F.THM_WVEST_w (i : Nat) : Fld := ⟨0x72a0 + 0x4 * i, 0, 16, false⟩
def R.THM_CAL_LAST (i : Nat) : Nat := 0x7300 + 0x4 * i
def F.THM_CAL_LAST_outcome (i : Nat) : Fld := ⟨0x7300 + 0x4 * i, 16, 3, false⟩
def F.THM_CAL_LAST_temp (i : Nat) : Fld := ⟨0x7300 + 0x4 * i, 0, 16, false⟩
def R.THM_CNT_WARN : Nat := 0x73c0
def F.THM_CNT_WARN_count : Fld := ⟨0x73c0, 0, 32, false⟩
def R.THM_CNT_THROT : Nat := 0x73c4
def F.THM_CNT_THROT_count : Fld := ⟨0x73c4, 0, 32, false⟩
def R.THM_CNT_SUSPECT : Nat := 0x73c8
def F.THM_CNT_SUSPECT_count : Fld := ⟨0x73c8, 0, 32, false⟩
def R.THM_CNT_BROKEN : Nat := 0x73cc
def F.THM_CNT_BROKEN_count : Fld := ⟨0x73cc, 0, 32, false⟩
def R.THM_CNT_WVOVER : Nat := 0x73d0
def F.THM_CNT_WVOVER_count : Fld := ⟨0x73d0, 0, 32, false⟩
def R.THM_CNT_CAL : Nat := 0x73d4
def F.THM_CNT_CAL_count : Fld := ⟨0x73d4, 0, 32, false⟩
def R.THM_CNT_CALFAIL : Nat := 0x73d8
def F.THM_CNT_CALFAIL_count : Fld := ⟨0x73d8, 0, 32, false⟩
def R.THM_CNT_CALABANDON : Nat := 0x73dc
def F.THM_CNT_CALABANDON_count : Fld := ⟨0x73dc, 0, 32, false⟩
def R.THM_CNT_CALREDUCED : Nat := 0x73e0
def F.THM_CNT_CALREDUCED_count : Fld := ⟨0x73e0, 0, 32, false⟩
def R.THM_CNT_NEARMISS : Nat := 0x73e4
def F.THM_CNT_NEARMISS_count : Fld := ⟨0x73e4, 0, 32, false⟩
def R.THM_CNT_CLR : Nat := 0x73f0
def F.THM_CNT_CLR_cnt : Fld := ⟨0x73f0, 0, 10, false⟩
def R.BST_CTL : Nat := 0x8000
def F.BST_CTL_rt_yield : Fld := ⟨0x8000, 6, 1, true⟩
def F.BST_CTL_riser_en : Fld := ⟨0x8000, 5, 1, true⟩
def F.BST_CTL_lbank_en : Fld := ⟨0x8000, 4, 1, true⟩
def F.BST_CTL_row_en : Fld := ⟨0x8000, 3, 1, true⟩
def F.BST_CTL_parlour_en : Fld := ⟨0x8000, 2, 1, true⟩
def F.BST_CTL_engine_en : Fld := ⟨0x8000, 1, 1, true⟩
def F.BST_CTL_infield_en : Fld := ⟨0x8000, 0, 1, true⟩
def R.BST_SCHED_LOGIC : Nat := 0x8004
def F.BST_SCHED_LOGIC_parlour_period : Fld := ⟨0x8004, 16, 16, true⟩
def F.BST_SCHED_LOGIC_engine_period : Fld := ⟨0x8004, 0, 16, true⟩
def R.BST_SCHED_MEM : Nat := 0x8008
def F.BST_SCHED_MEM_lbank_rate : Fld := ⟨0x8008, 8, 8, true⟩
def F.BST_SCHED_MEM_row_rate : Fld := ⟨0x8008, 0, 8, true⟩
def R.BST_SCHED_RISER : Nat := 0x800c
def F.BST_SCHED_RISER_riser_period : Fld := ⟨0x800c, 0, 16, true⟩
def R.BST_YIELD : Nat := 0x8010
def F.BST_YIELD_retry : Fld := ⟨0x8010, 8, 8, true⟩
def F.BST_YIELD_bound : Fld := ⟨0x8010, 0, 8, true⟩
def R.BST_STATUS : Nat := 0x8020
def F.BST_STATUS_boot_done : Fld := ⟨0x8020, 31, 1, false⟩
def F.BST_STATUS_sig_unjudged : Fld := ⟨0x8020, 30, 1, false⟩
def F.BST_STATUS_riser : Fld := ⟨0x8020, 24, 6, false⟩
def F.BST_STATUS_rows_borrowed : Fld := ⟨0x8020, 16, 8, false⟩
def F.BST_STATUS_rows_held : Fld := ⟨0x8020, 8, 8, false⟩
def F.BST_STATUS_lbank_held : Fld := ⟨0x8020, 4, 4, false⟩
def F.BST_STATUS_parlour : Fld := ⟨0x8020, 0, 4, false⟩
def R.BST_ENG_OUT (i : Nat) : Nat := 0x8030 + 0x4 * i
def F.BST_ENG_OUT_out (i : Nat) : Fld := ⟨0x8030 + 0x4 * i, 0, 32, false⟩
def R.BST_HELD_SEL : Nat := 0x8040
def F.BST_HELD_SEL_index : Fld := ⟨0x8040, 0, 7, false⟩
def R.BST_HELD_DATA : Nat := 0x8044
def F.BST_HELD_DATA_valid : Fld := ⟨0x8044, 31, 1, false⟩
def F.BST_HELD_DATA_channel : Fld := ⟨0x8044, 26, 5, false⟩
def F.BST_HELD_DATA_bank : Fld := ⟨0x8044, 21, 5, false⟩
def F.BST_HELD_DATA_row : Fld := ⟨0x8044, 0, 16, false⟩
def R.BST_CNT_RUN : Nat := 0x8080
def F.BST_CNT_RUN_count : Fld := ⟨0x8080, 0, 32, false⟩
def R.BST_CNT_PASS : Nat := 0x8084
def F.BST_CNT_PASS_count : Fld := ⟨0x8084, 0, 32, false⟩
def R.BST_CNT_FAIL : Nat := 0x8088
def F.BST_CNT_FAIL_count : Fld := ⟨0x8088, 0, 32, false⟩
def R.BST_CNT_YIELD : Nat := 0x808c
def F.BST_CNT_YIELD_count : Fld := ⟨0x808c, 0, 32, false⟩
def R.BST_CNT_ABANDON : Nat := 0x8090
def F.BST_CNT_ABANDON_count : Fld := ⟨0x8090, 0, 32, false⟩
def R.BST_CNT_NEARMISS : Nat := 0x8094
def F.BST_CNT_NEARMISS_count : Fld := ⟨0x8094, 0, 32, false⟩
def R.BST_CNT_CLR : Nat := 0x80a0
def F.BST_CNT_CLR_cnt : Fld := ⟨0x80a0, 0, 6, false⟩
def R.MAP_ZONE (i : Nat) : Nat := 0x9000 + 0x4 * i
def F.MAP_ZONE_order (i : Nat) : Fld := ⟨0x9000 + 0x4 * i, 0, 2, true⟩
def R.MAP_CNT_HOLE : Nat := 0x9080
def F.MAP_CNT_HOLE_count : Fld := ⟨0x9080, 0, 32, false⟩
def R.CEL_CTL : Nat := 0xa000
def F.CEL_CTL_warn_en : Fld := ⟨0xa000, 1, 1, true⟩
def F.CEL_CTL_enable : Fld := ⟨0xa000, 0, 1, true⟩
def R.CEL_QUEUES : Nat := 0xa004
def F.CEL_QUEUES_qk : Fld := ⟨0xa004, 0, 7, true⟩
def R.CEL_CELL_BASE : Nat := 0xa008
def F.CEL_CELL_BASE_base : Fld := ⟨0xa008, 0, 20, true⟩
def R.CEL_CELL_SIZE : Nat := 0xa00c
def F.CEL_CELL_SIZE_size : Fld := ⟨0xa00c, 0, 17, true⟩
def R.CEL_LINK_BASE : Nat := 0xa010
def F.CEL_LINK_BASE_base : Fld := ⟨0xa010, 0, 20, true⟩
def R.CEL_HC : Nat := 0xa014
def F.CEL_HC_idle : Fld := ⟨0xa014, 0, 8, true⟩
def R.CEL_WARN : Nat := 0xa018
def F.CEL_WARN_pairs : Fld := ⟨0xa018, 0, 28, true⟩
def R.CEL_STATUS : Nat := 0xa020
def F.CEL_STATUS_ready : Fld := ⟨0xa020, 31, 1, false⟩
def F.CEL_STATUS_init_busy : Fld := ⟨0xa020, 30, 1, false⟩
def F.CEL_STATUS_free_pairs : Fld := ⟨0xa020, 0, 28, false⟩
def R.CEL_LOST : Nat := 0xa024
def F.CEL_LOST_pairs : Fld := ⟨0xa024, 0, 28, false⟩
def R.CEL_HC_STAT (i : Nat) : Nat := 0xa030 + 0x4 * i
def F.CEL_HC_STAT_entries (i : Nat) : Fld := ⟨0xa030 + 0x4 * i, 16, 16, false⟩
def F.CEL_HC_STAT_used (i : Nat) : Fld := ⟨0xa030 + 0x4 * i, 0, 16, false⟩
def R.CEL_QRESET : Nat := 0xa040
def F.CEL_QRESET_go : Fld := ⟨0xa040, 31, 1, false⟩
def F.CEL_QRESET_queue : Fld := ⟨0xa040, 0, 18, false⟩
def R.CEL_CNT_ENQ : Nat := 0xa080
def F.CEL_CNT_ENQ_count : Fld := ⟨0xa080, 0, 32, false⟩
def R.CEL_CNT_DEQ : Nat := 0xa084
def F.CEL_CNT_DEQ_count : Fld := ⟨0xa084, 0, 32, false⟩
def R.CEL_CNT_FULL : Nat := 0xa088
def F.CEL_CNT_FULL_count : Fld := ⟨0xa088, 0, 32, false⟩
def R.CEL_CNT_EMPTY : Nat := 0xa08c
def F.CEL_CNT_EMPTY_count : Fld := ⟨0xa08c, 0, 32, false⟩
def R.CEL_CNT_HCHIT : Nat := 0xa090
def F.CEL_CNT_HCHIT_count : Fld := ⟨0xa090, 0, 32, false⟩
def R.CEL_CNT_POISON : Nat := 0xa094
def F.CEL_CNT_POISON_count : Fld := ⟨0xa094, 0, 32, false⟩
def R.CEL_CNT_BROKEN : Nat := 0xa098
def F.CEL_CNT_BROKEN_count : Fld := ⟨0xa098, 0, 32, false⟩
def R.CEL_CNT_FREEWAIT : Nat := 0xa09c
def F.CEL_CNT_FREEWAIT_count : Fld := ⟨0xa09c, 0, 32, false⟩
def R.CEL_CNT_NEARMISS : Nat := 0xa0a0
def F.CEL_CNT_NEARMISS_count : Fld := ⟨0xa0a0, 0, 32, false⟩
def R.CEL_CNT_CLR : Nat := 0xa0c0
def F.CEL_CNT_CLR_cnt : Fld := ⟨0xa0c0, 0, 9, false⟩
def R.MBX_CTL (n : Nat) : Nat := 0x10000 + 0x400 * n
def F.MBX_CTL_abort (n : Nat) : Fld := ⟨0x10000 + 0x400 * n, 2, 1, false⟩
def F.MBX_CTL_cpl_note (n : Nat) : Fld := ⟨0x10000 + 0x400 * n, 1, 1, false⟩
def F.MBX_CTL_enable (n : Nat) : Fld := ⟨0x10000 + 0x400 * n, 0, 1, false⟩
def R.MBX_DOORBELL (n : Nat) : Nat := 0x10004 + 0x400 * n
def F.MBX_DOORBELL_ring (n : Nat) : Fld := ⟨0x10004 + 0x400 * n, 0, 1, false⟩
def R.MBX_CPL (n : Nat) : Nat := 0x10008 + 0x400 * n
def F.MBX_CPL_word (n : Nat) : Fld := ⟨0x10008 + 0x400 * n, 0, 32, false⟩
def R.MBX_OWNER (n : Nat) : Nat := 0x1000c + 0x400 * n
def F.MBX_OWNER_release (n : Nat) : Fld := ⟨0x1000c + 0x400 * n, 8, 1, false⟩
def F.MBX_OWNER_owned (n : Nat) : Fld := ⟨0x1000c + 0x400 * n, 7, 1, false⟩
def F.MBX_OWNER_owner (n : Nat) : Fld := ⟨0x1000c + 0x400 * n, 0, 7, false⟩
def R.MBX_DEADLINE (n : Nat) : Nat := 0x10010 + 0x400 * n
def F.MBX_DEADLINE_dflt (n : Nat) : Fld := ⟨0x10010 + 0x400 * n, 0, 16, false⟩
def R.MBX_CLAIM (n : Nat) : Nat := 0x10014 + 0x400 * n
def F.MBX_CLAIM_timeout (n : Nat) : Fld := ⟨0x10014 + 0x400 * n, 0, 16, false⟩
def R.MBX_CNT_NEARMISS (n : Nat) : Nat := 0x10018 + 0x400 * n
def F.MBX_CNT_NEARMISS_count (n : Nat) : Fld := ⟨0x10018 + 0x400 * n, 0, 32, false⟩
def R.MBX_CNT_BUSY (n : Nat) : Nat := 0x1001c + 0x400 * n
def F.MBX_CNT_BUSY_count (n : Nat) : Fld := ⟨0x1001c + 0x400 * n, 0, 32, false⟩
def R.MBX_CNT_BADMSG (n : Nat) : Nat := 0x10020 + 0x400 * n
def F.MBX_CNT_BADMSG_count (n : Nat) : Fld := ⟨0x10020 + 0x400 * n, 0, 32, false⟩
def R.MBX_BUF (n i : Nat) : Nat := 0x10100 + 0x400 * n + 0x4 * i
def F.MBX_BUF_data (n i : Nat) : Fld := ⟨0x10100 + 0x400 * n + 0x4 * i, 0, 32, false⟩
def R.LNK_CTL (n : Nat) : Nat := 0x20000 + 0x400 * n
def F.LNK_CTL_retrain (n : Nat) : Fld := ⟨0x20000 + 0x400 * n, 3, 1, false⟩
def F.LNK_CTL_hold_down (n : Nat) : Fld := ⟨0x20000 + 0x400 * n, 2, 1, false⟩
def F.LNK_CTL_vestibule_hold (n : Nat) : Fld := ⟨0x20000 + 0x400 * n, 1, 1, false⟩
def F.LNK_CTL_enable (n : Nat) : Fld := ⟨0x20000 + 0x400 * n, 0, 1, false⟩
def R.LNK_STATUS (n : Nat) : Nat := 0x20004 + 0x400 * n
def F.LNK_STATUS_last_fail (n : Nat) : Fld := ⟨0x20004 + 0x400 * n, 16, 8, false⟩
def F.LNK_STATUS_train_step (n : Nat) : Fld := ⟨0x20004 + 0x400 * n, 12, 4, false⟩
def F.LNK_STATUS_decide_single (n : Nat) : Fld := ⟨0x20004 + 0x400 * n, 11, 1, false⟩
def F.LNK_STATUS_spares_out_exhausted (n : Nat) : Fld := ⟨0x20004 + 0x400 * n, 10, 1, false⟩
def F.LNK_STATUS_spares_in_exhausted (n : Nat) : Fld := ⟨0x20004 + 0x400 * n, 9, 1, false⟩
def F.LNK_STATUS_repair_pending (n : Nat) : Fld := ⟨0x20004 + 0x400 * n, 8, 1, false⟩
def F.LNK_STATUS_state (n : Nat) : Fld := ⟨0x20004 + 0x400 * n, 0, 3, false⟩
def R.LNK_TRAIN (n : Nat) : Nat := 0x20008 + 0x400 * n
def F.LNK_TRAIN_timeout (n : Nat) : Fld := ⟨0x20008 + 0x400 * n, 24, 8, false⟩
def F.LNK_TRAIN_backoff (n : Nat) : Fld := ⟨0x20008 + 0x400 * n, 16, 8, false⟩
def F.LNK_TRAIN_eye_min (n : Nat) : Fld := ⟨0x20008 + 0x400 * n, 0, 8, false⟩
def R.LNK_REPAIR_IN (n : Nat) : Nat := 0x2000c + 0x400 * n
def F.LNK_REPAIR_IN_b_src (n : Nat) : Fld := ⟨0x2000c + 0x400 * n, 18, 2, false⟩
def F.LNK_REPAIR_IN_b_used (n : Nat) : Fld := ⟨0x2000c + 0x400 * n, 17, 1, false⟩
def F.LNK_REPAIR_IN_b_lane (n : Nat) : Fld := ⟨0x2000c + 0x400 * n, 10, 7, false⟩
def F.LNK_REPAIR_IN_a_src (n : Nat) : Fld := ⟨0x2000c + 0x400 * n, 8, 2, false⟩
def F.LNK_REPAIR_IN_a_used (n : Nat) : Fld := ⟨0x2000c + 0x400 * n, 7, 1, false⟩
def F.LNK_REPAIR_IN_a_lane (n : Nat) : Fld := ⟨0x2000c + 0x400 * n, 0, 7, false⟩
def R.LNK_REPAIR_OUT (n : Nat) : Nat := 0x20010 + 0x400 * n
def F.LNK_REPAIR_OUT_b_src (n : Nat) : Fld := ⟨0x20010 + 0x400 * n, 18, 2, false⟩
def F.LNK_REPAIR_OUT_b_used (n : Nat) : Fld := ⟨0x20010 + 0x400 * n, 17, 1, false⟩
def F.LNK_REPAIR_OUT_b_lane (n : Nat) : Fld := ⟨0x20010 + 0x400 * n, 10, 7, false⟩
def F.LNK_REPAIR_OUT_a_src (n : Nat) : Fld := ⟨0x20010 + 0x400 * n, 8, 2, false⟩
def F.LNK_REPAIR_OUT_a_used (n : Nat) : Fld := ⟨0x20010 + 0x400 * n, 7, 1, false⟩
def F.LNK_REPAIR_OUT_a_lane (n : Nat) : Fld := ⟨0x20010 + 0x400 * n, 0, 7, false⟩
def R.LNK_REPAIR_REQ (n : Nat) : Nat := 0x20014 + 0x400 * n
def F.LNK_REPAIR_REQ_go (n : Nat) : Fld := ⟨0x20014 + 0x400 * n, 8, 1, false⟩
def F.LNK_REPAIR_REQ_dir (n : Nat) : Fld := ⟨0x20014 + 0x400 * n, 7, 1, false⟩
def F.LNK_REPAIR_REQ_lane (n : Nat) : Fld := ⟨0x20014 + 0x400 * n, 0, 7, false⟩
def R.LNK_RPL (n : Nat) : Nat := 0x20018 + 0x400 * n
def F.LNK_RPL_max_replays (n : Nat) : Fld := ⟨0x20018 + 0x400 * n, 16, 4, false⟩
def F.LNK_RPL_timer (n : Nat) : Fld := ⟨0x20018 + 0x400 * n, 0, 10, false⟩
def R.LNK_CRD (n : Nat) : Nat := 0x2001c + 0x400 * n
def F.LNK_CRD_hdr_pool (n : Nat) : Fld := ⟨0x2001c + 0x400 * n, 0, 7, false⟩
def R.LNK_PM (n : Nat) : Nat := 0x20020 + 0x400 * n
def F.LNK_PM_doze_idle (n : Nat) : Fld := ⟨0x20020 + 0x400 * n, 8, 8, false⟩
def F.LNK_PM_sleep_allow (n : Nat) : Fld := ⟨0x20020 + 0x400 * n, 1, 1, false⟩
def F.LNK_PM_auto_doze (n : Nat) : Fld := ⟨0x20020 + 0x400 * n, 0, 1, false⟩
def R.LNK_MON (n : Nat) : Nat := 0x20024 + 0x400 * n
def F.LNK_MON_window (n : Nat) : Fld := ⟨0x20024 + 0x400 * n, 24, 8, false⟩
def F.LNK_MON_hard_thresh (n : Nat) : Fld := ⟨0x20024 + 0x400 * n, 8, 8, false⟩
def F.LNK_MON_lane_thresh (n : Nat) : Fld := ⟨0x20024 + 0x400 * n, 0, 8, false⟩
def R.LNK_LANE_SEL (n : Nat) : Nat := 0x20028 + 0x400 * n
def F.LNK_LANE_SEL_lane (n : Nat) : Fld := ⟨0x20028 + 0x400 * n, 0, 7, false⟩
def R.LNK_LANE_ERR (n : Nat) : Nat := 0x2002c + 0x400 * n
def F.LNK_LANE_ERR_count (n : Nat) : Fld := ⟨0x2002c + 0x400 * n, 0, 32, false⟩
def R.LNK_CNT_CRC (n : Nat) : Nat := 0x20040 + 0x400 * n
def F.LNK_CNT_CRC_count (n : Nat) : Fld := ⟨0x20040 + 0x400 * n, 0, 32, false⟩
def R.LNK_CNT_REQCRC (n : Nat) : Nat := 0x20044 + 0x400 * n
def F.LNK_CNT_REQCRC_count (n : Nat) : Fld := ⟨0x20044 + 0x400 * n, 0, 32, false⟩
def R.LNK_CNT_REPLAY (n : Nat) : Nat := 0x20048 + 0x400 * n
def F.LNK_CNT_REPLAY_count (n : Nat) : Fld := ⟨0x20048 + 0x400 * n, 0, 32, false⟩
def R.LNK_CNT_NEARMISS (n : Nat) : Nat := 0x2004c + 0x400 * n
def F.LNK_CNT_NEARMISS_count (n : Nat) : Fld := ⟨0x2004c + 0x400 * n, 0, 32, false⟩
def R.LNK_CNT_RETRAIN (n : Nat) : Nat := 0x20050 + 0x400 * n
def F.LNK_CNT_RETRAIN_count (n : Nat) : Fld := ⟨0x20050 + 0x400 * n, 0, 32, false⟩
def R.LNK_CNT_PROTO (n : Nat) : Nat := 0x20054 + 0x400 * n
def F.LNK_CNT_PROTO_count (n : Nat) : Fld := ⟨0x20054 + 0x400 * n, 0, 32, false⟩
def R.LNK_CNT_WDLATE (n : Nat) : Nat := 0x20058 + 0x400 * n
def F.LNK_CNT_WDLATE_count (n : Nat) : Fld := ⟨0x20058 + 0x400 * n, 0, 32, false⟩
def R.LNK_CNT_DQUERY (n : Nat) : Nat := 0x2005c + 0x400 * n
def F.LNK_CNT_DQUERY_count (n : Nat) : Fld := ⟨0x2005c + 0x400 * n, 0, 32, false⟩
def R.LNK_CNT_CLR (n : Nat) : Nat := 0x20060 + 0x400 * n
def F.LNK_CNT_CLR_lane_err (n : Nat) : Fld := ⟨0x20060 + 0x400 * n, 8, 1, false⟩
def F.LNK_CNT_CLR_cnt (n : Nat) : Fld := ⟨0x20060 + 0x400 * n, 0, 8, false⟩
def R.LNK_EVTPORT : Nat := 0x24000
def F.LNK_EVTPORT_enable : Fld := ⟨0x24000, 7, 1, false⟩
def F.LNK_EVTPORT_port : Fld := ⟨0x24000, 0, 6, false⟩
def R.LNK_EVT_LOST : Nat := 0x24004
def F.LNK_EVT_LOST_count : Fld := ⟨0x24004, 0, 32, false⟩
def R.PRT_CTL (n : Nat) : Nat := 0x30000 + 0x100 * n
def F.PRT_CTL_weight (n : Nat) : Fld := ⟨0x30000 + 0x100 * n, 8, 4, true⟩
def F.PRT_CTL_mgmt (n : Nat) : Fld := ⟨0x30000 + 0x100 * n, 2, 1, true⟩
def F.PRT_CTL_rt (n : Nat) : Fld := ⟨0x30000 + 0x100 * n, 1, 1, true⟩
def F.PRT_CTL_enable (n : Nat) : Fld := ⟨0x30000 + 0x100 * n, 0, 1, true⟩
def R.PRT_OPS (n : Nat) : Nat := 0x30004 + 0x100 * n
def F.PRT_OPS_ops (n : Nat) : Fld := ⟨0x30004 + 0x100 * n, 0, 9, true⟩
def R.PRT_LIMIT (n : Nat) : Nat := 0x30008 + 0x100 * n
def F.PRT_LIMIT_limit (n : Nat) : Fld := ⟨0x30008 + 0x100 * n, 0, 10, true⟩
def R.PRT_ACT (n : Nat) : Nat := 0x3000c + 0x100 * n
def F.PRT_ACT_budget (n : Nat) : Fld := ⟨0x3000c + 0x100 * n, 0, 8, true⟩
def R.PRT_QUOTA (n : Nat) : Nat := 0x30010 + 0x100 * n
def F.PRT_QUOTA_deq (n : Nat) : Fld := ⟨0x30010 + 0x100 * n, 24, 8, true⟩
def F.PRT_QUOTA_enq (n : Nat) : Fld := ⟨0x30010 + 0x100 * n, 16, 8, true⟩
def F.PRT_QUOTA_lpm (n : Nat) : Fld := ⟨0x30010 + 0x100 * n, 8, 8, true⟩
def F.PRT_QUOTA_hlk (n : Nat) : Fld := ⟨0x30010 + 0x100 * n, 0, 8, true⟩
def R.PRT_GUAR (n i : Nat) : Nat := 0x30020 + 0x100 * n + 0x4 * i
def F.PRT_GUAR_g3 (n i : Nat) : Fld := ⟨0x30020 + 0x100 * n + 0x4 * i, 24, 8, true⟩
def F.PRT_GUAR_g2 (n i : Nat) : Fld := ⟨0x30020 + 0x100 * n + 0x4 * i, 16, 8, true⟩
def F.PRT_GUAR_g1 (n i : Nat) : Fld := ⟨0x30020 + 0x100 * n + 0x4 * i, 8, 8, true⟩
def F.PRT_GUAR_g0 (n i : Nat) : Fld := ⟨0x30020 + 0x100 * n + 0x4 * i, 0, 8, true⟩
def R.PRT_STATUS (n : Nat) : Nat := 0x30040 + 0x100 * n
def F.PRT_STATUS_be_scale (n : Nat) : Fld := ⟨0x30040 + 0x100 * n, 16, 9, false⟩
def F.PRT_STATUS_penalised (n : Nat) : Fld := ⟨0x30040 + 0x100 * n, 10, 1, false⟩
def F.PRT_STATUS_outst (n : Nat) : Fld := ⟨0x30040 + 0x100 * n, 0, 10, false⟩
def R.PRT_CNT_ACC (n : Nat) : Nat := 0x30080 + 0x100 * n
def F.PRT_CNT_ACC_count (n : Nat) : Fld := ⟨0x30080 + 0x100 * n, 0, 32, false⟩
def R.PRT_CNT_DEF_RIGHTS (n : Nat) : Nat := 0x30084 + 0x100 * n
def F.PRT_CNT_DEF_RIGHTS_count (n : Nat) : Fld := ⟨0x30084 + 0x100 * n, 0, 32, false⟩
def R.PRT_CNT_DEF_TAG (n : Nat) : Nat := 0x30088 + 0x100 * n
def F.PRT_CNT_DEF_TAG_count (n : Nat) : Fld := ⟨0x30088 + 0x100 * n, 0, 32, false⟩
def R.PRT_CNT_DEF_FENCE (n : Nat) : Nat := 0x3008c + 0x100 * n
def F.PRT_CNT_DEF_FENCE_count (n : Nat) : Fld := ⟨0x3008c + 0x100 * n, 0, 32, false⟩
def R.PRT_CNT_DEF_OUTST (n : Nat) : Nat := 0x30090 + 0x100 * n
def F.PRT_CNT_DEF_OUTST_count (n : Nat) : Fld := ⟨0x30090 + 0x100 * n, 0, 32, false⟩
def R.PRT_CNT_DEF_ACT (n : Nat) : Nat := 0x30094 + 0x100 * n
def F.PRT_CNT_DEF_ACT_count (n : Nat) : Fld := ⟨0x30094 + 0x100 * n, 0, 32, false⟩
def R.PRT_CNT_DEF_SLOT (n : Nat) : Nat := 0x30098 + 0x100 * n
def F.PRT_CNT_DEF_SLOT_count (n : Nat) : Fld := ⟨0x30098 + 0x100 * n, 0, 32, false⟩
def R.PRT_CNT_DEF_QUOTA (n : Nat) : Nat := 0x3009c + 0x100 * n
def F.PRT_CNT_DEF_QUOTA_count (n : Nat) : Fld := ⟨0x3009c + 0x100 * n, 0, 32, false⟩
def R.PRT_CNT_DENIED (n : Nat) : Nat := 0x300a0 + 0x100 * n
def F.PRT_CNT_DENIED_count (n : Nat) : Fld := ⟨0x300a0 + 0x100 * n, 0, 32, false⟩
def R.PRT_CNT_CARRY (n : Nat) : Nat := 0x300a4 + 0x100 * n
def F.PRT_CNT_CARRY_count (n : Nat) : Fld := ⟨0x300a4 + 0x100 * n, 0, 32, false⟩
def R.PRT_CNT_SHARED (n : Nat) : Nat := 0x300a8 + 0x100 * n
def F.PRT_CNT_SHARED_count (n : Nat) : Fld := ⟨0x300a8 + 0x100 * n, 0, 32, false⟩
def R.PRT_CNT_CLR (n : Nat) : Nat := 0x300ac + 0x100 * n
def F.PRT_CNT_CLR_cnt (n : Nat) : Fld := ⟨0x300ac + 0x100 * n, 0, 11, false⟩
def R.LAR_CTL (n : Nat) : Nat := 0x40000 + 0x1000 * n
def F.LAR_CTL_preset (n : Nat) : Fld := ⟨0x40000 + 0x1000 * n, 0, 3, true⟩
def R.LAR_PART_LO (n : Nat) : Nat := 0x40008 + 0x1000 * n
def F.LAR_PART_LO_kinds (n : Nat) : Fld := ⟨0x40008 + 0x1000 * n, 4, 28, true⟩
def F.LAR_PART_LO_kind_0 (n : Nat) : Fld := ⟨0x40008 + 0x1000 * n, 0, 4, false⟩
def R.LAR_PART_HI (n : Nat) : Nat := 0x4000c + 0x1000 * n
def F.LAR_PART_HI_kinds (n : Nat) : Fld := ⟨0x4000c + 0x1000 * n, 0, 32, true⟩
def R.LAR_SPARE (n : Nat) : Nat := 0x40010 + 0x1000 * n
def F.LAR_SPARE_perm (n : Nat) : Fld := ⟨0x40010 + 0x1000 * n, 7, 1, true⟩
def F.LAR_SPARE_bank (n : Nat) : Fld := ⟨0x40010 + 0x1000 * n, 0, 7, true⟩
def R.LAR_SCR_MAP (n : Nat) : Nat := 0x40020 + 0x1000 * n
def F.LAR_SCR_MAP_first (n : Nat) : Fld := ⟨0x40020 + 0x1000 * n, 16, 6, false⟩
def F.LAR_SCR_MAP_total (n : Nat) : Fld := ⟨0x40020 + 0x1000 * n, 4, 7, false⟩
def F.LAR_SCR_MAP_count (n : Nat) : Fld := ⟨0x40020 + 0x1000 * n, 0, 4, false⟩
def R.LAR_SPARE_STAT (n : Nat) : Nat := 0x40024 + 0x1000 * n
def F.LAR_SPARE_STAT_active (n : Nat) : Fld := ⟨0x40024 + 0x1000 * n, 8, 1, false⟩
def F.LAR_SPARE_STAT_bank (n : Nat) : Fld := ⟨0x40024 + 0x1000 * n, 0, 7, false⟩
def R.LAR_SHADOW_USED (n : Nat) : Nat := 0x40028 + 0x1000 * n
def F.LAR_SHADOW_USED_slots (n : Nat) : Fld := ⟨0x40028 + 0x1000 * n, 0, 16, false⟩
def R.LAR_CNT_HRD (n : Nat) : Nat := 0x40040 + 0x1000 * n
def F.LAR_CNT_HRD_count (n : Nat) : Fld := ⟨0x40040 + 0x1000 * n, 0, 32, false⟩
def R.LAR_CNT_HWR (n : Nat) : Nat := 0x40044 + 0x1000 * n
def F.LAR_CNT_HWR_count (n : Nat) : Fld := ⟨0x40044 + 0x1000 * n, 0, 32, false⟩
def R.LAR_CNT_COLLIDE (n : Nat) : Nat := 0x40048 + 0x1000 * n
def F.LAR_CNT_COLLIDE_count (n : Nat) : Fld := ⟨0x40048 + 0x1000 * n, 0, 32, false⟩
def R.LAR_CNT_LATE (n : Nat) : Nat := 0x4004c + 0x1000 * n
def F.LAR_CNT_LATE_count (n : Nat) : Fld := ⟨0x4004c + 0x1000 * n, 0, 32, false⟩
def R.LAR_CNT_CLR (n : Nat) : Nat := 0x40060 + 0x1000 * n
def F.LAR_CNT_CLR_cnt (n : Nat) : Fld := ⟨0x40060 + 0x1000 * n, 0, 4, false⟩
def R.LAR_CNT_PCONF (n i : Nat) : Nat := 0x40100 + 0x1000 * n + 0x4 * i
def F.LAR_CNT_PCONF_count (n i : Nat) : Fld := ⟨0x40100 + 0x1000 * n + 0x4 * i, 0, 32, false⟩
def R.LAR_CNT_ECONF (n i : Nat) : Nat := 0x40140 + 0x1000 * n + 0x4 * i
def F.LAR_CNT_ECONF_count (n i : Nat) : Fld := ⟨0x40140 + 0x1000 * n + 0x4 * i, 0, 32, false⟩
def R.LAR_CONF_CLR (n : Nat) : Nat := 0x401c0 + 0x1000 * n
def F.LAR_CONF_CLR_clr (n : Nat) : Fld := ⟨0x401c0 + 0x1000 * n, 0, 32, false⟩
def R.SCH_CTL (n : Nat) : Nat := 0x100000 + 0x8000 * n
def F.SCH_CTL_maint_mm (n : Nat) : Fld := ⟨0x100000 + 0x8000 * n, 4, 5, true⟩
def F.SCH_CTL_express (n : Nat) : Fld := ⟨0x100000 + 0x8000 * n, 3, 1, true⟩
def F.SCH_CTL_pullin (n : Nat) : Fld := ⟨0x100000 + 0x8000 * n, 2, 1, true⟩
def F.SCH_CTL_maint (n : Nat) : Fld := ⟨0x100000 + 0x8000 * n, 0, 2, true⟩
def R.SCH_DET (n : Nat) : Nat := 0x100004 + 0x8000 * n
def F.SCH_DET_write_lat (n : Nat) : Fld := ⟨0x100004 + 0x8000 * n, 8, 7, true⟩
def F.SCH_DET_read_lat (n : Nat) : Fld := ⟨0x100004 + 0x8000 * n, 0, 7, true⟩
def R.SCH_HAM (n : Nat) : Nat := 0x100008 + 0x8000 * n
def F.SCH_HAM_penalty (n : Nat) : Fld := ⟨0x100008 + 0x8000 * n, 16, 8, true⟩
def F.SCH_HAM_thresh (n : Nat) : Fld := ⟨0x100008 + 0x8000 * n, 0, 11, true⟩
def R.SCH_STATUS (n : Nat) : Nat := 0x10000c + 0x8000 * n
def F.SCH_STATUS_penalties (n : Nat) : Fld := ⟨0x10000c + 0x8000 * n, 8, 8, false⟩
def F.SCH_STATUS_act_held (n : Nat) : Fld := ⟨0x10000c + 0x8000 * n, 7, 1, false⟩
def F.SCH_STATUS_clock_fallback (n : Nat) : Fld := ⟨0x10000c + 0x8000 * n, 6, 1, false⟩
def F.SCH_STATUS_on_spare (n : Nat) : Fld := ⟨0x10000c + 0x8000 * n, 5, 1, false⟩
def F.SCH_STATUS_degraded (n : Nat) : Fld := ⟨0x10000c + 0x8000 * n, 4, 1, false⟩
def F.SCH_STATUS_det (n : Nat) : Fld := ⟨0x10000c + 0x8000 * n, 3, 1, false⟩
def F.SCH_STATUS_ref_relaxed (n : Nat) : Fld := ⟨0x10000c + 0x8000 * n, 2, 1, false⟩
def F.SCH_STATUS_ref_hot (n : Nat) : Fld := ⟨0x10000c + 0x8000 * n, 1, 1, false⟩
def F.SCH_STATUS_running (n : Nat) : Fld := ⟨0x10000c + 0x8000 * n, 0, 1, false⟩
def R.SCH_OCC (n : Nat) : Nat := 0x100010 + 0x8000 * n
def F.SCH_OCC_open_used (n : Nat) : Fld := ⟨0x100010 + 0x8000 * n, 24, 8, false⟩
def F.SCH_OCC_planned (n : Nat) : Fld := ⟨0x100010 + 0x8000 * n, 16, 8, false⟩
def F.SCH_OCC_ref_used (n : Nat) : Fld := ⟨0x100010 + 0x8000 * n, 12, 4, false⟩
def F.SCH_OCC_mitig_used (n : Nat) : Fld := ⟨0x100010 + 0x8000 * n, 8, 4, false⟩
def F.SCH_OCC_maint_used (n : Nat) : Fld := ⟨0x100010 + 0x8000 * n, 4, 4, false⟩
def R.SCH_CAP (n : Nat) : Nat := 0x100014 + 0x8000 * n
def F.SCH_CAP_cap (n : Nat) : Fld := ⟨0x100014 + 0x8000 * n, 0, 8, false⟩
def R.SCH_POOL (n : Nat) : Nat := 0x100018 + 0x8000 * n
def F.SCH_POOL_oversub_ok (n : Nat) : Fld := ⟨0x100018 + 0x8000 * n, 25, 1, true⟩
def F.SCH_POOL_oversub (n : Nat) : Fld := ⟨0x100018 + 0x8000 * n, 24, 1, false⟩
def F.SCH_POOL_cel (n : Nat) : Fld := ⟨0x100018 + 0x8000 * n, 16, 8, true⟩
def F.SCH_POOL_walk (n : Nat) : Fld := ⟨0x100018 + 0x8000 * n, 8, 8, true⟩
def F.SCH_POOL_lookup (n : Nat) : Fld := ⟨0x100018 + 0x8000 * n, 0, 8, true⟩
def R.SCH_SHORT (n : Nat) : Nat := 0x10001c + 0x8000 * n
def F.SCH_SHORT_first_cut (n : Nat) : Fld := ⟨0x10001c + 0x8000 * n, 18, 6, false⟩
def F.SCH_SHORT_pool_cut (n : Nat) : Fld := ⟨0x10001c + 0x8000 * n, 17, 1, false⟩
def F.SCH_SHORT_rt_cut (n : Nat) : Fld := ⟨0x10001c + 0x8000 * n, 16, 1, false⟩
def F.SCH_SHORT_be_scale (n : Nat) : Fld := ⟨0x10001c + 0x8000 * n, 0, 9, false⟩
def R.SCH_POOL_OVER (n : Nat) : Nat := 0x100020 + 0x8000 * n
def F.SCH_POOL_OVER_count (n : Nat) : Fld := ⟨0x100020 + 0x8000 * n, 0, 32, false⟩
def R.SCH_CNT_ACT (n : Nat) : Nat := 0x100040 + 0x8000 * n
def F.SCH_CNT_ACT_count (n : Nat) : Fld := ⟨0x100040 + 0x8000 * n, 0, 32, false⟩
def R.SCH_CNT_REF (n : Nat) : Nat := 0x100044 + 0x8000 * n
def F.SCH_CNT_REF_count (n : Nat) : Fld := ⟨0x100044 + 0x8000 * n, 0, 32, false⟩
def R.SCH_CNT_MITIG (n : Nat) : Nat := 0x100048 + 0x8000 * n
def F.SCH_CNT_MITIG_count (n : Nat) : Fld := ⟨0x100048 + 0x8000 * n, 0, 32, false⟩
def R.SCH_CNT_TRIG (n : Nat) : Nat := 0x10004c + 0x8000 * n
def F.SCH_CNT_TRIG_count (n : Nat) : Fld := ⟨0x10004c + 0x8000 * n, 0, 32, false⟩
def R.SCH_CNT_PENALTY (n : Nat) : Nat := 0x100050 + 0x8000 * n
def F.SCH_CNT_PENALTY_count (n : Nat) : Fld := ⟨0x100050 + 0x8000 * n, 0, 32, false⟩
def R.SCH_CNT_EXPRESS (n : Nat) : Nat := 0x100054 + 0x8000 * n
def F.SCH_CNT_EXPRESS_count (n : Nat) : Fld := ⟨0x100054 + 0x8000 * n, 0, 32, false⟩
def R.SCH_CNT_LATE (n : Nat) : Nat := 0x100058 + 0x8000 * n
def F.SCH_CNT_LATE_count (n : Nat) : Fld := ⟨0x100058 + 0x8000 * n, 0, 32, false⟩
def R.SCH_CNT_WLATE (n : Nat) : Nat := 0x10005c + 0x8000 * n
def F.SCH_CNT_WLATE_count (n : Nat) : Fld := ⟨0x10005c + 0x8000 * n, 0, 32, false⟩
def R.SCH_CNT_CLR (n : Nat) : Nat := 0x100060 + 0x8000 * n
def F.SCH_CNT_CLR_cnt (n : Nat) : Fld := ⟨0x100060 + 0x8000 * n, 0, 8, false⟩
def R.ENG_CTL (n : Nat) : Nat := 0x102000 + 0x8000 * n
def F.ENG_CTL_flush_busy (n : Nat) : Fld := ⟨0x102000 + 0x8000 * n, 1, 1, false⟩
def F.ENG_CTL_cache_en (n : Nat) : Fld := ⟨0x102000 + 0x8000 * n, 0, 1, true⟩
def R.ENG_EPOCH_LO (n : Nat) : Nat := 0x102010 + 0x8000 * n
def F.ENG_EPOCH_LO_epoch (n : Nat) : Fld := ⟨0x102010 + 0x8000 * n, 0, 32, false⟩
def R.ENG_EPOCH_HI (n : Nat) : Nat := 0x102014 + 0x8000 * n
def F.ENG_EPOCH_HI_epoch (n : Nat) : Fld := ⟨0x102014 + 0x8000 * n, 0, 32, false⟩
def R.ENG_CNT_CUPD (n : Nat) : Nat := 0x102040 + 0x8000 * n
def F.ENG_CNT_CUPD_count (n : Nat) : Fld := ⟨0x102040 + 0x8000 * n, 0, 32, false⟩
def R.ENG_CNT_CHIT (n : Nat) : Nat := 0x102044 + 0x8000 * n
def F.ENG_CNT_CHIT_count (n : Nat) : Fld := ⟨0x102044 + 0x8000 * n, 0, 32, false⟩
def R.ENG_CNT_CMISS (n : Nat) : Nat := 0x102048 + 0x8000 * n
def F.ENG_CNT_CMISS_count (n : Nat) : Fld := ⟨0x102048 + 0x8000 * n, 0, 32, false⟩
def R.ENG_CNT_CWB (n : Nat) : Nat := 0x10204c + 0x8000 * n
def F.ENG_CNT_CWB_count (n : Nat) : Fld := ⟨0x10204c + 0x8000 * n, 0, 32, false⟩
def R.ENG_CNT_OVF (n : Nat) : Nat := 0x102050 + 0x8000 * n
def F.ENG_CNT_OVF_count (n : Nat) : Fld := ⟨0x102050 + 0x8000 * n, 0, 32, false⟩
def R.ENG_CNT_SPILL (n : Nat) : Nat := 0x102054 + 0x8000 * n
def F.ENG_CNT_SPILL_count (n : Nat) : Fld := ⟨0x102054 + 0x8000 * n, 0, 32, false⟩
def R.ENG_CNT_SPILL_LOST (n : Nat) : Nat := 0x102058 + 0x8000 * n
def F.ENG_CNT_SPILL_LOST_count (n : Nat) : Fld := ⟨0x102058 + 0x8000 * n, 0, 32, false⟩
def R.ENG_CNT_POL (n : Nat) : Nat := 0x10205c + 0x8000 * n
def F.ENG_CNT_POL_count (n : Nat) : Fld := ⟨0x10205c + 0x8000 * n, 0, 32, false⟩
def R.ENG_CNT_POLRED (n : Nat) : Nat := 0x102060 + 0x8000 * n
def F.ENG_CNT_POLRED_count (n : Nat) : Fld := ⟨0x102060 + 0x8000 * n, 0, 32, false⟩
def R.ENG_CNT_CDAMAGE (n : Nat) : Nat := 0x102064 + 0x8000 * n
def F.ENG_CNT_CDAMAGE_count (n : Nat) : Fld := ⟨0x102064 + 0x8000 * n, 0, 32, false⟩
def R.ENG_CNT_CLR (n : Nat) : Nat := 0x102080 + 0x8000 * n
def F.ENG_CNT_CLR_cnt (n : Nat) : Fld := ⟨0x102080 + 0x8000 * n, 0, 10, false⟩
def R.ENG_REG_BASE (n i : Nat) : Nat := 0x102100 + 0x8000 * n + 0x8 * i
def F.ENG_REG_BASE_l (n i : Nat) : Fld := ⟨0x102100 + 0x8000 * n + 0x8 * i, 31, 1, true⟩
def F.ENG_REG_BASE_kind (n i : Nat) : Fld := ⟨0x102100 + 0x8000 * n + 0x8 * i, 28, 2, true⟩
def F.ENG_REG_BASE_base (n i : Nat) : Fld := ⟨0x102100 + 0x8000 * n + 0x8 * i, 0, 21, true⟩
def R.ENG_REG_SIZE (n i : Nat) : Nat := 0x102104 + 0x8000 * n + 0x8 * i
def F.ENG_REG_SIZE_size (n i : Nat) : Fld := ⟨0x102104 + 0x8000 * n + 0x8 * i, 0, 21, true⟩
def R.ENG_CNT_HLK (n : Nat) : Nat := 0x102180 + 0x8000 * n
def F.ENG_CNT_HLK_count (n : Nat) : Fld := ⟨0x102180 + 0x8000 * n, 0, 32, false⟩
def R.ENG_CNT_HHIT (n : Nat) : Nat := 0x102184 + 0x8000 * n
def F.ENG_CNT_HHIT_count (n : Nat) : Fld := ⟨0x102184 + 0x8000 * n, 0, 32, false⟩
def R.ENG_CNT_HINS (n : Nat) : Nat := 0x102188 + 0x8000 * n
def F.ENG_CNT_HINS_count (n : Nat) : Fld := ⟨0x102188 + 0x8000 * n, 0, 32, false⟩
def R.ENG_CNT_HDISP (n : Nat) : Nat := 0x10218c + 0x8000 * n
def F.ENG_CNT_HDISP_count (n : Nat) : Fld := ⟨0x10218c + 0x8000 * n, 0, 32, false⟩
def R.ENG_CNT_HFULL (n : Nat) : Nat := 0x102190 + 0x8000 * n
def F.ENG_CNT_HFULL_count (n : Nat) : Fld := ⟨0x102190 + 0x8000 * n, 0, 32, false⟩
def R.ENG_CNT_HDEL (n : Nat) : Nat := 0x102194 + 0x8000 * n
def F.ENG_CNT_HDEL_count (n : Nat) : Fld := ⟨0x102194 + 0x8000 * n, 0, 32, false⟩
def R.ENG_CNT_LPM (n : Nat) : Nat := 0x102198 + 0x8000 * n
def F.ENG_CNT_LPM_count (n : Nat) : Fld := ⟨0x102198 + 0x8000 * n, 0, 32, false⟩
def R.ENG_CNT_LPMMISS (n : Nat) : Nat := 0x10219c + 0x8000 * n
def F.ENG_CNT_LPMMISS_count (n : Nat) : Fld := ⟨0x10219c + 0x8000 * n, 0, 32, false⟩
def R.ENG_CNT_WALKTO (n : Nat) : Nat := 0x1021a0 + 0x8000 * n
def F.ENG_CNT_WALKTO_count (n : Nat) : Fld := ⟨0x1021a0 + 0x8000 * n, 0, 32, false⟩
def R.ENG_CNT_LKDAMAGE (n : Nat) : Nat := 0x1021a4 + 0x8000 * n
def F.ENG_CNT_LKDAMAGE_count (n : Nat) : Fld := ⟨0x1021a4 + 0x8000 * n, 0, 32, false⟩
def R.ENG_CNT_BADNODE (n : Nat) : Nat := 0x1021a8 + 0x8000 * n
def F.ENG_CNT_BADNODE_count (n : Nat) : Fld := ⟨0x1021a8 + 0x8000 * n, 0, 32, false⟩
def R.ENG_CNT_NEARMISS (n : Nat) : Nat := 0x1021ac + 0x8000 * n
def F.ENG_CNT_NEARMISS_count (n : Nat) : Fld := ⟨0x1021ac + 0x8000 * n, 0, 32, false⟩
def R.ENG_LK_CNT_CLR (n : Nat) : Nat := 0x1021c0 + 0x8000 * n
def F.ENG_LK_CNT_CLR_cnt (n : Nat) : Fld := ⟨0x1021c0 + 0x8000 * n, 0, 12, false⟩
def R.ENG_WALK (n : Nat) : Nat := 0x1021e0 + 0x8000 * n
def F.ENG_WALK_step_timer (n : Nat) : Fld := ⟨0x1021e0 + 0x8000 * n, 0, 8, true⟩
def R.ENG_POLPROF_CTL (n i : Nat) : Nat := 0x102800 + 0x8000 * n + 0x20 * i
def F.ENG_POLPROF_CTL_aware (n i : Nat) : Fld := ⟨0x102800 + 0x8000 * n + 0x20 * i, 2, 1, true⟩
def F.ENG_POLPROF_CTL_alg (n i : Nat) : Fld := ⟨0x102800 + 0x8000 * n + 0x20 * i, 0, 2, true⟩
def R.ENG_POLPROF_CIR (n i : Nat) : Nat := 0x102804 + 0x8000 * n + 0x20 * i
def F.ENG_POLPROF_CIR_cir (n i : Nat) : Fld := ⟨0x102804 + 0x8000 * n + 0x20 * i, 0, 32, true⟩
def R.ENG_POLPROF_PIR (n i : Nat) : Nat := 0x102808 + 0x8000 * n + 0x20 * i
def F.ENG_POLPROF_PIR_pir (n i : Nat) : Fld := ⟨0x102808 + 0x8000 * n + 0x20 * i, 0, 32, true⟩
def R.ENG_POLPROF_CBS (n i : Nat) : Nat := 0x10280c + 0x8000 * n + 0x20 * i
def F.ENG_POLPROF_CBS_cbs (n i : Nat) : Fld := ⟨0x10280c + 0x8000 * n + 0x20 * i, 0, 32, true⟩
def R.ENG_POLPROF_EBS (n i : Nat) : Nat := 0x102810 + 0x8000 * n + 0x20 * i
def F.ENG_POLPROF_EBS_ebs_pbs (n i : Nat) : Fld := ⟨0x102810 + 0x8000 * n + 0x20 * i, 0, 32, true⟩
def R.ENG_POLPROF_RSV0 (n i : Nat) : Nat := 0x102814 + 0x8000 * n + 0x20 * i
def R.ENG_POLPROF_RSV1 (n i : Nat) : Nat := 0x102818 + 0x8000 * n + 0x20 * i
def R.ENG_POLPROF_RSV2 (n i : Nat) : Nat := 0x10281c + 0x8000 * n + 0x20 * i
def R.ENG_HT_CTL (n i : Nat) : Nat := 0x103000 + 0x8000 * n + 0x10 * i
def F.ENG_HT_CTL_enable (n i : Nat) : Fld := ⟨0x103000 + 0x8000 * n + 0x10 * i, 31, 1, true⟩
def F.ENG_HT_CTL_esize (n i : Nat) : Fld := ⟨0x103000 + 0x8000 * n + 0x10 * i, 29, 2, true⟩
def F.ENG_HT_CTL_maxdisp (n i : Nat) : Fld := ⟨0x103000 + 0x8000 * n + 0x10 * i, 25, 4, true⟩
def F.ENG_HT_CTL_logb (n i : Nat) : Fld := ⟨0x103000 + 0x8000 * n + 0x10 * i, 16, 5, true⟩
def F.ENG_HT_CTL_keylen (n i : Nat) : Fld := ⟨0x103000 + 0x8000 * n + 0x10 * i, 0, 6, true⟩
def R.ENG_HT_BASE (n i : Nat) : Nat := 0x103004 + 0x8000 * n + 0x10 * i
def F.ENG_HT_BASE_base (n i : Nat) : Fld := ⟨0x103004 + 0x8000 * n + 0x10 * i, 0, 29, true⟩
def R.ENG_HT_SEED1 (n i : Nat) : Nat := 0x103008 + 0x8000 * n + 0x10 * i
def F.ENG_HT_SEED1_seed (n i : Nat) : Fld := ⟨0x103008 + 0x8000 * n + 0x10 * i, 0, 32, true⟩
def R.ENG_HT_SEED2 (n i : Nat) : Nat := 0x10300c + 0x8000 * n + 0x10 * i
def F.ENG_HT_SEED2_seed (n i : Nat) : Fld := ⟨0x10300c + 0x8000 * n + 0x10 * i, 0, 32, true⟩
def R.ENG_TRIE_CTL (n i : Nat) : Nat := 0x103400 + 0x8000 * n + 0x80 * i
def F.ENG_TRIE_CTL_enable (n i : Nat) : Fld := ⟨0x103400 + 0x8000 * n + 0x80 * i, 31, 1, true⟩
def F.ENG_TRIE_CTL_v6 (n i : Nat) : Fld := ⟨0x103400 + 0x8000 * n + 0x80 * i, 30, 1, true⟩
def F.ENG_TRIE_CTL_preset (n i : Nat) : Fld := ⟨0x103400 + 0x8000 * n + 0x80 * i, 24, 3, true⟩
def F.ENG_TRIE_CTL_nlar (n i : Nat) : Fld := ⟨0x103400 + 0x8000 * n + 0x80 * i, 8, 4, true⟩
def F.ENG_TRIE_CTL_nlev (n i : Nat) : Fld := ⟨0x103400 + 0x8000 * n + 0x80 * i, 0, 4, true⟩
def R.ENG_TRIE_DFLT (n i : Nat) : Nat := 0x103404 + 0x8000 * n + 0x80 * i
def F.ENG_TRIE_DFLT_valid (n i : Nat) : Fld := ⟨0x103404 + 0x8000 * n + 0x80 * i, 31, 1, true⟩
def F.ENG_TRIE_DFLT_nh (n i : Nat) : Fld := ⟨0x103404 + 0x8000 * n + 0x80 * i, 0, 24, true⟩
def R.ENG_TRIE_LVLA (n i j : Nat) : Nat := 0x103440 + 0x8000 * n + 0x80 * i + 0x8 * j
def F.ENG_TRIE_LVLA_base (n i j : Nat) : Fld := ⟨0x103440 + 0x8000 * n + 0x80 * i + 0x8 * j, 6, 26, true⟩
def R.ENG_TRIE_LVLB (n i j : Nat) : Nat := 0x103444 + 0x8000 * n + 0x80 * i + 0x8 * j
def F.ENG_TRIE_LVLB_stride (n i j : Nat) : Fld := ⟨0x103444 + 0x8000 * n + 0x80 * i + 0x8 * j, 8, 5, true⟩
def F.ENG_TRIE_LVLB_base (n i j : Nat) : Fld := ⟨0x103444 + 0x8000 * n + 0x80 * i + 0x8 * j, 0, 8, true⟩
def R.ENG_RING_BASE_LO : Nat := 0x1020c0
def F.ENG_RING_BASE_LO_base : Fld := ⟨0x1020c0, 6, 26, true⟩
def R.ENG_RING_BASE_HI : Nat := 0x1020c4
def F.ENG_RING_BASE_HI_base : Fld := ⟨0x1020c4, 0, 8, true⟩
def R.ENG_RING_CTL : Nat := 0x1020c8
def F.ENG_RING_CTL_enable : Fld := ⟨0x1020c8, 31, 1, true⟩
def F.ENG_RING_CTL_warn : Fld := ⟨0x1020c8, 8, 4, true⟩
def F.ENG_RING_CTL_log2size : Fld := ⟨0x1020c8, 0, 5, true⟩
def R.ENG_RING_PROD : Nat := 0x1020cc
def F.ENG_RING_PROD_index : Fld := ⟨0x1020cc, 0, 32, false⟩
def R.ENG_RING_CONS : Nat := 0x1020d0
def F.ENG_RING_CONS_index : Fld := ⟨0x1020d0, 0, 32, false⟩
def R.ENG_RING_CONS_WR : Nat := 0x1020d4
def F.ENG_RING_CONS_WR_index : Fld := ⟨0x1020d4, 0, 32, false⟩
def R.ENG_SPILL_STAGED : Nat := 0x1020d8
def F.ENG_SPILL_STAGED_count : Fld := ⟨0x1020d8, 0, 13, false⟩
def R.ECC_CTL (n : Nat) : Nat := 0x104000 + 0x8000 * n
def F.ECC_CTL_probe_en (n : Nat) : Fld := ⟨0x104000 + 0x8000 * n, 2, 1, true⟩
def F.ECC_CTL_scrub_poison (n : Nat) : Fld := ⟨0x104000 + 0x8000 * n, 1, 1, true⟩
def F.ECC_CTL_scrub_en (n : Nat) : Fld := ⟨0x104000 + 0x8000 * n, 0, 1, true⟩
def R.ECC_SCRUB (n : Nat) : Nat := 0x104004 + 0x8000 * n
def F.ECC_SCRUB_period (n : Nat) : Fld := ⟨0x104004 + 0x8000 * n, 0, 8, true⟩
def R.ECC_REC (n : Nat) : Nat := 0x104008 + 0x8000 * n
def F.ECC_REC_max_age (n : Nat) : Fld := ⟨0x104008 + 0x8000 * n, 8, 8, true⟩
def F.ECC_REC_thresh (n : Nat) : Fld := ⟨0x104008 + 0x8000 * n, 0, 3, true⟩
def R.ECC_PROBE (n : Nat) : Nat := 0x10400c + 0x8000 * n
def F.ECC_PROBE_margin (n : Nat) : Fld := ⟨0x10400c + 0x8000 * n, 8, 6, true⟩
def F.ECC_PROBE_rounds (n : Nat) : Fld := ⟨0x10400c + 0x8000 * n, 0, 3, true⟩
def R.ECC_STATUS (n : Nat) : Nat := 0x104010 + 0x8000 * n
def F.ECC_STATUS_probe_q (n : Nat) : Fld := ⟨0x104010 + 0x8000 * n, 16, 5, false⟩
def F.ECC_STATUS_rec_used (n : Nat) : Fld := ⟨0x104010 + 0x8000 * n, 8, 5, false⟩
def F.ECC_STATUS_scrub_behind (n : Nat) : Fld := ⟨0x104010 + 0x8000 * n, 0, 1, false⟩
def R.ECC_ERASE (n : Nat) : Nat := 0x104014 + 0x8000 * n
def F.ECC_ERASE_b_valid (n : Nat) : Fld := ⟨0x104014 + 0x8000 * n, 17, 1, false⟩
def F.ECC_ERASE_a_valid (n : Nat) : Fld := ⟨0x104014 + 0x8000 * n, 16, 1, false⟩
def F.ECC_ERASE_b_line (n : Nat) : Fld := ⟨0x104014 + 0x8000 * n, 8, 8, false⟩
def F.ECC_ERASE_a_line (n : Nat) : Fld := ⟨0x104014 + 0x8000 * n, 0, 8, false⟩
def R.ECC_SCRUB_PTR (n : Nat) : Nat := 0x104018 + 0x8000 * n
def F.ECC_SCRUB_PTR_row (n : Nat) : Fld := ⟨0x104018 + 0x8000 * n, 16, 16, false⟩
def F.ECC_SCRUB_PTR_bank (n : Nat) : Fld := ⟨0x104018 + 0x8000 * n, 8, 5, false⟩
def F.ECC_SCRUB_PTR_column (n : Nat) : Fld := ⟨0x104018 + 0x8000 * n, 0, 5, false⟩
def R.ECC_SCRUB_PASS (n : Nat) : Nat := 0x10401c + 0x8000 * n
def F.ECC_SCRUB_PASS_count (n : Nat) : Fld := ⟨0x10401c + 0x8000 * n, 0, 32, false⟩
def R.ECC_REMAP_SEL (n : Nat) : Nat := 0x104020 + 0x8000 * n
def F.ECC_REMAP_SEL_bank (n : Nat) : Fld := ⟨0x104020 + 0x8000 * n, 4, 5, false⟩
def F.ECC_REMAP_SEL_entry (n : Nat) : Fld := ⟨0x104020 + 0x8000 * n, 0, 4, false⟩
def R.ECC_REMAP_DATA (n : Nat) : Nat := 0x104024 + 0x8000 * n
def F.ECC_REMAP_DATA_valid (n : Nat) : Fld := ⟨0x104024 + 0x8000 * n, 31, 1, false⟩
def F.ECC_REMAP_DATA_bad (n : Nat) : Fld := ⟨0x104024 + 0x8000 * n, 30, 1, false⟩
def F.ECC_REMAP_DATA_row (n : Nat) : Fld := ⟨0x104024 + 0x8000 * n, 0, 16, false⟩
def R.ECC_RET_CNT (n : Nat) : Nat := 0x104028 + 0x8000 * n
def F.ECC_RET_CNT_banks (n : Nat) : Fld := ⟨0x104028 + 0x8000 * n, 8, 8, false⟩
def F.ECC_RET_CNT_rows (n : Nat) : Fld := ⟨0x104028 + 0x8000 * n, 0, 8, false⟩
def R.ECC_CNT_CE (n : Nat) : Nat := 0x104080 + 0x8000 * n
def F.ECC_CNT_CE_count (n : Nat) : Fld := ⟨0x104080 + 0x8000 * n, 0, 32, false⟩
def R.ECC_CNT_UE (n : Nat) : Nat := 0x104084 + 0x8000 * n
def F.ECC_CNT_UE_count (n : Nat) : Fld := ⟨0x104084 + 0x8000 * n, 0, 32, false⟩
def R.ECC_CNT_ERASE (n : Nat) : Nat := 0x104088 + 0x8000 * n
def F.ECC_CNT_ERASE_count (n : Nat) : Fld := ⟨0x104088 + 0x8000 * n, 0, 32, false⟩
def R.ECC_CNT_POISON_RD (n : Nat) : Nat := 0x10408c + 0x8000 * n
def F.ECC_CNT_POISON_RD_count (n : Nat) : Fld := ⟨0x10408c + 0x8000 * n, 0, 32, false⟩
def R.ECC_CNT_SCRUB_CE (n : Nat) : Nat := 0x104090 + 0x8000 * n
def F.ECC_CNT_SCRUB_CE_count (n : Nat) : Fld := ⟨0x104090 + 0x8000 * n, 0, 32, false⟩
def R.ECC_CNT_SCRUB_UE (n : Nat) : Nat := 0x104094 + 0x8000 * n
def F.ECC_CNT_SCRUB_UE_count (n : Nat) : Fld := ⟨0x104094 + 0x8000 * n, 0, 32, false⟩
def R.ECC_CNT_PROBE (n : Nat) : Nat := 0x104098 + 0x8000 * n
def F.ECC_CNT_PROBE_count (n : Nat) : Fld := ⟨0x104098 + 0x8000 * n, 0, 32, false⟩
def R.ECC_CNT_TRANS (n : Nat) : Nat := 0x10409c + 0x8000 * n
def F.ECC_CNT_TRANS_count (n : Nat) : Fld := ⟨0x10409c + 0x8000 * n, 0, 32, false⟩
def R.ECC_CNT_INTERM (n : Nat) : Nat := 0x1040a0 + 0x8000 * n
def F.ECC_CNT_INTERM_count (n : Nat) : Fld := ⟨0x1040a0 + 0x8000 * n, 0, 32, false⟩
def R.ECC_CNT_HARD (n : Nat) : Nat := 0x1040a4 + 0x8000 * n
def F.ECC_CNT_HARD_count (n : Nat) : Fld := ⟨0x1040a4 + 0x8000 * n, 0, 32, false⟩
def R.ECC_CNT_PROBEDROP (n : Nat) : Nat := 0x1040a8 + 0x8000 * n
def F.ECC_CNT_PROBEDROP_count (n : Nat) : Fld := ⟨0x1040a8 + 0x8000 * n, 0, 32, false⟩
def R.ECC_CNT_RECEVICT (n : Nat) : Nat := 0x1040ac + 0x8000 * n
def F.ECC_CNT_RECEVICT_count (n : Nat) : Fld := ⟨0x1040ac + 0x8000 * n, 0, 32, false⟩
def R.ECC_CNT_NEARMISS (n : Nat) : Nat := 0x1040b0 + 0x8000 * n
def F.ECC_CNT_NEARMISS_count (n : Nat) : Fld := ⟨0x1040b0 + 0x8000 * n, 0, 32, false⟩
def R.ECC_CNT_RETIRED (n : Nat) : Nat := 0x1040b4 + 0x8000 * n
def F.ECC_CNT_RETIRED_count (n : Nat) : Fld := ⟨0x1040b4 + 0x8000 * n, 0, 32, false⟩
def R.ECC_CNT_LOGLOST (n : Nat) : Nat := 0x1040b8 + 0x8000 * n
def F.ECC_CNT_LOGLOST_count (n : Nat) : Fld := ⟨0x1040b8 + 0x8000 * n, 0, 32, false⟩
def R.ECC_CNT_CLR (n : Nat) : Nat := 0x1040e0 + 0x8000 * n
def F.ECC_CNT_CLR_cnt (n : Nat) : Fld := ⟨0x1040e0 + 0x8000 * n, 0, 18, false⟩
def R.ECC_INJ_ADDR_LO : Nat := 0x104030
def F.ECC_INJ_ADDR_LO_addr : Fld := ⟨0x104030, 3, 29, false⟩
def R.ECC_INJ_ADDR_HI : Nat := 0x104034
def F.ECC_INJ_ADDR_HI_addr : Fld := ⟨0x104034, 0, 8, false⟩
def R.ECC_INJ_MASK0 : Nat := 0x104038
def F.ECC_INJ_MASK0_mask : Fld := ⟨0x104038, 0, 32, false⟩
def R.ECC_INJ_MASK1 : Nat := 0x10403c
def F.ECC_INJ_MASK1_mask : Fld := ⟨0x10403c, 0, 32, false⟩
def R.ECC_INJ_MASK2 : Nat := 0x104040
def F.ECC_INJ_MASK2_mask : Fld := ⟨0x104040, 0, 16, false⟩
def R.ECC_INJ_CTL : Nat := 0x104044
def F.ECC_INJ_CTL_done : Fld := ⟨0x104044, 1, 1, false⟩
def F.ECC_INJ_CTL_arm : Fld := ⟨0x104044, 0, 1, false⟩
def R.ECC_CNT_LCE (n : Nat) : Nat := 0x1040c0 + 0x40000 * n
def F.ECC_CNT_LCE_count (n : Nat) : Fld := ⟨0x1040c0 + 0x40000 * n, 0, 32, false⟩
def R.ECC_CNT_LUE (n : Nat) : Nat := 0x1040c4 + 0x40000 * n
def F.ECC_CNT_LUE_count (n : Nat) : Fld := ⟨0x1040c4 + 0x40000 * n, 0, 32, false⟩
def R.VRT_CTL (n : Nat) : Nat := 0x106000 + 0x8000 * n
def F.VRT_CTL_monitor_en (n : Nat) : Fld := ⟨0x106000 + 0x8000 * n, 2, 1, true⟩
def F.VRT_CTL_soft_repair_en (n : Nat) : Fld := ⟨0x106000 + 0x8000 * n, 1, 1, true⟩
def F.VRT_CTL_auto_spare (n : Nat) : Fld := ⟨0x106000 + 0x8000 * n, 0, 1, true⟩
def R.VRT_MON (n : Nat) : Nat := 0x106004 + 0x8000 * n
def F.VRT_MON_window (n : Nat) : Fld := ⟨0x106004 + 0x8000 * n, 24, 8, true⟩
def F.VRT_MON_hard_thresh (n : Nat) : Fld := ⟨0x106004 + 0x8000 * n, 8, 8, true⟩
def F.VRT_MON_line_thresh (n : Nat) : Fld := ⟨0x106004 + 0x8000 * n, 0, 8, true⟩
def R.VRT_STATUS (n : Nat) : Nat := 0x106008 + 0x8000 * n
def F.VRT_STATUS_repair_pending (n : Nat) : Fld := ⟨0x106008 + 0x8000 * n, 20, 1, false⟩
def F.VRT_STATUS_spare_bad (n : Nat) : Fld := ⟨0x106008 + 0x8000 * n, 12, 8, false⟩
def F.VRT_STATUS_spare_used (n : Nat) : Fld := ⟨0x106008 + 0x8000 * n, 4, 8, false⟩
def F.VRT_STATUS_vstate (n : Nat) : Fld := ⟨0x106008 + 0x8000 * n, 0, 3, false⟩
def R.VRT_SPARE_MAP (n i : Nat) : Nat := 0x106010 + 0x8000 * n + 0x4 * i
def F.VRT_SPARE_MAP_src (n i : Nat) : Fld := ⟨0x106010 + 0x8000 * n + 0x4 * i, 8, 2, false⟩
def F.VRT_SPARE_MAP_line (n i : Nat) : Fld := ⟨0x106010 + 0x8000 * n + 0x4 * i, 0, 8, false⟩
def R.VRT_REPAIR_REQ (n : Nat) : Nat := 0x106040 + 0x8000 * n
def F.VRT_REPAIR_REQ_go (n : Nat) : Fld := ⟨0x106040 + 0x8000 * n, 8, 1, false⟩
def F.VRT_REPAIR_REQ_line (n : Nat) : Fld := ⟨0x106040 + 0x8000 * n, 0, 8, true⟩
def R.VRT_LINE_SEL (n : Nat) : Nat := 0x106044 + 0x8000 * n
def F.VRT_LINE_SEL_line (n : Nat) : Fld := ⟨0x106044 + 0x8000 * n, 0, 8, true⟩
def R.VRT_LINE_ERR (n : Nat) : Nat := 0x106048 + 0x8000 * n
def F.VRT_LINE_ERR_count (n : Nat) : Fld := ⟨0x106048 + 0x8000 * n, 0, 32, false⟩
def R.VRT_DEAD (n : Nat) : Nat := 0x10604c + 0x8000 * n
def F.VRT_DEAD_valid (n : Nat) : Fld := ⟨0x10604c + 0x8000 * n, 8, 1, false⟩
def F.VRT_DEAD_line (n : Nat) : Fld := ⟨0x10604c + 0x8000 * n, 0, 8, false⟩
def R.VRT_CNT_ATTR (n : Nat) : Nat := 0x106080 + 0x8000 * n
def F.VRT_CNT_ATTR_count (n : Nat) : Fld := ⟨0x106080 + 0x8000 * n, 0, 32, false⟩
def R.VRT_CNT_MONMIS (n : Nat) : Nat := 0x106084 + 0x8000 * n
def F.VRT_CNT_MONMIS_count (n : Nat) : Fld := ⟨0x106084 + 0x8000 * n, 0, 32, false⟩
def R.VRT_CNT_SOFTREP (n : Nat) : Nat := 0x106088 + 0x8000 * n
def F.VRT_CNT_SOFTREP_count (n : Nat) : Fld := ⟨0x106088 + 0x8000 * n, 0, 32, false⟩
def R.VRT_CNT_SPAREBAD (n : Nat) : Nat := 0x10608c + 0x8000 * n
def F.VRT_CNT_SPAREBAD_count (n : Nat) : Fld := ⟨0x10608c + 0x8000 * n, 0, 32, false⟩
def R.VRT_CNT_ERASE (n : Nat) : Nat := 0x106090 + 0x8000 * n
def F.VRT_CNT_ERASE_count (n : Nat) : Fld := ⟨0x106090 + 0x8000 * n, 0, 32, false⟩
def R.VRT_CNT_MOVE (n : Nat) : Nat := 0x106094 + 0x8000 * n
def F.VRT_CNT_MOVE_count (n : Nat) : Fld := ⟨0x106094 + 0x8000 * n, 0, 32, false⟩
def R.VRT_CNT_NEARMISS (n : Nat) : Nat := 0x106098 + 0x8000 * n
def F.VRT_CNT_NEARMISS_count (n : Nat) : Fld := ⟨0x106098 + 0x8000 * n, 0, 32, false⟩
def R.VRT_CNT_CLR (n : Nat) : Nat := 0x1060c0 + 0x8000 * n
def F.VRT_CNT_CLR_cnt (n : Nat) : Fld := ⟨0x1060c0 + 0x8000 * n, 0, 7, false⟩
def R.VRT_TRIM (n i : Nat) : Nat := 0x106400 + 0x8000 * n + 0x4 * i
def F.VRT_TRIM_term (n i : Nat) : Fld := ⟨0x106400 + 0x8000 * n + 0x4 * i, 12, 6, false⟩
def F.VRT_TRIM_offset (n i : Nat) : Fld := ⟨0x106400 + 0x8000 * n + 0x4 * i, 6, 6, false⟩
def F.VRT_TRIM_delay (n i : Nat) : Fld := ⟨0x106400 + 0x8000 * n + 0x4 * i, 0, 6, false⟩
def R.VRT_SPARE_CARRY : Nat := 0x206060
def F.VRT_SPARE_CARRY_busy : Fld := ⟨0x206060, 7, 1, false⟩
def F.VRT_SPARE_CARRY_reason : Fld := ⟨0x206060, 5, 2, false⟩
def F.VRT_SPARE_CARRY_channel : Fld := ⟨0x206060, 0, 5, false⟩
def R.VRT_SPARE_DIES : Nat := 0x206064
def F.VRT_SPARE_DIES_trained : Fld := ⟨0x206064, 0, 16, false⟩
def R.SNAP_HOLD (i : Nat) : Nat := 0x300000 + 0x4 * i
def F.SNAP_HOLD_count (i : Nat) : Fld := ⟨0x300000 + 0x4 * i, 0, 32, false⟩
def R.VRT_DTRIM (n i j : Nat) : Nat := 0x380000 + 0x4000 * n + 0x400 * i + 0x4 * j
def F.VRT_DTRIM_term (n i j : Nat) : Fld := ⟨0x380000 + 0x4000 * n + 0x400 * i + 0x4 * j, 12, 6, false⟩
def F.VRT_DTRIM_offset (n i j : Nat) : Fld := ⟨0x380000 + 0x4000 * n + 0x400 * i + 0x4 * j, 6, 6, false⟩
def F.VRT_DTRIM_delay (n i j : Nat) : Fld := ⟨0x380000 + 0x4000 * n + 0x400 * i + 0x4 * j, 0, 6, false⟩
def R.VRT_DIE_CTL (n : Nat) : Nat := 0x380c00 + 0x4000 * n
def F.VRT_DIE_CTL_spare_sel (n : Nat) : Fld := ⟨0x380c00 + 0x4000 * n, 0, 2, false⟩
def R.CFG_LEG_ID : Nat := 0x3f0000
def F.CFG_LEG_ID_id : Fld := ⟨0x3f0000, 0, 32, false⟩
def R.CFG_LEG_STATUS : Nat := 0x3f0004
def F.CFG_LEG_STATUS_fault : Fld := ⟨0x3f0004, 2, 1, false⟩
def F.CFG_LEG_STATUS_therm : Fld := ⟨0x3f0004, 1, 1, false⟩
def F.CFG_LEG_STATUS_committed : Fld := ⟨0x3f0004, 0, 1, false⟩
def R.CFG_LEG_TEMP : Nat := 0x3f0010
def F.CFG_LEG_TEMP_temp : Fld := ⟨0x3f0010, 0, 16, false⟩
def R.CFG_LEG_ECC_CNT : Nat := 0x3f0020
def F.CFG_LEG_ECC_CNT_count : Fld := ⟨0x3f0020, 0, 32, false⟩

end Sys2Proof.Machine
end

