-- ==== Sys2Proof/Machine/Sources.lean ====
section
/-! DEFINITION. The 722 error sources of the fault collector, their numbers and default severities (R421, R422). -/

namespace Sys2Proof.Machine

/-- A group of R422: its base, its instances, the default severities of its kinds in order, and those of the single
sources that follow them. -/
structure SrcGroup where
  bit : Nat
  base : Nat
  inst : Nat
  kinds : List Nat
  singles : List Nat
deriving DecidableEq, Repr

/-- The sources of a group. -/
def SrcGroup.size (g : SrcGroup) : Nat := g.inst * g.kinds.length + g.singles.length

/-- The four groups of one kind of R422, one for each quadrant. -/
def srcQuad (bit base step inst : Nat) (kinds singles : List Nat) : List SrcGroup :=
  (List.range 4).map fun q => ⟨bit + q, base + step * q, inst, kinds, singles⟩

/-- R422, in order of the summary bits. -/
def srcGroups : List SrcGroup :=
  srcQuad 0 0 28 4 [2, 1, 1, 2, 2, 3, 1] [] ++
  srcQuad 4 112 8 1 [1, 1, 2, 1, 2, 2, 2, 1] [] ++
  srcQuad 8 144 40 8 [1, 1, 2, 3, 2] [] ++
  srcQuad 12 304 8 1 [2, 2, 1, 2, 2, 1, 1, 1] [] ++
  srcQuad 16 336 42 8 [1, 1, 2, 2, 3] [2, 3] ++
  srcQuad 20 504 10 1 [1, 2, 1, 1, 2, 1, 1, 1, 2, 1] [] ++
  srcQuad 24 544 3 1 [2, 1, 1] [] ++
  srcQuad 28 556 10 1 [4, 3, 3, 2, 1, 2, 2, 2, 1, 1] [] ++
  [⟨32, 596, 1, [2, 1, 1, 2, 2, 1], []⟩,
   ⟨33, 602, 1, [2, 2, 1, 2, 3, 2, 2, 2, 2, 2, 1, 2, 1, 1, 5], []⟩,
   ⟨34, 617, 37, [3], [1, 5]⟩,
   ⟨35, 656, 6, [1, 1, 2, 1, 1, 2], []⟩,
   ⟨36, 692, 1, [1, 1, 2, 3, 2, 2], []⟩,
   ⟨37, 698, 8, [3], [1, 1, 3]⟩,
   ⟨38, 709, 1, [2, 2, 2, 2, 5], []⟩,
   ⟨39, 714, 4, [2], []⟩,
   ⟨40, 718, 1, [2, 2, 3], []⟩,
   ⟨41, 721, 1, [3], []⟩]

/-- The group that holds a source. -/
def srcGroup (src : Nat) : Option SrcGroup :=
  srcGroups.find? fun g => decide (g.base ≤ src) && decide (src < g.base + g.size)

/-- The default severity of a source (R422); 0 for a number that is no source. -/
def defaultSeverity (src : Nat) : Nat :=
  match srcGroup src with
  | none => 0
  | some g =>
    let o := src - g.base
    if o < g.inst * g.kinds.length then g.kinds.getD (o / g.inst) 0 else g.singles.getD (o - g.inst * g.kinds.length) 0

/-- The summary bit of a source (R423). -/
def summaryBit (src : Nat) : Nat := match srcGroup src with | none => 63 | some g => g.bit

namespace Src

def link (kind l : Nat) : Nat := 28 * (l / 4) + 4 * kind + l % 4
def trainFail (l : Nat) : Nat := link 0 l
def retrain (l : Nat) : Nat := link 1 l
def laneRepair (l : Nat) : Nat := link 2 l
def sparesExhausted (l : Nat) : Nat := link 3 l
def singleDecide (l : Nat) : Nat := link 4 l
def decideLost (l : Nat) : Nat := link 5 l
def proto (l : Nat) : Nat := link 6 l
/-- PORT group of quadrant `q`: 0 badop, 1 dup_tag, 2 timeout, 3 stray_wdata, 4 shortfall, 5 rt_cut, 6 pool_cut, 7 pool_over. -/
def port (kind q : Nat) : Nat := 112 + 8 * q + kind
/-- SCHED: 0 hammer_trig, 1 penalty, 2 late_resp, 3 riser_train_fail, 4 refresh_behind. -/
def sched (kind t : Nat) : Nat := 144 + 40 * (t / 8) + 8 * kind + t % 8
/-- ENGINE: 0 spill_warn, 1 spill_lost, 2 ctr_refused_ue, 3 cache_wb_ue, 4 walk_timeout, 5 bad_node, 6 lk_poison, 7 hins_full. -/
def engine (kind q : Nat) : Nat := 304 + 8 * q + kind
/-- VERT of a riser 0-31: 0 soft_repair, 1 spare_bad, 2 line_erased, 3 move_spare, 4 degraded. -/
def vert (kind c : Nat) : Nat := 336 + 42 * (c / 8) + 8 * kind + c % 8
def tuneFail (q : Nat) : Nat := 336 + 42 * q + 40
def pllLock (q : Nat) : Nat := 336 + 42 * q + 41
/-- INTEGRITY: 0 corrected, 1 uncorrectable, 2 poison_delivered, 3 intermittent, 4 hard, 5 probe_drop, 6 rec_evict, 7 log_lost, 8 remap_fail, 9 retired_unit. -/
def integrity (kind q : Nat) : Nat := 504 + 10 * q + kind
/-- LARDER: 0 late_resp, 1 spare_perm, 2 shadow_full. -/
def larder (kind q : Nat) : Nat := 544 + 3 * q + kind
/-- SELFTEST: 0 engine_fail, 1 parlour_fail, 2 boot_unit_fail, 3 riser_fail, 4 row_fail, 5 row_held, 6 lbank, 7 sig_unjudged, 8 yield, 9 abandoned. -/
def selftest (kind q : Nat) : Nat := 556 + 10 * q + kind
/-- CELLAR: 0 low, 1 enq_full, 2 alloc_wait, 3 broken, 4 block_dropped, 5 deq_poison. -/
def cellar (kind : Nat) : Nat := 596 + kind
/-- THERMAL: 0 warn, 1 throttle, 2 suspect, 3 broken, 4 blind, 5 wv_override, 6 wv_unreliable, 7 wv_stale, 8 volt, 9 conv_fail,
10 comp_clip, 11 cal_fail, 12 cal_abandon, 13 cal_reduced, 14 shutdown. -/
def thermal (kind : Nat) : Nat := 602 + kind
def mismatch (d : Nat) : Nat := 617 + d
def voteFixed : Nat := 654
def voteLost : Nat := 655
/-- LETTERBOX: 0 deadline, 1 rejected, 2 restart, 3 aborted, 4 noaccess, 5 rights. -/
def letterbox (kind n : Nat) : Nat := 656 + 6 * kind + n
/-- VERT_COMMON: 0-4 the spare riser's soft_repair, spare_bad, line_erased, third_dead, train_fail; 5 fallback. -/
def vertCommon (kind : Nat) : Nat := 692 + kind
def unverified (region : Nat) : Nat := 698 + region
def burnRetry : Nat := 706
def spareWord : Nat := 707
def limited : Nat := 708
/-- TRUST: 0 image_reject, 1 rollback, 2 unlock_fail, 3 revoked_key, 4 strongroom_watchdog. -/
def trust (kind : Nat) : Nat := 709 + kind
def parlour (core : Nat) : Nat := 714 + core
/-- POWER: 0 mode_fail, 1 retention_exit, 2 domain_fault. -/
def power (kind : Nat) : Nat := 718 + kind
def latchCheck : Nat := 721

end Src

end Sys2Proof.Machine
end

