-- ==== Sys2Proof/Machine/Regs.lean ====
section
/-! DEFINITION. Finding a register in the map, its reset value and the masks of its access codes (R11, R107, R109). -/

namespace Sys2Proof.Machine

/-- A register found in the map: its block's instance, its index in its array, its row, and whether its block is staged. -/
structure RegHit where
  addr : Nat
  inst : Nat
  idx : Nat
  idx2 : Nat
  row : RegRow
  staged : Bool
deriving DecidableEq, Repr

/-- The indices at which offset `o` lies in a row with the given dimensions, when it does. -/
def dimIndex : List (Nat × Nat) → Nat → Option (Nat × Nat)
  | [], o => if o = 0 then some (0, 0) else none
  | [(st, n)], o => if o % st = 0 ∧ o / st < n then some (o / st, 0) else none
  | (st, n) :: (st2, n2) :: _, o =>
    if o / st < n ∧ o % st % st2 = 0 ∧ o % st / st2 < n2 then some (o / st, o % st / st2) else none

/-- The row of a block that holds local offset `o`. -/
def findRow : List RegRow → Nat → Option (RegRow × Nat × Nat)
  | [], _ => none
  | r :: rs, o =>
    match (if r.off ≤ o then dimIndex r.dims (o - r.off) else none) with
    | some (i, j) => some (r, i, j)
    | none => findRow rs o

/-- The register at a normal-view address, in the first block that has one there. -/
def findReg : List RegBlock → Nat → Option RegHit
  | [], _ => none
  | b :: bs, a =>
    if b.base ≤ a then
      let k := (a - b.base) / b.stride
      let o := if b.n = 1 then a - b.base else (a - b.base) % b.stride
      if (b.n = 1 ∨ k < b.n) ∧ o < b.size then
        match findRow b.rows o with
        | some (r, i, j) => some ⟨a, if b.n = 1 then 0 else k, i + r.first, j, r, b.staged⟩
        | none => findReg bs a
      else findReg bs a
    else findReg bs a

/-- The register at a normal-view address (R107); none is NOREG. -/
def lookupReg (a : Nat) : Option RegHit := findReg regBlocks a

/-- The bits of a field, in place. -/
def RegField.mask (f : RegField) : Nat := (2 ^ (f.hi - f.lo + 1) - 1) <<< f.lo

/-- The bits of a row that have the access code `a`. -/
def RegRow.maskOf (r : RegRow) (a : Acc) : Word :=
  BitVec.ofNat 32 ((r.fields.filter fun f => decide (f.acc = a)).foldl (fun m f => m ||| f.mask) 0)

/-- The bits of a row that belong to no field: KEEP. -/
def RegRow.keepMask (r : RegRow) : Word := ~~~(BitVec.ofNat 32 (r.fields.foldl (fun m f => m ||| f.mask) 0))

/-- The configuration mask of R109 and R110: the RW bits of a register of a staged block. -/
def RegHit.cfgMask (h : RegHit) : Word := if h.staged then h.row.maskOf .rw else 0

/-- FLT_SEV_n after reset: the default severities of sources 8n to 8n + 7 (R422). -/
def fltSevReset (n : Nat) : Nat :=
  (List.range 8).foldl (fun w k => w ||| (defaultSeverity (8 * n + k) <<< (4 * k))) 0

/-- A register's reset value. -/
def RegHit.reset (h : RegHit) : Word :=
  match h.row.act with
  | .fltSev => BitVec.ofNat 32 (fltSevReset h.idx)
  | .larScrMap => BitVec.ofNat 32 (9 + (36 <<< 4) + ((9 * h.inst) <<< 16))
  | .engHtSeed1 => BitVec.ofNat 32 (0x1EED0000 + 2 * h.idx)
  | .engHtSeed2 => BitVec.ofNat 32 (0x1EED0001 + 2 * h.idx)
  | _ => BitVec.ofNat 32 (h.row.fields.foldl (fun w f => w ||| ((f.reset % 2 ^ (f.hi - f.lo + 1)) <<< f.lo)) 0)

/-- The reset value of the register at an address; 0 where there is none. -/
def regReset (a : Nat) : Word := match lookupReg a with | none => 0 | some h => h.reset

/-- The offsets of the members of an array of registers. -/
def dimOffsets : List (Nat × Nat) → List Nat
  | [] => [0]
  | (st, n) :: ds => (List.range n).flatMap fun i => (dimOffsets ds).map fun o => st * i + o

/-- The normal-view addresses of every register of a row, over all instances of its block, with the instance. -/
def RegBlock.addrs (b : RegBlock) (p : RegRow → Bool) : List (Nat × Nat) :=
  (List.range b.n).flatMap fun k =>
    (b.rows.filter p).flatMap fun r => (dimOffsets r.dims).map fun o => (b.base + b.stride * k + r.off + o, k)

/-- Addresses in ascending order. -/
def sortAddrs (l : List Nat) : List Nat := l.mergeSort (fun a b => decide (a ≤ b))

end Sys2Proof.Machine
end

