-- ==== Sys2Proof/Config.lean ====
section
/-! DEFINITION. What one DV9616 fixes for life and the spec does not give a number for, and the free values. Every
constant here is opaque: no proof can see its value, so a claim holds whatever it is. -/

namespace Sys2Proof.Config

/-- The two grades of R1; they differ only in the rate of the time base, and no rule counts differently for them. -/
inductive Grade where
  | dv9616_16
  | dv9616_14
deriving DecidableEq, Repr, Inhabited

/-- The grade of this part (R1). -/
opaque grade : Grade

/-- The silicon step that INFO.ID returns (R125). -/
opaque siliconStep : BitVec 8

/-- A fresh unconstrained value; the step applies it to the counter `State.free` and advances the counter (log 12). -/
opaque freeValue : Nat → BitVec 512

/-- What a Larder word holds after its granule has been powered down (R291), as the change to the codeword that was stored:
applied to the number of the power-down, counted with the free values, and the word index. -/
opaque powerMask : Nat → Nat → BitVec 80

/-- What a DRAM word holds after its channel has lost its contents, as the change to the codeword that was stored: applied to
the number of the loss, counted with the free values, and the word index. -/
opaque lostMask : Nat → Nat → BitVec 80

/-- Where in the Larder the counter cache of a tile holds a burst, and a head-cache entry of a quadrant its cells, as a bank and
line in one number: the spec gives neither place. Applied to the tile and the burst, and to the quadrant and the entry. -/
opaque cachePlace : Nat → Nat → Nat
opaque headPlace : Nat → Nat → Nat

/-- The version field of the package IDCODE (R414), and of a tier's IDCODE (R355). -/
opaque version : BitVec 4
opaque dieVersion : Nat → BitVec 4

/-- The severity that byte 3 of an event flit carries (R60), by event code, for the events whose severity the spec does
not state: all but EVENT_LOST, FAULT and FAULT_CLEAR. -/
opaque eventSeverity : Nat → Fin 6

/-- R370, R449: a diode site's model offset in 1/16 °C: that of the TRIM region, whose layout the spec does not give, and (with
false) the nominal one of ROM, in force without a good TRIM region. -/
opaque siteOffset : Bool → Nat → Int

/-- R370, R381: the nearest Larder diode to a Plinth diode, and the nearest Plinth diode to a Larder diode, counted within their
tier, and (of 104) to the always-on oscillator; the spec names no sites. -/
opaque nearLarder : Nat → Fin 16
opaque nearPlinth : Nat → Fin 24

/-- R364: the bank of a weathervane group and its eight rows among 49,168 to 49,183, recorded in the TRIM region, whose layout
the spec does not give. -/
opaque wvBank : Fin 32 → Fin 32
opaque wvRow : Fin 32 → Fin 8 → Fin 16

/-- R368: by how much, in 0.01 %, the eight reference samples of a converter (false A, true B) depart from the bandgap
readings among them; the spec does not say which of its channels measures which. -/
opaque refDeparture : Bool → List Nat → Nat

/-- R368, R449: the offset samples of a converter lie in their range, of TRIM or (with false) of ROM, which the spec does not
give. -/
opaque offsetsInRange : Bool → Bool → List Nat → Bool

/-- R369: the nominal voltage in mV of monitors 38 and 39, which the spec does not give. -/
opaque monitorNominal : Nat → Nat

/-- R396: the golden signature of a slice in the words of the SIGNATURES region, whose layout the spec does not give: applied to
the region's 278 words and the slice's core select value (R415; 185 + q for quadrant q, 189 for the Strongroom). -/
opaque golden : List Word → Nat → BitVec 64

/-- R505: the first domain of a rail, in the order of R504; the spec names no rail's domains. -/
opaque railDomain : Nat → Fin 96

/-- R463: the digest of the vendor root key, held in ROM. -/
opaque vendorKey : List Byte

end Sys2Proof.Config
end

