-- ==== Sys2Proof/Machine/State.lean ====
section
/-! DEFINITION. The state of the DV9616 as plain data: everything the spec gives the block, unit by unit, and the queue
of the commands that wait. Registers are in three maps (`staged`, `active`, `live`) whose unlisted entries read as the
reset value of the register table; every other table's unlisted entries read as the unit's record after reset. -/

namespace Sys2Proof.Machine

/-- A register map: normal-view address to value. -/
abbrev RegMap := Tab Word

/-! ### Host links (01_host_links.md) -/

/-- A flit in the replay buffer (R36), and the link's flit clock when it was last sent (R40). -/
structure HeldFlit where
  seq : Nat
  typ : Nat
  data : Payload
  since : Nat := 0
deriving DecidableEq, Repr

/-- A sequenced flit that waits to be sent, with the (port, tag) of the response it belongs to, if any (R72). -/
structure OutFlit where
  typ : Nat
  data : Payload
  resp : Option (Nat × Nat) := none
deriving DecidableEq, Repr

/-- A PARK exchange: target state code 4 or 5, epoch of entry, and whether it has been acknowledged (R47). -/
structure ParkX where
  target : Nat
  epoch : Nat
  acked : Bool
  /-- R500, R501: the device parks at that boundary whatever the host answers. -/
  forced : Bool
deriving DecidableEq, Repr

/-- A lane repair exchange (R57): direction (`outbound` is device to host), spare 0 A or 1 B, lane, epoch of the switch,
whether it is acknowledged, and whether this device sent the REPAIR. -/
structure RepairX where
  outbound : Bool
  spare : Nat
  lane : Nat
  epoch : Nat
  acked : Bool
  mine : Bool
deriving DecidableEq, Repr

/-- The state of one link beside its registers. -/
structure LinkSt where
  /-- R37: the sequence number expected next. -/
  rxE : Nat := 0
  /-- R19: a sequenced flit of the other end has been received. -/
  rxAny : Bool := false
  /-- R38: sequenced flits are discarded until one numbered `rxE` passes its CRC. -/
  rxDiscard : Bool := false
  /-- R38: a RETRY goes out in the next outbound flit. -/
  retryOwed : Bool := false
  /-- A RETRY received and not yet acted on, with its ack field. -/
  retryRx : Option Nat := none
  /-- R19: the next sequence number sent. -/
  txSeq : Nat := 0
  /-- R36: flits sent and not acknowledged, oldest first. -/
  held : List HeldFlit := []
  /-- Flits waiting to be sent, oldest first. -/
  out : List OutFlit := []
  /-- R39: the ack value of the replay in progress, and the held flits that it has still to send again. -/
  replayAck : Option Nat := none
  replayQ : List HeldFlit := []
  /-- R42: a replay that a retrain has cut off waits for OPEN. -/
  replayHeld : Bool := false
  /-- R40: flits of the link's time outside DOWN, DOZE and SLEEP, where replay timers stand still (R49). -/
  clock : Nat := 0
  /-- The flits on the outbound lanes in this flit time, (side field, payload): the one sent at its start first (log 3). -/
  wire : List (BitVec 48 × Payload) := []
  /-- R42: the first number of the last replay, and how many consecutive replays began with it. -/
  replayRun : Nat × Nat := (0, 0)
  /-- Accepted inbound sequenced flits not yet acted on, (type, payload), oldest first. -/
  inbox : List (Nat × Payload) := []
  /-- Headers of this frame not yet decided, (position, header bytes as a number), in position order. -/
  hdrs : List (Nat × Nat) := []
  /-- R25: the decision vector of this frame so far. -/
  vec : BitVec 16 := 0
  /-- R89: ports with a FENCE deferred in this frame. -/
  fenced : List Nat := []
  /-- R26: the vector whose complement is driven next. -/
  complement : Option (BitVec 16) := none
  /-- R30: the running history, newest first: (12-bit frame count, V). -/
  hist : List (Nat × BitVec 16) := []
  /-- R30: the frozen history. -/
  frozen : Option (List (Nat × BitVec 16)) := none
  /-- R30: frames of OPEN since the entry that follows the freeze. -/
  frozenFrames : Nat := 0
  /-- R33: credits granted at the last entry to OPEN. -/
  granted : Nat := 0
  /-- R33: credits owed to the host. -/
  credOwed : Nat := 0
  /-- R47: a PARK this end sent. -/
  parkOut : Option ParkX := none
  /-- R47: a host PARK this end acknowledged. -/
  parkIn : Option ParkX := none
  /-- R32: decision lanes that training found usable. -/
  d0 : Bool := true
  d1 : Bool := true
  /-- R53: the training in progress is a short retrain. -/
  short : Bool := false
  /-- R51: the back-off after a failure is running. -/
  backoff : Bool := false
  /-- R19: this training began in DOWN, so the sequence numbers start at 0 at its end. -/
  fresh : Bool := true
  /-- R57: the repair exchanges in progress, oldest first. -/
  repairs : List RepairX := []
  /-- R62: eye_min as it stood when this training began. -/
  eyeMin : Nat := 0
  /-- R49: the link has woken from SLEEP and has not been OPEN since. -/
  woken : Bool := false
  /-- R56: the mismatch count of each inbound lane. -/
  laneErr : Tab Nat := []
  /-- R57: the mismatches of each inbound lane in the window that is running. -/
  laneWin : Tab Nat := []
  /-- R57: monitored inbound epochs in the window that is running. -/
  monEpochs : Nat := 0
  /-- R57: the inbound lane that asked for a repair, waiting to be requested. -/
  laneReq : List Nat := []
  /-- R58: (lane, epoch) of recent CRC failures put down to a lane. -/
  laneCrc : List (Nat × Nat) := []
  /-- R47: epoch boundaries since the link last carried REQ, WDATA or MGMT; 1 on entering OPEN. -/
  idle : Nat := 0
  /-- T1's finding: lanes below eye_min, inbound and outbound. -/
  weakIn : List Nat := []
  weakOut : List Nat := []
  /-- R453: lanes of the Cornerstone beyond the spares have been counted. -/
  fuseCounted : Bool := false
  /-- R25, R26: the levels last driven on the decision lanes: D0 in bits 7:0 and D1 in bits 15:8, UI 0 first. -/
  lanes : BitVec 16 := 0
  /-- R48: a wake of the DOZE link has begun; the link is OPEN again at the next boundary. -/
  waking : Bool := false
deriving DecidableEq, Repr

/-- The record kept for events beyond the 64 of the queue (R61); `ahead` is how many queued events go before it. -/
structure EvLost where
  count : Nat
  first : Nat
  last : Nat
  lastEpoch : Nat
  severity : Nat
  epoch : Nat
  ahead : Nat
deriving DecidableEq, Repr

/-! ### Requests (02_request_catalogue.md, 05_ports_guarantees_admission.md) -/

/-- One charge of R174: a slot of a port at a tile for an execution epoch (`kind` 0 against the guarantee, 1 against
carry, 2 against a shared grant), one of a quota, or one activation. The old row memo is kept so that a charge of an interrupted frame can be taken back (R46). -/
inductive Charge where
  | slot (x tile port kind : Nat)
  | quota (pool port : Nat)
  | act (port bank : Nat) (oldRow : Nat)
deriving DecidableEq, Repr

/-- The answer of a request (R78, R80, R81). -/
structure Answer where
  status : Nat
  info : Nat := 0
  aux : Nat := 0
  result : DWord := 0
  rdata : List Payload := []
deriving DecidableEq, Repr

/-- A prefix walk whose DRAM node fetch is on its way (R247-R250): the level fetched, the address of its entry, the epoch
of the fetch, the key, the best result so far (plen, nh), and whether a word has been corrected. -/
structure Walk where
  level : Nat
  entry : Nat
  issued : Nat
  key : Nat
  best : Option (Nat × Nat)
  corr : Bool
  /-- The tile whose engine issued the fetch. -/
  tile : Nat
deriving DecidableEq, Repr

/-- An accepted request (R64, R72) with the configuration and mode of its acceptance epoch (R9). -/
structure Req where
  port : Nat
  tag : Nat
  op : Nat
  len : Nat
  flags : Nat
  addr : Nat
  operand : DWord
  link : Nat
  pos : Nat
  /-- Acceptance frame, counted from the end of cold reset. -/
  frame : Nat
  cfg : RegMap
  mode : Nat
  charges : List Charge
  /-- WDATA flits the request still waits for and those received, in order (R68). -/
  need : Nat
  data : List Payload
  /-- Frame in which the last data flit came; the acceptance frame when the request carries none. -/
  ready : Nat
  /-- R46: the decision has not been driven yet. -/
  tentative : Bool
  /-- R75, R514: the response is discarded. -/
  discard : Bool
  /-- R44, R75: its link has entered DOWN since it was accepted. -/
  beforeDown : Bool
  /-- R24: its data is late and has been counted. -/
  late : Bool
  /-- R97, a TQUERY alone: bit 0 the queried tag was busy at acceptance, bit 1 its response was queued by then. -/
  note : Nat
  walk : Option Walk
  /-- R266: an ENQ that waits for the refill of its home cache. -/
  waiting : Bool
  answer : Option Answer
  /-- Its response has been handed to its link and has not been transmitted yet (R72). -/
  queued : Bool
  /-- R139, R162, R184: frames by which its slots have put its response off, and the lowest tile that did. -/
  excess : Nat
  lateTile : Option Nat
  /-- R162: it has waited for the late data of an earlier write, and has no fixed latency any more. -/
  unfixed : Bool
  /-- R149: a burst of it has executed otherwise than by express placement. -/
  plain : Bool
  /-- R242, a HINS or HDEL alone: a WR of its table has been outstanding with it, and the buckets it has touched. -/
  clash : Bool
  buckets : List Nat
  /-- R295: the quadrant of the Larder bank it has last waited for. -/
  larQuad : Option Nat
deriving DecidableEq, Repr

/-- Budget figures of a port at a tile for one execution epoch (R177). -/
structure Budget where
  g : Nat := 0
  k : Nat := 0
  s : Nat := 0
deriving DecidableEq, Repr

/-- A penalty on a port's activation budget for a bank (R157, R158, R187). -/
structure Penalty where
  tile : Nat
  port : Nat
  bank : Nat
  level : Nat
  start : Nat
  /-- The epoch in which the period runs out. -/
  ends : Nat
  until_ : Option Nat
deriving DecidableEq, Repr

/-- The gates' counts (R173). -/
structure GateSt where
  /-- Budget figures by (execution epoch, tile, port). -/
  budget : Tab Budget := []
  /-- Slots charged by (execution epoch, tile, port). -/
  used : Tab Nat := []
  /-- Quota used this acceptance epoch by (port, quota field). -/
  quota : Tab Nat := []
  /-- Activations used this period by (port, bank of the stack). -/
  acts : Tab Nat := []
  /-- Row memo: last charged row + 1 by (port, bank of the stack). -/
  memo : Tab Nat := []
  /-- R181: demand so far in this acceptance epoch by (tile, port). -/
  demand : Tab Nat := []
  /-- R181: the last report. -/
  report : Tab Nat := []
  penalties : List Penalty := []
  /-- R190: the scale of the quotas in 256ths. -/
  quotaScale : Nat := 256
  /-- R185: quotas raised by a commit, by (port, quota field): the old figure, in force until `quotaFrom`. -/
  quotaOld : Tab Nat := []
  quotaFrom : Nat := 0
deriving DecidableEq, Repr

/-! ### Tile schedulers (04_epochs_and_dram_scheduling.md) -/

/-- One admitted burst of an execution epoch (R145): its port, its request's acceptance frame and tag, bank index, row
and column. -/
structure Burst where
  port : Nat
  frame : Nat
  tag : Nat
  bank : Nat
  row : Nat
  col : Nat
  /-- It draws on a pool (R184). -/
  pool : Bool
  /-- It writes the array. -/
  wr : Bool
  /-- The frame of its planned slot, once that slot is known. -/
  due : Nat := 0
deriving DecidableEq, Repr

/-- A burst that waits for an open slot (R149, R184) from an epoch on: rank 0 overflows its pool, rank 1 is engine work
without a fixed latency. -/
structure OpenWork where
  rank : Nat
  start : Nat
  burst : Burst
deriving DecidableEq, Repr

/-- The slots of the running epoch that have not passed: all of them, and those kept for refresh, maintenance,
mitigation, the turnaround margin and throttling. -/
structure SlotsLeft where
  total : Nat := 0
  refresh : Nat := 0
  maint : Nat := 0
  mitig : Nat := 0
  margin : Nat := 0
  idle : Nat := 0
deriving DecidableEq, Repr

/-- A row that has reached the row-hammer threshold (R155): its bank, its physical row, its count and each port's part. -/
structure Reached where
  bank : Nat
  row : Nat
  count : Nat
  ports : List (Nat × Nat)
deriving DecidableEq, Repr

/-- The shortfall state of a tile (R190, R191), and what its event carries beside it. -/
structure Short where
  b : Nat := 256
  rtCut : Bool := false
  firstCut : Nat := 0xFF
  poolCut : Bool := false
  cap : Nat := 0
  pools : Nat := 0
  rtNeed : Nat := 0
  beNeed : Nat := 0
  /-- The first execution epoch affected. -/
  epoch : Nat := 0
deriving DecidableEq, Repr

/-- The figures of one execution epoch's plan (R146, R376): slots in the epoch, refresh, maintenance and margin slots,
slots left idle by throttling, and the refresh state of the die they were fixed under. -/
structure Figs where
  slots : Nat := 64
  refresh : Nat := 4
  maint : Nat := 2
  margin : Nat := 0
  idle : Nat := 0
  hot : Bool := false
  relaxed : Bool := false
  det : Bool := false
deriving DecidableEq, Repr

/-- The state of one tile's scheduler beside its registers. -/
structure TileSt where
  /-- R146, R148: the figures of the execution epochs that are fixed. -/
  figs : Tab Figs := []
  /-- R145, R170: what the slots of this epoch carry: refresh, maintenance, mitigation, admitted, open. -/
  refresh : Nat := 0
  maint : Nat := 0
  mitig : Nat := 0
  planned : Nat := 0
  opened : Nat := 0
  /-- Admitted bursts by execution epoch. -/
  bursts : Tab (List Burst) := []
  /-- R139: bursts whose row cannot be opened yet, oldest first. -/
  held : List Burst := []
  /-- R145: the planned bursts of this epoch whose slots have not come, in slot order, and the slots left. -/
  plan : List Burst := []
  left : SlotsLeft := {}
  /-- Maintenance slots that work begun still takes. -/
  maintDue : Nat := 0
  /-- R162: bursts of late writes, which have lost their planned slots. -/
  late : List Burst := []
  /-- R149, R184: what waits for open slots, in arrival order. -/
  work : List OpenWork := []
  /-- R138: what the riser carried in the last slot: 0 nothing, 1 a read, 2 a write. -/
  dir : Nat := 0
  /-- R138: row openings of this epoch, in the channel and by bank group. -/
  acts : Nat := 0
  groupActs : Tab Nat := []
  /-- Open slots of this epoch that have passed unused. -/
  unused : Nat := 0
  /-- R387: the open slots that the running calibration chunk still takes. -/
  calOpen : Nat := 0
  /-- R155: rows that have reached the threshold and wait for their trigger. -/
  reached : List Reached := []
  /-- Open row + 1 of each bank, and the flit at which it was opened. -/
  openRow : Tab Nat := []
  openAt : Tab Nat := []
  /-- R151: the refresh pointer of each bank. -/
  ptr : Tab Nat := []
  /-- R151, R152: rows due of each bank, in units of 1 / 64 ms window; negative when ahead. -/
  due : Tab Int := []
  /-- R155: activations of each row (bank x 49,184 + row) and how many of them were each port's. -/
  rowActs : Tab Nat := []
  rowPort : Tab Nat := []
  /-- R156: rows waiting for mitigation, (bank, row, neighbours left to refresh), oldest first. -/
  mitQ : List (Nat × Nat × List Nat) := []
  /-- R148, R527: the capacity that the newest plan was given. -/
  cap : Nat := 56
  /-- R180: the port from which the next turn of the RT and of the BE ports starts. -/
  turn : Nat × Nat := (0, 0)
  /-- R185: reserves in force at each of the last 17 boundaries, newest first: (lookup, walk, cel). -/
  reserves : List (Nat × Nat × Nat) := []
  /-- R185, R190: the reserves held in each execution epoch whose figures are fixed: (lookup, walk, cel). -/
  resv : Tab (Nat × Nat × Nat) := []
  /-- R184: pooled slots used by (execution epoch, pool). -/
  poolUsed : Tab Nat := []
  short : Short := {}
  /-- R191: epoch of the last SHORTFALL or SHORTFALL_END, and the first epoch of a change waiting to be sent. -/
  shortSent : Option Nat := none
  shortPend : Option Nat := none
deriving DecidableEq, Repr

/-! ### Letterboxes and configuration (03_letterbox_and_registers.md) -/

/-- A letterbox's command beside its registers (R118-R121). -/
structure LbSt where
  /-- The code of the RUNNING command, with its sequence number. -/
  running : Option (Nat × Nat) := none
  /-- R121: the command has passed its commit point. -/
  committed : Bool := false
  /-- The arguments of the RUNNING command. -/
  args : List Byte := []
  flags : Nat := 0
  /-- R121: the core has restarted since the commit point; the command completes RESTART. -/
  restarted : Bool := false
  /-- The release asked for while RUNNING takes effect at the end (log 20). -/
  releaseAtEnd : Bool := false
  /-- The RUNNING command has begun its work and waits for what ends it. -/
  begun : Bool := false
  /-- R112: the epoch that a CFG.COMMIT or PLAN.COMMIT returns; R495: the change boundary of a MODE.SET; R125: the flit in
  which a LOG.SNAPSHOT began. -/
  answerEpoch : Nat := 0
deriving DecidableEq, Repr

/-- The open configuration session (R111, R112). -/
structure Session where
  owner : Nat
  /-- Set after a successful comparison: the commit boundary; the session is then frozen. -/
  commitAt : Option Nat := none
  /-- The references to store, in domain order. -/
  refs : List Word := []
  adopted : Bool := false
  /-- R193: the verdict of the admission check that the commit was given, when it was given one. -/
  verdict : Option Nat := none
  /-- R195: the plan_id of a PLAN.COMMIT. -/
  planId : Option Nat := none
deriving DecidableEq, Repr

/-- A field held in three copies in a quadrant whose copies all differ (R116). Field codes: 0 mode, 1 + p port enable,
65 + z zone order, 89 lifecycle mirror. -/
structure Vote where
  fieldId : Nat
  quad : Nat
deriving DecidableEq, Repr

/-! ### Fault collection (14_fault_collection.md) -/

/-- A detail latch (R423); severity 0 is a clear latch. -/
structure Latch where
  severity : Nat := 0
  first : Nat := 0
  last : Nat := 0
  count : Nat := 0
  info : Nat := 0
deriving DecidableEq, Repr

/-- The containable units of R425. -/
inductive CUnit where
  | link (n : Nat)
  | port (p : Nat)
  | ports (q : Nat)
  | tile (t : Nat)
  | engine (e : Nat)
  | core (c : Nat)
  | cellar
  | letterbox (n : Nat)
deriving DecidableEq, Repr

/-- The fault collector beside its registers. -/
structure FltSt where
  latches : Tab Latch := []
  /-- R431: epoch + 1 of the last FAULT event of each source. -/
  lastEvent : Tab Nat := []
  /-- R424: units to be contained at the next boundary, and units to be released at the next boundary. -/
  pendContain : List CUnit := []
  pendRelease : List CUnit := []
  /-- R400, R425, R480: parlour cores held in reset. -/
  cores : List Nat := []
  /-- R425: the engines and parlour cores that are contained. -/
  units : List CUnit := []
  /-- R431, R433: the flit of the newest raise or event; how many events were queued in it; and the sources raised in it, each
  with the latch that a raise after a clear sets. -/
  cycle : Nat := 0
  queued : Nat := 0
  raised : Tab Latch := []
  /-- R426, R433: the flits in which the quiet period last started, and in which the fatal source was recorded. -/
  quietAt : Nat := 0
  fatalAt : Nat := 0
deriving DecidableEq, Repr

/-! ### Stored-data integrity (10_stored_data_integrity.md) -/

/-- An error waiting for its class: what R326 logs beside the class, from detection on. -/
structure ErrInfo where
  epoch : Nat
  kind : Nat
  source : Nat
  flags : Nat
  unit : Nat
  bank : Nat
  row : Nat
  col : Nat
  word : Nat
  bitA : Nat
  bitB : Nat
  addr : Nat
  port : Nat
  count : Nat
deriving DecidableEq, Repr

/-- A log entry (R326); its sequence number is given when it enters the ring. -/
structure LogEntry where
  seq : Nat
  cls : Nat
  info : ErrInfo
deriving DecidableEq, Repr

/-- An entry of the recurrence table (R315). -/
structure RecEntry where
  bank : Nat
  row : Nat
  col : Nat
  word : Nat
  count : Nat
  first : Nat
  info : ErrInfo
deriving DecidableEq, Repr

/-- A burst queued for a probe or under probe (R317, R320), with the errors that wait for its classes. -/
structure ProbeJob where
  bank : Nat
  row : Nat
  col : Nat
  errs : List ErrInfo
  /-- R317, R318: under probe, the words that the probe buffer holds, and the pattern slots still to come. -/
  held : List Codeword := []
  left : Nat := 0
deriving DecidableEq, Repr

/-- A spare row's record (R329): `since` is the epoch of its last switch; requests accepted before it keep to the row that
served until then. -/
structure Remap where
  valid : Bool := false
  bad : Bool := false
  row : Nat := 0
  since : Nat := 0
deriving DecidableEq, Repr

/-- Stored-data integrity of one tile beside its registers. -/
structure EccSt where
  recs : List RecEntry := []
  probeQ : List ProbeJob := []
  probe : Option ProbeJob := none
  /-- R319: the last 16 words probed, newest first: ((bank, row), (column, word)). -/
  last16 : List ((Nat × Nat) × (Nat × Nat)) := []
  /-- R325: the capture queue, oldest first. -/
  capture : List LogEntry := []
  /-- R328: retired rows (bank, row) and retired banks. -/
  rows : List (Nat × Nat) := []
  banks : List Nat := []
  /-- R329: spare rows by 16 x bank + entry. -/
  remap : Tab Remap := []
  /-- R322: the bursts the Polisher writes back in its next maintenance slots. -/
  wb : List (Nat × Nat × Nat) := []
  /-- R334: epoch + 1 of the tile's last event. -/
  lastEvent : Nat := 0
  /-- R321: the epoch from which the pace of the Polisher's pass counts. -/
  passFrom : Int := 0
deriving DecidableEq, Repr

/-- What all tiles share. -/
structure LogSt where
  /-- R325: the ring, oldest first, at most 4,096 entries. -/
  ring : List LogEntry := []
  nextSeq : Nat := 0
  /-- R324: the line the Polisher reads next in each quadrant. -/
  scrub : Tab Nat := []
deriving DecidableEq, Repr

/-! ### The Cornerstone (15_cornerstone_fuses.md) -/

/-- The Cornerstone beside its registers. -/
structure CstSt where
  /-- R436, R438: the antifuse store: what each word reads at NORMAL, PROG and UNPROG. -/
  fuse : Tab (Word × Word × Word) := []
  /-- R439: every word of the store as resolved at the last cold start. -/
  image : Tab Word := []
  /-- Repair records applied at the last cold start (R448, R453), lane and line records in order, and remaps in order. -/
  vertRecs : List Word := []
  dramRecs : List Word := []
  /-- R443: sections (region, section) whose digest has failed the check after its burning; until the next cold start. -/
  unusable : List (Nat × Nat) := []
deriving DecidableEq, Repr

/-! ### Modes, power and start-up (17_modes_power_and_startup.md) -/

/-- A PORT.RESET under way (R514): the port, the letterbox, and whether its commit boundary has passed. -/
structure PortReset where
  port : Nat
  lb : Nat
  committed : Bool
  /-- Every earlier request is done: the port is decided again from the next boundary. -/
  done : Bool
deriving DecidableEq, Repr

/-- A mode change that waits for its boundary B (R495): target, B, the letterbox of the MODE.SET (none: an entry to RETENTION
that a wake reverts), whether the check found it oversubscribed, and the cause of R518. -/
structure ModeChange where
  target : Nat
  at_ : Nat
  lb : Option Nat
  oversub : Bool
  cause : Nat
deriving DecidableEq, Repr

/-- Modes and start-up beside their registers. -/
structure PwrSt where
  /-- PWROK is high. -/
  good : Bool := false
  /-- RST_N is low. -/
  inReset : Bool := false
  /-- Boot phase code of R131; 0 before PWROK has been high for 0.5 ms. -/
  phase : Nat := 0
  /-- R508: the phase in which the boot stopped. -/
  haltPhase : Nat := 0
  /-- R126: the boot phase has reached SELFTEST since the last reset. -/
  booted : Bool := false
  /-- R127: the configuration of the flash has been applied, or will not be. -/
  flashDone : Bool := false
  /-- R168: the array has been written since the last reset. -/
  filled : Bool := false
  /-- R127: LB4 has opened a configuration session since the last reset. -/
  lb4Session : Bool := false
  resets : List PortReset := []
  change : Option ModeChange := none
  /-- R496: the boundary at which the later effects of the last change apply, with its mode and the mode before. -/
  later : Option (Nat × Nat × Nat) := none
  /-- R501: the drain on entry to RETENTION runs: the boundary B, and the letterbox of the MODE.SET. -/
  drain : Option (Nat × Nat) := none
  /-- R501 step 4: the boundary at which every link of the vestibule state sleeps and the domains retain. -/
  sleepAt : Option Nat := none
  /-- R516: a wake has been seen in a step of the entry to RETENTION; the entry is undone at the next boundary. -/
  revert : Bool := false
  /-- R502: an exit from RETENTION has started, in this epoch of the counter. -/
  exiting : Bool := false
  /-- R500: the boundary B of the last entry to COOL, and the odd links it found in OPEN or DOZE that are not parked yet. -/
  coolFrom : Nat := 0
  coolLinks : List Nat := []
deriving DecidableEq, Repr

/-! ### The Strongroom (16_strongroom_trust_and_debug.md) -/

/-- What is known of an image (R463): its versions and rollback values, its signer (R471), and its measurements 0 to 3. -/
structure ImageInfo where
  fw : Nat := 0
  rcp : Nat := 0
  fwRoll : Nat := 0
  rcpRoll : Nat := 0
  signer : Nat := 0
  late : Bool := false
  meas : List (List Byte) := []
deriving DecidableEq, Repr

/-- The Strongroom beside its registers. -/
structure SecSt where
  /-- The boot flash (R461, R462); an erased byte reads 0xFF. -/
  flash : List Host.Cell := []
  /-- The code stores and the recipe store, in the layout of an image (R463, R482). -/
  stores : List Host.Cell := []
  /-- The image that runs, and the slot it came from (2: the host push of R482). -/
  running : ImageInfo := {}
  slot : Nat := 0
  /-- FW.LOAD: the target of the image being loaded, and the bytes of each chunk that has been loaded. -/
  load : Option (Nat × Tab Nat) := none
  /-- R469: the identity private key. -/
  key : Option (List Byte) := none
  /-- R476: the nonce of the last challenge that is still valid, and the epoch of its challenge. -/
  nonce : Option (List Byte × Nat) := none
  /-- R471: the body of the last part 0. -/
  body : Option (List Byte) := none
  /-- R477: the signer of the unlock in force, the epoch of its grant, and the seconds granted. -/
  unlock : Option (Nat × Nat × Nat) := none
  /-- R473: a move to RETURNED is draining requests: LB0-LB3 answer NOTREADY. -/
  moving : Bool := false
  /-- R472: lifecycle words are burned; the state takes effect at the next boundary; the letterbox that waits. -/
  effect : Option (Nat × Nat) := none
  /-- R473, R475: a wipe is running, and the letterbox that waits for it. -/
  wiping : Option Nat := none
  /-- R480: watchdog expiries of the last second: (core, epoch). -/
  expiries : List (Nat × Nat) := []
  /-- R480: the epoch of each parlour core's last kick or start. -/
  kickAt : Tab Nat := []
  /-- R473: every link stays in the vestibule state until a configuration is committed. -/
  shut : Bool := false
deriving DecidableEq, Repr

/-! ### Engines (06_counters_and_policers.md, 07_lookup_walks.md) -/

/-- A line of the counter cache (R208, R213): its burst address in units of 64 B when it was filled, the place of its
burst in its channel, and its eight codewords. -/
structure CLine where
  burst : Nat
  bank : Nat
  row : Nat
  col : Nat
  dirty : Bool
  words : List Codeword
deriving DecidableEq, Repr

/-- A staged spill record (R215, R217). -/
structure SpillRec where
  addr : Nat
  inLarder : Bool
  field : Nat
  format : Nat
  carries : Nat
  epoch : Nat
deriving DecidableEq, Repr

/-- A quadrant's spill staging (R217) and the losses since its last SPILL_LOST (R219): the epoch in which it was sent,
the number lost since, and the address of the first counter lost. -/
structure SpillSt where
  staged : List SpillRec := []
  lost : Option (Nat × Nat × Nat) := none
deriving DecidableEq, Repr

/-- The engines beside their registers. -/
structure EngSt where
  /-- The lines of each set of each tile's counter cache, most recently used first, by 16,384 x tile + set. -/
  cache : Tab (List CLine) := []
  spill : Tab SpillSt := []
  /-- R218: the occupancy has reached the warning level and not fallen below it since. -/
  ringWarned : Bool := false
  /-- R240: the rotating counter of each hash table. -/
  rot : Tab Nat := []
deriving DecidableEq, Repr

/-! ### The Larder (09_larder.md) -/

/-- An access to a word of a Larder line. -/
structure LAcc where
  q : Nat
  bank : Nat
  line : Nat
  word : Nat
  wr : Bool
deriving DecidableEq, Repr

/-- A request that an engine of a tile keeps waiting for a bank (R296). -/
structure LWait where
  bank : Nat
  tile : Nat
  port : Nat
  tag : Nat
deriving DecidableEq, Repr

/-- The two paths of the Larder in the running flit. -/
structure LarSt where
  /-- R296, R297: the accesses of this flit on each path, and the requests already counted as waiting in it. -/
  host : List LAcc := []
  eng : List LAcc := []
  counted : List (Nat × Nat) := []
  /-- R296: requests that wait for a bank on the engine path, and 1 + the tile that each bank served last. -/
  waits : List LWait := []
  turn : Tab Nat := []
  /-- R291, R300: granules to be powered down, with the boundary that left them UNUSED. -/
  down : List (Nat × Nat) := []
deriving DecidableEq, Repr

/-! ### The Cellar (08_cellar_packet_buffer.md) -/

/-- A cell in a head-cache entry: its pointer, eop and short bits, and its 32 codewords (R275). -/
structure HcCell where
  ptr : Nat
  eop : Bool
  short : Bool
  words : List Codeword
deriving DecidableEq, Repr

/-- A head-cache entry (R275): its index in its quadrant, its queue, up to two cells, the pointer of the cell that
follows them, and the epoch of the queue's last DEQ (R276). -/
structure HcEntry where
  idx : Nat
  queue : Nat
  cells : List HcCell
  follow : Option Nat
  since : Nat
deriving DecidableEq, Repr

/-- A block on its way from the free stack to a cache: its pair indices, whether a word of it was damaged (R265, R281), and
the frame in which its refill started. -/
structure FreeBlock where
  pairs : List Nat
  bad : Bool
  since : Nat
deriving DecidableEq, Repr

/-- A freed pair (R267): its quadrant, the pair, the first epoch at which it may enter the cache, and the DEQ that freed it
(port, tag, frame). -/
structure FreedPair where
  quad : Nat
  pair : Nat
  due : Nat
  deq : Nat × Nat × Nat
deriving DecidableEq, Repr

/-- The Cellar beside its registers and its memory. -/
structure CelSt where
  /-- R265: the free pairs of each quadrant's cache, and its refills in flight. -/
  caches : Tab (List Nat) := []
  flight : Tab (List FreeBlock) := []
  /-- R265: blocks on the free stack. -/
  stack : Nat := 0
  /-- Epoch + 1 of the last refill started, by quadrant. -/
  refillAt : Tab Nat := []
  /-- The byte address of the free stack, since the last initialisation (R258, R282). -/
  base : Nat := 0
  /-- R267: freed pairs, oldest first; and (quadrant, pair) of those that enter their caches as this flit ends (R283). -/
  freeing : List FreedPair := []
  entering : List (Nat × Nat) := []
  /-- R266, R283: (port, tag) of ENQs that have begun to wait in this flit, and queues that CEL_QRESET resets at its end. -/
  waits : List (Nat × Nat) := []
  resets : List Nat := []
  /-- R261: boundaries at which the Cellar has been stopped or is to initialise, and whether it was ready before. -/
  readyLog : List (Nat × Bool) := []
  heads : List HcEntry := []
  /-- R281: queues that are broken by a damaged descriptor. -/
  broken : List Nat := []
  /-- R282: the boundary from which the Cellar is to initialise. -/
  initDue : Option Nat := none
  /-- R285: CEL_LOW has been sent and free_pairs has not risen enough since. -/
  lowSent : Bool := false
deriving DecidableEq, Repr

/-! ### Risers and clocks (11_plinth_risers_and_clocks.md) -/

/-- A soft repair under way (R342): the line, the spare that is verified, the epoch its verify started in, and the
boundary of the switch once it has passed. -/
structure SoftRep where
  line : Nat
  spare : Nat
  start : Nat
  at_ : Option Nat
deriving DecidableEq, Repr

/-- R167: what a pattern generator drives: pseudo-random bits seeded by line index, a walking one or zero, the clock pattern, or
64 bits of the user repeated. -/
inductive LinePattern where
  | prbs7 | prbs15 | prbs23 | walkOne | walkZero | clock
  | user (bits : BitVec 64)
deriving DecidableEq, Repr

/-- R167: the pattern generator and the compare helper of a tile, as its last run has left them: the pattern, where the spec
names it; whether the path leads through training rows or loops back at the die end; the lines driven; those with a mismatch;
the lines whose trims were swept; and the number of the free values from which the counts of mismatches come (log 12). -/
structure LineHelper where
  pattern : Option LinePattern := none
  rows : Bool := false
  lines : List Nat := []
  bad : List Nat := []
  swept : List Nat := []
  seed : Nat := 0
deriving DecidableEq, Repr

/-- R167: the saturating mismatch counter of a line, of 16 bits. -/
def LineHelper.mismatches (h : LineHelper) (line : Nat) : Nat :=
  if h.bad.contains line then min 0xFFFF (1 + (Config.freeValue h.seed).toNat / 2 ^ (line % 32 * 16) % 0xFFFF) else 0

/-- R167: the sticky flag of a line: the first beat that failed. -/
def LineHelper.firstBeat (h : LineHelper) (line : Nat) : Option Nat :=
  if h.bad.contains line then some ((Config.freeValue (h.seed + 1)).toNat / 2 ^ (line % 32 * 16) % 2 ^ 16) else none

/-- R167: the pass bitmap. -/
def LineHelper.pass (h : LineHelper) (line : Nat) : Bool := h.lines.contains line && !h.bad.contains line

/-- R167: the mismatches that a trim sweep of a line has seen at a code. -/
def LineHelper.sweep (h : LineHelper) (line : Nat) (code : Fin 64) : Option Nat :=
  if h.swept.contains line then some ((Config.freeValue (h.seed + 2 + line)).toNat / 2 ^ (8 * code.val) % 2 ^ 8) else none

/-- A riser beside its registers. -/
structure VrtSt where
  /-- R340: the count of each line in the window that runs, and the window's first epoch. -/
  counts : Tab Nat := []
  winFrom : Nat := 0
  /-- R341: lines whose count or monitor calls for them to be declared failing. -/
  calling : List Nat := []
  /-- R341: lines found failing and not replaced. -/
  failing : List Nat := []
  reps : List SoftRep := []
  /-- R309, R343: the erased lines of this riser, at most two. -/
  erased : List Nat := []
  /-- R342, R343: data lines to be marked erased at the next boundary. -/
  eraseNext : List Nat := []
  /-- R344: a third dead line and the boundary of the move to the spare riser. -/
  move : Option (Nat × Nat) := none
  /-- R346: the channel is DEGRADED from the next boundary on. -/
  degrading : Bool := false
  /-- R346: a command line of the DEGRADED channel is dead, and its refresh has stopped. -/
  stopped : Bool := false
  /-- R168: the training step that runs, V0 to V5; 6 when trained; how often V0 or V1 has failed; for the spare riser, the
  die it is trained against (R339). -/
  step : Nat := 0
  tries : Nat := 0
  die : Nat := 0
  /-- R503: it is trained in full again after an exit from RETENTION. -/
  retrain : Bool := false
  /-- R8, R503: the boundary at which its channel returns from the spare riser. -/
  homeAt : Option Nat := none
  /-- R167: the helpers at both ends. -/
  helper : LineHelper := {}
deriving DecidableEq, Repr

/-- Clocks beside their registers: the boundaries at which the fallback is entered or left (R350, R351), the quadrants with a
tuning due, and those that have closed with exit margin in the retune that runs or ran last. -/
structure ClkSt where
  entryAt : Option Nat := none
  exitAt : Option Nat := none
  due : List Nat := []
  closed : Nat := 0
  /-- R382: the temperatures of the Plinth units (key q) and Larder units (key 4 + q) at the last tuning, + 2^16. -/
  temp : Tab Nat := []
  /-- R349: the taps of the 64 delay lines of a quadrant, as the number + 1 of the free value that holds them (log 12), and the
  tunings that take effect at the next boundary, as quadrant and number. -/
  taps : Tab Nat := []
  tuned : List (Nat × Nat) := []
deriving DecidableEq, Repr

/-- R349: the tap, 0 to 127, of crossing bundle `b` of quadrant `q`; 0 before the first tuning. -/
def ClkSt.tap (c : ClkSt) (q : Nat) (b : Fin 64) : Nat :=
  let n := Tab.get (fun _ => 0) c.taps q
  if n = 0 then 0 else (Config.freeValue (n - 1)).toNat / 2 ^ (7 * b.val) % 128

/-! ### The Chimney (12_chimney_and_calibration.md) -/

/-- A weathervane group (R372, R374): its estimate in 1/16 °C, the epoch of its read, and what holds of it. -/
structure WvGroup where
  est : Int := 0
  readAt : Nat := 0
  fresh : Bool := false
  below : Bool := false
  unreliable : Bool := false
  /-- R364: its bank and its eight rows, as the TRIM region records them; none before the Cornerstone is sensed. -/
  bank : Nat := 0
  rows : List Nat := []
  /-- R372: the measurement: from when its writes may begin, the bursts written, the end of the hold, the bursts read. -/
  start : Nat := 0
  writes : Nat := 0
  holdTo : Nat := 0
  reads : Nat := 0
deriving DecidableEq, Repr

/-- A queued calibration (R383): the riser, the die for riser 32, reduced form asked for, and the letterboxes of CAL.RUN. -/
structure CalJob where
  riser : Nat
  die : Nat
  reduced : Bool
  lbs : List Nat
deriving DecidableEq, Repr

/-- The calibration that runs: its step K0 to K4, or the chunk of its reduced form; whether K1 to K4 run again (R385), and
whether they have failed again. -/
structure CalRun where
  job : CalJob
  step : Nat
  again : Bool
  failed : Bool
  /-- R384: it takes the channel over; an idle spare riser's does not. -/
  takes : Bool
  /-- R387: it runs in reduced form. -/
  chunks : Bool
  /-- The first boundary at which the step may end. -/
  at_ : Nat
  /-- The lines that have mismatched. -/
  bad : List Nat
  /-- Trims by register address: with the spare riser the new ones, in force from the return on; in reduced form those that
  stood before the chunks. -/
  trims : List (Nat × Word)
deriving DecidableEq, Repr

/-- A CAL.RUN in progress: what it answers for each riser so far, and how many calibrations it waits for. -/
structure CalAsk where
  out : Tab Nat
  left : Nat
deriving DecidableEq, Repr

/-- The Chimney beside its registers. -/
structure ThmSt where
  /-- R371: consecutive rejections of each diode, and the broken diodes. -/
  rejects : Tab Nat := []
  broken : List Nat := []
  /-- R377: dies at which all the conditions held 3 °C below relax_max at the end of the last round. -/
  relaxWas : List Nat := []
  /-- R372, R374: weathervane groups, and the dies whose stale source has been raised. -/
  wv : Tab WvGroup := []
  staleRaised : List Nat := []
  calQ : List CalJob := []
  cal : Option CalRun := none
  asks : Tab CalAsk := []
  /-- R382: region temperature at the last completed calibration + 2^16, 0 for none, by riser, and by 33 + die for the
  spare riser. -/
  calTemp : Tab Nat := []
  /-- R378: dies whose relaxed refresh was permitted at the entry to RETENTION and still is. -/
  relaxRet : List Nat := []
  /-- R378, R380: the self-refresh window of each die in ms, while it refreshes itself; 0 otherwise. -/
  window : Tab Nat := []
  /-- R381: the entry of its table, in steps of 4 °C from 0 °C, that each oscillator and bandgap takes its trim from: dies 0-15,
  the always-on oscillator, quadrants 0-3. Past an end of the table the end entry acts. -/
  comp : List Int := []
deriving DecidableEq, Repr

/-! ### Self-test (13_self_test_and_continuity.md) -/

/-- A test in progress (R398-R408): kind and units of R413, the letterbox of a TEST.RUN, its stage, the burst or line it
works on, the failing items so far and the first of them, and the boundary it waits for. -/
structure TestRun where
  kind : Nat
  a : Nat
  b : Nat
  c : Nat
  lb : Option Nat
  stage : Nat
  pos : Nat
  fails : List Nat
  sig : Nat
  gold : Nat
  at_ : Nat
  /-- R408: it has yielded and waits to resume from `pos`. -/
  yielded : Bool
  /-- R410: it is the probe of a RETIRE.RESTORE. -/
  restore : Bool
  /-- It goes on with the bank's next row (R409), or with the spare riser's next die (R402). -/
  whole : Bool
deriving DecidableEq, Repr

/-- The last result of a unit (R413): kind, units, outcome, failing items, signature, golden value, first failing item,
end epoch. -/
structure TestRes where
  kind : Nat
  a : Nat
  b : Nat
  c : Nat
  outcome : Nat
  count : Nat
  sig : Nat
  gold : Nat
  first : Nat
  epoch : Nat
deriving DecidableEq, Repr

/-- Self-test beside its registers. -/
structure BstSt where
  runs : List TestRun := []
  results : List TestRes := []
  /-- R289, R404: the shadow slots taken, by 496 x (16 x quadrant + granule) + slot; 1 + the code of the borrower. -/
  slots : Tab Nat := []
  /-- R299, R409: the first boundary at which the spare bank of a quadrant may replace a bank for good. -/
  permAt : Tab Nat := []
  /-- R406: held rows (channel, bank, physical row). -/
  held : List (Nat × Nat × Nat) := []
  /-- R407: held Larder banks (quadrant, bank). -/
  lheld : List (Nat × Nat) := []
  /-- R412: the pointer of row tests of each channel, of Larder bank tests of each quadrant, and of riser tests. -/
  rowPtr : Tab Nat := []
  lbankPtr : Tab Nat := []
  riserPtr : Nat := 0
  /-- R411: links that the start-up tests hold in DOWN; the quadrants whose slices, and whose marches, have ended. -/
  downLinks : List Nat := []
  bootQuads : Nat := 0
  marched : List Nat := []
  /-- R412: epoch + 1 of the last start in service of a unit's test, by 1024 x kind + unit. -/
  lastRun : Tab Nat := []
deriving DecidableEq, Repr

/-- RETIRE.REMAP in progress (R329): the letterbox, the place, map or unmap, the spare entry, the bursts copied, and once
all are, the first boundary at which it may switch and the probe slots still to come. -/
structure RemapRun where
  lb : Nat
  ch : Nat
  bank : Nat
  row : Nat
  unmap : Bool
  spare : Nat
  copied : Nat := 0
  at_ : Nat := 0
  probing : Nat := 0
deriving DecidableEq, Repr

/-- Copies or probes are still to come. -/
def RemapRun.works (r : RemapRun) : Bool := decide (r.copied < 32) || decide (0 < r.probing)

/-! ### The test port (R354, R355, R414, R415, R488) -/

/-- The test port: its instruction, its registers, the instruction of each tier's register and of each core's wrapper,
and what was captured and shifted out last. Registers are numbers, bit 0 next to TDO. -/
structure TapSt where
  ir : Nat := 0x01
  tierSel : Nat := 0
  coreSel : Nat := 0
  boundary : Nat := 0
  /-- R355: the instruction of each tier; BYPASS until one is loaded. -/
  dieIr : Tab Nat := []
  /-- R356: tiers in which DWR_EXTEST runs. -/
  extest : List Nat := []
  dwr : Tab Nat := []
  wir : Tab Nat := []
  wbr : Tab Nat := []
  tdo : Nat := 0
deriving DecidableEq, Repr

/-- Faults of the model: where the spec leaves the behaviour of the device undefined. -/
inductive Fault where
  /-- Raised by every register write whose data puts another value into a KEEP field than the field reads (R12 leaves
  the device's behaviour undefined). Safe: the model stops where the hardware goes on. -/
  | keepField (addr : Nat)
deriving DecidableEq, Repr

/-- Refusals of the model. -/
inductive Refusal where
  /-- Raised by `exec` alone, for a row of the table that has no meaning yet. Safe. -/
  | notModelled (mnemonic : String)
deriving DecidableEq, Repr

/-- The whole state. -/
structure State where
  /-- Commands that wait, first in first out. -/
  pending : List Instr
  /-- R7: epochs since the end of cold reset (64 bits), frame in the epoch, flit in the frame. -/
  epoch : Nat
  frame : Nat
  flit : Nat
  /-- The model's own field: how many free values have been taken (log 12). -/
  free : Nat
  /-- DRAM and Larder bytes; unlisted bytes read 0 (log 1). -/
  dram : List Host.Cell
  larder : List Host.Cell
  /-- R108: staged and active copies of configuration, and every other register field. -/
  staged : RegMap
  active : RegMap
  live : RegMap
  links : Tab LinkSt
  evq : List Payload
  evLost : Option EvLost
  /-- Accepted requests, oldest first (R84). -/
  reqs : List Req
  /-- R72: tags of responses sent, with the frame of transmission: (port, tag, frame). -/
  sentTags : List (Nat × Nat × Nat)
  gate : GateSt
  tiles : Tab TileSt
  lbs : Tab LbSt
  session : Option Session
  votes : List Vote
  /-- R114: domains whose last CRC pass since the last commit has mismatched. -/
  cfgBad : List Nat
  /-- R194: the plan_id of the last plan committed. -/
  planId : Nat
  flt : FltSt
  /-- R163: the boundary at which DETERMINISTIC last took effect. -/
  detFrom : Option Nat
  /-- R428, R380: the device is stopped. -/
  halted : Bool
  cst : CstSt
  pwr : PwrSt
  ecc : Tab EccSt
  log : LogSt
  eng : EngSt
  /-- R291: the number of the last power-down of each Larder granule (16 x quadrant + granule), 0 for none. -/
  larGen : Tab Nat
  /-- R346, R356, R505: the number of the last loss of the DRAM contents of each channel, 0 for none. -/
  dramGen : Tab Nat
  lar : LarSt
  cel : CelSt
  sec : SecSt
  /-- R132: the time, in flits, of the snapshot request that is pending. -/
  snapAt : Option Nat
  /-- What the device drives on SB_SDO after its wait bytes in the last sideband transaction (R129). -/
  sbOut : List Byte
  /-- R194: the plan image loaded in the firmware area, by chunk index (its chunk count, then the bytes), and the count. -/
  plan : Tab (List Byte)
  planChunks : Nat
  vrt : Tab VrtSt
  clk : ClkSt
  thm : ThmSt
  bst : BstSt
  remapRuns : List RemapRun
  tap : TapSt
deriving DecidableEq, Repr

/-- The machine at the end of cold reset (R511), before PWROK rises: every register and unit at its reset value. -/
def State.reset : State where
  pending := []
  epoch := 0
  frame := 0
  flit := 0
  free := 0
  dram := []
  larder := []
  staged := []
  active := []
  live := []
  links := []
  evq := []
  evLost := none
  reqs := []
  sentTags := []
  gate := {}
  tiles := []
  lbs := []
  session := none
  votes := []
  cfgBad := []
  planId := 0
  flt := {}
  detFrom := none
  halted := false
  cst := {}
  pwr := {}
  ecc := []
  log := {}
  eng := {}
  larGen := []
  dramGen := []
  lar := {}
  cel := {}
  sec := {}
  snapAt := none
  sbOut := []
  plan := []
  planChunks := 0
  vrt := []
  clk := {}
  thm := {}
  bst := {}
  remapRuns := []
  tap := {}

end Sys2Proof.Machine
end

