-- ==== Sys2Proof/Machine/Ops.lean ====
section
/-! DEFINITION. The operations every family shares: registers and their fields, time, unit records, memory words,
outbound flits and events, the fault collector (raising a source is the one operation that takes the place of an
exception on this block), and leaving a link state. -/

namespace Sys2Proof.Machine

/-! ### Registers -/

/-- The value of a register in a map. -/
def RegMap.val (m : RegMap) (a : Nat) : Word := Tab.get regReset m a

/-- `m` with a register written. -/
def RegMap.put (m : RegMap) (a : Nat) (w : Word) : RegMap := Tab.set regReset m a w

/-- A field in a map. -/
def RegMap.fv (m : RegMap) (f : Fld) : Nat := (m.val f.addr).field f.lo f.width

/-- `m` with a field written. -/
def RegMap.setF (m : RegMap) (f : Fld) (v : Nat) : RegMap := m.put f.addr ((m.val f.addr).setField f.lo f.width v)

/-- The value of a field as the device uses it (R108): the active copy of a configuration field, else the live one. -/
def State.fv (s : State) (f : Fld) : Nat := if f.cfg then s.active.fv f else s.live.fv f

/-- A one-bit field. -/
def State.fb (s : State) (f : Fld) : Bool := s.fv f != 0

/-- The device sets a field it owns: a live one, or the active copy of a configuration field. -/
def State.setF (s : State) (f : Fld) (v : Nat) : State :=
  if f.cfg then { s with active := s.active.setF f v } else { s with live := s.live.setF f v }

/-- The staged copy of a configuration field. -/
def State.stagedF (s : State) (f : Fld) : Nat := s.staged.fv f

/-- Write the staged copy of a configuration field. -/
def State.setStagedF (s : State) (f : Fld) (v : Nat) : State := { s with staged := s.staged.setF f v }

/-- A counter rises by `n`, saturating at its width. -/
def State.addF (s : State) (f : Fld) (n : Nat) : State := s.setF f (satAdd f.width (s.fv f) n)

/-- A counter rises by one, saturating. -/
def State.inc (s : State) (f : Fld) : State := s.addF f 1

/-- `s.when c f` is `f s` when `c` holds and `s` otherwise. -/
def State.when (s : State) (c : Bool) (f : State → State) : State := if c then f s else s

/-- Bit `i` of `data` clears the counter at `base + 4 i`, for the `n` counters of a block (the *_CNT_CLR registers). -/
def State.clearCounters (s : State) (base n data : Nat) : State :=
  (List.range n).foldl
    (fun s i => if data.testBit i then { s with live := s.live.put (base + 4 * i) 0 } else s) s

/-! ### Time (R7) -/

/-- Frames since the end of cold reset. -/
def State.absFrame (s : State) : Nat := 8 * s.epoch + s.frame

/-- Flits since the end of cold reset. -/
def State.absFlit (s : State) : Nat := 8 * s.absFrame + s.flit

/-- R20: the 12-bit frame count. -/
def State.frame12 (s : State) : Nat := s.absFrame % 4096

/-- The first instant of an epoch. -/
def State.atBoundary (s : State) : Bool := s.frame == 0 && s.flit == 0

/-- The first epoch that starts from now on. -/
def State.nextBoundary (s : State) : Nat := if s.atBoundary then s.epoch else s.epoch + 1

/-- The low 32 bits of the epoch count. -/
def State.epoch32 (s : State) : Nat := s.epoch % 2 ^ 32

/-! ### Unit records -/

def State.link (s : State) (n : Nat) : LinkSt := Tab.get (fun _ => {}) s.links n
def State.setLink (s : State) (n : Nat) (v : LinkSt) : State := { s with links := Tab.set (fun _ => {}) s.links n v }
def State.modLink (s : State) (n : Nat) (f : LinkSt → LinkSt) : State := s.setLink n (f (s.link n))
def State.tile (s : State) (n : Nat) : TileSt := Tab.get (fun _ => {}) s.tiles n
def State.setTile (s : State) (n : Nat) (v : TileSt) : State := { s with tiles := Tab.set (fun _ => {}) s.tiles n v }
def State.modTile (s : State) (n : Nat) (f : TileSt → TileSt) : State := s.setTile n (f (s.tile n))
def State.lb (s : State) (n : Nat) : LbSt := Tab.get (fun _ => {}) s.lbs n
def State.setLb (s : State) (n : Nat) (v : LbSt) : State := { s with lbs := Tab.set (fun _ => {}) s.lbs n v }
def State.modLb (s : State) (n : Nat) (f : LbSt → LbSt) : State := s.setLb n (f (s.lb n))

def State.riser (s : State) (n : Nat) : VrtSt := Tab.get (fun _ => {}) s.vrt n
def State.modRiser (s : State) (n : Nat) (f : VrtSt → VrtSt) : State := { s with vrt := Tab.set (fun _ => {}) s.vrt n (f (s.riser n)) }

/-- Temperature of R366 from its 16 bits. -/
def tempInt (t : Nat) : Int := if t < 2 ^ 15 then t else (t : Int) - 2 ^ 16

/-- A fresh free value (log 12), and the state with the counter advanced. -/
def State.takeFree (s : State) : Nat × State := ((Config.freeValue s.free).toNat, { s with free := s.free + 1 })

/-! ### Counting tables -/

/-- A table of counts: unlisted keys are 0. -/
def natGet (t : Tab Nat) (k : Nat) : Nat := Tab.get (fun _ => 0) t k
def natSet (t : Tab Nat) (k v : Nat) : Tab Nat := Tab.set (fun _ => 0) t k v
def natAdd (t : Tab Nat) (k v : Nat) : Tab Nat := natSet t k (natGet t k + v)
def natSub (t : Tab Nat) (k v : Nat) : Tab Nat := natSet t k (natGet t k - v)

/-! ### Modes (R492) -/

/-- The operating mode in force (R116: the majority value). Codes: 0 FULL, 1 BALANCED, 2 DETERMINISTIC, 3 COOL,
4 RETENTION, 5 MAINTENANCE. -/
def State.mode (s : State) : Nat := s.fv F.PWR_MODE_mode

/-! ### Links -/

/-- Link state codes (R43). -/
def lsDown : Nat := 0
def lsTraining : Nat := 1
def lsVestibule : Nat := 2
def lsOpen : Nat := 3
def lsDoze : Nat := 4
def lsSleep : Nat := 5

def State.linkState (s : State) (n : Nat) : Nat := s.fv (F.LNK_STATUS_state n)
def State.setLinkState (s : State) (n v : Nat) : State := s.setF (F.LNK_STATUS_state n) v

/-- The link carries MGMT both ways (R59). -/
def State.linkTalks (s : State) (n : Nat) : Bool := s.linkState n == lsVestibule || s.linkState n == lsOpen

/-! ### Outbound flits (R16-R19, R36-R39) -/

/-- R16, R18: the side field of an outbound flit numbered `seq`, its CRC in bits 23:0. -/
def composeSide (typ seq ack crd : Nat) (p : Payload) : BitVec 48 :=
  let top := typ % 16 * 2 ^ 44 + seq % 256 * 2 ^ 36 + ack % 256 * 2 ^ 28 + crd % 16 * 2 ^ 24
  BitVec.ofNat 48 (top + crc24 (seq / 256 % 16) (BitVec.ofNat 48 top) p)

/-- R16, R19: the ack field: the low byte of the number received last in order, 0xFF before the first. -/
def LinkSt.ackField (L : LinkSt) : Nat := if L.rxAny then (L.rxE + 4095) % 256 else 0xFF

/-- R38: one flit goes onto the outbound lanes. A RETRY that is owed takes its crd field. -/
def LinkSt.transmit (L : LinkSt) (typ seq crd : Nat) (p : Payload) : LinkSt :=
  { L with
    retryOwed := false
    wire := L.wire ++ [(composeSide typ seq L.ackField (if L.retryOwed then 0xF else crd) p, p)] }

/-- R17: an IDLE flit, with the number of the next sequenced one (log 17). -/
def LinkSt.sendIdle (L : LinkSt) (crd : Nat) : LinkSt := L.transmit 0 L.txSeq crd 0

/-- R33: header credits go back in one IDLE flit, after the RETRY that is owed, if any. -/
def LinkSt.sendCredits (L : LinkSt) (n : Nat) : LinkSt := (if L.retryOwed then L.sendIdle 0 else L).sendIdle n

/-- A new sequenced flit is sent and kept in the replay buffer (R36). -/
def LinkSt.sendNew (L : LinkSt) (f : OutFlit) : LinkSt :=
  let M := L.transmit f.typ L.txSeq 0 f.data
  { M with held := M.held ++ [⟨M.txSeq, f.typ, f.data, M.clock⟩], txSeq := (M.txSeq + 1) % 4096 }

/-- R39: the oldest flit of the replay in progress is sent again. -/
def LinkSt.resend (L : LinkSt) : LinkSt :=
  match L.replayQ with
  | [] => L
  | h :: rest =>
    let M := L.transmit h.typ h.seq 0 h.data
    { M with
      held := M.held.map fun x => if x.seq = h.seq then { x with since := M.clock } else x
      replayQ := rest
      replayAck := if rest.isEmpty then none else M.replayAck }

/-- Waiting flits are sent, in order, while fewer than 255 are held and no replay is in progress (R36, R39): the link, and the
responses that have been transmitted. -/
def pumpLoop : Nat → LinkSt → LinkSt × List (Nat × Nat)
  | 0, L => (L, [])
  | n + 1, L =>
    match L.out with
    | [] => (L, [])
    | f :: rest =>
      if L.held.length < 255 ∧ L.replayQ = [] then
        let (M, done) := pumpLoop n ({ L with out := rest }.sendNew f)
        (M, (if f.typ = 3 then f.resp.toList else []) ++ done)
      else (L, [])

/-- R72: the response of (port, tag) has been transmitted: the tag is free from the next frame. -/
def State.freeTag (s : State) (k : Nat × Nat) : State :=
  { s with
    reqs := s.reqs.filter fun q => !(q.port == k.1 && q.tag == k.2)
    sentTags := (s.sentTags.filter fun (t : Nat × Nat × Nat) => t.2.2 == s.absFrame) ++ [(k.1, k.2, s.absFrame)] }

def State.pump (s : State) (n : Nat) : State :=
  if s.linkTalks n then
    let r := pumpLoop (s.link n).out.length (s.link n)
    r.2.foldl State.freeTag (s.setLink n r.1)
  else s

/-- Queue a sequenced flit of a type of R17 on a link, and send what may be sent. -/
def State.queueFlit (s : State) (n : Nat) (f : OutFlit) : State :=
  (s.modLink n fun L => { L with out := L.out ++ [f] }).pump n

def State.sendFlit (s : State) (n typ : Nat) (p : Payload) : State := s.queueFlit n ⟨typ, p, none⟩

/-- Send a MGMT flit (type 5); the link is not idle (R47). -/
def State.sendMgmt (s : State) (n : Nat) (p : Payload) : State := (s.modLink n fun L => { L with idle := 0 }).sendFlit n 5 p

/-! ### Charges taken back (R46) -/

/-- Keys of the gates' tables. -/
def slotKey (x tile port : Nat) : Nat := (x * 33 + tile) * 64 + port
def quotaKey (port field : Nat) : Nat := port * 4 + field
def actKey (port bank : Nat) : Nat := port * 1024 + bank

def undoCharge (g : GateSt) : Charge → GateSt
  | .slot x t p kind =>
    { g with used := natSub g.used (slotKey x t p) 1, demand := if kind = 2 then natSub g.demand (64 * t + p) 1 else g.demand }
  | .quota q p => { g with quota := natSub g.quota (quotaKey p q) 1 }
  | .act p b old => { g with acts := natSub g.acts (actKey p b) 1, memo := natSet g.memo (actKey p b) old }

/-- The bursts of a tile's execution epoch. -/
def TileSt.burstsAt (T : TileSt) (x : Nat) : List Burst := Tab.get (fun _ => []) T.bursts x
def TileSt.setBursts (T : TileSt) (x : Nat) (bs : List Burst) : TileSt := { T with bursts := Tab.set (fun _ => []) T.bursts x bs }

/-- The bursts that a request's slot charge put into a tile's plan are taken out again. -/
def State.undoBursts (s : State) (r : Req) : Charge → State
  | .slot x t _ _ => s.modTile t fun T =>
      T.setBursts x ((T.burstsAt x).filter fun b => !(r.port == b.port && r.tag == b.tag && r.frame == b.frame))
  | _ => s

/-- The requests of an interrupted frame: every header of the frame is deferred with no effect (R46). -/
def State.dropTentative (s : State) (n : Nat) : State :=
  let gone := s.reqs.filter fun r => r.tentative && r.link == n
  let s := gone.foldl (fun s r => r.charges.foldl (fun s c => s.undoBursts r c) s) s
  { s with
    reqs := s.reqs.filter fun r => !(r.tentative && r.link == n)
    gate := (gone.reverse.flatMap (·.charges.reverse)).foldl undoCharge s.gate }

/-- What leaving OPEN, VESTIBULE or DOZE for state `dst` does to a link beside the state code: the history freezes (R30),
credits lapse (R34), an interrupted frame has no effect (R46), parks end. A frozen history that is still kept gives way to
the newer one (DESIGN CHOICE, log 84). -/
def State.leaveLink (s : State) (n dst : Nat) : State :=
  let st := s.linkState n
  let s := if dst == lsTraining || dst == lsDown || dst == lsSleep then
      (s.dropTentative n).modLink n fun L =>
        { L with hdrs := [], vec := 0, fenced := [], complement := none }
    else s
  let s := if st == lsOpen && dst != lsDoze then
      s.modLink n fun L => { L with frozen := some L.hist, frozenFrames := 0, hist := [] }
    else s
  s.modLink n fun L => { L with credOwed := 0, parkOut := none, parkIn := none, idle := 0, wire := [] }

/-- Requests of the ports of a link that enters DOWN (R75): a write whose data is not all there is abandoned with no
effect; the others complete and their responses are discarded, at once for those that are answered. -/
def downReqs (n : Nat) (rs : List Req) : List Req :=
  (rs.filter fun r => !(r.link == n && (r.data.length < r.need || r.answer.isSome))).map fun r =>
    if r.link == n then { r with discard := true, beforeDown := true } else r

/-- A link enters DOWN: its requests are handled under R75, and its lanes, sequence numbers and buffers are cleared, for
training from DOWN starts both directions at sequence number 0 (R19). -/
def State.linkDown (s : State) (n : Nat) : State :=
  let s := s.leaveLink n lsDown
  let s := { s with reqs := downReqs n s.reqs, sentTags := s.sentTags.filter fun t => t.1 / 4 != n }
  let s := s.modLink n fun L =>
    { L with rxE := 0, rxAny := false, rxDiscard := false, retryOwed := false, retryRx := none, txSeq := 0, held := [],
             out := [], replayAck := none, replayQ := [], replayHeld := false, replayRun := (0, 0), inbox := [], short := false,
             fresh := true, repairs := [], waking := false, woken := false }
  (s.setF (F.LNK_STATUS_repair_pending n) 0).setLinkState n lsDown

/-- A link enters TRAINING from OPEN, VESTIBULE or DOZE (R50, R52): sequence state and buffers are kept, step T0 begins. -/
def State.startRetrain (s : State) (n : Nat) : State :=
  let s := s.leaveLink n lsTraining
  let s := s.modLink n fun L =>
    { L with short := false, fresh := false, replayAck := none, replayHeld := L.replayHeld || !L.replayQ.isEmpty
             eyeMin := s.fv (F.LNK_TRAIN_eye_min n) }
  (((s.inc (F.LNK_CNT_RETRAIN_count n)).setF (F.LNK_STATUS_train_step n) 0).setF (F.LNK_CTL_retrain n) 0).setLinkState n lsTraining

/-! ### Events (R60, R61) -/

/-- The event flit of R60: code, severity and epoch, with the details at their payload bytes. Byte 2, the sub-port, is
filled in when the flit is sent. -/
def eventFlit (s : State) (code severity : Nat) (detail : List (Nat × Nat × Nat)) : Payload :=
  payload ([(0, 2, code), (3, 1, severity), (4, 8, s.epoch)] ++ detail)

/-- R431: the events of one cycle, with a new one: a FAULT goes before the FAULT events of greater source numbers. -/
def insertEvent (p : Payload) : List Payload → List Payload
  | [] => [p]
  | q :: rest =>
    if p.at 0 2 = 0x0C01 ∧ q.at 0 2 = 0x0C01 ∧ p.at 12 2 < q.at 12 2 then p :: q :: rest else q :: insertEvent p rest

/-- R431, R433: what has been raised and sent in a cycle is kept until the next. -/
def FltSt.inCycle (x : FltSt) (t : Nat) : FltSt := if x.cycle = t then x else { x with cycle := t, queued := 0, raised := [] }

/-- Queue an event (R61): 64 entries, and the kept EVENT_LOST record beyond them. -/
def State.sendEvent (s : State) (code severity : Nat) (detail : List (Nat × Nat × Nat)) : State :=
  if s.evq.length < 64 then
    let x := s.flt.inCycle s.absFlit
    let old := s.evq.length - x.queued
    { s with evq := s.evq.take old ++ insertEvent (eventFlit s code severity detail) (s.evq.drop old)
             flt := { x with queued := x.queued + 1 } }
  else
    let s := s.inc F.LNK_EVT_LOST_count
    match s.evLost with
    | none => { s with evLost := some ⟨1, code, code, s.epoch, severity, s.epoch, s.evq.length⟩ }
    | some r =>
      { s with evLost := some { r with count := r.count + 1, last := code, lastEpoch := s.epoch, severity := max r.severity severity } }

/-- An event whose severity the spec leaves open. -/
def State.event (s : State) (code : Nat) (detail : List (Nat × Nat × Nat)) : State :=
  s.sendEvent code (Config.eventSeverity code).val detail

/-! ### The fault collector (R423-R431) -/

def State.latch (s : State) (src : Nat) : Latch := Tab.get (fun _ => {}) s.flt.latches src
def State.setLatch (s : State) (src : Nat) (l : Latch) : State :=
  { s with flt := { s.flt with latches := Tab.set (fun _ => {}) s.flt.latches src l } }

/-- The severity in force of a source (R432): codes 6 and 7 act as 2, and the thermal shutdown is fixed at 5. -/
def State.severityOf (s : State) (src : Nat) : Nat :=
  if src = 616 then 5
  else
    let v := (s.active.val (R.FLT_SEV (src / 8))).field (4 * (src % 8)) 3
    if v = 6 ∨ v = 7 then 2 else v

/-- The containable unit of a source (R425), from its group, kind and info. -/
def containUnit (src info : Nat) : Option CUnit :=
  if src < 112 then some (.link (4 * (src / 28) + src % 28 % 4))
  else if src < 144 then
    let k := (src - 112) % 8
    if k < 3 then some (.port info) else if k = 3 then some (.link info) else none
  else if src < 304 then some (.tile (8 * ((src - 144) / 40) + (src - 144) % 40 % 8))
  else if src < 336 then some (.engine info)
  else if src < 504 then
    let o := (src - 336) % 42
    if o < 40 then some (.tile (8 * ((src - 336) / 42) + o % 8)) else none
  else if src < 556 then none
  else if src < 596 then
    let k := (src - 556) % 10
    if k = 0 then some (.engine info) else if k = 1 then some (.core ((src - 556) / 10)) else none
  else if src < 602 then some .cellar
  else if src < 617 then none
  else if src < 649 then some (.tile (src - 617))
  else if src < 653 then some (.ports (src - 649))
  else if src < 656 then none
  else if src < 692 then some (.letterbox ((src - 656) % 6))
  else if src < 714 then none
  else if src < 718 then some (.core (src - 714))
  else none

/-- The unit is contained now (R425). -/
def State.isContained (s : State) : CUnit → Bool
  | .link n => (s.fv F.FLT_CONTAIN_LINK_link).testBit n
  | .port p => if p < 32 then (s.fv F.FLT_CONTAIN_PORT_LO_port).testBit p else (s.fv F.FLT_CONTAIN_PORT_HI_port).testBit (p - 32)
  | .ports q => (List.range 16).all fun k =>
      if q < 2 then (s.fv F.FLT_CONTAIN_PORT_LO_port).testBit (16 * q + k)
      else (s.fv F.FLT_CONTAIN_PORT_HI_port).testBit (16 * (q - 2) + k)
  | .tile t => (s.fv F.FLT_CONTAIN_TILE_tile).testBit t
  | .engine e => s.flt.units.contains (.engine e)
  | .core c => s.flt.units.contains (.core c)
  | .cellar => s.fb F.FLT_CONTAIN_MISC_cellar
  | .letterbox n => (s.fv F.FLT_CONTAIN_MISC_lb).testBit n

/-- R378, R380: the self-refresh window that the Chimney sets for a die, in milliseconds. -/
def State.windowOf (s : State) (d : Nat) : Nat :=
  if s.fb F.THM_SHUT_tripped || s.fb (F.THM_UNIT_hot d) then 16 else if s.thm.relaxRet.contains d then 64 else 32

/-- R378, R380, R428: every die is in self-refresh at its window. -/
def State.setWindows (s : State) : State :=
  { s with thm := { s.thm with window := (List.range 16).foldl (fun w d => natSet w d (s.windowOf d)) [] } }

/-- R428, R380, R10: a fatal fault or a thermal shutdown stops the device: every link goes to DOWN, requests under way
are cut off (log 21: a request cut off takes no effect), the dies go to self-refresh, and the quiet period stops. -/
def State.stopDevice (s : State) : State :=
  let s := (List.range 16).foldl (fun s n => if s.linkState n = lsDown then s else s.linkDown n) s
  let relaxed := if s.mode = 4 then s.thm.relaxRet else (List.range 16).filter fun d => s.fb (F.THM_UNIT_relax_ok d)
  let s := { s with halted := true, reqs := [], sentTags := [], thm := { s.thm with relaxRet := relaxed } }
  (s.setWindows).setF F.FLT_STATUS_quiet_running 0

/-- The quiet period restarts (R426, R427). -/
def State.restartQuiet (s : State) : State :=
  let s := { s with flt := { s.flt with quietAt := s.absFlit } }
  if s.fb F.FLT_STATUS_quiet_running then s.inc F.FLT_CNT_QUIETRESTART_count else s.setF F.FLT_STATUS_quiet_running 1

/-- R424: the unit of a contain-severity source is to be contained at the next boundary. -/
def State.holdUnit (s : State) : Option CUnit → State
  | some u => { s with flt := { s.flt with
      pendContain := if s.flt.pendContain.contains u then s.flt.pendContain else s.flt.pendContain ++ [u]
      pendRelease := s.flt.pendRelease.filter (· ≠ u) } }
  | none => s

/-- R431: whether a source's unit is contained, or about to be. -/
def State.unitHeld (s : State) : Option CUnit → Nat
  | some u => if s.isContained u || s.flt.pendContain.contains u then 1 else 0
  | none => 0

/-- R431: the FAULT event of a source, with its latch. -/
def State.faultEvent (s : State) (src sev : Nat) (l : Latch) (unit : Option CUnit) : State :=
  let s := s.sendEvent 0x0C01 sev
    [(12, 2, src), (14, 1, summaryBit src), (15, 1, l.count), (16, 2, l.info), (18, 4, l.first), (22, 1, s.unitHeld unit)]
  ({ s with flt := { s.flt with lastEvent := natSet s.flt.lastEvent src (s.epoch + 1) } }).inc F.FLT_CNT_EVENT_count

/-- R423: a latch after its source has been raised with severity `sev`: it keeps the severity, the epoch and the info of the
first raise. -/
def State.raisedLatch (s : State) (src sev info : Nat) : Latch :=
  let old := s.latch src
  if old.severity = 0 then ⟨sev, s.epoch32, s.epoch32, 1, info % 2 ^ 16⟩
  else { old with last := s.epoch32, count := satAdd 8 old.count 1 }

/-- R428, R433: the first fatal source is kept, of two in one cycle the lower. -/
def State.keepFatal (s : State) (src : Nat) : State :=
  if s.fb F.FLT_FATAL_SRC_valid && !(s.flt.fatalAt == s.absFlit && decide (src < s.fv F.FLT_FATAL_SRC_source)) then s
  else
    let s := { s with flt := { s.flt with fatalAt := s.absFlit } }
    (s.setF F.FLT_FATAL_SRC_source src).setF F.FLT_FATAL_SRC_valid 1

/-- R433: the source has been raised in this cycle; a clear in it leaves the latch `l`. -/
def State.noteRaised (s : State) (src : Nat) (l : Latch) : State :=
  let x := s.flt.inCycle s.absFlit
  { s with flt := { x with raised := Tab.set (fun _ => {}) x.raised src l } }

/-- A source is raised with an info value (R423-R431). -/
def State.raise (s : State) (src info : Nat) : State :=
  let sev := s.severityOf src
  if sev = 0 then s
  else
    let old := s.latch src
    let new := s.raisedLatch src sev info
    let s := ((s.noteRaised src ⟨sev, s.epoch32, s.epoch32, 1, info % 2 ^ 16⟩).setLatch src new).inc F.FLT_CNT_RAISE_count
    if sev = 1 then s
    else if sev = 5 then (s.keepFatal src).stopDevice
    else
      let unit := containUnit src info
      let contains := sev == 4 && s.fb F.FLT_CTL_contain_en && unit.isSome
      let s := (s.setF F.FLT_STATUS_fault_state 1).restartQuiet
      let s := s.when (decide (sev ≥ 3) && !contains) fun s => s.setF F.FLT_STATUS_degraded 1
      let s := s.when contains fun s => s.holdUnit unit
      let due := old.severity = 0 ∨ natGet s.flt.lastEvent src + 255 < s.epoch
      s.when (s.fb F.FLT_CTL_event_en && decide due) fun s => s.faultEvent src sev new unit

/-- Raise the rights source of the letterbox of a path (R135, R422): in-band paths answer to their quadrant's letterbox,
the sideband to LB4 and the test port to LB5. -/
def lbOfPath (path : Nat) : Nat := if path < 64 then path / 16 else path - 60

/-! ### Memory words -/

/-- Bytes of DRAM and the Larder that nothing has written read 0 (log 1). -/
def memDefault : Nat → Byte := fun _ => 0

/-- The 80-bit codeword at word index `w` of a memory, from its ten cells, least significant byte first. -/
def memWord (m : List Host.Cell) (w : Nat) : Codeword :=
  BitVec.ofNat 80 (ofLeBytes ((List.range 10).map fun k => Tab.get memDefault m (10 * w + k)))

/-- Write a codeword at word index `w`. -/
def memPut (m : List Host.Cell) (w : Nat) (c : Codeword) : List Host.Cell :=
  (List.range 10).foldl (fun m k => Tab.set memDefault m (10 * w + k) (BitVec.ofNat 8 (c.toNat >>> (8 * k)))) m

/-- The canonical form of a memory. -/
def Memory.wf (m : List Host.Cell) : Bool := Tab.wf memDefault m

/-- The read of one byte of a memory. -/
def memByte (m : List Host.Cell) (a : Nat) : Byte := Tab.get memDefault m a

end Sys2Proof.Machine
end

