-- ==== Sys2Proof/Machine/Rights.lean ====
section
/-! DEFINITION. Which ports may send what (R188), and the conditions of R44 for a link to be OPEN. -/

namespace Sys2Proof.Machine

/-- The port is enabled in the configuration in force (voted, R116). -/
def State.portEnabled (s : State) (p : Nat) : Bool := s.fb (F.PRT_CTL_enable p)

/-- The management right of R188; it does not depend on memory rights. -/
def State.portMgmt (s : State) (p : Nat) : Bool := s.fb (F.PRT_CTL_mgmt p)

/-- The port is contained (R425) or past the commit point of a PORT.RESET (R514). -/
def State.portBarred (s : State) (p : Nat) : Bool :=
  s.isContained (.port p) || s.pwr.resets.any fun r => r.port == p && r.committed

/-- R188: the port has memory rights in mode `m`, as the ports' configuration stands. -/
def State.rightsIn (s : State) (m p : Nat) : Bool :=
  s.portEnabled p &&
    (match m with
     | 0 | 1 | 2 => true
     | 3 => p / 4 % 2 == 0
     | 5 => s.portMgmt p
     | _ => false)

/-- R174, check 1: memory rights in the current mode. -/
def State.memRights (s : State) (p : Nat) : Bool := s.rightsIn s.mode p && !s.portBarred p

/-- A VERIFIED or RESOLVED region or section at the last cold start. -/
def State.sectGood (s : State) (r k : Nat) : Bool :=
  let st := s.fv (F.CST_SECT_state (4 * r + k))
  st == 2 || st == 3

/-- The device has booted LIMITED (R450). -/
def State.isLimited (s : State) : Bool := s.fb F.CST_STATUS_limited

/-- R44: every condition for a link to be OPEN. -/
def State.mayOpen (s : State) (n : Nat) : Bool :=
  s.fb F.CFG_STATUS_committed && s.cfgBad.isEmpty && s.fb (F.LNK_CTL_enable n) && !s.fb (F.LNK_CTL_vestibule_hold n) &&
  (List.range 4).any (fun k => s.rightsIn s.mode (4 * n + k)) && ((s.link n).d0 || (s.link n).d1) &&
  !(s.reqs.any fun r => r.link == n && r.beforeDown) && !s.isLimited && !s.sec.shut

/-- The PRT_OPS bit of an opcode (R188); TQUERY and undefined opcodes have none. -/
def opsBit (op : Nat) : Option Nat :=
  if op = 1 ∨ op = 2 ∨ op = 3 then some 0
  else if op = 4 ∨ op = 5 ∨ op = 6 then some 1
  else if 0x10 ≤ op ∧ op ≤ 0x15 then some 2
  else if op = 0x18 then some 3
  else if op = 0x20 then some 4
  else if op = 0x21 ∨ op = 0x22 then some 5
  else if op = 0x24 then some 6
  else if 0x28 ≤ op ∧ op ≤ 0x2A then some 7
  else if op = 0x08 then some 8
  else none

/-- R188, R161: the port's configuration permits the opcode. `flags` carries L for the counter and policer opcodes. -/
def opPermitted (cfg : RegMap) (mode p op flags : Nat) : Bool :=
  let ops := cfg.fv (F.PRT_OPS_ops p)
  (match opsBit op with | none => true | some b => ops.testBit b) &&
  (!((opsBit op == some 2 || opsBit op == some 3) && op != 0x15 && flags.testBit 3) || ops.testBit 1) &&
  !(mode == 2 && (op == 0x08 || op == 0x21 || op == 0x22))

end Sys2Proof.Machine
end

