-- ==== Sys2Proof/Machine/Domains.lean ====
section
/-! DEFINITION. Power domains (R103, R352, R498, R499) and the wake from RETENTION (R502, R516). -/

namespace Sys2Proof.Machine

/-- R352: the power domain of the register at an offset; die-end control registers lie in none. The index of R107 names
clock regions: registers of the base are put into quadrant fabric 0, the ports' into their link's PHY (log 23). -/
def regDomain (a : Nat) : Option Nat :=
  if 0x2000 ≤ a ∧ a < 0x3000 then some 90
  else if 0x4000 ≤ a ∧ a < 0x5000 then some 89
  else if 0x5000 ≤ a ∧ a < 0x6000 then some 91
  else if 0x6000 ≤ a ∧ a < 0x8000 then some 90
  else if 0x20000 ≤ a ∧ a < 0x24000 then some (65 + (a - 0x20000) / 0x400)
  else if 0x30000 ≤ a ∧ a < 0x34000 then some (65 + (a - 0x30000) / 0x400)
  else if 0x40000 ≤ a ∧ a < 0x44000 then some (81 + (a - 0x40000) / 0x1000)
  else if 0x100000 ≤ a ∧ a < 0x208000 then
    let t := (a - 0x100000) / 0x8000
    if t < 32 ∧ (a - 0x100000) % 0x8000 < 0x6000 then some t else some (32 + t)
  else if 0x380000 ≤ a ∧ a < 0x3C0000 then
    let d := (a - 0x380000) / 0x4000
    let o := (a - 0x380000) % 0x4000
    if o < 0x800 then some (32 + 2 * d + o / 0x400) else if o < 0xC00 then some 64 else none
  else some 92

/-- R498: the state of a power domain. -/
def State.domain (s : State) (d : Nat) : Nat := (s.live.val (R.PWR_DOM (d / 16))).field (2 * (d % 16)) 2

def State.setDomain (s : State) (d v : Nat) : State :=
  { s with live := s.live.put (R.PWR_DOM (d / 16)) ((s.live.val (R.PWR_DOM (d / 16))).setField (2 * (d % 16)) 2 v) }

/-- R103, R498: the register's domain is OFF or RETAIN. -/
def State.domainDown (s : State) (a : Nat) : Bool :=
  match regDomain a with | some d => decide (s.domain d < 2) | none => false

/-- R502, R516: a wake in RETENTION (one that comes while the device drains waits in PWR_WAKE, log 108) starts the exit; in the last steps of the entry it undoes the entry. -/
def State.wake (s : State) : State :=
  if s.mode = 4 then
    if s.pwr.sleepAt.isSome then { s with pwr := { s.pwr with revert := true } }
    else if s.pwr.drain.isNone then { s with pwr := { s.pwr with exiting := true } } else s
  else s

/-- R499: in COOL the PHY of an odd link is retained once the link sleeps, and is on otherwise. -/
def State.coolPhy (s : State) (n : Nat) : State :=
  if s.mode = 3 ∧ n % 2 = 1 then s.setDomain (65 + n) (if s.linkState n = lsSleep then 1 else 2) else s

end Sys2Proof.Machine
end

