-- ==== Sys2Proof/Machine/Links.lean ====
section
/-! DEFINITION. Host links (01_host_links.md): flits and their checks, decisions on DEFER, credits, sequencing and
replay, link states and parking, training, lane repair, link control messages and event delivery. -/

namespace Sys2Proof.Machine

/-! ### The side field (R16) -/

def sideType (x : BitVec 48) : Nat := x.toNat >>> 44
def sideSeq (x : BitVec 48) : Nat := (x.toNat >>> 36) % 256
def sideAck (x : BitVec 48) : Nat := (x.toNat >>> 28) % 256
def sideCrd (x : BitVec 48) : Nat := (x.toNat >>> 24) % 16
def sideCrc (x : BitVec 48) : Nat := x.toNat % 2 ^ 24

/-- R37: the value in E - 255 .. E whose low byte is `seq`, modulo 4096. -/
def reconSeq (e seq : Nat) : Nat := (e + 4096 - (e + 256 - seq) % 256) % 4096

/-- R32: the link runs in single-decision mode. -/
def LinkSt.single (L : LinkSt) : Bool := L.d0 != L.d1

/-- The bits of the decision vector for the four positions of flit `f`. -/
def flitBits (f : Nat) : BitVec 16 := BitVec.ofNat 16 (0xF <<< (4 * f))

/-- R58: a CRC failure put down to one lane. The 16th within 1 ms on a lane of a direction with no spare left raises the
source. 1 ms is 31,250 epochs (R7); R2 keeps the time on the -14 grade, where it is 27,343. -/
def State.laneFail (s : State) (n lane : Nat) : State :=
  let ms := if Config.grade = .dv9616_16 then 31250 else 27343
  let s := s.modLink n fun L =>
    { L with laneCrc := (L.laneCrc.filter fun e => decide (s.epoch < e.2 + ms)) ++ [(lane, s.epoch)] }
  let hits := ((s.link n).laneCrc.filter fun e => e.1 == lane).length
  if s.fb (F.LNK_STATUS_spares_in_exhausted n) && decide (16 ≤ hits) then
    (s.raise (Src.sparesExhausted n) n).modLink n fun L => { L with laneCrc := L.laneCrc.filter fun e => e.1 != lane }
  else s

/-- R27, R33: the flit that has failed its CRC may have been a REQ flit. In flits 0-3 it counts as one, whatever type was
received, since the type bits are not to be trusted: its four positions are reported as 1, but not those that single-decision
mode does not report (R32), and four credits go back. In flits 4-7 four credits go back when it reads as a REQ flit (log 85). -/
def State.failedReq (s : State) (n typ : Nat) : State :=
  let owed := if s.linkState n = lsOpen ∧ (s.flit < 4 ∨ typ = 1) then 4 else 0
  let s := if s.flit < 4 then s.inc (F.LNK_CNT_REQCRC_count n) else s
  s.modLink n fun L =>
    { L with
      credOwed := L.credOwed + owed
      vec := if s.flit < 2 ∨ s.flit < 4 ∧ !L.single then L.vec ||| flitBits s.flit else L.vec }

/-- R38: any flit that fails its CRC is counted, one RETRY is owed, and sequenced flits are discarded until the expected
one passes. -/
def State.crcFail (s : State) (n typ : Nat) (lane : Option Lane) : State :=
  let s := (s.inc (F.LNK_CNT_CRC_count n)).modLink n fun L => { L with retryOwed := true, rxDiscard := true }
  let s := s.failedReq n typ
  match lane with
  | none => s
  | some k => s.laneFail n k.val

/-- R36: an ack covers every held flit up to the newest whose number ends in the ack field. -/
def ackHeld (ack : Nat) : List HeldFlit → List HeldFlit
  | [] => []
  | h :: t => if (h :: t).any (fun x => x.seq % 256 == ack) then (if h.seq % 256 == ack then t else ackHeld ack t) else h :: t

/-- The ack and crd fields of a flit with good CRC: acknowledged flits leave the replay buffer, a RETRY is noted. -/
def State.sideIn (s : State) (n : Nat) (side : BitVec 48) : State :=
  let s := s.modLink n fun L =>
    let h := ackHeld (sideAck side) L.held
    { L with
      held := h
      replayQ := L.replayQ.filter fun x => h.any fun y => y.seq == x.seq
      replayAck := if L.replayQ.any fun x => h.any fun y => y.seq == x.seq then L.replayAck else none
      retryRx := if sideCrd side = 0xF then some (sideAck side) else L.retryRx }
  s.pump n

/-! ### Request flits and decisions -/

/-- The non-empty header slots of a REQ flit in flit `f` of the frame (R22): (position, header). -/
def reqSlots (f : Nat) (p : Payload) : List (Nat × Nat) :=
  ((List.range 4).map fun i => (4 * f + i, p.at (16 * i) 16)).filter fun h => h.2 != 0

/-- A REQ flit arrives in the current flit (R21, R22, R27, R32-R34). -/
def execReqFlit (l : Link) (side : BitVec 48) (data : Payload) (badLane : Option Lane) (s : State) :
    Host.Outcome State Fault Refusal :=
  let n := l.val
  if !s.linkTalks n || sideType side != 1 then .next s
  else
    let isOpen := s.linkState n == lsOpen
    if sideSeq side != s.frame12 % 256 || crc24 (s.frame12 / 256) side data != sideCrc side then .next (s.crcFail n 1 badLane)
    else
      let s := (s.sideIn n side).modLink n fun L => { L with idle := 0 }
      let hs := reqSlots s.flit data
      if 4 ≤ s.flit then
        .next ((s.inc (F.LNK_CNT_PROTO_count n)).modLink n fun L =>
          { L with credOwed := if isOpen then L.credOwed + hs.length else L.credOwed })
      else if !isOpen then
        .next (s.modLink n fun L => { L with vec := hs.foldl (fun v h => v ||| BitVec.ofNat 16 (1 <<< h.1)) L.vec })
      else if (s.link n).single && decide (2 ≤ s.flit) then
        .next (s.modLink n fun L => { L with credOwed := L.credOwed + hs.length })
      else .next (s.modLink n fun L => { L with hdrs := L.hdrs ++ hs })

/-- The counts of an accepted header: its acceptance, its slots against carry and shared grants, a DENIED, and the
badop source of a malformed one (R98, R197). -/
def State.countAccepted (s : State) (r : Req) : State :=
  let kind (k : Nat) : Nat := (r.charges.filter fun c => match c with | .slot _ _ _ k' => k' == k | _ => false).length
  let s := ((s.inc (F.PRT_CNT_ACC_count r.port)).addF (F.PRT_CNT_CARRY_count r.port) (kind 1)).addF (F.PRT_CNT_SHARED_count r.port) (kind 2)
  match r.answer.map (·.status) with
  | some 8 => s.raise (Src.port 0 (r.port / 16)) r.port
  | some 9 => s.inc (F.PRT_CNT_DENIED_count r.port)
  | _ => s

/-- R25, R32: the levels that put a vector on the decision lanes: positions 0-7 on D0 and 8-15 on D1; with one lane usable,
positions 0-7 on that lane. -/
def LinkSt.onLanes (L : LinkSt) (v : BitVec 16) : BitVec 16 :=
  if L.d0 && !L.d1 then v &&& 0x00FF else if !L.d0 && L.d1 then v <<< 8 else v

/-- R25, R49: the decisions of this frame are still to be driven: all its headers are decided, and the link is not on its way
from SLEEP to OPEN, where R49 has none driven (log 86). -/
def State.drivesDecision (s : State) (n : Nat) : Bool :=
  s.linkTalks n && s.flit == 7 && (s.link n).hdrs.isEmpty && (s.link n).complement.isNone && !(s.link n).woken

/-- R25, R30: V is driven, recorded in the history, and the accepted requests of the frame stand. -/
def State.driveDecision (s : State) (n : Nat) : State :=
    let L := s.link n
    let isOpen := s.linkState n == lsOpen
    let keep := isOpen || L.frozen.isNone
    let s := s.modLink n fun L =>
      { L with
        lanes := L.onLanes L.vec
        complement := some L.vec
        hist := if keep then ((s.frame12, L.vec) :: L.hist).take 64 else L.hist
        frozenFrames := if isOpen && L.frozen.isSome then L.frozenFrames + 1 else L.frozenFrames
        vec := 0
        fenced := [] }
    let taken := s.reqs.filter fun r => r.tentative && r.link == n
    let s := { s with reqs := s.reqs.map fun r => if r.link == n then { r with tentative := false } else r }
    taken.foldl State.countAccepted s

/-- R25: flit 7 of a frame whose headers are all decided. -/
def execDecisionVector (l : Link) (s : State) : Host.Outcome State Fault Refusal :=
  if s.drivesDecision l.val then .next (s.driveDecision l.val) else .next s

/-- R26: flit 0 of the next frame: the complement is driven. -/
def execDecisionComplement (l : Link) (s : State) : Host.Outcome State Fault Refusal :=
  match (s.link l.val).complement with
  | some v =>
    if s.flit == 0 then .next (s.modLink l.val fun L => { L with lanes := L.onLanes (~~~v), complement := none }) else .next s
  | none => .next s

/-- R33: header credits go back through one crd code, 1 to 14 at a time. -/
def execCreditReturn (l : Link) (n : Fin 15) (s : State) : Host.Outcome State Fault Refusal :=
  if s.linkState l.val == lsOpen && decide (n.val ≤ (s.link l.val).credOwed) then
    .next (s.modLink l.val fun L => { L with credOwed := L.credOwed - n.val }.sendCredits n.val)
  else .next s

/-! ### Sequenced flits, acknowledgement and replay -/

/-- A reserved flit type with good CRC (R17): discarded, counted, and the link retrains. -/
def State.reservedType (s : State) (n : Nat) : State :=
  let wasOpen := s.linkState n == lsOpen
  let s := (s.inc (F.LNK_CNT_PROTO_count n)).raise (Src.proto n) n
  let s := if s.linkTalks n then s.startRetrain n else s
  if wasOpen then s.raise (Src.retrain n) n else s

/-- What an accepted sequenced flit of the host brings: WDATA and the messages that have a row of their own wait in the
inbox; a message the device does not take is discarded and counted (R59, R100). A flit of a type that the host does not send is
accepted by its number and dropped, and a register message with a count of 0 or above 8, or a first byte that names none, counts
as a bad one (log 87). -/
def State.acceptFlit (s : State) (n typ : Nat) (p : Payload) : State :=
  if typ = 2 then s.modLink n fun L => { L with inbox := L.inbox ++ [(2, p)], idle := 0 }
  else if typ = 5 then
    let s := s.modLink n fun L => { L with idle := 0 }
    let b0 := p.at 0 1
    let code := p.at 1 1
    if b0 = 1 then
      if code = 1 ∨ (3 ≤ code ∧ code ≤ 8) then s.modLink n fun L => { L with inbox := L.inbox ++ [(5, p)] }
      else s.inc (F.LNK_CNT_PROTO_count n)
    else if (b0 = 2 ∨ b0 = 3) ∧ 1 ≤ p.at 2 1 ∧ p.at 2 1 ≤ 8 then s.modLink n fun L => { L with inbox := L.inbox ++ [(5, p)] }
    else s.inc (F.MBX_CNT_BADMSG_count (n / 4))
  else s

/-- R37, R38: a sequenced flit arrives. -/
def execSequencedFlit (l : Link) (side : BitVec 48) (data : Payload) (badLane : Option Lane) (s : State) :
    Host.Outcome State Fault Refusal :=
  let n := l.val
  if !s.linkTalks n || sideType side < 2 || sideType side == 7 then .next s
  else
    let num := reconSeq (s.link n).rxE (sideSeq side)
    if crc24 (num / 256) side data != sideCrc side then .next (s.crcFail n (sideType side) badLane)
    else
      let s := s.sideIn n side
      if 8 ≤ sideType side then .next (s.reservedType n)
      else if num == (s.link n).rxE then
        let s := s.modLink n fun L => { L with rxE := (L.rxE + 1) % 4096, rxAny := true, rxDiscard := false }
        .next (s.acceptFlit n (sideType side) data)
      else .next s

/-- An unsequenced IDLE flit arrives (R17, R36, R38). Its payload is empty, and the number its CRC covers is read from
its seq field as for a sequenced flit (log 17). -/
def execIdleFlit (l : Link) (side : BitVec 48) (badLane : Option Lane) (s : State) : Host.Outcome State Fault Refusal :=
  let n := l.val
  if !s.linkTalks n || (sideType side != 0 && sideType side < 8) then .next s
  else
    let num := reconSeq (s.link n).rxE (sideSeq side)
    if crc24 (num / 256) side 0 != sideCrc side then .next (s.crcFail n (sideType side) badLane)
    else
      let s := s.sideIn n side
      if 8 ≤ sideType side then .next (s.reservedType n) else .next s

/-- A replay begins (R39, R40): `flits` go out again, one in each flit time, before any new one. `max_replays` replays in a row
from one number retrain the link (R42). -/
def State.replay (s : State) (n : Nat) (flits : List HeldFlit) : State :=
  match flits with
  | [] => s
  | h :: _ =>
    let s := (s.inc (F.LNK_CNT_REPLAY_count n)).modLink n fun L =>
      { L with
        replayQ := flits
        replayHeld := false
        held := L.held.map fun x => { x with since := L.clock }
        replayRun := (h.seq, if L.replayRun.1 == h.seq then L.replayRun.2 + 1 else 1) }
    if max 1 (s.fv (F.LNK_RPL_max_replays n)) ≤ (s.link n).replayRun.2 ∧ s.linkState n = lsOpen then
      ((s.startRetrain n).modLink n fun L => { L with replayRun := (0, 0) }).raise (Src.retrain n) n
    else s

/-- R39: a RETRY has been received. -/
def execRetry (l : Link) (s : State) : Host.Outcome State Fault Refusal :=
  let n := l.val
  match (s.link n).retryRx with
  | none => .next s
  | some a =>
    let s := s.modLink n fun L => { L with retryRx := none }
    let due := ackHeld a (s.link n).held
    if !s.linkTalks n || (s.link n).replayAck == some a || due.isEmpty then .next s
    else .next ((s.modLink n fun L => { L with replayAck := some a }).replay n due)

/-- R40, R62: the replay timer as it acts. -/
def State.replayTimer (s : State) (n : Nat) : Nat := max 32 (s.fv (F.LNK_RPL_timer n))

/-- R40, R41: the replay timer of the oldest held flit expires; with `tie`, an ack that covers it arrives in the same
flit and wins. -/
def execReplayTimeout (l : Link) (tie : Bool) (s : State) : Host.Outcome State Fault Refusal :=
  let n := l.val
  match (s.link n).held with
  | [] => .next s
  | h :: hs =>
    if !s.linkTalks n || decide ((s.link n).clock < h.since + s.replayTimer n) then .next s
    else if tie then .next (((s.inc (F.LNK_CNT_NEARMISS_count n)).modLink n fun L =>
      { L with held := hs, replayQ := L.replayQ.filter fun x => x.seq != h.seq }).pump n)
    else .next ((s.modLink n fun L => { L with replayAck := none }).replay n (h :: hs))

/-- R17, R36, R39, R40: the next flit time of a link begins: the oldest flit of a replay goes out again, else an IDLE flit,
and flits that wait may go. A link in TRAINING sends training content, which the spec does not give. -/
def State.linkFlit (s : State) (n : Nat) : State :=
  if s.linkTalks n then
    (s.modLink n fun L =>
      let L := { L with wire := [], clock := L.clock + 1 }
      if L.replayQ.isEmpty || L.replayHeld then L.sendIdle 0 else L.resend).pump n
  else if s.linkState n = lsTraining then s.modLink n fun L => { L with clock := L.clock + 1 }
  else s

/-! ### Link states -/

/-- R33, R34, R42: a link enters OPEN with a fresh grant of credits, and a replay that was cut off resumes. -/
def State.enterOpen (s : State) (n : Nat) : State :=
  let pool := max 16 (min 64 (s.fv (F.LNK_CRD_hdr_pool n)))
  ((s.setLinkState n lsOpen).modLink n fun L =>
    { L with granted := pool, credOwed := 0, idle := 1, waking := false, woken := false, replayHeld := false, vec := 0, hdrs := [] }).pump n

/-- R44. -/
def execLinkOpen (l : Link) (s : State) : Host.Outcome State Fault Refusal :=
  if s.atBoundary && s.linkState l.val == lsVestibule && s.mayOpen l.val && !s.halted then .next (s.enterOpen l.val)
  else .next s

/-- R45; in the move of R473 a link in DOZE as well. -/
def execLinkToVestibule (l : Link) (s : State) : Host.Outcome State Fault Refusal :=
  if s.atBoundary && (s.linkState l.val == lsOpen || (s.sec.shut && s.linkState l.val == lsDoze)) && !s.mayOpen l.val then
    .next ((s.leaveLink l.val lsVestibule).setLinkState l.val lsVestibule)
  else .next s

/-- R14, R50: a link leaves OPEN for TRAINING. -/
def State.retrainFromOpen (s : State) (n : Nat) : State := (s.startRetrain n).raise (Src.retrain n) n

/-- R14: the forwarded clock drifts beyond ±300 ppm. -/
def execClockDrift (l : Link) (s : State) : Host.Outcome State Fault Refusal :=
  if s.linkState l.val == lsOpen then .next (s.retrainFromOpen l.val) else .next s

/-- Retraining from OPEN, VESTIBULE or DOZE (R50). -/
def State.retrainAny (s : State) (n : Nat) : State :=
  if s.linkState n == lsOpen then s.retrainFromOpen n
  else if s.linkState n == lsVestibule || s.linkState n == lsDoze then s.startRetrain n
  else s

/-- R47: nothing stands in the way of a park: no held or waiting flit, no request of the link's ports unanswered. -/
def State.mayPark (s : State) (n : Nat) : Bool :=
  (s.link n).held.isEmpty && (s.link n).out.isEmpty && !(s.reqs.any fun r => r.link == n)

/-- The first message of the inbox, when it is a link control message with the given code (R59). -/
def LinkSt.control (L : LinkSt) (code : Nat) : Option Payload :=
  match L.inbox with
  | (5, p) :: _ => if p.at 0 1 = 1 ∧ p.at 1 1 = code then some p else none
  | _ => none

/-- Take the first entry of the inbox out. -/
def State.popInbox (s : State) (n : Nat) : State := s.modLink n fun L => { L with inbox := L.inbox.tail }

/-- R59: an answer with another code and a copy of bytes 4-15. -/
def State.answerControl (s : State) (n code : Nat) (p : Payload) : State :=
  s.sendMgmt n (payload [(0, 1, 1), (1, 1, code), (4, 12, p.at 4 12)])

/-- R47: a PARK is received. -/
def execPark (l : Link) (s : State) : Host.Outcome State Fault Refusal :=
  let n := l.val
  match (s.link n).control 6 with
  | none => .next s
  | some p =>
    let s := s.popInbox n
    let target := p.at 4 1
    let ok := s.linkState n == lsOpen && s.mayPark n && (target == 4 || target == 5) &&
      decide (s.epoch + 4 ≤ p.at 8 8) && (target == 4 || s.fb (F.LNK_PM_sleep_allow n))
    if ok then .next ((s.modLink n fun L => { L with parkIn := some ⟨target, p.at 8 8, true, false⟩ }).answerControl n 7 p)
    else .next (s.answerControl n 8 p)

/-- The outstanding PARK that an answer copies. -/
def LinkSt.parkMatch (L : LinkSt) (p : Payload) : Bool :=
  match L.parkOut with
  | some k => k.target == p.at 4 1 && k.epoch == p.at 8 8
  | none => false

/-- R47: a PARK_ACK is received; one that answers no PARK has no effect. -/
def execParkAck (l : Link) (s : State) : Host.Outcome State Fault Refusal :=
  let n := l.val
  match (s.link n).control 7 with
  | none => .next s
  | some p =>
    if (s.link n).parkMatch p then
      .next ((s.popInbox n).modLink n fun L => { L with parkOut := L.parkOut.map fun k => { k with acked := true } })
    else .next (s.popInbox n)

/-- R47: a PARK_NAK is received; a park that R500 or R501 forces goes on. -/
def execParkNak (l : Link) (s : State) : Host.Outcome State Fault Refusal :=
  let n := l.val
  match (s.link n).control 8 with
  | none => .next s
  | some p =>
    if (s.link n).parkMatch p then
      .next ((s.popInbox n).modLink n fun L => { L with parkOut := L.parkOut.filter (·.forced) })
    else .next (s.popInbox n)

/-- The park that takes effect at this boundary. -/
def LinkSt.parkDue (L : LinkSt) (epoch : Nat) : Option ParkX :=
  match L.parkIn.filter (fun k => k.acked && k.epoch == epoch) with
  | some k => some k
  | none => L.parkOut.filter fun k => (k.acked || k.forced) && k.epoch == epoch

/-- R47, R500, R501: the boundary named in an acknowledged or forced PARK. An unforced park needs both buffers empty
still; otherwise it lapses. -/
def execParkEntry (l : Link) (s : State) : Host.Outcome State Fault Refusal :=
  let n := l.val
  match (s.link n).parkDue s.epoch with
  | none => .next s
  | some k =>
    if !s.atBoundary then .next s
    else if (k.forced && s.linkState n == lsVestibule) || (s.linkState n == lsOpen && s.mayPark n) then
      .next (((s.leaveLink n k.target).setLinkState n k.target).coolPhy n)
    else .next (s.modLink n fun L => { L with parkOut := none, parkIn := none })

/-- R47: `doze_idle` epochs without traffic, and the device asks for DOZE at epoch `e`. -/
def execAutoDoze (l : Link) (e : BitVec 64) (s : State) : Host.Outcome State Fault Refusal :=
  let n := l.val
  let lim := s.fv (F.LNK_PM_doze_idle n)
  if s.linkState n == lsOpen && s.fb (F.LNK_PM_auto_doze n) && lim != 0 && decide (lim < (s.link n).idle) && s.mayPark n &&
      (s.link n).parkOut.isNone && (s.link n).parkIn.isNone && decide (s.epoch + 4 < e.toNat) then
    .next ((s.modLink n fun L => { L with parkOut := some ⟨4, e.toNat, false, false⟩ }).sendMgmt n
      (payload [(0, 1, 1), (1, 1, 6), (4, 1, 4), (8, 8, e.toNat)]))
  else .next s

/-- R53: a woken SLEEP link starts its short retrain. -/
def State.shortRetrain (s : State) (n : Nat) : State :=
  let s := ((s.inc (F.LNK_CNT_RETRAIN_count n)).setF (F.LNK_STATUS_train_step n) 0).setLinkState n lsTraining
  (s.modLink n fun L =>
    { L with short := true, fresh := false, waking := false, woken := true, eyeMin := s.fv (F.LNK_TRAIN_eye_min n) }).coolPhy n

/-- R48, R53: the other end's clock restarts. A wake in the epoch before a park's boundary wins over the park; in
RETENTION it starts the exit, or undoes the entry, when link_wake allows it (R502, R516), and while the device still drains a
link of COOL that sleeps retrains at once. -/
def execLinkWake (l : Link) (s : State) : Host.Outcome State Fault Refusal :=
  let n := l.val
  let st := s.linkState n
  if s.mode == 4 && !(s.pwr.drain.isSome && (st == lsSleep || st == lsOpen)) then
    if s.fb F.PWR_CTL_link_wake then
      .next (if st == lsSleep then s.wake.modLink n fun L => { L with waking := true } else s.wake)
    else .next s
  else if st == lsDoze then .next (s.modLink n fun L => { L with waking := true })
  else if st == lsSleep then .next (s.shortRetrain n)
  else if st == lsOpen then
    .next (s.modLink n fun L =>
      { L with parkIn := L.parkIn.filter (fun k => k.epoch != s.epoch + 1), parkOut := L.parkOut.filter fun k => k.epoch != s.epoch + 1 })
  else .next s

/-! ### Training (R50-R55) -/

/-- The device's receivers are enabled (R50): from boot phase LINKS on. -/
def State.receiversOn (s : State) : Bool := (5 ≤ s.pwr.phase && s.pwr.phase ≤ 7) || s.pwr.phase == 0x0E

/-- The link is held in DOWN: by LNK_CTL, containment (R425), a PHY domain in FAULT (R506), the start-up tests (R411), or a
test of it or its quadrant (R413). -/
def State.linkBarred (s : State) (n : Nat) : Bool :=
  s.fb (F.LNK_CTL_hold_down n) || s.isContained (.link n) || s.domain (65 + n) == 3 || s.bst.downLinks.contains n ||
  s.bst.runs.any fun r => (r.kind == 0x11 && r.a == n) || (r.kind == 0x12 && r.a == n / 4)

/-- R50: the host drives its forwarded clock and TRAIN flits. -/
def execTrainingStart (l : Link) (s : State) : Host.Outcome State Fault Refusal :=
  let n := l.val
  if s.linkState n == lsDown then
    if s.receiversOn && !s.halted && !s.linkBarred n && !(s.link n).backoff &&
        (s.fv F.CLK_STATUS_pll_lock).testBit (n / 4) then
      .next (((s.setF (F.LNK_STATUS_train_step n) 0).setLinkState n lsTraining).modLink n fun L =>
        { L with short := false, fresh := true, eyeMin := s.fv (F.LNK_TRAIN_eye_min n) })
    else .next s
  else .next (s.retrainAny n)

/-- R50, R51: the other end's clock stops for 64 UI or more. -/
def execForwardedClockStop (l : Link) (s : State) : Host.Outcome State Fault Refusal :=
  let n := l.val
  if s.linkState n == lsTraining then
    .next ((s.setF (F.LNK_STATUS_train_step n) 0).modLink n fun L => { L with short := false })
  else .next (s.retrainAny n)

/-- R51, R54: training fails: DOWN, the cause in last_fail, and the back-off. -/
def State.trainFail (s : State) (n cause : Nat) : State :=
  (((s.linkDown n).setF (F.LNK_STATUS_last_fail n) cause).modLink n fun L => { L with backoff := true }).raise (Src.trainFail n) n

/-- The lanes that a direction's spares replace, in spare order: (spare, lane, source). -/
def State.assigned (s : State) (n : Nat) (outbound : Bool) : List (Nat × Nat × Nat) :=
  let w := if outbound then s.live.val (R.LNK_REPAIR_OUT n) else s.live.val (R.LNK_REPAIR_IN n)
  (if w.field 7 1 = 1 then [(0, w.field 0 7, w.field 8 2)] else []) ++
  (if w.field 17 1 = 1 then [(1, w.field 10 7, w.field 18 2)] else [])

/-- Give a spare (0 A, 1 B) of a direction to a lane, with its source (R62). -/
def State.setSpare (s : State) (n : Nat) (outbound : Bool) (spare lane src : Nat) : State :=
  let a := if outbound then R.LNK_REPAIR_OUT n else R.LNK_REPAIR_IN n
  let w := s.live.val a
  let o := if spare = 0 then 0 else 10
  let w := (((w.setField o 7 lane).setField (o + 7) 1 1).setField (o + 8) 2 src)
  let s := { s with live := s.live.put a w }
  if (s.assigned n outbound).length = 2 then
    s.setF (if outbound then F.LNK_STATUS_spares_out_exhausted n else F.LNK_STATUS_spares_in_exhausted n) 1
  else s

/-- The lowest free spare of a direction. -/
def State.freeSpare (s : State) (n : Nat) (outbound : Bool) : Option Nat :=
  let used := (s.assigned n outbound).map (·.1)
  if !used.contains 0 then some 0 else if !used.contains 1 then some 1 else none

/-- R55: the lanes that REPAIR_VERT lists for a direction of a link (R453). -/
def State.fuseLanes (s : State) (n : Nat) (outbound : Bool) : List Nat :=
  (s.cst.vertRecs.filter fun r =>
    r.field 30 2 == 1 && r.field 26 4 == n && (r.field 25 1 == 1) == outbound).map fun r => r.field 0 7

/-- R55, step T2: assign spares to the lanes of `lanes` not yet repaired, with source `src`, while a spare is free;
the lanes that find none are returned. -/
def State.assignLanes (n : Nat) (outbound : Bool) (src : Nat) : List Nat → State → State × List Nat
  | [], s => (s, [])
  | k :: ks, s =>
    if (s.assigned n outbound).any (fun a => a.2.1 == k) then State.assignLanes n outbound src ks s
    else match s.freeSpare n outbound with
      | some sp => State.assignLanes n outbound src ks (s.setSpare n outbound sp k src)
      | none =>
        let (s', left) := State.assignLanes n outbound src ks s
        (s', k :: left)

/-- T2 for one direction: Cornerstone lanes, lanes repaired before (kept), then weak lanes (R55). The lanes of the
Cornerstone beyond the spares are counted in CST_SKIPPED at the link's first training (R453). -/
def State.assignDir (s : State) (n : Nat) (outbound : Bool) (weak : List Nat) : State × List Nat :=
  let (s, extra) := State.assignLanes n outbound 0 (s.fuseLanes n outbound) s
  let s := if (s.link n).fuseCounted then s else s.addF F.CST_CNT_SKIPPED_count extra.length
  State.assignLanes n outbound 1 weak s

/-- The lanes an observation finds below eye_min, as it stood when the training began (R62). -/
def State.weakOf (s : State) (n : Nat) (eye : List (Lane × BitVec 8)) : List Nat :=
  (eye.filter fun e => decide (e.2.toNat < (s.link n).eyeMin)).map fun e => e.1.val

/-- The decision lanes T4 or S2 found usable (R32). -/
def State.setDecision (s : State) (n : Nat) (d0 d1 : Bool) : State :=
  let s := (s.modLink n fun L => { L with d0 := d0, d1 := d1 }).setF (F.LNK_STATUS_decide_single n) (if d0 != d1 then 1 else 0)
  if !d0 && !d1 then s.raise (Src.decideLost n) n
  else if d0 != d1 then s.raise (Src.singleDecide n) n else s

/-- The end of training: the vestibule state (R52, R53); sequence numbers start at 0 after training from DOWN (R19). -/
def State.trained (s : State) (n : Nat) : State :=
  let s := s.modLink n fun L =>
    if L.fresh then
      { L with rxE := 0, rxAny := false, rxDiscard := false, txSeq := 0, held := [], replayQ := [], fresh := false, short := false }
    else { L with short := false }
  (s.setLinkState n lsVestibule).pump n

def State.setTrainStep (s : State) (n k : Nat) : State := s.setF (F.LNK_STATUS_train_step n) k

/-- R51: a training step completes; with `tie`, in the cycle of its timeout (R52). -/
def execTrainStepDone (l : Link) (obs : TrainObs) (tie : Bool) (s : State) : Host.Outcome State Fault Refusal :=
  let n := l.val
  if s.linkState n != lsTraining || (s.link n).short then .next s
  else
    let s := s.when tie fun s => s.inc (F.LNK_CNT_NEARMISS_count n)
    let k := s.fv (F.LNK_STATUS_train_step n)
    if !obs.wellFormed then .next (s.trainFail n 7)
    else match k with
      | 0 => .next (s.setTrainStep n 1)
      | 1 =>
        if !obs.centred then .next (s.trainFail n 2)
        else .next ((s.setTrainStep n 2).modLink n fun L => { L with weakIn := s.weakOf n obs.eyeIn })
      | 2 =>
        let (s, leftIn) := s.assignDir n false (s.link n).weakIn
        let (s, leftOut) := s.assignDir n true (s.weakOf n obs.eyeOut)
        let s := s.modLink n fun L => { L with fuseCounted := true }
        if leftIn.isEmpty && leftOut.isEmpty then .next (s.setTrainStep n 3)
        else .next ((s.trainFail n 3).raise (Src.sparesExhausted n) n)  -- R63 (log 88)
      | 3 => if obs.aligned then .next (s.setTrainStep n 4) else .next (s.trainFail n 4)
      | 4 => .next ((s.setDecision n obs.d0 obs.d1).setTrainStep n 5)
      | _ => if obs.gradeOk then .next (s.trained n) else .next (s.trainFail n 5)

/-- R51, R54: a training step reaches its own timeout. T0, T1 and T3 have their causes in R54; the spec gives none for a
timeout of T2, T4 or T5, whose cause is a free value. -/
def execTrainStepTimeout (l : Link) (s : State) : Host.Outcome State Fault Refusal :=
  let n := l.val
  if s.linkState n != lsTraining || (s.link n).short then .next s
  else match s.fv (F.LNK_STATUS_train_step n) with
    | 0 => .next (s.trainFail n 1)
    | 1 => .next (s.trainFail n 2)
    | 3 => .next (s.trainFail n 4)
    | _ => let (v, s) := s.takeFree; .next (s.trainFail n v)

/-- R51: LNK_TRAIN.timeout expires; it bounds the whole sequence, a short retrain included. -/
def execTrainTotalTimeout (l : Link) (s : State) : Host.Outcome State Fault Refusal :=
  if s.linkState l.val == lsTraining then .next (s.trainFail l.val 6) else .next s

/-- R51: LNK_TRAIN.backoff runs out. -/
def execTrainBackoffExpiry (l : Link) (s : State) : Host.Outcome State Fault Refusal :=
  .next (s.modLink l.val fun L => { L with backoff := false })

/-- A short retrain goes on from T0 as a full training (R53). -/
def State.shortToFull (s : State) (n : Nat) : State := (s.setTrainStep n 0).modLink n fun L => { L with short := false }

/-- R53: a short-retrain step completes; train_step reads 0, 1, 4 and 5 in S0 to S3. A step that finds a fault goes on as
a full training. -/
def execShortRetrainStepDone (l : Link) (obs : TrainObs) (tie : Bool) (s : State) : Host.Outcome State Fault Refusal :=
  let n := l.val
  if s.linkState n != lsTraining || !(s.link n).short then .next s
  else
    let s := s.when tie fun s => s.inc (F.LNK_CNT_NEARMISS_count n)
    if !obs.wellFormed then .next (s.shortToFull n)
    else match s.fv (F.LNK_STATUS_train_step n) with
      | 0 => .next (s.setTrainStep n 1)
      | 1 => if obs.centred then .next (s.setTrainStep n 4) else .next (s.shortToFull n)
      | 4 => .next ((s.setDecision n obs.d0 obs.d1).setTrainStep n 5)
      | _ => if obs.gradeOk then .next (s.trained n) else .next (s.shortToFull n)

/-- R53: a short-retrain step fails or times out. -/
def execShortRetrainTimeout (l : Link) (s : State) : Host.Outcome State Fault Refusal :=
  if s.linkState l.val == lsTraining && (s.link l.val).short then .next (s.shortToFull l.val) else .next s

/-! ### Lane repair (R56-R58) -/

/-- The REPAIR message of an exchange (R59). -/
def repairMsg (code : Nat) (x : RepairX) : Payload :=
  payload [(0, 1, 1), (1, 1, code), (4, 1, if x.outbound then 1 else 0), (5, 1, x.spare), (6, 1, x.lane), (8, 8, x.epoch)]

/-- R57: the receiver asks for a repair: of the lane whose count called for it, or of the lane that software named in
LNK_REPAIR_REQ; epoch `e` is the one the device names, at least 8 ahead. A spare that another exchange has named is not named
again. -/
def execLaneRepairRequest (l : Link) (lane : Lane) (e : BitVec 64) (s : State) : Host.Outcome State Fault Refusal :=
  let n := l.val
  let sw := s.fb (F.LNK_REPAIR_REQ_go n) && s.fv (F.LNK_REPAIR_REQ_lane n) == lane.val
  let dir := sw && s.fb (F.LNK_REPAIR_REQ_dir n)
  if s.linkTalks n && (sw || (s.link n).laneReq.contains lane.val) && decide (s.epoch + 8 ≤ e.toNat) &&
      !((s.link n).repairs.any fun x => x.outbound == dir) then
    let s := s.when sw fun s => s.setF (F.LNK_REPAIR_REQ_go n) 0
    match s.freeSpare n dir with
    | none => .next s
    | some sp =>
      let x : RepairX := ⟨dir, sp, lane.val, e.toNat, false, true⟩
      .next ((s.modLink n fun L =>
        { L with repairs := L.repairs ++ [x], laneReq := if sw then L.laneReq else L.laneReq.filter (· ≠ lane.val) }).sendMgmt n (repairMsg 3 x))
  else .next s

/-- R62: repair_pending: a REPAIR is acknowledged and its epoch not yet reached. -/
def State.showPending (s : State) (n : Nat) : State :=
  s.setF (F.LNK_STATUS_repair_pending n) (if (s.link n).repairs.any (·.acked) then 1 else 0)

/-- R57: a REPAIR is received. Beside the NAK that R57 gives for a spare that is assigned, a REPAIR that names no spare or no
lane, or a spare that an acknowledged exchange has named, gets one too; its epoch is not judged (log 89). -/
def execRepair (l : Link) (s : State) : Host.Outcome State Fault Refusal :=
  let n := l.val
  match (s.link n).control 3 with
  | none => .next s
  | some p =>
    let s := s.popInbox n
    let x : RepairX := ⟨p.at 4 1 == 1, p.at 5 1, p.at 6 1, p.at 8 8, true, false⟩
    let bad := decide (1 < x.spare) || decide (69 < x.lane) || ((s.assigned n x.outbound).any fun a => a.1 == x.spare) ||
      (s.link n).repairs.any fun y => y.acked && y.outbound == x.outbound && y.spare == x.spare
    if bad then .next (s.answerControl n 5 p)
    else .next (((s.modLink n fun L => { L with repairs := L.repairs ++ [x] }).showPending n).answerControl n 4 p)

/-- An answer copies the REPAIR of an exchange that this end began and that has no answer yet. -/
def RepairX.answers (x : RepairX) (p : Payload) : Bool := x.mine && !x.acked && p.at 4 12 == (repairMsg 3 x).at 4 12

/-- R57: a REPAIR_ACK is received; one that comes in epoch E - 2 or later, or that answers no REPAIR, has no effect. -/
def execRepairAck (l : Link) (s : State) : Host.Outcome State Fault Refusal :=
  let n := l.val
  match (s.link n).control 4 with
  | none => .next s
  | some p =>
    .next (((s.popInbox n).modLink n fun L =>
      { L with repairs := L.repairs.map fun x =>
          if x.answers p && decide (s.epoch + 2 < x.epoch) then { x with acked := true } else x }).showPending n)

/-- R57: a REPAIR_NAK is received. -/
def execRepairNak (l : Link) (s : State) : Host.Outcome State Fault Refusal :=
  let n := l.val
  match (s.link n).control 5 with
  | none => .next s
  | some p => .next ((s.popInbox n).modLink n fun L => { L with repairs := L.repairs.filter fun x => !x.answers p })

/-- R57: the boundary that starts epoch E: both ends move the lane onto the spare. -/
def execLaneRepairSwitch (l : Link) (s : State) : Host.Outcome State Fault Refusal :=
  let n := l.val
  let due (x : RepairX) : Bool := x.acked && x.epoch == s.epoch
  if s.atBoundary && (s.link n).repairs.any due then
    let xs := (s.link n).repairs.filter due
    let s := (s.modLink n fun L => { L with repairs := L.repairs.filter fun x => !due x }).showPending n
    .next (xs.foldl (fun (s : State) x => (s.setSpare n x.outbound x.spare x.lane 2).raise (Src.laneRepair n) n) s)
  else .next s

/-- R57: no REPAIR_ACK before epoch E - 2. -/
def execRepairAckTimeout (l : Link) (s : State) : Host.Outcome State Fault Refusal :=
  let late (x : RepairX) : Bool := x.mine && !x.acked && decide (x.epoch ≤ s.epoch + 2)
  .next (s.modLink l.val fun L => { L with repairs := L.repairs.filter fun x => !late x })

/-- R56, R57: the epoch that ended mirrored inbound lane (epoch mod 70); `m` mismatches were seen. The window of lane_thresh is
a fixed one: its counts begin again together, and a clear of the lane errors leaves them (log 90). -/
def State.laneMonitor (s : State) (n m : Nat) : State :=
  if s.linkTalks n && (s.freeSpare n false).isSome then
    let lane := s.epoch % 70
    let lim := max 1 (s.fv (F.LNK_MON_window n)) * 1024 * 70
    s.modLink n fun L =>
      let win := natAdd L.laneWin lane m
      let ask := decide (s.fv (F.LNK_MON_lane_thresh n) ≤ natGet win lane) || decide (s.fv (F.LNK_MON_hard_thresh n) ≤ m)
      { L with
        laneErr := natSet L.laneErr lane (satAdd 32 (natGet L.laneErr lane) m)
        laneWin := if lim ≤ L.monEpochs + 1 then [] else win
        monEpochs := if lim ≤ L.monEpochs + 1 then 0 else L.monEpochs + 1
        laneReq := if ask && !L.laneReq.contains lane then L.laneReq ++ [lane] else L.laneReq }
  else s

/-! ### Decision queries and events -/

/-- The vector of a frame in a history. -/
def histFind (h : List (Nat × BitVec 16)) (f : Nat) : Option (BitVec 16) := (h.find? fun e => e.1 == f).map (·.2)

/-- R30: the answer for one frame: the frozen history while it is kept, then the running one. -/
def LinkSt.decision (L : LinkSt) (f : Nat) : Option (BitVec 16) :=
  match L.frozen with
  | some fz => (histFind fz f).orElse fun _ => histFind L.hist f
  | none => histFind L.hist f

/-- The DREPLY of R59 for `count` frames from `first`. -/
def dreply (L : LinkSt) (first count : Nat) : Payload :=
  let fs := (List.range count).map fun i => L.decision ((first + i) % 4096)
  let unknown := (List.range count).foldl (fun u i => if (fs.getD i none).isNone then u ||| (1 <<< i) else u) 0
  payload ([(0, 1, 1), (1, 1, 2), (4, 2, first), (6, 1, count), (8, 2, unknown)] ++
    (List.range count).map fun i => (10 + 2 * i, 2, ((fs.getD i none).getD 0).toNat))

/-- R30, R59: a DQUERY is received; a count of 0 acts as 1 and above 16 as 16. -/
def execDquery (l : Link) (s : State) : Host.Outcome State Fault Refusal :=
  let n := l.val
  match (s.link n).control 1 with
  | none => .next s
  | some p =>
    let count := max 1 (min 16 (p.at 6 1))
    .next (((s.popInbox n).sendMgmt n (dreply (s.link n) (p.at 4 2 % 4096) count)).inc (F.LNK_CNT_DQUERY_count n))

/-- R30: the first 64 frames of OPEN after a freeze have passed. -/
def execHistoryDiscard (l : Link) (s : State) : Host.Outcome State Fault Refusal :=
  if s.linkState l.val == lsOpen && decide (64 ≤ (s.link l.val).frozenFrames) then
    .next (s.modLink l.val fun L => { L with frozen := none, frozenFrames := 0 })
  else .next s

/-- The EVENT_LOST flit of R61. -/
def evLostFlit (r : EvLost) : Payload :=
  payload [(0, 2, 0x0101), (3, 1, r.severity), (4, 8, r.epoch), (12, 4, r.count), (16, 2, r.first), (18, 2, r.last), (20, 8, r.lastEpoch)]

/-- R61: the queue in sending order, the kept EVENT_LOST record in the place of the first event it records. -/
def eventOrder (q : List Payload) : Option EvLost → List Payload
  | none => q
  | some r => q.take r.ahead ++ [evLostFlit r] ++ q.drop r.ahead

/-- R60, R61: while the event link is OPEN and delivery is enabled, the queued events are sent in order, each with the
event port's sub-port in byte 2. -/
def execEventDelivery (s : State) : Host.Outcome State Fault Refusal :=
  let port := s.fv F.LNK_EVTPORT_port
  let n := port / 4
  if s.linkState n == lsOpen && s.fb F.LNK_EVTPORT_enable && s.fb (F.LNK_CTL_enable n) then
    let fl := (eventOrder s.evq s.evLost).map fun p => p ||| payload [(2, 1, port % 4)]
    .next (fl.foldl (fun s p => s.sendFlit n 6 p) { s with evq := [], evLost := none, flt := { s.flt with queued := 0 } })
  else .next s

/-! ### Write data -/

/-- The oldest request of a link that waits for data takes a flit. -/
def giveData (n frame : Nat) (p : Payload) : List Req → List Req
  | [] => []
  | r :: rs =>
    if r.link == n && decide (r.data.length < r.need) then { r with data := r.data ++ [p], ready := frame } :: rs
    else r :: giveData n frame p rs

/-- The oldest request of a link that waits for data. -/
def State.awaiting (s : State) (n : Nat) : Option Req := s.reqs.find? fun r => r.link == n && decide (r.data.length < r.need)

/-- R24: the data of a write is late, counted once. -/
def State.markLate (s : State) (r : Req) : State :=
  if r.late then s
  else
    let s := { s with reqs := s.reqs.map fun (q : Req) => if q.port == r.port && q.tag == r.tag then { q with late := true } else q }
    s.inc (F.LNK_CNT_WDLATE_count r.link)

/-- R23, R24, R98: a WDATA flit is matched to the oldest accepted write whose data is incomplete; one that none awaits is
discarded and raises stray_wdata. -/
def execWdata (l : Link) (s : State) : Host.Outcome State Fault Refusal :=
  let n := l.val
  match (s.link n).inbox with
  | (2, p) :: _ =>
    let s := s.popInbox n
    match s.awaiting n with
    | none => .next (s.raise (Src.port 3 (n / 4)) n)
    | some r =>
      let s := s.when (decide (r.frame + 16 < s.absFrame) && r.data.length + 1 == r.need) fun s => s.markLate r
      .next { s with reqs := giveData n s.absFrame p s.reqs }
  | _ => .next s

/-- R24: the 16-frame limit of a write expires with its data incomplete. -/
def execWdataLate (p : Port) (tag : BitVec 9) (s : State) : Host.Outcome State Fault Refusal :=
  match s.reqs.find? fun r => r.port == p.val && r.tag == tag.toNat && decide (r.data.length < r.need) && decide (r.frame + 16 < s.absFrame) with
  | none => .next s
  | some r => .next (s.markLate r)

end Sys2Proof.Machine
end

