-- ==== Sys2Proof/Machine/Operands.lean ====
section
/-! DEFINITION. Operand forms: the request header and its fields (R64), when a header is malformed (R67), how much data
it carries (R68), the DRAM address maps (R141, R142), alignment and masks (R70, R71), and the slots and banks a request
uses (R160, R186). -/

namespace Sys2Proof.Machine

/-- The fields of a request header (R64). -/
structure Hdr where
  op : Nat
  sub : Nat
  tag : Nat
  len : Nat
  flags : Nat
  addr : Nat
  operand : Nat
deriving DecidableEq, Repr

/-- A header from its 16 bytes as a number: word 0 in the low 64 bits. -/
def Hdr.ofNat (h : Nat) : Hdr :=
  let w := h % 2 ^ 64
  ⟨w >>> 58, (w >>> 56) % 4, (w >>> 47) % 512, (w >>> 44) % 8, (w >>> 40) % 16, w % 2 ^ 40, h >>> 64⟩

/-! Opcodes (R69). -/
def opRD : Nat := 0x01
def opWR : Nat := 0x02
def opWRM : Nat := 0x03
def opLRD : Nat := 0x04
def opLWR : Nat := 0x05
def opLWRM : Nat := 0x06
def opFENCE : Nat := 0x08
def opTQUERY : Nat := 0x09
def opCADD64 : Nat := 0x10
def opCADDPB : Nat := 0x11
def opCADDD32 : Nat := 0x12
def opCRD : Nat := 0x13
def opCRDCLR : Nat := 0x14
def opCFLUSH : Nat := 0x15
def opPOL : Nat := 0x18
def opHLK : Nat := 0x20
def opHINS : Nat := 0x21
def opHDEL : Nat := 0x22
def opLPM : Nat := 0x24
def opENQ : Nat := 0x28
def opDEQ : Nat := 0x29
def opQSTAT : Nat := 0x2A

def opcodes : List Nat :=
  [opRD, opWR, opWRM, opLRD, opLWR, opLWRM, opFENCE, opTQUERY, opCADD64, opCADDPB, opCADDD32, opCRD, opCRDCLR, opCFLUSH, opPOL,
   opHLK, opHINS, opHDEL, opLPM, opENQ, opDEQ, opQSTAT]

/-- The flags bits R69 defines for an opcode. -/
def flagsMask (op : Nat) : Nat :=
  if op = opCADD64 ∨ op = opCADDPB ∨ op = opCADDD32 ∨ op = opPOL then 0xB
  else if op = opCRD ∨ op = opCRDCLR then 8
  else if op = opCFLUSH ∨ op = opLPM then 1
  else 0

/-- The operand bits R69 defines for an opcode; every other operand bit is reserved. -/
def operandMask (op flags : Nat) : Nat :=
  if op = opWRM ∨ op = opLWRM ∨ op = opCADD64 ∨ op = opCADDPB ∨ op = opCADDD32 then 2 ^ 64 - 1
  else if op = opTQUERY then 2 ^ 9 - 1
  else if op = opPOL then 2 ^ 32 - 1
  else if op = opHLK ∨ op = opHINS ∨ op = opHDEL then 2 ^ 6 - 1
  else if op = opLPM then (if flags.testBit 0 then 0xF else 0xFFFFFFFF0000000F)
  else if op = opENQ then 2 ^ 27 - 1
  else if op = opDEQ ∨ op = opQSTAT then 2 ^ 18 - 1
  else 0

/-- The opcode takes an address (R69: every opcode but HLK, HINS, HDEL, LPM, ENQ, DEQ, QSTAT, FENCE and TQUERY). -/
def takesAddr (op : Nat) : Bool :=
  (op != 0 && decide (op ≤ 6)) || (decide (0x10 ≤ op) && decide (op ≤ 0x15)) || op == opPOL

/-- R67. -/
def Hdr.malformed (h : Hdr) : Bool :=
  !opcodes.contains h.op ||
  (h.len != 0 && !(h.op == opRD || h.op == opWR || h.op == opLRD || h.op == opLWR)) ||
  (h.flags ||| flagsMask h.op) != flagsMask h.op ||
  (flagsMask h.op == 0xB && h.flags % 4 == 3) ||
  (h.addr != 0 && !takesAddr h.op) ||
  (h.operand ||| operandMask h.op h.flags) != operandMask h.op h.flags

/-- R68: the WDATA flits a header carries, from its opcode, len and flags alone. -/
def dataFlits (op len flags : Nat) : Nat :=
  if op = opWR ∨ op = opLWR then len + 1
  else if op = opWRM ∨ op = opLWRM ∨ op = opHLK ∨ op = opHINS ∨ op = opHDEL then 1
  else if op = opLPM then (if flags.testBit 0 then 1 else 0)
  else if op = opENQ then 4
  else 0

/-! ### DRAM addresses -/

/-- The user capacity: 96 GiB (R4). -/
def dramTop : Nat := 0x1800000000

/-- A burst's place in the array (R136). -/
structure Loc where
  ch : Nat
  bank : Nat
  row : Nat
  col : Nat
deriving DecidableEq, Repr

/-- Bits `lo + w - 1 : lo` of a number. -/
def bits (x lo w : Nat) : Nat := (x >>> lo) % 2 ^ w

/-- R142: zone `z`, offset `o`, under a map order. -/
def mapOrder (order z o : Nat) : Loc :=
  match order with
  | 0 => ⟨bits o 6 5, 8 * bits o 16 2 + bits o 18 3, 2048 * z + bits o 21 11, bits o 11 5⟩
  | 1 => ⟨bits o 8 5, 8 * bits o 16 2 + bits o 18 3, 2048 * z + bits o 21 11, 4 * bits o 13 3 + bits o 6 2⟩
  | 2 => ⟨bits o 11 5, 8 * bits o 6 2 + bits o 8 3, 2048 * z + bits o 21 11, bits o 16 5⟩
  | _ => ⟨bits o 27 5, 8 * bits o 11 2 + bits o 13 3, 2048 * z + bits o 16 11, bits o 6 5⟩

/-- The place of a DRAM address under the zone orders of a configuration (R141). -/
def dramLoc (cfg : RegMap) (addr : Nat) : Loc :=
  mapOrder (cfg.fv (F.MAP_ZONE_order (addr >>> 32))) (addr >>> 32) (addr % 2 ^ 32)

/-- The address that a place has under a map order: the inverse of R142. -/
def unmapOrder (order : Nat) (l : Loc) : Nat :=
  let z := l.row / 2048
  let r := l.row % 2048
  let bg := l.bank / 8
  let b := l.bank % 8
  2 ^ 32 * z + (match order with
    | 0 => l.ch * 2 ^ 6 + l.col * 2 ^ 11 + bg * 2 ^ 16 + b * 2 ^ 18 + r * 2 ^ 21
    | 1 => l.ch * 2 ^ 8 + l.col / 4 * 2 ^ 13 + l.col % 4 * 2 ^ 6 + bg * 2 ^ 16 + b * 2 ^ 18 + r * 2 ^ 21
    | 2 => l.ch * 2 ^ 11 + l.col * 2 ^ 16 + bg * 2 ^ 6 + b * 2 ^ 8 + r * 2 ^ 21
    | _ => l.ch * 2 ^ 27 + l.col * 2 ^ 6 + bg * 2 ^ 11 + b * 2 ^ 13 + r * 2 ^ 16)

/-- The DRAM address of a place under a configuration's zone orders. -/
def dramAddr (cfg : RegMap) (l : Loc) : Nat := unmapOrder (cfg.fv (F.MAP_ZONE_order (l.row / 2048))) l

/-- The index of a bank in the whole stack. -/
def Loc.stackBank (l : Loc) : Nat := 32 * l.ch + l.bank

/-- Rows of a bank in the model's memory: 49,152 of the user, 16 spares (R329), 16 weathervane rows (R374). -/
def rowsPerBank : Nat := 49184

/-- The memory word index of word `w` of the burst at a place (log 9). -/
def Loc.word (l : Loc) (w : Nat) : Nat := (((32 * l.ch + l.bank) * rowsPerBank + l.row) * 32 + l.col) * 8 + w

/-! ### Range, alignment and masks -/

/-- L of the counter and policer opcodes; CFLUSH has none. -/
def isL (op flags : Nat) : Bool := (decide (0x10 ≤ op) && decide (op ≤ 0x14) || op == opPOL) && flags.testBit 3

/-- The opcode's address is a DRAM address. -/
def toDram (op flags : Nat) : Bool :=
  op == opRD || op == opWR || op == opWRM || ((decide (0x10 ≤ op) && decide (op ≤ 0x14) || op == opPOL) && !flags.testBit 3) ||
  (op == opCFLUSH && !flags.testBit 0)

/-- The opcode's address is a scratchpad offset. -/
def toScratch (op flags : Nat) : Bool := op == opLRD || op == opLWR || op == opLWRM || isL op flags

/-- R70: alignment of the target, in bytes. -/
def alignOf (op flags : Nat) : Nat :=
  if op = opRD ∨ op = opWR ∨ op = opWRM ∨ op = opLRD ∨ op = opLWR ∨ op = opLWRM then 64
  else if 0x10 ≤ op ∧ op ≤ 0x14 then 8
  else if op = opPOL then 16
  else if op = opCFLUSH ∧ !flags.testBit 0 then 64
  else 1

/-- Bytes of the target, from the address. -/
def targetBytes (op len : Nat) : Nat :=
  if op = opRD ∨ op = opWR ∨ op = opLRD ∨ op = opLWR then 64 * (len + 1)
  else if op = opWRM ∨ op = opLWRM ∨ op = opCFLUSH then 64
  else if op = opPOL then 16
  else 8

/-- R71: a mask group is 0x00 or 0xFF in every 8 bits. -/
def maskWhole (m : Nat) : Bool := (List.range 8).all fun k => bits m (8 * k) 8 == 0 || bits m (8 * k) 8 == 0xFF

/-- The words that a whole mask covers. -/
def maskWords (m : Nat) : List Nat := (List.range 8).filter fun k => bits m (8 * k) 8 == 0xFF

/-- R70 and R71, as far as the header alone tells: a misaligned target or a narrow mask. -/
def misaligned (op flags addr operand : Nat) : Bool :=
  addr % alignOf op flags != 0 || ((op == opWRM || op == opLWRM) && !maskWhole operand)

/-- R93 for DRAM: any part of the range lies at or above 96 GiB. -/
def dramHole (op len flags addr : Nat) : Bool := toDram op flags && decide (dramTop < addr + targetBytes op len)

/-! ### Slots and activations -/

/-- A slot of a request: its execution epoch after the acceptance epoch, and its place. -/
structure Slot where
  after : Nat
  loc : Loc
deriving DecidableEq, Repr

/-- The slots of R160 that a request charges to its port's budgets. -/
def slotsOf (cfg : RegMap) (op len flags addr : Nat) : List Slot :=
  let burst (i : Nat) : Loc := dramLoc cfg (addr + 64 * i)
  if op = opRD then (List.range (len + 1)).map fun i => ⟨2, burst i⟩
  else if op = opWR then (List.range (len + 1)).map fun i => ⟨4, burst i⟩
  else if op = opWRM then [⟨4, burst 0⟩]
  else if op = opCRD ∧ !flags.testBit 3 then [⟨2, burst 0⟩]
  else if (op = opCADD64 ∨ op = opCADDPB ∨ op = opCADDD32 ∨ op = opCRDCLR ∨ op = opPOL) ∧ !flags.testBit 3 then
    [⟨2, burst 0⟩, ⟨3, burst 0⟩]
  else []

/-- The (bank of the stack, row) pairs a request touches, each once (R186). -/
def banksOf (slots : List Slot) : List (Nat × Nat) := ((slots.map fun x => (x.loc.stackBank, x.loc.row))).dedup

/-- The quota field a pooled opcode draws on (R182): 0 hlk, 1 lpm, 2 enq, 3 deq. -/
def quotaField (op dramLevels : Nat) : Option Nat :=
  if op = opHLK ∨ op = opHINS ∨ op = opHDEL then some 0
  else if op = opLPM then (if 1 ≤ dramLevels then some 1 else none)
  else if op = opENQ then some 2
  else if op = opDEQ then some 3
  else none

/-- The home tile of a port's hash and trie tables: 8q + (p mod 8) (R248). -/
def homeTile (p : Nat) : Nat := 8 * (p / 16) + p % 8

end Sys2Proof.Machine
end

