-- ==== Sys2Proof/Machine/Ecc.lean ====
section
/-! DEFINITION. The stored codeword (R304-R306), reads and writes of stored words with everything that follows a
correction (R308-R320, R325), and poison (R311-R314). -/

namespace Sys2Proof.Machine

/-! ### The code -/

/-- g(x) of R305 without its leading term: the product of the minimal polynomials of α and α³ over x⁷ + x³ + 1. -/
def bchPoly : Nat := 0x377

/-- One message bit through the division by g(x). -/
def bchBit (r : Nat) (b : Bool) : Nat :=
  let x := (2 * r) % 2 ^ 14
  if (r.testBit 13 != b) then x ^^^ bchPoly else x

/-- x¹⁴ · m(x) mod g(x) for the low `n` bits of `m` taken from the highest down. -/
def bchRem (m r : Nat) : Nat → Nat
  | 0 => r
  | n + 1 => bchRem m (bchBit r (m.testBit n)) n

/-- The parity of the low `n` bits of `x`: true when they hold an odd number of ones. -/
def oddBits (x : Nat) : Nat → Bool
  | 0 => false
  | n + 1 => (x.testBit n) != oddBits x n

/-- The codeword of 64 data bits and a poison bit (R304). -/
def encodeWord (data : DWord) (poison : Bool) : Codeword :=
  let m := data.toNat + (if poison then 2 ^ 64 else 0)
  let c := m + bchRem m 0 65 * 2 ^ 65
  BitVec.ofNat 80 (if oddBits c 79 then c + 2 ^ 79 else c)

/-- The syndrome of a codeword: the remainder of its 79 low bits, and its overall parity at bit 14; 0 for a valid one. -/
def syndrome (c : Nat) : Nat :=
  (bchRem (c % 2 ^ 65) 0 65 ^^^ ((c >>> 65) % 2 ^ 14)) + (if oddBits c 80 then 2 ^ 14 else 0)

/-- The syndromes of the 80 single-bit errors. -/
def unitSyndromes : List Nat := (List.range 80).map fun i => syndrome (2 ^ i)

/-- The positions outside the erasures at which an error gives syndrome `s`, with at most `t` errors. -/
def findErrors (er : List Nat) (t s : Nat) : Option (List Nat) :=
  if s = 0 then some []
  else
    let us := (unitSyndromes.zipIdx).filter fun u => !er.contains u.2
    match (if 1 ≤ t then us.find? fun u => u.1 == s else none) with
    | some u => some [u.2]
    | none =>
      if 2 ≤ t then
        us.findSome? fun u => (us.find? fun v => decide (u.2 < v.2) && (u.1 ^^^ v.1) == s).map fun v => [u.2, v.2]
      else none

/-- The ways to fill the erased positions. -/
def fillings (c : Nat) : List Nat → List Nat
  | [] => [c]
  | i :: is => (fillings c is).flatMap fun x => [x, x ^^^ 2 ^ i]

/-- The decoder's finding (R306). -/
inductive Decoded where
  /-- A valid word: data and poison bit, the positions corrected beyond the erasures, and whether an erased position
  was changed. -/
  | ok (word : Nat) (errs : List Nat) (erased : Bool)
  | bad
deriving DecidableEq, Repr

/-- R306: decode a codeword with erasures at the given positions: 2, 2 and 1 further errors for 0, 1 and 2 of them. -/
def decodeWord (c : Nat) (er : List Nat) : Decoded :=
  let t := if er.length ≤ 1 then 2 else 1
  let tries := (fillings c er).filterMap fun x => (findErrors er t (syndrome x)).map fun e => (x, e)
  match tries.find? (fun p => p.2.length == 0) with
  | some (x, _) => .ok (x % 2 ^ 65) [] (x != c)
  | none =>
    match tries.find? (fun p => p.2.length == 1) with
    | some (x, e) => .ok ((e.foldl (fun y i => y ^^^ 2 ^ i) x) % 2 ^ 65) e (x != c)
    | none =>
      match tries.head? with
      | some (x, e) => .ok ((e.foldl (fun y i => y ^^^ 2 ^ i) x) % 2 ^ 65) e (x != c)
      | none => .bad

/-! ### The line map -/

/-- R308: the line and beat on which bit `i` of codeword `w` of a burst travels. -/
def lineOf (w i : Nat) : Nat := 2 * i + w % 2
def beatOf (w i : Nat) : Nat := (w / 2 + 4 * i - i % 4 - 4 * (i / 4)) % 4

/-- R309: the erased positions of codeword `w` read over the riser of tile `t`. -/
def State.erasures (s : State) (t w : Nat) : List Nat :=
  let one (v l : Fld) : List Nat := if s.fb v && s.fv l % 2 == w % 2 then [s.fv l / 2] else []
  one (F.ECC_ERASE_a_valid t) (F.ECC_ERASE_a_line t) ++ one (F.ECC_ERASE_b_valid t) (F.ECC_ERASE_b_line t)

/-! ### Integrity records of a tile -/

def State.eccOf (s : State) (t : Nat) : EccSt := Tab.get (fun _ => {}) s.ecc t
def State.setEcc (s : State) (t : Nat) (v : EccSt) : State := { s with ecc := Tab.set (fun _ => {}) s.ecc t v }
def State.modEcc (s : State) (t : Nat) (f : EccSt → EccSt) : State := s.setEcc t (f (s.eccOf t))

/-- The status fields that count a tile's queue and table (R333). -/
def State.eccStatus (s : State) (t : Nat) : State :=
  let e := s.eccOf t
  (s.setF (F.ECC_STATUS_probe_q t) (e.probeQ.length + if e.probe.isSome then 1 else 0)).setF (F.ECC_STATUS_rec_used t) e.recs.length

/-- R317: the rounds of a probe. -/
def State.probeRounds (s : State) (t : Nat) : Nat := min 4 (max 1 (s.fv (F.ECC_PROBE_rounds t)))

/-- R329: spare entry `k` of a bank. -/
def State.spareAt (s : State) (ch bank k : Nat) : Remap := Tab.get (fun _ => {}) (s.eccOf ch).remap (16 * bank + k)

/-- The row that serves a user row of a bank when `maps` tells which spare entries stand in. -/
def State.rowBy (s : State) (maps : Remap → Bool) (ch bank row : Nat) : Nat :=
  match (List.range 16).find? fun k => let m := s.spareAt ch bank k; maps m && m.row == row with
  | some k => 49152 + k
  | none => row

/-- R329: the row that serves a user row of a bank: its spare row when it is remapped. -/
def State.physRow (s : State) (ch bank row : Nat) : Nat := s.rowBy (·.valid) ch bank row

/-- R329, R332: the row that serves a request accepted in an epoch: a remap's later switch does not move it. -/
def State.physRowAt (s : State) (accepted : Option Nat) (ch bank row : Nat) : Nat :=
  match accepted with
  | some e => s.rowBy (fun m => if e < m.since then !m.valid else m.valid) ch bank row
  | none => s.physRow ch bank row

/-- R409: a request accepted before the last switch of a spare entry is left. -/
def State.outlived (s : State) (m : Remap) : Bool := s.reqs.any fun r => decide (r.frame / 8 < m.since)

/-- R329, R409: the second row that takes the writes to a burst of a user row: of a remap in progress, for the bursts it has
copied, or the row that a remap has left, while a request accepted before its switch is left. -/
def State.mirrorRow (s : State) (ch bank row col : Nat) : Option Nat :=
  match s.remapRuns.find? fun r => r.ch == ch && r.bank == bank && r.row == row && decide (col < r.copied) with
  | some r => some (if r.unmap then row else 49152 + r.spare)
  | none => ((List.range 16).find? fun k => let m := s.spareAt ch bank k; m.row == row && decide (0 < m.since) && s.outlived m).map fun k =>
      if (s.spareAt ch bank k).valid then row else 49152 + k

/-- R328: the word's row or bank is retired. -/
def State.isRetired (s : State) (ch bank row : Nat) : Bool :=
  (s.eccOf ch).banks.contains bank || (s.eccOf ch).rows.contains (bank, row)

/-- The test that borrows a physical row, or copies it for that. -/
def TestRun.borrows (r : TestRun) (ch bank row : Nat) : Bool :=
  r.kind == 4 && r.a == ch && r.b == bank && r.c == row && !r.yielded && !r.restore

/-- R404-R406: a physical row is borrowed by a test, from the boundary after its last copy, or held. -/
def State.isBorrowed (s : State) (ch bank row : Nat) : Bool :=
  s.bst.held.contains (ch, bank, row) ||
  s.bst.runs.any fun r => r.borrows ch bank row && decide (1 ≤ r.stage) && (r.stage != 1 || decide (r.at_ ≤ s.epoch))

/-- R325: capture a log entry of a tile; a full queue loses it. -/
def State.capture (s : State) (t cls : Nat) (i : ErrInfo) : State :=
  if (s.eccOf t).capture.length < 16 then s.modEcc t fun e => { e with capture := e.capture ++ ([⟨0, cls, i⟩] : List LogEntry) }
  else (s.inc (F.ECC_CNT_LOGLOST_count t)).raise (Src.integrity 7 (t / 8)) t

/-- One more error of a burst that waits for its classes: one entry for each word, whose count adds up (R316). -/
def ProbeJob.add (j : ProbeJob) (i : ErrInfo) : ProbeJob :=
  { j with errs :=
      if j.errs.any fun k => k.word == i.word then j.errs.map fun k => if k.word = i.word then { k with count := k.count + i.count } else k
      else j.errs ++ [i] }

/-- The burst of a job. -/
def ProbeJob.burst (j : ProbeJob) : Nat × Nat × Nat := (j.bank, j.row, j.col)
def RecEntry.burst (r : RecEntry) : Nat × Nat × Nat := (r.bank, r.row, r.col)

/-- The error of a word that leaves the recurrence table, with its count. -/
def RecEntry.left (r : RecEntry) : ErrInfo := { r.info with count := r.count }

/-- A burst is queued or under probe. -/
def State.probing (s : State) (t bank row col : Nat) : Bool :=
  (((s.eccOf t).probe.toList ++ (s.eccOf t).probeQ).any fun j => decide (j.burst = (bank, row, col)))

/-- R316, R320: queue a burst for a probe with the errors that wait for their classes. A burst queued or under probe is not
queued twice, and the entries of its words leave the recurrence table. A full queue, or probe_en = 0, drops the burst: its
entries are class 4, and the Polisher's own finding is written back in its next maintenance slot (R322). -/
def State.queueBurst (s : State) (t bank row col : Nat) (errs : List ErrInfo) : State :=
  let e := s.eccOf t
  let b := (bank, row, col)
  let add (j : ProbeJob) : ProbeJob := if j.burst = b then errs.foldl ProbeJob.add j else j
  if s.probing t bank row col then (s.modEcc t fun e => { e with probe := e.probe.map add, probeQ := e.probeQ.map add }).eccStatus t
  else if s.isRetired t bank row then errs.foldl (fun s i => s.capture t 4 { i with flags := i.flags ||| 2 }) s
  else if s.fb (F.ECC_CTL_probe_en t) && decide (e.probeQ.length + (if e.probe.isSome then 1 else 0) < 16) then
    let (mine, others) := e.recs.partition fun r => decide (r.burst = b)
    (s.modEcc t fun e => { e with
      recs := others
      probeQ := e.probeQ ++ [(errs ++ mine.map RecEntry.left).foldl ProbeJob.add { bank, row, col, errs := [] }] }).eccStatus t
  else
    let s := (s.inc (F.ECC_CNT_PROBEDROP_count t)).raise (Src.integrity 5 (t / 8)) t
    let s := errs.foldl (fun s i => s.capture t 4 { i with flags := if i.source = 2 then i.flags ||| 8 else i.flags }) s
    let wb := errs.any (fun i => i.source == 2) && !(s.eccOf t).wb.contains b
    (s.when wb fun s => s.modEcc t fun e => { e with wb := e.wb ++ [b] }).eccStatus t

def State.queueProbe (s : State) (t bank row col : Nat) (i : ErrInfo) : State := s.queueBurst t bank row col [i]

/-- An entry leaves the recurrence table, and its burst is queued for a probe (R316). -/
def State.leaves (s : State) (t : Nat) (r : RecEntry) : State :=
  (s.modEcc t fun e => { e with recs := e.recs.filter fun x => decide (x ≠ r) }).queueProbe t r.bank r.row r.col r.left

/-- R315: a corrected DRAM word met by a read that writes nothing enters the recurrence table or counts in it; the
threshold queues its burst for a probe (R316). Of a word whose burst is queued or under probe the count is logged (R332). -/
def State.recur (s : State) (t bank row col word : Nat) (i : ErrInfo) : State :=
  let same (r : RecEntry) : Bool := decide (r.burst = (bank, row, col)) && r.word == word
  let e := s.eccOf t
  if s.probing t bank row col then s.queueProbe t bank row col { i with count := 1 }
  else
    let new : RecEntry := ⟨bank, row, col, word, 1, s.epoch, i⟩
    let s := match e.recs.find? same with
      | some _ => s.modEcc t fun e => { e with recs := e.recs.map fun r => if same r then { r with count := r.count + 1 } else r }
      | none =>
        let s := if e.recs.length < 16 then s
          else match e.recs with
            | old :: _ => ((s.inc (F.ECC_CNT_RECEVICT_count t)).raise (Src.integrity 6 (t / 8)) t).leaves t old
            | [] => s
        s.modEcc t fun e => { e with recs := e.recs ++ [new] }
    match (s.eccOf t).recs.find? same with
    | some r => if max 1 (s.fv (F.ECC_REC_thresh t)) ≤ r.count then s.leaves t r else s.eccStatus t
    | none => s.eccStatus t

/-- A word leaves the recurrence table because its codeword is replaced or the patrol reaches it (R316). -/
def State.leaveRecs (s : State) (t bank row col word : Nat) : State :=
  match (s.eccOf t).recs.find? fun r => decide (r.burst = (bank, row, col)) && r.word == word with
  | none => s
  | some r => s.leaves t r

/-- R328: a unit is retired: its words leave the recurrence table and its bursts the queue, unprobed (log 102). -/
def State.dropUnit (s : State) (t : Nat) : State :=
  let e := s.eccOf t
  let gone (b : Nat × Nat × Nat) : Bool := s.isRetired t b.1 b.2.1
  let errs := (e.recs.filter fun r => gone r.burst).map RecEntry.left ++ (e.probeQ.filter fun j => gone j.burst).flatMap (·.errs)
  let s := errs.foldl (fun s i => s.capture t 4 { i with flags := i.flags ||| 2 }) s
  (s.modEcc t fun e => { e with recs := e.recs.filter fun r => !gone r.burst, probeQ := e.probeQ.filter fun j => !gone j.burst }).eccStatus t

/-! ### Reading and writing DRAM words -/

/-- What a read of a stored word found. -/
structure WordRead where
  data : DWord
  poison : Bool
  corr : Bool
  ue : Bool
deriving DecidableEq, Repr

/-- R91, R312: the word is delivered as poisoned. -/
def WordRead.isPoison (r : WordRead) : Bool := r.poison || r.ue

/-- Who reads a DRAM word: `source` of R326, the requesting port, whether the operation writes the word back (R314), and
the epoch in which its request was accepted. -/
structure ReadCtx where
  source : Nat
  port : Nat
  rmw : Bool
  accepted : Option Nat := none
deriving DecidableEq, Repr

def hostCtx (r : Req) : ReadCtx := ⟨0, r.port, false, some (r.frame / 8)⟩
def engineCtx (r : Req) (rmw : Bool) : ReadCtx := ⟨1, r.port, rmw, some (r.frame / 8)⟩
/-- An engine's own work, for a port or for none. -/
def unitCtx (port : Nat) (rmw : Bool) : ReadCtx := ⟨1, port, rmw, none⟩
def polisherCtx : ReadCtx := ⟨2, 0xFF, false, none⟩

/-- The bits of `c` at the erased positions are whatever the dead lines deliver: free values. -/
def State.overLines (s : State) (c : Nat) : List Nat → Nat × State
  | [] => (c, s)
  | i :: is =>
    let (v, s) := s.takeFree
    State.overLines s (if v.testBit 0 then c ^^^ 2 ^ i else c) is

/-- The riser that carries a channel: its own, or the spare riser (R339, R344). -/
def State.carrier (s : State) (c : Nat) : Nat :=
  if s.fb F.VRT_SPARE_CARRY_busy && s.fv F.VRT_SPARE_CARRY_channel == c then 32 else c

/-- R340: bits of codeword `w` that the decoder corrected, or found wrong at erased positions, are attributed to their
lines of the riser that carries the channel; a count that reaches line_thresh calls for the line to be declared (R341). -/
def State.attribute (s : State) (c w : Nat) (bits : List Nat) : State :=
  let r := s.carrier c
  let thresh := max 1 (s.fv (F.VRT_MON_line_thresh r))
  bits.foldl (fun s i =>
    let line := lineOf w i
    (s.modRiser r fun V =>
      let counts := natAdd V.counts line 1
      { V with counts := counts, calling := if thresh ≤ natGet counts line && !V.calling.contains line && !V.failing.contains line then V.calling ++ [line] else V.calling }).inc
        (F.VRT_CNT_ATTR_count r)) s

/-- The erased positions at which two codewords differ. -/
def changedAt (a b : Nat) (er : List Nat) : List Nat := er.filter fun i => a.testBit i != b.testBit i

/-- Errors beyond erasures, first and second bit, for the log. -/
def errBit (l : List Nat) (k : Nat) : Nat := l.getD k 0xFF

/-- DRAM words of a channel. -/
def channelWords : Nat := 32 * rowsPerBank * 32 * 8

/-- R346, R356, R505: the change that losses of a channel's contents have made to what a word holds. -/
def State.lostMask (s : State) (i : Nat) : Codeword :=
  let n := natGet s.dramGen (i / channelWords)
  if n = 0 then 0 else Config.lostMask n i

/-- The codeword at a DRAM word index. -/
def State.dramGet (s : State) (i : Nat) : Codeword := memWord s.dram i ^^^ s.lostMask i

/-- Store a codeword at a DRAM word index. -/
def State.dramPut (s : State) (i : Nat) (c : Codeword) : State := { s with dram := memPut s.dram i (c ^^^ s.lostMask i) }

/-- The contents of a channel are lost: what each word then holds is a free value (log 12). -/
def State.loseDram (s : State) (c : Nat) : State := { s with dramGen := natSet s.dramGen c (s.free + 1), free := s.free + 1 }

/-- Every word of every row of the array is written as data 0 (R168, R473). -/
def State.fillDram (s : State) : State := { s with dram := [], dramGen := [] }

/-- The contents of a Larder granule are lost (R291): each word is a free value (log 12). -/
def State.loseGranule (s : State) (k : Nat) : State := { s with larGen := natSet s.larGen k (s.free + 1), free := s.free + 1 }

/-- Every line of every granule and spare bank of the Larder is written as 0 (R411, R473). -/
def State.fillLarder (s : State) : State := { s with larder := [], larGen := [] }

/-- A burst through its soft remap, and the physical word index of its word `w`. -/
def State.physLoc (s : State) (accepted : Option Nat) (l : Loc) : Loc := { l with row := s.physRowAt accepted l.ch l.bank l.row }
def State.physWord (s : State) (l : Loc) (w : Nat) : Nat := (s.physLoc none l).word w

/-! ### Larder words (R288, R299, R310, R315) -/

/-- A Larder line: quadrant, bank 0-127, line 0-2047. -/
structure LLine where
  q : Nat
  bank : Nat
  line : Nat
deriving DecidableEq, Repr

/-- Codes of borrowers: the row test of a channel, the bank test of a quadrant, a held row. -/
def rowCode (ch : Nat) : Nat := ch
def bankCode (q : Nat) : Nat := 32 + q
def heldCode (h : Nat × Nat × Nat) : Nat := 36 + (h.1 * 32 + h.2.1) * 65536 + h.2.2

/-- The first row slot of a borrower. -/
def State.slotOf (s : State) (code : Nat) : Option Nat := (s.bst.slots.find? fun e => e.2 == code + 1).map (·.1)

/-- Line `l` of a row slot: 32 lines of data, then the record of written words. Where a slot lies in its granule the spec does
not say (log 99). -/
def slotLine (n l : Nat) : LLine :=
  let k := 33 * (n % 496) + l
  ⟨n / 496 / 16, 8 * (n / 496 % 16) + k % 8, k / 8⟩

/-- R299: the spare bank, 128, serves a bank that it stands in for. -/
def State.spareLine (s : State) (l : LLine) : LLine :=
  if s.fb (F.LAR_SPARE_STAT_active l.q) && s.fv (F.LAR_SPARE_STAT_bank l.q) == l.bank then { l with bank := 128 } else l

/-- R407: the first of the 64 slots in which a physical bank under test is parked. -/
def State.parkedAt (s : State) (q bank : Nat) : Option Nat :=
  if s.bst.runs.any fun r => r.kind == 5 && r.a == q && r.b == bank && !r.yielded && decide (1 ≤ r.stage) then s.slotOf (bankCode q) else none

/-- R299, R407: the line of a physical bank that serves a line. -/
def State.serving (s : State) (l : LLine) : LLine :=
  let x := s.spareLine l
  match s.parkedAt x.q x.bank with
  | some n => s.spareLine (slotLine (n + x.line / 32) (x.line % 32))
  | none => x

/-- The memory word index of word `w` of a line in a given physical bank (log 9). -/
def larderIndex (q bank line w : Nat) : Nat := ((129 * q + bank) * 2048 + line) * 8 + w

/-- R291: the change that power-downs of its granule have made to what a word of bank `bank` holds. -/
def State.powerMask (s : State) (q bank idx : Nat) : Codeword :=
  if bank < 128 then
    let n := natGet s.larGen (16 * q + bank / 8)
    if n = 0 then 0 else Config.powerMask n idx
  else 0

/-- The codeword at word `w` of line `line` of a physical bank. -/
def State.larderGet (s : State) (q bank line w : Nat) : Codeword :=
  let i := larderIndex q bank line w
  memWord s.larder i ^^^ s.powerMask q bank i

/-- Store a codeword at word `w` of line `line` of a physical bank. -/
def State.larderPut (s : State) (q bank line w : Nat) (c : Codeword) : State :=
  let i := larderIndex q bank line w
  { s with larder := memPut s.larder i (c ^^^ s.powerMask q bank i) }

/-- Store a codeword at word `w` of a line. -/
def State.putLarder (s : State) (l : LLine) (w : Nat) (c : Codeword) : State :=
  let x := s.serving l
  s.larderPut x.q x.bank x.line w c

def State.writeLarder (s : State) (l : LLine) (w : Nat) (data : DWord) (poison : Bool) : State :=
  s.putLarder l w (encodeWord data poison)

/-- Read word `w` of a line that the physical line `x` serves; a corrected word is written back clean at once (R91, R315).
`scr` is the scratchpad offset of the word, when it has one. -/
def State.readPhys (s : State) (x l : LLine) (w : Nat) (ctx : ReadCtx) (scr : Option Nat) : WordRead × State :=
  let c := (s.larderGet x.q x.bank x.line w).toNat
  let t := 8 * l.q
  let info (kind : Nat) (errs : List Nat) (wb : Bool) : ErrInfo :=
    { epoch := s.epoch, kind := kind, source := ctx.source, flags := (if wb then 8 else 0) + 16 * errs.length
      unit := l.q, bank := l.bank, row := l.line, col := 0, word := w, bitA := errBit errs 0, bitB := errBit errs 1
      addr := scr.getD 0xFFFFFFFFFF, port := ctx.port, count := 0 }
  match decodeWord c [] with
  | .ok d errs _ =>
    let r : WordRead := ⟨BitVec.ofNat 64 d, d.testBit 64, !errs.isEmpty, false⟩
    if errs.isEmpty then (r, s)
    else
      let s := (s.inc (F.ECC_CNT_LCE_count l.q)).raise (Src.integrity 0 l.q) t
      let s := s.larderPut x.q x.bank x.line w (encodeWord r.data r.poison)
      (r, if ctx.source = 2 then s else s.capture t 4 (info 3 errs true))
  | .bad =>
    let s := s.inc (F.ECC_CNT_LUE_count l.q)
    let s := s.when (ctx.source != 0) fun s => s.raise (Src.integrity 1 l.q) t
    (⟨BitVec.ofNat 64 c, c.testBit 64, false, true⟩, s.capture t 5 (info 4 [] false))

/-- Read word `w` of a line, where it is served. -/
def State.readLarder (s : State) (l : LLine) (w : Nat) (ctx : ReadCtx) (scr : Option Nat) : WordRead × State :=
  s.readPhys (s.serving l) l w ctx scr

def State.readLine (s : State) (l : LLine) (ctx : ReadCtx) (scr : Nat → Option Nat) : List WordRead × State :=
  (List.range 8).foldl (fun (rs, s) w => let (r, s) := s.readLarder l w ctx (scr w); (rs ++ [r], s)) ([], s)

/-! ### Copies of borrowed rows (R404, R405) -/

/-- The slot that serves a physical row. -/
def State.copyOf (s : State) (ch bank row : Nat) : Option Nat :=
  if s.bst.held.contains (ch, bank, row) then s.slotOf (heldCode (ch, bank, row))
  else if s.isBorrowed ch bank row then s.slotOf (rowCode ch) else none

/-- The slot that takes the writes to a burst of a physical row: of a row that is borrowed, or whose copy holds the burst. -/
def State.mirrorOf (s : State) (ch bank row col : Nat) : Option Nat :=
  if s.bst.runs.any fun r => r.borrows ch bank row && (decide (1 ≤ r.stage) || decide (col < r.sig)) then s.slotOf (rowCode ch)
  else s.copyOf ch bank row

/-- Word `k` of a slot's row is put, and marked in its record of written words (R289). -/
def State.putSlot (s : State) (n k : Nat) (c : Codeword) (mark : Bool) : State :=
  let s := s.putLarder (slotLine n (k / 8)) (k % 8) c
  if mark then
    let l := s.serving (slotLine n 32)
    let old := match decodeWord (s.larderGet l.q l.bank l.line (k / 64)).toNat [] with | .ok x _ _ => x % 2 ^ 64 | .bad => 0
    s.larderPut l.q l.bank l.line (k / 64) (encodeWord (BitVec.ofNat 64 (old ||| 2 ^ (k % 64))) false)
  else s

/-- The record of a slot is empty. -/
def State.clearRecord (s : State) (n : Nat) : State :=
  (List.range 8).foldl (fun (s : State) w => s.putLarder (slotLine n 32) w (encodeWord 0 false)) s

/-! ### DRAM words -/

/-- Read word `w` of a burst in the array (R306, R309, R315, R316, R325, R328): what it holds, and the state with the error
counted, logged, entered in the recurrence table or queued for a probe. -/
def State.readArray (s : State) (l : Loc) (w : Nat) (ctx : ReadCtx) : WordRead × State :=
  let er := s.erasures l.ch w
  let (c, s) := s.overLines (s.dramGet ((s.physLoc ctx.accepted l).word w)).toNat er
  let retired := s.isRetired l.ch l.bank l.row
  let row := s.physRowAt ctx.accepted l.ch l.bank l.row
  let info (kind : Nat) (errs : List Nat) (erased : Bool) : ErrInfo :=
    { epoch := s.epoch, kind := kind, source := ctx.source
      flags := (if erased then 1 else 0) + (if retired then 2 else 0) + (if row ≥ 49152 then 4 else 0) +
        (if ctx.rmw then 8 else 0) + 16 * errs.length
      unit := l.ch, bank := l.bank, row := row, col := l.col, word := w
      bitA := errBit errs 0, bitB := errBit errs 1
      addr := dramAddr s.active l + 8 * w, port := ctx.port, count := 0 }
  match decodeWord c er with
  | .ok x errs erased =>
    let r : WordRead := ⟨BitVec.ofNat 64 x, x.testBit 64, !errs.isEmpty || erased, false⟩
    if errs.isEmpty && !erased then (r, s)
    else
      let s := (s.inc (F.ECC_CNT_CE_count l.ch)).attribute l.ch w
        (errs ++ changedAt c (encodeWord r.data r.poison).toNat er)
      let s := s.when erased fun s => s.inc (F.ECC_CNT_ERASE_count l.ch)
      let s := s.when (ctx.source == 2) fun s => s.inc (F.ECC_CNT_SCRUB_CE_count l.ch)
      if errs.isEmpty then (r, s)
      else if retired then
        (r, ((s.inc (F.ECC_CNT_RETIRED_count l.ch)).raise (Src.integrity 9 (l.ch / 8)) l.ch).capture l.ch 4 (info 1 errs erased))
      else
        let s := s.raise (Src.integrity 0 (l.ch / 8)) l.ch
        if ctx.rmw || ctx.source == 2 then (r, s.queueProbe l.ch l.bank l.row l.col (info 1 errs erased))
        else (r, s.recur l.ch l.bank l.row l.col w (info 1 errs erased))
  | .bad =>
    let r : WordRead := ⟨BitVec.ofNat 64 c, c.testBit 64, false, true⟩
    let s := s.inc (F.ECC_CNT_UE_count l.ch)
    let s := s.when (ctx.source == 2) fun s => s.inc (F.ECC_CNT_SCRUB_UE_count l.ch)
    if retired then
      (r, ((s.inc (F.ECC_CNT_RETIRED_count l.ch)).raise (Src.integrity 9 (l.ch / 8)) l.ch).capture l.ch 4 (info 2 [] false))
    else
      let s := s.when (ctx.source != 0) fun s => s.raise (Src.integrity 1 (l.ch / 8)) l.ch
      (r, s.capture l.ch 5 (info 2 [] false))

/-- R318: the job that holds a burst's copy. -/
def State.heldJob (s : State) (l : Loc) : Option ProbeJob := (s.eccOf l.ch).probe.filter fun j => decide (j.burst = (l.bank, l.row, l.col))

/-- Word `w` of the burst under probe becomes `c` in the probe buffer. -/
def State.putHeld (s : State) (l : Loc) (w : Nat) (c : Codeword) : State :=
  s.modEcc l.ch fun e => { e with probe := e.probe.map fun j => { j with held := j.held.set w c } }

/-- Read a Larder word that a buffer of a quadrant holds (R315): a corrected word is written back by `put`. Where the buffer
lies in its granules is not stated, so the place in a log entry is a free value. -/
def State.readBuffer (s : State) (t w : Nat) (stored : Codeword) (ctx : ReadCtx) (put : State → Codeword → State) : WordRead × State :=
  let c := stored.toNat
  let info (v kind : Nat) (errs : List Nat) (wb : Bool) : ErrInfo :=
    { epoch := s.epoch, kind := kind, source := ctx.source, flags := (if wb then 8 else 0) + 16 * errs.length
      unit := t / 8, bank := v % 128, row := v / 128 % 2048, col := 0, word := w, bitA := errBit errs 0, bitB := errBit errs 1
      addr := 0xFFFFFFFFFF, port := ctx.port, count := 0 }
  match decodeWord c [] with
  | .ok x errs _ =>
    let r : WordRead := ⟨BitVec.ofNat 64 x, x.testBit 64, !errs.isEmpty, false⟩
    if errs.isEmpty then (r, s)
    else
      let s := (s.inc (F.ECC_CNT_LCE_count (t / 8))).raise (Src.integrity 0 (t / 8)) t
      let (v, s) := s.takeFree
      (r, (put s (encodeWord r.data r.poison)).capture (8 * (t / 8)) 4 (info v 3 errs true))
  | .bad =>
    let s := s.inc (F.ECC_CNT_LUE_count (t / 8))
    let s := s.when (ctx.source != 0) fun s => s.raise (Src.integrity 1 (t / 8)) t
    let (v, s) := s.takeFree
    (⟨BitVec.ofNat 64 c, c.testBit 64, false, true⟩, s.capture (8 * (t / 8)) 5 (info v 4 [] false))

/-- Read the held word `w` of a burst under probe (R318). -/
def State.readHeld (s : State) (l : Loc) (j : ProbeJob) (w : Nat) (ctx : ReadCtx) : WordRead × State :=
  s.readBuffer l.ch w (j.held.getD w 0) ctx fun s c => s.putHeld l w c

/-- Read word `w` of a burst: one under probe is served from the held copy (R318), a borrowed row from its copy (R405). -/
def State.readDram (s : State) (l : Loc) (w : Nat) (ctx : ReadCtx) : WordRead × State :=
  match s.heldJob l with
  | some j => s.readHeld l j w ctx
  | none =>
    match s.copyOf l.ch l.bank (s.physRowAt ctx.accepted l.ch l.bank l.row) with
    | some n => s.readLarder (slotLine n l.col) w ctx none
    | none => s.readArray l w ctx

/-- R333: an armed injection inverts the masked bits at the next write of its word. -/
def State.inject (s : State) (l : Loc) (w : Nat) (c : Codeword) : Codeword × State :=
  let a := s.fv F.ECC_INJ_ADDR_LO_addr * 8 + s.fv F.ECC_INJ_ADDR_HI_addr * 2 ^ 32
  if s.fb F.ECC_INJ_CTL_arm && dramAddr s.active l + 8 * w == a then
    (c ^^^ BitVec.ofNat 80 (s.fv F.ECC_INJ_MASK0_mask + s.fv F.ECC_INJ_MASK1_mask * 2 ^ 32 + s.fv F.ECC_INJ_MASK2_mask * 2 ^ 64),
      (s.setF F.ECC_INJ_CTL_arm 0).setF F.ECC_INJ_CTL_done 1)
  else (c, s)

/-- Store a codeword at word `w` of a burst, with injection (R333). Of a burst under probe the held copy takes it (R318); a
direct write-back of the burst is abandoned (R322); a second row takes it in a remap (R329), and the copy of a borrowed row
takes it too (R404, R405). -/
def State.putDram (s : State) (l : Loc) (w : Nat) (c : Codeword) : State :=
  let (c, s) := s.inject l w c
  match s.heldJob l with
  | some _ => s.putHeld l w c
  | none =>
    let s := s.modEcc l.ch fun e => { e with wb := e.wb.filter (· ≠ (l.bank, l.row, l.col)) }
    let s := s.dramPut (s.physWord l w) c
    let s := match s.mirrorRow l.ch l.bank l.row l.col with
      | some row => s.dramPut ({ l with row := row }.word w) c
      | none => s
    match s.mirrorOf l.ch l.bank (s.physRow l.ch l.bank l.row) l.col with
    | some n => s.putSlot n (8 * l.col + w) c true
    | none => s

/-- A write that replaces a word's codeword (R313, R316): its recurrence entry leaves the table. -/
def State.writeDram (s : State) (l : Loc) (w : Nat) (data : DWord) (poison : Bool) : State :=
  (s.putDram l w (encodeWord data poison)).leaveRecs l.ch l.bank l.row l.col w

/-- Read the eight words of a burst, word 0 first. -/
def State.readBurst (s : State) (l : Loc) (ctx : ReadCtx) : List WordRead × State :=
  (List.range 8).foldl (fun (rs, s) w => let (r, s) := s.readDram l w ctx; (rs ++ [r], s)) ([], s)

/-! ### Copies of rows (R329, R404) -/

/-- The spare entry of a bank that holds a row. -/
def State.spareOf (s : State) (c b row : Nat) : Option Nat :=
  (List.range 16).find? fun k => let m := s.spareAt c b k; m.valid && m.row == row

/-- The user row that a physical row serves. -/
def State.userRow (s : State) (t bank row : Nat) : Option Nat :=
  if row < 49152 then (if (s.spareOf t bank row).isSome then none else some row)
  else
    let m := s.spareAt t bank (row - 49152)
    if m.valid then some m.row else none

/-- Read a word of a physical row, correct it and count its error, for a copy (R311, R329, R404): an uncorrectable word is
copied poisoned. `source` is that of the log. -/
def State.copyArray (s : State) (t bank row col w source : Nat) : Codeword × State :=
  let l : Loc := ⟨t, bank, row, col⟩
  let er := s.erasures t w
  let (c, s) := s.overLines (s.dramGet (l.word w)).toNat er
  let info (kind : Nat) (errs : List Nat) (erased : Bool) : ErrInfo :=
    { epoch := s.epoch, kind := kind, source := source
      flags := (if erased then 1 else 0) + (if row ≥ 49152 then 4 else 0) + 8 + 16 * errs.length
      unit := t, bank := bank, row := row, col := col, word := w, bitA := errBit errs 0, bitB := errBit errs 1
      addr := if row < 49152 then dramAddr s.active l + 8 * w else 0xFFFFFFFFFF, port := 0xFF, count := 0 }
  match decodeWord c er with
  | .ok x errs erased =>
    let good := encodeWord (BitVec.ofNat 64 x) (x.testBit 64)
    let s := if errs.isEmpty && !erased then s
      else (s.inc (F.ECC_CNT_CE_count t)).attribute t w (errs ++ changedAt c good.toNat er)
    let s := s.when erased fun s => s.inc (F.ECC_CNT_ERASE_count t)
    (good, if errs.isEmpty then s else (s.raise (Src.integrity 0 (t / 8)) t).capture t 4 (info 1 errs erased))
  | .bad =>
    let s := ((s.inc (F.ECC_CNT_UE_count t)).raise (Src.integrity 1 (t / 8)) t).capture t 5 (info 2 [] false)
    (encodeWord (BitVec.ofNat 64 c) true, s)

/-- The codeword of a word read for a copy: an uncorrectable one is poisoned (R311). -/
def WordRead.fresh (r : WordRead) : Codeword := encodeWord r.data r.isPoison

/-- A word of a physical row for a copy; a held row's is that of its shadow copy (R406), a probed burst's the held one. -/
def State.copyWord (s : State) (t bank row col w source : Nat) : Codeword × State :=
  let ctx : ReadCtx := ⟨source, 0xFF, true, none⟩
  let l : Loc := ⟨t, bank, (s.userRow t bank row).getD row, col⟩
  match s.copyOf t bank row, s.heldJob l with
  | some n, _ => let (r, s) := s.readLarder (slotLine n col) w ctx none; (r.fresh, s)
  | none, some j => let (r, s) := s.readHeld l j w ctx; (r.fresh, s)
  | none, none => s.copyArray t bank row col w source

/-- Copy one burst of a physical row to another of the bank. -/
def State.copyBurst (s : State) (t bank src dst col source : Nat) : State :=
  (List.range 8).foldl (fun (s : State) w =>
    let (c, s) := s.copyWord t bank src col w source
    s.dramPut ((⟨t, bank, dst, col⟩ : Loc).word w) c) s

/-! ### Delivered words -/

/-- The poison mask of delivered words, word 0 at bit 0. -/
def poisonMask (rs : List WordRead) : Nat :=
  (rs.zipIdx).foldl (fun m r => if r.1.isPoison then m ||| (1 <<< r.2) else m) 0

/-- The payload of eight delivered words. -/
def wordsPayload (ws : List DWord) : Payload :=
  BitVec.ofNat 512 ((ws.zipIdx).foldl (fun m r => m + r.1.toNat * 2 ^ (64 * r.2)) 0)

/-- Poisoned data delivered to a host: counted for the tile, and the source raised (R333, R336). -/
def State.deliverPoison (s : State) (t n : Nat) : State :=
  if n = 0 then s else (s.addF (F.ECC_CNT_POISON_RD_count t) n).raise (Src.integrity 2 (t / 8)) t

end Sys2Proof.Machine
end

