-- ==== Sys2Proof/Machine/Risers.lean ====
section
/-! DEFINITION. Risers (R337-R347) and their training (R167-R169): watching lines, soft repair, erasures, the third dead
line, DEGRADED channels, and the array fill. -/

namespace Sys2Proof.Machine

/-! ### The helpers of R167 -/

/-- R167: the helpers of a riser have run a pattern over lines, of which those in `bad` mismatched. -/
def State.helperRun (s : State) (r : Nat) (pattern : Option LinePattern) (rows : Bool) (lines bad swept : List Nat) : State :=
  { s.modRiser r fun V => { V with helper := { pattern, rows, lines, bad, swept, seed := s.free } } with free := s.free + 210 }

/-- The groups of lines of R337, and all of them. -/
def dataLines : List Nat := List.range 160
def strobeLines : List Nat := (List.range 16).map (· + 160)
def commandLines : List Nat := (List.range 24).map (· + 176)
def allLines : List Nat := List.range 208

/-! ### Lines and spares -/

/-- R337: the cluster of a signal line. -/
def clusterOf (line : Nat) : Nat :=
  if line < 160 then line / 40 else if line < 176 then (line - 160) / 4 else (line - 176) / 6

/-- A bit of an array of one-bit flags in a field. -/
def State.bit (s : State) (f : Fld) (i : Nat) : Bool := (s.fv f).testBit i

/-- Set or clear a bit of an array of one-bit flags in a field. -/
def State.putBit (s : State) (f : Fld) (i : Nat) (b : Bool) : State :=
  s.setF f (if b then s.fv f ||| (1 <<< i) else if (s.fv f).testBit i then s.fv f - (1 <<< i) else s.fv f)

/-- R338, R342: the lowest spare of a line's cluster that is neither assigned, bad nor under verification. -/
def State.spareFor (s : State) (r line : Nat) : Option Nat :=
  let k := clusterOf line
  [2 * k, 2 * k + 1].find? fun sp =>
    !s.bit (F.VRT_STATUS_spare_used r) sp && !s.bit (F.VRT_STATUS_spare_bad r) sp && !(s.riser r).reps.any fun x => x.spare == sp

/-- The spare of the riser that replaces a line, when one does. -/
def State.replaced (s : State) (r line : Nat) : Bool :=
  (List.range 8).any fun sp => s.bit (F.VRT_STATUS_spare_used r) sp && s.fv (F.VRT_SPARE_MAP_line r sp) == line

/-- Assign a spare to a line with its source (R338, R358). -/
def State.assignSpare (s : State) (r sp line src : Nat) : State :=
  (((s.putBit (F.VRT_STATUS_spare_used r) sp true).setF (F.VRT_SPARE_MAP_line r sp) line).setF (F.VRT_SPARE_MAP_src r sp) src).modRiser
    r fun V => { V with failing := V.failing.filter (· ≠ line), calling := V.calling.filter (· ≠ line), counts := natSet V.counts line 0 }

/-- A spare is bad, and never assigned again (R342, R169). -/
def State.spareIsBad (s : State) (r sp : Nat) (src : Nat) : State :=
  ((s.putBit (F.VRT_STATUS_spare_bad r) sp true).inc (F.VRT_CNT_SPAREBAD_count r)).raise src (200 + sp)

/-- The vertical sources of a riser, the spare's among them (R422): 0 soft repair, 1 spare bad, 2 line erased. -/
def vertSrc (kind r : Nat) : Nat := if r < 32 then Src.vert kind r else Src.vertCommon kind

/-- R309: ECC_ERASE of a channel shows the erased lines of the riser that carries it. -/
def State.showErased (s : State) (c : Nat) : State :=
  let e := (s.riser (s.carrier c)).erased
  (((s.setF (F.ECC_ERASE_a_valid c) (if e.length ≥ 1 then 1 else 0)).setF (F.ECC_ERASE_a_line c) (e.getD 0 0)).setF
    (F.ECC_ERASE_b_valid c) (if e.length ≥ 2 then 1 else 0)).setF (F.ECC_ERASE_b_line c) (e.getD 1 0)

/-- The channel that a riser serves: its own, or the one the spare riser carries. -/
def State.servedBy (s : State) (r : Nat) : Option Nat :=
  if r < 32 then (if s.carrier r = r then some r else none)
  else if s.fb F.VRT_SPARE_CARRY_busy then some (s.fv F.VRT_SPARE_CARRY_channel) else none

/-- VRT_STATUS.vstate of a riser: 0 normal, 1 lines erased, 2 on the spare riser, 3 DEGRADED. -/
def State.showVstate (s : State) (r : Nat) : State :=
  let st := if s.fv (F.VRT_STATUS_vstate r) = 3 then 3
    else if r < 32 && s.carrier r == 32 then 2
    else if (s.riser r).erased.isEmpty then 0 else 1
  s.setF (F.VRT_STATUS_vstate r) st

def State.showRiser (s : State) (r : Nat) : State :=
  let s := s.showVstate r
  let s := s.setF (F.VRT_STATUS_repair_pending r) (if (s.riser r).reps.isEmpty then 0 else 1)
  match s.servedBy r with | some c => s.showErased c | none => s

/-! ### The end of the spares -/

/-- R346, R361: channel `c` becomes DEGRADED, from the first boundary on, for a cause of R361. -/
def State.degrade (s : State) (c line cause : Nat) : State :=
  -- a dead command line stops refresh, and the contents are lost
  let s := s.when (decide (cause ≤ 4) && decide (176 ≤ line) && decide (line < 200)) fun s =>
    (s.loseDram c).modRiser c fun V => { V with stopped := true }
  if s.fv (F.VRT_STATUS_vstate c) = 3 then s
  else
    let s := (s.setF (F.VRT_STATUS_vstate c) 3).modRiser c fun V => { V with degrading := true, move := none }
    (s.event 0x0903 [(12, 1, c), (13, 1, if cause ≤ 4 then line else 0xFF), (14, 1, cause)]).raise (Src.vert 4 c)
      (if cause ≤ 4 then line else 0)

/-- The lines of a riser that are dead: erased, to be erased, or under repair (R343). -/
def State.deadLines (s : State) (r : Nat) : List Nat :=
  let V := s.riser r
  (V.erased ++ V.eraseNext ++ V.reps.map (·.line)).dedup

/-- R344: the spare riser is occupied by a failure, or promised to one. -/
def State.spareTaken (s : State) : Bool :=
  (s.fb F.VRT_SPARE_CARRY_busy && s.fv F.VRT_SPARE_CARRY_reason == 1) || s.vrt.any fun e => e.2.move.isSome

/-- R339: the spare riser is trained against the die of a channel. -/
def State.spareTrained (s : State) (c : Nat) : Bool := s.bit F.VRT_SPARE_DIES_trained (c / 2)

/-- R345: the riser of a channel that a failure has moved to the spare riser is out of service. -/
def State.outOfService (s : State) (r : Nat) : Bool :=
  decide (r < 32) && s.carrier r == 32 && s.fv F.VRT_SPARE_CARRY_reason == 1

/-- R344, R345: a third dead line. A further one, when the move is to come already or the riser is out of service, changes
nothing. -/
def State.thirdDead (s : State) (r line : Nat) : State :=
  if s.outOfService r || (s.riser r).move.isSome then s else
  let s := (s.setF (F.VRT_DEAD_valid r) 1).setF (F.VRT_DEAD_line r) line
  if r = 32 then
    let s := s.raise (Src.vertCommon 3) line
    if s.fb F.VRT_SPARE_CARRY_busy && s.fv F.VRT_SPARE_CARRY_reason == 1 then s.degrade (s.fv F.VRT_SPARE_CARRY_channel) line 4
    else s.setF F.VRT_SPARE_DIES_trained 0
  else if !s.fb (F.VRT_CTL_auto_spare r) then s.degrade r line 2
  else if !s.spareTrained r then s.degrade r line 3
  else
    -- R344, R357: of two channels that declare in one epoch the lower one is moved
    let rival := s.vrt.find? fun e => match e.2.move with | some (_, at_) => at_ == s.epoch + 2 | none => false
    match rival with
    | some (d, V) =>
      if r < d then
        let dline := match V.move with | some (l, _) => l | none => 0
        (s.degrade d dline 1).modRiser r fun V => { V with move := some (line, s.epoch + 2) }
      else s.degrade r line 1
    | none =>
      if s.spareTaken then s.degrade r line 1 else s.modRiser r fun V => { V with move := some (line, s.epoch + 2) }

/-- R343: a failing line that no spare of its cluster can take. -/
def State.lineDead (s : State) (r line : Nat) : State :=
  if (s.riser r).erased.contains line || (s.riser r).eraseNext.contains line then s
  else if line < 160 && decide (((s.deadLines r).filter (· ≠ line)).length < 2) then
    s.modRiser r fun V => { V with eraseNext := V.eraseNext ++ [line] }
  else s.thirdDead r line

/-! ### Soft repair (R342) -/

/-- Steps 1 and 2: the erasure from the next boundary, and the verify of the lower free spare. -/
def State.startRepair (s : State) (r line : Nat) : State :=
  match s.spareFor r line with
  | none => s
  | some sp =>
    if 200 ≤ line || (s.riser r).reps.any (fun x => x.line == line) || s.replaced r line then s
    else
      let off := ((s.riser r).erased ++ (s.riser r).eraseNext).dedup
      let erase := decide (line < 160) && decide (off.length < 2) && !off.contains line
      (s.modRiser r fun V =>
        { V with
          reps := V.reps ++ ([⟨line, sp, s.epoch, none⟩] : List SoftRep)
          eraseNext := if erase then V.eraseNext ++ [line] else V.eraseNext }).showRiser r

/-- R341-R343: a line is declared failing. -/
def State.declareFailing (s : State) (r line : Nat) : State :=
  if (s.riser r).failing.contains line || s.replaced r line || 200 ≤ line || s.outOfService r then s
  else
    let s := s.modRiser r fun V => { V with failing := V.failing ++ [line], calling := V.calling.filter (· ≠ line) }
    if s.fb (F.VRT_CTL_soft_repair_en r) && (s.spareFor r line).isSome then s.startRepair r line else s.lineDead r line

/-- R341: a line's count has reached line_thresh, or its monitor hard_thresh; with `tie`, in the cycle in which the
window ends. -/
def execLineFailing (r : Tile) (line : BitVec 8) (tie : Bool) (s : State) : Host.Outcome State Fault Refusal :=
  if (s.riser r.val).calling.contains line.toNat then
    .next ((s.when tie fun s => s.inc (F.VRT_CNT_NEARMISS_count r.val)).declareFailing r.val line.toNat)
  else .next s

/-- R342 steps 2 to 4: the 16-epoch verify of the spare for a line ends. -/
def execSoftRepairVerifyDone (r : Tile) (line : BitVec 8) (mismatch : Bool) (s : State) : Host.Outcome State Fault Refusal :=
  let n := r.val
  match (s.riser n).reps.find? fun x => x.line == line.toNat && x.at_.isNone && decide (x.start + 16 ≤ s.epoch) with
  | none => .next s
  | some x =>
    let s := s.helperRun n (some .prbs23) false [200 + x.spare] (if mismatch then [200 + x.spare] else []) []
    if mismatch then
      let s := s.spareIsBad n x.spare (vertSrc 1 n)
      let s := s.modRiser n fun V => { V with reps := V.reps.filter fun y => y.line != x.line }
      match s.spareFor n x.line with
      | some sp =>
        .next ((s.modRiser n fun V => { V with reps := V.reps ++ ([⟨x.line, sp, s.epoch, none⟩] : List SoftRep) }).showRiser n)
      | none =>
        let s := s.modRiser n fun V => { V with failing := if V.failing.contains x.line then V.failing else V.failing ++ [x.line] }
        .next ((s.lineDead n x.line).showRiser n)
    else
      .next (s.modRiser n fun V =>
        { V with reps := V.reps.map fun y => if y.line == x.line then { y with at_ := some (s.epoch + 1) } else y })

/-- R342 step 4: the boundary at which lines move onto their verified spares; the erasure of step 1 is lifted. -/
def execSoftRepairSwitch (r : Tile) (s : State) : Host.Outcome State Fault Refusal :=
  let n := r.val
  if !s.atBoundary then .next s
  else
    let due := (s.riser n).reps.filter fun x => x.at_ == some s.epoch
    .next (due.foldl (fun (s : State) (x : SoftRep) =>
      let s := (s.assignSpare n x.spare x.line 2).modRiser n fun V =>
        { V with
          reps := V.reps.filter fun y => y.line != x.line
          erased := V.erased.filter (· ≠ x.line)
          eraseNext := V.eraseNext.filter (· ≠ x.line) }
      ((s.inc (F.VRT_CNT_SOFTREP_count n)).raise (vertSrc 0 n) x.line).showRiser n) s)

/-! ### What happens to risers at an epoch boundary -/

/-- R343, R361: lines are marked erased at the boundary. -/
def State.markErased (s : State) (r : Nat) : State :=
  let new := (s.riser r).eraseNext
  let s := s.modRiser r fun V => { V with eraseNext := [] }
  (new.foldl (fun (s : State) line =>
    if (s.riser r).erased.length < 2 && !(s.riser r).erased.contains line then
      let s := (s.modRiser r fun V => { V with erased := V.erased ++ [line] }).inc (F.VRT_CNT_ERASE_count r)
      let s := s.raise (vertSrc 2 r) line
      match s.servedBy r with
      | some c => s.event 0x0901 [(12, 1, c), (13, 1, line), (14, 1, (s.riser r).erased.length)]
      | none => s
    else s) s).showRiser r

/-- R340, R341: the spare-line monitor's mismatches of the epoch that ended, put down to line (epoch mod 200), and the
end of a window. `e` is the epoch that ended. -/
def State.monitorRiser (s : State) (r e m : Nat) : State :=
  if s.outOfService r then s else
  let free := (List.range 8).any fun sp =>
    !s.bit (F.VRT_STATUS_spare_used r) sp && !s.bit (F.VRT_STATUS_spare_bad r) sp && !(s.riser r).reps.any fun x => x.spare == sp
  let s := if s.fb (F.VRT_CTL_monitor_en r) && free && m != 0 then
      let line := e % 200
      (s.modRiser r fun V =>
        let counts := natAdd V.counts line m
        let call := decide (max 1 (s.fv (F.VRT_MON_line_thresh r)) ≤ natGet counts line) || decide (s.fv (F.VRT_MON_hard_thresh r) ≤ m)
        { V with counts := counts, calling := if call && !V.calling.contains line && !V.failing.contains line then V.calling ++ [line] else V.calling }).addF
          (F.VRT_CNT_MONMIS_count r) m
    else s
  let V := s.riser r
  if V.winFrom + 1024 * max 1 (s.fv (F.VRT_MON_window r)) ≤ e + 1 then s.modRiser r fun V => { V with counts := [], winFrom := e + 1 } else s

/-- R346: DEGRADED counts from the boundary on. -/
def State.applyDegrade (s : State) (c : Nat) : State :=
  if (s.riser c).degrading then (s.modRiser c fun V => { V with degrading := false }).setF (F.SCH_STATUS_degraded c) 1 else s

/-! ### The spare riser carries a channel -/

/-- The die switches and registers when the spare riser takes a channel over for a reason of VRT_SPARE_CARRY (R339). -/
def State.takeSpare (s : State) (c reason : Nat) : State :=
  let s := s.setF F.THM_CAL_STATUS_spare_blocked (if reason = 1 then 1 else 0)
  let s := ((s.setF F.VRT_SPARE_CARRY_busy 1).setF F.VRT_SPARE_CARRY_reason reason).setF F.VRT_SPARE_CARRY_channel c
  let s := (s.setF (F.VRT_DIE_CTL_spare_sel (c / 2)) (1 + c % 2)).setF (F.SCH_STATUS_on_spare c) 1
  (s.showVstate c).showErased c

/-- The channel returns to its own riser. -/
def State.leaveSpare (s : State) : State :=
  let c := s.fv F.VRT_SPARE_CARRY_channel
  let s := s.setF F.THM_CAL_STATUS_spare_blocked 0
  let s := ((s.setF F.VRT_SPARE_CARRY_busy 0).setF F.VRT_SPARE_CARRY_reason 0).setF F.VRT_SPARE_CARRY_channel 0
  let s := (s.setF (F.VRT_DIE_CTL_spare_sel (c / 2)) 0).setF (F.SCH_STATUS_on_spare c) 0
  (s.showVstate c).showErased c

/-- R344: the move itself; `displaced` is the channel that a calibration or test held there. -/
def State.moveToSpare (s : State) (c line : Nat) (displaced : Nat) : State :=
  let s := (s.modRiser c fun V => { V with move := none, erased := [], eraseNext := [], reps := [], calling := [] }).takeSpare c 1
  let s := (s.inc (F.VRT_CNT_MOVE_count c)).event 0x0902 [(12, 1, c), (13, 1, line), (14, 1, displaced)]
  (s.raise (Src.vert 3 c) line).showRiser c

/-! ### Training (R167-R169, R338, R339) -/

/-- The riser-line records of the Cornerstone for a riser (R453). -/
def State.fuseLines (s : State) (r : Nat) : List Nat :=
  (s.cst.vertRecs.filter fun w => w.field 30 2 == 2 && w.field 24 6 == r).map fun w => w.field 0 8

/-- R338: assign spares to lines with a source while their cluster has one; the lines beyond the spares are returned. -/
def State.assignLines (r src : Nat) : List Nat → State → State × List Nat
  | [], s => (s, [])
  | l :: ls, s =>
    if s.replaced r l then State.assignLines r src ls s
    else match s.spareFor r l with
      | some sp => State.assignLines r src ls (s.assignSpare r sp l src)
      | none =>
        let (s', left) := State.assignLines r src ls s
        (s', l :: left)

/-- R338: a riser's training begins with the lines of the Cornerstone; those beyond the spares are counted (R453). -/
def State.fuseRiser (s : State) (r : Nat) : State :=
  let (s, left) := State.assignLines r 0 (s.fuseLines r) s
  s.addF F.CST_CNT_SKIPPED_count left.length

/-- R169: a riser that cannot complete V0 or V1 within four attempts. -/
def State.riserUntrained (s : State) (r : Nat) : State :=
  if r = 32 then s.raise (Src.vertCommon 4) 32
  else
    let s := s.raise (Src.sched 3 r) r
    if s.carrier r = 32 then s
    else if s.spareTrained r && !s.fb F.VRT_SPARE_CARRY_busy && !s.spareTaken then
      s.modRiser r fun V => { V with move := some (0xFF, s.nextBoundary) }
    else s.degrade r 0 5

/-- R169: a spare line that fails V5 is bad, and the line that it replaces fails with it. -/
def State.v5Spare (s : State) (r sp : Nat) : State × List Nat :=
  let used := s.bit (F.VRT_STATUS_spare_used r) sp
  let line := s.fv (F.VRT_SPARE_MAP_line r sp)
  ((s.spareIsBad r sp (vertSrc 1 r)).putBit (F.VRT_STATUS_spare_used r) sp false, if used then [line] else [])

/-- R169: lines that fail V5 are assigned a spare line, or handled as dead lines. -/
def State.v5Lines (s : State) (r : Nat) (fails : List Nat) : State :=
  let (s, lost) := ((List.range 8).filter fun sp => fails.contains (200 + sp)).foldl (fun (s, lost) sp =>
    let (s, l) := State.v5Spare s r sp; (s, lost ++ l)) (s, ([] : List Nat))
  let fails := (fails.filter (decide <| · < 200)).filter (fun l => !s.replaced r l) ++ lost
  let (s, left) := State.assignLines r 1 fails s
  let s := left.foldl (fun (s : State) l => (s.modRiser r fun V => { V with failing := V.failing ++ [l] }).lineDead r l) s
  s.showRiser r

/-- The address of a trim register of a riser; `d` is the die for the spare riser (R358, R359). -/
def trimAddr (r d : Nat) (x : TrimObs) : Nat :=
  if !x.dieEnd then R.VRT_TRIM r x.line.val
  else if r = 32 then R.VRT_DTRIM d 2 x.line.val
  else R.VRT_DTRIM (r / 2) (r % 2) x.line.val

/-- Trims are written, by register address. -/
def State.putTrims (s : State) (ts : List (Nat × Word)) : State :=
  { s with live := ts.foldl (fun m x => m.put x.1 x.2) s.live }

/-- R167, R168: what the helpers do in a training step. -/
def State.stepHelper (s : State) (r step : Nat) (bad swept : List Nat) : State :=
  match step with
  | 0 => s.helperRun r none false commandLines [] swept
  | 1 => s.helperRun r none false strobeLines [] swept
  | 2 => s.helperRun r (some .prbs15) false dataLines [] swept
  | 3 => s.helperRun r (some .prbs15) true dataLines [] swept
  | 4 => s.helperRun r none false allLines [] swept
  | _ => s.helperRun r (some .prbs23) false allLines bad []

/-- R168: at boot risers are trained four at a time, in ascending rounds (log 106). -/
def State.trainTurn (s : State) (r : Nat) : Bool := (List.range (4 * (r / 4))).all fun k => decide (6 ≤ (s.riser k).step)

/-- R168, R169, R339: a training step of a riser completes; `ok` is what V0 and V1 found, `fails` the lines that fail V5, and
`trims` what the step has set. The spare riser goes on with V3 to V5 against each further die. -/
def execRiserTrainStepDone (r : Tile) (ok : Bool) (fails : List (BitVec 8)) (trims : List TrimObs) (s : State) : Host.Outcome State Fault Refusal :=
  let n := r.val
  let V := s.riser n
  if !(V.retrain || s.pwr.phase == 4 && s.trainTurn n) || 6 ≤ V.step then .next s
  else if V.step ≤ 1 && !ok then
    if 3 ≤ V.tries then .next ((s.modRiser n fun V => { V with step := 6, tries := 0, retrain := false }).riserUntrained n)
    else .next (s.modRiser n fun V => { V with tries := V.tries + 1 })
  else
    let s := s.stepHelper n V.step (fails.map (·.toNat)) (trims.map (·.line.val)).dedup
    let s := s.putTrims (trims.map fun x => (trimAddr n V.die x, x.value.setWidth 32))
    let s := s.when (V.step == 0) fun s => s.fuseRiser n
    if V.step < 5 then .next (s.modRiser n fun V => { V with step := V.step + 1, tries := 0 })
    else
      let s := s.v5Lines n (fails.map (·.toNat))
      if n = 32 then
        let s := s.when (!s.fb (F.VRT_DEAD_valid 32)) fun s => s.putBit F.VRT_SPARE_DIES_trained V.die true
        .next (s.modRiser 32 fun V => if V.die < 15 then { V with step := 3, die := V.die + 1 } else { V with step := 6, retrain := false })
      else
        -- R503: a channel that ran on the spare riser meanwhile returns at the boundary
        let home := if V.retrain && s.carrier n == 32 then some s.nextBoundary else none
        .next (s.modRiser n fun V => { V with step := 6, retrain := false, homeAt := home })

/-- R8: the boundary at which a channel returns to its own riser. -/
def State.goHome (s : State) (r : Nat) : State :=
  match (s.riser r).homeAt with
  | some e =>
    if s.epoch < e then s
    else
      let s := s.modRiser r fun V => { V with homeAt := none }
      if s.carrier r = 32 then s.leaveSpare else s
  | none => s

/-- Every riser has been trained, or has failed. -/
def State.risersDone (s : State) : Bool := (List.range 33).all fun r => decide (6 ≤ (s.riser r).step)

/-- R168, R475, R507: the array is filled at a cold start, and at every start in RETURNED; a warm reset keeps the contents. -/
def State.mustFill (s : State) : Bool := s.fv F.PWR_STATUS_reset_cause == 0 || s.fv F.SEC_STATUS_lifecycle == 3

/-- R168: after training, the whole array has been written with valid codewords, before any request is admitted. The model
writes data 0 (log 1). -/
def execArrayFillDone (s : State) : Host.Outcome State Fault Refusal :=
  if s.pwr.phase = 4 ∧ s.risersDone ∧ s.mustFill then .next { s.fillDram with pwr := { s.pwr with filled := true } } else .next s

end Sys2Proof.Machine
end

