-- ==== Sys2Proof/Machine/Clocks.lean ====
section
/-! DEFINITION. Reference clocks, crossing tunings and the distributed-clock fallback (R348-R351). -/

namespace Sys2Proof.Machine

/-- R348: a reference PLL loses lock: its quadrant's links leave OPEN (R14). -/
def execPllLockLoss (q : Quad) (s : State) : Host.Outcome State Fault Refusal :=
  if s.bit F.CLK_STATUS_pll_lock q.val then
    let s := (s.putBit F.CLK_STATUS_pll_lock q.val false).raise (Src.pllLock q.val) q.val
    .next ((List.range 4).foldl (fun (s : State) k =>
      if s.linkState (4 * q.val + k) == lsOpen then s.retrainFromOpen (4 * q.val + k) else s) s)
  else .next s

/-- R348: the PLL locks again. -/
def execPllLock (q : Quad) (s : State) : Host.Outcome State Fault Refusal := .next (s.putBit F.CLK_STATUS_pll_lock q.val true)

/-- R349: min_margin and exit_margin as they act. -/
def State.minMargin (s : State) : Nat := if s.fv F.CLK_XTUNE_min_margin = 0 then 4 else s.fv F.CLK_XTUNE_min_margin
def State.exitMargin (s : State) : Nat := max s.minMargin (s.fv F.CLK_XTUNE_exit_margin)

/-- SCH_STATUS.clock_fallback mirrors the fallback in every tile (R360). -/
def State.showFallback (s : State) (b : Nat) : State :=
  (List.range 33).foldl (fun (s : State) t => s.setF (F.SCH_STATUS_clock_fallback t) b) (s.setF F.CLK_STATUS_fallback b)

/-- R350: the fallback is entered. -/
def State.enterFallback (s : State) : State :=
  let s := { s with clk := { s.clk with entryAt := none, exitAt := none, closed := 0 } }
  if s.fb F.CLK_STATUS_fallback then s
  else
    let mask := s.fv F.CLK_STATUS_tune_fail
    (((s.showFallback 1).inc F.CLK_CNT_FALLBACK_count).raise (Src.vertCommon 5) mask).event 0x0904 [(12, 1, 1), (13, 1, mask)]

/-- R349: a retune of quadrants begins, or is joined. -/
def State.startRetune (s : State) (qs : List Nat) : State :=
  let new := qs.filter fun q => !s.clk.due.contains q
  { s with clk := { s.clk with due := s.clk.due ++ new, closed := if s.clk.due.isEmpty && !new.isEmpty then 0 else s.clk.closed } }

/-- R349: the boundary at which tunings take effect: the taps of their delay lines. -/
def State.applyTunings (s : State) : State :=
  { s with clk := { s.clk with tuned := [], taps := s.clk.tuned.foldl (fun m x => natSet m x.1 (x.2 + 1)) s.clk.taps } }

/-- R349-R351: a crossing tuning of a quadrant ends with its least margins in ps. A failure of any quadrant enters the
fallback; a failure wins over a success that would end it. -/
def execCrossingTuneDone (q : Quad) (setup hold : BitVec 16) (s : State) : Host.Outcome State Fault Refusal :=
  let n := q.val
  if s.pwr.phase != 3 && !s.clk.due.contains n then .next s
  else
    let m := min setup.toNat hold.toNat
    let s := ((s.setF (F.CLK_XMARGIN_setup n) setup.toNat).setF (F.CLK_XMARGIN_hold n) hold.toNat).inc F.CLK_CNT_TUNE_count
    let t (u : Nat) : Nat := (tempInt (s.fv (F.THM_UNIT_temp u)) + 2 ^ 16).toNat
    let s := { s with free := s.free + 1, clk := { s.clk with
      due := s.clk.due.filter (· ≠ n)
      tuned := s.clk.tuned ++ [(n, s.free)]
      temp := natSet (natSet s.clk.temp n (t (16 + n))) (4 + n) (t (20 + n)) } }
    if m < s.minMargin then
      let s := (s.putBit F.CLK_STATUS_tune_fail n true).raise (Src.tuneFail n) n
      .next { s with clk := { s.clk with
        closed := 0
        exitAt := none
        entryAt := if s.fb F.CLK_STATUS_fallback then none else s.clk.entryAt.orElse fun _ => some (s.epoch + 2) } }
    else
      let s := s.putBit F.CLK_STATUS_tune_fail n false
      let closed := if s.exitMargin ≤ m then s.clk.closed ||| (1 <<< n) else if s.clk.closed.testBit n then s.clk.closed - (1 <<< n) else s.clk.closed
      let out := s.fb F.CLK_STATUS_fallback && s.clk.due.isEmpty && closed == 15 && s.fb F.CLK_CTL_exit_allow && !s.fb F.CLK_CTL_force_fallback
      .next { s with clk := { s.clk with closed := closed, exitAt := s.clk.exitAt.orElse fun _ => if out then some (s.epoch + 2) else none } }

/-- R350: the boundary of the entry. -/
def execClockFallbackEntry (s : State) : Host.Outcome State Fault Refusal :=
  if s.atBoundary && s.clk.entryAt == some s.epoch then .next s.enterFallback else .next s

/-- R351: the boundary of the exit. -/
def execClockFallbackExit (s : State) : Host.Outcome State Fault Refusal :=
  if s.atBoundary && s.clk.exitAt == some s.epoch then
    let s := { s with clk := { s.clk with exitAt := none, closed := 0 } }
    if s.fb F.CLK_CTL_exit_allow && !s.fb F.CLK_CTL_force_fallback && s.fb F.CLK_STATUS_fallback then
      .next ((s.showFallback 0).event 0x0904 [(12, 1, 0), (13, 1, s.fv F.CLK_STATUS_tune_fail)])
    else .next s
  else .next s

end Sys2Proof.Machine
end

