-- ==== Sys2Proof/Machine/Flags.lean ====
section
/-! DEFINITION. Status that is computed from the rest of the state: the fault summary (R423, R429, R434), the alert and
thermal pins (R380, R430), and the STATUS word of the sideband (R131). -/

namespace Sys2Proof.Machine

/-- The severities held by the latches of the sources that satisfy `p`. -/
def State.latched (s : State) (p : Nat → Bool) : List Nat :=
  (s.flt.latches.filter fun e => p e.1 && e.2.severity != 0).map fun e => e.2.severity

/-- R423: the 64 summary bits. -/
def State.summary (s : State) : Nat :=
  (List.range 42).foldl (fun m g => if (s.latched fun src => summaryBit src == g).isEmpty then m else m ||| (1 <<< g)) 0

/-- The highest severity held in any latch. -/
def State.highest (s : State) : Nat := (s.latched fun _ => true).foldl max 0

/-- R429: a fault of notify severity or above is latched. -/
def State.notified (s : State) : Bool := decide (2 ≤ s.highest)

/-- A fatal fault is latched. -/
def State.fatal (s : State) : Bool := s.highest == 5

/-- Some unit is contained. -/
def State.anyContained (s : State) : Bool :=
  s.fv F.FLT_CONTAIN_LINK_link != 0 || s.fv F.FLT_CONTAIN_PORT_LO_port != 0 || s.fv F.FLT_CONTAIN_PORT_HI_port != 0 ||
  s.fv F.FLT_CONTAIN_TILE_tile != 0 || s.fb F.FLT_CONTAIN_MISC_cellar || s.fv F.FLT_CONTAIN_MISC_lb != 0 || !s.flt.units.isEmpty

/-- R430: SB_ALERT_N is low. -/
def State.alertLow (s : State) : Bool :=
  (s.fb F.FLT_CTL_alert_en && (s.fb F.FLT_STATUS_fault_state || s.anyContained)) || s.fatal

/-- R380: THERM_N is low. -/
def State.thermLow (s : State) : Bool := s.fb F.THM_SHUT_tripped

/-- R7, R131: milliseconds since power-good, from the epoch count: an epoch lasts 32 ns, or 256/7 ns on the -14 grade. -/
def State.ms (s : State) : Nat :=
  if Config.grade = .dv9616_16 then s.epoch / 31250 else s.epoch * 4 / 109375

/-- Epochs in a whole number of seconds. -/
def epochsOfSeconds (n : Nat) : Nat := if Config.grade = .dv9616_16 then n * 31250000 else n * 27343750

/-- Epochs in a whole number of milliseconds, rounded down. -/
def epochsOfMs (n : Nat) : Nat := if Config.grade = .dv9616_16 then n * 31250 else n * 109375 / 4

/-- Flits in a whole number of milliseconds. -/
def flitsOfMs (n : Nat) : Nat := if Config.grade = .dv9616_16 then n * 2000000 else n * 1750000

/-- R131, R428: the boot phase as STATUS reports it. -/
def State.bootPhase (s : State) : Nat := if s.halted then 0x0F else s.pwr.phase

/-- R131, R507: the STATUS word; all 0 until 0.5 ms after power-good. -/
def State.statusWord (s : State) : Nat :=
  if s.bootPhase = 0 then 0
  else s.bootPhase * 2 ^ 24 + (if s.thermLow then 2 ^ 23 else 0) + (if s.notified then 2 ^ 22 else 0) + min s.ms 0xFFFF

end Sys2Proof.Machine
end

