-- ==== Sys2Proof/Machine/Letterbox.lean ====
section
/-! DEFINITION. Letterboxes (03_letterbox_and_registers.md, R117-R124): the start of a command at its doorbell, its
completion, and what the row of every letterbox command shares. -/

namespace Sys2Proof.Machine

/-! ### Statuses of R122 -/
def cplOK : Nat := 0x00
def cplNOTREADY : Nat := 0x01
def cplBUSY : Nat := 0x02
def cplDENIED : Nat := 0x03
def cplBADCMD : Nat := 0x04
def cplBADARG : Nat := 0x05
def cplDEADLINE : Nat := 0x06
def cplRESTART : Nat := 0x07
def cplREJECTED : Nat := 0x08
def cplABORTED : Nat := 0x09
def cplRUNNING : Nat := 0x80
def cplIDLE : Nat := 0x81

/-- The completion word of R122. -/
def cplWord (seq status : Nat) (committed : Bool) (reslen : Nat) : Nat :=
  2 ^ 24 * (seq % 256) + 2 ^ 16 * (status % 256) + (if committed then 2 ^ 15 else 0) + reslen % 256

/-- A row of R124: the code, whether LB0-LB3 accept it, and the debug level it needs in LB5. Every command is accepted
in LB4. -/
structure CmdRow where
  code : Nat
  inband : Bool
  level : Nat
deriving DecidableEq, Repr

/-- R124. -/
def cmdRows : List CmdRow := [
  ⟨0x0101, true, 0⟩, ⟨0x0102, true, 0⟩, ⟨0x0103, true, 0⟩, ⟨0x0201, true, 1⟩, ⟨0x0202, true, 2⟩,
  ⟨0x0301, true, 2⟩, ⟨0x0302, true, 2⟩, ⟨0x0303, true, 2⟩, ⟨0x0304, true, 1⟩,
  ⟨0x0401, true, 2⟩, ⟨0x0402, true, 1⟩, ⟨0x0403, true, 2⟩, ⟨0x0501, true, 2⟩, ⟨0x0502, true, 1⟩] ++ [
  ⟨0x0601, true, 2⟩, ⟨0x0602, true, 2⟩, ⟨0x0603, true, 2⟩, ⟨0x0604, true, 2⟩,
  ⟨0x0701, true, 1⟩, ⟨0x0702, true, 2⟩, ⟨0x0703, true, 1⟩, ⟨0x0801, true, 2⟩, ⟨0x0802, true, 1⟩, ⟨0x0803, true, 2⟩,
  ⟨0x0901, true, 1⟩, ⟨0x0902, true, 2⟩, ⟨0x0A01, true, 2⟩, ⟨0x0A02, true, 1⟩] ++ [
  ⟨0x0B01, true, 1⟩, ⟨0x0B02, false, 2⟩, ⟨0x0B03, false, 2⟩,
  ⟨0x0C01, true, 0⟩, ⟨0x0C02, false, 0⟩, ⟨0x0C03, false, 0⟩, ⟨0x0C04, false, 0⟩,
  ⟨0x0D01, true, 2⟩, ⟨0x0D02, true, 2⟩, ⟨0x0D03, true, 1⟩,
  ⟨0x0E01, true, 2⟩, ⟨0x0E02, true, 2⟩, ⟨0x0E03, true, 2⟩, ⟨0x0E04, true, 1⟩, ⟨0x0E05, true, 2⟩]

/-- R123: at most one of these runs in the device at a time. -/
def exclusiveCmds : List Nat :=
  [0x0202, 0x0303, 0x0E02, 0x0D02, 0x0601, 0x0602, 0x0603, 0x0604, 0x0B02, 0x0B03, 0x0C04]

/-- The debug level in force (R477). -/
def State.level (s : State) : Nat := s.fv F.SEC_STATUS_level

/-- The lifecycle state (R471): 0 BLANK, 1 PROVISIONED, 2 DEPLOYED, 3 RETURNED. -/
def State.lifecycle (s : State) : Nat := s.fv F.SEC_STATUS_lifecycle

/-- The boot stopped with no image accepted (R482). -/
def State.noImage (s : State) : Bool := s.pwr.phase == 0x0F && s.fv F.SEC_STATUS_halt_cause == 1

/-- R482: what LB4 and LB5 accept while no image is accepted. -/
def noImageCmds : List Nat := [0x0101, 0x0102, 0x0D03, 0x0D01, 0x0D02]

/-- The POLICY word as it acts (R465): word 0 of a VERIFIED or RESOLVED region, else all 0. -/
def State.policyOf (s : State) : Word :=
  if s.sectGood 4 0 then Tab.get (fun _ => 0) s.cst.image (1472 + 32) else 0

/-- R482: in DEPLOYED, LB4 takes part in a host push only with fw_sideband = 1. -/
def State.pushServed (s : State) (n : Nat) : Bool :=
  n == 5 || (n == 4 && (s.lifecycle != 2 || (s.policyOf).field 3 1 == 1))

/-- R450: the commands that a device booted LIMITED answers: INFO, LOG, THERM, CAL, TEST and OTP.READ. -/
def limitedCmd (code : Nat) : Bool := [1, 7, 8, 9, 0x0A].contains (code / 256) || code == 0x0B01

/-- R117, R400: the parlour core that serves a letterbox. -/
def State.coreOf (s : State) (n : Nat) : Nat := if n < 4 then n else if s.flt.cores.contains 0 then 1 else 0

/-- R126, R400, R473, R482: the letterbox is served. -/
def State.lbServed (s : State) (n code : Nat) : Bool :=
  if s.noImage then s.pushServed n && noImageCmds.contains code
  else s.pwr.booted && !s.halted && !s.flt.cores.contains (s.coreOf n) && !(n < 4 && s.sec.moving && s.sec.shut)

/-- The owner of a letterbox. -/
def State.lbOwner (s : State) (n : Nat) : Option Nat :=
  if s.fb (F.MBX_OWNER_owned n) then some (s.fv (F.MBX_OWNER_owner n)) else none

/-- R117: the owner's path is one that the letterbox accepts commands from: the ports of its quadrant, the sideband for LB4,
the test port for LB5. -/
def State.ownerFits (s : State) (n : Nat) : Bool :=
  match s.lbOwner n with
  | some p => if n < 4 then decide (p / 16 = n) else p == 60 + n
  | none => true

/-- The status with which a command ends at its start, when it does not run (R117, R122-R124, R450, R482). A command from a path
that the letterbox does not accept is DENIED (log 94). -/
def State.startStatus (s : State) (n code flags : Nat) : Option Nat :=
  match cmdRows.find? fun r => r.code == code with
  | none => some cplBADCMD
  | some r =>
    if 2 ≤ flags then some cplBADCMD
    else if !s.lbServed n code then some cplNOTREADY
    else if !s.ownerFits n then some cplDENIED
    else if (n < 4 && !r.inband) || (n == 5 && decide (s.level < r.level)) || (s.isLimited && !limitedCmd code) then some cplDENIED
    else if exclusiveCmds.contains code && (List.range 6).any fun m =>
        m != n && (match (s.lb m).running with | some (c, _) => exclusiveCmds.contains c | none => false) then some cplBUSY
    else none

/-- The bytes of a command buffer. -/
def State.bufBytes (s : State) (n off len : Nat) : List Byte :=
  (List.range len).map fun k => BitVec.ofNat 8 ((s.live.val (R.MBX_BUF n ((off + k) / 4))).field (8 * ((off + k) % 4)) 8)

/-- Write bytes into a command buffer; the bytes of a word beyond the last one stay. -/
def State.putBuf (s : State) (n off : Nat) (bs : List Byte) : State :=
  (bs.zipIdx).foldl (fun s b =>
    let o := off + b.2
    { s with live := s.live.put (R.MBX_BUF n (o / 4)) ((s.live.val (R.MBX_BUF n (o / 4))).setField (8 * (o % 4)) 8 b.1.toNat) }) s

/-- R118: the letterbox is released. -/
def State.releaseLb (s : State) (n : Nat) : State :=
  ((s.setF (F.MBX_OWNER_owned n) 0).setF (F.MBX_OWNER_owner n) 0).setF (F.MBX_OWNER_release n) 0

/-- R120: CPLNOTE to the in-band owner. -/
def State.cplNote (s : State) (n word : Nat) : State :=
  match s.lbOwner n with
  | some p =>
    if decide (p < 64) && s.fb (F.MBX_CTL_cpl_note n) && s.linkTalks (p / 4) then
      s.sendMgmt (p / 4) (payload [(0, 1, 5), (1, 1, p % 4), (2, 1, n), (4, 4, word)])
    else s
  | none => s

/-- R135: the source that a completion raises. -/
def cplSource : Nat → Option Nat
  | 6 => some 0
  | 8 => some 1
  | 7 => some 2
  | 9 => some 3
  | _ => none

/-- R120-R122: a command ends: the result at byte 8, then the completion word, then the CPLNOTE; a release asked for
while it ran takes effect (log 20). -/
def State.complete (s : State) (n status : Nat) (committed : Bool) (result : List Byte) : State :=
  let L := s.lb n
  let status := if L.restarted then cplRESTART else status
  let seq := match L.running with | some (_, q) => q | none => 0
  let word := cplWord seq status committed result.length
  let s := (s.putBuf n 8 result).setF (F.MBX_CPL_word n) word
  let s := (s.setF (F.MBX_CTL_abort n) 0).setLb n {}
  let s := match cplSource status with | some k => s.raise (Src.letterbox k n) n | none => s
  let s := s.cplNote n word
  if L.releaseAtEnd then s.releaseLb n else s

/-- A command ends with an error status and no effect. -/
def State.fail (s : State) (n status : Nat) : State := s.complete n status false []

/-- A command ends OK. -/
def State.done (s : State) (n : Nat) (result : List Byte) : State := s.complete n cplOK true result

/-- R119-R121: the owner has rung: the command is RUNNING, or ends at once. -/
def State.startCommand (s : State) (n : Nat) : State :=
  let h := s.bufBytes n 0 8
  let b (k : Nat) : Nat := (h.getD k 0).toNat
  let code := b 0 + 256 * b 1
  let arglen := b 6 + 256 * b 7
  let s := (s.setF (F.MBX_CPL_word n) (cplWord (b 2) cplRUNNING false 0)).modLb n fun _ =>
    { running := some (code, b 2), flags := b 3, args := s.bufBytes n 8 (min arglen 248) }
  match s.startStatus n code (b 3) with
  | some st => s.fail n st
  | none => if 248 < arglen then s.fail n cplBADARG else s

/-- R120, R133, R425: a ring starts the command unless one runs, the letterbox is disabled or contained. -/
def State.ring (s : State) (n : Nat) : State :=
  if (s.lb n).running.isSome || !s.fb (F.MBX_CTL_enable n) || s.isContained (.letterbox n) then s
  else s.startCommand n

/-- R121: a command that is ended before its commit point has no effect: what it has begun is dropped. -/
def State.dropWork (s : State) (n : Nat) : State :=
  { s with
    remapRuns := s.remapRuns.filter fun r => r.lb != n
    bst := { s.bst with runs := s.bst.runs.filter fun r => !(r.restore && r.lb == some n) }
    pwr := { s.pwr with resets := s.pwr.resets.filter fun r => r.lb != n || r.committed }
    sec := if (s.lb n).running.any (fun c => c.1 == 0x0C04) then { s.sec with moving := false, shut := false } else s.sec }

/-- R121: the deadline, an abort or a restart ends a command before its commit point, with the given status. -/
def State.endEarly (s : State) (n status : Nat) : State :=
  if (s.lb n).running.isSome && !(s.lb n).committed then (s.dropWork n).complete n status false [] else s

/-- R121, R480: parlour core `c` restarts: commands of its letterboxes before their commit point end RESTART, the others
will complete RESTART. -/
def State.restartCore (s : State) (c : Nat) : State :=
  let s := { s with sec := { s.sec with kickAt := Tab.set (fun _ => 0) s.sec.kickAt c s.epoch } }
  (List.range 6).foldl (fun (s : State) n =>
    if s.coreOf n = c && (s.lb n).running.isSome then
      if (s.lb n).committed then s.modLb n fun L => { L with restarted := true } else s.endEarly n cplRESTART
    else s) s

/-! ### What every command's row shares -/

/-- R400, R487: the core of a letterbox is under test, or halted; a command rung meanwhile waits for it. -/
def State.coreBusy (s : State) (n : Nat) : Bool :=
  (s.fv F.BST_STATUS_parlour).testBit (s.coreOf n) || (s.fv F.SEC_DBGHALT_halt).testBit (s.coreOf n)

/-- The letterbox runs the command with this code and has not begun it. -/
def State.runs (s : State) (n code : Nat) : Bool :=
  (match (s.lb n).running with | some (c, _) => c == code | none => false) && !(s.lb n).begun && !s.coreBusy n && !s.halted

/-- A command's arguments as a number, and one little-endian field of them. -/
def LbSt.arg (L : LbSt) (off len : Nat) : Nat := ofLeBytes ((L.args.drop off).take len)

/-- Run a command of the list in letterbox `n`: nothing happens unless it is the one that runs; arguments shorter than
the command needs complete BADARG. -/
def State.command (s : State) (n code need : Nat) (f : LbSt → State → State) : Host.Outcome State Fault Refusal :=
  if s.runs n code then
    if (s.lb n).args.length < need then .next (s.fail n cplBADARG) else .next (f (s.lb n) s)
  else .next s

/-- The command has begun: it waits for an event to end it. `committed` says whether it has passed its commit point. -/
def State.begin (s : State) (n : Nat) (committed : Bool) (epoch : Nat) : State :=
  s.modLb n fun L => { L with begun := true, committed := committed, answerEpoch := epoch }

end Sys2Proof.Machine
end

