-- ==== Sys2Proof/Machine/Faults.lean ====
section
/-! DEFINITION. Containment and its release (R425, R433) and the quiet period (R426, R427). -/

namespace Sys2Proof.Machine

/-- R398, BST_ENG_OUT: an engine is out, or in again. -/
def State.setEngineOut (s : State) (e : Nat) (out : Bool) : State :=
  let a := R.BST_ENG_OUT (e / 32)
  let w := (s.live.val a).setField (e % 32) 1 (if out then 1 else 0)
  { s with live := s.live.put a w }

/-- R400, R480: a parlour core is held in reset; its commands before their commit point end RESTART. -/
def State.holdCore (s : State) (c : Nat) : State :=
  if s.flt.cores.contains c then s
  else
    let s := s.restartCore c
    { s.putBit F.SEC_PARLOUR_hold c true with flt := { s.flt with cores := s.flt.cores ++ [c] } }

/-- R425: the bit of a unit in its containment register. -/
def State.setContained (s : State) (b : Bool) : CUnit → State
  | .link n => s.putBit F.FLT_CONTAIN_LINK_link n b
  | .port p => if p < 32 then s.putBit F.FLT_CONTAIN_PORT_LO_port p b else s.putBit F.FLT_CONTAIN_PORT_HI_port (p - 32) b
  | .ports q => (List.range 16).foldl (fun (s : State) k =>
      if q < 2 then s.putBit F.FLT_CONTAIN_PORT_LO_port (16 * q + k) b else s.putBit F.FLT_CONTAIN_PORT_HI_port (16 * (q - 2) + k) b) s
  | .tile t => s.putBit F.FLT_CONTAIN_TILE_tile t b
  | .engine e => { s with flt := { s.flt with units := if b then s.flt.units ++ [.engine e] else s.flt.units.filter (· ≠ .engine e) } }
  | .core c => { s with flt := { s.flt with units := if b then s.flt.units ++ [.core c] else s.flt.units.filter (· ≠ .core c) } }
  | .cellar => s.setF F.FLT_CONTAIN_MISC_cellar (if b then 1 else 0)
  | .letterbox n => s.putBit F.FLT_CONTAIN_MISC_lb n b

/-- R425: a unit stops. -/
def State.containNow (s : State) (u : CUnit) : State :=
  if s.isContained u then s
  else
    let s := s.setContained true u
    match u with
    | .link n => if s.linkState n = lsDown then s else s.linkDown n
    | .engine e => s.setEngineOut e true
    | .core c => s.holdCore c
    | _ => s

/-- R424, R425: the boundary after a contain-severity latch. -/
def execContainUnit (s : State) : Host.Outcome State Fault Refusal :=
  if s.atBoundary then
    let us := s.flt.pendContain
    .next (us.foldl State.containNow { s with flt := { s.flt with pendContain := [] } })
  else .next s

/-- R425: releases asked for take effect at a boundary. -/
def State.applyReleases (s : State) : State :=
  let us := s.flt.pendRelease
  us.foldl (fun (s : State) u => s.setContained false u) { s with flt := { s.flt with pendRelease := [] } }

/-- R426: the quiet period, in flits. -/
def State.quietPeriod (s : State) : Nat := flitsOfMs (max 1 (s.fv F.FLT_QUIET_period))

/-- R426, R431: the quiet period expires with no new raise. -/
def execQuietPeriodExpiry (s : State) : Host.Outcome State Fault Refusal :=
  if !s.fb F.FLT_STATUS_quiet_running || s.halted || decide (s.absFlit < s.flt.quietAt + s.quietPeriod) then .next s
  else
    let s := ((s.setF F.FLT_STATUS_quiet_running 0).setF F.FLT_STATUS_fault_state 0).inc F.FLT_RECOVERY_count
    .next (s.when (s.fb F.FLT_CTL_event_en) fun s =>
      s.sendEvent 0x0C02 0 [(12, 2, s.fv F.FLT_RECOVERY_count), (14, 8, s.summary)])

end Sys2Proof.Machine
end

