-- ==== Sys2Proof/Machine/Tables.lean ====
section
/-! DEFINITION. The descriptors of hash tables and prefix tables (R233, R244, R255, R256), read from a configuration.
Every tile holds them alike, so they are read at tile 0. -/

namespace Sys2Proof.Machine

/-- A hash-table descriptor with its fields as they act (R255). -/
structure HashTab where
  enable : Bool
  /-- Entry size in bytes. -/
  esize : Nat
  maxdisp : Nat
  logb : Nat
  keylen : Nat
  base : Nat
  seed1 : Nat
  seed2 : Nat
deriving DecidableEq, Repr

def hashTab (cfg : RegMap) (t : Nat) : HashTab where
  enable := cfg.fv (F.ENG_HT_CTL_enable 0 t) != 0
  esize := match cfg.fv (F.ENG_HT_CTL_esize 0 t) with | 0 => 16 | 1 => 32 | _ => 64
  maxdisp := min 8 (cfg.fv (F.ENG_HT_CTL_maxdisp 0 t))
  logb := max 5 (min 26 (cfg.fv (F.ENG_HT_CTL_logb 0 t)))
  keylen := max 1 (cfg.fv (F.ENG_HT_CTL_keylen 0 t))
  base := 2048 * cfg.fv (F.ENG_HT_BASE_base 0 t)
  seed1 := cfg.fv (F.ENG_HT_SEED1_seed 0 t)
  seed2 := cfg.fv (F.ENG_HT_SEED2_seed 0 t)

/-- Bytes of a hash table's memory. -/
def HashTab.size (h : HashTab) : Nat := 64 * 2 ^ h.logb

/-- R235: the hash of a key of `n` bytes under a seed. -/
def keyHash (seed key n : Nat) : Nat := crc32c (leBytes 4 seed ++ leBytes n key)

/-- R235: the two candidate buckets of a key. -/
def HashTab.candidates (h : HashTab) (key : Nat) : Nat × Nat :=
  let h1 := keyHash h.seed1 key h.keylen
  let h2 := keyHash h.seed2 key h.keylen
  let b1 := h1 % 2 ^ h.logb
  (b1, 32 * (h2 / 32 % 2 ^ (h.logb - 5)) + (b1 % 32 + 1 + h2 % 31) % 32)

/-- The home tile of a key: the channel of its first candidate. -/
def HashTab.home (h : HashTab) (key : Nat) : Nat := (h.candidates key).1 % 32

/-- One level of a prefix table: its stride and pool base, a scratchpad offset or a DRAM address. -/
structure TrieLevel where
  stride : Nat
  base : Nat
deriving DecidableEq, Repr

/-- A prefix-table descriptor with its fields as they act (R255, R256). -/
structure TrieTab where
  enable : Bool
  v6 : Bool
  nlar : Nat
  levels : List TrieLevel
  dflt : Option Nat
deriving DecidableEq, Repr

/-- The presets of R256: family, strides, Larder levels. -/
def triePreset : Nat → Option (Bool × List Nat × Nat)
  | 1 => some (false, [16, 8, 8], 1)
  | 2 => some (true, [16, 16, 8, 8, 8, 8], 1)
  | 3 => some (true, [16, 16, 16, 16, 16, 16, 16, 16], 2)
  | _ => none

def trieTab (cfg : RegMap) (t : Nat) : TrieTab :=
  let (v6, strides, nlar) := match triePreset (cfg.fv (F.ENG_TRIE_CTL_preset 0 t)) with
    | some p => p
    | none =>
      (cfg.fv (F.ENG_TRIE_CTL_v6 0 t) != 0,
        (List.range (max 1 (min 8 (cfg.fv (F.ENG_TRIE_CTL_nlev 0 t))))).map fun i =>
          max 3 (min 16 (cfg.fv (F.ENG_TRIE_LVLB_stride 0 t i))),
        min 8 (cfg.fv (F.ENG_TRIE_CTL_nlar 0 t)))
  { enable := cfg.fv (F.ENG_TRIE_CTL_enable 0 t) != 0
    v6 := v6
    nlar := nlar
    levels := (strides.zipIdx).map fun x =>
      ⟨x.1, 64 * cfg.fv (F.ENG_TRIE_LVLA_base 0 t x.2) + (if x.2 < nlar then 0 else 2 ^ 32 * cfg.fv (F.ENG_TRIE_LVLB_base 0 t x.2))⟩
    dflt := if cfg.fv (F.ENG_TRIE_DFLT_valid 0 t) = 0 then none else some (cfg.fv (F.ENG_TRIE_DFLT_nh 0 t)) }

/-- D, the DRAM level count, and U, 1 when the table has Larder levels (R160). -/
def TrieTab.dram (t : TrieTab) : Nat := t.levels.length - t.nlar
def TrieTab.u (t : TrieTab) : Nat := if t.nlar = 0 then 0 else 1

/-- The DRAM level count that the gate uses for an LPM; an unconfigured table has none. -/
def lpmLevels (cfg : RegMap) (t : Nat) : Nat := if (trieTab cfg t).enable then (trieTab cfg t).dram else 0

/-- D_max: the largest DRAM level count of any enabled prefix table (R183, R244). -/
def dMax (cfg : RegMap) : Nat := (List.range 16).foldl (fun d t => max d (lpmLevels cfg t)) 0

end Sys2Proof.Machine
end

