-- ==== Sys2Proof/Machine/Mem.lean ====
section
/-! DEFINITION. Memory as requests and engines see it: the Larder's granules and the scratchpad (R289-R292, R302), the
counter cache in front of DRAM (R208-R213), and which channels and engines serve (R346, R399, R425). -/

namespace Sys2Proof.Machine

/-! ### Work in open slots (R149) -/

/-- The tile plans epochs. -/
def State.planning (s : State) (t : Nat) : Bool := s.fb (F.SCH_STATUS_running t)

/-- Whom a piece of engine work serves: (port, tag, acceptance frame); port 0xFF for no request. -/
abbrev WorkFor := Nat × Nat × Nat
def noReq : WorkFor := (0xFF, 0, 0)
def Req.work (r : Req) : WorkFor := (r.port, r.tag, r.frame)

/-- R230: flush_busy shows that a write-back of the counter cache waits for a slot of tile `t`. -/
def State.showFlush (s : State) (t : Nat) : State :=
  s.setF (F.ENG_CTL_flush_busy t) (if (s.tile t).work.any fun w => w.rank == 1 then 1 else 0)

/-- Engine work waits for an open slot in the channel of a burst: rank 1 a write-back of the counter cache, rank 2 other
work (R149, R211). A channel that plans no epochs does it at once. -/
def State.queueWork (s : State) (rank : Nat) (id : WorkFor) (loc : Loc) (wr : Bool) : State :=
  if s.planning loc.ch then
    (s.modTile loc.ch fun T =>
      { T with work := T.work ++ [⟨rank, s.epoch, ⟨id.1, id.2.2, id.2.1, loc.bank, loc.row, loc.col, false, wr, 0⟩⟩] }).showFlush loc.ch
  else s

/-! ### Granules and the scratchpad -/

/-- R302: the kind of granule `g` under a preset. -/
def presetKind (preset g : Nat) : Nat :=
  if g = 1 then 5
  else match preset with
    | 1 => if g ≤ 3 then 2 else if g = 4 then 3 else if g ≤ 6 then 4 else 1
    | 2 => if g ≤ 5 then 2 else 1
    | _ => if g = 2 then 2 else if g = 3 then 3 else if g ≤ 11 then 4 else 1

/-- R411: a mark beside the registers of a configuration, above the address space: the start-up march has found no bank
to stand in for a failed one, and the granules of quadrant `q` are UNUSED. -/
def deadKey (q : Nat) : Nat := 0x1000000 + q

/-- R289: the field of granule `g` of quadrant `q`. -/
def granuleField (cfg : RegMap) (q g : Nat) : Nat :=
  if g < 8 then (cfg.val (R.LAR_PART_LO q)).field (4 * g) 4 else (cfg.val (R.LAR_PART_HI q)).field (4 * (g - 8)) 4

/-- R289, R411: the kind of granule `g` of quadrant `q` in a configuration. -/
def granule (cfg : RegMap) (q g : Nat) : Nat :=
  if g = 0 then 15
  else if (cfg.val (deadKey q)).toNat ≠ 0 then 0
  else
    let p := cfg.fv (F.LAR_CTL_preset q)
    if 1 ≤ p ∧ p ≤ 3 then presetKind p g
    else granuleField cfg q g

/-- How many granules of a kind a quadrant holds. -/
def granules (cfg : RegMap) (q kind : Nat) : Nat := ((List.range 16).filter fun g => granule cfg q g == kind).length

/-- The SCRATCH granules, in the order of the scratchpad (R292). -/
def scratchGranules (cfg : RegMap) : List (Nat × Nat) :=
  (List.range 4).flatMap fun q => ((List.range 16).filter fun g => granule cfg q g == 1).map fun g => (q, g)

/-- P, the size of the scratchpad in bytes. -/
def scratchSize (cfg : RegMap) : Nat := 2 ^ 20 * (scratchGranules cfg).length

/-- The line that holds a scratchpad offset (R292). -/
def scratchLine (cfg : RegMap) (o : Nat) : LLine :=
  let (q, g) := (scratchGranules cfg).getD (o / 2 ^ 20) (0, 0)
  let l := o % 2 ^ 20 / 64
  ⟨q, 8 * g + l % 8, l / 8⟩

/-- The scratchpad offset of a word of a line, when it has one. -/
def scratchAt (cfg : RegMap) (l : LLine) (w : Nat) : Option Nat :=
  ((scratchGranules cfg).findIdx? fun g => decide (g = (l.q, l.bank / 8)) && decide (l.bank < 128)).map fun i =>
    2 ^ 20 * i + 64 * (8 * l.line + l.bank % 8) + 8 * w

/-- R93 for the scratchpad. -/
def scratchHole (cfg : RegMap) (op len flags addr : Nat) : Bool :=
  toScratch op flags && decide (scratchSize cfg < addr + targetBytes op len)

/-- Read and write the scratchpad word at an offset. -/
def State.readScratch (s : State) (cfg : RegMap) (o : Nat) (ctx : ReadCtx) : WordRead × State :=
  s.readLarder (scratchLine cfg o) (o / 8 % 8) ctx (some o)

def State.writeScratch (s : State) (cfg : RegMap) (o : Nat) (data : DWord) (poison : Bool) : State :=
  s.writeLarder (scratchLine cfg o) (o / 8 % 8) data poison

/-! ### The two paths (R295-R297) -/

/-- Accesses to words of a line. -/
def lineUse (l : LLine) (words : List Nat) (wr : Bool) : List LAcc := words.map fun w => ⟨l.q, l.bank, l.line, w, wr⟩

def LAcc.at_ (a : LAcc) : Nat := 128 * a.q + a.bank

/-- R297: two accesses meet on a word, and one of them writes. -/
def LAcc.meets (a b : LAcc) : Bool := a.q == b.q && a.bank == b.bank && a.line == b.line && a.word == b.word && (a.wr || b.wr)

/-- The line that a place of the Larder names in one number (a place that the spec does not give). -/
def placeLine (q v : Nat) : LLine := ⟨q, v % 128, v / 128 % 2048⟩

/-- A flit ends: the next one's accesses meet anew. -/
def State.larderFlit (s : State) : State := { s with lar := { s.lar with host := [], eng := [], counted := [] } }

/-- R291, R300: granules are powered down once no request accepted before their boundary is left. -/
def State.powerDown (s : State) : State :=
  let (now, wait) := s.lar.down.partition fun d => !s.reqs.any fun r => decide (r.frame < 8 * d.2)
  (now.map (·.1)).foldl State.loseGranule { s with lar := { s.lar with down := wait } }

/-! ### What serves -/

/-- R413: the tile, or its quadrant, is under test in MAINTENANCE: its channel answers UNAVAIL. -/
def State.tileInTest (s : State) (t : Nat) : Bool :=
  s.bst.runs.any fun r => (r.kind == 0x10 && r.a == t) || (r.kind == 0x12 && r.a == t / 8)

/-- R346, R413, R425, R503: the channel is served: neither DEGRADED nor contained, nor under test, nor on a riser that is
trained again. -/
def State.serves (s : State) (t : Nat) : Bool :=
  !s.fb (F.SCH_STATUS_degraded t) && !((s.riser t).retrain && s.carrier t == t) && !s.isContained (.tile t) && !s.tileInTest t

/-- R398: engine `e` is out. -/
def State.engineOut (s : State) (e : Nat) : Bool := (s.live.val (R.BST_ENG_OUT (e / 32))).toNat.testBit (e % 32)

/-- R398: engine `e` takes new work: it is neither out nor under test. -/
def State.engineIn (s : State) (e : Nat) : Bool :=
  !s.engineOut e && !(s.bst.runs.any fun r => r.kind == 1 && r.a == e && decide (r.at_ ≤ s.epoch))

/-- R399: some engine of the tile takes work. -/
def State.engineUp (s : State) (t : Nat) : Bool := (List.range 4).any fun k => s.engineIn (4 * t + k)

/-- The engine that a tile's work is put down to: the lowest that takes work, the lowest of all when none does (log 22). -/
def State.engineOf (s : State) (t : Nat) : Nat := 4 * t + ((List.range 4).find? fun k => s.engineIn (4 * t + k)).getD 0

/-- Engine `k` of the tile, which a command names, if it takes work (R399, log 22). -/
def State.engineFor (s : State) (t k : Nat) : Nat := if s.engineIn (4 * t + k) then 4 * t + k else s.engineOf t

/-! ### Counter and policer regions (R206) -/

/-- A region: its kind, whether it is in the scratchpad, its base and size in bytes. -/
structure Region where
  kind : Nat
  inLarder : Bool
  base : Nat
  size : Nat
deriving DecidableEq, Repr

def region (cfg : RegMap) (n : Nat) : Region :=
  ⟨cfg.fv (F.ENG_REG_BASE_kind 0 n), cfg.fv (F.ENG_REG_BASE_l 0 n) != 0, 65536 * cfg.fv (F.ENG_REG_BASE_base 0 n),
    65536 * cfg.fv (F.ENG_REG_SIZE_size 0 n)⟩

/-- The kind of the region that holds all of `bytes` bytes at an address of one space; 0 when none does. -/
def regionKind (cfg : RegMap) (inLarder : Bool) (addr bytes : Nat) : Nat :=
  (((List.range 16).map (region cfg)).find? fun r =>
    r.inLarder == inLarder && decide (r.kind ≠ 0) && decide (r.base ≤ addr) && decide (addr + bytes ≤ r.base + r.size)).elim 0 (·.kind)

/-! ### The counter cache -/

/-- R208: the sets of a tile's share: 224 for each COUNTERS granule of its quadrant, at most 8 of them. -/
def cacheSets (cfg : RegMap) (t : Nat) : Nat := 224 * min 8 (granules cfg (t / 8) 2)

/-- The table key of the set of a burst. -/
def cacheKey (t sets burst : Nat) : Nat := 16384 * t + burst % sets

def State.cacheSet (s : State) (k : Nat) : List CLine := Tab.get (fun _ => []) s.eng.cache k
def State.setCacheSet (s : State) (k : Nat) (ls : List CLine) : State :=
  { s with eng := { s.eng with cache := Tab.set (fun _ => []) s.eng.cache k ls } }

/-- The place of a line of tile `t`. -/
def CLine.loc (l : CLine) (t : Nat) : Loc := ⟨t, l.bank, l.row, l.col⟩

/-- The set key and the cached line of a burst, when it is cached. -/
def State.cached (s : State) (loc : Loc) : Option (Nat × CLine) :=
  s.eng.cache.findSome? fun e =>
    if e.1 / 16384 = loc.ch then (e.2.find? fun l => decide (l.loc loc.ch = loc)).map fun l => (e.1, l) else none

/-- The line becomes the most recently used of its set. -/
def State.touchLine (s : State) (k : Nat) (l : CLine) : State :=
  s.setCacheSet k (l :: (s.cacheSet k).filter fun x => decide (x.loc 0 ≠ l.loc 0))

/-- Put a codeword into a cached line. -/
def State.putLine (s : State) (k : Nat) (l : CLine) (w : Nat) (c : Codeword) (dirty : Bool) : State :=
  s.setCacheSet k ((s.cacheSet k).map fun x => if x.loc 0 = l.loc 0 then { x with words := x.words.set w c, dirty := x.dirty || dirty } else x)

/-- Read a word of a cached line (R213): a Larder word, corrected and written back clean at once (R315). -/
def State.readCached (s : State) (t k : Nat) (l : CLine) (w : Nat) (ctx : ReadCtx) : WordRead × State :=
  s.readBuffer t w (l.words.getD w 0) ctx fun s c => s.putLine k l w c false

/-- R209: a read of the DRAM word at an address returns the cached word when its line is cached. -/
def State.readMem (s : State) (cfg : RegMap) (a : Nat) (ctx : ReadCtx) : WordRead × State :=
  let l := dramLoc cfg a
  match s.cached l with
  | some (k, line) => s.readCached l.ch k line (a / 8 % 8) ctx
  | none => s.readDram l (a / 8 % 8) ctx

/-- R209: a write of the DRAM word at an address goes to the cached line, which becomes dirty, or to the array. -/
def State.writeMem (s : State) (cfg : RegMap) (a : Nat) (data : DWord) (poison : Bool) : State :=
  let l := dramLoc cfg a
  match s.cached l with
  | some (k, line) => s.putLine k line (a / 8 % 8) (encodeWord data poison) true
  | none => s.writeDram l (a / 8 % 8) data poison

/-- Read the `n` words at an address, in order. -/
def State.readMems (s : State) (cfg : RegMap) (a n : Nat) (ctx : ReadCtx) : List WordRead × State :=
  (List.range n).foldl (fun (rs, s) w => let (r, s) := s.readMem cfg (a + 8 * w) ctx; (rs ++ [r], s)) ([], s)

/-- Write words at an address, in order. -/
def State.writeMems (s : State) (cfg : RegMap) (a : Nat) (ws : List (DWord × Bool)) : State :=
  (ws.zipIdx).foldl (fun s w => s.writeMem cfg (a + 8 * w.2) w.1.1 w.1.2) s

/-- R213, R311: write a dirty line back to the array: each word as the line holds it, an uncorrectable word poisoned with
its data bits as read, which raises cache_wb_ue (R232). -/
def State.writeBack (s : State) (t : Nat) (l : CLine) : State :=
  let s := (l.words.zipIdx).foldl (fun (s : State) w =>
    match decodeWord w.1.toNat [] with
    | .ok x _ _ => s.writeDram (l.loc t) w.2 (BitVec.ofNat 64 x) (x.testBit 64)
    | .bad =>
      ((s.inc (F.ECC_CNT_LUE_count (t / 8))).raise (Src.engine 3 (t / 8)) (s.engineOf t)).writeDram (l.loc t) w.2
        (BitVec.ofNat 64 w.1.toNat) true) s
  s.inc (F.ENG_CNT_CWB_count t)

/-- The sets of a tile's cache that hold a dirty line satisfying `p`: (key, line). -/
def State.dirtyLines (s : State) (p : Nat → CLine → Bool) : List (Nat × CLine) :=
  s.eng.cache.flatMap fun e => (e.2.filter fun l => l.dirty && p (e.1 / 16384) l).map fun l => (e.1, l)

/-- Write back every dirty line that satisfies `p`, in open slots; the lines stay cached, clean (R211). -/
def State.cleanLines (s : State) (id : WorkFor) (p : Nat → CLine → Bool) : State :=
  (s.dirtyLines p).foldl (fun s e =>
    let t := e.1 / 16384
    let s := s.setCacheSet e.1 ((s.cacheSet e.1).map fun x => if x.loc 0 = e.2.loc 0 then { x with dirty := false } else x)
    (s.writeBack t e.2).queueWork 1 id (e.2.loc t) true) s

/-- Drop every line that satisfies `p`, after its write-back (R212). -/
def State.dropLines (s : State) (p : Nat → CLine → Bool) : State :=
  let s := s.cleanLines noReq p
  let keys := s.eng.cache.map (·.1)
  keys.foldl (fun s k => s.setCacheSet k ((s.cacheSet k).filter fun l => !p (k / 16384) l)) s

/-- R208, R210: fill a line from the array: the whole burst is read by the engine, an uncorrectable word enters poisoned.
The flags say which of its words have been corrected. -/
def State.fillLine (s : State) (loc : Loc) (burst : Nat) (ctx : ReadCtx) : (CLine × List Bool) × State :=
  let (rs, s) := s.readBurst loc ctx
  ((⟨burst, loc.bank, loc.row, loc.col, false, rs.map fun r => encodeWord r.data r.isPoison⟩, rs.map (·.corr)), s)

end Sys2Proof.Machine
end

