-- ==== Sys2Proof/Machine/Requests.lean ====
section
/-! DEFINITION. The execution of accepted requests that only move data (R91-R94, R293), FENCE and TQUERY, the order of
requests that share a target (R85-R90), and the response with its fixed latency (R78-R83, R96, R159, R166). -/

namespace Sys2Proof.Machine

/-! ### Targets and order -/

/-- The 8-byte words of a request's target, by word number (R85). -/
def Req.words (r : Req) : List Nat :=
  let n := targetBytes r.op r.len / 8
  if r.op = opWRM ∨ r.op = opLWRM then (maskWords r.operand.toNat).map fun w => r.addr / 8 + w
  else if toDram r.op r.flags || toScratch r.op r.flags then (List.range n).map fun w => r.addr / 8 + w
  else []

/-- Bytes of the key in a request's WDATA flit. -/
def Req.key (r : Req) (n : Nat) : Nat := (r.data.headD 0).at 0 n

/-- R85, R90: two requests share a target. The key of an earlier lookup that has not arrived counts as equal. -/
def sameTarget (a b : Req) : Bool :=
  let hash (r : Req) : Bool := r.op == opHLK || r.op == opHINS || r.op == opHDEL
  let cel (r : Req) : Bool := r.op == opENQ || r.op == opDEQ || r.op == opQSTAT
  if hash a && hash b then
    let t := a.operand.toNat % 64
    let k := (hashTab a.cfg t).keylen
    t == b.operand.toNat % 64 && (decide (a.data.length < a.need) || a.key k == b.key k)
  else if cel a && cel b then a.operand.toNat % 2 ^ 18 == b.operand.toNat % 2 ^ 18
  else if a.op == opCFLUSH || b.op == opCFLUSH then false
  else (toDram a.op a.flags && toDram b.op b.flags || toScratch a.op a.flags && toScratch b.op b.flags) &&
    a.words.any fun w => b.words.contains w

/-- R84, R241: `a` was accepted before `b`; in one frame the lower port goes first, and in one port the lower position. -/
def lexBefore : List Nat → List Nat → Bool
  | x :: xs, y :: ys => decide (x < y) || (x == y && lexBefore xs ys)
  | _, _ => false
def Req.before (a b : Req) : Bool := lexBefore [a.frame, a.port, a.pos] [b.frame, b.port, b.pos]

/-- R229, R277, R283: `a` has reached its engine before `b`: with its last data flit, or with its header. -/
def Req.reaches (a b : Req) : Bool :=
  let key (r : Req) : List Nat := [if r.need = 0 then r.frame else r.ready, r.frame, r.port, r.pos]
  a.data.length == a.need && lexBefore (key a) (key b)

/-- A Cellar, counter or policer operation, whose target its engine takes up in arrival order (R150, R229, R277). -/
def Req.atEngine (r : Req) : Bool :=
  r.op == opENQ || r.op == opDEQ || r.op == opQSTAT || r.op == opPOL || (decide (opCADD64 ≤ r.op) && decide (r.op ≤ opCRDCLR))

/-- A request `a` keeps `b` from taking effect: R85 and R88 for one port, R241 for the maintenance of one table, R229 and
R277 for the operations of different ports on one target of an engine, and R211 for a CFLUSH behind its port's counter
updates. -/
def holdsBack (a b : Req) : Bool :=
  let maint (r : Req) : Bool := r.op == opHINS || r.op == opHDEL
  a.answer.isNone &&
  ((a.port == b.port && a.before b &&
      (a.op == opFENCE || b.op == opFENCE || sameTarget a b || (b.op == opCFLUSH && decide (opCADD64 ≤ a.op) && decide (a.op ≤ opCRDCLR)))) ||
    (maint a && maint b && a.before b && a.operand.toNat % 64 == b.operand.toNat % 64) ||
    (a.port != b.port && a.atEngine && b.atEngine && a.reaches b && sameTarget a b))

/-- The request is accepted and decided, not answered, its data there (R23), and no other holds it back. -/
def State.ready (s : State) (r : Req) : Bool :=
  !r.tentative && r.answer.isNone && r.data.length == r.need && !(s.reqs.any fun a => holdsBack a r)

/-- The request that the command of an opcode for (port, tag) runs. -/
def State.runnable (s : State) (op : Nat) (p : Port) (tag : BitVec 9) : Option Req :=
  (s.reqs.find? fun r => r.port == p.val && r.tag == tag.toNat).filter fun r => r.op == op && s.ready r

/-- Change the request of (port, tag). -/
def State.modReq (s : State) (r : Req) (f : Req → Req) : State :=
  { s with reqs := s.reqs.map fun q => if q.port == r.port && q.tag == r.tag then f q else q }

/-- The request's data came later than R24, R237 or R271 allows. -/
def Req.dataLate (r : Req) : Bool :=
  decide (0 < r.need) && decide (r.frame + (if r.op = opHLK ∨ r.op = opHINS ∨ r.op = opHDEL ∨ r.op = opLPM ∨ r.op = opENQ then 8 else 16) < r.ready)

/-- The burst belongs to the request. -/
def Burst.ofReq (r : Req) (b : Burst) : Bool := r.port == b.port && r.tag == b.tag && r.frame == b.frame

/-- R139, R278: the response of the burst's request waits for it: not for the write half of an engine operation, nor for
the writes of an ENQ outside DETERMINISTIC. -/
def Burst.awaited (r : Req) (b : Burst) : Bool := b.ofReq r && !(b.wr && (r.need == 0 || (r.op == opENQ && r.mode != 2)))

/-- A burst of a request that its response waits for is left at a tile; for engine work in open slots it always does. -/
def TileSt.burstsLeft (T : TileSt) (r : Req) : Bool :=
  let mine := Burst.awaited r
  T.plan.any mine || T.held.any mine || T.late.any mine || (T.bursts.any fun e => e.2.any mine) ||
  T.work.any fun w => if w.rank = 0 then mine w.burst else w.burst.ofReq r

/-- Some tile that plans still holds a burst of a request. -/
def State.burstsLeft (s : State) (r : Req) : Bool :=
  (List.range 32).any fun t => s.fb (F.SCH_STATUS_running t) && (s.tile t).burstsLeft r

/-- R175, R210: bursts of a request that will not run leave their tile; their slots are open. -/
def TileSt.release (T : TileSt) (r : Req) (p : Burst → Bool) : TileSt :=
  let stay (b : Burst) : Bool := !(b.ofReq r && p b)
  { T with
    plan := T.plan.filter stay
    held := T.held.filter stay
    late := T.late.filter stay
    bursts := T.bursts.filterMap fun e => let l := e.2.filter stay; if l.isEmpty then none else some (e.1, l) }

/-- The tiles in which a request is charged slots. -/
def Req.tiles (r : Req) : List Nat := ((slotsOf r.cfg r.op r.len r.flags r.addr).map fun a => a.loc.ch).dedup

def State.release (s : State) (r : Req) (p : Burst → Bool) : State := r.tiles.foldl (fun s t => s.modTile t fun T => T.release r p) s

/-- R162: a later request of the port that has waited for the late data of `r` has no fixed latency any more. -/
def Req.waitedFor (q r : Req) : Bool :=
  r.dataLate && q.port == r.port && q.answer.isNone && decide (q.frame < r.ready) && sameTarget r q &&
  decide (r.frame < q.frame ∨ (r.frame = q.frame ∧ r.pos < q.pos))

/-- R514 step 3: a PORT.RESET whose port has no request left completes; the port is decided from the next boundary. -/
def State.finishResets (s : State) : State :=
  let idle (r : PortReset) : Bool := r.committed && !r.done && !s.reqs.any fun q => q.port == r.port
  let due := s.pwr.resets.filter idle
  let s := { s with pwr := { s.pwr with resets := s.pwr.resets.map fun r => if idle r then { r with done := true } else r } }
  due.foldl (fun (s : State) r => s.done r.lb (leBytes 4 (s.epoch + 1))) s

/-- The request has taken effect and is answered; a request whose response is discarded is done with it (R75, R514). A
HOLE is counted (R170), a TIMEOUT raises its source (R98). -/
def State.answer (s : State) (r : Req) (a : Answer) : State :=
  let s := s.when (a.status == 6) fun s => s.inc F.MAP_CNT_HOLE_count
  let s := s.when (a.status == 0xB) fun s => s.raise (Src.port 2 (r.port / 16)) r.port
  let s := { s with reqs := s.reqs.map fun (q : Req) => if q.waitedFor r then { q with unfixed := true } else q }
  if r.discard then { s with reqs := s.reqs.filter fun q => !(q.port == r.port && q.tag == r.tag) }.finishResets
  else s.modReq r fun q => { q with answer := some a }

/-! ### DRAM data -/

/-- REFUSED, HOLE or UNAVAIL of a DRAM request (R70, R71, R81, R93), in the order of R82. -/
def State.dramCheck (s : State) (r : Req) : Option Nat :=
  let ch := (slotsOf r.cfg r.op r.len r.flags r.addr).map fun a => a.loc.ch
  if misaligned r.op r.flags r.addr r.operand.toNat then some 7
  else if dramHole r.op r.len r.flags r.addr then some 6
  else if ch.any fun c => !s.serves c then some 0xA
  else none

/-- R91: read a request's bursts: the words of each burst. -/
def State.readBursts (s : State) (r : Req) : List (List WordRead) × State :=
  (List.range (r.len + 1)).foldl (fun (bs, s) b =>
    let (rs, s) := s.readMems r.cfg (r.addr + 64 * b) 8 (hostCtx r)
    (bs ++ [rs], s.deliverPoison (dramLoc r.cfg (r.addr + 64 * b)).ch (rs.filter (·.isPoison)).length)) ([], s)

/-- R80, R91: the answer of a read from the words of its bursts. -/
def readAnswer (bs : List (List WordRead)) : Answer :=
  let mask := (bs.zipIdx).foldl (fun m b => m ||| (poisonMask b.1 <<< (8 * b.2))) 0
  { status := if mask = 0 then 0 else 1
    info := if bs.any fun b => b.any (·.corr) then 1 else 0
    result := BitVec.ofNat 64 mask
    rdata := bs.map fun b => wordsPayload (b.map (·.data)) }

/-- R175: a request that cannot proceed is answered; the slots it has been charged are open. -/
def State.refuse (s : State) (r : Req) (status : Nat) : State := (s.release r fun _ => true).answer r { status := status }

/-- R91. -/
def execRd (p : Port) (tag : BitVec 9) (s : State) : Host.Outcome State Fault Refusal :=
  match s.runnable opRD p tag with
  | none => .next s
  | some r =>
    match s.dramCheck r with
    | some st => .next (s.refuse r st)
    | none =>
      let (bs, s) := s.readBursts r
      .next (s.answer r (readAnswer bs))

/-- R233: the bytes that a WR writes meet the memory of an enabled table of a HINS or HDEL. -/
def meetsTable (wr q : Req) : Bool :=
  let h := hashTab q.cfg (q.operand.toNat % 64)
  (q.op == opHINS || q.op == opHDEL) && wr.op == opWR && h.enable && decide (wr.addr < h.base + 64 * 2 ^ h.logb) &&
  decide (h.base < wr.addr + 64 * (wr.len + 1))

/-- R242: what a bucket holds is not defined: free values. -/
def State.scramble (s : State) (cfg : RegMap) (a : Nat) : State :=
  (List.range 8).foldl (fun (s : State) w =>
    let (v, s) := s.takeFree
    s.writeMem cfg (a + 8 * w) (BitVec.ofNat 64 v) (v.testBit 64)) s

/-- R242: a WR meets the HINS and HDEL of a table that are outstanding with it: the buckets that they touch are undefined. -/
def State.clashTables (s : State) (wr : Req) : State :=
  let hit := s.reqs.filter fun q => meetsTable wr q
  let s := { s with reqs := s.reqs.map fun (q : Req) => if meetsTable wr q then { q with clash := true } else q }
  hit.foldl (fun (s : State) q => q.buckets.foldl (fun (s : State) b => s.scramble q.cfg ((hashTab q.cfg (q.operand.toNat % 64)).base + 64 * b)) s) s

/-- R92: a WR writes its bursts, and each word written is clean. -/
def execWr (p : Port) (tag : BitVec 9) (s : State) : Host.Outcome State Fault Refusal :=
  match s.runnable opWR p tag with
  | none => .next s
  | some r =>
    match s.dramCheck r with
    | some st => .next (s.refuse r st)
    | none =>
      let s := (r.data.zipIdx).foldl (fun s d =>
        s.writeMems r.cfg (r.addr + 64 * d.2) ((List.range 8).map fun w => (d.1.word w, false))) s
      .next ((s.clashTables r).answer r { status := 0 })

/-- R71, R92: a WRM writes the whole words its mask covers. -/
def execWrm (p : Port) (tag : BitVec 9) (s : State) : Host.Outcome State Fault Refusal :=
  match s.runnable opWRM p tag with
  | none => .next s
  | some r =>
    match s.dramCheck r with
    | some st => .next (s.refuse r st)
    | none =>
      let d := r.data.headD 0
      let s := (maskWords r.operand.toNat).foldl (fun s w => s.writeMem r.cfg (r.addr + 8 * w) (d.word w) false) s
      .next (s.answer r { status := 0 })

/-! ### The scratchpad on the host path -/

/-- The words that a request accesses on the host path of the Larder (R292, R293): none when it is refused or a hole. -/
def hostUse (r : Req) : List LAcc :=
  if misaligned r.op r.flags r.addr r.operand.toNat || scratchHole r.cfg r.op r.len r.flags r.addr then []
  else if r.op = opLWRM then lineUse (scratchLine r.cfg r.addr) (maskWords r.operand.toNat) true
  else if r.op = opLRD ∨ r.op = opLWR then
    (List.range (r.len + 1)).flatMap fun b => lineUse (scratchLine r.cfg (r.addr + 64 * b)) (List.range 8) (r.op == opLWR)
  else []

/-- R296: the request waits for a Larder bank of quadrant `q` in this flit; its requester's counter rises once. -/
def State.larWaits (s : State) (r : Req) (counter : Fld) (q : Nat) : State :=
  let s := s.modReq r fun x => { x with larQuad := some q }
  if s.lar.counted.contains (r.port, r.tag) then s
  else { s.inc counter with lar := { s.lar with counted := s.lar.counted ++ [(r.port, r.tag)] } }

/-- The accesses that come before those of a request on the host path: those of this flit, and those of requests that were
accepted earlier, or by a lower port in the same frame (R296). -/
def State.hostAhead (s : State) (r : Req) : List LAcc := s.lar.host ++ (s.reqs.filter fun a => a.before r && s.ready a).flatMap hostUse

/-- The access that an engine-path work with no row of its own makes to word `met` of the request's lines in the flit (R91, R315, log 113). -/
def metUse (r : Req) (met : Option (Fin 64)) (wrote : Bool) : List LAcc :=
  match met with
  | none => []
  | some i => lineUse (scratchLine r.cfg (r.addr + 64 * (i.val / 8))) [i.val % 8] wrote

/-- R293-R297: a request of the host path waits for a bank, collides with an engine's access of this flit, one of `more` too, or
performs every line in this flit (log 100). -/
def State.hostPath (s : State) (r : Req) (more : List LAcc) (go : State → State) : State :=
  let use := hostUse r
  match use.find? fun x => (s.hostAhead r).any fun y => x.at_ == y.at_ with
  | some x => s.larWaits r (F.LAR_CNT_PCONF_count (r.port / 16) (r.port % 16)) x.q
  | none =>
    match use.find? fun x => (s.lar.eng ++ more).any x.meets with
    | some x => (s.inc (F.LAR_CNT_COLLIDE_count x.q)).answer r { status := 5 }
    | none => go { s with lar := { s.lar with host := s.lar.host ++ use } }

/-- REFUSED or HOLE of a scratchpad request (R82, R93, R94). -/
def scratchCheck (r : Req) : Option Nat :=
  if misaligned r.op r.flags r.addr r.operand.toNat then some 7
  else if scratchHole r.cfg r.op r.len r.flags r.addr then some 6
  else none

/-! ### The engine path -/

/-- R296: going round from the tile after the last served, tile `a` comes before tile `b`. -/
def inTurn (start a b : Nat) : Bool := decide ((a + 32 - start % 32) % 32 < (b + 32 - start % 32) % 32)

/-- The first bank for which an engine operation of tile `t` waits: one used in this flit, or one for which a waiting request
of another tile has its turn first. -/
def State.engineBusy (s : State) (r : Req) (t : Nat) (use : List LAcc) : Option LAcc :=
  let first (w : LWait) : Bool :=
    !(w.port == r.port && w.tag == r.tag) && inTurn (natGet s.lar.turn w.bank) w.tile t &&
    s.reqs.any fun q => q.port == w.port && q.tag == w.tag && q.answer.isNone
  use.find? fun x => (s.lar.eng.any fun y => y.at_ == x.at_) || s.lar.waits.any fun w => w.bank == x.at_ && first w

/-- R296, R297: an operation of engine `e`, of tile `t`, accesses the Larder: it waits for a bank, or goes on. One that would
meet a host access already performed in this flit goes into the next flit (log 100). -/
def State.enginePath (s : State) (r : Req) (t e : Nat) (use : List LAcc) (go : State → State) : State :=
  let others := s.lar.waits.filter fun w => !(w.port == r.port && w.tag == r.tag)
  match s.engineBusy r t use with
  | some x =>
    let s := s.larWaits r (F.LAR_CNT_ECONF_count (e / 32) (e % 32)) x.q
    { s with lar := { s.lar with waits := others ++ (use.map LAcc.at_).dedup.map fun b => ⟨b, t, r.port, r.tag⟩ } }
  | none =>
    if use.any fun x => s.lar.host.any x.meets then s
    else go { s with lar := { s.lar with
      eng := s.lar.eng ++ use
      waits := others
      turn := (use.map LAcc.at_).dedup.foldl (fun m b => natSet m b (t + 1)) s.lar.turn } }

/-! ### LRD, LWR, LWRM -/

/-- R293. -/
def execLrd (p : Port) (tag : BitVec 9) (met : Option (Fin 64)) (wrote : Bool) (s : State) : Host.Outcome State Fault Refusal :=
  match s.runnable opLRD p tag with
  | none => .next s
  | some r =>
    match scratchCheck r with
    | some st => .next (s.answer r { status := st })
    | none => .next (s.hostPath r (metUse r met wrote) fun s =>
      let (bs, s) := (List.range (r.len + 1)).foldl (fun (bs, (s : State)) b =>
        let a := r.addr + 64 * b
        let l := scratchLine r.cfg a
        let (rs, s) := (s.inc (F.LAR_CNT_HRD_count l.q)).readLine l (hostCtx r) fun w => some (a + 8 * w)
        (bs ++ [rs], s.deliverPoison (8 * l.q) (rs.filter (·.isPoison)).length)) (([] : List (List WordRead)), s)
      s.answer r (readAnswer bs))

/-- R293: whole lines are written in one flit. -/
def execLwr (p : Port) (tag : BitVec 9) (met : Option (Fin 64)) (wrote : Bool) (s : State) : Host.Outcome State Fault Refusal :=
  match s.runnable opLWR p tag with
  | none => .next s
  | some r =>
    match scratchCheck r with
    | some st => .next (s.answer r { status := st })
    | none => .next (s.hostPath r (metUse r met wrote) fun s =>
      let s := (r.data.zipIdx).foldl (fun (s : State) d =>
        let a := r.addr + 64 * d.2
        let s := s.inc (F.LAR_CNT_HWR_count (scratchLine r.cfg a).q)
        (List.range 8).foldl (fun s w => s.writeScratch r.cfg (a + 8 * w) (d.1.word w) false) s) s
      s.answer r { status := 0 })

/-- R71, R293. -/
def execLwrm (p : Port) (tag : BitVec 9) (met : Option (Fin 64)) (wrote : Bool) (s : State) : Host.Outcome State Fault Refusal :=
  match s.runnable opLWRM p tag with
  | none => .next s
  | some r =>
    match scratchCheck r with
    | some st => .next (s.answer r { status := st })
    | none => .next (s.hostPath r (metUse r met wrote) fun s =>
      let d := r.data.headD 0
      let ws := maskWords r.operand.toNat
      let s := s.when (!ws.isEmpty) fun s => s.inc (F.LAR_CNT_HWR_count (scratchLine r.cfg r.addr).q)
      let s := ws.foldl (fun s w => s.writeScratch r.cfg (r.addr + 8 * w) (d.word w) false) s
      s.answer r { status := 0 })

/-! ### FENCE and TQUERY -/

/-- R88: every earlier request of the port has taken effect. -/
def execFence (p : Port) (tag : BitVec 9) (s : State) : Host.Outcome State Fault Refusal :=
  match s.runnable opFENCE p tag with
  | none => .next s
  | some r => .next (s.answer r { status := 0 })

/-- R97. -/
def execTquery (p : Port) (tag : BitVec 9) (s : State) : Host.Outcome State Fault Refusal :=
  match s.runnable opTQUERY p tag with
  | none => .next s
  | some r =>
    if r.operand.toNat % 512 = r.tag then .next (s.answer r { status := 7 })
    else .next (s.answer r { status := 0, result := BitVec.ofNat 64 (r.note % 2) })

/-! ### Responses -/

/-- L_RD and L_WR as they act (R170). -/
def latRd (cfg : RegMap) : Nat := max 48 (min 96 (cfg.fv (F.SCH_DET_read_lat 0)))
def latWr (cfg : RegMap) : Nat := max 56 (min 96 (cfg.fv (F.SCH_DET_write_lat 0)))

/-- R160: the fixed latency of an opcode in DETERMINISTIC, in frames. -/
def fixedLatency (r : Req) : Option Nat :=
  let op := r.op
  if op = opRD ∨ op = opDEQ then some (latRd r.cfg)
  else if op = opWR ∨ op = opWRM then some (latWr r.cfg)
  else if op = opLRD ∨ op = opLWR ∨ op = opLWRM ∨ op = opQSTAT then some 12
  else if isL op r.flags then some 16
  else if op = opCRD then some (latRd r.cfg)
  else if op = opCADD64 ∨ op = opCADDPB ∨ op = opCADDD32 ∨ op = opCRDCLR ∨ op = opPOL then some (latRd r.cfg + 2)
  else if op = opHLK then some (latRd r.cfg + 4)
  else if op = opLPM then
    let t := trieTab r.cfg (r.operand.toNat % 16)
    if t.dram = 0 then some 24 else some (latRd r.cfg + 8 * t.u + 16 * (t.dram - 1))
  else if op = opENQ then some (latWr r.cfg + 4)
  else none

/-- The frame of the response in DETERMINISTIC (R24, R159, R237). -/
def Req.respFrame (r : Req) : Option Nat := (fixedLatency r).map fun l => l + if r.dataLate then r.ready else r.frame

/-- R166: the tile whose engine executes a request, or the lowest of those that hold its slots. -/
def Req.ownTile (r : Req) : Nat :=
  let slots := (slotsOf r.cfg r.op r.len r.flags r.addr).map fun a => a.loc.ch
  match slots with
  | c :: cs => cs.foldl min c
  | [] =>
    if r.op = opENQ ∨ r.op = opDEQ ∨ r.op = opQSTAT then r.operand.toNat % 32
    else if r.op = opHLK ∨ r.op = opHINS ∨ r.op = opHDEL then 
      let h := hashTab r.cfg (r.operand.toNat % 64)
      h.home (r.key h.keylen)
    else homeTile r.port

/-- R166: the tile that a late response is counted at: the lowest whose slot made it late, else the one of its engine. -/
def Req.lateAt (r : Req) : Nat := r.lateTile.getD r.ownTile

/-- The response header of R78. The aux of an HLK is its table whatever its status (R80). The opcode is copied, so that a
BADOP of opcode 0x00 carries 0x00, which R78 says no response does (log 98). -/
def respHeader (r : Req) (a : Answer) : Nat :=
  r.op * 2 ^ 58 + r.port % 4 * 2 ^ 56 + r.tag * 2 ^ 47 + (a.rdata.length - 1) % 8 * 2 ^ 44 +
    (if a.rdata.isEmpty then 0 else 2 ^ 43) + a.status % 16 * 2 ^ 39 + a.info % 128 * 2 ^ 32 + (if r.op = opHLK then r.operand.toNat % 64 else a.aux % 2 ^ 32) +
    a.result.toNat * 2 ^ 64

/-- R88, R97: an earlier response that must go first. -/
def State.respWaits (s : State) (r : Req) : Bool :=
  let before := s.reqs.takeWhile fun q => !(q.port == r.port && q.tag == r.tag)
  (r.op == opFENCE && before.any fun q => q.port == r.port && !q.queued) ||
  (r.op == opTQUERY && r.note.testBit 1 && before.any fun q => q.port == r.port && q.tag == r.operand.toNat % 512 && q.answer.isSome && !q.queued)

/-- A response sent after its fixed latency (R162, R166, R295): one that the Larder has made late counts for the quadrant of
the bank. -/
def State.countLate (s : State) (r : Req) : State :=
  if toScratch r.op r.flags || (r.op == opLPM && r.larQuad.isSome && r.lateTile.isNone) then
    let q := r.larQuad.getD (scratchLine r.cfg r.addr).q
    (s.inc (F.LAR_CNT_LATE_count q)).raise (Src.larder 0 q) q
  else
    let t := r.lateAt
    ((s.when r.dataLate fun s => s.inc (F.SCH_CNT_WLATE_count t)).inc (F.SCH_CNT_LATE_count t)).raise (Src.sched 2 t) t

/-- R72, R79: the flits of a response: its header in position 0 of a RESP flit, its RDATA flits behind it. -/
def respFlits (r : Req) (a : Answer) : List OutFlit :=
  ⟨3, payload [(0, 16, respHeader r a)], some (r.port, r.tag)⟩ :: a.rdata.map fun d => ⟨4, d, some (r.port, r.tag)⟩

/-- R72, R79, R159: the response of an answered request is handed to its link; its tag is free from the frame after the
transmission (State.freeTag). It waits for the bursts of its request (R139, R184; log 96). In DETERMINISTIC it goes out at
its fixed latency, or late by what its slots have put it off. -/
def execResponseSend (p : Port) (tag : BitVec 9) (s : State) : Host.Outcome State Fault Refusal :=
  match s.reqs.find? fun r => r.port == p.val && r.tag == tag.toNat && !r.tentative && r.data.length == r.need && !r.queued with
  | none => .next s
  | some r =>
    match r.answer with
    | none => .next s
    | some a =>
      let due := if r.mode = 2 ∧ !r.unfixed then r.respFrame else none
      let early := match due with | some f => decide (s.absFrame < f + r.excess) | none => false
      if !s.linkTalks r.link || s.respWaits r || s.burstsLeft r || early then .next s
      else
        let late := match due with | some f => decide (f < s.absFrame) | none => false
        let s := (s.when late fun s => s.countLate r).modReq r fun q => { q with queued := true }
        .next ((respFlits r a).foldl (fun s f => s.queueFlit r.link f) s)

end Sys2Proof.Machine
end

