-- ==== Sys2Proof/Machine/Slots.lean ====
section
/-! DEFINITION. The slots of a tile's epoch (R138, R139, R145, R149, R151-R156, R162, R184): its plan, and what each slot
of the running epoch carries as it passes. -/

namespace Sys2Proof.Machine

/-! ### Rows -/

/-- Rows of a bank that refresh goes over (R136). -/
def userRows : Nat := 49152

/-- The refresh debt of one row, in the units in which an epoch adds 49,152, 98,304 or 196,608 to a bank's debt: the
relaxed window of 64 ms in epochs (R2, R7, R151). -/
def rowDebt : Int := if Config.grade = .dv9616_16 then 2000000 else 1750000

/-- A key of the row tables: a bank and a physical row. -/
def rowKey (bank row : Nat) : Nat := 65536 * bank + row

/-- The counts of one row are cleared (R155, R156). -/
def TileSt.clearRow (T : TileSt) (bank row : Nat) : TileSt :=
  { T with
    rowActs := natSet T.rowActs (rowKey bank row) 0
    rowPort := T.rowPort.filter fun e => e.1 / 256 != rowKey bank row }

/-- R155: the end of a bank's refresh window clears the counts of its rows. -/
def TileSt.clearBank (T : TileSt) (bank : Nat) : TileSt :=
  { T with
    rowActs := T.rowActs.filter fun e => e.1 / 65536 != bank
    rowPort := T.rowPort.filter fun e => e.1 / 256 / 65536 != bank }

/-- R137, R156: the physical neighbours of a row, where they exist. -/
def neighbours (r : Nat) : List Nat :=
  ([(r : Int) - 1, r + 1, r - 2, r + 2].filter fun x => decide (0 ≤ x) && decide (x < 49184)).map Int.toNat

/-- R155: the row-hammer threshold of a tile as it acts. -/
def State.hammerAt (s : State) (t : Nat) : Nat := max 256 (min 1024 (s.fv (F.SCH_HAM_thresh t)))

/-- R155: one activation of a physical row for a port is counted. A row that reaches the threshold is kept with its count,
so that the end of its bank's window does not cancel the trigger (R158). -/
def TileSt.countAct (T : TileSt) (thresh bank row port : Nat) : TileSt :=
  let k := rowKey bank row
  let T := { T with rowActs := natAdd T.rowActs k 1, rowPort := natAdd T.rowPort (256 * k + port) 1 }
  let known := T.reached.any (fun x => x.bank == bank && x.row == row) || T.mitQ.any fun q => q.1 == bank && q.2.1 == row
  if natGet T.rowActs k < thresh || known then T
  else
    let ports := (T.rowPort.filter fun e => e.1 / 256 == k && decide (e.1 % 256 < 64)).map fun e => (e.1 % 256, e.2)
    { T with reached := T.reached ++ ([⟨bank, row, natGet T.rowActs k, ports⟩] : List Reached) }

/-! ### Time and banks -/

/-- The running flit, counted from 1. -/
def State.now (s : State) : Nat := s.absFlit + 1

/-- R138: 96 flits (48 ns) have passed since the last opening or refresh of a bank. -/
def TileSt.rested (T : TileSt) (bank now : Nat) : Bool := natGet T.openAt bank == 0 || decide (natGet T.openAt bank + 96 ≤ now)

/-- A bank is closed, and stays closed for the next 96 flits (R138). -/
def TileSt.closeBank (T : TileSt) (bank now : Nat) : TileSt :=
  { T with openRow := natSet T.openRow bank 0, openAt := natSet T.openAt bank now }

/-- R138: the row is open in its bank, or may be opened; and the riser has had its idle slot if its direction turns. -/
def TileSt.may (T : TileSt) (b : Burst) (row now : Nat) : Bool :=
  (T.dir == 0 || T.dir == (if b.wr then 2 else 1)) &&
  (natGet T.openRow b.bank == row + 1 ||
    (decide (T.acts < 16) && decide (natGet T.groupActs (b.bank / 8) < 4) && T.rested b.bank now))

/-- R149: a use of a bank's row that would displace an admitted burst of the next two epochs. -/
def TileSt.displaces (T : TileSt) (epoch bank row : Nat) : Bool :=
  T.bursts.any fun e => decide (e.1 ≤ epoch + 2) && e.2.any fun b => b.bank == bank && b.row != row

/-! ### The bursts of requests -/

/-- The burst, its planned slot in frame `f`. -/
def Burst.planned (f : Nat) (b : Burst) : Burst := { b with due := f }

/-- The request of a burst, while it is outstanding. -/
def State.reqOf (s : State) (b : Burst) : Option Req := s.reqs.find? fun r => b.ofReq r

/-- Change the request of a burst. -/
def State.modOf (s : State) (b : Burst) (f : Req → Req) : State := { s with reqs := s.reqs.map fun q => if b.ofReq q then f q else q }

/-- R162: the data of the burst's request is late, or not there when the burst's epoch begins. -/
def State.burstLate (s : State) (b : Burst) : Bool :=
  match s.reqOf b with | some r => r.dataLate || decide (r.data.length < r.need) | none => false

/-- R162: late writes whose data is there, in the order in which their last data flits came. -/
def State.lateReady (s : State) (T : TileSt) : List Burst :=
  let ready (b : Burst) : Option (Nat × Burst) :=
    match s.reqOf b with
    | some r => if r.dataLate && r.data.length == r.need then some (r.ready, { b with due := r.ready }) else none
    | none => none
  (((T.late ++ T.bursts.flatMap (·.2)).filterMap ready).mergeSort fun x y => decide (x.1 ≤ y.1)).map (·.2)

/-- R149: bursts that express placement may bring forward: accepted in this epoch or the one before, planned later, their
data there, and with no earlier pending request of the port to the same target. A write-back follows its read. -/
def State.expressible (s : State) (t : Nat) : List Burst :=
  if s.mode = 2 ∨ !s.fb (F.SCH_CTL_express t) then []
  else
    let T := s.tile t
    let waiting := T.bursts.flatMap (·.2)
    waiting.filter fun b =>
      !b.pool && decide (s.epoch ≤ b.frame / 8 + 1) &&
      (match s.reqOf b with
        | some r =>
          !r.tentative && r.data.length == r.need && !r.dataLate &&
          !(r.need == 0 && b.wr && (waiting ++ T.held).any fun c => !c.wr && c.ofReq r) &&
          !(s.reqs.any fun q => q.port == r.port && q.answer.isNone &&
            decide (q.frame < r.frame ∨ (q.frame = r.frame ∧ q.pos < r.pos)) && sameTarget q r)
        | none => false)

/-! ### One slot -/

/-- What an open slot carries (R139, R149, R162, R184). -/
inductive OpenUse where
  | held (b : Burst)
  | overflow (w : OpenWork)
  | work (w : OpenWork)
  | late (b : Burst)
  | express (b : Burst)
deriving DecidableEq, Repr

def OpenUse.burst : OpenUse → Burst
  | .held b | .late b | .express b => b
  | .overflow w | .work w => w.burst

/-- R139, R162, R184: the frames after the burst's planned slot, or after its data, that leave its request's latency as it
is; none when no response waits for it. -/
def OpenUse.slack (r : Req) : OpenUse → Option Nat
  | .held b => if b.wr && r.need == 0 then none else some (if b.wr then latWr r.cfg - 56 else latRd r.cfg - 48)
  | .overflow _ => some 0
  | .late _ => some ((fixedLatency r).getD 0 - 16)
  | _ => none

/-- A burst of a request has executed in the running frame: what it has put the response off by is kept. -/
def State.noteBurst (s : State) (t : Nat) (u : OpenUse) : State :=
  let b := u.burst
  match s.reqOf b with
  | none => s
  | some r =>
    let put := match u.slack r with | some a => s.absFrame - (b.due + a) | none => 0
    let tile := if put = 0 then r.lateTile else some (match r.lateTile with | some u => min u t | none => t)
    let express := match u with | .express _ => true | _ => false
    let s := s.modOf b fun q => { q with excess := max q.excess put, lateTile := tile, plain := q.plain || !express }
    -- R149: counted once, where the last burst of the request has run
    s.when (express && !r.plain && !s.burstsLeft r) fun s => s.inc (F.SCH_CNT_EXPRESS_count t)

/-- The row that a burst opens (R137, R329). -/
def State.burstRow (s : State) (t : Nat) (b : Burst) : Nat := s.physRowAt (some (b.frame / 8)) t b.bank b.row

/-- A burst executes at tile `t`: its row is opened when it is not open (R137, R138, R155). -/
def State.runBurst (s : State) (t : Nat) (b : Burst) : State :=
  let T := { s.tile t with dir := if b.wr then 2 else 1 }
  let row := s.burstRow t b
  if natGet T.openRow b.bank = row + 1 then s.setTile t T
  else
    let T := T.closeBank b.bank s.now
    let T := { T with
      openRow := natSet T.openRow b.bank (row + 1), acts := T.acts + 1, groupActs := natAdd T.groupActs (b.bank / 8) 1 }
    (s.setTile t (T.countAct (s.hammerAt t) b.bank row b.port)).inc (F.SCH_CNT_ACT_count t)

/-- What an open slot carries leaves the list in which it waited, and executes. -/
def State.runOpen (s : State) (t : Nat) (u : OpenUse) : State :=
  let b := u.burst
  let drop (T : TileSt) : TileSt :=
    match u with
    | .held b => { T with held := T.held.erase b }
    | .overflow w | .work w => { T with work := T.work.erase w }
    | _ =>
      let same (c : Burst) : Bool := decide ({ c with due := 0 } = { b with due := 0 })
      { T with
        late := T.late.eraseP same
        bursts := T.bursts.filterMap fun e => let l := e.2.eraseP same; if l.isEmpty then none else some (e.1, l) }
  (((s.modTile t drop).runBurst t b).noteBurst t u).showFlush t

/-- What the open slot of the running flit carries, in order: held bursts, pool overflows of epochs that have begun, engine
work, late writes, express placement. A turnaround-margin slot carries held bursts and late writes alone. -/
def State.openUse (s : State) (t : Nat) (margin : Bool) : Option OpenUse :=
  let T := s.tile t
  let may (b : Burst) : Bool := T.may b (s.burstRow t b) s.now
  let mild (b : Burst) : Bool := may b && !T.displaces s.epoch b.bank b.row
  let waits (k : Nat) (w : OpenWork) : Bool := !margin && w.rank == k && decide (w.start ≤ s.epoch)
  let uses : List OpenUse := (T.held.filter may).map .held ++ (T.work.filter fun w => waits 0 w && may w.burst).map .overflow ++
    (T.work.filter fun w => waits 1 w && mild w.burst).map .work ++ (T.work.filter fun w => waits 2 w && mild w.burst).map .work ++
    ((s.lateReady T).filter mild).map .late ++
    (if margin then [] else ((s.expressible t).filter mild).map .express)
  uses.head?

/-- An open slot passes, or one of the margin. A calibration chunk takes the first 64 where no maintenance slots are reserved
(R387). -/
def State.openSlot (s : State) (t : Nat) (margin : Bool) : State :=
  if !margin && decide (0 < (s.tile t).calOpen) then
    s.modTile t fun T => { T with calOpen := T.calOpen - 1, opened := T.opened + 1, dir := 0 }
  else match s.openUse t margin with
  | some u => (s.runOpen t u).modTile t fun T => { T with opened := if margin then T.opened else T.opened + 1 }
  | none => s.modTile t fun T => { T with dir := 0, unused := if margin then T.unused else T.unused + 1 }

def TileSt.debt (T : TileSt) (bank : Nat) : Int := Tab.get (fun _ => 0) T.due bank

/-- R151: each bank's debt grows by an epoch's share of its window. -/
def TileSt.accrue (T : TileSt) (f : Figs) : TileSt :=
  let n : Int := if f.hot then 196608 else if f.relaxed then 49152 else 98304
  { T with due := (List.range 32).foldl (fun d b => Tab.set (fun _ => 0) d b (T.debt b + n)) T.due }

/-- The bank with the most rows due among those that satisfy `ok`. -/
def TileSt.duest (T : TileSt) (ok : Nat → Bool) : Option Nat :=
  (List.range 32).foldl (fun m b =>
    if !ok b then m else match m with | none => some b | some a => if T.debt a < T.debt b then some b else m) none

/-- R151: the row at the pointer of a bank is refreshed; the end of a pass is the end of the bank's window (R155). -/
def TileSt.refreshRow (T : TileSt) (b now : Nat) : TileSt :=
  let p := natGet T.ptr b
  let T := T.closeBank b now
  let T := { T with
    refresh := T.refresh + 1
    dir := 0
    due := Tab.set (fun _ => 0) T.due b (T.debt b - rowDebt)
    ptr := natSet T.ptr b ((p + 1) % userRows) }
  if p + 1 = userRows then T.clearBank b else T

/-- R356: DWR_EXTEST runs in the tier of a die, or in a base tier, whose risers are all of them. -/
def State.dieInExtest (s : State) (d : Nat) : Bool := s.mode == 5 && s.tap.extest.any fun k => k == d + 2 || decide (k < 2)

/-- R346, R356: refresh of the channel of a tile goes on. -/
def State.refreshes (s : State) (t : Nat) : Bool := !(s.riser t).stopped && !s.dieInExtest (t / 2)

/-! ### Weathervanes (R364, R372) -/

def clampTo (lo hi v : Nat) : Nat := max lo (min hi v)
def State.wvHold (s : State) : Nat := clampTo 4 64 (s.fv F.THM_WV_hold)

def State.wvGroup (s : State) (g : Nat) : WvGroup := Tab.get (fun _ => {}) s.thm.wv g
def State.setWv (s : State) (g : Nat) (v : WvGroup) : State :=
  { s with thm := { s.thm with wv := Tab.set (fun _ => {}) s.thm.wv g v } }

/-- R372: the next burst of the measurement of the group of a channel: 256 that write the charged pattern, and after the hold
256 that read it. -/
def WvGroup.next (w : WvGroup) (epoch hold : Nat) : Option WvGroup :=
  if w.rows.isEmpty ∨ epoch < w.start then none
  else if w.writes < 256 then some { w with writes := w.writes + 1, holdTo := if w.writes = 255 then epoch + epochsOfMs hold else w.holdTo }
  else if epoch < w.holdTo ∨ 256 ≤ w.reads then none
  else some { w with reads := w.reads + 1 }

/-- R372: a refresh slot that R151 does not need serves the group of the channel. -/
def State.wvNext (s : State) (t : Nat) : Option State :=
  let w := s.wvGroup t
  if !s.fb F.THM_CTL_wv_en || !(s.tile t).rested w.bank s.now then none
  else (w.next s.epoch s.wvHold).map fun w =>
    (s.setWv t w).modTile t fun T => { T.closeBank w.bank s.now with refresh := T.refresh + 1, dir := 0 }

/-- R151, R152: what a refresh slot does: the bank with the most rows due, else the weathervanes, else a bank that may be
refreshed ahead, which fills an open slot. A bank rests for 96 flits after its last opening before it is refreshed (R138). -/
def State.refreshNow (s : State) (t : Nat) : Option State :=
  let T := s.tile t
  let done (T : TileSt) : State := (s.setTile t T).inc (F.SCH_CNT_REF_count t)
  if !s.refreshes t then none
  else match T.duest fun b => decide (rowDebt ≤ T.debt b) && T.rested b s.now with
    | some b => some (done (T.refreshRow b s.now))
    | none =>
      match s.wvNext t with
      | some s => some s
      | none =>
      if !s.fb (F.SCH_CTL_pullin t) then none
      else (T.duest fun b => decide (-7 * rowDebt ≤ T.debt b) && T.rested b s.now && !T.displaces s.epoch b userRows).map fun b =>
        let T := T.refreshRow b s.now
        done { T with opened := T.opened + 1 }

/-- R156: a mitigation slot refreshes one neighbour of the oldest trigger; after the last, the row's count clears. -/
def State.mitigateNow (s : State) (t : Nat) : Option State :=
  let T := s.tile t
  match T.mitQ with
  | [] => none
  | (b, r, ns) :: rest =>
    let T := T.closeBank b s.now
    let T := { T with mitig := T.mitig + 1, dir := 0 }
    let T := match ns with
      | _ :: n :: ms => { T with mitQ := (b, r, n :: ms) :: rest }
      | _ => { T with mitQ := rest }.clearRow b r
    some ((s.setTile t T).inc (F.SCH_CNT_MITIG_count t))

/-- R145, R323: a maintenance slot of the running epoch that no work has taken yet. -/
def State.maintFree (s : State) (t : Nat) : Bool :=
  s.planning t && decide ((s.tile t).maintDue < (s.tile t).left.maint)

/-- R323: work of a higher precedence waits for maintenance slots of a channel: class 1 the copies and merges of test
borrowing, class 2 probes and remap copies too. -/
def State.copiesWait (s : State) (t : Nat) : Bool :=
  s.bst.runs.any fun r => r.kind == 4 && r.a == t && !r.yielded && decide (r.at_ ≤ s.epoch) && ((r.stage == 0 && !r.restore) || r.stage == 3)
def State.probesWait (s : State) (t : Nat) : Bool :=
  s.copiesWait t || (s.eccOf t).probe.isSome || s.remapRuns.any fun r => r.ch == t && r.works

/-- R323: work of class 0 (borrowing), 1 (probes, remap copies) or 2 (spill records) may take a maintenance slot. -/
def State.maintFor (s : State) (cls t : Nat) : Bool :=
  s.maintFree t && (match cls with | 0 => true | 1 => !s.copiesWait t | _ => !s.probesWait t)

/-- Work takes the next `n` maintenance slots of a channel. -/
def State.takeMaint (s : State) (t n : Nat) : State := s.modTile t fun T => { T with maintDue := T.maintDue + n }

/-- R329: the next copy of a remap, or after the last the next step of the spare row's probes. -/
def State.remapStep (s : State) (r : RemapRun) : State :=
  let put (s : State) (x : RemapRun) : State := { s with remapRuns := s.remapRuns.map fun y => if y.lb = r.lb then x else y }
  if r.copied < 32 then
    let (src, dst) := if r.unmap then (49152 + r.spare, r.row) else (r.row, 49152 + r.spare)
    let s := s.copyBurst r.ch r.bank src dst r.copied 4
    if r.copied < 31 then put s { r with copied := r.copied + 1 }
    else put s { r with copied := 32, at_ := s.epoch + 2, probing := 32 * (2 + 4 * s.probeRounds r.ch) }
  else put s { r with probing := r.probing - 1 }

/-- A maintenance slot: work that has begun takes it; then the patterns of a probe and the copies of remaps, unless test
borrowing waits (R323). -/
def State.maintNow (s : State) (t : Nat) : Option State :=
  let used (s : State) : State := s.modTile t fun T => { T with maint := T.maint + 1, dir := 0 }
  if 0 < (s.tile t).maintDue then some (used (s.modTile t fun T => { T with maintDue := T.maintDue - 1 }))
  else if s.copiesWait t then none
  else match (s.eccOf t).probe.filter fun j => decide (0 < j.left), s.remapRuns.find? fun r => r.ch == t && r.works with
    | some j, _ => some (used (s.modEcc t fun e => { e with probe := some { j with left := j.left - 1 } }))
    | none, some r => some (used (s.remapStep r))
    | none, none => none

/-- Slots kept for their own uses. -/
def SlotsLeft.kept (l : SlotsLeft) : Nat := l.refresh + l.maint + l.mitig + l.margin + l.idle

/-- The riser is idle in a slot. -/
def State.quiet (s : State) (t : Nat) : State := s.modTile t fun T => { T with dir := 0 }

/-- The slots left, after one of them. -/
def State.setLeft (s : State) (t : Nat) (l : SlotsLeft) : State := s.modTile t fun T => { T with left := { l with total := l.total - 1 } }

/-- R138: the idle slot of a turn between reads and writes: a refresh or mitigation slot where one is left, else one of the
margin, else an open one. -/
def State.turnSlot (s : State) (t : Nat) : State :=
  let l := (s.tile t).left
  if 0 < l.refresh then let s := s.setLeft t { l with refresh := l.refresh - 1 }; (s.refreshNow t).getD (s.quiet t)
  else if 0 < l.mitig then let s := s.setLeft t { l with mitig := l.mitig - 1 }; (s.mitigateNow t).getD (s.quiet t)
  else if 0 < l.margin then (s.setLeft t { l with margin := l.margin - 1 }).quiet t
  else (s.setLeft t l).quiet t

/-- A slot after the planned bursts: the margin first, then open slots, then those of maintenance, mitigation and refresh,
open where their use does not need them (R149), then the slots that throttling leaves idle. -/
def State.restSlot (s : State) (t : Nat) : State :=
  let l := (s.tile t).left
  let orOpen (x : Option State) (s : State) : State := x.getD (s.openSlot t false)
  if 0 < l.margin then (s.setLeft t { l with margin := l.margin - 1 }).openSlot t true
  else if l.kept < l.total then (s.setLeft t l).openSlot t false
  else if 0 < l.maint then let s := s.setLeft t { l with maint := l.maint - 1 }; orOpen (s.maintNow t) s
  else if 0 < l.mitig then let s := s.setLeft t { l with mitig := l.mitig - 1 }; orOpen (s.mitigateNow t) s
  else if 0 < l.refresh then let s := s.setLeft t { l with refresh := l.refresh - 1 }; orOpen (s.refreshNow t) s
  else (s.setLeft t { l with idle := l.idle - 1 }).quiet t

/-- R139, R145: the planned slot of a burst: it executes, or it is held and its slot is open. -/
def State.plannedSlot (s : State) (t : Nat) (b : Burst) (rest : List Burst) : State :=
  let b := b.planned s.absFrame
  let s := (s.setLeft t (s.tile t).left).modTile t fun T => { T with plan := rest }
  if (s.tile t).may b (s.burstRow t b) s.now then
    ((s.runBurst t b).modTile t fun T => { T with planned := T.planned + 1 }).modOf b fun q => { q with plain := true }
  else (s.modTile t fun T => { T with held := T.held ++ [b] }).openSlot t false

/-- One slot of a tile passes. Planned bursts have the first slots of an epoch, in their order, with the idle slots of their
turns between them; one that finds no user slot left is held (log 31). -/
def State.runSlot (s : State) (t : Nat) : State :=
  let T := s.tile t
  let s := match T.plan with
    | b :: rest =>
      if T.left.total ≤ T.left.kept then
        (s.modTile t fun T => { T with plan := [], held := T.held ++ T.plan.map (Burst.planned s.absFrame) }).restSlot t
      else if T.dir != 0 && T.dir != (if b.wr then 2 else 1) then s.turnSlot t
      else s.plannedSlot t b rest
    | [] => s.restSlot t
  s.setF (F.SCH_STATUS_act_held t) (if (s.tile t).held.isEmpty then 0 else 1)

/-- The figures of the running epoch at a tile. -/
def State.figs (s : State) (t : Nat) : Figs := Tab.get (fun _ => {}) (s.tile t).figs s.epoch

/-- R7, R146: as a flit ends, every tile that plans has passed one slot; in an epoch of 32 slots, one in two flits. -/
def State.slotsPass (s : State) : State :=
  (List.range 32).foldl (fun (s : State) t =>
    s.when (s.planning t && decide (0 < (s.tile t).left.total) && ((s.figs t).slots != 32 || s.flit % 2 == 1)) fun s => s.runSlot t) s

/-! ### The plan -/

/-- R139: the order of the openings of an epoch: by acceptance epoch, gate-admitted before pooled, by frame, by port. -/
def burstBefore (a b : Burst) : Bool :=
  let k (x : Burst) : List Nat := [x.frame / 8, if x.pool then 1 else 0, if x.pool then 0 else x.frame, if x.pool then 0 else x.port]
  decide (k a ≤ k b)

/-- R323, R387: a calibration chunk takes every maintenance slot of the channel of a tile in this epoch. -/
def State.chunkAt (s : State) (t : Nat) : Bool :=
  match s.thm.cal with
  | some r => r.chunks && decide (s.epoch < r.at_) && decide (r.at_ ≤ s.epoch + 32) && decide (t < 32) && s.carrier t == r.job.riser
  | none => false

/-- Bursts of the user rows of a channel. -/
def patrolLength : Nat := 1024 * userRows

/-- Epochs of a pass (R321). -/
def State.passEpochs (s : State) (t : Nat) : Nat := epochsOfSeconds (3600 * max 1 (min 168 (s.fv (F.ECC_SCRUB_period t))))

/-- The patrol position of a channel. -/
def State.patrolAt (s : State) (t : Nat) : Nat :=
  (s.fv (F.ECC_SCRUB_PTR_row t) * 32 + s.fv (F.ECC_SCRUB_PTR_bank t)) * 32 + s.fv (F.ECC_SCRUB_PTR_column t)

/-- How far the Polisher is ahead of its pace, in bursts times epochs of a pass (R321). -/
def State.aheadBy (s : State) (t : Nat) : Int :=
  (s.patrolAt t : Int) * s.passEpochs t - ((s.epoch : Int) - (s.eccOf t).passFrom) * patrolLength

/-- R333: ECC_STATUS.scrub_behind. -/
def State.showPace (s : State) (t : Nat) : State := s.setF (F.ECC_STATUS_scrub_behind t) (if s.aheadBy t < 0 then 1 else 0)

/-- The chunk begins with this epoch. -/
def State.chunkStarts (s : State) : Bool := match s.thm.cal with | some r => r.at_ == s.epoch + 32 | none => false

/-- R145: a tile fixes its plan of the epoch that starts now. -/
def State.planEpoch (s : State) (t : Nat) : State :=
  let f := s.figs t
  let T := (s.tile t).accrue f
  let chunk := s.chunkAt t
  let (late, now) := (T.burstsAt s.epoch).partition s.burstLate
  let T := { T with
    plan := now.mergeSort burstBefore
    left :=
      { total := if chunk then f.slots - f.maint else f.slots
        refresh := f.refresh
        maint := if chunk then 0 else f.maint
        mitig := if f.slots = 0 then 0 else 2
        margin := f.margin
        idle := f.idle }
    calOpen := if !chunk || f.maint != 0 then 0 else if s.chunkStarts then 64 else T.calOpen
    held := T.held ++ T.plan
    late := T.late ++ late
    refresh := 0, maint := if chunk then f.maint else 0, mitig := 0, planned := 0, opened := 0, unused := 0, acts := 0, groupActs := []
    bursts := T.bursts.filter fun e => decide (s.epoch < e.1)
    figs := T.figs.filter fun e => decide (s.epoch ≤ e.1)
    resv := T.resv.filter fun e => decide (s.epoch ≤ e.1)
    poolUsed := T.poolUsed.filter fun e => decide (s.epoch ≤ e.1 / 4) }
  let s := (((s.setTile t T).setF (F.SCH_STATUS_ref_hot t) (if f.hot then 1 else 0)).setF (F.SCH_STATUS_ref_relaxed t)
    (if f.relaxed then 1 else 0)).setF (F.SCH_STATUS_det t) (if f.det then 1 else 0)
  s.when ((List.range 32).any fun b => decide (2 * rowDebt ≤ T.debt b)) fun s => s.raise (Src.sched 4 t) t

/-- R170: SCH_OCC shows the epoch that has ended; a field that cannot hold a count shows its greatest value. -/
def State.showOcc (s : State) (t : Nat) : State :=
  let T := s.tile t
  ((((s.setF (F.SCH_OCC_open_used t) T.opened).setF (F.SCH_OCC_planned t) T.planned).setF (F.SCH_OCC_ref_used t) (min 15 T.refresh)).setF
    (F.SCH_OCC_mitig_used t) T.mitig).setF (F.SCH_OCC_maint_used t) (min 15 T.maint)

/-! ### Work that takes maintenance slots or open slots -/

/-- R149: work without a fixed latency takes an open slot that has passed unused in this epoch. -/
def State.openFree (s : State) (t : Nat) : Bool := s.planning t && decide (0 < (s.tile t).unused)
def State.takeOpen (s : State) (t : Nat) : State :=
  s.modTile t fun T => { T with unused := T.unused - 1, opened := T.opened + 1 }

end Sys2Proof.Machine
end

