-- ==== Sys2Proof/Machine/Counters.lean ====
section
/-! DEFINITION. Counters, the counter cache's use, spill records and their ring, and policers
(06_counters_and_policers.md). -/

namespace Sys2Proof.Machine

/-! ### Where a counter or policer operation runs -/

/-- The tile whose engine executes it (R206). -/
def Req.engTile (r : Req) : Nat := if isL r.op r.flags then homeTile r.port else (dramLoc r.cfg r.addr).ch

/-- The tile whose integrity block counts what its word delivers. -/
def Req.wordTile (r : Req) : Nat :=
  if isL r.op r.flags then 8 * (scratchLine r.cfg r.addr).q else (dramLoc r.cfg r.addr).ch

/-- REFUSED, HOLE or UNAVAIL of a counter or policer operation, in the order of R82 (R70, R93, R206, R346, R399). -/
def State.engCheck (s : State) (r : Req) : Option Nat :=
  let inL := isL r.op r.flags
  let bytes := targetBytes r.op r.len
  let kind := regionKind r.cfg inL r.addr bytes
  let right := if r.op = opPOL then kind == 3 else kind == 1 || (kind == 2 && !inL)
  if misaligned r.op r.flags r.addr r.operand.toNat || !right then some 7
  else if dramHole r.op r.len r.flags r.addr || scratchHole r.cfg r.op r.len r.flags r.addr then some 6
  else if (!inL && !s.serves (dramLoc r.cfg r.addr).ch) || !s.engineUp r.engTile then some 0xA
  else none

/-- R208: counter operations on the address are served through the cache of tile `t`. -/
def State.caches (s : State) (r : Req) (t : Nat) : Bool :=
  !isL r.op r.flags && regionKind r.cfg false r.addr 8 == 2 && s.active.fv (F.ENG_CTL_cache_en t) != 0 &&
  decide (0 < cacheSets s.active t)

/-- The Larder words of a counter or policer operation: its target in the scratchpad, or its line in the counter cache. -/
def State.engUse (s : State) (r : Req) : List LAcc :=
  let wr := r.op != opCRD
  if isL r.op r.flags then
    (List.range (targetBytes r.op r.len / 8)).flatMap fun w =>
      lineUse (scratchLine r.cfg (r.addr + 8 * w)) [(r.addr + 8 * w) / 8 % 8] wr
  else if r.op != opPOL && s.caches r r.engTile then
    let t := r.engTile
    lineUse (placeLine (t / 8) (Config.cachePlace t (r.addr / 64))) [r.addr / 8 % 8] wr
  else []

/-- Take a line out of its set, written back when it is dirty. -/
def State.evictLine (s : State) (t k : Nat) (l : CLine) : State :=
  let s := s.setCacheSet k ((s.cacheSet k).filter fun x => decide (x.loc 0 ≠ l.loc 0))
  if l.dirty then s.writeBack t l else s

/-- R210: the write slot of a counter operation writes back the victim of its miss, which lies in the same channel. -/
def TileSt.writesInstead (T : TileSt) (r : Req) (l : CLine) : TileSt :=
  let turn (b : Burst) : Burst := if b.ofReq r && b.wr then { b with bank := l.bank, row := l.row, col := l.col } else b
  { T with
    plan := T.plan.map turn
    held := T.held.map turn
    late := T.late.map turn
    bursts := T.bursts.map fun e => (e.1, e.2.map turn) }

/-- R210, R212: the cache's part of a counter operation: a hit moves its line to the front; a miss fills a line, evicting
the least recently used way, or for CRD the least recently used clean one, when the region still is CACHED. A slot that
this leaves unused is open. Whether the word has been corrected as it was filled. -/
def State.cacheStep (s : State) (r : Req) (t : Nat) : Bool × State :=
  if !s.caches r t then (false, s)
  else
    let loc := dramLoc r.cfg r.addr
    match s.cached loc with
    | some (k, l) => (false, ((s.inc (F.ENG_CNT_CHIT_count t)).touchLine k l).release r fun _ => true)
    | none =>
      let s := s.inc (F.ENG_CNT_CMISS_count t)
      if regionKind s.active false r.addr 8 ≠ 2 then (false, s)
      else
        let k := cacheKey t (cacheSets s.active t) (r.addr / 64)
        let ways := s.cacheSet k
        let victim := if ways.length < 8 then none else if r.op = opCRD then (ways.filter fun l => !l.dirty).getLast? else ways.getLast?
        if 8 ≤ ways.length ∧ victim = none then (false, s)
        else
          let s := match victim with | some v => s.evictLine t k v | none => s
          let s := match victim.filter (·.dirty) with
            | some v => s.modTile t fun T => T.writesInstead r v
            | none => s.release r (·.wr)
          let ((l, corr), s) := s.fillLine loc (r.addr / 64) (engineCtx r false)
          (corr.getD (r.addr / 8 % 8) false, s.touchLine k l)

/-- Read and write a word of a counter or policer operation's target, `off` bytes from its address. -/
def State.readTarget (s : State) (r : Req) (off : Nat) (rmw : Bool) : WordRead × State :=
  if isL r.op r.flags then s.readScratch r.cfg (r.addr + off) (engineCtx r rmw)
  else s.readMem r.cfg (r.addr + off) (engineCtx r rmw)

def State.writeTarget (s : State) (r : Req) (off : Nat) (data : DWord) (poison : Bool) : State :=
  if isL r.op r.flags then s.writeScratch r.cfg (r.addr + off) data poison
  else s.writeMem r.cfg (r.addr + off) data poison

/-- R205, R230: a damaged counter or policer word: REFUSED for an uncorrectable one raises its source (R232). -/
def State.countDamage (s : State) (t e : Nat) (refused : Bool) : State :=
  let s := s.inc (F.ENG_CNT_CDAMAGE_count t)
  if refused then s.raise (Src.engine 2 (t / 8)) e else s

/-! ### The arithmetic (R201-R203) -/

/-- The fields of a format: (lowest bit, width), the lower field first. -/
def counterFields : Nat → List (Nat × Nat)
  | 0 => [(0, 64)]
  | 1 => [(0, 40), (40, 24)]
  | _ => [(0, 32), (32, 32)]

/-- One field under a policy: its new value and whether it overflowed. -/
def addField (policy w old inc : Nat) : Nat × Bool :=
  let sum := old + inc
  if sum < 2 ^ w then (sum, false) else if policy = 1 then (2 ^ w - 1, true) else (sum % 2 ^ w, true)

/-- R202: the counter word after the update, and the field codes that overflowed. -/
def addCounter (format policy : Nat) (old inc : DWord) : DWord × List Nat :=
  let parts := (counterFields format).zipIdx.map fun f =>
    let (v, ov) := addField policy f.1.2 (bits old.toNat f.1.1 f.1.2) (bits inc.toNat f.1.1 f.1.2)
    (v * 2 ^ f.1.1, ov, f.2)
  (BitVec.ofNat 64 ((parts.map fun p => p.1).sum), (parts.filter fun p => p.2.1).map fun p => p.2.2)

/-! ### Spill records (R215-R219) -/

def State.spillOf (s : State) (q : Nat) : SpillSt := Tab.get (fun _ => {}) s.eng.spill q
def State.setSpill (s : State) (q : Nat) (v : SpillSt) : State :=
  let s := { s with eng := { s.eng with spill := Tab.set (fun _ => {}) s.eng.spill q v } }
  s.setF F.ENG_SPILL_STAGED_count (((List.range 4).map fun q => (s.spillOf q).staged.length).sum)

/-- Whether a staged record takes another overflow of a field. -/
def SpillRec.takes (x : SpillRec) (addr : Nat) (inLarder : Bool) (field format : Nat) : Bool :=
  x.addr == addr && x.inLarder == inLarder && x.field == field && x.format == format && decide (x.carries < 65535)

/-- R219: an overflow goes unrecorded. -/
def State.spillLost (s : State) (t addr : Nat) : State :=
  let q := t / 8
  let s := (s.inc (F.ENG_CNT_SPILL_LOST_count t)).raise (Src.engine 1 q) (s.engineOf t)
  let p := s.spillOf q
  match p.lost with
  | none =>
    (s.setSpill q { p with lost := some (s.epoch, 0, 0) }).event 0x0602 [(12, 1, q), (13, 4, 1), (17, 4, addr)]
  | some (e, n, a) => s.setSpill q { p with lost := some (e, n + 1, if n = 0 then addr else a) }

/-- R217: stage an overflow of a field, or merge it into its staged record: whether it is recorded, and the state. -/
def State.spill (s : State) (r : Req) (field format : Nat) : Bool × State :=
  let t := r.engTile
  let q := t / 8
  let p := s.spillOf q
  let inL := isL r.op r.flags
  if p.staged.any (fun x => x.takes r.addr inL field format) then
    let merged := p.staged.map fun x => if x.takes r.addr inL field format then { x with carries := x.carries + 1 } else x
    (true, (s.setSpill q { p with staged := merged }).inc (F.ENG_CNT_SPILL_count t))
  else if p.staged.length < 1024 then
    (true, (s.setSpill q { p with staged := p.staged ++ [⟨r.addr, inL, field, format, 1, r.frame / 8 % 2 ^ 32⟩] }).inc
      (F.ENG_CNT_SPILL_count t))
  else (false, s.spillLost t r.addr)

/-- Stage every overflowed field in turn: whether all are recorded. -/
def State.spillAll (r : Req) (format : Nat) : List Nat → State → Bool × State
  | [], s => (true, s)
  | f :: fs, s =>
    let (a, s) := s.spill r f format
    let (b, s) := State.spillAll r format fs s
    (a && b, s)

/-- The ring of R214: base, records, and whether it takes records. -/
def ringBase (cfg : RegMap) : Nat := 64 * cfg.fv F.ENG_RING_BASE_LO_base + 2 ^ 32 * cfg.fv F.ENG_RING_BASE_HI_base
def ringLog (cfg : RegMap) : Nat := max 10 (min 24 (cfg.fv F.ENG_RING_CTL_log2size))
def ringOn (cfg : RegMap) : Bool := cfg.fv F.ENG_RING_CTL_enable != 0

/-- R218: records in the ring. -/
def State.ringUsed (s : State) : Nat := (s.fv F.ENG_RING_PROD_index + 2 ^ 32 - s.fv F.ENG_RING_CONS_index) % 2 ^ 32

/-- R218: SPILL_WARN when the occupancy first reaches the level; it is armed again below the level. -/
def State.ringLevel (s : State) : State :=
  let level := max 1 (s.active.fv F.ENG_RING_CTL_warn) * 2 ^ ringLog s.active
  if level ≤ 16 * s.ringUsed then
    if s.eng.ringWarned then s
    else
      ({ s with eng := { s.eng with ringWarned := true } }.event 0x0601
        [(12, 4, s.fv F.ENG_RING_PROD_index), (16, 4, s.fv F.ENG_RING_CONS_index)]).raise (Src.engine 0 0) (s.engineOf 0)
  else { s with eng := { s.eng with ringWarned := false } }

/-- The two words of a record at ring index `i` (R215, R216). -/
def spillWords (cfg : RegMap) (x : SpillRec) (i : Nat) : DWord × DWord :=
  (BitVec.ofNat 64 (x.carries * 2 ^ 48 + x.field * 2 ^ 43 + x.format * 2 ^ 41 + (if x.inLarder then 2 ^ 40 else 0) + x.addr % 2 ^ 40),
    BitVec.ofNat 64 ((1 - i / 2 ^ ringLog cfg % 2) * 2 ^ 63 + i % 2 ^ 31 * 2 ^ 32 + x.epoch % 2 ^ 32))

/-- Write one record to the ring. -/
def State.ringPut (s : State) (x : SpillRec) : State :=
  let i := s.fv F.ENG_RING_PROD_index
  let a := ringBase s.active + 16 * (i % 2 ^ ringLog s.active)
  let (w0, w1) := spillWords s.active x i
  (s.writeMems s.active a [(w0, false), (w1, false)]).setF F.ENG_RING_PROD_index ((i + 1) % 2 ^ 32)

/-- R217: the channel of the ring slot that is written next. -/
def State.ringTile (s : State) : Nat := (dramLoc s.active (ringBase s.active + 16 * (s.fv F.ENG_RING_PROD_index % 2 ^ ringLog s.active))).ch

/-- R217, R218: spill records wait for a slot of tile `t`. -/
def State.spillWaits (s : State) (t : Nat) : Bool :=
  ringOn s.active && decide (s.ringUsed < 2 ^ ringLog s.active) && s.ringTile == t && (List.range 4).any fun q => !(s.spillOf q).staged.isEmpty

/-- R217: up to four consecutive staged records of a quadrant go to the ring in one burst, while it is not full, in a
maintenance slot of the channel of the ring slot, or in an open slot where the channel reserves none for maintenance. -/
def execSpillRecordWrite (q : Quad) (s : State) : Host.Outcome State Fault Refusal :=
  let room := 2 ^ ringLog s.active - s.ringUsed
  let n := min room (4 - s.fv F.ENG_RING_PROD_index % 4)
  let p := s.spillOf q.val
  let t := s.ringTile
  let open_ := s.fv (F.SCH_CTL_maint t) == 0
  if !ringOn s.active || p.staged.isEmpty || n == 0 || !(if open_ then s.openFree t else s.maintFor 2 t) then .next s
  else
    let s := (if open_ then s.takeOpen t else s.takeMaint t 1).setSpill q.val { p with staged := p.staged.drop n }
    .next ((p.staged.take n).foldl State.ringPut s).ringLevel

/-- R219: the 256 epochs after a SPILL_LOST have run: the losses in them are sent, or the cycle ends. -/
def execSpillLostMergeExpiry (q : Quad) (s : State) : Host.Outcome State Fault Refusal :=
  let p := s.spillOf q.val
  match p.lost with
  | none => .next s
  | some (e, n, a) =>
    if s.epoch < e + 256 then .next s
    else
      let s := s.setSpill q.val { p with lost := none }
      .next (if n = 0 then s else s.event 0x0602 [(12, 1, q.val), (13, 4, n), (17, 4, a)])

/-! ### Counter opcodes -/

/-- R202, R203, R205: a CADD in a format. -/
def State.cadd (s : State) (r : Req) (k format : Nat) : State :=
  match s.engCheck r with
  | some st => s.refuse r st
  | none => s.enginePath r r.engTile (s.engineFor r.engTile k) (s.engUse r) fun s =>
    let t := r.engTile
    let (filled, s) := (s.inc (F.ENG_CNT_CUPD_count t)).cacheStep r t
    let (w, s) := s.readTarget r 0 true
    let corr := if w.corr || filled then 1 else 0
    if w.ue then ((s.writeTarget r 0 w.data true).countDamage t (s.engineFor t k) true).answer r { status := 7 }
    else if w.poison then
      ((s.countDamage t (s.engineFor t k) false).deliverPoison r.wordTile 1).answer r { status := 1, info := corr, result := w.data }
    else
      let policy := r.flags % 4
      let (v, ovf) := addCounter format policy w.data r.operand
      let s := s.writeTarget r 0 v false
      if ovf.isEmpty then s.answer r { status := 0, info := corr, result := v }
      else
        let s := s.inc (F.ENG_CNT_OVF_count t)
        let (kept, s) := if policy = 2 then State.spillAll r format ovf s else (false, s)
        s.answer r { status := 0, info := corr + (if kept then 2 else 0) + 4, result := v }

def execCadd64 (p : Port) (tag : BitVec 9) (k : Fin 4) (s : State) : Host.Outcome State Fault Refusal :=
  match s.runnable opCADD64 p tag with
  | none => .next s
  | some r => .next (s.cadd r k 0)

def execCaddpb (p : Port) (tag : BitVec 9) (k : Fin 4) (s : State) : Host.Outcome State Fault Refusal :=
  match s.runnable opCADDPB p tag with
  | none => .next s
  | some r => .next (s.cadd r k 1)

def execCaddd32 (p : Port) (tag : BitVec 9) (k : Fin 4) (s : State) : Host.Outcome State Fault Refusal :=
  match s.runnable opCADDD32 p tag with
  | none => .next s
  | some r => .next (s.cadd r k 2)

/-- R204, R205: CRD, and CRDCLR when `clear` holds. -/
def State.crd (s : State) (r : Req) (k : Nat) (clear : Bool) : State :=
  match s.engCheck r with
  | some st => s.refuse r st
  | none => s.enginePath r r.engTile (s.engineFor r.engTile k) (s.engUse r) fun s =>
    let t := r.engTile
    let (filled, s) := (s.inc (F.ENG_CNT_CUPD_count t)).cacheStep r t
    let (w, s) := s.readTarget r 0 clear
    let s := s.when clear fun s => s.writeTarget r 0 0 false
    let s := s.when w.isPoison fun s => (s.countDamage t (s.engineFor t k) false).deliverPoison r.wordTile 1
    s.answer r { status := if w.isPoison then 1 else 0, info := if w.corr || filled then 1 else 0, result := w.data }

def execCrd (p : Port) (tag : BitVec 9) (k : Fin 4) (s : State) : Host.Outcome State Fault Refusal :=
  match s.runnable opCRD p tag with
  | none => .next s
  | some r => .next (s.crd r k false)

def execCrdclr (p : Port) (tag : BitVec 9) (k : Fin 4) (s : State) : Host.Outcome State Fault Refusal :=
  match s.runnable opCRDCLR p tag with
  | none => .next s
  | some r => .next (s.crd r k true)

/-- R211: CFLUSH writes back the one line at addr, or every dirty line, and leaves them clean. -/
def execCflush (p : Port) (tag : BitVec 9) (s : State) : Host.Outcome State Fault Refusal :=
  match s.runnable opCFLUSH p tag with
  | none => .next s
  | some r =>
    match (if r.flags.testBit 0 then none else s.dramCheck r) with
    | some st => .next (s.answer r { status := st })
    | none =>
      let loc := dramLoc r.cfg r.addr
      if !r.flags.testBit 0 && (!s.serves loc.ch || !s.engineUp loc.ch) then .next (s.answer r { status := 0xA })
      else
        let pick (t : Nat) (l : CLine) : Bool := r.flags.testBit 0 || decide (l.loc t = loc)
        let n := (s.dirtyLines pick).length
        .next ((s.cleanLines r.work pick).answer r { status := 0, aux := min (8 * n) (2 ^ 32 - 1) })

/-! ### Policers (R221-R226) -/

/-- A policer's state (R221). -/
structure Policer where
  profile : Nat
  stamp : Nat
  cfrac : Nat
  efrac : Nat
  te : Nat
  tc : Nat
deriving DecidableEq, Repr

def Policer.ofWords (w0 w1 : DWord) : Policer :=
  ⟨bits w0.toNat 56 6, bits w0.toNat 24 32, bits w0.toNat 12 12, bits w0.toNat 0 12, bits w1.toNat 32 32, bits w1.toNat 0 32⟩

def Policer.words (x : Policer) : DWord × DWord :=
  (BitVec.ofNat 64 (x.profile * 2 ^ 56 + x.stamp * 2 ^ 24 + x.cfrac * 2 ^ 12 + x.efrac), BitVec.ofNat 64 (x.te * 2 ^ 32 + x.tc))

/-- A policer profile (R222). -/
structure Profile where
  alg : Nat
  aware : Bool
  cir : Nat
  pir : Nat
  cbs : Nat
  ebs : Nat
deriving DecidableEq, Repr

def profileOf (cfg : RegMap) (i : Nat) : Profile :=
  ⟨cfg.fv (F.ENG_POLPROF_CTL_alg 0 i), cfg.fv (F.ENG_POLPROF_CTL_aware 0 i) != 0, cfg.fv (F.ENG_POLPROF_CIR_cir 0 i),
    cfg.fv (F.ENG_POLPROF_PIR_pir 0 i), cfg.fv (F.ENG_POLPROF_CBS_cbs 0 i), cfg.fv (F.ENG_POLPROF_EBS_ebs_pbs 0 i)⟩

/-- R222: the profiles and state words that a POL refuses. -/
def badProfile (f : Profile) (w0 : DWord) : Bool :=
  f.alg == 0 || f.alg == 3 || (f.alg == 2 && (decide (f.pir < f.cir) || f.cbs == 0 || f.ebs == 0)) || (f.alg == 1 && f.cbs == 0) ||
  bits w0.toNat 62 2 != 0

/-- One bucket's refill: the tokens and the fraction, before and after it is clipped to its size: (tokens, fraction,
tokens beyond the size). -/
def refillBucket (size tokens frac rate elapsed : Nat) : Nat × Nat × Nat :=
  let a := frac + elapsed * rate
  let full := tokens + a / 4096
  (min size full, a % 4096, full - min size full)

/-- R224: the refill of a policer by a POL accepted in epoch `n`. -/
def Policer.refill (x : Policer) (f : Profile) (n : Nat) : Policer :=
  let d := (n % 2 ^ 32 + 2 ^ 32 - x.stamp) % 2 ^ 32
  let back := decide (2 ^ 32 - 64 ≤ d)
  let elapsed := if back then 0 else d
  let stamp := if back then x.stamp else n % 2 ^ 32
  let (tc, cf, ovf) := refillBucket f.cbs x.tc x.cfrac f.cir elapsed
  if f.alg = 1 then
    let te := min f.ebs (x.te + ovf)
    { x with stamp := stamp, tc := tc, te := te, cfrac := if tc = f.cbs ∧ te = f.ebs then 0 else cf, efrac := 0 }
  else
    let (te, ef, _) := refillBucket f.ebs x.te x.efrac f.pir elapsed
    { x with stamp := stamp, tc := tc, te := te, cfrac := if tc = f.cbs then 0 else cf, efrac := if te = f.ebs then 0 else ef }

/-- R225: mark a packet of `b` bytes with input colour `c`: the state with tokens taken, and the colour. -/
def Policer.mark (x : Policer) (f : Profile) (b c : Nat) : Policer × Nat :=
  let c := if f.aware then c else 0
  if f.alg = 1 then
    if c = 0 ∧ b ≤ x.tc then ({ x with tc := x.tc - b }, 0)
    else if c ≠ 2 ∧ b ≤ x.te then ({ x with te := x.te - b }, 1)
    else (x, 2)
  else
    if c = 2 ∨ x.te < b then (x, 2)
    else if c = 1 ∨ x.tc < b then ({ x with te := x.te - b }, 1)
    else ({ x with te := x.te - b, tc := x.tc - b }, 0)

/-- R224-R226. -/
def execPol (p : Port) (tag : BitVec 9) (k : Fin 4) (s : State) : Host.Outcome State Fault Refusal :=
  match s.runnable opPOL p tag with
  | none => .next s
  | some r =>
    match s.engCheck r with
    | some st => .next (s.refuse r st)
    | none => .next (s.enginePath r r.engTile (s.engineFor r.engTile k) (s.engUse r) fun s =>
      let t := r.engTile
      let s := s.inc (F.ENG_CNT_POL_count t)
      let (a, s) := s.readTarget r 0 true
      let (b, s) := s.readTarget r 8 true
      let corr := if a.corr || b.corr then 4 else 0
      if a.ue || b.ue then
        let s := s.when a.ue fun s => s.writeTarget r 0 a.data true
        let s := s.when b.ue fun s => s.writeTarget r 8 b.data true
        (s.countDamage t (s.engineFor t k) true).answer r { status := 7 }
      else if a.poison || b.poison then
        ((s.countDamage t (s.engineFor t k) false).deliverPoison r.wordTile ((if a.poison then 1 else 0) + if b.poison then 1 else 0)).answer r
          { status := 1, info := corr + 2 }
      else
        let x := Policer.ofWords a.data b.data
        let f := profileOf r.cfg x.profile
        if badProfile f a.data then s.answer r { status := 7 }
        else
          let (y, colour) := (x.refill f (r.frame / 8)).mark f (r.operand.toNat % 2 ^ 32) (r.flags % 4)
          let s := (s.writeTarget r 0 y.words.1 false).writeTarget r 8 y.words.2 false
          let s := s.when (colour == 2) fun s => s.inc (F.ENG_CNT_POLRED_count t)
          s.answer r { status := 0, info := corr + colour })

end Sys2Proof.Machine
end

