-- ==== Sys2Proof/Machine/Lookups.lean ====
section
/-! DEFINITION. Pooled slots (R184), exact-match lookups and their maintenance, and prefix walks
(07_lookup_walks.md). -/

namespace Sys2Proof.Machine

/-! ### Pooled slots -/

/-- The reserve of a pool (0 LOOKUP, 1 WALK, 2 CELLAR) held at a tile in an execution epoch. -/
def State.heldReserve (s : State) (t x pool : Nat) : Nat :=
  let r := Tab.get (fun _ => (0, 0, 0)) (s.tile t).resv x
  match pool with | 0 => r.1 | 1 => r.2.1 | _ => r.2.2

/-- R184: an operation of a request takes a slot of its pool for an execution epoch, in the channel of a burst, or of the
next epoch when that plan is fixed. Past the reserve it overflows into open slots of the epoch or later ones, and is
counted and reported (R200). The data of a late request has lost its planned slots (R162, R237, R271). -/
def State.poolTake (s : State) (r : Req) (loc : Loc) (x pool : Nat) (wr : Bool) : State :=
  let t := loc.ch
  let b : Burst := ⟨r.port, r.frame, r.tag, loc.bank, loc.row, loc.col, true, wr, 0⟩
  let x := max x (s.epoch + 1)
  if r.dataLate then s.modTile t fun T => { T with late := T.late ++ [b] }
  else
    let used := natGet (s.tile t).poolUsed (4 * x + pool) + 1
    let s := s.modTile t fun T => { T with poolUsed := natSet T.poolUsed (4 * x + pool) used }
    if s.heldReserve t x pool < used then
      let s := s.modTile t fun T => { T with work := T.work ++ [⟨0, x, b.planned (8 * x + 7)⟩] }
      (s.inc (F.SCH_POOL_OVER_count t)).raise (Src.port 7 (t / 8)) t
    else s.modTile t fun T => T.setBursts x (T.burstsAt x ++ [b])

/-! ### Hash tables -/

/-- A candidate bucket as the engine holds it: its number and its words; none when it cannot be reached. -/
structure Bucket where
  num : Nat
  words : Option (List WordRead)
deriving DecidableEq, Repr

/-- Read a bucket; one in a DEGRADED channel or a contained unit is not reached. -/
def State.readBucket (s : State) (r : Req) (h : HashTab) (b : Nat) : Bucket × State :=
  let a := h.base + 64 * b
  if s.serves (dramLoc r.cfg a).ch then
    let (ws, s) := s.readMems r.cfg a 8 (engineCtx r false)
    (⟨b, some ws⟩, s)
  else (⟨b, none⟩, s)

/-- An entry: its bucket, its slot, its words as read, and those of its whole bucket. -/
structure Entry where
  bucket : Nat
  slot : Nat
  words : List WordRead
  all : List WordRead
deriving DecidableEq, Repr

/-- The entries of a bucket, in slot order. -/
def Bucket.entries (h : HashTab) (b : Bucket) : List Entry :=
  let n := h.esize / 8
  match b.words with
  | none => []
  | some ws => (List.range (64 / h.esize)).map fun j => ⟨b.num, j, (ws.drop (n * j)).take n, ws⟩

/-- The bytes of an entry as a number, byte 0 lowest. -/
def wordsNum (ws : List DWord) : Nat := (ws.zipIdx).foldl (fun m w => m + w.1.toNat * 2 ^ (64 * w.2)) 0
def Entry.num (e : Entry) : Nat := wordsNum (e.words.map (·.data))

/-- R234: every word with key bytes or the control byte is clean or corrected, and not poisoned. -/
def Entry.readable (h : HashTab) (e : Entry) : Bool :=
  ((e.words.take ((h.keylen + 7) / 8)) ++ e.words.drop (h.esize / 8 - 1)).all fun w => !w.isPoison

def Entry.valid (h : HashTab) (e : Entry) : Bool := e.num.testBit (8 * h.esize - 1)
def Entry.key (h : HashTab) (e : Entry) : Nat := e.num % 2 ^ (8 * h.keylen)
def Entry.clean (e : Entry) : Bool := e.words.all fun w => !w.isPoison
def Entry.empty (h : HashTab) (e : Entry) : Bool := e.readable h && !e.valid h

/-- What the candidates of a key hold (R238, R239). -/
inductive Found where
  | hit (e : Entry)
  | unreached
  | damaged (e : Entry)
  | absent
deriving DecidableEq, Repr

def findKey (h : HashTab) (key : Nat) (bs : List Bucket) : Found :=
  let es := bs.flatMap (Bucket.entries h)
  match es.find? fun e => e.readable h && e.valid h && e.key h == key with
  | some e => .hit e
  | none =>
    if bs.any fun b => b.words.isNone then .unreached
    else match es.find? fun e => !e.readable h with
      | some e => .damaged e
      | none => .absent

/-- The bucket of a table, as a burst. -/
def HashTab.loc (h : HashTab) (cfg : RegMap) (b : Nat) : Loc := dramLoc cfg (h.base + 64 * b)

/-- Write an entry's words over a slot, in an open slot of the bucket's channel. Corrected words of the rest of the bucket,
`old` as read, are written back clean with it (R239), but those of slots that the request has written since. -/
def State.writeEntry (s : State) (r : Req) (h : HashTab) (bucket slot : Nat) (ws : List (DWord × Bool)) (old : List WordRead)
    (since : List (Nat × Nat)) : State :=
  let a := h.base + 64 * bucket
  let n := h.esize / 8
  let s := (old.zipIdx).foldl (fun (s : State) w =>
    if w.1.corr && w.2 / n != slot && !since.contains (bucket, w.2 / n) then s.writeMem r.cfg (a + 8 * w.2) w.1.data w.1.poison else s) s
  (s.writeMems r.cfg (a + h.esize * slot) ws).queueWork 2 r.work (h.loc r.cfg bucket) true

/-- The request's table, when it is configured (R70). -/
def Req.table (r : Req) : HashTab := hashTab r.cfg (r.operand.toNat % 64)
def Req.home (r : Req) : Nat := r.table.home (r.key r.table.keylen)

/-- R257: a lookup, walk or table update answered POISON. -/
def State.lkDamage (s : State) (t : Nat) : State :=
  (s.inc (F.ENG_CNT_LKDAMAGE_count t)).raise (Src.engine 6 (t / 8)) (s.engineOf t)

/-- The LOOKUP slots of a request's first reads (R182). -/
def State.lookupSlots (s : State) (r : Req) (bs : List Bucket) : State :=
  (bs.filter fun b => b.words.isSome).foldl (fun s b => s.poolTake r (r.table.loc r.cfg b.num) (r.frame / 8 + 2) 0 false) s

/-- Read the two candidates of a request's key. -/
def State.candidates (s : State) (r : Req) : List Bucket × State :=
  let h := r.table
  let (b1, b2) := h.candidates (r.key h.keylen)
  let (x, s) := s.readBucket r h b1
  let (y, s) := s.readBucket r h b2
  ([x, y], s.lookupSlots r [x, y])

/-- R70, R399: a lookup that cannot start. -/
def State.hashCheck (s : State) (r : Req) : Option Nat :=
  if !r.table.enable then some 7 else if !s.engineUp r.home then some 0xA else none

def anyCorr (bs : List Bucket) : Bool := bs.any fun b => (b.words.getD []).any (·.corr)

/-- R242: the request has touched buckets of its table; they are undefined when a WR of the table is outstanding with it. -/
def State.touched (s : State) (r : Req) (bs : List Nat) : State :=
  let s := s.modReq r fun q => { q with buckets := bs }
  if r.clash || s.reqs.any fun w => meetsTable w r then bs.foldl (fun (s : State) b => s.scramble r.cfg (r.table.base + 64 * b)) s else s

/-- Deliver an entry's words to the host, counting the poisoned ones for its channel. -/
def State.deliverEntry (s : State) (e : Entry) : State :=
  s.deliverPoison (e.bucket % 32) (e.words.filter (·.isPoison)).length

/-- R238, R239. -/
def execHlk (p : Port) (tag : BitVec 9) (s : State) : Host.Outcome State Fault Refusal :=
  match s.runnable opHLK p tag with
  | none => .next s
  | some r =>
    match s.hashCheck r with
    | some st => .next (s.answer r { status := st })
    | none =>
      let h := r.table
      let t := r.home
      let (bs, s) := (s.inc (F.ENG_CNT_HLK_count t)).candidates r
      let corr := if anyCorr bs then 1 else 0
      let reply (st : Nat) (e : Entry) (second : Bool) : Answer :=
        { status := st, info := corr + (if second then 2 else 0), aux := r.operand.toNat % 64
          rdata := [wordsPayload (e.words.map (·.data))] }
      match findKey h (r.key h.keylen) bs with
      | .hit e =>
        let second := (bs.map (·.num)).head? != some e.bucket
        if e.clean then .next ((s.inc (F.ENG_CNT_HHIT_count t)).answer r (reply 0 e second))
        else .next (((s.lkDamage t).deliverEntry e).answer r (reply 1 e second))
      | .unreached => .next (s.answer r { status := 0xA, info := corr, aux := r.operand.toNat % 64 })
      | .damaged e => .next (((s.lkDamage t).deliverEntry e).answer r (reply 1 e false))
      | .absent => .next (s.answer r { status := 2, info := corr, aux := r.operand.toNat % 64 })

/-- R239. -/
def execHdel (p : Port) (tag : BitVec 9) (s : State) : Host.Outcome State Fault Refusal :=
  match s.runnable opHDEL p tag with
  | none => .next s
  | some r =>
    match s.hashCheck r with
    | some st => .next (s.answer r { status := st })
    | none =>
      let h := r.table
      let t := r.home
      let (bs, s) := (s.inc (F.ENG_CNT_HDEL_count t)).candidates r
      match findKey h (r.key h.keylen) bs with
      | .hit e =>
        let s := (s.writeEntry r h e.bucket e.slot (e.words.map fun _ => (0, false)) e.all []).touched r (bs.map (·.num))
        if e.clean then .next (s.answer r { status := 0 }) else .next ((s.lkDamage t).answer r { status := 1 })
      | .unreached => .next ((s.touched r (bs.map (·.num))).answer r { status := 0xA })
      | .damaged _ => .next (((s.lkDamage t).touched r (bs.map (·.num))).answer r { status := 1 })
      | .absent => .next ((s.touched r (bs.map (·.num))).answer r { status := 2 })

/-- R240: one move of a displacement path: the victim as read. -/
abbrev Move := Entry

/-- The other candidate of an entry in bucket `b`. -/
def HashTab.other (h : HashTab) (e : Entry) : Nat :=
  let (b1, b2) := h.candidates (e.key h)
  if e.bucket = b1 then b2 else b1

/-- The victim at a bucket: the first slot from `start`, cyclically, that is readable and whose entry's other candidate
can be reached. -/
def State.victim (s : State) (r : Req) (h : HashTab) (b : Bucket) (start : Nat) : Option Entry :=
  let es := b.entries h
  let n := es.length
  ((List.range n).filterMap fun i => es[(start + i) % n]?).find? fun e =>
    e.readable h && s.serves (h.loc r.cfg (h.other e)).ch

/-- R240 step 2: search a path of at most `n` steps from bucket `b` with step number `j`: the moves, first victim first,
and the bucket with its empty slot at the end. -/
def State.findPath (r : Req) (h : HashTab) (rot : Nat) : Nat → Nat → Bucket → List Move → State → Option (List Move × Bucket × Nat) × State
  | 0, _, _, _, s => (none, s)
  | n + 1, j, b, path, s =>
    match s.victim r h b (rot + j) with
    | none => (none, s)
    | some e =>
      let (nb, s) := (s.queueWork 2 r.work (h.loc r.cfg (h.other e)) false).readBucket r h (h.other e)
      match (nb.entries h).find? (Entry.empty h) with
      | some free => (some (path ++ [e], nb, free.slot), s)
      | none => State.findPath r h rot n (j + 1) nb (path ++ [e]) s

/-- A victim's words as they are written to its new slot: with its poison, an uncorrectable word poisoned (R311). -/
def Entry.copy (e : Entry) : List (DWord × Bool) := e.words.map fun w => (w.data, w.isPoison)

/-- R240 step 3: the moves in reverse order, the last victim into the empty slot, each earlier one over the slot its
successor left, and the new entry over the first victim. -/
def State.writePath (r : Req) (h : HashTab) (new : List (DWord × Bool)) :
    List Move → Nat → Nat → List WordRead → List (Nat × Nat) → State → State
  | [], bucket, slot, old, since, s => s.writeEntry r h bucket slot new old since
  | e :: rest, bucket, slot, old, since, s =>
    State.writePath r h new rest e.bucket e.slot e.all (since ++ [(bucket, slot)]) (s.writeEntry r h bucket slot e.copy old since)

/-- The words of the new entry: the flit's bytes with the control byte 0x80 (R236). -/
def newEntry (h : HashTab) (d : Payload) : List (DWord × Bool) :=
  let v := d.at 0 (h.esize - 1) + 0x80 * 2 ^ (8 * (h.esize - 1))
  (List.range (h.esize / 8)).map fun i => (BitVec.ofNat 64 (v >>> (64 * i)), false)

/-- R240 for a key that neither candidate holds. -/
def State.place (s : State) (r : Req) (h : HashTab) (bs : List Bucket) : State :=
  let t := r.home
  let new := newEntry h (r.data.headD 0)
  match (bs.flatMap (Bucket.entries h)).find? (Entry.empty h) with
  | some e =>
    ((s.writeEntry r h e.bucket e.slot new e.all []).touched r (bs.map (·.num))).answer r { status := 0 }
  | none =>
    let k := r.operand.toNat % 64
    let rot := natGet s.eng.rot k
    let s := { s with eng := { s.eng with rot := natSet s.eng.rot k (rot + 1) } }
    match State.findPath r h rot h.maxdisp 1 (bs.headD ⟨0, none⟩) [] s with
    | (some (path, nb, slot), s) =>
      let s := (State.writePath r h new path.reverse nb.num slot (nb.words.getD []) [] s).touched r
        (bs.map (·.num) ++ path.map (·.bucket) ++ [nb.num]).dedup
      (s.addF (F.ENG_CNT_HDISP_count t) path.length).answer r { status := 0, aux := path.length }
    | (none, s) => (((s.inc (F.ENG_CNT_HFULL_count t)).raise (Src.engine 7 (t / 8)) (s.engineOf t)).touched r (bs.map (·.num))).answer r { status := 3 }

/-- R239, R240. -/
def execHins (p : Port) (tag : BitVec 9) (s : State) : Host.Outcome State Fault Refusal :=
  match s.runnable opHINS p tag with
  | none => .next s
  | some r =>
    match s.hashCheck r with
    | some st => .next (s.answer r { status := st })
    | none =>
      let h := r.table
      let t := r.home
      let (bs, s) := (s.inc (F.ENG_CNT_HINS_count t)).candidates r
      match findKey h (r.key h.keylen) bs with
      | .hit e =>
        let s := (s.writeEntry r h e.bucket e.slot (newEntry h (r.data.headD 0)) e.all []).touched r (bs.map (·.num))
        .next (s.answer r { status := 0, info := 2 })
      | .unreached => .next ((s.touched r (bs.map (·.num))).answer r { status := 0xA })
      | .damaged _ => .next (((s.lkDamage t).touched r (bs.map (·.num))).answer r { status := 1 })
      | .absent => .next (s.place r h bs)

/-! ### Prefix walks (R244-R252) -/

/-- The key of an LPM, its bit 0 the most significant of 32 or 128 (R245). -/
def Req.lpmKey (r : Req) (v6 : Bool) : Nat :=
  if v6 then ((List.range 16).map fun i => (r.data.headD 0).at i 1 * 2 ^ (8 * (15 - i))).sum else r.operand.toNat >>> 32

/-- The index of a key at level `i`. -/
def TrieTab.index (t : TrieTab) (key i : Nat) : Nat :=
  let used := ((t.levels.take (i + 1)).map (·.stride)).sum
  let s := ((t.levels[i]?).map (·.stride)).getD 0
  (key >>> ((if t.v6 then 128 else 32) - used)) % 2 ^ s

/-- The base of a level's pool. -/
def TrieTab.poolBase (t : TrieTab) (i : Nat) : Nat := ((t.levels[i]?).map (·.base)).getD 0

/-- What a node entry makes of a walk: it ends with a best result, or goes on to the entry at an address of the next level. -/
inductive NodeNext where
  | stop (best : Option (Nat × Nat))
  | go (best : Option (Nat × Nat)) (entry : Nat)
deriving DecidableEq, Repr

/-- R246, R247 step 2, for a sound entry of level `i`. -/
def TrieTab.follow (t : TrieTab) (key i : Nat) (best : Option (Nat × Nat)) (e : DWord) : NodeNext :=
  let x := e.toNat
  let here := some (bits x 53 8, bits x 29 24)
  match bits x 62 2 with
  | 1 => .stop here
  | 2 =>
    let best := if x.testBit 61 then here else best
    if i + 1 < t.levels.length then .go best (t.poolBase (i + 1) + 64 * bits x 0 29 + 8 * t.index key (i + 1))
    else .stop best
  | _ => .stop best

/-- The end of a walk without damage (R247 step 3). -/
def State.walkEnd (s : State) (r : Req) (best : Option (Nat × Nat)) (corr : Bool) : State :=
  let t := homeTile r.port
  match best with
  | some (plen, nh) => s.answer r { status := 0, info := if corr then 1 else 0, aux := plen, result := BitVec.ofNat 64 nh }
  | none => (s.inc (F.ENG_CNT_LPMMISS_count t)).answer r { status := 2, info := if corr then 1 else 0 }

/-- R251: a walk that meets a poisoned or uncorrectable entry. -/
def State.walkPoison (s : State) (r : Req) (best : Option (Nat × Nat)) (corr : Bool) : State :=
  let (plen, nh) := best.getD (0, 0)
  (s.lkDamage (homeTile r.port)).answer r
    { status := 1, info := if corr then 1 else 0, aux := plen, result := BitVec.ofNat 64 nh }

/-- The entry of reserved kind is counted where it is read (R246, R257). -/
def State.badNode (s : State) (t : Nat) (e : DWord) : State :=
  if bits e.toNat 62 2 = 3 then (s.inc (F.ENG_CNT_BADNODE_count t)).raise (Src.engine 5 (t / 8)) (s.engineOf t) else s

/-- R251: a walk ends without a result. -/
def State.walkStop (s : State) (r : Req) (status : Nat) (corr : Bool) : State :=
  s.answer r { status := status, info := if corr then 1 else 0 }

/-- R249: the fetch of a DRAM node's entry is issued by the engine of `tile`; HOLE or UNAVAIL end the walk instead (R251),
the latter too where no engine of the node's tile takes the walk on (R399). -/
def State.walkFetch (s : State) (r : Req) (t : TrieTab) (w : Walk) : State :=
  if dramTop < w.entry + 8 then s.walkStop r 6 w.corr
  else
    let ch := (dramLoc r.cfg w.entry).ch
    if !s.serves ch || !s.engineUp ch then s.walkStop r 0xA w.corr
    else
      let x := if r.mode = 2 then r.frame / 8 + 2 + t.u + 2 * (w.level - t.nlar) else s.epoch
      (s.poolTake r (dramLoc r.cfg w.entry) x 1 false).modReq r fun q => { q with walk := some w }

/-- The Larder levels from level `i` on, `n` of them left, then the first DRAM fetch (R248). -/
def State.walkLarder (r : Req) (t : TrieTab) (key : Nat) : Nat → Nat → Nat → Option (Nat × Nat) → Bool → State → State
  | 0, i, entry, best, corr, s => s.walkFetch r t ⟨i, entry, s.epoch, key, best, corr, homeTile r.port⟩
  | n + 1, i, entry, best, corr, s =>
    if scratchSize r.cfg < entry + 8 then s.walkStop r 6 corr
    else
      let (w, s) := s.readScratch r.cfg entry (engineCtx r false)
      let corr := corr || w.corr
      if w.isPoison then s.walkPoison r best corr
      else
        let s := s.badNode (homeTile r.port) w.data
        match t.follow key i best w.data with
        | .stop b => s.walkEnd r b corr
        | .go b e => State.walkLarder r t key n (i + 1) e b corr s

/-- The Larder words that a walk reads from level `i` on, `n` levels left (R248). -/
def State.walkUse (s : State) (r : Req) (t : TrieTab) (key : Nat) : Nat → Nat → Nat → List LAcc
  | 0, _, _ => []
  | n + 1, i, entry =>
    if scratchSize r.cfg < entry + 8 then []
    else
      let w := (s.readScratch r.cfg entry (engineCtx r false)).1
      lineUse (scratchLine r.cfg entry) [entry / 8 % 8] w.corr ++
        if w.isPoison then []
        else match t.follow key i none w.data with
          | .stop _ => []
          | .go _ e => s.walkUse r t key n (i + 1) e

/-- R247: a walk starts at the root. -/
def execLpm (p : Port) (tag : BitVec 9) (s : State) : Host.Outcome State Fault Refusal :=
  match s.runnable opLPM p tag with
  | none => .next s
  | some r =>
    let t := trieTab r.cfg (r.operand.toNat % 16)
    if r.walk.isSome then .next s
    else if !t.enable || t.v6 != r.flags.testBit 0 then .next (s.answer r { status := 7 })
    else if !s.engineUp (homeTile r.port) then .next (s.answer r { status := 0xA })
    else
      let key := r.lpmKey t.v6
      let n := min t.nlar t.levels.length
      let root := t.poolBase 0 + 8 * t.index key 0
      .next (s.enginePath r (homeTile r.port) (s.engineOf (homeTile r.port)) (s.walkUse r t key n 0 root) fun s =>
        State.walkLarder r t key n 0 root (t.dflt.map fun nh => (0, nh)) false (s.inc (F.ENG_CNT_LPM_count (homeTile r.port))))

/-- The walking request of (port, tag). -/
def State.walking (s : State) (p : Port) (tag : BitVec 9) : Option (Req × Walk) :=
  (s.reqs.find? fun r => r.port == p.val && r.tag == tag.toNat && r.answer.isNone).bind fun r => r.walk.map fun w => (r, w)

/-- R249, R250: a node fetch returns, and the walk continues or ends; with `tie`, its timer expires in the same cycle and
the return wins. -/
def execWalkNodeReturn (p : Port) (tag : BitVec 9) (tie : Bool) (s : State) : Host.Outcome State Fault Refusal :=
  match s.walking p tag with
  | none => .next s
  | some (r, w) =>
    let t := trieTab r.cfg (r.operand.toNat % 16)
    let ch := (dramLoc r.cfg w.entry).ch
    let s := s.when tie fun s => s.inc (F.ENG_CNT_NEARMISS_count w.tile)
    let s := s.modReq r fun q => { q with walk := none }
    let (d, s) := s.readMem r.cfg w.entry (engineCtx r false)
    let corr := w.corr || d.corr
    if d.isPoison then .next (s.walkPoison r w.best corr)
    else
      let s := s.badNode ch d.data
      match t.follow w.key w.level w.best d.data with
      | .stop b => .next (s.walkEnd r b corr)
      | .go b e => .next (s.walkFetch r t ⟨w.level + 1, e, s.epoch, w.key, b, corr, ch⟩)

/-- R250: a walk-step timer expires. -/
def execWalkStepTimeout (p : Port) (tag : BitVec 9) (s : State) : Host.Outcome State Fault Refusal :=
  match s.walking p tag with
  | none => .next s
  | some (r, w) =>
    if s.epoch < w.issued + max 1 (r.cfg.fv (F.ENG_WALK_step_timer w.tile)) then .next s
    else
      let s := (s.modReq r fun q => { q with walk := none }).inc (F.ENG_CNT_WALKTO_count w.tile)
      .next ((s.raise (Src.engine 4 (w.tile / 8)) (s.engineOf w.tile)).walkStop r 0xB w.corr)

end Sys2Proof.Machine
end

