-- ==== Sys2Proof/Machine/Cellar.lean ====
section
/-! DEFINITION. The Cellar packet-cell buffer (08_cellar_packet_buffer.md): placement, descriptors, pairs and the free list, the
head cache, ENQ, DEQ and QSTAT, broken queues and initialisation. -/

namespace Sys2Proof.Machine

/-! ### Placement (R258-R260, R289) -/

/-- The Cellar's areas in a configuration. -/
structure CelCfg where
  enable : Bool
  queues : Nat
  /-- S, the cell region in MiB. -/
  size : Nat
  cells : Nat
  links : Nat
deriving DecidableEq, Repr

def celCfg (cfg : RegMap) : CelCfg :=
  ⟨cfg.fv F.CEL_CTL_enable != 0, 4096 * max 1 (min 64 (cfg.fv F.CEL_QUEUES_qk)), min 65536 (cfg.fv F.CEL_CELL_SIZE_size),
    2 ^ 20 * cfg.fv F.CEL_CELL_BASE_base, 2 ^ 20 * cfg.fv F.CEL_LINK_BASE_base⟩

def CelCfg.cellAt (c : CelCfg) (x : Nat) : Nat := c.cells + 256 * x
def CelCfg.linkAt (c : CelCfg) (pair : Nat) : Nat := c.links + 8 * pair
def CelCfg.stackAt (c : CelCfg) (block : Nat) : Nat := c.links + c.size * 2 ^ 14 + 1024 * block

/-- The home tile and quadrant of a queue. -/
def queueTile (qn : Nat) : Nat := qn % 32
def queueQuad (qn : Nat) : Nat := qn % 32 / 8

/-- The place of a queue's descriptor: the line and its first word (R289; the place within the granules is log 9). -/
def descLine (cfg : RegMap) (qn : Nat) : LLine × Nat :=
  let q := queueQuad qn
  let o := 16 * (qn / 32 * 8 + qn % 8)
  let g := ((List.range 16).filter fun g => granule cfg q g == 3).getD (o / 2 ^ 20) 0
  let l := o % 2 ^ 20 / 64
  (⟨q, 8 * g + l % 8, l / 8⟩, o / 8 % 8)

/-! ### Descriptors (R268) -/

structure Desc where
  head : Nat
  tail : Nat
  eEop : Bool
  eShort : Bool
  oEop : Bool
  oShort : Bool
  broken : Bool
  len : Nat
  hc : Bool
  hcn : Nat
  hci : Nat
deriving DecidableEq, Repr

def Desc.ofWords (w0 w1 : DWord) : Desc :=
  let a := w0.toNat
  let b := w1.toNat
  ⟨bits a 0 32, bits a 32 32, b.testBit 63, b.testBit 62, b.testBit 61, b.testBit 60, b.testBit 59, bits b 32 24, b.testBit 31,
    bits b 28 2, bits b 0 18⟩

def flag (b : Bool) (i : Nat) : Nat := if b then 2 ^ i else 0

def Desc.word0 (d : Desc) : DWord := BitVec.ofNat 64 (d.head % 2 ^ 32 + d.tail % 2 ^ 32 * 2 ^ 32)
def Desc.word1 (d : Desc) : DWord :=
  BitVec.ofNat 64 (flag d.eEop 63 + flag d.eShort 62 + flag d.oEop 61 + flag d.oShort 60 + flag d.broken 59 + d.len % 2 ^ 24 * 2 ^ 32 +
    flag d.hc 31 + d.hcn % 4 * 2 ^ 28 + d.hci % 2 ^ 18)

/-- An empty descriptor. -/
def Desc.empty : Desc := ⟨0, 0, false, false, false, false, false, 0, false, 0, 0⟩

/-- Read a queue's descriptor words. -/
def State.readDesc (s : State) (cfg : RegMap) (qn port : Nat) : (WordRead × WordRead) × State :=
  let (l, w) := descLine cfg qn
  let (a, s) := s.readLarder l w (unitCtx port true) none
  let (b, s) := s.readLarder l (w + 1) (unitCtx port true) none
  ((a, b), s)

def State.writeDesc (s : State) (cfg : RegMap) (qn : Nat) (d : Desc) : State :=
  let (l, w) := descLine cfg qn
  (s.writeLarder l w d.word0 false).writeLarder l (w + 1) d.word1 false

/-! ### Free pairs (R262-R267, R285) -/

def State.cacheOf (s : State) (q : Nat) : List Nat := Tab.get (fun _ => []) s.cel.caches q
def State.flightOf (s : State) (q : Nat) : List FreeBlock := Tab.get (fun _ => []) s.cel.flight q

/-- R265, R285: free_pairs is counted anew, and CEL_LOW is sent when it first falls below its level. -/
def State.countFree (s : State) : State :=
  let n := 256 * s.cel.stack + ((List.range 4).map fun q =>
    (s.cacheOf q).length + ((s.flightOf q).map fun b => b.pairs.length).sum).sum
  let s := s.setF F.CEL_STATUS_free_pairs n
  let w := s.fv F.CEL_WARN_pairs
  let level := if w = 0 then (celCfg s.active).size * 64 else w
  if n < level ∧ s.fb F.CEL_CTL_warn_en ∧ !s.cel.lowSent ∧ s.fb F.CEL_STATUS_ready then
    ({ s with cel := { s.cel with lowSent := true } }.event 0x0701 [(12, 4, n), (16, 4, s.fv F.CEL_LOST_pairs)]).raise (Src.cellar 0) 0
  else if level + 4096 < n then { s with cel := { s.cel with lowSent := false } }
  else s

def State.setCache (s : State) (q : Nat) (l : List Nat) : State :=
  { s with cel := { s.cel with caches := Tab.set (fun _ => []) s.cel.caches q l } }
def State.setFlight (s : State) (q : Nat) (l : List FreeBlock) : State :=
  { s with cel := { s.cel with flight := Tab.set (fun _ => []) s.cel.flight q l } }

/-- R265, R282: the 16 bursts of a block of the free stack take open slots, for a refill (`k` below 4, by quadrant), a
spill (4) or the initialisation (5). -/
def State.blockWork (s : State) (k a : Nat) (wr : Bool) : State :=
  (List.range 16).foldl (fun (s : State) i => s.queueWork 2 (0xFF, 1 + k, s.absFrame) (dramLoc s.active (a + 64 * i)) wr) s

/-- Slots that such work still waits for: since a frame, if one is given. -/
def State.blockWaits (s : State) (k : Nat) (since : Option Nat) : Bool :=
  (List.range 32).any fun t => s.planning t && (s.tile t).work.any fun w =>
    w.burst.port == 0xFF && w.burst.tag == 1 + k && (match since with | some f => w.burst.frame == f | none => true)

/-- The pair indices of a block on the free stack, read by the engine of a quadrant. -/
def State.readBlock (s : State) (q k : Nat) : FreeBlock × State :=
  let a := s.cel.base + 1024 * k
  let (ws, s) := (s.blockWork q a false).readMems s.active a 128 (unitCtx 0xFF false)
  (⟨ws.flatMap fun w => [bits w.data.toNat 0 32, bits w.data.toNat 32 32], ws.any (·.isPoison), s.absFrame⟩, s)

/-- R265: a quadrant whose cache is below 1,024 starts one refill from the top of the stack in an epoch. -/
def State.refillStart (s : State) (q : Nat) : State :=
  if s.fb F.CEL_STATUS_ready && decide ((s.cacheOf q).length < 1024) && decide (0 < s.cel.stack) &&
      decide (natGet s.cel.refillAt q < s.epoch + 1) then
    let (b, s) := s.readBlock q (s.cel.stack - 1)
    let s := { s with cel := { s.cel with stack := s.cel.stack - 1, refillAt := natSet s.cel.refillAt q (s.epoch + 1) } }
    (s.setFlight q (s.flightOf q ++ [b])).countFree
  else s

/-- A list rotated left. -/
def rotate (l : List Nat) (n : Nat) : List Nat := l.drop (n % max 1 l.length) ++ l.take (n % max 1 l.length)

/-- R265: a cache above 1,792 spills one block of 256 onto the stack. Which 256 is not stated: a free value picks. -/
def State.spillBlock (s : State) (q : Nat) : State :=
  if (s.cacheOf q).length ≤ 1792 then s
  else
    let (v, s) := s.takeFree
    let l := rotate (s.cacheOf q) v
    let ws := (List.range 128).map fun i => (BitVec.ofNat 64 (l.getD (2 * i) 0 + l.getD (2 * i + 1) 0 * 2 ^ 32), false)
    let a := s.cel.base + 1024 * s.cel.stack
    let s := (s.writeMems s.active a ws).blockWork 4 a true
    ({ s with cel := { s.cel with stack := s.cel.stack + 1 } }.setCache q (l.drop 256)).countFree

/-- R265, R281: a refill block lands in its quadrant's cache once its bursts have been read; a damaged block is dropped and
its pairs are lost. -/
def execFreeRefillLand (q : Quad) (s : State) : Host.Outcome State Fault Refusal :=
  match s.flightOf q.val with
  | [] => .next s
  | b :: rest =>
    if s.blockWaits q.val (some b.since) then .next s
    else
      let s := s.setFlight q.val rest
      let s := if b.bad then (s.addF F.CEL_LOST_pairs b.pairs.length).raise (Src.cellar 4) 0
        else s.setCache q.val (s.cacheOf q.val ++ b.pairs)
      .next ((s.countFree.spillBlock q.val).refillStart q.val)

/-- A burst of the DEQ that freed a pair has not been read yet. -/
def TileSt.reads (T : TileSt) (id : WorkFor) : Bool :=
  let mine (b : Burst) : Bool := decide ((b.port, b.tag, b.frame) = id)
  T.plan.any mine || T.held.any mine || T.late.any mine || (T.bursts.any fun e => e.2.any mine) || T.work.any fun w => mine w.burst

/-- R267: the first freed pair of a quadrant that may enter its cache: its epoch has come and its DEQ has read its bursts. -/
def State.freeDue (s : State) (q : Nat) : Option FreedPair :=
  s.cel.freeing.find? fun f => f.quad == q && decide (f.due ≤ s.epoch) && !(List.range 32).any fun t => s.planning t && (s.tile t).reads f.deq

/-- R267, R283: a freed pair is to enter its quadrant's cache as this flit ends; an allocation in it takes the cache as it
stood. -/
def execPairFree (q : Quad) (s : State) : Host.Outcome State Fault Refusal :=
  match s.freeDue q.val with
  | none => .next s
  | some f => .next { s with cel := { s.cel with freeing := s.cel.freeing.erase f, entering := s.cel.entering ++ [(f.quad, f.pair)] } }

/-- Freed pairs enter their caches. -/
def State.pairsEnter (s : State) : State :=
  s.cel.entering.foldl (fun (s : State) f => ((s.setCache f.1 (s.cacheOf f.1 ++ [f.2])).countFree.spillBlock f.1).refillStart f.1)
    { s with cel := { s.cel with entering := [] } }

/-- R266: what an allocation of a pair finds. Which pair of the cache it takes is not stated: a free value picks. -/
inductive Alloc where
  | pair (j : Nat)
  | wait
  | full
deriving DecidableEq, Repr

def State.alloc (s : State) (q : Nat) (waiting : Bool) : Alloc × State :=
  match s.cacheOf q with
  | [] => if 0 < s.cel.stack ∨ (waiting ∧ (s.flightOf q) ≠ []) then (.wait, s) else (.full, s)
  | l =>
    let (v, s) := s.takeFree
    (.pair (l.getD (v % l.length) 0), s)

/-- The pair leaves the cache. -/
def State.takePair (s : State) (q j : Nat) : State := ((s.setCache q ((s.cacheOf q).erase j)).countFree).refillStart q

/-! ### Checks and broken queues -/

def Req.queue (r : Req) : Nat := r.operand.toNat % 2 ^ 18

/-- R261: whether the Cellar is ready for a request of a frame: as it was before the first boundary, of those after its
acceptance, at which the Cellar stopped or was to initialise, else as it is. -/
def State.celReady (s : State) (frame : Nat) : Bool :=
  match s.cel.readyLog.find? fun e => decide (frame < 8 * e.1) with
  | some e => e.2
  | none => s.fb F.CEL_STATUS_ready && !(match s.cel.initDue with | some e => decide (8 * e ≤ frame) | none => false)

/-- A boundary at which the Cellar stops or is to initialise; those that no waiting request was accepted before are forgotten. -/
def State.logReady (s : State) : State :=
  let live (e : Nat × Bool) : Bool := s.reqs.any fun r => decide (r.frame < 8 * e.1)
  { s with cel := { s.cel with readyLog := s.cel.readyLog.filter live ++ [(s.epoch, s.fb F.CEL_STATUS_ready)] } }

/-- REFUSED or UNAVAIL before a Cellar request is decided (R70, R261, R399, R425). -/
def State.celCheck (s : State) (r : Req) : Option Nat :=
  let c := celCfg r.cfg
  if !c.enable || c.size == 0 || !s.celReady r.frame || decide (c.queues ≤ r.queue) then some 7
  else if s.isContained .cellar || !s.engineUp (queueTile r.queue) then some 0xA
  else none

/-- R281: a queue becomes broken: counted, its source raised, CEL_BROKEN sent. -/
def State.breakQueue (s : State) (qn cause ptr : Nat) : State :=
  ((s.inc F.CEL_CNT_BROKEN_count).raise (Src.cellar 3) 0).event 0x0702 [(12, 3, qn), (15, 1, cause), (16, 4, ptr)]

/-- R281, cause 1: an engine has read a damaged word of a queue's descriptor: it is written back with the poison bit set. -/
def State.breakDesc (s : State) (cfg : RegMap) (qn : Nat) (a b : WordRead) : State :=
  let (l, w) := descLine cfg qn
  let s := s.when a.isPoison fun s => s.writeLarder l w a.data true
  let s := s.when b.isPoison fun s => s.writeLarder l (w + 1) b.data true
  if s.cel.broken.contains qn then s
  else { s with cel := { s.cel with broken := s.cel.broken ++ [qn] } }.breakQueue qn 1 0

/-- R281, cause 2: the descriptor is written back with broken = 1; the request is REFUSED. -/
def State.breakLink (s : State) (r : Req) (d : Desc) (ptr : Nat) : State :=
  ((s.writeDesc r.cfg r.queue { d with broken := true }).breakQueue r.queue 2 ptr).answer r { status := 7 }

/-- The channels of `n` bursts at an address are all served. -/
def State.servesRange (s : State) (cfg : RegMap) (a n : Nat) : Bool :=
  (List.range n).all fun i => s.serves (dramLoc cfg (a + 64 * i)).ch

/-- Slots of the CELLAR pool in the channels of `n` bursts at an address (R184). -/
def State.celSlots (s : State) (r : Req) (x a n : Nat) (wr : Bool) : State :=
  (List.range n).foldl (fun s i => s.poolTake r (dramLoc r.cfg (a + 64 * i)) x 2 wr) s

/-! ### The head cache (R275, R276) -/

/-- Entries of a quadrant's head cache. -/
def hcEntries (cfg : RegMap) (q : Nat) : Nat := 1920 * granules cfg q 4

def State.headOf (s : State) (qn : Nat) : Option HcEntry := s.cel.heads.find? fun e => e.queue == qn

def State.setHead (s : State) (e : HcEntry) : State :=
  { s with cel := { s.cel with heads := s.cel.heads.map fun x => if x.queue == e.queue then e else x } }

def State.countHeads (s : State) : State :=
  (List.range 4).foldl (fun (s : State) q =>
    s.setF (F.CEL_HC_STAT_used q) ((s.cel.heads.filter fun e => queueQuad e.queue == q).length)) s

def State.dropHead (s : State) (qn : Nat) : State :=
  { s with cel := { s.cel with heads := s.cel.heads.filter fun e => e.queue != qn } }.countHeads

/-- An entry for an empty queue, when one is free; which free entry is not stated: a free value picks. -/
def State.newHead (s : State) (cfg : RegMap) (qn : Nat) : State :=
  let q := queueQuad qn
  let used := (s.cel.heads.filter fun e => queueQuad e.queue == q).map (·.idx)
  let free := (List.range (hcEntries cfg q)).filter fun i => !used.contains i
  if free.isEmpty then s
  else
    let (v, s) := s.takeFree
    { s with cel := { s.cel with heads := s.cel.heads ++ ([⟨free.getD (v % free.length) 0, qn, [], none, s.epoch⟩] : List HcEntry) } }.countHeads

/-- The descriptor's view of the queue's entry. -/
def State.descHead (s : State) (qn : Nat) (d : Desc) : Desc :=
  match s.headOf qn with
  | some e => { d with hc := true, hcn := e.cells.length, hci := e.idx }
  | none => { d with hc := false, hcn := 0, hci := 0 }

/-- R276: the idle limit of a head-cache entry runs out; with `tie`, a DEQ reaches the engine in the same cycle and wins. -/
def execHeadCacheIdleRelease (queue : BitVec 18) (tie : Bool) (s : State) : Host.Outcome State Fault Refusal :=
  let idle := s.fv F.CEL_HC_idle
  match s.headOf queue.toNat with
  | none => .next s
  | some e =>
    if idle = 0 ∨ s.epoch < e.since + 256 * idle then .next s
    else if tie then .next (s.inc F.CEL_CNT_NEARMISS_count)
    else
      let ((a, b), s) := s.readDesc s.active queue.toNat 0xFF
      let s := s.dropHead queue.toNat
      if a.isPoison || b.isPoison then .next (s.breakDesc s.active queue.toNat a b)
      else .next (s.writeDesc s.active queue.toNat (s.descHead queue.toNat (Desc.ofWords a.data b.data)))

/-- The Larder words of a Cellar operation: the queue's descriptor, and its head-cache entry where it has one. -/
def State.celUse (s : State) (r : Req) : List LAcc :=
  let (l, w) := descLine r.cfg r.queue
  let wr := r.op != opQSTAT
  lineUse l [w, w + 1] wr ++ match s.headOf r.queue with
    | some e => if wr then lineUse (placeLine l.q (Config.headPlace l.q e.idx)) (List.range 8) true else []
    | none => []

/-! ### ENQ (R269-R271, R275) -/

/-- The 32 words of an ENQ's cell, with the count in byte 255 of a short one. -/
def cellWords (r : Req) : List DWord :=
  let v := bits r.operand.toNat 19 8
  let ws := (List.range 4).flatMap fun i => (List.range 8).map fun k => (r.data.getD i 0).word k
  if v = 0 then ws else ws.set 31 (BitVec.ofNat 64 ((ws.getD 31 0).toNat % 2 ^ 56 + v * 2 ^ 56))

/-- A link entry (R263). -/
def linkEntry (eop short : Bool) (next : Nat) : Nat := flag eop 31 + flag short 30 + next % 2 ^ 28

/-- R275: an ENQ's part in the head cache. -/
def State.headEnq (s : State) (r : Req) (cell : Nat) (eop short : Bool) (ws : List DWord) : State :=
  match s.headOf r.queue with
  | none => s
  | some e =>
    if e.cells.length < 2 then s.setHead { e with cells := e.cells ++ [⟨cell, eop, short, ws.map fun w => encodeWord w false⟩] }
    else if e.follow = none then s.setHead { e with follow := some cell }
    else s

/-- Steps 4 to 7 of R269: the cell is written and the descriptor updated. -/
def State.enqFinish (s : State) (r : Req) (d : Desc) (cell : Nat) : State :=
  let c := celCfg r.cfg
  let eop := r.operand.toNat.testBit 18
  let short := bits r.operand.toNat 19 8 != 0
  let d := if cell % 2 = 0 then { d with eEop := eop, eShort := short, oEop := false, oShort := false }
    else { d with oEop := eop, oShort := short }
  let ws := cellWords r
  let s := s.when (d.len == 0) fun s => (s.dropHead r.queue).newHead r.cfg r.queue
  let s := s.headEnq r cell eop short ws
  let d := { d with head := if d.len = 0 then cell else d.head, tail := cell, len := d.len + 1 }
  let s := s.writeDesc r.cfg r.queue (s.descHead r.queue d)
  let s := (s.writeMems r.cfg (c.cellAt cell) (ws.map fun w => (w, false))).celSlots r (r.frame / 8 + 4) (c.cellAt cell) 4 true
  s.answer r { status := 0, aux := d.len, result := BitVec.ofNat 64 cell }

/-- R269: the engine decides an ENQ. -/
def State.enq (s : State) (r : Req) : State :=
  let c := celCfg r.cfg
  let q := queueQuad r.queue
  let s := s.when (!r.waiting) fun s => s.inc F.CEL_CNT_ENQ_count
  let ((a, b), s) := s.readDesc r.cfg r.queue r.port
  if a.isPoison || b.isPoison then (s.breakDesc r.cfg r.queue a b).answer r { status := 7 }
  else
    let d := Desc.ofWords a.data b.data
    if d.broken then s.answer r { status := 7 }
    else if d.len = 2 ^ 24 - 1 then (s.inc F.CEL_CNT_FULL_count).answer r { status := 3 }
    else if d.len = 0 ∨ d.tail % 2 = 1 then
      match s.alloc q r.waiting with
      | (.full, s) => ((s.inc F.CEL_CNT_FULL_count).raise (Src.cellar 1) 0).answer r { status := 3 }
      | (.wait, s) =>
        let s := s.when (!r.waiting) fun s => { s with cel := { s.cel with waits := s.cel.waits ++ [(r.port, r.tag)] } }
        -- it is taken up again within the flit when its refill lands (R283)
        let s := { s with lar := { s.lar with eng := s.lar.eng.take (s.lar.eng.length - (s.celUse r).length) } }
        (s.modReq r fun x => { x with waiting := true }).refillStart q
      | (.pair j, s) =>
        let link := c.linkAt (d.tail / 2)
        if !s.servesRange r.cfg (c.cellAt (2 * j)) 4 || (d.len != 0 && !s.servesRange r.cfg link 1) then
          s.answer r { status := 0xA }
        else
          let s := s.takePair q j
          let s := if d.len = 0 then s else
            (s.writeMem r.cfg link (BitVec.ofNat 64 (linkEntry d.eEop d.eShort d.tail + linkEntry d.oEop d.oShort (2 * j) * 2 ^ 32))
              false).celSlots r (r.frame / 8 + 4) link 1 true
          s.enqFinish r d (2 * j)
    else if !s.servesRange r.cfg (c.cellAt (d.tail + 1)) 4 then s.answer r { status := 0xA }
    else s.enqFinish r d (d.tail + 1)

/-- R269. -/
def execEnq (p : Port) (tag : BitVec 9) (s : State) : Host.Outcome State Fault Refusal :=
  match s.runnable opENQ p tag with
  | none => .next s
  | some r =>
    match s.celCheck r with
    | some st => .next (s.answer r { status := st })
    | none => .next (s.enginePath r (queueTile r.queue) (s.engineOf (queueTile r.queue)) (s.celUse r) fun s => s.enq r)

/-! ### DEQ (R272, R273, R279, R280) -/

/-- What the engine knows of a cell: its eop and short bits, and its successor when it has one. -/
structure CellInfo where
  eop : Bool
  short : Bool
  next : Option Nat
deriving DecidableEq, Repr

/-- R272 steps 2 and 3 for a cell of a queue with `left` cells from it on: from the descriptor when the cell lies in the
tail pair, else from its pair's link codeword, which is read; a damaged one is answered none. A DEQ without an entry reads
the codeword of an odd cell of the tail pair too (R273); it is not written yet, and nothing of it is used (log 97). -/
def State.cellInfo (s : State) (r : Req) (d : Desc) (c left : Nat) (entry : Bool) : Option CellInfo × State :=
  let even := c % 2 = 0
  let next (odd : Nat) : Option Nat := if left = 1 then none else if even then some (c + 1) else some odd
  let a := (celCfg r.cfg).linkAt (c / 2)
  let read (s : State) : WordRead × State := (s.celSlots r (r.frame / 8 + 2) a 1 false).readMem r.cfg a (engineCtx r false)
  if c / 2 = d.tail / 2 then
    let s := if even || entry || !s.servesRange r.cfg a 1 then s else (read s).2
    (some (if even then ⟨d.eEop, d.eShort, next 0⟩ else ⟨d.oEop, d.oShort, next 0⟩), s)
  else
    let (w, s) := read s
    if w.isPoison then (none, s)
    else
      let e := w.data.toNat >>> (if even then 0 else 32)
      (some ⟨e.testBit 31, e.testBit 30, next (bits w.data.toNat 32 28)⟩, s)

/-- The 32 words of a cell in DRAM. -/
def State.readCell (s : State) (r : Req) (c : Nat) : List WordRead × State :=
  let a := (celCfg r.cfg).cellAt c
  (s.celSlots r (r.frame / 8 + 2) a 4 false).readMems r.cfg a 32 (engineCtx r false)

/-- The words of a cell in a head-cache entry (R279): Larder words, counted and logged; where the entry lies is not
stated, so the place in the log entry is a free value. -/
def State.readHead (s : State) (r : Req) (h : HcCell) : List WordRead × State :=
  let q := queueQuad r.queue
  (h.words.zipIdx).foldl (fun (rs, (s : State)) w =>
    match decodeWord w.1.toNat [] with
    | .ok x errs _ =>
      let rd : WordRead := ⟨BitVec.ofNat 64 x, x.testBit 64, !errs.isEmpty, false⟩
      if errs.isEmpty then (rs ++ [rd], s)
      else
        let (v, s) := s.takeFree
        (rs ++ [rd], ((s.inc (F.ECC_CNT_LCE_count q)).raise (Src.integrity 0 q) (8 * q)).capture (8 * q) 4
          ⟨s.epoch, 3, 1, 8 + 16 * errs.length, q, v % 128, v / 128 % 2048, 0, w.2 % 8, errBit errs 0, errBit errs 1, 0xFFFFFFFFFF, r.port, 0⟩)
    | .bad =>
      let (v, s) := s.takeFree
      (rs ++ [⟨BitVec.ofNat 64 w.1.toNat, w.1.getLsbD 64, false, true⟩],
        ((s.inc (F.ECC_CNT_LUE_count q)).raise (Src.integrity 1 q) (8 * q)).capture (8 * q) 5
          ⟨s.epoch, 4, 1, 0, q, v % 128, v / 128 % 2048, 0, w.2 % 8, 0xFF, 0xFF, 0xFFFFFFFFFF, r.port, 0⟩))
    (([] : List WordRead), s)

/-- R273, R275: after a DEQ from the entry the second cell moves up, and the cell that follows is copied in. A damaged
link codeword of that cell is answered none. -/
def State.refillHead (s : State) (r : Req) (d : Desc) (e : HcEntry) (left : Nat) : Option HcEntry × State :=
  let e := { e with cells := e.cells.drop 1, since := s.epoch }
  match e.follow with
  | none => (some e, s)
  | some f =>
    match s.cellInfo r d f (left - e.cells.length) true with
    | (none, s) => (none, s)
    | (some i, s) =>
      let (ws, s) := s.readCell r f
      (some { e with cells := e.cells ++ [⟨f, i.eop, i.short, ws.map fun w => encodeWord w.data w.isPoison⟩], follow := i.next }, s)

/-- Steps 4 to 7 of R272, once the cell's words and successor are known. -/
def State.deqFinish (s : State) (r : Req) (d : Desc) (i : CellInfo) (ws : List WordRead) (cached : Bool) : State :=
  let q := queueQuad r.queue
  let c := d.head
  let s := if c % 2 = 1 ∨ d.len = 1 then
      { s with cel := { s.cel with freeing := s.cel.freeing ++ ([⟨q, c / 2, r.frame / 8 + 3, r.work⟩] : List FreedPair) } } else s
  let s := s.when (d.len == 1) fun s => s.dropHead r.queue
  let d' := { d with head := i.next.getD d.head, len := d.len - 1 }
  let s := s.writeDesc r.cfg r.queue (s.descHead r.queue d')
  let bad := (ws.filter (·.isPoison)).length
  let s := if bad = 0 then s
    else
      let s := (s.inc F.CEL_CNT_POISON_count).raise (Src.cellar 5) 0
      if cached then s.deliverPoison (8 * q) bad
      else (List.range 4).foldl (fun (s : State) k =>
        s.deliverPoison (dramLoc r.cfg ((celCfg r.cfg).cellAt c + 64 * k)).ch (((ws.drop (8 * k)).take 8).filter (·.isPoison)).length) s
  s.answer r
    { status := if bad = 0 then 0 else 1
      info := if i.eop then 1 else 0
      aux := if i.short then (ws.getD 31 ⟨0, false, false, false⟩).data.toNat >>> 56 else 256
      result := BitVec.ofNat 64 c
      rdata := (List.range 4).map fun k => wordsPayload (((ws.drop (8 * k)).take 8).map (·.data)) }

/-- R272: the engine decides a DEQ. -/
def State.deq (s : State) (r : Req) : State :=
  let ((a, b), s) := (s.inc F.CEL_CNT_DEQ_count).readDesc r.cfg r.queue r.port
  if a.isPoison || b.isPoison then (s.breakDesc r.cfg r.queue a b).answer r { status := 7 }
  else
    let d := Desc.ofWords a.data b.data
    if d.broken then s.answer r { status := 7 }
    else if d.len = 0 then (s.inc F.CEL_CNT_EMPTY_count).answer r { status := 4 }
    else
      match (s.headOf r.queue).bind fun e => (e.cells.head?).bind fun h => if h.ptr = d.head then some (e, h) else none with
      | some (e, h) =>
        let next := ((e.cells[1]?).map (·.ptr)).orElse fun _ => e.follow
        let c := celCfg r.cfg
        let follow := (e.follow.map fun f =>
          s.servesRange r.cfg (c.cellAt f) 4 && (f / 2 == d.tail / 2 || s.servesRange r.cfg (c.linkAt (f / 2)) 1)).getD true
        if !follow then s.answer r { status := 0xA }
        else match s.refillHead r d e (d.len - 1) with
          | (none, s) => s.breakLink r d (e.follow.getD 0)
          | (some e', s) =>
            let (ws, s) := ((s.setHead e').inc F.CEL_CNT_HCHIT_count).readHead r h
            s.deqFinish r d ⟨h.eop, h.short, if d.len = 1 then none else next⟩ ws true
      | none =>
        if !s.servesRange r.cfg ((celCfg r.cfg).cellAt d.head) 4 ||
            (d.head / 2 != d.tail / 2 && !s.servesRange r.cfg ((celCfg r.cfg).linkAt (d.head / 2)) 1) then
          s.answer r { status := 0xA }
        else match s.cellInfo r d d.head d.len false with
          | (none, s) => s.breakLink r d d.head
          | (some i, s) =>
            let (ws, s) := s.readCell r d.head
            s.deqFinish r d i ws false

/-- R272. -/
def execDeq (p : Port) (tag : BitVec 9) (s : State) : Host.Outcome State Fault Refusal :=
  match s.runnable opDEQ p tag with
  | none => .next s
  | some r =>
    match s.celCheck r with
    | some st => .next (s.answer r { status := st })
    | none => .next (s.enginePath r (queueTile r.queue) (s.engineOf (queueTile r.queue)) (s.celUse r) fun s => s.deq r)

/-- R274: the descriptor in bytes 0-15; its head and tail are undefined while the queue is empty, and then free values. A
damaged word breaks the queue as any engine's read of it does (R281), and is returned with POISON. -/
def State.qstat (s : State) (r : Req) : State :=
  let ((a, b), s) := s.readDesc r.cfg r.queue r.port
  let bad := a.isPoison || b.isPoison
  let s := s.deliverPoison (8 * queueQuad r.queue) ((if a.isPoison then 1 else 0) + if b.isPoison then 1 else 0)
  let s := s.when bad fun s => s.breakDesc r.cfg r.queue a b
  let (w0, s) := if !bad && bits b.data.toNat 32 24 == 0 then (let (v, s) := s.takeFree; (BitVec.ofNat 64 v, s)) else (a.data, s)
  s.answer r { status := if bad then 1 else 0, rdata := [payload [(0, 8, w0.toNat), (8, 8, b.data.toNat)]] }

/-- R274. -/
def execQstat (p : Port) (tag : BitVec 9) (s : State) : Host.Outcome State Fault Refusal :=
  match s.runnable opQSTAT p tag with
  | none => .next s
  | some r =>
    match s.celCheck r with
    | some st => .next (s.answer r { status := st })
    | none => .next (s.enginePath r (queueTile r.queue) (s.engineOf (queueTile r.queue)) (s.celUse r) fun s => s.qstat r)

/-! ### Initialisation (R282) and reset of a queue (R281) -/

/-- The free stack written whole: block k holds pairs 256 k to 256 k + 255. -/
def State.writeStack (s : State) (c : CelCfg) : State :=
  let s := (List.range (c.size * 1024)).foldl (fun (s : State) i =>
    s.writeMem s.active (c.stackAt 0 + 8 * i) (BitVec.ofNat 64 (2 * i + (2 * i + 1) * 2 ^ 32)) false) s
  (List.range (c.size * 8)).foldl (fun (s : State) k => s.blockWork 5 (c.stackAt k) true) s

/-- A Cellar request that was accepted before the boundary of epoch `e` has not been decided. -/
def State.celOld (s : State) (e : Nat) : Bool :=
  s.reqs.any fun r => (r.op == opENQ || r.op == opDEQ || r.op == opQSTAT) && r.answer.isNone && decide (r.frame < 8 * e)

/-- Steps 1 to 5 of R282, once no Cellar request accepted before the boundary is left. -/
def execCellarInit (s : State) : Host.Outcome State Fault Refusal :=
  match s.cel.initDue with
  | none => .next s
  | some e =>
    let c := celCfg s.active
    if s.celOld e || s.fb F.CEL_STATUS_init_busy || !c.enable || c.size == 0 then .next s
    else
      let s := (s.setF F.CEL_STATUS_ready 0).setF F.CEL_STATUS_init_busy 1
      let s := (List.range c.queues).foldl (fun (s : State) qn => s.writeDesc s.active qn Desc.empty) s
      let s := { s with cel := { s.cel with
        caches := [], flight := [], refillAt := [], freeing := [], entering := [], heads := [], broken := [], resets := []
        stack := c.size * 8, base := c.stackAt 0, initDue := none } }
      let s := (List.range 4).foldl (fun (s : State) q => s.setF (F.CEL_HC_STAT_entries q) (hcEntries s.active q)) s.countHeads
      .next (s.writeStack c).countFree

/-- Step 6 of R282, once the stack is written: the Cellar is ready, unless it has been stopped or is to initialise again. -/
def execCellarInitDone (s : State) : Host.Outcome State Fault Refusal :=
  if !s.fb F.CEL_STATUS_init_busy || s.blockWaits 5 none then .next s
  else
    let go := s.cel.initDue.isNone && (celCfg s.active).enable
    let s := ((s.setF F.CEL_STATUS_init_busy 0).setF F.CEL_LOST_pairs 0).setF F.CEL_STATUS_ready (if go then 1 else 0)
    .next { s with cel := { s.cel with lowSent := false } }

/-- Pairs that a queue holds. -/
def Desc.pairs (d : Desc) : Nat :=
  if d.len = 0 then 0 else if d.head % 2 = 0 then (d.len + 1) / 2 else 1 + d.len / 2

/-- R281: a write of CEL_QRESET; a request of the queue in the same flit is decided first (R283). -/
def State.askReset (s : State) (w : Word) : State :=
  if w.field 31 1 = 0 then s else { s with cel := { s.cel with resets := s.cel.resets ++ [w.field 0 18] } }

/-- R281: a queue is reset. The pairs of a queue whose descriptor is damaged are not known: a free value (log 76). -/
def State.queueReset (s : State) (qn : Nat) : State :=
  if !s.fb F.CEL_STATUS_ready ∨ (celCfg s.active).queues ≤ qn then s
  else
    let ((a, b), s) := s.readDesc s.active qn 0xFF
    let (n, s) := if a.isPoison || b.isPoison then (let (v, s) := s.takeFree; (v % 2 ^ 28, s)) else ((Desc.ofWords a.data b.data).pairs, s)
    let s := (s.addF F.CEL_LOST_pairs n).dropHead qn
    { s with cel := { s.cel with broken := s.cel.broken.filter (· ≠ qn) } }.writeDesc s.active qn Desc.empty

/-- R266: the ENQs that began to wait in this flit and still wait are counted. -/
def State.countWaits (s : State) : State :=
  let still (k : Nat × Nat) : Bool := s.reqs.any fun r => r.port == k.1 && r.tag == k.2 && r.waiting && r.answer.isNone
  let n := (s.cel.waits.filter still).length
  let s := { s with cel := { s.cel with waits := [] } }
  s.when (n != 0) fun s => (s.addF F.CEL_CNT_FREEWAIT_count n).raise (Src.cellar 2) 0

/-- R283: what the end of a flit settles in the Cellar. -/
def State.cellarFlit (s : State) : State :=
  let s := s.pairsEnter.countWaits
  s.cel.resets.foldl State.queueReset { s with cel := { s.cel with resets := [] } }

end Sys2Proof.Machine
end

