-- ==== Sys2Proof/Machine/Gate.lean ====
section
/-! DEFINITION. The port gate: its seven checks and its charges on one request header (R173-R189). -/

namespace Sys2Proof.Machine

/-! ### Counts of a port -/

/-- R72: the tag is busy at the device for the port, through the whole frame of its response's transmission. -/
def State.tagBusy (s : State) (p tag : Nat) : Bool :=
  s.reqs.any (fun r => r.port == p && r.tag == tag) ||
  s.sentTags.any fun t => t.1 == p && t.2.1 == tag && t.2.2 == s.absFrame

/-- R189: the outstanding count; the gate sees the fall from the frame after the transmission. -/
def State.outstanding (s : State) (p : Nat) : Nat :=
  (s.reqs.filter fun r => r.port == p).length + (s.sentTags.filter fun t => t.1 == p && t.2.2 == s.absFrame).length

def State.outLimit (s : State) (p : Nat) : Nat := max 1 (min 512 (s.fv (F.PRT_LIMIT_limit p)))

/-! ### Activation budgets -/

/-- The penalty in force at the gate of a port for a bank of a tile (R187). -/
def State.penaltyAt (s : State) (p tile bank : Nat) : Option Penalty :=
  s.gate.penalties.find? fun x => x.port == p && x.tile == tile && x.bank == bank && decide (x.start ≤ s.epoch) &&
    (match x.until_ with | none => true | some e => decide (s.epoch < e))

/-- R186, R187: the activation budget of a port at a bank of the stack. -/
def State.actBudget (s : State) (p bank : Nat) : Nat :=
  let b := max 1 (s.fv (F.PRT_ACT_budget p))
  match s.penaltyAt p (bank / 32) (bank % 32) with
  | some x => max 1 (b >>> x.level)
  | none => b

/-- Charge the activations of a request's (bank, row) pairs: the new counts and the charges, or none when a touched bank
has no activation left. A bank whose last charged row is the request's row costs nothing. -/
def State.chargeActs (s : State) (p : Nat) : List (Nat × Nat) → GateSt → List Charge → Option (GateSt × List Charge)
  | [], g, cs => some (g, cs)
  | (bank, row) :: rest, g, cs =>
    let k := actKey p bank
    if natGet g.memo k = row + 1 then s.chargeActs p rest g cs
    else if natGet g.acts k < s.actBudget p bank then
      s.chargeActs p rest { g with acts := natAdd g.acts k 1, memo := natSet g.memo k (row + 1) }
        (cs ++ [.act p bank (natGet g.memo k)])
    else none

/-! ### Slot budgets -/

def State.budget (s : State) (x tile port : Nat) : Budget := Tab.get (fun _ => {}) s.gate.budget (slotKey x tile port)

/-- R163: the pause of the first two DETERMINISTIC epochs. -/
def State.detPause (s : State) : Bool :=
  s.mode == 2 && (match s.detFrom with | some e => decide (s.epoch < e + 2) | none => false)

/-- R177: the budget as it stands in this frame; the shared grant applies from frame 1 of epoch X - 4. -/
def State.slotLimit (s : State) (x tile port : Nat) : Nat :=
  let b := s.budget x tile port
  b.g + b.k + if 8 * (x - 4) < s.absFrame then b.s else 0

/-- The tiles at which a slot of a request does not fit (R174 check 6). -/
def State.slotsShort (s : State) (p : Nat) (slots : List Slot) : List Nat :=
  (((slots.zipIdx).filter fun a =>
    let x := s.epoch + a.1.after
    let before := natGet s.gate.used (slotKey x a.1.loc.ch p) +
      ((slots.take a.2).filter fun b => b.after == a.1.after && b.loc.ch == a.1.loc.ch).length
    s.detPause || decide (s.slotLimit x a.1.loc.ch p ≤ before)).map fun a => a.1.loc.ch).dedup

/-- What a slot is charged against: the guarantee first, then carry, then the shared grant. -/
def chargeKind (b : Budget) (before : Nat) : Nat := if before < b.g then 0 else if before < b.g + b.k then 1 else 2

/-- Charge one slot, and put its burst into the tile's plan. -/
def State.chargeSlot (s : State) (p tag : Nat) (a : Slot) : State × Charge :=
  let x := s.epoch + a.after
  let c := a.loc.ch
  let key := slotKey x c p
  let kind := chargeKind (s.budget x c p) (natGet s.gate.used key)
  let g := s.gate
  let s := { s with gate := { g with
    used := natAdd g.used key 1
    demand := if kind = 2 then natAdd g.demand (64 * c + p) 1 else g.demand } }
  (s.modTile c fun T => T.setBursts x (T.burstsAt x ++ [⟨p, s.absFrame, tag, a.loc.bank, a.loc.row, a.loc.col, false, decide (2 < a.after), 0⟩]),
    .slot x c p kind)

def State.chargeSlots (s : State) (p tag : Nat) : List Slot → List Charge → State × List Charge
  | [], cs => (s, cs)
  | a :: as, cs =>
    let (s, c) := s.chargeSlot p tag a
    State.chargeSlots s p tag as (cs ++ [c])

/-! ### Quotas -/

/-- The quota field of a port in a configuration: 0 hlk, 1 lpm, 2 enq, 3 deq. -/
def quotaFld (p : Nat) : Nat → Fld
  | 0 => F.PRT_QUOTA_hlk p
  | 1 => F.PRT_QUOTA_lpm p
  | 2 => F.PRT_QUOTA_enq p
  | _ => F.PRT_QUOTA_deq p

/-- R185, R190: the quota in force: a raised one waits for its boundary, and a pool cut scales it. -/
def State.quotaLimit (s : State) (p field : Nat) : Nat :=
  let new := s.fv (quotaFld p field)
  let old := natGet s.gate.quotaOld (quotaKey p field)
  let q := if s.epoch < s.gate.quotaFrom then min new (if old = 0 then new else old - 1) else new
  q * s.gate.quotaScale / 256

/-! ### The decision -/

/-- A header that will not reach the array charges only the outstanding count (R175). -/
def gateOnly (cfg : RegMap) (mode p : Nat) (h : Hdr) : Bool :=
  h.malformed || !opPermitted cfg mode p h.op h.flags || misaligned h.op h.flags h.addr h.operand ||
  dramHole h.op h.len h.flags h.addr

/-- The answer that the gate already knows (R67, R188). -/
def gateAnswer (cfg : RegMap) (mode p : Nat) (h : Hdr) : Option Answer :=
  if h.malformed then some { status := 8 }
  else if !opPermitted cfg mode p h.op h.flags then some { status := 9 }
  else none

/-- R97: what a TQUERY finds at its acceptance. -/
def State.tagNote (s : State) (p : Nat) (h : Hdr) : Nat :=
  if h.op = opTQUERY then
    let t := h.operand % 512
    (if s.tagBusy p t then 1 else 0) + (if s.reqs.any fun r => r.port == p && r.tag == t && r.answer.isSome then 2 else 0)
  else 0

/-- The request of an accepted header, with its charges. -/
def State.newReq (s : State) (l pos : Nat) (h : Hdr) (cs : List Charge) : Req where
  port := 4 * l + h.sub
  tag := h.tag
  op := h.op
  len := h.len
  flags := h.flags
  addr := h.addr
  operand := BitVec.ofNat 64 h.operand
  link := l
  pos := pos
  frame := s.absFrame
  cfg := s.active
  mode := s.mode
  charges := cs
  need := if opcodes.contains h.op then dataFlits h.op h.len h.flags else 0
  data := []
  ready := s.absFrame
  tentative := true
  discard := false
  beforeDown := false
  late := false
  note := s.tagNote (4 * l + h.sub) h
  walk := none
  waiting := false
  answer := gateAnswer s.active s.mode (4 * l + h.sub) h
  queued := false
  excess := 0
  lateTile := none
  unfixed := false
  plain := false
  clash := false
  buckets := []
  larQuad := none

/-- The outcome of the gate: the counter of the first failing check, with the tiles whose slots did not fit, or the
state with the charges made. -/
inductive GateResult where
  | defer (counter : Fld) (tiles : List Nat)
  | accept (s : State) (cs : List Charge)

/-- R174: the checks in their order. -/
def State.gateCheck (s : State) (l : Nat) (h : Hdr) : GateResult :=
  let p := 4 * l + h.sub
  if !s.memRights p then .defer (F.PRT_CNT_DEF_RIGHTS_count p) []
  else if s.tagBusy p h.tag then .defer (F.PRT_CNT_DEF_TAG_count p) []
  else if (s.link l).fenced.contains p then .defer (F.PRT_CNT_DEF_FENCE_count p) []
  else if s.outLimit p ≤ s.outstanding p then .defer (F.PRT_CNT_DEF_OUTST_count p) []
  else if gateOnly s.active s.mode p h then .accept s []
  else
    let slots := slotsOf s.active h.op h.len h.flags h.addr
    match s.chargeActs p (banksOf slots) s.gate [] with
    | none => .defer (F.PRT_CNT_DEF_ACT_count p) []
    | some (g, acts) =>
      let short := s.slotsShort p slots
      if !short.isEmpty then .defer (F.PRT_CNT_DEF_SLOT_count p) short
      else
        match quotaField h.op (lpmLevels s.active (h.operand % 16)) with
        | some f =>
          if s.detPause || decide (s.quotaLimit p f ≤ natGet s.gate.quota (quotaKey p f)) then
            .defer (F.PRT_CNT_DEF_QUOTA_count p) []
          else .accept { s with gate := { g with quota := natAdd g.quota (quotaKey p f) 1 } } (acts ++ [.quota f p])
        | none =>
          let (s, cs) := { s with gate := g }.chargeSlots p h.tag slots acts
          .accept s cs

/-- R174: the gate decides a header of a link, accepting it with its charges or deferring it. Its credit is owed back (R33). -/
def State.decideHeader (s : State) (n pos w : Nat) : State :=
  let h := Hdr.ofNat w
  let p := 4 * n + h.sub
  let s := s.modLink n fun L => { L with hdrs := L.hdrs.tail, credOwed := L.credOwed + 1 }
  match s.gateCheck n h with
  | .defer counter tiles =>
    let s := (s.inc counter).modLink n fun L =>
      { L with
        vec := L.vec ||| BitVec.ofNat 16 (1 <<< pos)
        fenced := if h.op == opFENCE then L.fenced ++ [p] else L.fenced }
    let slots := slotsOf s.active h.op h.len h.flags h.addr
    let g := s.gate
    let s := { s with gate := { g with demand := tiles.foldl (fun d t =>
      natAdd d (64 * t + p) (slots.filter fun (a : Slot) => a.loc.ch == t).length) g.demand } }
    s.when (decide (counter = F.PRT_CNT_DEF_TAG_count p)) fun s => s.raise (Src.port 1 (p / 16)) p
  | .accept s cs => { s with reqs := s.reqs ++ [s.newReq n pos h cs] }

/-- R174: the gate decides the first undecided header of a link. -/
def execRequestHeader (l : Link) (s : State) : Host.Outcome State Fault Refusal :=
  match (s.link l.val).hdrs with
  | [] => .next s
  | (pos, w) :: _ => if s.linkState l.val != lsOpen then .next s else .next (s.decideHeader l.val pos w)

/-! ### The end of a flit and of a frame -/

/-- R10: the headers of a frame that are still undecided are decided before the frame ends. -/
def State.decideAll (s : State) (n : Nat) : State :=
  if s.linkState n = lsOpen then (s.link n).hdrs.foldl (fun (s : State) h => s.decideHeader n h.1 h.2) s else s

/-- R10, R25: the frame of a link ends: every header of it is decided and its decision vector driven. -/
def State.closeFrame (s : State) (n : Nat) : State :=
  let s := s.decideAll n
  if s.drivesDecision n then s.driveDecision n else s

/-- R26: after flit 0, in flits 1-6, both decision lanes of a link are held at 0. -/
def State.lanesLow (s : State) (n : Nat) : State := s.modLink n fun L => { L with lanes := 0, complement := none }

/-- What a link does as a flit ends. -/
def State.endFlit (s : State) (n : Nat) : State :=
  if s.flit = 7 then s.closeFrame n else if s.flit = 0 then s.lanesLow n else s

/-- The flit that lasts ends on every link. -/
def State.flitEnds (s : State) : State := (List.range 16).foldl State.endFlit s

/-- The next flit begins on every link. -/
def State.flitBegins (s : State) : State := (List.range 16).foldl State.linkFlit s

end Sys2Proof.Machine
end

