-- ==== Sys2Proof/Machine/Access.lean ====
section
/-! DEFINITION. Register accesses on every path (R99-R106, R118, R133-R135): the result code of an access, what a read
returns, and what a write does beside storing its fields. -/

namespace Sys2Proof.Machine

/-! ### Result codes of R102 -/
def accOK : Nat := 0
def accDENIED : Nat := 1
def accNOTREADY : Nat := 2
def accNOREG : Nat := 3
def accBUSY : Nat := 4
def accLOCKED : Nat := 5
def accNOACCESS : Nat := 6

/-! ### Views -/

/-- R104: the view, and the 4-byte-aligned offset (R101). -/
def viewOf (a : Nat) : Nat := a / 2 ^ 22 % 4
def offsetOf (a : Nat) : Nat := a % 2 ^ 22 / 4 * 4

/-! ### Rights -/

/-- The block of a letterbox. -/
def inLb (n a : Nat) : Bool := decide (0x10000 + 0x400 * n ≤ a) && decide (a < 0x10400 + 0x400 * n)

/-- The letterbox whose block holds an offset. -/
def lbOf (a : Nat) : Option Nat := (List.range 6).find? fun n => inLb n a

/-- R126, R380, R428, R482: the sideband's access is not served, with its code; `none` when it is. -/
def State.sidebandGate (s : State) (a : Nat) : Option Nat :=
  if s.halted then
    let open_ := (0x2000 ≤ a && a < 0x3000) || (0x6000 ≤ a && a < 0x8000) || (0x1000 ≤ a && a < 0x2000 && !s.thermLow)
    if open_ then none else some accNOACCESS
  else if s.pwr.booted then none
  else if s.noImage && s.pushServed 4 && inLb 4 a then none
  else some accNOTREADY

/-- R99, R126, R188: an in-band path is open while its link is in the vestibule state or OPEN; its rights. -/
def State.inbandGate (s : State) (p a : Nat) : Option Nat :=
  if s.halted then some accNOACCESS
  else if !s.linkTalks (p / 4) then some accNOTREADY
  else if !s.portMgmt p then some accDENIED
  else match lbOf a with
    | some n => if n == p / 16 then none else some accDENIED
    | none => none

/-- R414, R479, R488: the rights of the test port: LB5 at every level, reads at D1 and writes at D2, with the Cornerstone
checked, and no grant above D0 in RETENTION. -/
def State.testGate (s : State) (a : Nat) (write : Bool) : Option Nat :=
  if s.halted then some accNOACCESS
  else if inLb 5 a && s.mode != 4 then none
  else if s.fb F.CST_STATUS_sensed && s.mode != 4 && decide ((if write then 2 else 1) ≤ s.level) then none
  else if a = R.PWR_WAKE && write && decide (2 ≤ s.level) then none
  else some accDENIED

/-- The path's code for an access, when it does not reach the register. Code 127 is the device itself (R510). -/
def State.pathGate (s : State) (path a : Nat) (write : Bool) : Option Nat :=
  if path < 64 then s.inbandGate path a
  else if path = 64 then s.sidebandGate a
  else if path = 65 then s.testGate a write
  else none

/-- R105, R459: a 1 is written to a GUARD field. -/
def RegHit.guarded (h : RegHit) (data : Word) : Bool := (h.row.maskOf .guarded &&& data) != 0

/-- R118: a write that only the owner may make. -/
def State.lbBusy (s : State) (path : Nat) (h : RegHit) : Bool :=
  (h.row.act == .mbxBuf || h.row.act == .mbxDoorbell || h.row.act == .mbxCtl) &&
  (match s.lbOwner h.inst with | some o => o != path | none => false)

/-- R111, R112: the path owns the open session, and it is not frozen. -/
def State.sessionOf (s : State) (path : Nat) : Bool :=
  match s.session with | some x => x.owner == path && x.commitAt.isNone | none => false

/-- R479, R487: what a write of SEC_DBGMEM_CTL.go needs. -/
def State.dbgmemDenied (s : State) (data : Word) : Bool :=
  data.field 0 1 == 1 &&
  (!s.fb F.SEC_GATE_dbgmem || (s.fb F.SEC_DBGMEM_ADDR_HI_raw && (!s.fb F.SEC_GATE_raw || (data.field 1 1 == 1 && s.mode != 5))))

/-- The code of a write that reaches its register. -/
def State.writeCode (s : State) (path view : Nat) (h : RegHit) (data : Word) : Nat :=
  if h.guarded data then accDENIED
  else if h.row.act = .secDbghalt ∧ !(path == 65 && s.fb F.SEC_GATE_halt) then accDENIED
  else if h.row.act = .secDbgmemCtl ∧ view = 0 ∧ s.dbgmemDenied data then accDENIED
  else if s.lbBusy path h then accBUSY
  else if h.cfgMask ≠ 0 ∧ !s.sessionOf path then accLOCKED
  else accOK

/-- R102, R103: the result code of an access at a 24-bit address; `late`: the crossing does not complete within its
bound. The order of the codes is DEDUCED (log 24). -/
def State.accessCode (s : State) (path addr : Nat) (write : Bool) (data : Word) (late : Bool) : Nat :=
  let a := offsetOf addr
  match s.pathGate path a write with
  | some c => c
  | none =>
    if 0x3F0000 ≤ a then
      if viewOf addr ≠ 0 then accNOREG else if s.domainDown a || late then accNOACCESS else accOK
    else match lookupReg a with
      | none => accNOREG
      | some h =>
        if s.domainDown a || late then accNOACCESS
        else if write then s.writeCode path (viewOf addr) h data else accOK

/-! ### Reads -/

/-- A temperature in the form of R366. -/
def tempBits (t : Int) : Nat := (t % 2 ^ 16).toNat

/-- The hottest governing temperature of the DRAM dies (R106). -/
def State.hottest (s : State) : Nat :=
  tempBits ((List.range 15).foldl (fun m k => max m (tempInt (s.fv (F.THM_UNIT_temp (k + 1))))) (tempInt (s.fv (F.THM_UNIT_temp 0))))

/-- R333: CFG_LEG_ECC_CNT. -/
def State.legEcc (s : State) : Nat :=
  min (2 ^ 32 - 1) (((List.range 32).map fun t => s.fv (F.ECC_CNT_CE_count t)).sum + ((List.range 4).map fun q => s.fv (F.ECC_CNT_LCE_count q)).sum)

/-- R132: the register is named *PREFIX*_CNT_*: a counter, or the clear register of a block's counters. -/
def Act.snapped : Act → Bool
  | .counter | .fltCntClr | .pwrCntClr | .clkCntClr | .secCntClr | .cstCntClr | .hkpCntClr | .thmCntClr | .bstCntClr | .celCntClr
  | .lnkCntClr | .prtCntClr | .larCntClr | .schCntClr | .engCntClr | .eccCntClr | .vrtCntClr => true
  | _ => false

/-- The snapshot counters of R132, ascending: the address of each and the bits of it that read. -/
def snapRegs : List (Nat × Word) :=
  (regBlocks.flatMap fun b => b.rows.flatMap fun r =>
    if r.act.snapped then (({ b with rows := [r] }.addrs fun _ => true).map fun (a : Nat × Nat) => (a.1, ~~~(r.maskOf .wo))) else []).mergeSort
      fun a b => decide (a.1 ≤ b.1)

/-- The legacy window (R106). -/
def State.legacy (s : State) (a : Nat) : Word :=
  BitVec.ofNat 32 (match a % 4096 with
    | 0x000 => 0x48089616
    | 0x004 => (if s.fb F.CFG_STATUS_committed then 1 else 0) + (if s.thermLow then 2 else 0) + (if s.notified then 4 else 0)
    | 0x010 => s.hottest
    | 0x020 => s.legEcc
    | _ => 0)

/-- The fields of a register as stored: the staged copy of its configuration, the live value of the rest; WO reads 0. -/
def State.stored (s : State) (h : RegHit) : Word :=
  ((s.staged.val h.addr &&& h.cfgMask) ||| (s.live.val h.addr &&& ~~~h.cfgMask)) &&& ~~~(h.row.maskOf .wo)

/-- R134: the register that CFG_PROBE_ADDR names. An address with view bits names none (log 91). -/
def State.probed (s : State) : Option RegHit := lookupReg (4 * s.fv F.CFG_PROBE_ADDR_addr)

/-- The value a read of a register returns. -/
def State.regValue (s : State) (h : RegHit) : Word :=
  let n := h.inst
  match h.row.act with
  | .lnkLaneErr => BitVec.ofNat 32 (natGet (s.link n).laneErr (s.fv (F.LNK_LANE_SEL_lane n)))
  | .fltStatus =>
    ((((s.stored h).setField 7 1 (if s.fatal then 1 else 0)).setField 4 1 (if s.anyContained then 1 else 0)).setField 0 3 s.highest)
  | .fltSumLo => BitVec.ofNat 32 s.summary
  | .fltSumHi => BitVec.ofNat 32 (s.summary >>> 32)
  | .fltDetStat =>
    let l := s.latch (s.fv F.FLT_DET_SEL_source)
    if l.severity = 0 then 0 else BitVec.ofNat 32 (2 ^ 31 + l.severity * 2 ^ 28 + l.count * 2 ^ 16 + l.info)
  | .fltDetFirst => BitVec.ofNat 32 (s.latch (s.fv F.FLT_DET_SEL_source)).first
  | .fltDetLast => BitVec.ofNat 32 (s.latch (s.fv F.FLT_DET_SEL_source)).last
  | .cfgProbeActive => (match s.probed with | some p => s.active.val p.addr &&& p.cfgMask | none => 0)
  | .cfgProbeMask => (match s.probed with | some p => p.cfgMask | none => 0)
  | .cfgSnapN => BitVec.ofNat 32 snapRegs.length
  | .prtStatus =>
    ((s.stored h).setField 0 10 (s.outstanding n)).setField 10 1
      (if (List.range 1024).any fun b => (s.penaltyAt n (b / 32) (b % 32)).isSome then 1 else 0)
  | .larScrMap =>
    let gs := scratchGranules s.active
    BitVec.ofNat 32 ((gs.filter fun g => g.1 == n).length + 16 * gs.length + 2 ^ 16 * (gs.filter fun g => decide (g.1 < n)).length)
  | .engEpochLo => BitVec.ofNat 32 s.epoch
  | .eccRemapData =>
    let m := s.spareAt n (s.fv (F.ECC_REMAP_SEL_bank n)) (s.fv (F.ECC_REMAP_SEL_entry n))
    BitVec.ofNat 32 ((if m.valid then 2 ^ 31 else 0) + (if m.bad then 2 ^ 30 else 0) + (if m.valid then m.row else 0))
  | .vrtLineErr => BitVec.ofNat 32 (natGet (s.riser n).counts (s.fv (F.VRT_LINE_SEL_line n)))
  | .bstHeldData =>
    (match s.bst.held[s.fv F.BST_HELD_SEL_index]? with
     | some (c, b, r) => BitVec.ofNat 32 (2 ^ 31 + c * 2 ^ 26 + b * 2 ^ 21 + r)
     | none => 0)
  | _ => s.stored h

/-- A read of the register at a 24-bit address, with the one side effect that a read has (R230). -/
def State.readReg (s : State) (addr : Nat) : Word × State :=
  let a := offsetOf addr
  if 0x3F0000 ≤ a then (s.legacy a, s)
  else match lookupReg a with
    | none => (0, s)
    | some h =>
      (s.regValue h, if h.row.act = .engEpochLo then s.setF (F.ENG_EPOCH_HI_epoch h.inst) (s.epoch / 2 ^ 32) else s)

/-! ### What a write does beside storing its fields -/

/-- R513: the link goes to DOWN at once, its decision history is discarded, and it trains after the back-off. -/
def State.resetLink (s : State) (n : Nat) : State :=
  ((s.linkDown n).modLink n fun L => { L with hist := [], frozen := none, frozenFrames := 0, backoff := true }).inc F.PWR_CNT_LRST_count

/-- R425: a release asked for takes effect at the next boundary; one that a pending containment meets is kept out (R433). -/
def State.askRelease (s : State) (u : CUnit) : State :=
  if s.isContained u && !s.flt.pendContain.contains u && !s.flt.pendRelease.contains u then
    { s with flt := { s.flt with pendRelease := s.flt.pendRelease ++ [u] } }
  else s

def State.askReleases (s : State) (data : Word) (unit : Nat → CUnit) : State :=
  (List.range 32).foldl (fun s i => if data.toNat.testBit i then s.askRelease (unit i) else s) s

/-- R433: a source raised in the cycle of a clear: the latch is set anew, and its event is sent unless it has been. -/
def State.raiseWins (s : State) (src : Nat) (l : Latch) (sent : Bool) : State :=
  let s := s.setLatch src l
  if sent then { s with flt := { s.flt with lastEvent := natSet s.flt.lastEvent src (s.epoch + 1) } }
  else s.when (s.fb F.FLT_CTL_event_en && decide (2 ≤ l.severity) && decide (l.severity ≤ 4)) fun s =>
    s.faultEvent src l.severity l (containUnit src l.info)

/-- R433, R434: latches of the sources that satisfy `p` are cleared, but a raise in the same cycle wins. -/
def State.clearLatches (s : State) (p : Nat → Bool) : State :=
  let x := s.flt.inCycle s.absFlit
  let s' := { s with flt := { x with latches := x.latches.filter fun e => !p e.1, lastEvent := x.lastEvent.filter fun e => !p e.1 } }
  (x.raised.filter fun e => p e.1).foldl (fun (s' : State) e => s'.raiseWins e.1 e.2 (natGet x.lastEvent e.1 == s.epoch + 1)) s'

/-- R434: a write of FLT_DET_CLR. -/
def State.detClear (s : State) (w : Word) : State :=
  if w.field 31 1 = 1 then s.clearLatches fun _ => true
  else if w.field 24 1 = 1 then s.clearLatches fun src => summaryBit src == w.field 16 6
  else s.clearLatches fun src => src == w.field 0 10

/-- R216: a consumer index above the producer's, or more than 2^k below it, is ignored. -/
def State.setConsumer (s : State) (w : Nat) : State :=
  let prod := s.fv F.ENG_RING_PROD_index
  let behind := (prod + 2 ^ 32 - w) % 2 ^ 32
  if behind ≤ 2 ^ (ringLog s.active) then
    (s.setF F.ENG_RING_CONS_index w).ringLevel
  else s

/-- R487: a codeword as it stands, undecoded. -/
def State.rawWord (s : State) (l : Bool) (a : Nat) : Codeword :=
  if l then
    let x := s.serving (scratchLine s.active a)
    s.larderGet x.q x.bank x.line (a / 8 % 8)
  else
    let loc := dramLoc s.active a
    match s.cached loc with
    | some (_, line) => line.words.getD (a / 8 % 8) 0
    | none =>
      match s.heldJob loc, s.copyOf loc.ch loc.bank (s.physRow loc.ch loc.bank loc.row) with
      | some j, _ => j.held.getD (a / 8 % 8) 0
      | none, some n => let x := s.serving (slotLine n loc.col); s.larderGet x.q x.bank x.line (a / 8 % 8)
      | none, none => s.dramGet (s.physWord loc (a / 8 % 8))

/-- Store a codeword as it stands. -/
def State.putRaw (s : State) (l : Bool) (a : Nat) (c : Codeword) : State :=
  if l then s.putLarder (scratchLine s.active a) (a / 8 % 8) c
  else
    let loc := dramLoc s.active a
    match s.cached loc with
    | some (k, line) => s.putLine k line (a / 8 % 8) c true
    | none => s.putDram loc (a / 8 % 8) c

/-- R487: one debug memory access. An address that holds no word: the spec states nothing; a write has no effect and a
read returns free values. -/
def State.dbgmem (s : State) : State :=
  let l := s.fb F.SEC_DBGMEM_ADDR_HI_l
  let a := 8 * s.fv F.SEC_DBGMEM_ADDR_LO_addr + 2 ^ 32 * s.fv F.SEC_DBGMEM_ADDR_HI_addr
  let raw := s.fb F.SEC_DBGMEM_ADDR_HI_raw
  let write := s.fb F.SEC_DBGMEM_CTL_write
  let hole := decide ((if l then scratchSize s.active else dramTop) < a + 8)
  let data := s.fv F.SEC_DBGMEM_DATA_LO_data + 2 ^ 32 * s.fv F.SEC_DBGMEM_DATA_HI_data
  let finish (s : State) (corr poison ue : Bool) : State :=
    ((((s.setF F.SEC_DBGMEM_CTL_corr (if corr then 1 else 0)).setF F.SEC_DBGMEM_CTL_poison (if poison then 1 else 0)).setF
      F.SEC_DBGMEM_CTL_uncorr (if ue then 1 else 0)).setF F.SEC_DBGMEM_CTL_done 1).setF F.SEC_DBGMEM_CTL_go 0
  if write then
    if hole then finish s false false false
    else if raw then finish (s.putRaw l a (BitVec.ofNat 80 (data + 2 ^ 64 * s.fv F.SEC_DBGMEM_CTL_upper))) false false false
    else
      finish (if l then s.writeScratch s.active a (BitVec.ofNat 64 data) false else s.writeMem s.active a (BitVec.ofNat 64 data) false)
        false false false
  else
    let (d, up, r, s) : Nat × Nat × WordRead × State :=
      if hole then
        let (v, s) := s.takeFree
        (v % 2 ^ 64, v / 2 ^ 64 % 2 ^ 16, ⟨0, v.testBit 80, v.testBit 81, v.testBit 82⟩, s)
      else if raw then
        let c := (s.rawWord l a).toNat
        (c % 2 ^ 64, c / 2 ^ 64, ⟨0, false, false, false⟩, s)
      else
        let (r, s) := if l then s.readScratch s.active a (unitCtx 0xFF false) else s.readMem s.active a (unitCtx 0xFF false)
        (r.data.toNat, s.fv F.SEC_DBGMEM_CTL_upper, r, s)
    let s := (s.setF F.SEC_DBGMEM_DATA_LO_data d).setF F.SEC_DBGMEM_DATA_HI_data (d / 2 ^ 32)
    finish (s.setF F.SEC_DBGMEM_CTL_upper up) r.corr r.poison r.ue

/-- R118: the first write claims an unowned letterbox. -/
def State.claim (s : State) (n path : Nat) : State :=
  if (s.lbOwner n).isSome then s else (s.setF (F.MBX_OWNER_owned n) 1).setF (F.MBX_OWNER_owner n) path

/-- The effect of a write of `data` through a view on a register whose fields have been stored. -/
def State.writeEffect (s : State) (path view : Nat) (h : RegHit) (data : Word) : State :=
  let n := h.inst
  let w := data.toNat
  let normal := view == 0
  match h.row.act with
  | .lnkCtl =>
    let s := if s.fb (F.LNK_CTL_retrain n) then (s.setF (F.LNK_CTL_retrain n) 0).retrainAny n else s
    if s.fb (F.LNK_CTL_hold_down n) && s.linkState n != lsDown then s.linkDown n else s
  | .lnkRepairReq =>
    -- a lane of 70-127 starts no exchange: go waits for a lane that there is (log 93)
    if s.fb (F.LNK_REPAIR_REQ_go n) && (s.freeSpare n (s.fb (F.LNK_REPAIR_REQ_dir n))).isNone then s.setF (F.LNK_REPAIR_REQ_go n) 0 else s
  | .lnkCntClr =>
    if normal then
      (s.clearCounters (R.LNK_CTL n + 0x40) 8 w).when (data.field 8 1 == 1) fun s => s.modLink n fun L => { L with laneErr := [] }
    else s
  | .lnkEvtLost => if normal then s.setF F.LNK_EVT_LOST_count 0 else s
  | .fltDetClr => if normal then s.detClear data else s
  | .fltContainLink => if normal then s.askReleases data fun i => .link i else s
  | .fltContainPortLo => if normal then s.askReleases data fun i => .port i else s
  | .fltContainPortHi => if normal then s.askReleases data fun i => .port (32 + i) else s
  | .fltContainTile => if normal then s.askReleases data fun i => .tile i else s
  | .fltContainMisc =>
    if normal then (s.askReleases (data &&& 0x3F) fun i => .letterbox i).when (data.field 8 1 == 1) fun s => s.askRelease .cellar else s
  | .fltCntClr => if normal then s.clearCounters 0x1080 3 w else s
  | .pwrWake =>
    if s.mode == 4 && s.pwr.drain.isSome then s
    else ((s.setF F.PWR_WAKE_wake 0).when (normal && data.field 0 1 == 1)) State.wake
  | .pwrLrst =>
    let s := s.setF F.PWR_LRST_link 0
    if normal then (List.range 16).foldl (fun s i => if w.testBit i then s.resetLink i else s) s else s
  | .pwrCntClr => if normal then s.clearCounters 0x2080 8 w else s
  | .clkCntClr => if normal then s.clearCounters 0x3040 2 w else s
  | .secDbgmemCtl => if normal && data.field 0 1 == 1 then s.dbgmem else s
  | .secCntClr => if normal then s.clearCounters 0x4100 5 w else s
  | .cstCntClr => if normal then s.clearCounters 0x5100 4 w else s
  | .hkpCntClr => if normal then s.clearCounters 0x6800 3 w else s
  | .thmCntClr => if normal then s.clearCounters 0x73C0 10 w else s
  | .bstCntClr => if normal then s.clearCounters 0x8080 6 w else s
  | .celQreset => if normal then s.askReset data else s
  | .celCntClr => if normal then s.clearCounters 0xA080 9 w else s
  | .mbxCtl =>
    if s.fb (F.MBX_CTL_abort n) then
      if (s.lb n).running.isNone then s.setF (F.MBX_CTL_abort n) 0 else s.endEarly n cplABORTED
    else s
  | .mbxDoorbell =>
    let s := s.claim n path
    (s.setF (F.MBX_DOORBELL_ring n) 0).when (normal && data.field 0 1 == 1) fun s => s.ring n
  | .mbxOwner =>
    let s := s.setF (F.MBX_OWNER_release n) 0
    if normal && data.field 8 1 == 1 && s.lbOwner n == some path then
      if (s.lb n).running.isSome then s.modLb n fun L => { L with releaseAtEnd := true } else s.releaseLb n
    else s
  | .mbxBuf => s.claim n path
  | .cfgSnap =>
    if normal && data.field 0 1 == 1 then
      { s.setF F.CFG_SNAP_done 0 with snapAt := s.snapAt.orElse fun _ => some s.absFlit }
    else s
  | .prtCntClr => if normal then s.clearCounters (R.PRT_CTL n + 0x80) 11 w else s
  | .larCntClr => if normal then s.clearCounters (R.LAR_CTL n + 0x40) 4 w else s
  | .larConfClr =>
    if normal then (List.range 48).foldl (fun s i => { s with live := s.live.put (R.LAR_CTL n + 0x100 + 4 * i) 0 }) s else s
  | .schPoolOver => if normal then s.setF (F.SCH_POOL_OVER_count n) 0 else s
  | .schCntClr => if normal then s.clearCounters (R.SCH_CTL n + 0x40) 8 w else s
  | .engCntClr => if normal then s.clearCounters (R.SCH_CTL n + 0x2040) 10 w else s
  | .engLkCntClr => if normal then s.clearCounters (R.SCH_CTL n + 0x2180) 12 w else s
  | .engRingConsWr => if normal then s.setConsumer w else s
  | .eccInjCtl =>
    if normal && data.field 0 1 == 1 then
      if s.mode = 5 then s.setF F.ECC_INJ_CTL_done 0 else s.setF F.ECC_INJ_CTL_arm 0
    else s
  | .eccCntClr => if normal then s.clearCounters (R.SCH_CTL n + 0x4080) 18 w else s
  | .vrtRepairReq => (s.setF (F.VRT_REPAIR_REQ_go n) 0).when (normal && data.field 8 1 == 1) fun s => s.startRepair n (data.field 0 8)
  | .vrtCntClr => if normal then s.clearCounters (R.SCH_CTL n + 0x6080) 7 w else s
  | _ => s

/-- The registers whose W1C bits ask for something later and stay until it happens (R425). -/
def Act.defersClear : Act → Bool
  | .fltContainLink | .fltContainPortLo | .fltContainPortHi | .fltContainTile | .fltContainMisc => true
  | _ => false

/-- R104, R105: the RW value that a write through a view leaves. -/
def viewWrite (view : Nat) (old data : Word) : Word :=
  match view with
  | 0 => data
  | 1 => old ||| data
  | 2 => old &&& ~~~data
  | _ => old ^^^ data

/-- R120: a letterbox buffer takes no write while its command runs; such a write of the owner ends OK (log 92). -/
def State.bufShut (s : State) (h : RegHit) : Bool := h.row.act == .mbxBuf && (s.lb h.inst).running.isSome

/-- Store the fields of a write: RW fields through any view, W1C, W1S and WO fields through the normal view only. -/
def State.storeFields (s : State) (view : Nat) (h : RegHit) (data : Word) : State :=
  let new := viewWrite view (s.stored h) data
  let rw := h.row.maskOf .rw &&& ~~~h.cfgMask
  let v := (s.live.val h.addr &&& ~~~rw) ||| (new &&& rw)
  let w1c := if h.row.act.defersClear then 0 else h.row.maskOf .w1c
  let wo := h.row.maskOf .wo
  let v := if view = 0 then (((v &&& ~~~(data &&& w1c)) ||| (data &&& h.row.maskOf .w1s)) &&& ~~~wo) ||| (data &&& wo) else v
  let staged := if h.cfgMask = 0 then s.staged
    else s.staged.put h.addr ((s.staged.val h.addr &&& ~~~h.cfgMask) ||| (new &&& h.cfgMask))
  { s with live := s.live.put h.addr v, staged := staged }

/-- R12: the write puts another value into a KEEP field than the field reads. -/
def State.keepBroken (s : State) (view : Nat) (h : RegHit) (data : Word) : Bool :=
  view == 0 && (h.row.keepMask &&& (data ^^^ s.stored h)) != 0

/-- A write that ends OK: the fields are stored and the register's effect follows. A buffer that is shut takes nothing;
parlour kicks from a path have no effect (R487). -/
def State.writeReg (s : State) (path addr : Nat) (data : Word) : State :=
  match lookupReg (offsetOf addr) with
  | none => s
  | some h =>
    if s.bufShut h || h.row.act == .secWdKick then s
    else
      let v := viewOf addr
      let old := s.stored h
      let s := s.storeFields v h data
      if h.row.act = .secDbghalt then
        -- a core whose bit falls from 1 to 0 restarts (R481)
        (List.range 4).foldl (fun s c => if old.toNat.testBit c && !(s.stored h).toNat.testBit c then s.restartCore c else s) s
      else s.writeEffect path v h data

/-! ### Whole accesses -/

/-- R135: what an access that did not end OK raises and counts. -/
def State.accessFault (s : State) (path addr code : Nat) : State :=
  if code = accDENIED then s.raise (Src.letterbox 5 (lbOfPath path)) 0
  else if code = accNOACCESS then s.raise (Src.letterbox 4 (lbOfPath path)) 0
  else if code = accBUSY then (match lbOf (offsetOf addr) with | some n => s.inc (F.MBX_CNT_BUSY_count n) | none => s)
  else s

/-- One read on a path: the result code, the data (0 when it is not OK) and the state after. -/
def State.doRead (s : State) (path addr : Nat) (late : Bool) : Nat × Word × State :=
  let c := s.accessCode path addr false 0 late
  if c = accOK then
    let (v, s) := s.readReg addr
    (c, v, s)
  else (c, 0, s.accessFault path addr c)

/-- One write on a path that breaks no KEEP field: the result code and the state after. -/
def State.doWrite (s : State) (path addr : Nat) (data : Word) (late : Bool) : Nat × State :=
  let c := s.accessCode path addr true data late
  if c = accOK then (c, s.writeReg path addr data) else (c, s.accessFault path addr c)

/-- R12: a write that ends OK breaks a KEEP field, and where. The legacy window has none (R106). -/
def State.keepFault (s : State) (path addr : Nat) (data : Word) (late : Bool) : Option Fault :=
  if s.accessCode path addr true data late = accOK ∧ offsetOf addr < 0x3F0000 then
    match lookupReg (offsetOf addr) with
    | some h => if s.keepBroken (viewOf addr) h data then some (.keepField (offsetOf addr)) else none
    | none => none
  else none

/-- A write by a command of the table, whose result code nobody takes. -/
def State.regCommand (s : State) (path addr : Nat) (data : Word) : Host.Outcome State Fault Refusal :=
  match s.keepFault path addr data false with
  | some f => .fault f
  | none => .next (s.doWrite path addr data false).2

end Sys2Proof.Machine
end

