-- ==== Sys2Proof/Machine/Flash.lean ====
section
/-! DEFINITION. The boot flash (R461, R462): bytes that read 0xFF when erased, sector erase, page program. -/

namespace Sys2Proof.Machine

/-- An erased byte. -/
def flashDefault : Nat → Byte := fun _ => 0xFF

def flashByte (m : List Host.Cell) (a : Nat) : Byte := Tab.get flashDefault m a

/-- `n` bytes at an address. -/
def flashBytes (m : List Host.Cell) (a n : Nat) : List Byte := (List.range n).map fun k => flashByte m (a + k)

/-- A little-endian number of `n` bytes. -/
def flashNum (m : List Host.Cell) (a n : Nat) : Nat := ofLeBytes (flashBytes m a n)

/-- Erase `n` bytes. -/
def flashErase (m : List Host.Cell) (a n : Nat) : List Host.Cell := m.filter fun e => decide (e.1 < a) || decide (a + n ≤ e.1)

/-- Program bytes into an erased area. -/
def flashPut (m : List Host.Cell) (a : Nat) (bs : List Byte) : List Host.Cell :=
  (bs.zipIdx).foldl (fun m b => Tab.set flashDefault m (a + b.2) b.1) m

/-! ### Boot records (R462) -/

/-- A boot record copy: its sequence number, primary slot and trial slot, when it is valid. -/
def bootCopy (m : List Host.Cell) (k : Nat) : Option (Nat × Nat × Nat) :=
  let a := 0x1000 * k
  if flashNum m a 4 = 0x96164252 ∧ flashNum m (a + 12) 4 = crc32c (flashBytes m a 12) then
    some (flashNum m (a + 4) 4, flashNum m (a + 8) 1, flashNum m (a + 9) 1)
  else none

/-- The copy that rules, with its sequence number, primary and trial; slot 0 and no trial when neither is valid. -/
def bootRecord (m : List Host.Cell) : Nat × Nat × Nat × Nat :=
  match bootCopy m 0, bootCopy m 1 with
  | some a, some b => if a.1 < b.1 then (1, b) else (0, a)
  | some a, none => (0, a)
  | none, some b => (1, b)
  | none, none => (1, 0, 0, 0xFF)

/-- A new record goes to the copy that does not rule, with seq + 1. -/
def putBootRecord (m : List Host.Cell) (primary trial : Nat) : List Host.Cell :=
  let (k, seq, _, _) := bootRecord m
  let a := 0x1000 * (1 - k)
  let body := leBytes 4 0x96164252 ++ leBytes 4 (seq + 1) ++ leBytes 1 primary ++ leBytes 1 trial ++ leBytes 2 0
  flashPut (flashErase m a 0x1000) a (body ++ leBytes 4 (crc32c body))

end Sys2Proof.Machine
end

