-- ==== Sys2Proof/Machine/Admission.lean ====
section
/-! DEFINITION. Admission: the capacity figures of R146, plans and the check of R192, the plan image of R194, the
structural checks that every commit makes (R165, R182, R207, R214, R233, R244, R259, R290, R299), and the CRC of a
configuration domain (R109, R110). -/

namespace Sys2Proof.Machine

/-! ### Domains and their CRCs -/

/-- R109: the configuration domain of the register at an address. -/
def domainOf (a : Nat) : Nat :=
  if 0x100000 ≤ a ∧ a < 0x200000 then (a - 0x100000) / 0x8000
  else if 0x380000 ≤ a ∧ a < 0x3C0000 then
    let d := (a - 0x380000) / 0x4000
    let k := (a - 0x380000) % 0x4000 / 0x400
    if k < 2 then 2 * d + k else 36
  else if 0x30000 ≤ a ∧ a < 0x34000 then 32 + (a - 0x30000) / 0x1000
  else if 0x40000 ≤ a ∧ a < 0x44000 then 32 + (a - 0x40000) / 0x1000
  else 36

/-- The addresses of the registers that hold configuration, ascending (log 25: those with a configuration mask). -/
def cfgRegs : List Nat :=
  sortAddrs ((regBlocks.filter (·.staged)).flatMap fun b => (b.addrs fun r => decide (r.maskOf .rw ≠ 0)).map (·.1))

/-- The configuration mask of the register at an address. -/
def cfgMaskAt (a : Nat) : Word := match lookupReg a with | some h => h.cfgMask | none => 0

/-- R110: the CRC of a domain in one copy of the configuration. -/
def domainCrc (m : RegMap) (d : Nat) : Word :=
  BitVec.ofNat 32 (crc32c ((cfgRegs.filter fun a => domainOf a == d).flatMap fun a =>
    leBytes 4 a ++ leBytes 4 (m.val a &&& cfgMaskAt a).toNat))

/-- The 37 CRCs, domain 0 first. -/
def domainCrcs (m : RegMap) : List Word := (List.range 37).map (domainCrc m)

/-! ### Capacity (R146) -/

/-- SCH_CTL.maint_mm as it acts. -/
def maintMm (cfg : RegMap) (c : Nat) : Nat := max 2 (min 16 (cfg.fv (F.SCH_CTL_maint_mm c)))

/-- R146: the guaranteeable figure of a channel in a mode; `hot` and `relaxed` are the die's refresh state. -/
def guaranteeable (cfg : RegMap) (mode c : Nat) (hot relaxed : Bool) : Nat :=
  match mode with
  | 0 | 1 => if hot then 52 else 56
  | 2 => 48
  | 3 => if hot then 20 else if relaxed then 26 else 24
  | 5 => 64 - (if hot then 8 else 4) - maintMm cfg c - 2
  | _ => 0

/-! ### Plans -/

/-- A port's part of a plan. -/
structure PlanPort where
  enable : Bool
  rt : Bool
  mgmt : Bool
  weight : Nat
  limit : Nat
  budget : Nat
  ops : Nat
  /-- Guarantees by channel. -/
  g : List Nat
  /-- hlk, lpm, enq, deq. -/
  quotas : List Nat
deriving DecidableEq, Repr

/-- A plan: its ports, reserves, and the oversubscription flag. -/
structure Plan where
  ports : List PlanPort
  lookup : Nat
  walk : Nat
  cel : Nat
  oversub : Bool
deriving DecidableEq, Repr

/-- R197: a port's guarantee at a channel as it acts. -/
def guar (cfg : RegMap) (p c : Nat) : Nat := min 56 ((cfg.val (R.PRT_GUAR p (c / 4))).field (8 * (c % 4)) 8)

/-- PRT_LIMIT as it acts. -/
def limitOf (cfg : RegMap) (p : Nat) : Nat := max 1 (min 512 (cfg.fv (F.PRT_LIMIT_limit p)))

/-- The reserves as they act (R198). -/
def reserveOf (cfg : RegMap) (t : Nat) : Nat × Nat × Nat :=
  (min 56 (cfg.fv (F.SCH_POOL_lookup t)), min 56 (cfg.fv (F.SCH_POOL_walk t)), min 56 (cfg.fv (F.SCH_POOL_cel t)))

/-- A register configuration as a plan, at the values its fields act as. -/
def planOf (cfg : RegMap) : Plan :=
  let (l, w, c) := reserveOf cfg 0
  { ports := (List.range 64).map fun p =>
      { enable := cfg.fv (F.PRT_CTL_enable p) != 0
        rt := cfg.fv (F.PRT_CTL_rt p) != 0
        mgmt := cfg.fv (F.PRT_CTL_mgmt p) != 0
        weight := cfg.fv (F.PRT_CTL_weight p) + 1
        limit := limitOf cfg p
        budget := max 1 (cfg.fv (F.PRT_ACT_budget p))
        ops := cfg.fv (F.PRT_OPS_ops p)
        g := (List.range 32).map (guar cfg p)
        quotas := [cfg.fv (F.PRT_QUOTA_hlk p), cfg.fv (F.PRT_QUOTA_lpm p), cfg.fv (F.PRT_QUOTA_enq p), cfg.fv (F.PRT_QUOTA_deq p)] }
    lookup := l
    walk := w
    cel := c
    oversub := cfg.fv (F.SCH_POOL_oversub_ok 0) != 0 }

/-- R188: the port counts in a mode. -/
def PlanPort.counts (x : PlanPort) (p mode : Nat) : Bool :=
  x.enable && (match mode with | 0 | 1 | 2 => true | 3 => p / 4 % 2 == 0 | 5 => x.mgmt | _ => false)

/-- The ports of a plan that have memory rights in a mode. -/
def Plan.inMode (x : Plan) (mode : Nat) : List PlanPort := ((x.ports.zipIdx).filter fun q => q.1.counts q.2 mode).map (·.1)

/-- The sum of a quota over ports. -/
def quotaSum (ps : List PlanPort) (k : Nat) : Nat := (ps.map fun q => q.quotas.getD k 0).sum

/-- R183: what each pool needs and holds in a mode, (need, limit): LOOKUP, WALK, CELLAR. -/
def Plan.pools (x : Plan) (mode d : Nat) : List (Nat × Nat) :=
  let ps := x.inMode mode
  let hlk := quotaSum ps 0
  let lpm := quotaSum ps 1
  let cel := quotaSum ps 2 + quotaSum ps 3
  if mode = 2 then [(hlk, x.lookup), (d * lpm, x.walk), (2 * cel, x.cel)]
  else [(2 * hlk, 32 * x.lookup), (d * lpm, 32 * x.walk), (5 * cel, 32 * x.cel)]

/-- R194: with automatic reserves each is the least whole value that meets its condition. -/
def Plan.autoReserves (x : Plan) (mode d : Nat) : Plan :=
  let need := (x.pools mode d).map (·.1)
  let least (n : Nat) : Nat := if mode = 2 then n else (n + 31) / 32
  { x with lookup := least (need.getD 0 0), walk := least (need.getD 1 0), cel := least (need.getD 2 0) }

/-- One failure of a check: its code, the channel or port, the need and the capacity or limit. -/
structure Failure where
  code : Nat
  unit : Nat
  need : Nat
  limit : Nat
deriving DecidableEq, Repr

/-- The failures of checks 0x03 to 0x08 of R192, in order. `cfg` gives maint_mm and the prefix tables. -/
def Plan.failures (x : Plan) (cfg : RegMap) (mode : Nat) : List Failure :=
  let ps := x.inMode mode
  let d := dMax cfg
  let pools := x.pools mode d
  let limits := (ps.map (·.limit)).sum
  ((List.range 32).filterMap fun c =>
    let need := x.lookup + x.walk + x.cel + (ps.map fun q => q.g.getD c 0).sum
    let cap := guaranteeable cfg mode c false false
    if cap < need then some ⟨3, c, need, cap⟩ else none) ++
  ((List.range 3).filterMap fun k =>
    let (need, lim) := pools.getD k (0, 0)
    if lim < need then some ⟨4 + k, 0xFF, need, lim⟩ else none) ++
  (if 16384 < limits then [⟨7, 0xFF, limits, 16384⟩] else []) ++
  (if mode = 2 ∧ 6 < d then [⟨8, 0xFF, d, 6⟩] else [])

/-- The verdict of R192. -/
def verdict (oversub : Bool) (fs : List Failure) : Nat :=
  if fs.isEmpty then 0 else if oversub && fs.all (·.code == 3) then 1 else 2

/-- R192 for a register configuration. -/
def configVerdict (cfg : RegMap) (mode : Nat) : Nat := verdict (planOf cfg).oversub ((planOf cfg).failures cfg mode)

/-- The 8 result bytes of PLAN.CHECK (R195). -/
def checkBytes (oversub : Bool) (fs : List Failure) : List Byte :=
  let f := fs.headD ⟨0, 0xFF, 0, 0⟩
  leBytes 1 (verdict oversub fs) ++ leBytes 1 (min 255 fs.length) ++ leBytes 1 f.code ++ leBytes 1 f.unit ++
    leBytes 2 (min 0xFFFF f.need) ++ leBytes 2 (min 0xFFFF f.limit)

/-! ### The plan image (R194) -/

/-- A number of a byte list, least significant byte first. -/
def byteNum (b : List Byte) (off len : Nat) : Nat := ofLeBytes ((b.drop off).take len)

/-- R176: the basic spread of G slots over the channels. -/
def spread (g p c : Nat) : Nat := if (c + 32 - p % 32) % 32 < g % 32 then g / 32 + 1 else g / 32

def imageMatrix (b : List Byte) : Bool := (byteNum b 6 1).testBit 1
def imageAuto (b : List Byte) : Bool := (byteNum b 6 1).testBit 2

/-- The bytes of an image that R194 reserves. -/
def imageReserved : List Nat :=
  [7] ++ (List.range 3).map (13 + ·) ++ (List.range 44).map (20 + ·) ++
    (List.range 64).flatMap fun p => (List.range 3).map fun k => 64 + 16 * p + 13 + k

/-- Check 0x01 of R192. -/
def imageFormat (b : List Byte) : List Failure :=
  let size := if imageMatrix b then 3140 else 1092
  let bad (c : Bool) : List Failure := if c then [⟨1, 0xFF, 0, 0⟩] else []
  bad (byteNum b 0 4 != 0x9616504C) ++ bad (byteNum b 4 1 != 1) ++ bad (byteNum b 8 2 != size || b.length != size) ++
  bad (byteNum b (b.length - 4) 4 != crc32c (b.take (b.length - 4))) ++
  imageReserved.flatMap fun k => bad (byteNum b k 1 != 0)

/-- Check 0x02 of R192: (port or 0xFF, value, least, greatest) of every field of an image with a range. -/
def imageRanges (b : List Byte) : List (Nat × Nat × Nat × Nat) :=
  [(0xFF, byteNum b 5 1, 0, 5), (0xFF, byteNum b 6 1, 0, 7)] ++
  (if imageAuto b then [] else (List.range 3).map fun k => (0xFF, byteNum b (10 + k) 1, 0, 56)) ++
  (List.range 64).flatMap fun p =>
    let o := 64 + 16 * p
    [(p, byteNum b o 1, 0, 7), (p, byteNum b (o + 1) 1, 1, 16), (p, byteNum b (o + 2) 2, 1, 512)] ++
    (if imageMatrix b then (List.range 32).map fun c => (p, byteNum b (1088 + 32 * p + c) 1, 0, 56)
     else [(p, byteNum b (o + 4) 2, 0, 1792)]) ++
    [(p, byteNum b (o + 6) 1, 1, 255), (p, byteNum b (o + 7) 2, 0, 0x1FF)]

def imageRange (b : List Byte) : List Failure :=
  (imageRanges b).filterMap fun (p, v, lo, hi) =>
    if v < lo then some ⟨2, p, v, lo⟩ else if hi < v then some ⟨2, p, v, hi⟩ else none

/-- The plan of an image. -/
def imagePlan (b : List Byte) : Plan where
  ports := (List.range 64).map fun p =>
    let o := 64 + 16 * p
    let f := byteNum b o 1
    { enable := f.testBit 0
      rt := f.testBit 1
      mgmt := f.testBit 2
      weight := byteNum b (o + 1) 1
      limit := byteNum b (o + 2) 2
      budget := byteNum b (o + 6) 1
      ops := byteNum b (o + 7) 2
      g := (List.range 32).map fun c => if imageMatrix b then byteNum b (1088 + 32 * p + c) 1 else spread (byteNum b (o + 4) 2) p c
      quotas := (List.range 4).map fun k => byteNum b (o + 9 + k) 1 }
  lookup := byteNum b 10 1
  walk := byteNum b 11 1
  cel := byteNum b 12 1
  oversub := (byteNum b 6 1).testBit 0

/-- The plan of an image for a mode, its automatic reserves set. -/
def planFor (b : List Byte) (cfg : RegMap) (mode : Nat) : Plan :=
  if imageAuto b then (imagePlan b).autoReserves mode (dMax cfg) else imagePlan b

/-- R192 for an image: a wrong format is all that is reported of it (log 26). -/
def imageFailures (b : List Byte) (cfg : RegMap) (mode : Nat) : List Failure :=
  let fmt := imageFormat b
  if fmt.isEmpty then imageRange b ++ (planFor b cfg mode).failures cfg mode else fmt

/-- The record of a port: bytes 0 to 15 (R194). -/
def portRecord (x : PlanPort) : List Byte :=
  leBytes 1 ((if x.enable then 1 else 0) + (if x.rt then 2 else 0) + (if x.mgmt then 4 else 0)) ++ leBytes 1 x.weight ++ leBytes 2 x.limit ++
    leBytes 2 x.g.sum ++ leBytes 1 x.budget ++ leBytes 2 x.ops ++ x.quotas.flatMap (leBytes 1) ++ leBytes 3 0

/-- R195, PLAN.GET: a configuration as an image with the matrix and explicit reserves. -/
def planImage (cfg : RegMap) (mode planId : Nat) : List Byte :=
  let x := planOf cfg
  let body := leBytes 4 0x9616504C ++ leBytes 1 1 ++ leBytes 1 mode ++ leBytes 1 (2 + if x.oversub then 1 else 0) ++ leBytes 1 0 ++
    leBytes 2 3140 ++ leBytes 1 x.lookup ++ leBytes 1 x.walk ++ leBytes 1 x.cel ++ leBytes 3 0 ++ leBytes 4 planId ++ leBytes 44 0 ++
    x.ports.flatMap portRecord ++ x.ports.flatMap fun q => q.g.flatMap (leBytes 1)
  body ++ leBytes 4 (crc32c body)

/-! ### Writing a plan into the staged registers -/

/-- One port of a plan into the staged registers (R196). -/
def State.stagePort (s : State) (p : Nat) (x : PlanPort) : State :=
  let b (c : Bool) : Nat := if c then 1 else 0
  let s := (((s.setStagedF (F.PRT_CTL_enable p) (b x.enable)).setStagedF (F.PRT_CTL_rt p) (b x.rt)).setStagedF (F.PRT_CTL_mgmt p)
    (b x.mgmt)).setStagedF (F.PRT_CTL_weight p) (x.weight - 1)
  let s := ((s.setStagedF (F.PRT_LIMIT_limit p) x.limit).setStagedF (F.PRT_ACT_budget p) x.budget).setStagedF (F.PRT_OPS_ops p) x.ops
  let s := (List.range 4).foldl (fun (s : State) k => s.setStagedF (quotaFld p k) (x.quotas.getD k 0)) s
  (List.range 8).foldl (fun (s : State) i =>
    let w := (List.range 4).foldl (fun w k => w + x.g.getD (4 * i + k) 0 % 256 * 2 ^ (8 * k)) 0
    { s with staged := s.staged.put (R.PRT_GUAR p i) (BitVec.ofNat 32 w) }) s

/-- R196 step 2: a plan into the staged registers of every port and of SCH_POOL. -/
def State.stagePlan (s : State) (x : Plan) : State :=
  let s := (x.ports.zipIdx).foldl (fun (s : State) q => s.stagePort q.2 q.1) s
  (List.range 32).foldl (fun (s : State) t =>
    (((s.setStagedF (F.SCH_POOL_lookup t) (min 255 x.lookup)).setStagedF (F.SCH_POOL_walk t) (min 255 x.walk)).setStagedF (F.SCH_POOL_cel t)
      (min 255 x.cel)).setStagedF (F.SCH_POOL_oversub_ok t) (if x.oversub then 1 else 0)) s

/-! ### The structural checks of a commit -/

/-- A register reads alike in tiles 0-31. -/
def tilesAlike (cfg : RegMap) (r : Nat → Nat) : Bool := (List.range 32).all fun t => cfg.val (r t) == cfg.val (r 0)

/-- Two ranges, (base, size), meet. -/
def meets (a b : Nat × Nat) : Bool := decide (a.1 < b.1 + b.2) && decide (b.1 < a.1 + a.2) && a.2 != 0 && b.2 != 0

/-- Some two of a list of ranges meet. -/
def anyMeet : List (Nat × Nat) → Bool
  | [] => false
  | a :: as => as.any (meets a) || anyMeet as

/-- Some part of a DRAM range lies in a zone that is not FINE; a range above 96 GiB is refused elsewhere. -/
def notFine (cfg : RegMap) (a : Nat × Nat) : Bool :=
  a.2 != 0 && (List.range 24).any fun z => decide (a.1 < 2 ^ 32 * (z + 1)) && decide (2 ^ 32 * z < a.1 + a.2) && cfg.fv (F.MAP_ZONE_order z) != 0

/-- A DRAM range extends to or above 96 GiB. -/
def aboveTop (a : Nat × Nat) : Bool := a.2 != 0 && decide (dramTop < a.1 + a.2)

/-- R207. -/
def regionsOk (cfg : RegMap) : Bool :=
  let rs := (List.range 16).map (region cfg)
  let of (l : Bool) : List (Nat × Nat) := (rs.filter fun r => r.inLarder == l).map fun r => (r.base, r.size)
  ((List.range 16).all fun i => tilesAlike cfg (fun t => R.ENG_REG_BASE t i) && tilesAlike cfg (fun t => R.ENG_REG_SIZE t i)) &&
  ((List.range 64).all fun i =>
    tilesAlike cfg (fun t => R.ENG_POLPROF_CTL t i) && tilesAlike cfg (fun t => R.ENG_POLPROF_CIR t i) &&
    tilesAlike cfg (fun t => R.ENG_POLPROF_PIR t i) && tilesAlike cfg (fun t => R.ENG_POLPROF_CBS t i) &&
    tilesAlike cfg (fun t => R.ENG_POLPROF_EBS t i)) &&
  !anyMeet (of false) && !anyMeet (of true) && !((of false).any aboveTop) &&
  !(rs.any fun r => r.kind == 2 && r.inLarder && r.size != 0)

/-- The spill ring's memory (R214). -/
def ringArea (cfg : RegMap) : Nat × Nat :=
  (64 * cfg.fv F.ENG_RING_BASE_LO_base + 2 ^ 32 * cfg.fv F.ENG_RING_BASE_HI_base,
    16 * 2 ^ (max 10 (min 24 (cfg.fv F.ENG_RING_CTL_log2size))))

/-- The memory of every enabled hash table. -/
def hashAreas (cfg : RegMap) : List (Nat × Nat) :=
  (List.range 64).filterMap fun n => let h := hashTab cfg n; if h.enable then some (h.base, h.size) else none

/-- The table is enabled in some tile; its registers must then agree in all. -/
def anyTileEnables (cfg : RegMap) (f : Nat → Fld) : Bool := (List.range 32).any fun t => cfg.fv (f t) != 0

/-- R233. -/
def hashOk (cfg : RegMap) : Bool :=
  ((List.range 64).all fun n =>
    if anyTileEnables cfg (fun t => F.ENG_HT_CTL_enable t n) then
      let h := hashTab cfg n
      tilesAlike cfg (fun t => R.ENG_HT_CTL t n) && tilesAlike cfg (fun t => R.ENG_HT_BASE t n) &&
      tilesAlike cfg (fun t => R.ENG_HT_SEED1 t n) && tilesAlike cfg (fun t => R.ENG_HT_SEED2 t n) &&
      !aboveTop (h.base, h.size) && !notFine cfg (h.base, h.size) && decide (h.keylen < h.esize)
    else true) && !anyMeet (hashAreas cfg)

/-- R244. -/
def triesOk (cfg : RegMap) (mode : Nat) : Bool :=
  (List.range 16).all fun n =>
    if anyTileEnables cfg (fun t => F.ENG_TRIE_CTL_enable t n) then
      let t := trieTab cfg n
      tilesAlike cfg (fun k => R.ENG_TRIE_CTL k n) && tilesAlike cfg (fun k => R.ENG_TRIE_DFLT k n) &&
      ((List.range 8).all fun i => tilesAlike cfg (fun k => R.ENG_TRIE_LVLA k n i) && tilesAlike cfg (fun k => R.ENG_TRIE_LVLB k n i)) &&
      decide ((t.levels.map (·.stride)).sum ≤ if t.v6 then 128 else 32) &&
      decide (t.nlar ≤ t.levels.length) && !(decide (1 ≤ t.dram) && decide (3 < t.nlar)) && !(mode == 2 && decide (6 < t.dram))
    else true

/-- R259. A region of size 0 leaves the Cellar without areas (R284). -/
def cellarOk (cfg : RegMap) : Bool :=
  if cfg.fv F.CEL_CTL_enable = 0 then true
  else
    let s := min 65536 (cfg.fv F.CEL_CELL_SIZE_size)
    let cells := (2 ^ 20 * cfg.fv F.CEL_CELL_BASE_base, 2 ^ 20 * s)
    let lists := (2 ^ 20 * cfg.fv F.CEL_LINK_BASE_base, 3 * 2 ^ 13 * s)
    let regions := (((List.range 16).map (region cfg)).filter fun r => r.kind != 0 && !r.inLarder).map fun r => (r.base, r.size)
    let others := regions ++ (if cfg.fv F.ENG_RING_CTL_enable = 0 then [] else [ringArea cfg]) ++ hashAreas cfg
    let queues := 4096 * max 1 (min 64 (cfg.fv F.CEL_QUEUES_qk))
    [cells, lists].all (fun a => !aboveTop a && !notFine cfg a && !others.any (meets a)) && !meets cells lists &&
    (List.range 4).all fun q => decide (4 * queues ≤ 2 ^ 20 * granules cfg q 3)

/-- The granules of a quadrant that hold a kind. -/
def granuleSet (cfg : RegMap) (q kind : Nat) : List Nat := (List.range 16).filter fun g => granule cfg q g == kind

/-- R290 and R299, against the active configuration and the shadow slots that hold a borrowing. -/
def larderOk (old new : RegMap) (slots : Tab Nat) : Bool :=
  ((List.range 4).all fun q =>
    ((List.range 15).all fun g => decide (granuleField new q (g + 1) ≤ 5)) &&
    (granuleSet new q 2 == granuleSet old q 2 || (List.range 8).all fun k => old.fv (F.ENG_CTL_cache_en (8 * q + k)) == 0) &&
    (old.fv F.CEL_CTL_enable == 0 || (granuleSet new q 3 == granuleSet old q 3 && granuleSet new q 4 == granuleSet old q 4)) &&
    (old.fv (F.LAR_SPARE_perm q) == 0 ||
      (new.fv (F.LAR_SPARE_perm q) != 0 && new.fv (F.LAR_SPARE_bank q) == old.fv (F.LAR_SPARE_bank q)))) &&
  decide (2 ≤ ((List.range 4).map fun q => granules new q 5).sum) &&
  slots.all fun e => granule new (e.1 / 496 / 16) (e.1 / 496 % 16) == 5

/-- Every check that a commit makes beside the admission check and the comparison. -/
def commitOk (old new : RegMap) (mode : Nat) (slots : Tab Nat) : Bool :=
  tilesAlike new R.SCH_DET && tilesAlike new R.SCH_POOL && regionsOk new && !aboveTop (ringArea new) && hashOk new && triesOk new mode &&
  cellarOk new && larderOk old new slots

end Sys2Proof.Machine
end

