-- ==== Sys2Proof/Machine/Figures.lean ====
section
/-! DEFINITION. The figures that every tile fixes at an epoch boundary for the execution epoch four later (R148, R177):
its capacity (R146, R376, R494, R527), its reserves (R185), what is honoured of the guarantees (R190), the carries (R178)
and the shared grants (R180). -/

namespace Sys2Proof.Machine

/-! ### Capacity -/

/-- The throttle level of a unit: 0 with throttling disabled (R376). -/
def State.throttleOf (s : State) (u : Nat) : Nat := if s.fb F.THM_CTL_throttle_en then s.fv (F.THM_UNIT_throttle u) else 0

/-- R376: the fraction in 256ths that a throttle level leaves. -/
def State.throttleCap (s : State) (level : Nat) : Nat :=
  match level with
  | 0 => 256
  | 1 => max 1 (s.fv F.THM_THROT_cap1)
  | _ => max 1 (s.fv F.THM_THROT_cap2)

/-- R494: the governor's fraction in 256ths. -/
def State.governorCap (s : State) : Nat := if s.fb F.PWR_STATUS_gov_active then max 128 (s.fv F.PWR_CAP_cut) else 256

/-- R153, R154: the refresh state of the die of a tile. -/
def State.dieHot (s : State) (t : Nat) : Bool := s.fb (F.THM_UNIT_hot (t / 2))
def State.dieRelaxed (s : State) (t : Nat) : Bool := s.mode == 3 && s.fb (F.THM_UNIT_relax_ok (t / 2)) && !s.dieHot t

/-- R146: the guaranteeable figure of a tile in the mode and die state. -/
def State.fullCap (s : State) (t : Nat) : Nat := guaranteeable s.active s.mode t (s.dieHot t) (s.dieRelaxed t)

/-- The capacity that throttling leaves a tile (R376): the lowest over the units that govern it. -/
def State.throttledCap (s : State) (t : Nat) : Nat :=
  ([t / 2, 16 + t / 8, 20 + t / 8].map fun u => s.fullCap t * s.throttleCap (s.throttleOf u) / 256).foldl min (s.fullCap t)

/-- The capacity that a tile aims at: throttled, governed, less its held bursts (R140). -/
def State.aimCap (s : State) (t : Nat) : Nat :=
  min (s.throttledCap t) (s.fullCap t * s.governorCap / 256) - (s.tile t).held.length

/-- R496, R527: this boundary enters or leaves COOL, where the change of slot length is not spread. -/
def State.coolEdge (s : State) : Bool :=
  match s.pwr.later with
  | some (b, new, old) => b == s.epoch + 4 && (new == 3) != (old == 3)
  | none => false

/-- R527: the capacity moves by at most 16 slots at a boundary. -/
def stepCap (old aim : Nat) : Nat := if old + 16 < aim then old + 16 else if aim + 16 < old then old - 16 else aim

/-- The figures of the plan four epochs on (R146, R148). -/
def State.figsFor (s : State) (t : Nat) : Figs :=
  let hot := s.dieHot t
  let relaxed := s.dieRelaxed t
  { slots := if s.mode = 3 then 32 else if s.mode = 4 then 0 else 64
    refresh := if s.mode = 4 then 0 else if s.mode = 2 ∨ hot then 8 else if relaxed then 2 else 4
    maint := if s.mode = 4 then 0 else if s.mode = 5 then maintMm s.active t else min 2 (s.fv (F.SCH_CTL_maint t))
    margin := if s.mode = 2 then 4 else 0
    idle := s.fullCap t - s.throttledCap t
    hot := hot, relaxed := relaxed, det := s.mode == 2 }

/-! ### Guarantees (R190) -/

/-- The ports with memory rights, ascending. -/
def State.rightful (s : State) : List Nat := (List.range 64).filter s.memRights

def State.isRt (s : State) (p : Nat) : Bool := s.fb (F.PRT_CTL_rt p)

/-- RT guarantees in ascending order out of `a` slots: the first that does not fit takes what remains, later ones nothing. -/
def honourRt : List (Nat × Nat) → Nat → List (Nat × Nat)
  | [], _ => []
  | (p, g) :: ps, a => if g ≤ a then (p, g) :: honourRt ps (a - g) else (p, a) :: ps.map fun q => (q.1, 0)

/-- What a tile honours in an execution epoch: the reserves held, the guarantees, the slots left, and its shortfall. -/
structure Honour where
  resv : Nat × Nat × Nat
  gs : List (Nat × Nat)
  left : Nat
  /-- The scale of the reserves in 256ths. -/
  f : Nat
  short : Short
deriving DecidableEq, Repr

/-- R190 for one tile: reserves `r`, guarantees of RT and BE ports, capacity `cap`, for execution epoch `x`. -/
def honour (r : Nat × Nat × Nat) (rt be : List (Nat × Nat)) (cap x : Nat) : Honour :=
  let total := r.1 + r.2.1 + r.2.2
  let rtNeed := (rt.map (·.2)).sum
  let beNeed := (be.map (·.2)).sum
  let base : Short := { cap := cap, rtNeed := rtNeed, beNeed := beNeed, epoch := x }
  let firstOf (l : List (Nat × Nat)) : Option Nat := ((rt.zip l).find? fun q => q.2.2 != q.1.2).map fun q => q.1.1
  if cap < total then
    let f := 256 * cap / total
    let r := (r.1 * f / 256, r.2.1 * f / 256, r.2.2 * f / 256)
    let none_ := (rt ++ be).map fun q => (q.1, 0)
    ⟨r, none_, cap - (r.1 + r.2.1 + r.2.2), f,
      { base with
        poolCut := true, rtCut := decide (0 < rtNeed), firstCut := (firstOf (rt.map fun q => (q.1, 0))).getD 0xFF
        b := if beNeed = 0 then 256 else 0, pools := r.1 + r.2.1 + r.2.2 }⟩
  else
    let got := honourRt rt (cap - total)
    let a := cap - total - (got.map (·.2)).sum
    let b := if beNeed = 0 then 256 else min 256 (256 * a / beNeed)
    let bes := be.map fun q => (q.1, q.2 * b / 256)
    ⟨r, got ++ bes, a - (bes.map (·.2)).sum, 256,
      { base with b := b, rtCut := (firstOf got).isSome, firstCut := (firstOf got).getD 0xFF, pools := total }⟩

/-- R191: the state whose change is an event. -/
def Short.key (x : Short) : Nat × Bool × Nat × Bool := (x.b, x.rtCut, x.firstCut, x.poolCut)
def Short.normal (x : Short) : Bool := decide (x.key = (256, false, 0xFF, false))

/-! ### Carry and shared grants -/

/-- R178: unused guarantees of ports (RT before BE), out of a pool: the carries and what is left. -/
def carries : List (Nat × Nat) → Nat → List (Nat × Nat) × Nat
  | [], pool => ([], pool)
  | (p, k) :: ps, pool =>
    let (cs, left) := carries ps (pool - min k pool)
    ((p, min k pool) :: cs, left)

/-- A port in a round of R180: its weight, and what it still wants. -/
structure Turn where
  port : Nat
  weight : Nat
  want : Nat
deriving DecidableEq, Repr

/-- One pass of a round. -/
def dealPass : List Turn → Nat → List Turn × Nat
  | [], pool => ([], pool)
  | t :: ts, pool =>
    let n := min (min t.weight t.want) pool
    let (ts, left) := dealPass ts (pool - n)
    ({ t with want := t.want - n } :: ts, left)

/-- A round: passes until no port wants more or the pool is spent. -/
def dealRound : Nat → List Turn → Nat → List Turn × Nat
  | 0, ts, pool => (ts, pool)
  | n + 1, ts, pool =>
    if pool = 0 then (ts, pool)
    else
      let (ts', left) := dealPass ts pool
      if left = pool then (ts', left) else dealRound n ts' left

/-- Ports in the turn order that starts at port `start`, or at the lowest when none is as high. -/
def turnOrder (start : Nat) (ps : List Nat) : List Nat := (ps.filter fun p => decide (start ≤ p)) ++ ps.filter fun p => decide (p < start)

/-- R180: where the next epoch's turn starts: one port after the port that starts this one. -/
def nextTurn (start : Nat) (ps : List Nat) : Nat := match turnOrder start ps with | p :: _ => p + 1 | [] => start

/-- R180: the shared grants out of a pool, as (port, slots). -/
def shared (start : Nat × Nat) (rt be : List Nat) (weight demand : Nat → Nat) (pool : Nat) : List (Nat × Nat) :=
  let round (ps : List Nat) (want : Nat → Nat) (pool : Nat) : List (Nat × Nat) × Nat :=
    let ts := ps.map fun p => (⟨p, weight p, want p⟩ : Turn)
    let (ts', left) := dealRound pool ts pool
    ((ts.zip ts').map fun q => (q.1.port, q.1.want - q.2.want), left)
  let rt := turnOrder start.1 rt
  let be := turnOrder start.2 be
  let (a, pool) := round rt demand pool
  let (b, pool) := round be demand pool
  let (c, _) := round (rt ++ be) (fun _ => pool) pool
  a ++ b ++ c

/-- The sum of the slots of a port in a list. -/
def slotsFor (l : List (Nat × Nat)) (p : Nat) : Nat := ((l.filter fun q => q.1 == p).map (·.2)).sum

/-! ### One tile -/

/-- R185: the highest reserves in force at the 13 newest boundaries. -/
def heldMax (rs : List (Nat × Nat × Nat)) : Nat × Nat × Nat :=
  (rs.take 13).foldl (fun m r => (max m.1 r.1, max m.2.1 r.2.1, max m.2.2 r.2.2)) (0, 0, 0)

/-- The budgets of a tile for execution epoch `x` from what it honours (R177-R180). -/
def State.budgets (s : State) (t x : Nat) (h : Honour) : List (Nat × Budget) :=
  let ps := s.rightful
  let rt := ps.filter s.isRt
  let be := ps.filter fun p => !s.isRt p
  let unused (p : Nat) : Nat := if s.mode = 2 then 0 else (s.budget (x - 4) t p).g - natGet s.gate.used (slotKey (x - 4) t p)
  let (ks, pool) := carries ((rt ++ be).map fun p => (p, unused p)) h.left
  let ss := shared (s.tile t).turn rt be (fun p => s.fv (F.PRT_CTL_weight p) + 1) (fun p => natGet s.gate.report (64 * t + p)) pool
  ps.map fun p => (p, ⟨slotsFor h.gs p, slotsFor ks p, slotsFor ss p⟩)

/-- The detail of SHORTFALL and SHORTFALL_END (R191). -/
def Short.detail (x : Short) (t e : Nat) : List (Nat × Nat × Nat) :=
  [(12, 1, t), (13, 1, x.cap), (14, 1, x.pools), (15, 2, x.rtNeed), (17, 2, x.beNeed), (19, 2, x.b),
    (21, 1, (if x.rtCut then 1 else 0) + (if x.poolCut then 2 else 0)), (22, 1, x.firstCut), (23, 4, e)]

/-- R191, R198, R200: a tile's shortfall state as this boundary finds it. -/
def State.noteShort (s : State) (t : Nat) (new : Short) : State :=
  let T := s.tile t
  let old := T.short
  let q := t / 8
  let s := s.modTile t fun T => { T with short := new }
  let s := (((s.setF (F.SCH_SHORT_be_scale t) new.b).setF (F.SCH_SHORT_rt_cut t) (if new.rtCut then 1 else 0)).setF
    (F.SCH_SHORT_pool_cut t) (if new.poolCut then 1 else 0)).setF (F.SCH_SHORT_first_cut t) (if new.rtCut then new.firstCut else 0)
  let s := s.when (old.normal && !new.normal) fun s => s.raise (Src.port 4 q) t
  let s := s.when (!old.rtCut && new.rtCut) fun s => s.raise (Src.port 5 q) t
  let s := s.when (!old.poolCut && new.poolCut) fun s => s.raise (Src.port 6 q) t
  if old.key = new.key then s
  else if new.normal then
    (s.event 0x0502 (new.detail t new.epoch)).modTile t fun T => { T with shortSent := some s.epoch, shortPend := none }
  else match T.shortSent with
    | some e =>
      if s.epoch < e + 256 then s.modTile t fun T => { T with shortPend := T.shortPend.orElse fun _ => some new.epoch }
      else (s.event 0x0501 (new.detail t new.epoch)).modTile t fun T => { T with shortSent := some s.epoch, shortPend := none }
    | none => (s.event 0x0501 (new.detail t new.epoch)).modTile t fun T => { T with shortSent := some s.epoch, shortPend := none }

/-- One tile fixes its figures for the execution epoch four on; the scale of its reserves. -/
def State.fixTile (s : State) (t : Nat) : State × Nat :=
  let x := s.epoch + 4
  let T := s.tile t
  let cap := if s.coolEdge then s.aimCap t else stepCap T.cap (s.aimCap t)
  let rs := (reserveOf s.active t :: T.reserves).take 17
  let ps := s.rightful.map fun p => (p, guar s.active p t)
  let h := honour (heldMax rs) (ps.filter fun q => s.isRt q.1) (ps.filter fun q => !s.isRt q.1) cap x
  let bs := s.budgets t x h
  let figs := s.figsFor t
  let g := s.gate
  let s := { s with gate := { g with budget := bs.foldl (fun b (q : Nat × Budget) => Tab.set (fun _ => {}) b (slotKey x t q.1) q.2) g.budget } }
  let s := s.modTile t fun T =>
    { T with
      cap := cap, reserves := rs, turn := (nextTurn T.turn.1 ((s.rightful).filter s.isRt), nextTurn T.turn.2 ((s.rightful).filter fun p => !s.isRt p))
      resv := Tab.set (fun _ => (0, 0, 0)) T.resv x h.resv
      figs := Tab.set (fun _ => {}) T.figs x figs }
  ((s.setF (F.SCH_CAP_cap t) cap).noteShort t h.short, h.f)

/-- R197: PRT_STATUS.be_scale: the lowest scale applied to the port's guarantee at any tile. -/
def State.showScale (s : State) (p : Nat) : State :=
  let b := if s.memRights p && !s.isRt p then
      (List.range 32).foldl (fun m t => if s.planning t && guar s.active p t != 0 then min m (s.tile t).short.b else m) 256
    else 256
  s.setF (F.PRT_STATUS_be_scale p) b

/-- Figures of epochs that have begun are no more needed, once their carry is taken. -/
def State.pruneBudgets (s : State) : State :=
  { s with gate := { s.gate with budget := s.gate.budget.filter fun e => decide (slotKey (s.epoch + 1) 0 0 ≤ e.1) } }

/-- R148, R177, R190: every tile fixes the figures of the execution epoch four after the one that starts now. -/
def State.fixFigures (s : State) : State :=
  let (s, f) := (List.range 32).foldl (fun (a : State × Nat) t =>
    if a.1.planning t then
      let (s, f) := a.1.fixTile t
      (s, min a.2 f)
    else a) (s, 256)
  let s := { s with gate := { s.gate with quotaScale := f } }
  ((List.range 64).foldl State.showScale s).pruneBudgets

end Sys2Proof.Machine
end

