-- ==== Sys2Proof/Machine/Modes.lean ====
section
/-! DEFINITION. What a change of mode or of debug level does (R477-R479, R495-R500): the operations that the commands of
modes, trust and configuration share. -/

namespace Sys2Proof.Machine

/-! ### Debug grants -/

/-- R479, R487: SEC_GATE as the level and the mode set it. The scan gate is read as EXTEST and the wrapper instructions
that D2 grants in MAINTENANCE (log 27). -/
def State.showGates (s : State) : State :=
  let l := s.level
  let b (c : Bool) : Nat := if c then 1 else 0
  let up := s.mode != 4
  let maint := s.mode == 5
  (((((s.setF F.SEC_GATE_tap_d1 (b (up && decide (1 ≤ l)))).setF F.SEC_GATE_tap_d2 (b (up && decide (2 ≤ l)))).setF F.SEC_GATE_scan
    (b (maint && decide (2 ≤ l)))).setF F.SEC_GATE_halt (b (maint && decide (2 ≤ l)))).setF F.SEC_GATE_dbgmem
    (b (up && decide (2 ≤ l)))).setF F.SEC_GATE_raw (b (up && decide (3 ≤ l)))

/-- The wrapper instruction of a core that the level and mode no longer allow (R415): WS_LBIST of an engine or a parlour
core needs D2 alone. -/
def State.scanEnds (s : State) (core wir : Nat) : Bool :=
  let needs := wir == 1 || wir == 2 || wir == 4 || wir == 5
  let small := wir == 4 && (decide (core < 128) || (decide (177 ≤ core) && decide (core ≤ 180)))
  needs && (decide (s.level < 2) || (s.mode != 5 && !small))

/-- R478, R496: the effects of grants that no longer stand end: halted cores restart, and so do the cores under a wrapper
scan that is no longer granted. -/
def State.endGrants (s : State) : State :=
  let s := s.showGates
  let s := if s.fb F.SEC_GATE_halt then s else
    (List.range 4).foldl (fun (s : State) c =>
      if s.bit F.SEC_DBGHALT_halt c then (s.putBit F.SEC_DBGHALT_halt c false).restartCore c else s) s
  s.tap.wir.foldl (fun (s : State) e =>
    if s.scanEnds e.1 e.2 then
      let s := { s with tap := { s.tap with wir := natSet s.tap.wir e.1 0 } }
      if 177 ≤ e.1 ∧ e.1 ≤ 180 then s.restartCore (e.1 - 177) else s
    else s) s

/-- R471: the open level of the state (R479). -/
def State.openLevel (s : State) : Nat :=
  if s.isLimited then 1
  else match s.lifecycle with
    | 0 => 2
    | 1 => 1
    | 2 => (s.policyOf).field 0 1
    | _ => if s.fb F.SEC_STATUS_wiped then 1 else 0

/-- R477, R489: the debug level changes. -/
def State.setLevel (s : State) (l signer seconds : Nat) : State :=
  let old := s.level
  let s := ((s.setF F.SEC_STATUS_level l).setF F.SEC_DBG_level l).setF F.SEC_DBG_TIME_seconds seconds
  let s := if old = l then s else s.event 0x0D01 [(12, 1, l), (13, 1, old), (14, 1, signer), (15, 4, seconds)]
  s.endGrants

/-- R477: the level returns to the open level. -/
def State.levelToOpen (s : State) : State := { s with sec := { s.sec with unlock := none } }.setLevel s.openLevel 0xFF 0

/-! ### A mode boundary -/

/-- R63, R496: BALANCED sets auto_doze, and every other mode clears it. -/
def State.showDoze (s : State) : State :=
  (List.range 16).foldl (fun (s : State) n => s.setF (F.LNK_PM_auto_doze n) (if s.mode = 1 then 1 else 0)) s

/-- R500: the odd links that the boundary finds in OPEN or DOZE are to be parked; those in DOZE move to the vestibule
state at once, those in OPEN under R45. The PHYs of the odd links that sleep are retained (R499). -/
def State.enterCool (s : State) : State :=
  let odd := (List.range 8).map (2 * · + 1)
  let live := odd.filter fun n => s.linkState n == lsOpen || s.linkState n == lsDoze
  let s := { s with pwr := { s.pwr with coolFrom := s.epoch, coolLinks := live } }
  odd.foldl (fun (s : State) n =>
    (if s.linkState n = lsDoze then (s.leaveLink n lsVestibule).setLinkState n lsVestibule else s).coolPhy n) s

/-- R499: on leaving COOL the PHYs of the odd links are on again. -/
def State.leaveCool (s : State) : State :=
  let s := { s with pwr := { s.pwr with coolLinks := [] } }
  (List.range 8).foldl (fun (s : State) k => if s.domain (66 + 2 * k) = 1 then s.setDomain (66 + 2 * k) 2 else s) s

/-- R495, R496, R518: the mode changes at this boundary, for a cause of R518. -/
def State.setMode (s : State) (new cause : Nat) : State :=
  let old := s.mode
  let s := ((s.setF F.PWR_MODE_prev old).setF F.PWR_MODE_mode new).setF F.PWR_MODE_EPOCH_epoch s.epoch
  let s := { s.inc F.PWR_CNT_MODE_count with
    votes := s.votes.filter fun v => v.fieldId != 0
    detFrom := if new = 2 then some s.epoch else none
    pwr := { s.pwr with later := some (s.epoch + 4, new, old) } }
  let s := s.event 0x0E01 [(12, 1, new), (13, 1, old), (14, 4, s.epoch), (18, 1, cause)]
  let s := s.showDoze
  let s := s.when (old == 3) State.leaveCool
  let s := s.when (new == 3) State.enterCool
  let s := s.when (old == 5) fun s => s.setF F.ECC_INJ_CTL_arm 0
  s.endGrants

/-- R193: the verdict of the admission check shows in tiles 0-31. -/
def State.showOversub (s : State) (v : Nat) : State :=
  (List.range 32).foldl (fun (s : State) t => s.setF (F.SCH_POOL_oversub t) (if v = 1 then 1 else 0)) s

/-- R517: boot_mode as it acts. -/
def bootMode (cfg : RegMap) : Nat :=
  let m := cfg.fv F.PWR_CTL_boot_mode
  if m = 4 ∨ 6 ≤ m then 1 else m

/-! ### Asleep (R501, R516) -/

/-- The device sleeps in RETENTION: the entry is over, and the epoch counter stands still. -/
def State.asleep (s : State) : Bool := s.mode == 4 && s.pwr.drain.isNone && s.pwr.sleepAt.isNone && s.pwr.change.isNone

/-- R499: the domains in RETENTION. -/
def State.retainDomains (s : State) : State :=
  (List.range 96).foldl (fun (s : State) d =>
    if s.domain d = 3 ∨ d = 90 then s else s.setDomain d (if d < 90 then 1 else 0)) s

/-- R501: the boundary that the PARKs of the entry name: the links sleep, and the domains retain, unless a wake has come: the
mode before entry then returns at this boundary (R516). -/
def State.fallAsleep (s : State) : State :=
  let s := (List.range 16).foldl (fun (s : State) n =>
    if s.linkState n = lsVestibule then (s.leaveLink n lsSleep).setLinkState n lsSleep else s) s
  let revert := s.pwr.revert
  let back : ModeChange := ⟨s.fv F.PWR_MODE_prev, s.epoch, none, false, 2⟩
  let s := { s with pwr := { s.pwr with sleepAt := none, revert := false, change := if revert then some back else none } }
  if revert then
    (List.range 16).foldl (fun (s : State) n => if (s.link n).waking && s.linkState n == lsSleep then s.shortRetrain n else s)
      (s.inc F.PWR_CNT_REVERT_count)
  else
    let keep := s.fb F.PWR_CTL_ret_larder
    let s := ((s.inc F.PWR_CNT_RET_count).setF F.PWR_RET_LAST_larder_kept (if keep then 1 else 0)).retainDomains
    let s := (List.range 33).foldl (fun (s : State) t => s.setF (F.SCH_STATUS_running t) 0) (s.setF F.CLK_STATUS_pll_lock 0)
    let s := s.setWindows
    if keep then s
    else
      let s := (List.range 64).foldl (fun (s : State) k => if k % 16 = 0 then s else s.loseGranule k) s
      ({ s with eng := { s.eng with cache := [], spill := [] }, cel := { s.cel with heads := [] } }).setF F.ENG_SPILL_STAGED_count 0

/-! ### Boot phases (R131, R517) -/

/-- A boot phase begins. -/
def State.setPhase (s : State) (p : Nat) : State :=
  let ms := min s.ms 0xFFFF
  let s := s.when ((p == 6 || p == 7) && s.pwr.phase < 6) fun s => s.setF F.PWR_BOOT_MS_awaitcfg_ms ms
  let s := s.when (p == 7 && s.pwr.phase != 7) fun s => s.setF F.PWR_BOOT_MS_ready_ms ms
  { s with pwr := { s.pwr with phase := p, booted := s.pwr.booted || p == 3 } }

/-- R509: a committed configuration is in force once link receivers are enabled. -/
def State.showReady (s : State) : State := s.when (s.pwr.phase == 5 || s.pwr.phase == 6) fun s => s.setPhase 7

end Sys2Proof.Machine
end

