-- ==== Sys2Proof/Machine/Tick.lean ====
section
/-! DEFINITION. What the block does when no command waits: the time base moves on by one flit (R7, log 3). -/

namespace Sys2Proof.Machine

/-- What the end of a flit settles: a slot of every tile, the meetings in the Cellar and the Larder (R283, R296), the links. -/
def State.flitOver (s : State) : State := s.slotsPass.cellarFlit.larderFlit.flitEnds

/-- R7: one flit passes. The last flit of an epoch lasts until the command of the boundary, and time stands still while the
device sleeps (R501) and while PWROK is low. -/
def State.tick (s : State) : State :=
  if s.asleep || !s.pwr.good then s
  else if s.flit < 7 then { s.flitOver with flit := s.flit + 1 }.flitBegins
  else if s.frame < 7 then { s.flitOver with frame := s.frame + 1, flit := 0 }.flitBegins
  else s

end Sys2Proof.Machine
end

