-- ==== Sys2Proof/Machine/Schedule.lean ====
section
/-! DEFINITION. Row-hammer triggers and penalties (R155-R158, R187), activation periods (R186), demand reports (R181), and
the epoch boundary itself. -/

namespace Sys2Proof.Machine

/-! ### Penalties -/

/-- Penalties of a tile in force now are counted in SCH_STATUS; those that have ended are forgotten. -/
def State.showPenalties (s : State) : State :=
  let over_ (x : Penalty) : Bool := match x.until_ with | none => false | some e => decide (e ≤ s.epoch)
  let s := { s with gate := { s.gate with penalties := s.gate.penalties.filter fun x => !over_ x } }
  (List.range 32).foldl (fun (s : State) t =>
    let n := (s.gate.penalties.filter fun x => x.tile == t && decide (x.start ≤ s.epoch)).length
    s.setF (F.SCH_STATUS_penalties t) (min 255 n)) s

/-- R157, R158, R187: a port is penalised for a bank of a tile from the next boundary on. -/
def State.penalise (s : State) (t bank port : Nat) : State :=
  let here (x : Penalty) : Bool := x.tile == t && x.port == port && x.bank == bank
  let level := (s.gate.penalties.filter here).foldl (fun m x => max m x.level) 0
  let ps := (s.gate.penalties.map fun x => if here x then { x with until_ := some (s.epoch + 1) } else x) ++
    ([⟨t, port, bank, level + 1, s.epoch + 1, s.epoch + 256 * max 1 (s.fv (F.SCH_HAM_penalty t)), none⟩] : List Penalty)
  ({ s with gate := { s.gate with penalties := ps } }.inc (F.SCH_CNT_PENALTY_count t)).raise (Src.sched 1 t) t

/-- R155-R158: a row that has reached the threshold triggers mitigation, with the counts it reached it with. -/
def execHammerTrigger (c : Channel) (bank : Fin 32) (row : BitVec 16) (s : State) : Host.Outcome State Fault Refusal :=
  let t := c.val
  match (s.tile t).reached.find? fun x => x.bank == bank.val && x.row == row.toNat with
  | none => .next s
  | some x =>
    let s := s.modTile t fun T => { T with reached := T.reached.erase x, mitQ := T.mitQ ++ [(x.bank, x.row, neighbours x.row)] }
    let s := (s.inc (F.SCH_CNT_TRIG_count t)).raise (Src.sched 0 t) t
    let quarter := x.ports.filter fun p => decide (x.count ≤ 4 * p.2)
    let most := x.ports.foldl (fun m p => if m.2 < p.2 then p else m) (0, 0)
    .next ((if quarter.isEmpty then [most] else quarter).foldl (fun s p => s.penalise t x.bank p.1) s)

/-- R157, R187: penalties whose period runs out in this epoch end; the full budget returns at the next boundary. -/
def execPenaltyExpiry (s : State) : Host.Outcome State Fault Refusal :=
  let ended (x : Penalty) : Bool := x.until_.isNone && decide (x.ends ≤ s.epoch)
  let ps := s.gate.penalties.map fun x => if ended x then { x with until_ := some (s.epoch + 1) } else x
  .next { s with gate := { s.gate with penalties := ps } }

/-- R186: a budget period begins: used counts and row memos return to 0. -/
def execActBudgetPeriod (s : State) : Host.Outcome State Fault Refusal :=
  if s.atBoundary && s.epoch % 64 == 0 then .next { s with gate := { s.gate with acts := [], memo := [] } } else .next s

/-- R191: 256 epochs after a tile's last event, its merged changes are sent. -/
def execShortfallMergeExpiry (s : State) : Host.Outcome State Fault Refusal :=
  .next ((List.range 32).foldl (fun (s : State) t =>
    let T := s.tile t
    match T.shortPend, T.shortSent with
    | some e, some sent =>
      if sent + 256 ≤ s.epoch then
        (s.event 0x0501 (T.short.detail t e)).modTile t fun T => { T with shortSent := some s.epoch, shortPend := none }
      else s
    | _, _ => s) s)

/-- R181: the demand of every gate at every tile, capped at 64. -/
def State.reportDemand (s : State) : State :=
  { s with gate := { s.gate with report := s.gate.demand.map fun e => (e.1, min 64 e.2) } }

/-- R181: in frame 7 of each epoch every gate reports. -/
def execDemandReport (s : State) : Host.Outcome State Fault Refusal := if s.frame = 7 then .next s.reportDemand else .next s

/-! ### The boundary -/

/-- R177, R181, R182: the gates at a boundary: the quotas are new, the demand of the ended epoch is what the tiles use. -/
def State.gatesAtBoundary (s : State) : State :=
  let s := s.reportDemand
  { s with gate := { s.gate with
    quota := [], demand := []
    used := s.gate.used.filter fun e => decide (slotKey s.epoch 0 0 ≤ e.1) } }

/-- The figures of this boundary are fixed when a commit or a mode change takes effect at it, by its own command. -/
def State.figuresWait (s : State) : Bool :=
  (match s.session with | some x => x.commitAt == some s.epoch | none => false) ||
  (match s.pwr.change with | some c => c.at_ == s.epoch | none => false)

/-- R487: SEC_DBG_TIME shows the time left on an unlock. -/
def State.tickUnlock (s : State) : State :=
  match s.sec.unlock with
  | some (_, e, secs) => if secs = 0 then s else s.setF F.SEC_DBG_TIME_seconds (secs - (s.epoch - e) / epochsOfSeconds 1)
  | none => s

/-- R7, R145, R148: the boundary that starts the next epoch, after flit 7 of frame 7. `lanes` are the mismatches that the lane monitors of links saw in the
epoch that ends (R56), `lines` those of the riser monitors (R340). -/
def execEpochBoundary (lanes : List (Link × Nat)) (lines : List (Tile × Nat)) (s : State) : Host.Outcome State Fault Refusal :=
  let e := s.epoch
  if s.asleep || !s.pwr.good || s.frame != 7 || s.flit != 7 then .next s else
  let s := s.flitOver
  let s := (List.range 16).foldl (fun (s : State) n => s.laneMonitor n ((lanes.filter fun x => x.1.val == n).map (·.2)).sum) s
  let s := (List.range 16).foldl (fun (s : State) n =>
    if s.linkState n = lsOpen then s.modLink n fun L => { L with idle := L.idle + 1 } else s) s
  let s := { s with epoch := (e + 1) % 2 ^ 64, frame := 0, flit := 0 }.flitBegins
  if s.halted then .next s
  else
    let s := { s with sec := { s.sec with shut := s.sec.shut || s.sec.moving } }
    let s := s.when (s.pwr.sleepAt == some s.epoch) State.fallAsleep
    let s := (List.range 33).foldl (fun (s : State) r =>
      let s := s.monitorRiser r e ((lines.filter fun x => x.1.val == r).map (·.2)).sum
      (s.goHome r).when (!(s.riser r).eraseNext.isEmpty) fun s => s.markErased r) s.applyTunings
    let s := ((List.range 32).foldl (fun (s : State) t => s.when (!s.refreshes t) fun s => s.loseDram t) ((List.range 32).foldl State.applyDegrade s)).applyReleases
    let s := (List.range 16).foldl (fun (s : State) n => s.when ((s.link n).waking && s.linkState n == lsDoze) fun s => s.enterOpen n) s
    let s := (List.range 4).foldl State.refillStart s.tickUnlock.powerDown
    let s := { s with pwr := { s.pwr with resets := s.pwr.resets.filter fun r => !r.done } }.finishResets
    let s := s.gatesAtBoundary.showPenalties
    let s := (List.range 32).foldl (fun (s : State) t => s.when (s.planning t) fun s => ((s.showOcc t).planEpoch t).showPace t) s
    .next (if s.figuresWait then s else s.fixFigures)

end Sys2Proof.Machine
end

