-- ==== Sys2Proof/Machine/Commit.lean ====
section
/-! DEFINITION. Configuration sessions and commits (R108-R116, R127, R193, R510) and the snapshot (R132). -/

namespace Sys2Proof.Machine

/-! ### Sessions -/

/-- The path of a letterbox's commands: its owner (R111). -/
def State.lbPath (s : State) (n : Nat) : Nat := (s.lbOwner n).getD (60 + n)

def State.openSession (s : State) (path : Nat) : State :=
  { (s.setF F.CFG_STATUS_session 1).setF F.CFG_STATUS_session_owner path with
    session := some { owner := path }
    pwr := { s.pwr with lb4Session := s.pwr.lb4Session || path == 64 } }

def State.closeSession (s : State) : State :=
  { (s.setF F.CFG_STATUS_session 0).setF F.CFG_STATUS_session_owner 0 with session := none }

/-- R144: the path's session, opened when none is; none when another path's is open, or its own is frozen. -/
def State.sessionFor (s : State) (path : Nat) : Option State :=
  match s.session with
  | none => some (s.openSession path)
  | some x => if x.owner = path ∧ x.commitAt.isNone then some s else none

/-- R115. -/
def State.abortSession (s : State) : State := { s with staged := s.active }.closeSession

/-- R112: the first boundary at least 2 epochs on. -/
def State.twoEpochsOn (s : State) : Nat := if s.atBoundary then s.epoch + 2 else s.epoch + 3

/-! ### The checks of a commit -/

/-- R193: the mode in force after a commit. -/
def State.modeAfter (s : State) : Nat := if s.fb F.CFG_STATUS_committed then s.mode else bootMode s.staged

/-- R193: the session has changed a PRT_ field or SCH_POOL. -/
def State.planChanged (s : State) : Bool :=
  cfgRegs.any fun a =>
    ((decide (0x30000 ≤ a) && decide (a < 0x34000)) || (List.range 32).any fun t => a == R.SCH_POOL t) &&
      (s.staged.val a &&& cfgMaskAt a) != (s.active.val a &&& cfgMaskAt a)

/-- The admission check of a commit: its verdict, when it is made. -/
def State.commitVerdict (s : State) : Option Nat :=
  if s.planChanged || !s.fb F.CFG_STATUS_committed then some (configVerdict s.staged s.modeAfter) else none

/-- R112, R113: the checks of a commit by the owner of the open session, and the frozen session when they pass; none
means REJECTED, the state then shows the first mismatching domain. -/
def State.tryCommit (s : State) (adopt : Bool) (refs : List Word) (planId : Option Nat) : Bool × State :=
  let v := s.commitVerdict
  if !commitOk s.active s.staged s.modeAfter s.bst.slots || v == some 2 then (false, s.setF F.CFG_STATUS_mismatch_staged 0xFF)
  else
    let now := domainCrcs s.staged
    let refs := if adopt then now else refs
    match (List.range 37).find? fun d => now.getD d 0 != refs.getD d 0 with
    | some d => (false, s.setF F.CFG_STATUS_mismatch_staged d)
    | none =>
      (true, { s.setF F.CFG_STATUS_mismatch_staged 0xFF with
        session := s.session.map fun x =>
          { x with commitAt := some s.twoEpochsOn, refs := refs, adopted := adopt, verdict := v, planId := planId } })

/-- The references of a command's arguments. -/
def argRefs (b : List Byte) : List Word := (List.range 37).map fun d => BitVec.ofNat 32 (byteNum b (4 * d) 4)

/-- R112: a letterbox's commit in its own session: frozen until the boundary, or REJECTED. -/
def State.runCommit (s : State) (n : Nat) (L : LbSt) (planId : Option Nat) : State :=
  let (ok, s) := s.tryCommit (L.flags % 2 == 1) (argRefs L.args) planId
  if ok then s.begin n true s.twoEpochsOn else s.fail n cplREJECTED

/-- R113: adoption that the configuration does not allow. -/
def State.adoptDenied (s : State) (L : LbSt) : Bool := L.flags % 2 == 1 && !s.fb F.CFG_CTL_adopt_allow

/-- A command that carries references, unless it adopts (R113). -/
def commitNeed (L : LbSt) : Nat := if L.flags % 2 = 1 then 0 else 148

/-! ### Commands -/

/-- R111, R127. -/
def execCfgBegin (n : Lb) (s : State) : Host.Outcome State Fault Refusal :=
  s.command n.val 0x0E01 0 fun _ s =>
    if s.session.isSome then s.fail n.val cplBUSY else (s.openSession (s.lbPath n.val)).done n.val []

/-- R112, R113. -/
def execCfgCommit (n : Lb) (s : State) : Host.Outcome State Fault Refusal :=
  s.command n.val 0x0E02 (commitNeed (s.lb n.val)) fun L s =>
    if s.adoptDenied L then s.fail n.val cplDENIED
    else match s.sessionFor (s.lbPath n.val) with
      | none => s.fail n.val cplBUSY
      | some s => s.runCommit n.val L none

/-- R115: an abort; of another path's session, or of one past its comparison, BUSY. -/
def execCfgAbort (n : Lb) (s : State) : Host.Outcome State Fault Refusal :=
  s.command n.val 0x0E03 0 fun _ s =>
    match s.session with
    | none => s.done n.val []
    | some x => if x.owner = s.lbPath n.val ∧ x.commitAt.isNone then s.abortSession.done n.val [] else s.fail n.val cplBUSY

/-- R125. -/
def execCfgRef (n : Lb) (s : State) : Host.Outcome State Fault Refusal :=
  s.command n.val 0x0E04 0 fun _ s => s.done n.val ((List.range 37).flatMap fun d => leBytes 4 (s.fv (F.CFG_REF_ref d)))

/-- R115: the session's idle limit runs out; with `tie`, its owner's access comes in the same cycle and wins (R128). -/
def execCfgSessionIdle (tie : Bool) (s : State) : Host.Outcome State Fault Refusal :=
  match s.session with
  | some x =>
    if x.commitAt.isSome then .next s
    else if tie then .next (s.inc F.CFG_CNT_NEARMISS_count)
    else .next s.abortSession
  | none => .next s

/-! ### The commit boundary -/

/-- R185: quotas raised by the commit wait two epochs. -/
def State.noteQuotas (s : State) (old : RegMap) : State :=
  let raised := (List.range 64).flatMap fun p => (List.range 4).filterMap fun k =>
    let o := old.fv (quotaFld p k)
    if o < s.active.fv (quotaFld p k) then some (quotaKey p k, o + 1) else none
  { s with gate := { s.gate with quotaOld := raised.foldl (fun t e => natSet t e.1 e.2) [], quotaFrom := s.epoch + 2 } }

/-- R212: the cached lines that a commit makes the device write back. -/
def lineLeaves (old new : RegMap) (t : Nat) (l : CLine) : Bool :=
  (old.fv (F.ENG_CTL_cache_en t) != 0 && new.fv (F.ENG_CTL_cache_en t) == 0) ||
  (List.range 16).any fun n =>
    let o := region old n
    o.kind == 2 && o != region new n && decide (o.base ≤ 64 * l.burst) && decide (64 * l.burst < o.base + o.size)

/-- R218: a ring that is set up anew starts empty. -/
def ringChanged (old new : RegMap) : Bool :=
  (ringOn new && !ringOn old) || ringArea old != ringArea new

/-- R282: the commit makes the Cellar initialise. -/
def cellarChanged (old new : RegMap) : Bool :=
  new.fv F.CEL_CTL_enable != 0 &&
  (old.fv F.CEL_CTL_enable == 0 || old.fv F.CEL_QUEUES_qk != new.fv F.CEL_QUEUES_qk ||
    old.fv F.CEL_CELL_BASE_base != new.fv F.CEL_CELL_BASE_base || old.fv F.CEL_CELL_SIZE_size != new.fv F.CEL_CELL_SIZE_size ||
    old.fv F.CEL_LINK_BASE_base != new.fv F.CEL_LINK_BASE_base)

/-- R289, R291: granules that the commit leaves UNUSED are powered down, once no request of the old partition is left
(R300); what a granule holds after its use for the counter cache, the head cache or the shadow area is not known (log 99). -/
def State.powerGranules (s : State) (old : RegMap) : State :=
  let kind (cfg : RegMap) (k : Nat) : Nat := granule cfg (k / 16) (k % 16)
  let spent := (List.range 64).filter fun k => kind s.active k != kind old k && [2, 4, 5].contains (kind old k)
  let down := (List.range 64).filter fun k => kind s.active k == 0 && kind old k != 0
  let s := (spent ++ s.lar.down.map (·.1)).foldl State.loseGranule s
  { s with lar := { s.lar with down := down.map fun k => (k, s.epoch) } }.powerDown

/-- R299, R409: a bank that the commit has the spare replace is mirrored until the next boundary at least. -/
def State.mirrorPerm (s : State) (old : RegMap) : State :=
  let due := (List.range 4).filter fun q => s.fb (F.LAR_SPARE_perm q) && old.fv (F.LAR_SPARE_perm q) == 0
  { s with bst := { s.bst with permAt := due.foldl (fun t q =>
      natSet t q (if s.bst.lheld.contains (q, s.fv (F.LAR_SPARE_bank q)) then s.epoch else s.epoch + 1)) s.bst.permAt } }

/-- What a commit changes beside the copies, where `old` was the active copy (R185, R212, R218, R282, R291, R350). -/
def State.afterCommit (s : State) (old : RegMap) : State :=
  let new := s.active
  let s := s.noteQuotas old
  let s := s.when (ringChanged old new) fun s =>
    { (s.setF F.ENG_RING_PROD_index 0).setF F.ENG_RING_CONS_index 0 with eng := { s.eng with ringWarned := false } }
  let s := s.when (cellarChanged old new) fun s => { s.logReady with cel := { s.logReady.cel with initDue := some s.epoch } }
  let s := s.when (new.fv F.CEL_CTL_enable == 0 && old.fv F.CEL_CTL_enable != 0) fun s => s.logReady.setF F.CEL_STATUS_ready 0
  let s := (s.powerGranules old).mirrorPerm old
  s.when (s.fb F.CLK_CTL_force_fallback) State.enterFallback

/-- R112: the letterbox whose commit takes effect completes with the commit epoch. -/
def State.answerCommit (s : State) : State :=
  (List.range 6).foldl (fun (s : State) n =>
    let L := s.lb n
    match L.running with
    | some (c, _) => if L.begun && (c == 0x0E02 || c == 0x0303) then s.done n (leBytes 4 L.answerEpoch) else s
    | none => s) s

/-- R108, R112, R193, R497: the commit boundary. -/
def execConfigCommitBoundary (s : State) : Host.Outcome State Fault Refusal :=
  match s.session with
  | none => .next s
  | some x =>
    match x.commitAt with
    | none => .next s
    | some e =>
      if !s.atBoundary || decide (s.epoch < e) then .next s
      else
        let old := s.active
        let first := !s.fb F.CFG_STATUS_committed
        let s := s.dropLines (lineLeaves old s.staged)
        let s := { s with
          active := s.staged
          cfgBad := []
          planId := x.planId.getD s.planId
          votes := s.votes.filter fun v => v.fieldId == 0 || v.fieldId == 89 }
        let s := (x.refs.zipIdx).foldl (fun (s : State) r => s.setF (F.CFG_REF_ref r.2) r.1.toNat) s
        let s := ((s.setF F.CFG_STATUS_committed 1).setF F.CFG_STATUS_adopted (if x.adopted then 1 else 0)).setF F.CFG_COMMIT_EPOCH_epoch s.epoch
        let s := (match x.verdict with | some v => s.showOversub v | none => s).closeSession.afterCommit old
        let s := { s with sec := { s.sec with shut := s.sec.moving } }
        let s := if first then (if bootMode s.active = s.mode then s.showDoze else s.setMode (bootMode s.active) 0) else s
        .next s.fixFigures.showReady.answerCommit

/-! ### The continuous checks -/

/-- R114: a pass of a domain ends. `flip`: an upset that has changed configuration bits of a register of the domain since the last
pass; `overlap`: a commit overlaps the pass. -/
def execCfgCrcPass (d : Fin 37) (flip : Option (BitVec 24 × Word)) (overlap : Bool) (s : State) : Host.Outcome State Fault Refusal :=
  let s := match flip with
    | some (a, m) =>
      let a := offsetOf a.toNat
      if cfgRegs.contains a && domainOf a == d.val then { s with active := s.active.put a (s.active.val a ^^^ (m &&& cfgMaskAt a)) } else s
    | none => s
  let crc := (domainCrc s.active d.val).toNat
  let s := s.setF (F.CFG_CUR_crc d.val) crc
  if overlap || !s.fb F.CFG_STATUS_committed then .next s
  else if crc = s.fv (F.CFG_REF_ref d.val) then .next { s with cfgBad := s.cfgBad.filter (· ≠ d.val) }
  else
    let s := if d.val < 32 then s.putBit F.CFG_MISMATCH_T_tile d.val true else s.putBit F.CFG_MISMATCH_Q_quad (d.val - 32) true
    .next ({ s with cfgBad := if s.cfgBad.contains d.val then s.cfgBad else s.cfgBad ++ [d.val] }.raise (Src.mismatch d.val) d.val)

/-- R116: the copies of a voted field in a quadrant disagree: one copy, or all three (`lost`). -/
def execVoteDisagreement (field : Fin 90) (quad : Quad) (lost : Bool) (s : State) : Host.Outcome State Fault Refusal :=
  if lost then
    let v : Vote := ⟨field.val, quad.val⟩
    .next ({ s with votes := if s.votes.contains v then s.votes else s.votes ++ [v] }.raise Src.voteLost field.val)
  else .next ((s.setF F.CFG_STATUS_vote_fixed 1).raise Src.voteFixed field.val)

/-! ### Snapshots -/

/-- R125, R132: the letterbox waits for a snapshot, and the boundary is at least one frame after its command. -/
def State.snapWaits (s : State) (n : Nat) : Bool :=
  match (s.lb n).running with
  | some (c, _) => (s.lb n).begun && c == 0x0703 && decide ((s.lb n).answerEpoch + 8 ≤ s.absFlit)
  | none => false

/-- R132: a request by CFG_SNAP.req is due. -/
def State.snapDue (s : State) : Bool := match s.snapAt with | some t => decide (t + 8 ≤ s.absFlit) | none => false

/-- R132: every snapshot counter is copied into its holding register. -/
def State.copyCounters (s : State) : State :=
  (snapRegs.zipIdx).foldl (fun (s : State) a =>
    { s with live := s.live.put (0x300000 + 4 * a.2) (s.live.val a.1.1 &&& a.1.2) }) s

/-- R132: the copy at a boundary. It is the commit point of the LOG.SNAPSHOT commands that wait for it, and they complete
(R121, R125). -/
def execSnapshotTake (s : State) : Host.Outcome State Fault Refusal :=
  let ls := (List.range 6).filter s.snapWaits
  if !s.atBoundary || !(s.snapDue || !ls.isEmpty) then .next s
  else
    let seq := (s.fv F.CFG_SNAP_seq + 1) % 2 ^ 16
    let due := s.snapDue
    let s := ((s.copyCounters.setF F.CFG_SNAP_seq seq).setF F.CFG_SNAP_done 1).setF F.CFG_SNAP_EPOCH_epoch s.epoch
    let s := if due then { s.setF F.CFG_SNAP_req 0 with snapAt := none } else s
    .next (ls.foldl (fun (s : State) n => s.done n (leBytes 4 seq ++ leBytes 4 s.epoch)) s)

/-- R125: LOG.SNAPSHOT waits for a snapshot; until its commit point, the copy, it changes no register (R121). -/
def execLogSnapshot (n : Lb) (s : State) : Host.Outcome State Fault Refusal :=
  s.command n.val 0x0703 0 fun _ s => s.begin n.val false s.absFlit

/-! ### The configuration area of the boot flash (R510) -/

def cfgArea : Nat := 0x610000

/-- R330, R510: the retired and remap records, as (address, value); the kinds and value layouts are the model's (log 28). -/
def State.retireRecords (s : State) : List (Nat × Nat) :=
  (List.range 32).flatMap fun c =>
    let e := s.eccOf c
    (e.rows.map fun r => (0xFFFFFF00, c * 2 ^ 21 + r.1 * 2 ^ 16 + r.2)) ++ (e.banks.map fun b => (0xFFFFFF01, c * 2 ^ 5 + b)) ++
    (e.remap.filter fun m => m.2.valid || m.2.bad).map fun m => (if m.2.valid then 0xFFFFFF02 else 0xFFFFFF03, c * 2 ^ 25 + m.1 * 2 ^ 16 + m.2.row)

/-- The image of R510. -/
def State.cfgImage (s : State) (seq : Nat) : List Byte :=
  let regs := (cfgRegs.map fun a => (a, (s.active.val a &&& cfgMaskAt a).toNat)) ++ s.retireRecords
  let body := leBytes 4 0x96164346 ++ leBytes 4 seq ++ leBytes 4 regs.length ++ leBytes 4 0 ++
    ((List.range 37).flatMap fun d => leBytes 4 (s.fv (F.CFG_REF_ref d))) ++ regs.flatMap fun r => leBytes 4 r.1 ++ leBytes 4 r.2
  body ++ leBytes 4 (crc32c body)

/-- R510: the area is erased and the image of the active configuration programmed. -/
def execCfgSave (n : Lb) (s : State) : Host.Outcome State Fault Refusal :=
  s.command n.val 0x0E05 0 fun _ s =>
    let seq := if flashNum s.sec.flash cfgArea 4 = 0x96164346 then flashNum s.sec.flash (cfgArea + 4) 4 + 1 else 1
    { s with sec := { s.sec with flash := flashPut (flashErase s.sec.flash cfgArea 0x100000) cfgArea (s.cfgImage seq) } }.done n.val []

/-- The records of a valid image, and its references. -/
def flashConfig (m : List Host.Cell) : Option (List (Nat × Nat) × List Word) :=
  let count := flashNum m (cfgArea + 8) 4
  if flashNum m cfgArea 4 = 0x96164346 ∧ 168 + 8 * count ≤ 0x100000 then
    let b := flashBytes m cfgArea (168 + 8 * count)
    if byteNum b (164 + 8 * count) 4 = crc32c (b.take (164 + 8 * count)) then
      some ((List.range count).map fun k => (byteNum b (164 + 8 * k) 4, byteNum b (168 + 8 * k) 4),
        (List.range 37).map fun d => BitVec.ofNat 32 (byteNum b (16 + 4 * d) 4))
    else none
  else none

/-- R330: the saved retired and remap records are applied in riser training. -/
def State.applyRetired (s : State) : State :=
  match flashConfig s.sec.flash with
  | none => s
  | some (rs, _) =>
    rs.foldl (fun (s : State) r =>
      if r.1 = 0xFFFFFF00 then
        s.modEcc (r.2 / 2 ^ 21 % 32) fun e =>
          let x := (r.2 / 2 ^ 16 % 32, r.2 % 2 ^ 16)
          { e with rows := if e.rows.contains x || decide (64 ≤ e.rows.length) then e.rows else e.rows ++ [x] }
      else if r.1 = 0xFFFFFF01 then
        s.modEcc (r.2 / 32 % 32) fun e => { e with banks := if e.banks.contains (r.2 % 32) then e.banks else e.banks ++ [r.2 % 32] }
      else if r.1 = 0xFFFFFF02 ∨ r.1 = 0xFFFFFF03 then
        let m : Remap := ⟨r.1 == 0xFFFFFF02, r.1 == 0xFFFFFF03, r.2 % 2 ^ 16, 0⟩
        s.modEcc (r.2 / 2 ^ 25 % 32) fun e => { e with remap := Tab.set (fun _ => ({} : Remap)) e.remap (r.2 / 2 ^ 16 % 2 ^ 9) m }
      else s) s

/-- R127, R510: the first link is in the vestibule state: a valid image of the flash is staged in a session of the device
and committed, unless LB4 has opened a session by then, as every commit of it does. While the session of another path is open the
device waits for its end (log 95). -/
def execBootFlashConfigApply (s : State) : Host.Outcome State Fault Refusal :=
  let reached := (s.pwr.phase == 5 || s.pwr.phase == 6) && (List.range 16).any fun n => s.linkState n == lsVestibule
  if s.pwr.flashDone || !reached || (s.session.isSome && !s.pwr.lb4Session) then .next s
  else
    let s := { s with pwr := { s.pwr with flashDone := true } }
    if s.pwr.lb4Session then .next s
    else match flashConfig s.sec.flash with
      | none => .next s
      | some (rs, refs) =>
        let s := s.openSession 127
        let s := rs.foldl (fun (s : State) r =>
          if cfgRegs.contains r.1 then
            { s with staged := s.staged.put r.1 ((s.staged.val r.1 &&& ~~~(cfgMaskAt r.1)) ||| (BitVec.ofNat 32 r.2 &&& cfgMaskAt r.1)) }
          else s) s
        let (ok, s) := s.tryCommit false refs none
        .next (if ok then s else s.abortSession.raise (Src.letterbox 1 4) 4)

end Sys2Proof.Machine
end

