-- ==== Sys2Proof/Machine/Plans.lean ====
section
/-! DEFINITION. The commands INFO (R125), PLAN and PORT (R195, R196, R514), and ZONE (R144). -/

namespace Sys2Proof.Machine

/-! ### INFO -/

/-- The serial: IDENTITY words 8 and 9, all 0 when the region is not VERIFIED or RESOLVED (R125, R453). -/
def State.serial (s : State) : List Byte :=
  let st := s.fv (F.CST_SECT_state 0)
  (List.range 2).flatMap fun k => leBytes 4 (if st = 2 ∨ st = 3 then (Tab.get (fun _ => (0 : Word)) s.cst.image (40 + k)).toNat else 0)

/-- R125. -/
def execInfoId (n : Lb) (s : State) : Host.Outcome State Fault Refusal :=
  s.command n.val 0x0101 0 fun _ s =>
    s.done n.val (leBytes 4 0x9616 ++ leBytes 1 (if Config.grade = .dv9616_16 then 16 else 14) ++ [Config.siliconStep] ++
      leBytes 2 s.sec.running.fw ++ s.serial ++ leBytes 8 0)

/-- R125. -/
def execInfoStatus (n : Lb) (s : State) : Host.Outcome State Fault Refusal :=
  s.command n.val 0x0102 0 fun _ s =>
    s.done n.val (leBytes 4 s.statusWord ++ leBytes 4 (s.live.val R.CFG_STATUS).toNat ++ leBytes 8 s.summary)

/-- The channels that are DEGRADED, one bit each. -/
def State.degradedMask (s : State) : Nat :=
  (List.range 32).foldl (fun m t => if s.fv (F.VRT_STATUS_vstate t) = 3 then m + 2 ^ t else m) 0

/-- R125. -/
def execInfoCaps (n : Lb) (s : State) : Host.Outcome State Fault Refusal :=
  s.command n.val 0x0103 0 fun _ s =>
    s.done n.val (leBytes 2 s.sec.running.rcp ++ leBytes 2 ((List.range 128).filter fun e => !s.engineOut e).length ++ leBytes 4 s.degradedMask)

/-! ### PLAN -/

/-- R195, R196: one chunk of a plan image. A chunk that does not belong to the image that chunk 0 began is BADARG. -/
def execPlanLoad (n : Lb) (s : State) : Host.Outcome State Fault Refusal :=
  s.command n.val 0x0301 8 fun L s =>
    let i := L.arg 0 2
    let count := L.arg 2 2
    let len := L.arg 4 2
    if len = 0 ∨ 240 < len ∨ count ≤ i ∨ L.args.length < 8 + len ∨ (i ≠ 0 ∧ (count ≠ s.planChunks ∨ (i + 1 < count ∧ len ≠ 240))) then
      s.fail n.val cplBADARG
    else
      let bytes := (L.args.drop 8).take len
      let old := if i = 0 then [] else s.plan
      { s with plan := Tab.set (fun _ => []) old i bytes, planChunks := count }.done n.val []

/-- The loaded image, when it is complete. -/
def State.planBytes (s : State) : Option (List Byte) :=
  let cs := (List.range s.planChunks).map fun i => Tab.get (fun _ => []) s.plan i
  if s.planChunks = 0 || cs.any List.isEmpty || (cs.dropLast.any fun c => c.length != 240) then none else some cs.flatten

/-- R192, R193, R195: a check whose verdict is 2 ends REJECTED, with its result. -/
def State.answerCheck (s : State) (n : Nat) (oversub : Bool) (fs : List Failure) : State :=
  if verdict oversub fs = 2 then s.complete n cplREJECTED false (checkBytes oversub fs) else s.done n (checkBytes oversub fs)

/-- R192, R195. -/
def execPlanCheck (n : Lb) (s : State) : Host.Outcome State Fault Refusal :=
  s.command n.val 0x0302 2 fun L s =>
    let src := L.arg 0 1
    let mode := L.arg 1 1
    if 1 < src ∨ (5 < mode ∧ mode ≠ 0xFF) then s.fail n.val cplBADARG
    else if src = 1 then
      let m := if mode = 0xFF then s.mode else mode
      s.answerCheck n.val (planOf s.active).oversub ((planOf s.active).failures s.active m)
    else match s.planBytes with
      | none => s.fail n.val cplBADARG
      | some b =>
        let m := if mode = 0xFF then byteNum b 5 1 else mode
        s.answerCheck n.val ((byteNum b 6 1).testBit 0) (imageFailures b s.active m)

/-- R196. -/
def execPlanCommit (n : Lb) (s : State) : Host.Outcome State Fault Refusal :=
  s.command n.val 0x0303 (commitNeed (s.lb n.val)) fun L s =>
    if s.adoptDenied L then s.fail n.val cplDENIED
    else match s.planBytes with
      | none => s.fail n.val cplBADARG
      | some b =>
        let mode := s.modeAfter
        if verdict ((byteNum b 6 1).testBit 0) (imageFailures b s.active mode) = 2 then s.fail n.val cplREJECTED
        else match s.sessionFor (s.lbPath n.val) with
          | none => s.fail n.val cplBUSY
          | some s => (s.stagePlan (planFor b s.active mode)).runCommit n.val L (some (byteNum b 16 4))

/-- R195. -/
def execPlanGet (n : Lb) (s : State) : Host.Outcome State Fault Refusal :=
  s.command n.val 0x0304 2 fun L s =>
    let i := L.arg 0 2
    let b := planImage s.active s.mode s.planId
    if 14 ≤ i then s.fail n.val cplBADARG
    else
      let c := (b.drop (240 * i)).take 240
      s.done n.val (leBytes 2 14 ++ leBytes 2 c.length ++ leBytes 4 0 ++ c)

/-! ### PORT -/

/-- R195: the arguments of PORT.SET, when they are in range. -/
def portArgs (L : LbSt) : Option (Nat × PlanPort) :=
  let p := L.arg 0 1
  let f := L.arg 1 1
  let g := (L.arg 5 2 + 1) / 2
  if 63 < p ∨ 8 ≤ f ∨ L.arg 2 1 = 0 ∨ 16 < L.arg 2 1 ∨ L.arg 3 2 = 0 ∨ 512 < L.arg 3 2 ∨ 3584 < L.arg 5 2 ∨ L.arg 7 1 = 0 ∨ 0x1FF < L.arg 8 2 then none
  else some (p, {
    enable := f.testBit 0, rt := f.testBit 1, mgmt := f.testBit 2
    weight := L.arg 2 1, limit := L.arg 3 2, budget := L.arg 7 1, ops := L.arg 8 2
    g := (List.range 32).map fun c => spread g p c
    quotas := [L.arg 10 1, L.arg 11 1, L.arg 12 1, L.arg 13 1] })

/-- R195, R196. -/
def execPortSet (n : Lb) (s : State) : Host.Outcome State Fault Refusal :=
  s.command n.val 0x0401 14 fun L s =>
    match portArgs L with
    | none => s.fail n.val cplBADARG
    | some (p, x) =>
      match s.sessionFor (s.lbPath n.val) with
      | none => s.fail n.val cplBUSY
      | some s => (s.stagePort p x).done n.val []

/-- The value that PRT_STATUS reads. -/
def State.prtStatus (s : State) (p : Nat) : Nat :=
  match lookupReg (R.PRT_STATUS p) with | some h => (s.regValue h).toNat | none => 0

/-- R195. -/
def execPortGet (n : Lb) (s : State) : Host.Outcome State Fault Refusal :=
  s.command n.val 0x0402 1 fun L s =>
    let p := L.arg 0 1
    match (planOf s.active).ports[p]? with
    | none => s.fail n.val cplBADARG
    | some x => s.done n.val (portRecord x ++ leBytes 4 (s.prtStatus p))

/-- R514: the reset of a port begins; its commit point is the next boundary. -/
def execPortReset (n : Lb) (s : State) : Host.Outcome State Fault Refusal :=
  s.command n.val 0x0403 1 fun L s =>
    let p := L.arg 0 1
    if 63 < p then s.fail n.val cplBADARG
    else if s.pwr.resets.any fun r => r.port == p then s.fail n.val cplBUSY
    else { s with pwr := { s.pwr with resets := s.pwr.resets ++ ([⟨p, n.val, false, false⟩] : List PortReset) } }.begin n.val false 0

/-- R514 steps 1 and 2: the requests of the port accepted so far will have their responses discarded; those answered are
done with; carry fixed for epochs not yet begun is cancelled. -/
def State.resetPort (s : State) (r : PortReset) : State :=
  let p := r.port
  let kept := s.reqs.filter fun (q : Req) => !(q.port == p && q.answer.isSome && q.data.length == q.need)
  let reqs := kept.map fun (q : Req) => if q.port = p then { q with discard := true } else q
  let lapses := s.gate.budget.filter fun (e : Nat × Budget) => e.1 % 64 == p && decide (slotKey (s.epoch + 1) 0 0 ≤ e.1)
  let budget := lapses.foldl (fun t e => Tab.set (fun _ => {}) t e.1 { e.2 with k := 0 }) s.gate.budget
  let s := s.modLink (p / 4) fun L => { L with out := L.out.filter fun f => match f.resp with | some k => k.1 != p | none => true }
  let s := { s with reqs := reqs, sentTags := s.sentTags.filter fun t => t.1 != p, gate := { s.gate with budget := budget } }
  (s.modLb r.lb fun L => { L with committed := true }).inc F.PWR_CNT_PRST_count

/-- R514 step 1: the commit point of every reset that waits for one. -/
def execPortResetCommit (s : State) : Host.Outcome State Fault Refusal :=
  if !s.atBoundary then .next s
  else
    let due := s.pwr.resets.filter fun r => !r.committed
    let s := { s with pwr := { s.pwr with resets := s.pwr.resets.map fun r => { r with committed := true } } }
    .next (due.foldl State.resetPort s).finishResets

/-! ### ZONE -/

/-- R144. -/
def execZoneSet (n : Lb) (s : State) : Host.Outcome State Fault Refusal :=
  s.command n.val 0x0501 2 fun L s =>
    let z := L.arg 0 1
    let o := L.arg 1 1
    if 23 < z ∨ 3 < o then s.fail n.val cplBADARG
    else match s.sessionFor (s.lbPath n.val) with
      | none => s.fail n.val cplBUSY
      | some s => (s.setStagedF (F.MAP_ZONE_order z) o).done n.val []

/-- R144. -/
def execZoneGet (n : Lb) (s : State) : Host.Outcome State Fault Refusal :=
  s.command n.val 0x0502 0 fun L s =>
    let orders := (List.range 24).flatMap fun z => leBytes 1 (s.fv (F.MAP_ZONE_order z))
    let at_ : List Byte :=
      if L.args.length < 5 then []
      else
        let a := L.arg 0 5
        if dramTop ≤ a then leBytes 6 1
        else
          let l := dramLoc s.active a
          leBytes 1 0 ++ leBytes 1 l.ch ++ leBytes 1 l.bank ++ leBytes 2 l.row ++ leBytes 1 l.col
    s.done n.val (orders ++ at_)

end Sys2Proof.Machine
end

