-- ==== Sys2Proof/Machine/Thermal.lean ====
section
/-! DEFINITION. The Chimney (12_chimney_and_calibration.md): the housekeeping round (R367-R369), the diodes and
weathervane groups (R370-R374), the governing temperatures and their thresholds (R373-R378), the power governor (R494),
the shutdown (R380) and the THERM commands (R388). Calibration is in `Calibrate.lean`. -/

namespace Sys2Proof.Machine

/-! ### Temperatures (R366) -/

/-- Whole degrees in 1/16 °C. -/
def degC (n : Nat) : Int := 16 * n

/-- The highest of a list, when there is one. -/
def maxInt? : List Int → Option Int
  | [] => none
  | t :: ts => some (ts.foldl max t)

/-! ### Configuration as it acts (R390) -/

def State.relaxMax (s : State) : Int := degC (clampTo 30 65 (s.fv F.THM_THRESH_relax_max))
def State.hotRef (s : State) : Int := degC (clampTo 70 85 (s.fv F.THM_THRESH_hot_ref))
def State.throttleAt (s : State) : Int := degC (clampTo 80 105 (s.fv F.THM_THRESH_throttle))
def State.throttle2At (s : State) : Int := s.throttleAt + degC (max 1 (s.fv F.THM_THROT_step2))
def State.warnAt (s : State) : Int := degC (clampTo 60 110 (s.fv F.THM_THRESH_warn))
def State.suspectDev (s : State) : Int := degC (max 2 (s.fv F.THM_SUSPECT_dev))
def State.dtCal (s : State) : Int := degC (clampTo 2 20 (s.fv F.THM_CAL_dtcal))
def State.diodeMasked (s : State) (i : Nat) : Bool := (s.fv (F.THM_DIODE_MASK_mask (i / 32))).testBit (i % 32)

/-! ### Weathervanes (R372, R374) -/

/-- The groups of a die that contribute: fresh and reliable. -/
def State.wvOf (s : State) (d : Nat) : List WvGroup :=
  [s.wvGroup (2 * d), s.wvGroup (2 * d + 1)].filter fun w => w.fresh && !w.unreliable

/-- R372: the weathervane estimate *W* of a die. -/
def State.wvEst (s : State) (d : Nat) : Option Int := maxInt? (((s.wvOf d).filter fun w => !w.below).map (·.est))

/-- R378: *W* counts while the weathervanes are measured. -/
def State.wvNow (s : State) (d : Nat) : Option Int := if s.mode = 4 then none else s.wvEst d

/-- R371, R374: what the diodes of a die read: a broken one the throttle threshold plus 10 °C, a masked one nothing. -/
def State.dieReadings (s : State) (d : Nat) : List Int :=
  ((List.range 4).map (4 * d + ·)).filterMap fun i =>
    if s.fv (F.THM_DIODE_state i) = 4 ∨ s.diodeMasked i then none
    else if s.fv (F.THM_DIODE_state i) = 3 then some (s.throttleAt + degC 10) else some (tempInt (s.fv (F.THM_DIODE_temp i)))

/-- THM_WVEST of a die. -/
def State.showWv (s : State) (d : Nat) : State :=
  let s := s.setF (F.THM_WVEST_unreliable d) (if (s.wvGroup (2 * d)).unreliable && (s.wvGroup (2 * d + 1)).unreliable then 1 else 0)
  let s := s.setF (F.THM_WVEST_fresh d) (if (s.wvOf d).isEmpty then 0 else 1)
  match s.wvEst d with
  | some w => (s.setF (F.THM_WVEST_w d) (tempBits w)).setF (F.THM_WVEST_below d) 0
  | none => s.setF (F.THM_WVEST_below d) (if (s.wvOf d).isEmpty then 0 else 1)

/-- R372, R374: a group is read, after its last burst where the tile plans; no reading stands for a count of 0, below the curve's range. The read of riser training is
the baseline, against the mean of the die's diodes. With `tie` it completes as the estimate's freshness expires (R389). -/
def execWeathervaneRead (g : Fin 32) (reading : Option (BitVec 16)) (tie : Bool) (s : State) : Host.Outcome State Fault Refusal :=
  let d := g.val / 2
  let old := s.wvGroup g.val
  if !s.fb F.THM_CTL_wv_en || s.mode == 4 || s.halted || decide (s.pwr.phase < 4) || (s.planning g.val && decide (old.reads < 256)) then .next s
  else
    let est := match reading with | some r => tempInt r.toNat | none => old.est
    let ts := s.dieReadings d
    let off := s.pwr.phase == 4 && reading.isSome && !ts.isEmpty && decide (ts.length * s.suspectDev < ((ts.length * est - ts.sum).natAbs : Int))
    let s := s.when (tie && old.fresh) fun s => s.inc F.THM_CNT_NEARMISS_count
    let s := s.when off fun s => s.raise (Src.thermal 6) 0
    -- the groups of a die start half a hold apart
    let start := s.epoch + if s.pwr.phase = 4 ∧ g.val % 2 = 1 then epochsOfMs s.wvHold / 2 else 0
    let s := s.setWv g.val
      { old with est, readAt := s.epoch, fresh := true, below := reading.isNone, unreliable := old.unreliable || off, start, writes := 0, reads := 0 }
    let fresh := !(s.wvOf d).isEmpty
    let stale := if fresh then s.thm.staleRaised.filter (· ≠ d) else s.thm.staleRaised
    .next ({ s with thm := { s.thm with staleRaised := stale } }.showWv d)

/-- R372: 4 × hold after its read an estimate is no longer fresh. -/
def execWeathervaneFreshnessExpiry (g : Fin 32) (s : State) : Host.Outcome State Fault Refusal :=
  let w := s.wvGroup g.val
  if w.fresh && decide (w.readAt + epochsOfMs (4 * s.wvHold) ≤ s.epoch) then
    .next ((s.setWv g.val { w with fresh := false }).showWv (g.val / 2))
  else .next s

/-- R374: the *W* of a die has not been fresh for 16 × hold. -/
def execWeathervaneStale (d : Fin 16) (s : State) : Host.Outcome State Fault Refusal :=
  let last := max (s.wvGroup (2 * d.val)).readAt (s.wvGroup (2 * d.val + 1)).readAt
  if (s.wvOf d.val).isEmpty && !s.thm.staleRaised.contains d.val && decide (last + epochsOfMs (20 * s.wvHold) ≤ s.epoch) then
    .next ({ s with thm := { s.thm with staleRaised := s.thm.staleRaised ++ [d.val] } }.raise (Src.thermal 7) 0)
  else .next s

/-! ### Publishing a round (R367-R369) -/

/-- The window register and the nominal voltage in mV of a monitor (R367, R504); 38 and 39 have no stated nominal. -/
def monitorRail (j : Nat) : Nat × Nat :=
  if j < 2 then (0, 1200) else if j < 14 then (1, 700) else if j < 18 then (2, 750) else if j < 26 then (3, 500)
  else if j < 34 then (4, 1000) else if j < 38 then (5, 1800) else (6, Config.monitorNominal j)

/-- R369: a monitor's reading, and its change into or out of the window. -/
def State.publishVolt (s : State) (j mv : Nat) : State :=
  let (w, nom) := monitorRail j
  let high := decide (nom * (400 + s.fv (F.HKP_VWIN_high w)) < 400 * mv)
  let low := decide (400 * mv + nom * s.fv (F.HKP_VWIN_low w) < 400 * nom)
  let was := s.fb (F.HKP_VOLT_high j) || s.fb (F.HKP_VOLT_low j)
  let b (c : Bool) : Nat := if c then 1 else 0
  let s := ((s.setF (F.HKP_VOLT_mv j) mv).setF (F.HKP_VOLT_high j) (b high)).setF (F.HKP_VOLT_low j) (b low)
  if was == (high || low) then s
  else
    let s := s.event 0x0A04 [(12, 1, j), (13, 1, if low then 1 else if high then 2 else 0), (14, 2, mv)]
    (s.when (high || low) fun s => s.inc F.HKP_CNT_VOUT_count).raise (Src.thermal 8) 0

/-- R368: the samples of a converter's checks of this round: of its references, and of its shorted inputs (R367). -/
def State.checkCodes (s : State) (b : Bool) (lo n : Nat) : List Nat :=
  (List.range n).map fun k => s.fv (F.HKP_SAMPLE_code (lo + 2 * k + if b then 1 else 0))

/-- R368: a converter fails its check: its readings of the references depart by more than 0.2 %, or its offsets leave their
range. A check that has not been sampled finds nothing. -/
def State.convFails (s : State) (b : Bool) : Bool :=
  ((List.range 12).all fun k => s.fb (F.HKP_SAMPLE_valid (168 + 2 * k + if b then 1 else 0))) &&
    (decide (20 < Config.refDeparture b (s.checkCodes b 168 8)) || !Config.offsetsInRange (s.sectGood 3 0) b (s.checkCodes b 184 4))

/-- R368: the converters' checks. -/
def State.publishConverters (s : State) (a b : Bool) : State :=
  let new := (if a && !s.fb F.HKP_STATUS_a_failed then 1 else 0) + (if b && !s.fb F.HKP_STATUS_b_failed then 1 else 0)
  let conv := s.fv F.HKP_CTL_conv
  let useA := !a && (conv != 2 || b)
  let useB := !b && (conv != 1 || a)
  let s := (s.setF F.HKP_STATUS_a_failed (if a then 1 else 0)).setF F.HKP_STATUS_b_failed (if b then 1 else 0)
  let s := s.setF F.HKP_STATUS_slow (if useA != useB then 1 else 0)
  s.when (decide (0 < new)) fun s => (s.addF F.HKP_CNT_CONVFAIL_count new).raise (Src.thermal 9) 0

/-- R381: compensation tables that clip. -/
def State.publishClips (s : State) (n : Nat) : State :=
  let s := s.setF F.HKP_STATUS_comp_clip (if n = 0 then 0 else 1)
  s.when (decide (0 < n)) fun s => (s.addF F.HKP_CNT_COMPCLIP_count n).raise (Src.thermal 10) 0

/-- The voltage in 10 mV of the rail of a current-sense channel (R367, R494). -/
def senseVolts (k : Nat) : Nat := if k < 4 then 70 else if k < 8 then 75 else if k < 12 then 50 else if k < 20 then 100 else 180

/-- R494: the draw in 10 mW, and the governor. -/
def State.publishDraw (s : State) : State :=
  let draw := ((List.range 24).map fun k => s.fv (F.HKP_CUR_current k) * senseVolts k).sum / 100
  let limit := 100 * max 1 (s.fv F.PWR_CAP_limit)
  let runs := s.mode == 1 || (s.fb F.PWR_CTL_gov_all && (s.mode == 0 || s.mode == 2 || s.mode == 5))
  let on := runs && (decide (limit < draw) || (s.fb F.PWR_STATUS_gov_active && decide (limit < draw + 400)))
  (s.setF F.PWR_STATUS_draw (min draw 0xFFFF)).setF F.PWR_STATUS_gov_active (if on then 1 else 0)

/-! ### Diodes (R370, R371) -/

/-- The diodes of a thermal unit. -/
def unitDiodes (u : Nat) : List Nat :=
  if u < 16 then (List.range 4).map (4 * u + ·)
  else if u < 20 then (List.range 6).map (64 + 6 * (u - 16) + ·)
  else (List.range 4).map (88 + 4 * (u - 20) + ·)

/-- The unit of a diode. -/
def diodeUnit (i : Nat) : Nat := if i < 64 then i / 4 else if i < 88 then 16 + (i - 64) / 6 else 20 + (i - 88) / 4

/-- R370: the neighbours of a diode. -/
def diodeNeighbours (i : Nat) : List Nat :=
  let tier := (unitDiodes (diodeUnit i)).filter (· ≠ i)
  if i < 64 then tier ++ (if 4 ≤ i then [i - 4] else []) ++ (if i < 60 then [i + 4] else []) else tier ++ [if i < 88 then 88 + (Config.nearLarder i).val else 64 + (Config.nearPlinth i).val]

/-- What R370 and R371 find of a diode: its state code, the prediction, and its consecutive rejections. -/
structure Judged where
  code : Nat
  pred : Int
  rejects : Nat
deriving DecidableEq, Repr

/-- R370, R371: a diode at the end of the round; `s` holds the readings of this round and the states of the one before. -/
def State.judge (s : State) (i : Nat) : Judged :=
  let t (k : Nat) : Int := tempInt (s.fv (F.THM_DIODE_temp k))
  let ns := (diodeNeighbours i).filter fun k => decide (s.fv (F.THM_DIODE_state k) < 2)
  let sum := (ns.map t).sum
  let n : Int := ns.length
  let pred := if ns.isEmpty then t i else sum / n + Config.siteOffset (s.sectGood 3 0) i
  let rej := natGet s.thm.rejects i
  let code := s.fv (F.HKP_SAMPLE_code i)
  let rail := s.fb (F.HKP_SAMPLE_valid i) && (code == 0 || code == 0xFFFFFF)
  let close := ns.isEmpty || decide (((n * (t i - Config.siteOffset (s.sectGood 3 0) i) - sum).natAbs : Int) ≤ n * s.suspectDev)
  let byW := decide (i < 64) && (match s.wvNow (i / 4) with | some w => decide (((t i - w).natAbs : Int) ≤ s.suspectDev) | none => false)
  if s.diodeMasked i then ⟨4, pred, 0⟩
  else if s.thm.broken.contains i || rail || (s.fb F.HKP_STATUS_a_failed && s.fb F.HKP_STATUS_b_failed) then ⟨3, pred, 0⟩
  else if close then ⟨0, pred, 0⟩
  else if byW then ⟨1, pred, 0⟩
  else if max 1 (s.fv F.THM_SUSPECT_broken_rounds) ≤ rej + 1 then ⟨3, pred, rej + 1⟩
  else ⟨2, pred, rej + 1⟩

/-- A diode's state changes to what was found. -/
def State.noteDiode (s : State) (i : Nat) (j : Judged) : State :=
  let rejected := decide (natGet s.thm.rejects i < j.rejects)
  let sticky := j.code == 3 && !(s.fb F.HKP_STATUS_a_failed && s.fb F.HKP_STATUS_b_failed)
  let newly := j.code == 3 && s.fv (F.THM_DIODE_state i) != 3
  let w := if i < 64 then (match s.wvNow (i / 4) with | some w => tempBits w | none => 0x8000) else 0x8000
  let s := s.when rejected fun s => ((s.inc F.THM_CNT_SUSPECT_count).raise (Src.thermal 2) i).event 0x0A02
    [(12, 1, i), (13, 1, j.code), (14, 2, s.fv (F.THM_DIODE_temp i)), (16, 2, tempBits j.pred), (18, 2, w)]
  let s := s.when newly fun s => (s.inc F.THM_CNT_BROKEN_count).raise (Src.thermal 3) i
  let broken := if sticky && !s.thm.broken.contains i then s.thm.broken ++ [i] else s.thm.broken
  { s with thm := { s.thm with rejects := natSet s.thm.rejects i j.rejects, broken := broken } }.setF (F.THM_DIODE_state i) j.code

/-! ### Governing temperatures and thresholds (R373-R378) -/

/-- What R373 finds of a unit. -/
structure Governed where
  temp : Int
  blind : Bool
  broken : Bool
  byW : Bool
  /-- *W* exceeds the highest accepted diode by more than dev. -/
  wvOver : Bool
deriving DecidableEq, Repr

/-- R373, R378. -/
def State.govern (s : State) (u : Nat) : Governed :=
  let ds := unitDiodes u
  let acc := maxInt? ((ds.filter fun i => decide (s.fv (F.THM_DIODE_state i) ≤ 1)).map fun i => tempInt (s.fv (F.THM_DIODE_temp i)))
  let broken := ds.any fun i => s.fv (F.THM_DIODE_state i) == 3
  let w := if u < 16 then s.wvNow u else none
  let hot := s.throttleAt + degC 10
  match maxInt? (acc.toList ++ (if broken then [hot] else [])), w with
  | none, none => ⟨hot, true, false, false, false⟩
  | none, some w => ⟨w, false, false, true, false⟩
  | some t, none => ⟨t, false, broken, false, false⟩
  | some t, some w =>
    ⟨max t w, false, broken, decide (t < w), match acc with | some a => decide (a + s.suspectDev < w) | none => false⟩

/-- R375: a threshold state: reached above it, and left when the temperature has stayed 3 °C below it for a round. -/
def holds (thr : Int) (was : Bool) (before now : Int) : Bool :=
  decide (thr < now) || (was && !(decide (before ≤ thr - degC 3) && decide (now ≤ thr - degC 3)))

/-- R378, R428, R512: the dies are in self-refresh, which the Chimney sets by the diodes alone. -/
def State.selfRefreshing (s : State) : Bool := s.mode == 4 || s.halted || s.pwr.inReset

/-- R377: whether the conditions of relaxed refresh hold for a die, at a limit. -/
def State.mayRelax (s : State) (d : Nat) (g : Governed) (limit : Int) : Bool :=
  s.fb F.THM_CTL_relax_en && decide (g.temp ≤ limit) && !g.blind && !g.broken && (s.selfRefreshing ||
    (!(s.wvGroup (2 * d)).unreliable && !(s.wvGroup (2 * d + 1)).unreliable && !(s.wvOf d).isEmpty))

/-- R377, R378: the permission of a die for relaxed refresh at the end of a round. -/
def State.relaxOk (s : State) (d : Nat) (g : Governed) : Bool :=
  if s.selfRefreshing then s.thm.relaxRet.contains d && s.mayRelax d g s.relaxMax
  else s.mayRelax d g s.relaxMax && (s.fb (F.THM_UNIT_relax_ok d) ||
    (s.thm.relaxWas.contains d && s.mayRelax d g (s.relaxMax - degC 3)))

/-- R373-R378: a unit at the end of a round. -/
def State.governUnit (s : State) (u : Nat) : State :=
  let g := s.govern u
  let before := tempInt (s.fv (F.THM_UNIT_temp u))
  let was := (s.live.val (R.THM_UNIT u)).field 16 8
  let lvl := s.fv (F.THM_UNIT_throttle u)
  let hot := decide (u < 16) && holds s.hotRef (s.fb (F.THM_UNIT_hot u)) before g.temp
  let warn := holds s.warnAt (s.fb (F.THM_UNIT_warn u)) before g.temp
  let level := if holds s.throttle2At (lvl == 2) before g.temp then 2 else if holds s.throttleAt (decide (1 ≤ lvl)) before g.temp then 1 else 0
  let relax := decide (u < 16) && s.relaxOk u g
  let was3 := decide (u < 16) && !s.selfRefreshing && s.mayRelax u g (s.relaxMax - degC 3)
  let b (c : Bool) : Nat := if c then 1 else 0
  let warned := warn && !s.fb (F.THM_UNIT_warn u)
  let blinded := g.blind && !s.fb (F.THM_UNIT_blind u)
  let s := (((s.setF (F.THM_UNIT_blind u) (b g.blind)).setF (F.THM_UNIT_broken u) (b g.broken)).setF (F.THM_UNIT_wv_gov u) (b g.byW)).setF
    (F.THM_UNIT_throttle u) level
  let s := (((s.setF (F.THM_UNIT_warn u) (b warn)).setF (F.THM_UNIT_relax_ok u) (b relax)).setF (F.THM_UNIT_hot u) (b hot)).setF
    (F.THM_UNIT_temp u) (tempBits g.temp)
  let rw := s.thm.relaxWas.filter (· ≠ u)
  let relaxWas := if was3 then rw ++ [u] else rw
  let relaxRet := if s.selfRefreshing ∧ u < 16 ∧ !relax then s.thm.relaxRet.filter (· ≠ u) else s.thm.relaxRet
  let s := { s with thm := { s.thm with relaxWas := relaxWas, relaxRet := relaxRet } }
  let s := s.when warned fun s => (s.inc F.THM_CNT_WARN_count).raise (Src.thermal 0) 0
  let s := s.when (decide (lvl < level)) fun s => (s.inc F.THM_CNT_THROT_count).raise (Src.thermal 1) 0
  let s := s.when blinded fun s => s.raise (Src.thermal 4) 0
  let s := s.when g.wvOver fun s => (s.inc F.THM_CNT_WVOVER_count).raise (Src.thermal 5) 0
  let now := (s.live.val (R.THM_UNIT u)).field 16 8
  s.when (was != now) fun s => s.event 0x0A01 [(12, 1, u), (13, 2, tempBits g.temp), (15, 1, now)]

/-- R381: compensation follows the temperatures of the round. -/
def State.compensate (s : State) : State :=
  let step (t : Int) : Int := t / degC 4
  let unit (u : Nat) : Int := step (tempInt (s.fv (F.THM_UNIT_temp u)))
  let aon := step (tempInt (s.fv (F.THM_DIODE_temp (64 + (Config.nearPlinth 104).val))))
  { s with thm := { s.thm with comp := (List.range 16).map unit ++ [aon] ++ (List.range 4).map fun q => unit (16 + q) } }

/-- R367: what a round has measured is published. -/
def State.publishRound (s : State) (o : RoundObs) : State :=
  let s := o.codes.foldl (fun (s : State) x =>
    (s.setF (F.HKP_SAMPLE_code x.1.val) x.2.toNat).setF (F.HKP_SAMPLE_valid x.1.val) 1) s
  let s := o.volts.foldl (fun (s : State) x => s.publishVolt x.1.val x.2.toNat) s
  let s := o.currents.foldl (fun (s : State) x => s.setF (F.HKP_CUR_current x.1.val) x.2.toNat) s
  let s := (s.publishConverters (s.convFails false) (s.convFails true)).publishClips o.clips
  let s := o.temps.foldl (fun (s : State) x => s.setF (F.THM_DIODE_temp x.1.val) x.2.toNat) s
  s.setF F.HKP_ROUND_round ((s.fv F.HKP_ROUND_round + 1) % 2 ^ 32)

/-- R370-R378: the Chimney judges the diodes, all against the states of the round before, and governs the units. -/
def State.judgeRound (s : State) : State :=
  let js := (List.range 104).map fun i => (i, s.judge i)
  let s := js.foldl (fun (s : State) x => s.noteDiode x.1 x.2) s
  let s := ((List.range 24).foldl State.governUnit s).compensate
  s.when s.selfRefreshing State.setWindows

/-! ### Shutdown (R380) -/

/-- R379, R380: a comparator trips on tier 0-15 a die, 16 the Plinth, 17 the Larder tier. -/
def execThermalShutdown (tier : Fin 18) (s : State) : Host.Outcome State Fault Refusal :=
  if s.fb F.THM_SHUT_tripped then .next s
  else
    .next (((s.setF F.THM_SHUT_tier tier.val).setF F.THM_SHUT_tripped 1).raise (Src.thermal 14) 0)

/-! ### THERM.GET and THERM.SET (R388) -/

def execThermGet (n : Lb) (s : State) : Host.Outcome State Fault Refusal :=
  s.command n.val 0x0901 0 fun _ s =>
    s.done n.val ((List.range 24).flatMap (fun u => leBytes 2 (s.fv (F.THM_UNIT_temp u))) ++
      (List.range 24).flatMap (fun u => leBytes 1 ((s.live.val (R.THM_UNIT u)).field 16 8)) ++
      leBytes 4 (s.fv F.HKP_ROUND_round) ++
      leBytes 1 ((if s.thermLow then 1 else 0) + (if s.fb F.HKP_STATUS_slow then 2 else 0)) ++ leBytes 1 0)

/-- R388: the arguments of THERM.SET are in range. -/
def thermArgsOk (L : LbSt) : Bool :=
  let a (k : Nat) : Nat := L.arg k 1
  let in_ (k lo hi : Nat) : Bool := decide (lo ≤ a k) && decide (a k ≤ hi)
  in_ 0 60 110 && in_ 1 80 105 && in_ 2 70 85 && in_ 3 30 65 && in_ 4 1 255 && in_ 5 1 255 && in_ 6 1 15 && a 7 == 0 &&
    (in_ 8 0 103 || a 8 == 0xFF) && in_ 9 0 1

def execThermSet (n : Lb) (s : State) : Host.Outcome State Fault Refusal :=
  s.command n.val 0x0902 10 fun L s =>
    let a (k : Nat) : Nat := L.arg k 1
    if !thermArgsOk L then s.fail n.val cplBADARG
    else match s.sessionFor (s.lbPath n.val) with
      | none => s.fail n.val cplBUSY
      | some s =>
        let s := (((s.setStagedF F.THM_THRESH_warn (a 0)).setStagedF F.THM_THRESH_throttle (a 1)).setStagedF F.THM_THRESH_hot_ref (a 2)).setStagedF
          F.THM_THRESH_relax_max (a 3)
        let s := ((s.setStagedF F.THM_THROT_cap1 (a 4)).setStagedF F.THM_THROT_cap2 (a 5)).setStagedF F.THM_THROT_step2 (a 6)
        let f := F.THM_DIODE_MASK_mask (a 8 / 32)
        let m := s.stagedF f
        let bit := 1 <<< (a 8 % 32)
        let m := if a 9 = 1 then m ||| bit else if m.testBit (a 8 % 32) then m - bit else m
        (if a 8 = 0xFF then s else s.setStagedF f m).done n.val []

end Sys2Proof.Machine
end

