-- ==== Sys2Proof/Machine/Calibrate.lean ====
section
/-! DEFINITION. Riser calibration (R382-R387) and its commands (R388), the end of a housekeeping round (R367), and the move
of a channel onto the spare riser (R344), which may displace a calibration or a test. -/

namespace Sys2Proof.Machine

/-! ### Outcomes (R388) -/

def calDone : Nat := 0
def calReduced : Nat := 1
def calFailed : Nat := 2
def calAbandoned : Nat := 3
def calNotRun : Nat := 4

/-- R382: the region temperature of a riser; `d` is the die for the spare riser. -/
def State.regionTemp (s : State) (r d : Nat) : Int :=
  let t (u : Nat) : Int := tempInt (s.fv (F.THM_UNIT_temp u))
  if r < 32 then max (t (r / 2)) (t (16 + r / 8)) else t d

/-- The key of a riser's last calibration: for the spare riser one per die. -/
def calKey (r d : Nat) : Nat := if r < 32 then r else 33 + d

/-- A temperature that has been recorded, or none. -/
def calTempAt (thm : ThmSt) (k : Nat) : Option Int := let v := natGet thm.calTemp k; if v = 0 then none else some ((v : Int) - 2 ^ 16)

def State.recordTemp (s : State) (r d : Nat) : State :=
  { s with thm := { s.thm with calTemp := natSet s.thm.calTemp (calKey r d) (s.regionTemp r d + 2 ^ 16).toNat } }

/-- THM_CAL_STATUS (R390). -/
def State.showCal (s : State) : State :=
  let run (s : State) : State := match s.thm.cal with
    | some r => (s.setF F.THM_CAL_STATUS_riser r.job.riser).setF F.THM_CAL_STATUS_reduced (if r.chunks then 1 else 0)
    | none => (s.setF F.THM_CAL_STATUS_riser 0x3F).setF F.THM_CAL_STATUS_reduced 0
  (run s).setF F.THM_CAL_STATUS_queued (min 255 s.thm.calQ.length)

/-- R388: a CAL.RUN learns the outcome of one of its calibrations, and completes when it has learned of all. -/
def State.answerAsk (s : State) (job : CalJob) (outcome n : Nat) : State :=
  match (s.thm.asks.find? fun e => e.1 == n) with
  | none => s
  | some (_, a) =>
    let none_ : Nat → Nat := fun _ => 0xFF
    let old := Tab.get none_ a.out job.riser
    let out := Tab.set none_ a.out job.riser (if old = 0xFF then outcome else max old outcome)
    if a.left ≤ 1 then
      { s with thm := { s.thm with asks := Tab.erase n s.thm.asks } }.done n
        ((List.range 33).flatMap fun r => leBytes 1 (Tab.get none_ out r))
    else { s with thm := { s.thm with asks := Tab.insert n ⟨out, a.left - 1⟩ s.thm.asks } }

/-- A calibration has ended, or does not run. -/
def State.calEnded (s : State) (job : CalJob) (outcome : Nat) : State :=
  let r := job.riser
  let s := s.setF (F.THM_CAL_LAST_outcome r) outcome
  let s := if 1 < outcome then s else
    let s := s.recordTemp r job.die
    let last : Int := if r < 32 then s.regionTemp r 0 else
      ((List.range 16).filterMap fun d => calTempAt s.thm (33 + d)).foldl max (s.regionTemp 32 job.die)
    (s.setF (F.THM_CAL_LAST_temp r) (tempBits last)).inc F.THM_CNT_CAL_count
  let s := s.when (outcome == calReduced) fun s => (s.inc F.THM_CNT_CALREDUCED_count).raise (Src.thermal 13) r
  let s := s.when (outcome == calFailed) fun s => (s.inc F.THM_CNT_CALFAIL_count).raise (Src.thermal 11) r
  let s := s.when (outcome == calAbandoned) fun s => (s.inc F.THM_CNT_CALABANDON_count).raise (Src.thermal 12) r
  let s := s.event 0x0A03 [(12, 1, r), (13, 1, if r < 32 then 0xFF else job.die), (14, 1, outcome), (15, 2, tempBits (s.regionTemp r job.die))]
  job.lbs.foldl (fun (s : State) n => s.answerAsk job outcome n) s

/-! ### The queue (R382, R383) -/

/-- Whether two jobs are of the same riser and die. -/
def CalJob.same (a b : CalJob) : Bool := a.riser == b.riser && (decide (a.riser < 32) || a.die == b.die)

/-- A riser is queued; one that is queued or calibrating already is not queued again, and a CAL.RUN then waits for it. -/
def State.queueCal (s : State) (job : CalJob) : State :=
  let T := s.thm
  match T.cal with
  | some r =>
    if r.job.same job then { s with thm := { T with cal := some { r with job := { r.job with lbs := r.job.lbs ++ job.lbs } } } }
    else if T.calQ.any (·.same job) then
      { s with thm := { T with calQ := T.calQ.map fun j => if j.same job then { j with lbs := j.lbs ++ job.lbs } else j } }
    else { s with thm := { T with calQ := T.calQ ++ [job] } }
  | none =>
    if T.calQ.any (·.same job) then
      { s with thm := { T with calQ := T.calQ.map fun j => if j.same job then { j with lbs := j.lbs ++ job.lbs } else j } }
    else { s with thm := { T with calQ := T.calQ ++ [job] } }

/-- The spare riser is held by a failure (R387), or it carries some channel. -/
def State.spareHeld (s : State) : Bool := s.fb F.VRT_SPARE_CARRY_busy && s.fv F.VRT_SPARE_CARRY_reason == 1

/-- R383, R385, R387: how a job runs now: not at all, in reduced form, with a takeover, on the idle spare riser, or it waits. -/
inductive CalWay where
  | notRun
  | reduced
  | takeover
  | idle
  | wait
deriving DecidableEq, Repr

def State.calWay (s : State) (job : CalJob) : CalWay :=
  let d := if job.riser < 32 then job.riser / 2 else job.die
  if s.mode = 4 then .notRun
  else if job.riser < 32 then
    if s.fv (F.VRT_STATUS_vstate job.riser) = 3 then .notRun
    else if s.carrier job.riser == 32 && s.spareHeld then .notRun
    else if s.spareHeld || job.reduced then .reduced
    else if s.fb F.VRT_SPARE_CARRY_busy || !s.bit F.VRT_SPARE_DIES_trained d then .wait
    else .takeover
  else if s.spareHeld then
    if s.fv F.VRT_SPARE_CARRY_channel / 2 = job.die then
      (if s.fv (F.VRT_STATUS_vstate (s.fv F.VRT_SPARE_CARRY_channel)) = 3 then .notRun else .reduced)
    else .notRun
  else if s.fb F.VRT_SPARE_CARRY_busy || !s.bit F.VRT_SPARE_DIES_trained d then .wait
  else .idle

/-- R383: the head of the queue starts, when none runs; jobs that do not run end at once. -/
def calNextLoop : Nat → State → State
  | 0, s => s
  | n + 1, s =>
    match s.thm.cal, s.thm.calQ with
    | none, job :: rest =>
      let pop (s : State) : State := { s with thm := { s.thm with calQ := rest } }
      let start (step : Nat) (takes chunks : Bool) (at_ : Nat) (s : State) : State :=
        { s with thm := { s.thm with calQ := rest, cal := some ⟨job, step, false, false, takes, chunks, at_, [], []⟩ } }
      match s.calWay job with
      | .notRun => calNextLoop n ((pop s).calEnded job calNotRun)
      | .reduced => start 0 false true (s.epoch + 33) s
      | .takeover => start 0 true false s.epoch s
      | .idle => start 1 false false s.epoch s
      | .wait => s
    | _, _ => s

def State.calNext (s : State) : State := (calNextLoop (s.thm.calQ.length + 1) s).showCal

/-- The run ends with an outcome, and the next of the queue starts. -/
def State.calFinish (s : State) (r : CalRun) (outcome : Nat) : State :=
  ({ s with thm := { s.thm with cal := none } }.calEnded r.job outcome).calNext

/-- R385: the lines that mismatched are declared failing. -/
def State.calLines (s : State) (r : CalRun) : State := r.bad.foldl (fun (s : State) l => s.declareFailing r.job.riser l) s

def State.setCal (s : State) (r : CalRun) : State := { s with thm := { s.thm with cal := some r } }

/-- The line numbers of an operand, without repeats, added to those that have mismatched. -/
def CalRun.addBad (r : CalRun) (bad : List (BitVec 8)) : List Nat := (r.bad ++ (bad.map (·.toNat)).filter (decide <| · < 208)).dedup

/-- Trims as register writes. -/
def CalRun.trimWrites (r : CalRun) (ts : List TrimObs) : List (Nat × Word) :=
  ts.map fun x => (trimAddr r.job.riser r.job.die x, x.value.setWidth 32)

/-- R167, R384: what the helpers do in K1 to K3. -/
def State.calHelper (s : State) (r : CalRun) (bad : List (BitVec 8)) (trims : List TrimObs) : State :=
  let swept := (trims.map (·.line.val)).dedup
  match r.step with
  | 1 => s.helperRun r.job.riser (some .prbs15) true dataLines [] swept
  | 2 => s.helperRun r.job.riser none false allLines [] swept
  | 3 => s.helperRun r.job.riser (some .prbs23) false allLines (bad.map (·.toNat)) []
  | _ => s

/-- R384, R385: a step of a calibration with the spare riser completes: `bad` are the lines that mismatched in K3 or K4, and
`trims` what K1 and K2 have found. -/
def execCalStepDone (bad : List (BitVec 8)) (trims : List TrimObs) (s : State) : Host.Outcome State Fault Refusal :=
  let s := if s.halted then s else s.calNext
  match s.thm.cal with
  | none => .next s
  | some r =>
    let c := r.job.riser
    if s.halted || r.chunks then .next s
    else let s := s.calHelper r bad trims
    match r.step with
      | 0 =>
        if !s.atBoundary then .next s
        else if s.spareHeld then .next (s.setCal { r with chunks := true, takes := false, at_ := s.epoch + 32 }).showCal
        else if s.fb F.VRT_SPARE_CARRY_busy then .next s
        else .next ((s.takeSpare c 2).setCal { r with step := 1 })
      | 1 => .next (s.setCal { r with step := 2, trims := r.trims ++ r.trimWrites trims })
      | 2 => .next (s.setCal { r with step := 3, trims := r.trims ++ r.trimWrites trims })
      | 3 =>
        if bad.isEmpty then
          if r.takes then .next (s.setCal { r with step := 4, at_ := if s.atBoundary then s.epoch + 1 else s.epoch + 2 })
          else .next ((s.putTrims r.trims).calFinish r calDone)
        else
          let r := { r with bad := r.addBad bad }
          if !r.again then .next (s.setCal { r with again := true, step := 1, trims := [] })
          else if r.takes then .next (s.setCal { r with failed := true, step := 4, at_ := if s.atBoundary then s.epoch else s.epoch + 1 })
          else .next ((s.calLines r).calFinish r calFailed)
      | _ =>
        if !s.atBoundary || decide (s.epoch < r.at_) then .next s
        else if r.failed then .next ((s.leaveSpare.calLines r).calFinish r calFailed)
        else if bad.isEmpty then .next ((s.putTrims r.trims).leaveSpare.calFinish r calDone)
        else
          let r := { r with bad := r.addBad bad }
          if r.again then .next ((s.leaveSpare.calLines r).calFinish r calFailed)
          else .next (s.setCal { r with again := true, step := 1, trims := [] })

/-- R387: a chunk's trims move at the boundary after it; termination is not swept. The trims that stood before are kept. -/
def State.chunkTrims (s : State) (r : CalRun) (ts : List TrimObs) : State :=
  let ws := (r.trimWrites ts).map fun w => (w.1, w.2.setField 12 6 ((s.live.val w.1).field 12 6))
  let old := (ws.filter fun w => !r.trims.any fun o => o.1 == w.1).map fun w => (w.1, s.live.val w.1)
  (s.putTrims ws).setCal { r with trims := r.trims ++ old }

/-- R387: a chunk of a reduced calibration has run; six sweep and the seventh verifies. -/
def execReducedCalChunk (bad : List (BitVec 8)) (trims : List TrimObs) (s : State) : Host.Outcome State Fault Refusal :=
  let s := if s.halted then s else s.calNext
  match s.thm.cal with
  | none => .next s
  | some r =>
    if s.halted || !r.chunks || !s.atBoundary || decide (s.epoch < r.at_) then .next s
    else let s := s.helperRun r.job.riser (some .prbs7) true allLines (bad.map (·.toNat)) (trims.map (·.line.val)).dedup
    if r.step < 6 then .next (s.chunkTrims { r with step := r.step + 1, at_ := r.at_ + 64 } trims)
    else if bad.isEmpty then .next (s.calFinish r calReduced)
    else
      let s := s.putTrims r.trims
      let r := { r with bad := r.addBad bad, trims := [] }
      if r.again then .next ((s.calLines r).calFinish r calFailed)
      else .next (s.setCal { r with again := true, step := 0, at_ := r.at_ + 64 })

/-- R386: the running calibration is abandoned with its old trims; `requeue` puts its riser back to the head of the queue. -/
def State.abandonCal (s : State) (requeue : Bool) : State :=
  match s.thm.cal with
  | none => s
  | some r =>
    let s := if r.chunks then s.putTrims r.trims else s
    let s := if r.takes && s.fb F.VRT_SPARE_CARRY_busy && s.fv F.VRT_SPARE_CARRY_reason == 2 then s.leaveSpare else s
    let s := { s with thm := { s.thm with cal := none } }.calEnded r.job calAbandoned
    (if requeue then { s with thm := { s.thm with calQ := { r.job with lbs := [] } :: s.thm.calQ } } else s).showCal

/-! ### Triggers (R382) -/

/-- Two temperatures differ by more than dtcal. -/
def State.moved (s : State) (a b : Int) : Bool := decide (s.dtCal < ((a - b).natAbs : Int))

/-- R382: a riser at the end of a round; the first temperature seen is recorded. -/
def State.calTrigger (s : State) (r d : Nat) : State :=
  match calTempAt s.thm (calKey r d) with
  | none => s.recordTemp r d
  | some t =>
    if s.fb F.THM_CAL_auto && s.moved (s.regionTemp r d) t then
      let known := s.thm.calQ.any (·.same ⟨r, d, false, []⟩) || (match s.thm.cal with | some x => x.job.same ⟨r, d, false, []⟩ | none => false)
      if known then s else s.queueCal ⟨r, d, false, []⟩
    else s

/-- R382: crossing tunings of quadrants that have moved. -/
def State.tuneTriggers (s : State) : State :=
  let moved (q : Nat) : Bool := [(q, 16 + q), (4 + q, 20 + q)].any fun k =>
    let v := natGet s.clk.temp k.1
    v != 0 && s.moved (tempInt (s.fv (F.THM_UNIT_temp k.2))) ((v : Int) - 2 ^ 16)
  s.startRetune ((List.range 4).filter moved)

/-- R367: a housekeeping round ends: the Chimney publishes and acts on every result. It goes on in a fatal fault (R428), and
in RETENTION (R378) without calibration. -/
def execHousekeepingRoundEnd (obs : RoundObs) (s : State) : Host.Outcome State Fault Refusal :=
  if !s.pwr.good || s.fb F.THM_SHUT_tripped then .next s
  else
    let s := ((s.publishRound obs).judgeRound).publishDraw
    if s.mode = 4 || s.halted || s.pwr.phase < 5 then .next s
    else
      let s := (List.range 32).foldl (fun (s : State) r => s.calTrigger r 0) s
      let s := (List.range 16).foldl (fun (s : State) d => s.calTrigger 32 d) s
      .next s.tuneTriggers.calNext

/-! ### CAL.RUN and CAL.STATUS (R388) -/

/-- R388. In RETENTION and for a DEGRADED channel the outcome is NOTRUN. -/
def execCalRun (n : Lb) (s : State) : Host.Outcome State Fault Refusal :=
  s.command n.val 0x0A01 3 fun L s =>
    let r := L.arg 0 1
    let d := L.arg 1 1
    let flags := L.arg 2 1
    if (32 < r ∧ r ≠ 0xFF) ∨ (32 ≤ r ∧ 15 < d ∧ d ≠ 0xFF) ∨ 3 < flags then s.fail n.val cplBADARG
    else
      let dies := if d = 0xFF then List.range 16 else [d]
      let reduced := flags.testBit 0
      let own (k : Nat) : CalJob := ⟨k, 0, reduced, [n.val]⟩
      let spare := dies.map fun k => (⟨32, k, reduced, [n.val]⟩ : CalJob)
      let jobs := if r = 0xFF then (List.range 32).map own ++ spare else if r = 32 then spare else [own r]
      let s := s.begin n.val true 0
      let s := if flags.testBit 1 then s.startRetune (List.range 4) else s
      let s := { s with thm := { s.thm with asks := Tab.insert n.val ⟨[], jobs.length⟩ s.thm.asks } }
      (jobs.foldl State.queueCal s).calNext

/-- R388. -/
def execCalStatus (n : Lb) (s : State) : Host.Outcome State Fault Refusal :=
  s.command n.val 0x0A02 0 fun _ s =>
    let riser := s.fv F.THM_CAL_STATUS_riser
    s.done n.val (leBytes 1 (if riser = 0x3F then 0xFF else riser) ++ leBytes 1 (min 255 s.thm.calQ.length) ++
      leBytes 1 ((if s.spareHeld then 1 else 0) + (if s.fb F.THM_CAL_STATUS_reduced then 2 else 0) + (if s.fb F.CLK_STATUS_fallback then 4 else 0)) ++
      leBytes 1 0 ++ (List.range 33).flatMap fun r => leBytes 4 (s.live.val (R.THM_CAL_LAST r)).toNat)

end Sys2Proof.Machine
end

