-- ==== Sys2Proof/Machine/Sha.lean ====
section
/-! DEFINITION. SHAKE256 of FIPS 202, which the spec names for every digest (R443, R444, R463, R469, R470): the permutation
on 25 lanes of 64 bits, the sponge at a rate of 136 bytes, and the first bytes of its output. -/

namespace Sys2Proof.Machine

/-- The 25 lanes; the lane of column x and row y stands at x + 5 y. -/
abbrev Lanes := List (BitVec 64)

def laneAt (a : Lanes) (x y : Nat) : BitVec 64 := a.getD (x % 5 + 5 * (y % 5)) 0

/-- The rotation of each lane. -/
def laneRot : List Nat :=
  [0, 1, 62, 28, 27, 36, 44, 6, 55, 20, 3, 10, 43] ++ [25, 39, 41, 45, 15, 21, 8, 18, 2, 61, 56, 14]

/-- The constant of each round. -/
def roundConst : List (BitVec 64) :=
  [0x0000000000000001, 0x0000000000008082, 0x800000000000808A, 0x8000000080008000, 0x000000000000808B, 0x0000000080000001,
   0x8000000080008081, 0x8000000000008009, 0x000000000000008A, 0x0000000000000088, 0x0000000080008009, 0x000000008000000A] ++
  [0x000000008000808B, 0x800000000000008B, 0x8000000000008089, 0x8000000000008003, 0x8000000000008002, 0x8000000000000080,
   0x000000000000800A, 0x800000008000000A, 0x8000000080008081, 0x8000000000008080, 0x0000000080000001, 0x8000000080008008]

/-- A lane for every position. -/
def lanesOf (f : Nat → Nat → BitVec 64) : Lanes := (List.range 25).map fun k => f (k % 5) (k / 5)

/-- The column parities, spread to the neighbours. -/
def stepTheta (a : Lanes) : Lanes :=
  let c := (List.range 5).map fun x => laneAt a x 0 ^^^ laneAt a x 1 ^^^ laneAt a x 2 ^^^ laneAt a x 3 ^^^ laneAt a x 4
  lanesOf fun x y => laneAt a x y ^^^ c.getD ((x + 4) % 5) 0 ^^^ (c.getD ((x + 1) % 5) 0).rotateLeft 1

/-- Lanes are rotated and moved: the lane of column x and row y goes to column y and row 2 x + 3 y. -/
def stepRhoPi (a : Lanes) : Lanes :=
  lanesOf fun x y => (laneAt a (x + 3 * y) x).rotateLeft (laneRot.getD ((x + 3 * y) % 5 + 5 * x) 0)

/-- The one step that is not linear. -/
def stepChi (a : Lanes) : Lanes :=
  lanesOf fun x y => laneAt a x y ^^^ (~~~(laneAt a (x + 1) y) &&& laneAt a (x + 2) y)

def keccakRound (a : Lanes) (rc : BitVec 64) : Lanes :=
  match stepChi (stepRhoPi (stepTheta a)) with
  | [] => []
  | l :: ls => (l ^^^ rc) :: ls

def keccakF (a : Lanes) : Lanes := roundConst.foldl keccakRound a

/-- A block of 136 bytes is added into the first 17 lanes. -/
def absorb (a : Lanes) (block : List Byte) : Lanes :=
  keccakF ((a.zipIdx).map fun l =>
    if l.2 < 17 then l.1 ^^^ BitVec.ofNat 64 (ofLeBytes ((block.drop (8 * l.2)).take 8)) else l.1)

/-- All blocks, at most `n` of them. -/
def absorbAll : Nat → Lanes → List Byte → Lanes
  | 0, a, _ => a
  | n + 1, a, m => if m.isEmpty then a else absorbAll n (absorb a (m.take 136)) (m.drop 136)

/-- The message with the suffix of SHAKE and the padding, in whole blocks. -/
def shakePad (m : List Byte) : List Byte :=
  let k := 135 - m.length % 136
  if k = 0 then m ++ [0x9F] else m ++ [0x1F] ++ List.replicate (k - 1) 0 ++ [0x80]

/-- The first `n` bytes of SHAKE256, at most 136. -/
def shake256 (m : List Byte) (n : Nat) : List Byte :=
  let p := shakePad m
  let a := absorbAll (p.length / 136) (List.replicate 25 0) p
  ((a.take 17).flatMap fun l => leBytes 8 l.toNat).take n

/-- The digests of the spec: the first 256 bits. -/
def digest (m : List Byte) : List Byte := shake256 m 32

end Sys2Proof.Machine
end

