-- ==== Sys2Proof/Machine/Cornerstone.lean ====
section
/-! DEFINITION. The Cornerstone (15_cornerstone_fuses.md): the layout of the store (R436, R437), reading and resolving it
(R438, R439, R445-R449), burning and finalising (R440-R444), the counters (R452), and the OTP commands (R454). -/

namespace Sys2Proof.Machine

/-! ### Layout (R436, R437) -/

/-- A region: its base, its words, its sections and the data words of each. -/
structure RegionRow where
  base : Nat
  words : Nat
  sections : Nat
  data : Nat
deriving DecidableEq, Repr

def regionRow : Nat → RegionRow
  | 0 => ⟨0, 64, 1, 22⟩
  | 1 => ⟨64, 640, 4, 142⟩
  | 2 => ⟨704, 256, 4, 46⟩
  | 3 => ⟨960, 512, 1, 470⟩
  | 4 => ⟨1472, 64, 1, 22⟩
  | 5 => ⟨1536, 96, 1, 54⟩
  | 6 => ⟨1632, 96, 0, 0⟩
  | _ => ⟨1728, 320, 1, 278⟩

/-- The region word index of the first data word of a section; the count word, eight digest words and the lock word follow
its data words. -/
def sectAt (r k : Nat) : Nat := 32 + k * ((regionRow r).data + 10)
def countAt (r k : Nat) : Nat := sectAt r k + (regionRow r).data
def digestAt (r k : Nat) : Nat := countAt r k + 1
def lockAt (r k : Nat) : Nat := countAt r k + 9

/-! ### Readings (R438) -/

/-- What a word reads at NORMAL, PROG and UNPROG. -/
abbrev Reading := Word × Word × Word
abbrev Fuses := Tab Reading

def readFuse (f : Fuses) (w : Nat) : Reading := Tab.get (fun _ => (0, 0, 0)) f w
def putFuse (f : Fuses) (w : Nat) (x : Reading) : Fuses := Tab.set (fun _ => (0, 0, 0)) f w x

/-- The bits that read 1 at any margin. -/
def anyBits (x : Reading) : Word := x.1 ||| x.2.1 ||| x.2.2

/-- The bits that are not stable. -/
def marginalBits (x : Reading) : Word := (x.1 ^^^ x.2.1) ||| (x.1 ^^^ x.2.2)

/-- The map word of a spare pair, and whether the pair replaces a word, is bad (R446) or is free. -/
def mapWord (f : Fuses) (r i : Nat) : Reading := readFuse f ((regionRow r).base + 2 * i)
def pairBad (f : Fuses) (r i : Nat) : Bool := marginalBits (mapWord f r i) != 0 || (mapWord f r i).1.field 0 16 == 0xFFFF
def pairFree (f : Fuses) (r i : Nat) : Bool := anyBits (mapWord f r i) == 0

/-- The pair that replaces a region word. -/
def pairOf (f : Fuses) (r w : Nat) : Option Nat :=
  (List.range 16).find? fun i => !pairBad f r i && !pairFree f r i && (mapWord f r i).1.field 0 16 == w

/-- The store word that holds a region word's data: its own, or its spare's. -/
def placeOf (f : Fuses) (r w : Nat) : Nat :=
  match pairOf f r w with | some i => (regionRow r).base + 2 * i + 1 | none => (regionRow r).base + w

def readWord (f : Fuses) (r w : Nat) : Reading := readFuse f (placeOf f r w)

/-! ### Resolving a section (R444-R446) -/

/-- Every value that a word may have. -/
def settings (x : Reading) : List Word :=
  (List.range 32).foldl (fun (l : List Word) b =>
    if (marginalBits x).getLsbD b then l ++ l.map fun v => v ||| BitVec.ofNat 32 (2 ^ b) else l) [x.1 &&& ~~~(marginalBits x)]

/-- Every interpretation of the marginal bits of a list of words. -/
def interpretations : List Reading → List (List Word)
  | [] => [[]]
  | x :: xs => (settings x).flatMap fun v => (interpretations xs).map fun l => v :: l

/-- R444: the digest of a section. -/
def sectDigest (r k count : Nat) (ws : List Word) : List Byte :=
  digest (leBytes 1 r ++ leBytes 1 k ++ leBytes 2 count ++ (ws.take count).flatMap fun w => leBytes 4 w.toNat)

/-- A section as read: its state (R445), the marginal bits of its data, its record count and its data words as resolved. -/
structure Sect where
  state : Nat
  marginal : Nat
  count : Nat
  words : List Word
deriving DecidableEq, Repr

/-- R449: the content checks of IDENTITY and KEYS. -/
def contentOk (r count : Nat) (ws : List Word) : Bool :=
  if r = 0 then count == 22
  else if r = 5 then
    let here (k : Nat) : Bool := (ws.getD 0 0).getLsbD k
    (List.range 4).any here && (List.range 4).all fun k => !here k || decide (9 + 8 * k ≤ count)
  else true

/-- The data words of a section as read, the marginal bits of a POLICY field resolved to 0 (R446, R465). -/
def sectData (f : Fuses) (r k : Nat) : List Reading :=
  (List.range (regionRow r).data).map fun j =>
    let x := readWord f r (sectAt r k + j)
    if r = 4 ∧ j = 0 then let v := x.1 &&& ~~~(marginalBits x); (v, v, v) else x

/-- The bits that a list of words could not be read stably in. -/
def marginCount (xs : List Reading) : Nat := (xs.map fun x => popcount 32 (marginalBits x).toNat).sum

/-- How many data words of a section have been burned: up to the last with a bit set or a spare in its place. -/
def burnedData (f : Fuses) (r k : Nat) : Nat :=
  (List.range (regionRow r).data).foldl (fun n j =>
    if anyBits (readFuse f ((regionRow r).base + sectAt r k + j)) != 0 || (pairOf f r (sectAt r k + j)).isSome then j + 1 else n) 0

/-- The digest of a section as read at NORMAL. -/
def readDigest (f : Fuses) (r k : Nat) : List Reading := (List.range 8).map fun j => readWord f r (digestAt r k + j)
def digestBytes (xs : List Reading) : List Byte := xs.flatMap fun x => leBytes 4 x.1.toNat

/-- The bits burned in a count and a digest are among those of the given ones (R443). -/
def withinDigest (c : Reading) (xs : List Reading) (count : Nat) (d : List Byte) : Bool :=
  anyBits c &&& ~~~(BitVec.ofNat 32 count) == 0 &&
  (xs.zipIdx).all fun x => anyBits x.1 &&& ~~~(BitVec.ofNat 32 (ofLeBytes ((d.drop (4 * x.2)).take 4))) == 0

/-- R445: the state of an existing section. -/
def resolveSect (f : Fuses) (r k : Nat) : Sect :=
  let xs := sectData f r k
  let m := marginCount ((List.range (regionRow r).data).map fun j => readWord f r (sectAt r k + j))
  let c := readWord f r (countAt r k)
  let ds := readDigest f r k
  let locked := anyBits (readFuse f ((regionRow r).base + lockAt r k)) != 0
  let plain := xs.map fun x => x.1
  let count := c.1.field 0 16
  let blank := (List.range ((regionRow r).data + 10)).all fun j =>
    anyBits (readFuse f ((regionRow r).base + sectAt r k + j)) == 0 && anyBits (readWord f r (sectAt r k + j)) == 0
  if blank then ⟨0, m, 0, plain⟩
  else if !locked then
    let n := burnedData f r k
    if withinDigest c ds n (sectDigest r k n plain) then ⟨1, m, count, plain⟩ else ⟨7, m, count, plain⟩
  else if ds.all fun x => anyBits x == 0 then ⟨5, m, count, plain⟩
  else if marginalBits c != 0 || ds.any (fun x => marginalBits x != 0) || decide (8 < m) || decide ((regionRow r).data < count) then
    ⟨4, m, count, plain⟩
  else
    match (interpretations xs).filter fun ws => decide (sectDigest r k count ws = digestBytes ds) with
    | [ws] =>
      if contentOk r count ws then ⟨if m = 0 then 2 else 3, m, count, ws⟩ else ⟨6, m, count, ws⟩
    | _ => ⟨4, m, count, plain⟩

/-- The section as OTP.READ and the commands that burn see it now. -/
def State.section_ (s : State) (r k : Nat) : Sect :=
  let x := resolveSect s.cst.fuse r k
  if s.cst.unusable.contains (r, k) then { x with state := 7 } else x

/-- A data word of the image of the last cold start. -/
def State.imageWord (s : State) (r k j : Nat) : Word :=
  Tab.get (fun _ => 0) s.cst.image ((regionRow r).base + sectAt r k + j)

/-! ### Counters (R452) -/

/-- The number of the bits of a counter that read as burned: 0 firmware, 1 recipe set. -/
def State.burnedCount (s : State) (c : Nat) : Nat :=
  ((List.range 8).map fun j => popcount 32 (anyBits (readFuse s.cst.fuse (1632 + 8 * c + j))).toNat).sum

def State.revokedSlots (s : State) : Nat := (anyBits (readFuse s.cst.fuse 1648)).field 0 4

def State.lifeSteps (s : State) : Nat :=
  ((List.range 3).filter fun k => anyBits (readFuse s.cst.fuse (1649 + k)) != 0).length

/-! ### The reading at a cold start (R439, R445-R450) -/

/-- R453: a record is well formed. -/
def recordOk (r : Nat) (w : Word) : Bool :=
  if r = 1 then w.field 30 2 == 1 && decide (w.field 0 16 < userRows)
  else (w.field 30 2 == 1 && w.field 7 18 == 0 && decide (w.field 0 7 < 70)) ||
    (w.field 30 2 == 2 && decide (w.field 24 6 ≤ 32) && w.field 8 16 == 0 && decide (w.field 0 8 < 200))

/-- The records of a repair section that are applied, and how many are skipped (R448, R453). -/
def sectRecords (f : Fuses) (r k : Nat) (x : Sect) : List Word × Nat :=
  if x.state = 2 ∨ x.state = 3 then
    let ws := x.words.take x.count
    let ok := ws.filter (recordOk r)
    (ok, ws.length - ok.length)
  else if x.state = 4 ∨ x.state = 5 then
    let xs := (sectData f r k).filter fun y => anyBits y != 0
    let ok := xs.filter fun y => marginalBits y == 0 && recordOk r y.1
    (ok.map fun y => y.1, xs.length - ok.length)
  else ([], 0)

/-- A word of the store as resolved on its own (R446). -/
def resolveWord (w : Nat) (x : Reading) : Word :=
  if 1632 ≤ w ∧ w < 1728 then anyBits x else x.1

/-- The existing sections. -/
def allSections : List (Nat × Nat) := (List.range 8).flatMap fun r => (List.range (regionRow r).sections).map fun k => (r, k)

def anyCold (l : List (Nat × Sect)) (r : Nat) : Bool := l.any fun x => x.1 == r && decide (4 ≤ x.2.state)

/-- R439: the store is read at the three margins and checked. -/
def State.senseStore (s : State) (f : Fuses) : State :=
  let sects := allSections.map fun a =>
    let x := resolveSect f a.1 a.2
    (a, if s.cst.unusable.contains a then { x with state := 7 } else x)
  let image := sects.foldl (fun (m : Tab Word) a =>
    (a.2.words.zipIdx).foldl (fun m w => Tab.set (fun _ => 0) m ((regionRow a.1.1).base + sectAt a.1.1 a.1.2 + w.2) w.1) m)
    (f.foldl (fun (m : Tab Word) e => Tab.set (fun _ => 0) m e.1 (resolveWord e.1 e.2)) [])
  let recs (r : Nat) : List (List Word × Nat) := (sects.filter fun a => a.1.1 == r).map fun a => sectRecords f r a.1.2 a.2
  let vert := (recs 2).flatMap (·.1)
  let skipped := ((recs 1 ++ recs 2).map (·.2)).sum
  let s := { s with cst := { fuse := f, image := image, dramRecs := (recs 1).flatMap (·.1), unusable := s.cst.unusable
                             vertRecs := (vert.filter fun w => w.field 30 2 == 1) ++ vert.filter fun w => w.field 30 2 != 1 } }
  let s := sects.foldl (fun (s : State) a =>
    let i := 4 * a.1.1 + a.1.2
    ((s.setF (F.CST_SECT_state i) a.2.state).setF (F.CST_SECT_resolved i) (if a.2.state = 3 ∨ a.2.state = 6 then a.2.marginal else 0)).setF
      (F.CST_SECT_count i) a.2.count) s
  let s := (List.range 8).foldl (fun (s : State) r =>
    if (regionRow r).sections = 0 then s else
      (s.setF (F.CST_SPARE_used r) ((List.range 16).filter fun i => !pairFree f r i).length).setF (F.CST_SPARE_bad r)
        ((List.range 16).filter fun i => pairBad f r i).length) s
  let s := ((s.setF F.CST_CTR_FW_value (s.burnedCount 0)).setF F.CST_CTR_RCP_value (s.burnedCount 1)).setF F.CST_CTR_MISC_revoked s.revokedSlots
  let s := (s.setF F.CST_CTR_MISC_lifecycle s.lifeSteps).addF F.CST_CNT_SKIPPED_count skipped
  let bad := sects.map fun a => (a.1.1, a.2)
  let s := s.setF F.CST_STATUS_unverified ((List.range 8).foldl (fun m r => if anyCold bad r then m + 2 ^ r else m) 0)
  let s := (s.setF F.CST_STATUS_marginal (min 255 (f.filter fun e => marginalBits e.2 != 0).length)).setF F.CST_STATUS_sensed 1
  (List.range 8).foldl (fun (s : State) r =>
    let here := sects.filter fun a => a.1.1 == r && decide (4 ≤ a.2.state)
    if here.isEmpty then s else s.raise (Src.unverified r) ((here.map fun a => 2 ^ a.1.2).sum)) s

/-- R449, R450: the device boots LIMITED. -/
def State.bootsLimited (s : State) : Bool :=
  s.lifeSteps != 0 && (!s.sectGood 0 0 || [4, 5, 6, 7].contains (s.fv (F.CST_SECT_state 20)))

/-- R364, R449: the weathervane groups as the TRIM region records them; without a good one every group is unreliable. -/
def State.applyTrim (s : State) : State :=
  (List.finRange 32).foldl (fun (s : State) g =>
    s.setWv g.val (if s.sectGood 3 0 then
        { s.wvGroup g.val with bank := (Config.wvBank g).val, rows := (List.finRange 8).map fun k => 49168 + (Config.wvRow g k).val }
      else { s.wvGroup g.val with unreliable := true })) s

/-- R453: the remaps of the Cornerstone; each takes precedence over a record for the same row or the same spare entry. -/
def State.applyFuseRemaps (s : State) : State :=
  s.cst.dramRecs.foldl (fun (s : State) w =>
    s.modEcc (w.field 25 5) fun e =>
      let b := w.field 20 5
      let other := (List.range 16).foldl (fun (m : Tab Remap) k =>
        let x := Tab.get (fun _ => ({} : Remap)) m (16 * b + k)
        if x.valid && x.row == w.field 0 16 then Tab.set (fun _ => ({} : Remap)) m (16 * b + k) {} else m) e.remap
      { e with remap := Tab.set (fun _ => ({} : Remap)) other (16 * b + w.field 16 4) ⟨true, false, w.field 0 16, 0⟩ }) s

/-! ### Burning (R440-R442) -/

/-- How a run of the pump goes on. -/
inductive BurnEnd where
  | going | noSpare | stopped | cut
deriving DecidableEq, Repr

/-- A run of the pump: the store, the observations left, and what has been done. -/
structure Burn where
  fuse : Fuses
  left : List Reading
  cutIn : Option Nat
  stopAt : Option Nat
  words : Nat := 0
  pulses : Nat := 0
  retries : Nat := 0
  spares : Nat := 0
  ended : BurnEnd := .going
deriving DecidableEq, Repr

def Burn.begin (f : Fuses) (o : BurnObs) : Burn := { fuse := f, left := o.pulses, cutIn := o.cut, stopAt := o.stop }

/-- One pulse on a store word. -/
def Burn.pulse (b : Burn) (w : Nat) (v : Word) : Burn :=
  let old := readFuse b.fuse w
  let x := b.left.headD (old.1 ||| v, old.2.1 ||| v, old.2.2 ||| v)
  { b with
    fuse := putFuse b.fuse w x, left := b.left.tail, pulses := b.pulses + 1
    cutIn := b.cutIn.map (· - 1), ended := if b.cutIn = some 0 then .cut else b.ended }

/-- The strict verify: every bit asked for reads 1 at PROG, and every bit outside `may` reads 0 at UNPROG. -/
def verified (v may : Word) (x : Reading) : Bool := x.2.1 &&& v == v && x.2.2 &&& ~~~may == 0

/-- At most `n` pulses until `ok` holds of the word; whether it does. -/
def pulseLoop (w : Nat) (v : Word) (ok : Reading → Bool) : Nat → Burn → Bool × Burn
  | 0, b => (ok (readFuse b.fuse w), b)
  | n + 1, b =>
    if b.ended = .cut then (false, b)
    else if ok (readFuse b.fuse w) then (true, b)
    else pulseLoop w v ok n (b.pulse w v)

/-- R440: a store word under at most three pulses; a word that needs more than one counts as a retry. -/
def Burn.word (b : Burn) (w : Nat) (v may : Word) : Bool × Burn :=
  let (ok, c) := pulseLoop w v (verified v may) 3 b
  (ok && decide (c.ended ≠ .cut), if b.pulses + 1 < c.pulses then { c with retries := c.retries + 1 } else c)

/-- A spare pair's map word is burned to all ones. -/
def Burn.spoil (b : Burn) (r i : Nat) : Burn := (b.word ((regionRow r).base + 2 * i) 0xFFFF 0xFFFF).2

/-- R440: the lowest free spare pairs, one after another, at most `n`. -/
def spareLoop (r w : Nat) (v : Word) : Nat → Burn → Burn
  | 0, b => { b with ended := .noSpare }
  | n + 1, b =>
    if b.ended = .cut then b
    else match (List.range 16).find? fun i => pairFree b.fuse r i with
      | none => { b with ended := .noSpare }
      | some i =>
        let map := BitVec.ofNat 32 w
        let (ok, b) := { b with spares := b.spares + 1 }.word ((regionRow r).base + 2 * i) map map
        if b.ended = .cut then b
        else if !ok then spareLoop r w v n (b.spoil r i)
        else
          let (ok, b) := b.word ((regionRow r).base + 2 * i + 1) v v
          if ok || b.ended = .cut then b else spareLoop r w v n (b.spoil r i)

/-- R440, R441: a region word. Bits that are set and not asked for call for a spare at once. -/
def Burn.regionWord (b : Burn) (r w : Nat) (v : Word) : Burn :=
  if b.ended ≠ .going then b
  else
    let at_ := placeOf b.fuse r w
    let fits := (readFuse b.fuse at_).1 &&& ~~~v == 0
    let (ok, c) := if fits then b.word at_ v v else (false, b)
    let c := if ok || c.ended = .cut then c
      else spareLoop r w v 16 (match pairOf c.fuse r w with | some i => c.spoil r i | none => c)
    if c.ended = .going then { c with words := c.words + 1 } else c

/-- R442: the device stops after the word it is burning. -/
def Burn.check (b : Burn) (more : Bool) : Burn :=
  if b.ended = .going ∧ more ∧ b.stopAt = some (b.words - 1) then { b with ended := .stopped } else b

/-- Region words in ascending order. -/
def burnWords (r : Nat) : List (Nat × Word) → Burn → Burn
  | [], b => b
  | (w, v) :: rest, b => burnWords r rest ((b.regionWord r w v).check (!rest.isEmpty))

/-- R452: a bit of an anti-rollback counter; it counts when it reads 1 at any margin. Gives whether it counts. -/
def Burn.counterBit (b : Burn) (w i : Nat) : Bool × Burn :=
  let v : Word := BitVec.ofNat 32 (2 ^ i)
  let b := (b.word w v (v ||| anyBits (readFuse b.fuse w))).2
  ((anyBits (readFuse b.fuse w)).getLsbD i, if b.ended = .going then { b with words := b.words + 1 } else b)

/-- R468: counter `c` is raised to `goal`, its bits from `i` on, at most `n` of them. -/
def raiseCounter (c goal : Nat) : Nat → Nat → Burn → Burn
  | 0, _, b => b
  | n + 1, i, b =>
    let count := ((List.range 8).map fun j => popcount 32 (anyBits (readFuse b.fuse (1632 + 8 * c + j))).toNat).sum
    if goal ≤ count ∨ b.ended ≠ .going then b
    else
      let w := 1632 + 8 * c + i / 32
      if (anyBits (readFuse b.fuse w)).getLsbD (i % 32) then raiseCounter c goal n (i + 1) b
      else raiseCounter c goal n (i + 1) ((b.counterBit w (i % 32)).2.check (decide (count + 1 < goal)))

/-- R442: the conditions under which no burn starts. -/
def State.burnBarred (s : State) : Bool :=
  s.mode == 4 ||
  ([34, 35, 36, 37, 39].any fun j => s.fb (F.HKP_VOLT_high j) || s.fb (F.HKP_VOLT_low j)) ||
  (List.range 4).any fun q => decide (degC 85 < tempInt (s.fv (F.THM_UNIT_temp (16 + q))))

/-- What a run of the pump leaves behind: the store, the counters and the sources (R440). -/
def State.noteBurn (s : State) (b : Burn) (info : Nat) : State :=
  let s := { s with cst := { s.cst with fuse := b.fuse } }
  let s := ((s.addF F.CST_CNT_PULSE_count b.pulses).addF F.CST_CNT_RETRY_count b.retries).addF F.CST_CNT_SPARE_count b.spares
  let s := (List.range b.retries).foldl (fun (s : State) _ => s.raise Src.burnRetry info) s
  (List.range b.spares).foldl (fun (s : State) _ => s.raise Src.spareWord info) s

/-- A command whose pump run is cut by a reset, a shutdown or a fatal fault: no completion (R442). -/
def State.burnCut (s : State) (n : Nat) : State := (s.setF F.CST_STATUS_burning 1).begin n true 0

/-! ### The OTP commands (R454) -/

/-- R454: the section state, the marginal bits, the record count and words as resolved; the seed reads 0. -/
def execOtpRead (n : Lb) (s : State) : Host.Outcome State Fault Refusal :=
  s.command n.val 0x0B01 5 fun L s =>
    let r := L.arg 0 1
    let k := L.arg 1 1
    let first := L.arg 2 2
    let count := L.arg 4 1
    let row := regionRow r
    let raw := k == 0xFF
    let top := if raw then row.words else row.data
    if 7 < r ∨ r = 6 ∨ (!raw && decide (row.sections ≤ k)) ∨ count = 0 ∨ 60 < count ∨ top < first + count then s.fail n.val cplBADARG
    else
      let seed (w : Nat) : Bool := r == 0 && ((decide (32 ≤ w) && decide (w < 40)) ||
        (decide (w < 32) && w % 2 == 1 && decide (32 ≤ (mapWord s.cst.fuse 0 (w / 2)).1.field 0 16) && decide ((mapWord s.cst.fuse 0 (w / 2)).1.field 0 16 < 40)))
      if raw then
        let xs := (List.range count).map fun j => readFuse s.cst.fuse (row.base + first + j)
        s.done n.val (leBytes 1 15 ++ leBytes 1 (marginCount xs) ++ leBytes 6 0 ++
          (xs.zipIdx).flatMap fun x => leBytes 4 (if seed (first + x.2) then 0 else (resolveWord (row.base + first + x.2) x.1).toNat))
      else
        let x := s.section_ r k
        s.done n.val (leBytes 1 x.state ++ leBytes 1 x.marginal ++ leBytes 2 x.count ++ leBytes 4 0 ++
          (List.range count).flatMap fun j => leBytes 4 (if seed (32 + first + j) then 0 else (x.words.getD (first + j) 0).toNat))

/-- The refusals that OTP.BURN and OTP.FINALISE share: the arguments, the regions closed to them (R451, R466), and what R442
names; `digestToo`: a section that carries a digest is refused as well. -/
def State.burnRefused (s : State) (r k : Nat) (digestToo : Bool) : Option Nat :=
  if r = 6 then some cplDENIED
  else if 7 < r ∨ (regionRow r).sections ≤ k then some cplBADARG
  else if (r = 4 ∨ r = 5) ∧ s.lifecycle ≠ 1 then some cplDENIED
  else
    let f := s.cst.fuse
    let locked := anyBits (readFuse f ((regionRow r).base + lockAt r k)) != 0
    let carries := anyBits (readWord f r (countAt r k)) != 0 || (readDigest f r k).any fun x => anyBits x != 0
    if s.burnBarred || locked || (digestToo && carries) || s.cst.unusable.contains (r, k) then some cplREJECTED else none

/-- R440-R442: words are appended to a section. -/
def execOtpBurn (n : Lb) (obs : BurnObs) (s : State) : Host.Outcome State Fault Refusal :=
  s.command n.val 0x0B02 8 fun L s =>
    let r := L.arg 0 1
    let k := L.arg 1 1
    let first := L.arg 2 2
    let count := L.arg 4 1
    let values := (List.range count).map fun j => (BitVec.ofNat 32 (L.arg (8 + 4 * j) 4) : Word)
    let next := burnedData s.cst.fuse r k
    let last := readWord s.cst.fuse r (sectAt r k + next - 1)
    let begun := decide (0 < next) && first == next - 1 && anyBits last &&& ~~~(values.getD 0 0) == 0
    match s.burnRefused r k true with
    | some st => s.fail n.val st
    | none =>
      if count = 0 ∨ 32 < count ∨ L.arg 5 3 ≠ 0 ∨ L.args.length < 8 + 4 * count ∨ (regionRow r).data < first + count ∨
          !(first == next || begun) then s.fail n.val cplBADARG
      else
        let b := burnWords r ((values.zipIdx).map fun v => (sectAt r k + first + v.2, v.1)) (Burn.begin s.cst.fuse obs)
        let s := s.noteBurn b r
        match b.ended with
        | .going => s.done n.val (leBytes 1 b.words ++ leBytes 1 b.pulses ++ leBytes 1 b.spares)
        | .cut => s.burnCut n.val
        | _ => s.complete n.val cplREJECTED (decide (0 < b.pulses)) []

/-- R443: the data of a section and the spares that replace it read stably. -/
def sectStable (f : Fuses) (r k : Nat) : Bool :=
  (List.range (regionRow r).data).all fun j =>
    marginalBits (readWord f r (sectAt r k + j)) == 0 &&
    (pairOf f r (sectAt r k + j)).all fun i => marginalBits (mapWord f r i) == 0

/-- R443: a section is closed by its count, its digest and its lock. -/
def execOtpFinalise (n : Lb) (obs : BurnObs) (s : State) : Host.Outcome State Fault Refusal :=
  s.command n.val 0x0B03 2 fun L s =>
    let r := L.arg 0 1
    let k := L.arg 1 1
    let f := s.cst.fuse
    match s.burnRefused r k false with
    | some st => s.fail n.val st
    | none =>
      let count := burnedData f r k
      let d := sectDigest r k count ((sectData f r k).map (·.1))
      let word (j : Nat) : Word := BitVec.ofNat 32 (ofLeBytes ((d.drop (4 * j)).take 4))
      if !sectStable f r k || !withinDigest (readWord f r (countAt r k)) (readDigest f r k) count d then s.fail n.val cplREJECTED
      else
        let b := burnWords r ((countAt r k, BitVec.ofNat 32 count) :: (List.range 8).map fun j => (digestAt r k + j, word j)) (Burn.begin f obs)
        let reject (s : State) (b : Burn) : State :=
          if b.ended = .cut then s.burnCut n.val else s.complete n.val cplREJECTED (decide (0 < b.pulses)) []
        if b.ended ≠ .going then reject (s.noteBurn b r) b
        else
          let b := { b with fuse := obs.reread.foldl (fun f x => putFuse f x.1.val x.2) b.fuse }
          let again := readDigest b.fuse r k
          let c := readWord b.fuse r (countAt r k)
          let good := marginalBits c == 0 && again.all (fun x => marginalBits x == 0) && c.1.field 0 16 == count &&
            decide (digestBytes again = sectDigest r k count ((sectData b.fuse r k).map (·.1)))
          if !good then
            let s := s.noteBurn b r
            reject { s with cst := { s.cst with unusable := s.cst.unusable ++ [(r, k)] } } b
          else
            let at_ := (regionRow r).base + lockAt r k
            let b := b.check true
            let (ok, c) := if b.ended = .going then
              pulseLoop at_ 0xFFFFFFFF (fun x => decide (24 ≤ popcount 32 x.2.1.toNat)) 3 b else (false, b)
            let s := s.noteBurn (if b.pulses + 1 < c.pulses then { c with retries := c.retries + 1 } else c) r
            if ok && decide (c.ended = .going) then s.done n.val (leBytes 2 0 ++ leBytes 2 count ++ d) else reject s c

end Sys2Proof.Machine
end

