-- ==== Sys2Proof/Machine/Polisher.lean ====
section
/-! DEFINITION. What follows an error: the recurrence table's age limit (R316), targeted probes (R317-R320), the Polisher
(R321-R324), the error log (R325-R327, R334), retirement and the start of a soft remap (R328-R331). -/

namespace Sys2Proof.Machine

/-! ### The log -/

/-- R326: the 32 bytes of a log entry. -/
def LogEntry.bytes (e : LogEntry) : List Byte :=
  let i := e.info
  leBytes 4 e.seq ++ leBytes 8 i.epoch ++ leBytes 1 i.kind ++ leBytes 1 e.cls ++ leBytes 1 i.source ++ leBytes 1 i.flags ++ leBytes 1 i.unit ++
    leBytes 1 i.bank ++ leBytes 2 i.row ++ leBytes 1 i.col ++ leBytes 1 i.word ++ leBytes 1 i.bitA ++ leBytes 1 i.bitB ++ leBytes 5 i.addr ++
    leBytes 1 i.port ++ leBytes 1 (min 255 i.count) ++ leBytes 1 0

/-- R334: the event of an entry, at most one of a tile in 256 epochs. -/
def State.logEvent (s : State) (t : Nat) (e : LogEntry) : State :=
  let code := if e.cls = 3 then some 0x0802 else if e.cls = 5 ∧ (e.info.kind = 2 ∨ e.info.kind = 4) then some 0x0801 else none
  let last := (s.eccOf t).lastEvent
  match code with
  | some c =>
    if last = 0 ∨ last + 255 ≤ s.epoch then (s.event c [(12, 32, ofLeBytes e.bytes)]).modEcc t fun x => { x with lastEvent := s.epoch + 1 } else s
  | none => s

/-- R325: one captured record enters the ring under the next sequence number. -/
def State.logPut (s : State) (t : Nat) (e : LogEntry) : State :=
  let e := { e with seq := s.log.nextSeq }
  let ring := s.log.ring ++ [e]
  let ring := ring.drop (ring.length - 4096)
  { s with log := { s.log with ring := ring, nextSeq := (e.seq + 1) % 2 ^ 32 } }.logEvent t e

/-- R325: parlour core 0 moves what the tiles have captured, tile by tile, into the ring. -/
def execLogMove (s : State) : Host.Outcome State Fault Refusal :=
  .next ((List.range 32).foldl (fun (s : State) t =>
    let q := (s.eccOf t).capture
    q.foldl (fun s e => s.logPut t e) (s.modEcc t fun e => { e with capture := [] })) s)

/-- The oldest sequence number held; the next one when the ring is empty. -/
def State.oldestSeq (s : State) : Nat := (s.log.ring.head?.map (·.seq)).getD s.log.nextSeq

/-- R327. -/
def execLogRead (n : Lb) (s : State) : Host.Outcome State Fault Refusal :=
  s.command n.val 0x0701 5 fun L s =>
    let first := L.arg 0 4
    let count := L.arg 4 1
    if count = 0 ∨ 7 < count then s.fail n.val cplBADARG
    else
      -- sequence numbers are compared by their distance from the oldest held
      let old := s.oldestSeq
      let dist (x : Nat) : Nat := (x + 2 ^ 32 - old) % 2 ^ 32
      let es := (if s.log.ring.length < dist first ∧ 2 ^ 31 ≤ dist first then s.log.ring
        else s.log.ring.filter fun e => decide (dist first ≤ dist e.seq)).take count
      s.done n.val (leBytes 4 old ++ leBytes 4 s.log.nextSeq ++ leBytes 1 es.length ++ leBytes 7 0 ++ es.flatMap LogEntry.bytes)

/-- R327. -/
def execLogClear (n : Lb) (s : State) : Host.Outcome State Fault Refusal :=
  s.command n.val 0x0702 0 fun _ s =>
    { s with log := { s.log with ring := [] } }.done n.val (leBytes 4 s.log.nextSeq)

/-! ### Probes -/

/-- The age limit of recurrence entries in epochs (R316, R333). -/
def State.maxAge (s : State) (t : Nat) : Nat := 65536 * max 1 (s.fv (F.ECC_REC_max_age t))

/-- R316, R332: recurrence entries of a channel reach their age limit; with `tie`, a correction comes in the same cycle and wins. -/
def execRecurrenceAgeExpiry (c : Channel) (tie : Bool) (s : State) : Host.Outcome State Fault Refusal :=
  let t := c.val
  let old := (s.eccOf t).recs.filter fun r => decide (r.first + s.maxAge t ≤ s.epoch)
  if old.isEmpty then .next s
  else if tie then .next (s.inc (F.ECC_CNT_NEARMISS_count t))
  else .next (old.foldl (fun (s : State) r => s.leaveRecs t r.bank r.row r.col r.word) s)

/-- An error of the burst under probe: one of a word that waits for no class yet waits now. -/
def State.noteProbe (s : State) (t : Nat) (i : ErrInfo) : State :=
  s.modEcc t fun e => { e with probe := e.probe.map fun j => if j.errs.any fun k => k.word == i.word then j else { j with errs := j.errs ++ [i] } }

/-- R317 step 1 for word `w`: the word is read, corrected and held; an uncorrectable one is held poisoned (R318). -/
def State.holdWord (s : State) (t : Nat) (loc : Loc) (w : Nat) : State :=
  let er := s.erasures t w
  let (c, s) := s.overLines (s.dramGet (s.physWord loc w)).toNat er
  let row := s.physRow t loc.bank loc.row
  let known := (s.eccOf t).probe.any fun j => j.errs.any fun i => i.word == w
  let info (kind : Nat) (errs : List Nat) (erased : Bool) : ErrInfo :=
    { epoch := s.epoch, kind := kind, source := 3
      flags := (if erased then 1 else 0) + (if row ≥ 49152 then 4 else 0) + 16 * errs.length
      unit := t, bank := loc.bank, row := row, col := loc.col, word := w, bitA := errBit errs 0, bitB := errBit errs 1
      addr := dramAddr s.active loc + 8 * w, port := 0xFF, count := 0 }
  match decodeWord c er with
  | .ok x errs erased =>
    let good := encodeWord (BitVec.ofNat 64 x) (x.testBit 64)
    let s := if errs.isEmpty && !erased then s
      else (s.inc (F.ECC_CNT_CE_count t)).attribute t w (errs ++ changedAt c good.toNat er)
    let s := s.when erased fun s => s.inc (F.ECC_CNT_ERASE_count t)
    let s := s.when (!known && !errs.isEmpty) fun s => (s.raise (Src.integrity 0 (t / 8)) t).noteProbe t (info 1 errs erased)
    s.putHeld loc w good
  | .bad =>
    let s := s.inc (F.ECC_CNT_UE_count t)
    let s := s.when (!known) fun s => ((s.raise (Src.integrity 1 (t / 8)) t).capture t 5 (info 2 [] false)).noteProbe t (info 2 [] false)
    s.putHeld loc w (encodeWord (BitVec.ofNat 64 c) true)

/-- R317, R318: the oldest queued burst of a channel goes under probe, in a maintenance slot (R323); bursts of borrowed rows
wait (R405). -/
def execProbeStart (c : Channel) (s : State) : Host.Outcome State Fault Refusal :=
  let t := c.val
  let e := s.eccOf t
  match e.probeQ.find? fun j => !s.isRetired t j.bank j.row && !s.isBorrowed t j.bank (s.physRow t j.bank j.row) with
  | none => .next s
  | some j =>
    if e.probe.isSome || !s.fb (F.ECC_CTL_probe_en t) || !s.maintFor 1 t then .next s
    else
      let job := { j with held := List.replicate 8 0, left := 4 * s.probeRounds t }
      let s := (s.takeMaint t 1).modEcc t fun e => { e with probeQ := e.probeQ.erase j, probe := some job }
      .next (((List.range 8).foldl (fun (s : State) w => s.holdWord t ⟨t, j.bank, j.row, j.col⟩ w) s).eccStatus t)

/-- R319: the class of a word: `obs` holds the words in which some bit differed, and whether one differed in every read of
one pattern sense. -/
def classOf (last16 : List ((Nat × Nat) × (Nat × Nat))) (key : (Nat × Nat) × (Nat × Nat)) (obs : List (Fin 8 × Bool)) : Nat :=
  match obs.find? fun o => o.1.val == key.2.2 with
  | some o => if o.2 then 3 else 2
  | none => if last16.contains key then 2 else 1

/-- R319, R325: an error's class is known: it is counted, reported and logged, and its word is among the last 16 probed. -/
def State.classify (s : State) (t : Nat) (key : (Nat × Nat) × (Nat × Nat)) (i : ErrInfo) (obs : List (Fin 8 × Bool)) : State :=
  let cls := classOf (s.eccOf t).last16 key obs
  let s := match cls with
    | 3 => (s.inc (F.ECC_CNT_HARD_count t)).raise (Src.integrity 4 (t / 8)) t
    | 2 => (s.inc (F.ECC_CNT_INTERM_count t)).raise (Src.integrity 3 (t / 8)) t
    | _ => s.inc (F.ECC_CNT_TRANS_count t)
  let flags := if i.flags.testBit 3 then i.flags else i.flags + 8
  (s.capture t cls { i with flags := flags }).modEcc t fun e => { e with last16 := (key :: e.last16.filter (· ≠ key)).take 16 }

/-- R317 step 3, R319: after the last pattern slot the burst under probe is restored, and its erring words are classified. -/
def execProbeComplete (c : Channel) (obs : List (Fin 8 × Bool)) (s : State) : Host.Outcome State Fault Refusal :=
  let t := c.val
  match (s.eccOf t).probe with
  | none => .next s
  | some j =>
    if 0 < j.left ∨ s.maintFor 1 t = false then .next s
    else
      let loc : Loc := ⟨t, j.bank, j.row, j.col⟩
      let (ws, s) := (List.range 8).foldl (fun (ws, s) w =>
        let (r, s) := State.readHeld s loc j w ⟨3, 0xFF, true, none⟩; (ws ++ [r.fresh], s)) (([] : List Codeword), s)
      let s := ((s.takeMaint t 1).inc (F.ECC_CNT_PROBE_count t)).modEcc t fun e => { e with probe := none }
      let s := (ws.zipIdx).foldl (fun (s : State) x => s.putDram loc x.2 x.1) s
      .next ((j.errs.foldl (fun (s : State) i => s.classify t ((j.bank, j.row), (j.col, i.word)) i obs) s).eccStatus t)

/-! ### The Polisher -/

/-- The next position that is neither retired, borrowed (R405) nor past the end, from a position on; `n` limits the search. -/
def State.patrolSkips (s : State) (t p : Nat) : Bool :=
  let (b, row) := (p / 32 % 32, p / 1024)
  s.isRetired t b row || s.isBorrowed t b (s.physRow t b row)

def State.patrolNext (s : State) (t : Nat) : Nat → Nat → Nat
  | 0, p => p
  | n + 1, p =>
    if patrolLength ≤ p then p
    else if s.patrolSkips t p then s.patrolNext t n (32 * (p / 32 + 1))
    else p

/-- The pointer shows a position; past the end a pass is complete. -/
def State.setPatrol (s : State) (t p : Nat) : State :=
  let s := if p < patrolLength then s
    else (s.inc (F.ECC_SCRUB_PASS_count t)).modEcc t fun e => { e with passFrom := e.passFrom + s.passEpochs t }
  let p := if p < patrolLength then p else 0
  let s := ((s.setF (F.ECC_SCRUB_PTR_row t) (p / 1024)).setF (F.ECC_SCRUB_PTR_bank t) (p / 32 % 32)).setF (F.ECC_SCRUB_PTR_column t) (p % 32)
  s.showPace t

/-- R322: what the Polisher does about an uncorrectable word that it has read. -/
def State.poisonWord (s : State) (t : Nat) (loc : Loc) (w : Nat) : State :=
  if s.fb (F.ECC_CTL_scrub_poison t) && !s.isRetired t loc.bank loc.row then
    s.queueProbe t loc.bank loc.row loc.col
      { epoch := s.epoch, kind := 2, source := 2, flags := 0, unit := t, bank := loc.bank, row := s.physRow t loc.bank loc.row, col := loc.col
        word := w, bitA := 0xFF, bitB := 0xFF, addr := dramAddr s.active loc + 8 * w, port := 0xFF, count := 0 }
  else s

/-- R322, R323: a maintenance slot that the Polisher may take. -/
def State.patrolMaint (s : State) (t : Nat) : Bool := s.maintFor 2 t && !s.spillWaits t

/-- R321, R322: the Polisher reads the next burst of a channel, in an open slot, or in a maintenance slot when it is behind its
pace and has nothing to write back. A position that it skips takes no slot. -/
def execPolisherRead (c : Channel) (s : State) : Host.Outcome State Fault Refusal :=
  let t := c.val
  let p := s.patrolNext t 2200 (s.patrolAt t)
  let ahead := decide ((patrolLength : Int) * s.passEpochs t < 64 * s.aheadBy t)
  let catchUp := decide (s.aheadBy t < 0) && (s.eccOf t).wb.isEmpty && s.patrolMaint t
  if !s.fb (F.ECC_CTL_scrub_en t) || s.mode == 4 || !s.planning t || s.fb (F.SCH_STATUS_degraded t) || ahead then .next s
  else if patrolLength ≤ p ∨ s.patrolSkips t p then .next (s.setPatrol t p)
  else if !catchUp && !s.openFree t then .next s
  else
    let loc : Loc := ⟨t, p / 32 % 32, p / 1024, p % 32⟩
    let s := if catchUp then s.takeMaint t 1 else s.takeOpen t
    let s := (List.range 8).foldl (fun (s : State) w => s.leaveRecs t loc.bank loc.row loc.col w) s
    let (rs, s) := s.readBurst loc polisherCtx
    let s := (rs.zipIdx).foldl (fun (s : State) r => s.when r.1.ue fun s => s.poisonWord t loc r.2) s
    .next ((s.setPatrol t (p + 1)).eccStatus t)

/-- R322: the Polisher writes back a burst that it could not queue: corrected words clean, uncorrectable ones poisoned. A burst
whose row is borrowed or that is under probe by then has another copy to serve it, and is left (R405, R318). -/
def execPolisherWriteback (c : Channel) (s : State) : Host.Outcome State Fault Refusal :=
  let t := c.val
  match (s.eccOf t).wb with
  | [] => .next s
  | (bank, row, col) :: rest =>
    let loc : Loc := ⟨t, bank, row, col⟩
    if s.isBorrowed t bank (s.physRow t bank row) || s.probing t bank row col then .next (s.modEcc t fun e => { e with wb := rest })
    else if !s.patrolMaint t then .next s
    else
      let s := (s.takeMaint t 1).modEcc t fun e => { e with wb := rest }
      .next ((List.range 8).foldl (fun (s : State) w =>
        let stored := s.dramGet (s.physWord loc w)
        match decodeWord stored.toNat (s.erasures t w) with
        | .ok x _ _ => s.putDram loc w (encodeWord (BitVec.ofNat 64 x) (x.testBit 64))
        | .bad => if s.fb (F.ECC_CTL_scrub_poison t) then s.putDram loc w (encodeWord (BitVec.ofNat 64 stored.toNat) true) else s) s)

/-- R324: the Polisher reads the next line of a quadrant's Larder; each erring word is written back, clean or poisoned,
and probed at once. The banks of UNUSED granules are powered down and passed over. -/
def execLarderScrub (q : Quad) (obs : List (Fin 8 × Bool)) (s : State) : Host.Outcome State Fault Refusal :=
  let n := q.val
  let p := natGet s.log.scrub n
  let bank := p / 2048
  -- it takes a flit that no engine uses, and in which no host access has met the line (R297)
  let used := (s.lar.eng.any fun a => a.at_ == 128 * n + bank) || s.lar.host.any fun a => a.at_ == 128 * n + bank && a.line == p % 2048
  if s.mode = 4 ∨ s.pwr.phase < 3 ∨ used then .next s
  else
    let s := { s with log := { s.log with scrub := natSet s.log.scrub n ((p + 1) % (128 * 2048)) } }
    let l : LLine := ⟨n, bank, p % 2048⟩
    if granule s.active n (bank / 8) = 0 then .next s
    else
      let s := { s with lar := { s.lar with eng := s.lar.eng ++ lineUse l (List.range 8) true } }
      .next ((List.range 8).foldl (fun (s : State) w =>
        let c := (let x := s.serving l; s.larderGet x.q x.bank x.line w).toNat
        let (_, s) := s.readLarder l w polisherCtx (scratchAt s.active l w)
        let info (kind : Nat) (errs : List Nat) : ErrInfo :=
          { epoch := s.epoch, kind := kind, source := 2, flags := 16 * errs.length, unit := n, bank := bank, row := l.line, col := 0, word := w
            bitA := errBit errs 0, bitB := errBit errs 1, addr := (scratchAt s.active l w).getD 0xFFFFFFFFFF, port := 0xFF, count := 0 }
        let key := ((32 + bank, l.line), (0, w))
        match decodeWord c [] with
        | .ok _ errs _ => if errs.isEmpty then s else s.classify (8 * n) key (info 3 errs) obs
        | .bad => (s.writeLarder l w (BitVec.ofNat 64 c) true).classify (8 * n) key (info 4 []) obs) s)

/-! ### Retirement and the start of a remap -/

/-- A log entry of kinds 0x05 to 0x08. -/
def State.logUnit (s : State) (t kind bank row : Nat) : State :=
  s.capture t 0
    { epoch := s.epoch, kind := kind, source := 4, flags := 0, unit := t, bank := bank, row := row, col := 0, word := 0, bitA := 0xFF, bitB := 0xFF
      addr := 0xFFFFFFFFFF, port := 0xFF, count := 0 }

/-- R333: ECC_RET_CNT. -/
def State.showRetired (s : State) (t : Nat) : State :=
  (s.setF (F.ECC_RET_CNT_rows t) (s.eccOf t).rows.length).setF (F.ECC_RET_CNT_banks t) (s.eccOf t).banks.length

/-- R328, R331. -/
def execRetireRow (n : Lb) (s : State) : Host.Outcome State Fault Refusal :=
  s.command n.val 0x0601 5 fun L s =>
    let a := L.arg 0 5
    if dramTop ≤ a then s.fail n.val cplBADARG
    else
      let l := dramLoc s.active a
      let x := (l.bank, l.row)
      let known := (s.eccOf l.ch).rows.contains x
      if !known && decide (64 ≤ (s.eccOf l.ch).rows.length) then s.fail n.val cplREJECTED
      else
        let s := if known then s else
          ((s.modEcc l.ch fun e => { e with rows := e.rows ++ [x] }).dropUnit l.ch).showRetired l.ch |>.logUnit l.ch 5 l.bank l.row
        s.done n.val (leBytes 1 l.ch ++ leBytes 1 l.bank ++ leBytes 2 l.row ++ leBytes 1 32 ++
          (List.range 32).flatMap fun k => leBytes 5 (dramAddr s.active { l with col := k }))

/-- R328, R331. -/
def execRetireBank (n : Lb) (s : State) : Host.Outcome State Fault Refusal :=
  s.command n.val 0x0602 2 fun L s =>
    let c := L.arg 0 1
    let b := L.arg 1 1
    if 31 < c ∨ 31 < b then s.fail n.val cplBADARG
    else
      let s := if (s.eccOf c).banks.contains b then s else
        ((s.modEcc c fun e => { e with banks := e.banks ++ [b] }).dropUnit c).showRetired c |>.logUnit c 6 b 0
      s.done n.val []

/-- The lowest free spare entry of a bank: neither in use, nor bad, nor taken by a remap in progress, nor serving a request
accepted before it was left. -/
def State.freeSpareRow (s : State) (c b : Nat) : Option Nat :=
  (List.range 16).find? fun k =>
    let m := s.spareAt c b k
    !m.valid && !m.bad && !s.outlived m && !s.remapRuns.any fun r => r.ch == c && r.bank == b && r.spare == k

/-- R329, R331: a remap or unmap begins; its switch is its commit point. The spec names no code for a row that is mapped
already, or of which a remap is in progress: BADARG (log 103). -/
def execRetireRemap (n : Lb) (s : State) : Host.Outcome State Fault Refusal :=
  s.command n.val 0x0604 5 fun L s =>
    let c := L.arg 0 1
    let b := L.arg 1 1
    let row := L.arg 2 2
    let op := L.arg 4 1
    let start (k : Nat) : State :=
      { s with remapRuns := s.remapRuns ++ ([{ lb := n.val, ch := c, bank := b, row, unmap := op == 1, spare := k }] : List RemapRun) }.begin n.val false 0
    if 31 < c ∨ 31 < b ∨ userRows ≤ row ∨ 1 < op ∨
        (s.remapRuns.any fun r => r.ch == c && r.bank == b && r.row == row) = true then s.fail n.val cplBADARG
    else match s.spareOf c b row with
      | some k => if op = 1 then start k else s.fail n.val cplBADARG
      | none =>
        if op = 1 then s.fail n.val cplBADARG
        else match s.freeSpareRow c b with
          | some k => start k
          | none => s.fail n.val cplREJECTED

end Sys2Proof.Machine
end

