-- ==== Sys2Proof/Machine/Ed448.lean ====
section
/-! DEFINITION. Ed448ph of RFC 8032, the one signature scheme of the Strongroom (R463, R471, R472, R477): the field, the
curve, encodings, public keys, signing and verifying, with SHAKE256 producing 64 bytes as the pre-hash. -/

namespace Sys2Proof.Machine

/-! ### The field of 2^448 - 2^224 - 1 -/

def edP : Nat := 2 ^ 448 - 2 ^ 224 - 1

/-- The order of the base point. -/
def edL : Nat := 2 ^ 446 - 13818066809895115352007386748515426880336692474882178609894547503885

def fAdd (a b : Nat) : Nat := (a + b) % edP
def fSub (a b : Nat) : Nat := (a + edP - b) % edP
def fMul (a b : Nat) : Nat := a * b % edP

/-- `a` to the power `e`, of which `n` bits are looked at. -/
def fPow (a e : Nat) : Nat → Nat
  | 0 => 1
  | n + 1 => let h := fPow (fMul a a) (e / 2) n; if e % 2 = 1 then fMul a h else h

def fInv (a : Nat) : Nat := fPow a (edP - 2) 448

/-! ### The curve x² + y² = 1 - 39081 x² y² -/

/-- A point in projective coordinates. -/
structure EdPoint where
  x : Nat
  y : Nat
  z : Nat
deriving DecidableEq, Repr

def edZero : EdPoint := ⟨0, 1, 1⟩

def edBase : EdPoint :=
  ⟨224580040295924300187604334099896036246789641632564134246125461686950415467406032909029192869357953282578032075146446173674602635247710,
   298819210078481492676017930443930673437544040154080242095928241372331506189835876003536878655418784733982303233503462500531545062832660, 1⟩

/-- The sum of two points. -/
def edAdd (p q : EdPoint) : EdPoint :=
  let a := fMul p.z q.z
  let b := fMul a a
  let c := fMul p.x q.x
  let d := fMul p.y q.y
  let e := fSub 0 (fMul 39081 (fMul c d))
  let f := fSub b e
  let g := fAdd b e
  let h := fMul (fAdd p.x p.y) (fAdd q.x q.y)
  ⟨fMul (fMul a f) (fSub (fSub h c) d), fMul (fMul a g) (fSub d c), fMul f g⟩

/-- `k` times a point, `n` bits of `k`. -/
def edMul (k : Nat) (p : EdPoint) : Nat → EdPoint
  | 0 => edZero
  | n + 1 => let h := edMul (k / 2) (edAdd p p) n; if k % 2 = 1 then edAdd p h else h

def edEq (p q : EdPoint) : Bool := fMul p.x q.z == fMul q.x p.z && fMul p.y q.z == fMul q.y p.z

/-- The 57 bytes of a point. -/
def edEncode (p : EdPoint) : List Byte :=
  let i := fInv p.z
  leBytes 56 (fMul p.y i) ++ leBytes 1 (fMul p.x i % 2 * 128)

/-- The point of 57 bytes, when they are one. -/
def edDecode (bs : List Byte) : Option EdPoint :=
  let v := ofLeBytes bs
  let y := v % 2 ^ 455
  let sign := v / 2 ^ 455
  let y2 := fMul y y
  let u := fSub y2 1
  let w := fSub 0 (fAdd (fMul 39081 y2) 1)
  let u3w := fMul (fMul u (fMul u u)) w
  let u5w3 := fMul (fMul (fMul u u) u3w) (fMul w w)
  let x := fMul u3w (fPow u5w3 ((edP - 3) / 4) 448)
  if bs.length ≠ 57 ∨ edP ≤ y ∨ fMul w (fMul x x) ≠ u then none
  else if x = 0 then if sign = 1 then none else some ⟨0, y, 1⟩
  else some ⟨if x % 2 = sign then x else edP - x, y, 1⟩

/-! ### Keys and signatures -/

/-- A private key's scalar and prefix. -/
def edSecret (key : List Byte) : Nat × List Byte :=
  let h := shake256 key 114
  let s := ofLeBytes (h.take 56)
  (2 ^ 447 + (s % 2 ^ 447 - s % 4), h.drop 57)

/-- The public key of a private key. -/
def edPublic (key : List Byte) : List Byte := edEncode (edMul (edSecret key).1 edBase 448)

/-- The prefix of every hash: the algorithm, the pre-hash flag and the context. -/
def edDom (ctx : List Byte) : List Byte :=
  ([0x53, 0x69, 0x67, 0x45, 0x64, 0x34, 0x34, 0x38] : List Byte) ++ leBytes 1 1 ++ leBytes 1 ctx.length ++ ctx

def edHash (ctx : List Byte) (parts : List Byte) : Nat := ofLeBytes (shake256 (edDom ctx ++ parts) 114) % edL

/-- The signature of a message. -/
def edSign (key ctx msg : List Byte) : List Byte :=
  let ph := shake256 msg 64
  let (s, pre) := edSecret key
  let r := edHash ctx (pre ++ ph)
  let rp := edEncode (edMul r edBase 448)
  let k := edHash ctx (rp ++ edPublic key ++ ph)
  rp ++ leBytes 57 ((r + k * s) % edL)

/-- Whether a signature of 114 bytes verifies. -/
def edVerify (pub ctx msg sig : List Byte) : Bool :=
  let ph := shake256 msg 64
  let s := ofLeBytes (sig.drop 57)
  match edDecode pub, edDecode (sig.take 57) with
  | some a, some r =>
    let k := edHash ctx (sig.take 57 ++ pub ++ ph)
    sig.length == 114 && decide (s < edL) &&
      edEq (edMul 4 (edMul s edBase 448) 3) (edMul 4 (edAdd r (edMul k a 448)) 3)
  | _, _ => false

end Sys2Proof.Machine
end

