-- ==== Sys2Proof/Machine/Selftest.lean ====
section
/-! DEFINITION. Self-test and continuity of service (13_self_test_and_continuity.md): logic, riser, row and Larder bank tests
(R396-R407), yields (R408), the return of units to service (R409, R410, and the switches of R299 and R329), the schedules
(R411, R412), the TEST commands (R413), and the move of a channel onto the spare riser (R344). -/

namespace Sys2Proof.Machine

/-! ### Kinds and outcomes (R413) -/

def tkEngine : Nat := 1
def tkParlour : Nat := 2
def tkRiser : Nat := 3
def tkRow : Nat := 4
def tkBank : Nat := 5
def tkTile : Nat := 0x10
def tkLink : Nat := 0x11
def tkQuad : Nat := 0x12

def toPass : Nat := 0
def toFail : Nat := 1
def toYielded : Nat := 2
def toAbandoned : Nat := 3
def toHeld : Nat := 4
def toUnjudged : Nat := 5
def toSkipped : Nat := 6

/-- The quadrant of a test's unit. -/
def testQuad (kind a : Nat) : Nat :=
  if kind = tkEngine then a / 32 else if kind = tkParlour ∨ kind = tkBank ∨ kind = tkQuad then a
  else if kind = tkLink then a / 4 else if a < 32 then a / 8 else 0

/-! ### Status and results -/

/-- BST_STATUS (R417). -/
def State.showBst (s : State) : State :=
  let riser := match s.bst.runs.find? fun r => r.kind == tkRiser with | some r => r.a | none => 0x3F
  let rows := (s.bst.runs.filter fun r => r.kind == tkRow && !r.restore && !r.yielded && decide (1 ≤ r.stage)).length
  let held := (List.range 4).foldl (fun m q => if s.bst.lheld.any fun h => h.1 == q then m + 2 ^ q else m) 0
  (((s.setF F.BST_STATUS_riser riser).setF F.BST_STATUS_rows_borrowed rows).setF F.BST_STATUS_rows_held s.bst.held.length).setF
    F.BST_STATUS_lbank_held held

def State.setRuns (s : State) (rs : List TestRun) : State := { s with bst := { s.bst with runs := rs } }

/-- The run of a kind and unit that a predicate names. -/
def State.runOf (s : State) (kind a : Nat) : Option TestRun := s.bst.runs.find? fun r => r.kind == kind && r.a == a

/-- Whether two runs are of one unit's scope: at most one of each kind and unit a runs, one riser and one core in all. -/
def TestRun.same (r x : TestRun) : Bool := r.kind == x.kind && r.a == x.a && r.b == x.b && r.c == x.c

def State.putRun (s : State) (r : TestRun) : State :=
  (s.setRuns ((s.bst.runs.filter fun x => !(x.kind == r.kind && x.a == r.a)) ++ [r])).showBst

def State.dropRun (s : State) (r : TestRun) : State := (s.setRuns (s.bst.runs.filter fun x => !x.same r)).showBst

/-- R413: the result of a test. -/
def TestRes.bytes (r : TestRes) : List Byte :=
  leBytes 1 r.outcome ++ leBytes 1 (min 255 r.count) ++ leBytes 8 r.sig ++ leBytes 8 r.gold ++ leBytes 2 r.first ++ leBytes 4 r.epoch

def TestRun.result (r : TestRun) (outcome epoch : Nat) : TestRes :=
  ⟨r.kind, r.a, r.b, r.c, outcome, r.fails.length, r.sig, r.gold, r.fails.headD 0, epoch⟩

/-- R413: the last result of a unit is held; for rows, that of each channel alone. -/
def State.keepResult (s : State) (x : TestRes) : State :=
  { s with bst := { s.bst with results :=
    (s.bst.results.filter fun y => !(y.kind == x.kind && y.a == x.a && (x.kind == tkRow || (y.b == x.b && y.c == x.c)))) ++ [x] } }

/-- R418, R420: what an outcome counts and sends. -/
def State.noteOutcome (s : State) (r : TestRun) (outcome : Nat) : State :=
  let q := testQuad r.kind r.a
  let s := s.when (outcome == toPass) fun s => s.inc F.BST_CNT_PASS_count
  let s := s.when (outcome == toFail || outcome == toHeld) fun s => s.inc F.BST_CNT_FAIL_count
  let s := s.when (outcome == toFail) fun s =>
    s.event 0x0B01 [(12, 1, r.kind), (13, 1, r.a), (14, 1, r.b), (15, 2, r.c), (17, 1, outcome), (18, 2, r.fails.headD 0)]
  let s := s.when (outcome == toHeld) fun s => s.event 0x0B02 [(12, 1, r.kind), (13, 1, r.a), (14, 1, r.b), (15, 2, if r.kind = tkRow then r.c else 0)]
  let s := s.when (outcome == toYielded) fun s => (s.inc F.BST_CNT_YIELD_count).raise (Src.selftest 8 q) 0
  s.when (outcome == toAbandoned) fun s => (s.inc F.BST_CNT_ABANDON_count).raise (Src.selftest 9 q) 0

/-- A test ends: its result is held, and a TEST.RUN completes. `keep` leaves a yielded test to be resumed (R408). -/
def State.endTest (s : State) (r : TestRun) (outcome : Nat) (keep : Bool) : State :=
  let x := r.result outcome s.epoch32
  let s := ((s.keepResult x).noteOutcome r outcome).dropRun r
  let s := if keep then s.putRun { r with lb := none, yielded := true } else s
  match r.lb with | some n => s.done n x.bytes | none => s

/-! ### Shadow slots (R289, R290, R404) -/

/-- Shadow granules that take new borrowings: those of the active configuration that a frozen session does not remove. -/
def State.shadowAt (s : State) (q g : Nat) : Bool :=
  granule s.active q g == 5 && (match s.session with | some x => x.commitAt.isNone || granule s.staged q g == 5 | none => true)

/-- LAR_SHADOW_USED (R301). -/
def State.showShadow (s : State) : State :=
  (List.range 4).foldl (fun (s : State) q =>
    s.setF (F.LAR_SHADOW_USED_slots q) (s.bst.slots.filter fun e => e.1 / 496 / 16 == q).length) s

/-- `n` consecutive free slots, in quadrant `q` first and then in ascending order, at the lowest place. -/
def State.findSlots (s : State) (q n : Nat) : Option Nat :=
  (q :: (List.range 4).filter (· ≠ q)).findSome? fun q =>
    (List.range 16).findSome? fun g =>
      if s.shadowAt q g then
        let base := 496 * (16 * q + g)
        ((List.range (497 - n)).find? fun i => (List.range n).all fun k => natGet s.bst.slots (base + i + k) == 0).map (base + ·)
      else none

/-- Slots are taken for a borrower; none when the shadow area has no room, which raises the Larder source. -/
def State.takeSlots (s : State) (q n code : Nat) : Option State :=
  (s.findSlots q n).map fun b =>
    { s with bst := { s.bst with slots := (List.range n).foldl (fun t k => natSet t (b + k) (code + 1)) s.bst.slots } }.showShadow

def State.freeSlots (s : State) (code : Nat) : State :=
  { s with bst := { s.bst with slots := s.bst.slots.filter fun e => e.2 != code + 1 } }.showShadow

/-! ### Starting a test -/

/-- What a start comes to: the scope of R395 is taken, the test ends at once, or it runs. -/
inductive Start where
  | busy
  | ends (outcome : Nat)
  /-- The shadow area has no room (R303, R404). -/
  | full
  | runs
deriving DecidableEq, Repr

/-- R395: the scope of a kind is taken by a test that has not yielded. -/
def State.scopeTaken (s : State) (kind a : Nat) : Bool :=
  s.bst.runs.any fun r => r.kind == kind && !r.yielded &&
    (if kind = tkEngine then r.a / 4 == a / 4
     else if kind = tkParlour ∨ kind = tkRiser then true
     else if kind = tkLink then r.a / 4 == a / 4
     else r.a == a)

/-- R400: a command runs in the letterboxes of a core, or a session is owned through them. -/
def State.coreHeld (s : State) (c : Nat) : Bool :=
  ((List.range 6).any fun n => s.coreOf n == c && (s.lb n).running.isSome) ||
  (match s.session with | some x => s.coreOf (lbOfPath x.owner) == c | none => false)


/-- Whether a test can start (R395, R398-R407). -/
def State.mayStart (s : State) (kind a b c : Nat) : Start :=
  if s.scopeTaken kind a then .busy
  else if kind = tkEngine then
    if (List.range 4).any fun k => 4 * (a / 4) + k != a && s.engineIn (4 * (a / 4) + k) then .runs else .ends toSkipped
  else if kind = tkParlour then
    if s.coreHeld a then .busy else if s.flt.cores.contains ((a + 1) % 4) then .ends toSkipped else .runs
  else if kind = tkRiser then
    let d := if a < 32 then a / 2 else b
    if s.spareHeld || !s.bit F.VRT_SPARE_DIES_trained d || (decide (a < 32) && s.fv (F.VRT_STATUS_vstate a) == 3) then .ends toSkipped else .runs
  else if kind = tkRow then
    if s.bst.held.contains (a, b, c) then .ends toHeld
    else if 4 ≤ (s.bst.held.filter fun h => h.1 == a).length then .ends toSkipped
    else if (s.findSlots (a / 8) 1).isNone then .full else .runs
  else if kind = tkBank then
    let perm := s.fb (F.LAR_SPARE_perm a)
    if s.bst.lheld.any fun h => h.1 == a then .ends toSkipped
    else if perm then
      (if b = s.fv (F.LAR_SPARE_bank a) then .ends toSkipped else if (s.findSlots a 64).isNone then .full else .runs)
    else .runs
  else .runs

/-- R398-R407: a test starts. -/
def State.launch (s : State) (kind a b c : Nat) (lb : Option Nat) (restore whole : Bool) : State :=
  let s := s.inc F.BST_CNT_RUN_count
  let r : TestRun := ⟨kind, a, b, c, lb, 0, 0, [], 0, 0, s.nextBoundary, false, restore, whole⟩
  let s := if kind = tkParlour then s.putBit F.BST_STATUS_parlour a true else s
  let s := if kind = tkRow ∧ !restore then (s.takeSlots (a / 8) 1 (rowCode a)).getD s else s
  let s := match s.slotOf (rowCode a) with | some n => s.when (kind == tkRow && !restore) fun s => s.clearRecord n | none => s
  let s := if kind = tkBank ∧ s.fb (F.LAR_SPARE_perm a) then (s.takeSlots a 64 (bankCode a)).getD s else s
  let s := if kind = tkLink then (if s.linkState a = lsDown then s else s.linkDown a)
    else if kind = tkQuad then (List.range 4).foldl (fun (s : State) k => if s.linkState (4 * a + k) = lsDown then s else s.linkDown (4 * a + k)) s
    else s
  (s.setRuns (s.bst.runs ++ [r])).showBst

/-- R303: a borrowing has found no free slot. -/
def State.noteFull (s : State) (kind a : Nat) : State := s.raise (Src.larder 2 (if kind = tkRow then a / 8 else a)) 0

/-- A test starts, or ends at once with a result. A test that yielded and was to be resumed gives way to a new one of its unit. -/
def State.startTest (s : State) (kind a b c : Nat) (lb : Option Nat) (whole : Bool) : State × Bool :=
  match s.mayStart kind a b c with
  | .busy => (s, false)
  | .ends o => (s.endTest ⟨kind, a, b, c, lb, 0, 0, [], 0, 0, 0, false, false, false⟩ o false, true)
  | .full => ((s.noteFull kind a).endTest ⟨kind, a, b, c, lb, 0, 0, [], 0, 0, 0, false, false, false⟩ toSkipped false, true)
  | .runs =>
    let s := s.setRuns (s.bst.runs.filter fun r => !(r.kind == kind && r.a == a))
    (s.launch kind a b c lb false whole, true)

/-! ### Logic tests (R396-R400, R411) -/

/-- The core select value of a slice (R415); the quadrants follow. -/
def sliceOf (kind a : Nat) : Nat :=
  if kind = tkEngine then a else if kind = tkTile then 128 + a else if kind = tkLink then 161 + a else if kind = tkParlour then 177 + a else 185 + a

/-- R396: the signatures can be judged. -/
def State.sigsGood (s : State) : Bool := s.fv (F.CST_SECT_state 28) == 2 || s.fv (F.CST_SECT_state 28) == 3

/-- The golden value of a slice. -/
def State.goldOf (s : State) (slice : Nat) : Nat :=
  (Config.golden ((List.range 278).map fun k => Tab.get (fun _ => 0) s.cst.image (1728 + 32 + k)) slice).toNat

/-- R396: no signature can be judged. -/
def State.noteUnjudged (s : State) (q : Nat) : State := (s.setF F.BST_STATUS_sig_unjudged 1).raise (Src.selftest 7 q) 0

/-- R398: an engine's test has failed: it is out. -/
def State.failEngine (s : State) (e : Nat) : State := (s.setEngineOut e true).raise (Src.selftest 0 (e / 32)) e

/-- R400: a parlour core's test has failed: it is held in reset. -/
def State.failCore (s : State) (c : Nat) : State := (s.holdCore c).raise (Src.selftest 1 c) c

/-- R411: a link's logic fails at start-up: the link is held in DOWN. -/
def State.barLink (s : State) (n : Nat) : State :=
  if s.bst.downLinks.contains n then s
  else { s with bst := { s.bst with downLinks := s.bst.downLinks ++ [n] } }

/-- R411: what the failure of a unit, named by its core select value, does at start-up. -/
def State.failUnit (s : State) (sel : Nat) : State :=
  if sel < 128 then s.failEngine sel
  else if sel < 161 then
    let t := sel - 128
    (if t < 32 then s.degrade t 0 7 else s).raise (Src.selftest 2 (testQuad tkTile t)) 0
  else if sel < 177 then (s.barLink (sel - 161)).raise (Src.selftest 2 ((sel - 161) / 4)) 0
  else if sel < 181 then s.failCore (sel - 177)
  else
    let q := sel - 181
    let s := (List.range 4).foldl (fun (s : State) k => s.barLink (4 * q + k)) s
    ((List.range 8).foldl (fun (s : State) k => s.degrade (8 * q + k) 0 7) s).raise (Src.selftest 2 q) 0

/-- The units of a quadrant's slice (R396): the spare tile belongs to quadrant 0. -/
def inQuad (q sel : Nat) : Bool :=
  if sel < 128 then sel / 32 == q else if sel < 160 then (sel - 128) / 8 == q else if sel = 160 then q == 0
  else if sel < 177 then (sel - 161) / 4 == q else if sel < 181 then sel - 177 == q else sel - 181 == q

/-- What a slice's end does to the units that failed, outside the start-up: engines go out and cores are held. -/
def State.failServed (s : State) (sels : List Nat) : State :=
  sels.foldl (fun (s : State) k => if k < 128 then s.failEngine k else if 177 ≤ k ∧ k < 181 then s.failCore (k - 177) else s) s

/-- The kind and unit of R413 of a slice. -/
def sliceUnit : TestUnit → Option (Nat × Nat)
  | .engine e => some (tkEngine, e.val)
  | .core c => some (tkParlour, c.val)
  | .tile t => some (tkTile, t.val)
  | .link l => some (tkLink, l.val)
  | .quadrant q => some (tkQuad, q.val)
  | _ => none

/-- A slice under test has ended: with its signature, or without one when its budget has expired. `fails` are the units of
a quadrant whose responses differ. -/
def State.sliceEnded (s : State) (r : TestRun) (sig : Option Nat) (fails : List Nat) : State :=
  let gold := s.goldOf (sliceOf r.kind r.a)
  let judged := s.sigsGood
  let pass : Bool := match sig with | some v => !judged || v == gold | none => false
  let r := { r with sig := sig.getD 0, gold := if judged then gold else 0, fails := if pass then [] else fails }
  let unjudged := sig.isSome && !judged
  let s := s.when unjudged fun s => s.noteUnjudged (testQuad r.kind r.a)
  let outcome := if unjudged then toUnjudged else if pass then toPass else toFail
  if r.kind = tkEngine then
    if pass then s.putRun { r with stage := 2, at_ := s.nextBoundary, pos := outcome }
    else if r.restore then (s.dropRun r).complete (r.lb.getD 0) cplREJECTED false []
    else (s.failEngine r.a).endTest r toFail false
  else if r.kind = tkParlour then
    if pass then s.putRun { r with stage := 2, at_ := s.nextBoundary, pos := outcome }
    else ((s.putBit F.BST_STATUS_parlour r.a false).failCore r.a).endTest r toFail false
  else
    let s := if pass ∨ r.kind ≠ tkQuad then s else s.failServed fails
    s.endTest r outcome false

/-- R411: a quadrant's slice ends at start-up. -/
def State.startupEnded (s : State) (q : Nat) (sig : Option Nat) (fails : List Nat) : State :=
  let s := { s with bst := { s.bst with bootQuads := q + 1 } }
  match sig with
  | none => s.failUnit (181 + q)
  | some v =>
    if !s.sigsGood then s.noteUnjudged q
    else if v = s.goldOf (185 + q) then s
    else fails.foldl State.failUnit s

/-- R411: at start-up the quadrants' slices are tested one after another. -/
def State.startupTurn (s : State) (kind a : Nat) : Bool := kind == tkQuad && s.pwr.phase == 3 && s.bst.bootQuads == a

/-- R396-R400: a slice's signature is ready; with `tie`, in the cycle in which its budget expires (R397). -/
def execLogicTestDone (u : TestUnit) (sig : BitVec 64) (fails : List (Fin 185)) (tie : Bool) (s : State) : Host.Outcome State Fault Refusal :=
  match sliceUnit u with
  | none => .next s
  | some (kind, a) =>
    let fs := (fails.map (·.val)).filter (inQuad a)
    match s.runOf kind a with
    | some r =>
      if r.yielded || (kind == tkEngine && r.stage != 1) || r.stage == 2 || decide (s.epoch < r.at_) then .next s
      else .next ((s.when tie fun s => s.inc F.BST_CNT_NEARMISS_count).sliceEnded r (some sig.toNat) fs)
    | none =>
      if s.startupTurn kind a then
        .next ((s.when tie fun s => s.inc F.BST_CNT_NEARMISS_count).startupEnded a (some sig.toNat) fs)
      else .next s

/-- R397: a slice's budget expires first; a quadrant at start-up fails as its fabric does. -/
def execLogicTestTimeout (u : TestUnit) (s : State) : Host.Outcome State Fault Refusal :=
  match sliceUnit u with
  | none => .next s
  | some (kind, a) =>
    match s.runOf kind a with
    | some r =>
      if r.yielded || (kind == tkEngine && r.stage != 1) || r.stage == 2 || decide (s.epoch < r.at_) then .next s
      else .next (s.sliceEnded r none [])
    | none => if s.startupTurn kind a then .next (s.startupEnded a none []) else .next s

/-- R398 step 2: an engine under test has completed what it held. -/
def execEngineDrainDone (e : Fin 128) (s : State) : Host.Outcome State Fault Refusal :=
  match s.runOf tkEngine e.val with
  | some r => if r.stage = 0 ∧ r.at_ ≤ s.epoch then .next (s.putRun { r with stage := 1 }) else .next s
  | none => .next s

/-! ### Riser tests (R401, R402) -/

/-- R402: a riser test ends; the next die of the spare riser follows, and a calibration that waits comes first. -/
def State.riserEnded (s : State) (r : TestRun) (outcome : Nat) : State :=
  let q := testQuad tkRiser r.a
  let s := r.fails.foldl (fun (s : State) l => s.declareFailing r.a l) s
  let s := s.when (outcome == toFail) fun s => s.raise (Src.selftest 3 q) r.a
  let s := (s.endTest r outcome false).calNext
  if r.whole && decide (r.b < 15) && (outcome == toPass || outcome == toFail) then (s.startTest tkRiser 32 (r.b + 1) 0 none true).1 else s

/-- R401: a step A0 to A4 of the riser test completes; `bad` are the lines that it finds bad. -/
def execRiserTestStepDone (bad : List (BitVec 8)) (s : State) : Host.Outcome State Fault Refusal :=
  match s.bst.runs.find? fun r => r.kind == tkRiser with
  | none => .next s
  | some r =>
    let takes := decide (r.a < 32)
    let busy := s.fb F.VRT_SPARE_CARRY_busy
    let r := if r.stage = 0 then r else { r with fails := (r.fails ++ (bad.map (·.toNat)).filter (decide <| · < 208)).dedup }
    let mirror := if s.atBoundary then s.epoch + 1 else s.epoch + 2
    if s.halted then .next s
    else match r.stage with
      | 0 =>
        if s.spareHeld then .next (s.riserEnded r toSkipped)
        else if busy || !s.thm.calQ.isEmpty || s.thm.cal.any (fun x => !x.chunks) || (takes && !s.atBoundary) then .next s
        else .next ((if takes then s.takeSpare r.a 3 else s).putRun { r with stage := 1 })
      | 4 => if s.atBoundary && decide (r.at_ ≤ s.epoch) then .next (s.putRun { r with stage := 5 }) else .next s
      | 5 => .next s
      | n =>
        let s := if n = 1 then s.helperRun r.a (some .prbs23) false allLines (bad.map (·.toNat)) [] else s
        let outcome := if !r.fails.isEmpty then toFail else if !s.thm.calQ.isEmpty then toYielded else toPass
        if n < 3 ∧ outcome ≠ toYielded then .next (s.putRun { r with stage := n + 1 })
        else if takes then .next (s.putRun { r with stage := 4, at_ := mirror, pos := outcome })
        else .next (s.riserEnded r outcome)

/-! ### Row tests (R404-R406) -/

/-- R404: copy one burst of a physical row, corrected, into a row slot. -/
def State.copyToSlot (s : State) (t bank row col n : Nat) : State :=
  (List.range 8).foldl (fun (s : State) w =>
    let (c, s) := s.copyWord t bank row col w 4
    s.putSlot n (8 * col + w) c false) s

/-- R404 step 2, R406, R512: a burst of a physical row is restored from a row slot. -/
def State.restoreBurst (s : State) (t bank row col n : Nat) : State :=
  (List.range 8).foldl (fun (s : State) w =>
    let (r, s) := s.readLarder (slotLine n col) w ⟨4, 0xFF, true, none⟩ none
    s.dramPut ((⟨t, bank, row, col⟩ : Loc).word w) (encodeWord r.data r.isPoison)) s

/-- R406: a restore has not taken: what the burst of the array holds is not known. -/
def State.spoilBurst (s : State) (t bank row col : Nat) : State :=
  (List.range 8).foldl (fun (s : State) w =>
    let (v, s) := s.takeFree
    s.dramPut ((⟨t, bank, row, col⟩ : Loc).word w) (BitVec.ofNat 80 v)) s

/-- R406: the failing bursts of a row are queued for the targeted probe. -/
def State.probeFails (s : State) (r : TestRun) : State :=
  match s.userRow r.a r.b r.c with
  | none => s
  | some row => r.fails.foldl (fun (s : State) col => s.queueBurst r.a r.b row col []) s

/-- R406: the row is held: it stays borrowed. -/
def State.holdRow (s : State) (r : TestRun) : State :=
  let h := (r.a, r.b, r.c)
  let s := { s with bst := { s.bst with
    held := s.bst.held ++ [h]
    slots := s.bst.slots.map fun (e : Nat × Nat) => if e.2 = rowCode r.a + 1 then (e.1, heldCode h + 1) else e } }
  (s.raise (Src.selftest 5 (r.a / 8)) r.b).endTest r toHeld false

/-- A restored bank's next row (R409), or the next stage of a restored row. -/
def State.restoreStep (s : State) (r : TestRun) : State :=
  if r.whole ∧ r.c < 1536 * 31 then s.putRun { r with c := r.c + 1536, pos := 0 }
  else s.putRun { r with stage := 2, at_ := s.nextBoundary }

/-- R404: a row test copies a burst, or tests and restores one, or restores the burst at which it yielded, in maintenance
slots. `differs`: a pattern read of the burst differs; `lost`: its restore read-back is uncorrectable or differs from the
copy. -/
def execRowTestStep (c : Channel) (differs lost : Bool) (s : State) : Host.Outcome State Fault Refusal :=
  let t := c.val
  match s.runOf tkRow t with
  | none => .next s
  | some r =>
    let slot := (s.slotOf (rowCode t)).getD 0
    -- R408: the restore of a yield comes in the epoch before the return
    if r.yielded || s.halted || !s.maintFor 0 t || decide (s.epoch + (if r.stage = 3 then 1 else 0) < r.at_) then .next s
    else match r.stage with
      | 0 =>
        if r.restore then .next (s.putRun { r with stage := 1 })
        else
          let s := (s.takeMaint t 1).copyToSlot t r.b r.c r.sig slot
          -- `sig` counts the copied bursts; the borrowing begins at the boundary after the last
          if r.sig < 31 then .next (s.putRun { r with sig := r.sig + 1 })
          else .next (s.putRun { r with stage := 1, sig := 0, at_ := s.epoch + 1 })
      | 1 =>
        let s := (s.takeMaint t 10).modTile t fun T => T.countAct (s.hammerAt t) r.b r.c 0xFF
        let r := { r with fails := if differs then r.fails ++ [r.pos] else r.fails }
        if r.restore then
          if differs || lost then .next ((s.dropRun r).complete (r.lb.getD 0) cplREJECTED false [])
          else if r.pos < 31 then .next (s.putRun { r with pos := r.pos + 1 })
          else .next (s.restoreStep r)
        else
          let s := if lost then s.spoilBurst t r.b r.c r.pos else s.restoreBurst t r.b r.c r.pos slot
          if lost then .next (s.holdRow r)
          else if r.pos < 31 then .next (s.putRun { r with pos := r.pos + 1 })
          else .next (s.putRun { r with stage := 2, at_ := s.epoch + 1 })
      | 3 =>
        let s := s.takeMaint t 2
        if lost then .next ((s.spoilBurst t r.b r.c r.pos).holdRow r) else .next (s.restoreBurst t r.b r.c r.pos slot)
      | _ => .next s

/-! ### Larder bank tests (R407, R411) -/

/-- Copy the 2,048 lines of a bank of a quadrant from one place of service to another, corrected, an uncorrectable word
poisoned. -/
def State.copyLines (s : State) (l : Nat → LLine) (src dst : Nat → LLine) : State :=
  (List.range 16384).foldl (fun (s : State) i =>
    let (r, s) := s.readPhys (src (i / 8)) (l (i / 8)) (i % 8) ⟨4, 0xFF, true, none⟩ none
    let d := dst (i / 8)
    s.larderPut d.q d.bank d.line (i % 8) (encodeWord r.data r.isPoison)) s

/-- R407: between two physical banks. -/
def State.copyBank (s : State) (q src dst : Nat) : State := s.copyLines (fun i => ⟨q, src, i⟩) (fun i => ⟨q, src, i⟩) fun i => ⟨q, dst, i⟩

/-- R407: a bank is parked in 64 slots, or comes back from them. -/
def State.slotLines (s : State) (n i : Nat) : LLine := s.spareLine (slotLine (n + i / 32) (i % 32))
def State.parkBank (s : State) (q b n : Nat) : State := s.copyLines (fun i => ⟨q, b, i⟩) (fun i => ⟨q, b, i⟩) (s.slotLines n)
def State.unparkBank (s : State) (q b n : Nat) : State := s.copyLines (fun i => ⟨q, b, i⟩) (s.slotLines n) fun i => ⟨q, b, i⟩

/-- The spare bank stands in for a bank, or for none. -/
def State.setSpareBank (s : State) (q : Nat) (b : Option Nat) : State :=
  (s.setF (F.LAR_SPARE_STAT_active q) (if b.isSome then 1 else 0)).setF (F.LAR_SPARE_STAT_bank q) (b.getD 0)

/-- The test uses the spare bank as the stand-in. -/
def State.onSpareBank (s : State) (r : TestRun) : Bool := decide (r.b < 128) && (s.slotOf (bankCode r.a)).isNone

/-- R407: the bank under test goes to its stand-in: the spare bank, or its slots. -/
def State.toStandIn (s : State) (r : TestRun) : State :=
  match s.slotOf (bankCode r.a) with
  | some n => s.parkBank r.a r.b n
  | none => if r.b < 128 then (s.copyBank r.a r.b 128).setSpareBank r.a (some r.b) else s

/-- R407-R409: it comes back. -/
def State.fromStandIn (s : State) (r : TestRun) : State :=
  match s.slotOf (bankCode r.a) with
  | some n => (s.unparkBank r.a r.b n).freeSlots (bankCode r.a)
  | none => if r.b < 128 then (s.copyBank r.a 128 r.b).setSpareBank r.a none else s

/-- R407: the bank is held. -/
def State.holdBank (s : State) (r : TestRun) : State :=
  let s := { s with bst := { s.bst with lheld := s.bst.lheld ++ [(r.a, r.b)] } }
  (s.raise (Src.selftest 6 r.a) r.b).endTest r toHeld false

/-- R411: the start-up march of a quadrant's banks ends: the spare stands in for the first that fails; when there is none to
stand in, the quadrant's granules are UNUSED. -/
def State.marchEnded (s : State) (q : Nat) (bad : List Nat) : State :=
  let s := bad.foldl (fun (s : State) b => s.raise (Src.selftest 6 q) b) { s with bst := { s.bst with marched := s.bst.marched ++ [q] } }
  let fails := bad.filter (decide <| · < 128)
  if fails.isEmpty then s
  else if bad.contains 128 || decide (2 ≤ fails.length) then
    { s with active := s.active.put (deadKey q) 1, staged := s.staged.put (deadKey q) 1 }
  else
    let b := fails.headD 0
    ({ s with bst := { s.bst with lheld := s.bst.lheld ++ [(q, b)] } }.setSpareBank q (some b)).showBst

/-- R407: a step of a quadrant's bank test: the copy that precedes the switch to the stand-in, or a march pass that finds
`lines` bad; at start-up, the march over every bank, which finds `banks` bad (R411). -/
def execLarderBankTestStep (q : Quad) (lines : List (Fin 2048)) (banks : List (Fin 129)) (s : State) : Host.Outcome State Fault Refusal :=
  match s.runOf tkBank q.val with
  | none => if s.pwr.phase = 3 ∧ q.val ∉ s.bst.marched then .next (s.marchEnded q.val (banks.map (·.val)).dedup) else .next s
  | some r =>
    let r := if r.stage = 0 then r else { r with fails := (r.fails ++ lines.map (·.val)).dedup }
    if r.yielded || s.halted || decide (s.epoch < r.at_) then .next s
    else match r.stage with
      | 0 =>
        if !s.atBoundary then .next s
        else .next ((s.toStandIn r).putRun { r with stage := 1 })
      | 1 => .next (s.putRun { r with stage := 2 })
      | 2 =>
        if r.fails.isEmpty then .next (s.putRun { r with stage := 4, at_ := if s.atBoundary then s.epoch + 1 else s.epoch + 2 })
        else if r.b = 128 then .next (((s.freeSlots (bankCode r.a)).raise (Src.selftest 6 r.a) r.b).endTest r toFail false)
        else .next (s.holdBank r)
      | _ => .next s

/-! ### Yields (R408) -/

/-- R408: an RT request has been served too late from the shadow copy or parked bank of a unit. -/
def execTestYield (u : TestUnit) (s : State) : Host.Outcome State Fault Refusal :=
  let ka := match u with | .row c => some (tkRow, c.val) | .lbank q => some (tkBank, q.val) | _ => none
  match ka with
  | none => .next s
  | some (kind, a) =>
    match s.runOf kind a with
    | none => .next s
    | some r =>
      let borrowed := if kind = tkRow then r.stage == 1 && !r.restore else (r.stage == 1 || r.stage == 2) && !s.onSpareBank r
      if s.mode = 2 || !s.fb F.BST_CTL_rt_yield || r.yielded || !borrowed then .next s
      else .next (s.putRun { r with stage := 3, at_ := s.epoch + 2 })

/-- R408: the retry time runs out; with `delay`, a new RT delay at the unit comes in the same cycle, and the time runs again
(R416). -/
def execYieldRetryExpiry (u : TestUnit) (delay : Bool) (s : State) : Host.Outcome State Fault Refusal :=
  let ka := match u with | .row c => some (tkRow, c.val) | .lbank q => some (tkBank, q.val) | _ => none
  match ka with
  | none => .next s
  | some (kind, a) =>
    match s.runOf kind a with
    | none => .next s
    | some r =>
      if !r.yielded || decide (s.epoch < r.at_) then .next s
      else if delay then
        .next ((s.inc F.BST_CNT_NEARMISS_count).putRun { r with at_ := s.epoch + 1024 * max 1 (s.fv F.BST_YIELD_retry) })
      else match s.mayStart kind a r.b r.c with
        | .runs =>
          let s := s.dropRun r
          let s := s.launch kind a r.b r.c none false false
          match s.runOf kind a with
          | some n => .next (s.putRun { n with pos := r.pos, fails := r.fails })
          | none => .next s
        | .full => .next (s.noteFull kind a)
        | _ => .next s

/-! ### Returning a unit to service (R409) -/

/-- R398, R410: an engine takes work again. -/
def State.returnEngine (s : State) (r : TestRun) : State :=
  if r.restore then
    let s := (s.setEngineOut r.a false).setContained false (.engine r.a)
    (s.dropRun r).done (r.lb.getD 0) []
  else s.endTest r r.pos false

/-- R408, R409: a row returns: it has passed or failed, has yielded, or was retired. -/
def State.returnRow (s : State) (r : TestRun) : State :=
  if r.restore then
    let s := s.modEcc r.a fun e =>
      if r.whole then { e with banks := e.banks.filter (· ≠ r.b) } else { e with rows := e.rows.filter (· ≠ (r.b, r.c)) }
    ((s.showRetired r.a).dropRun r).done (r.lb.getD 0) []
  else
    let s := s.freeSlots (rowCode r.a)
    if r.stage = 3 then s.endTest { r with at_ := s.epoch + 1024 * max 1 (s.fv F.BST_YIELD_retry), stage := 0 } toYielded true
    else if r.fails.isEmpty then s.endTest r toPass false
    else ((s.endTest r toFail false).raise (Src.selftest 4 (r.a / 8)) r.b).probeFails r

/-- R407-R409: a Larder bank returns. -/
def State.returnBank (s : State) (r : TestRun) : State :=
  let s := s.fromStandIn r
  if r.stage = 3 then s.endTest { r with at_ := s.epoch + 1024 * max 1 (s.fv F.BST_YIELD_retry), stage := 0, fails := [] } toYielded true
  else s.endTest r toPass false

/-- R406: a held row is released. -/
def State.releaseRow (s : State) (h : Nat × Nat × Nat) : State :=
  if s.bst.held.contains h then ({ s with bst := { s.bst with held := s.bst.held.filter (· ≠ h) } }.freeSlots (heldCode h)).showBst else s

/-- R329: the switch of a RETIRE.REMAP, or the end of one whose probe has failed. -/
def State.switchRemap (s : State) (r : RemapRun) (ok : Bool) : State :=
  let set (s : State) (m : Remap) : State := s.modEcc r.ch fun e => { e with remap := Tab.set (fun _ => {}) e.remap (16 * r.bank + r.spare) m }
  let old := s.spareAt r.ch r.bank r.spare
  let s := { s with remapRuns := s.remapRuns.filter fun x => x.lb != r.lb }
  let spareRow := 49152 + r.spare
  if !ok then
    let s := if r.unmap then s else set s { old with bad := true }
    ((s.logUnit r.ch 8 r.bank r.row).raise (Src.integrity 8 (r.ch / 8)) r.ch).complete r.lb cplREJECTED false []
  else
    let s := set s { old with valid := !r.unmap, row := r.row, since := s.epoch }
    ((s.releaseRow (r.ch, r.bank, r.row)).logUnit r.ch 7 r.bank r.row).done r.lb (leBytes 1 r.spare ++ leBytes 2 spareRow)

/-- R299: a committed LAR_SPARE.perm whose changeover is still to come: a bank that is not held has been mirrored for a full
epoch by then (R409). -/
def State.permDue (s : State) (q : Nat) : Bool :=
  let b := s.fv (F.LAR_SPARE_bank q)
  s.fb (F.LAR_SPARE_perm q) && decide (natGet s.bst.permAt q ≤ s.epoch) && (s.bst.lheld.contains (q, b) || !s.fb (F.LAR_SPARE_STAT_active q))

/-- R299: the spare replaces a bank permanently; a bank that is held has been served by the spare already. -/
def State.switchPerm (s : State) (q : Nat) : State :=
  let b := s.fv (F.LAR_SPARE_bank q)
  let s := if s.fb (F.LAR_SPARE_STAT_active q) then s else (s.copyBank q b 128).setSpareBank q (some b)
  ({ s with bst := { s.bst with lheld := s.bst.lheld.filter (· ≠ (q, b)) } }.showBst).raise (Src.larder 1 q) b

/-- R398, R409: the self-check or the reload of an engine or a core has failed. -/
def State.reloadFails (s : State) (r : TestRun) : State :=
  if r.restore then (s.dropRun r).complete (r.lb.getD 0) cplREJECTED false []
  else if r.kind = tkEngine then (s.failEngine r.a).endTest r toFail false
  else ((s.putBit F.BST_STATUS_parlour r.a false).failCore r.a).endTest r toFail false

/-- R409: the boundary at which a unit whose mirror and probe pass takes over from its stand-in. `ok` says whether the
probe's last part passes: an engine's recipe self-check, a core's firmware reload, a Larder bank's read-back, or the targeted
probes of a remap; `bad` are the lines that the compare
of A4 finds. -/
def execUnitReturnSwitch (u : TestUnit) (ok : Bool) (bad : List (BitVec 8)) (s : State) : Host.Outcome State Fault Refusal :=
  let due (kind a stage : Nat) : Option TestRun :=
    (s.runOf kind a).filter fun r => !r.yielded && (r.stage == stage || r.stage == 3 && (kind == tkRow || kind == tkBank)) && decide (r.at_ ≤ s.epoch)
  if !s.atBoundary || s.halted then .next s
  else match u with
    | .engine e => match due tkEngine e.val 2 with
      | some r => .next (if ok then s.returnEngine r else s.reloadFails r)
      | none => .next s
    | .core c => match due tkParlour c.val 2 with
      | some r => .next (if ok then (s.putBit F.BST_STATUS_parlour c.val false).endTest r r.pos false else s.reloadFails r)
      | none => .next s
    | .riser => match s.bst.runs.find? fun r => r.kind == tkRiser && r.stage == 5 with
      | some r =>
        let r := { r with fails := (r.fails ++ (bad.map (·.toNat)).filter (decide <| · < 208)).dedup }
        .next (s.leaveSpare.riserEnded r (if r.fails.isEmpty then r.pos else toFail))
      | none => .next s
    | .row c => match due tkRow c.val 2 with | some r => .next (s.returnRow r) | none => .next s
    | .lbank q => match due tkBank q.val 4 with
      | some r => if ok || r.b == 128 then .next (s.returnBank r) else .next (s.holdBank r)
      | none => .next s
    | .remap => match s.remapRuns.find? fun r => !r.works && decide (r.at_ ≤ s.epoch) with
      | some r => .next (s.switchRemap r ok)
      | none => .next s
    | .spareBank q => if ok && s.permDue q.val then .next (s.switchPerm q.val) else .next s
    | _ => .next s

/-! ### The schedule (R412) -/

/-- The next row of a channel's pointer that is neither retired nor held; rows run before bank indices. -/
def State.nextRow (s : State) (t : Nat) : Nat → Nat → Nat
  | 0, p => p
  | n + 1, p =>
    let p := if p < 32 * 49168 then p else 0
    let (b, r) := (p / 49168, p % 49168)
    let gone := (s.userRow t b r).any fun u => s.isRetired t b u
    if gone || s.bst.held.contains (t, b, r) then s.nextRow t n (p + 1) else p

/-- R412: the epochs between the tests of a unit: an engine's, a core's or a riser's period, the pace of a channel's rows and of a
quadrant's banks. -/
def State.testPeriod (s : State) (kind : Nat) : Nat :=
  let rate (n : Nat) : Nat := epochsOfSeconds 1 / max 1 n
  if kind = tkEngine then epochsOfSeconds (max 1 (s.fv F.BST_SCHED_LOGIC_engine_period))
  else if kind = tkParlour then epochsOfSeconds (max 1 (s.fv F.BST_SCHED_LOGIC_parlour_period))
  else if kind = tkRiser then epochsOfSeconds (60 * max 1 (s.fv F.BST_SCHED_RISER_riser_period))
  else if kind = tkRow then rate (s.fv F.BST_SCHED_MEM_row_rate) else rate (s.fv F.BST_SCHED_MEM_lbank_rate)

/-- The unit of R412 whose test is due: rows count for their channel, banks for their quadrant. -/
def State.dueUnit (s : State) : TestUnit → Option (Nat × Nat)
  | .engine e => some (tkEngine, e.val)
  | .core c => some (tkParlour, c.val)
  | .riser => some (tkRiser, s.bst.riserPtr)
  | .row c => some (tkRow, c.val)
  | .lbank q => some (tkBank, q.val)
  | _ => none

/-- R412: the period of a unit since its last test in service is over. -/
def State.periodOver (s : State) (k : Nat × Nat) : Bool :=
  let last := natGet s.bst.lastRun (1024 * k.1 + k.2)
  last == 0 || decide (last - 1 + s.testPeriod k.1 ≤ s.epoch)

/-- A test of a unit starts in service. -/
def State.noteStart (s : State) (k : Nat × Nat) (went : Bool) : State :=
  if went then { s with bst := { s.bst with lastRun := natSet s.bst.lastRun (1024 * k.1 + k.2) (s.epoch + 1) } } else s

/-- R412: a period or rate in service comes due, and the next test of its kind starts. -/
def execInfieldTestDue (u : TestUnit) (s : State) : Host.Outcome State Fault Refusal :=
  if !s.fb F.BST_CTL_infield_en || s.mode == 3 || s.mode == 4 || s.halted || decide (s.pwr.phase < 5) then .next s
  else match s.dueUnit u with
  | none => .next s
  | some k => if !s.periodOver k then .next s else match u with
    | .engine e =>
      if s.fb F.BST_CTL_engine_en && !s.engineOut e.val then (let (s, went) := s.startTest tkEngine e.val 0 0 none false; .next (s.noteStart k went)) else .next s
    | .core c =>
      if s.fb F.BST_CTL_parlour_en && !s.flt.cores.contains c.val then (let (s, went) := s.startTest tkParlour c.val 0 0 none false; .next (s.noteStart k went)) else .next s
    | .riser =>
      if !s.fb F.BST_CTL_riser_en then .next s
      else
        let p := s.bst.riserPtr
        let (s, went) := s.startTest tkRiser p 0 0 none (p == 32)
        .next ((if went then { s with bst := { s.bst with riserPtr := (p + 1) % 33 } } else s).noteStart k went)
    | .row c =>
      if !s.fb F.BST_CTL_row_en || !s.planning c.val then .next s
      else
        let p := s.nextRow c.val 4096 (natGet s.bst.rowPtr c.val)
        let (s, went) := s.startTest tkRow c.val (p / 49168) (p % 49168) none false
        .next ((if went then { s with bst := { s.bst with rowPtr := natSet s.bst.rowPtr c.val ((p + 1) % (32 * 49168)) } } else s).noteStart k went)
    | .lbank q =>
      if !s.fb F.BST_CTL_lbank_en then .next s
      else
        let p := natGet s.bst.lbankPtr q.val
        let (s, went) := s.startTest tkBank q.val p 0 none false
        .next ((if went then { s with bst := { s.bst with lbankPtr := natSet s.bst.lbankPtr q.val ((p + 1) % 129) } } else s).noteStart k went)
    | _ => .next s

/-! ### The commands (R410, R413) -/

/-- The unit arguments of TEST.RUN, with those that the kind does not use at 0, when they name a unit. -/
def testArgs (L : LbSt) : Option (Nat × Nat × Nat × Nat) :=
  let k := L.arg 0 1
  let a := L.arg 1 1
  let b := L.arg 2 1
  let c := L.arg 4 2
  let one (n : Nat) : Option (Nat × Nat × Nat × Nat) := if a < n then some (k, a, 0, 0) else none
  if k = tkEngine then one 128
  else if k = tkParlour then one 4
  else if k = tkRiser then (if a < 32 then some (k, a, 0, 0) else if a = 32 ∧ b < 16 then some (k, a, b, 0) else none)
  else if k = tkRow then (if a < 32 ∧ b < 32 ∧ c < 49168 then some (k, a, b, c) else none)
  else if k = tkBank then (if a < 4 ∧ b ≤ 128 then some (k, a, b, 0) else none)
  else if k = tkTile then one 33
  else if k = tkLink then one 16
  else if k = tkQuad then one 4
  else none

/-- R413. -/
def execTestRun (n : Lb) (s : State) : Host.Outcome State Fault Refusal :=
  s.command n.val 0x0801 6 fun L s =>
    match testArgs L with
    | none => s.fail n.val cplBADARG
    | some (k, a, b, c) =>
      if s.mode = 4 ∨ (0x10 ≤ k ∧ s.mode ≠ 5) then s.fail n.val cplDENIED
      else match s.mayStart k a b c with
        | .busy => s.fail n.val cplBUSY
        | _ => ((s.begin n.val true 0).startTest k a b c (some n.val) false).1

/-- R413. -/
def execTestResult (n : Lb) (s : State) : Host.Outcome State Fault Refusal :=
  s.command n.val 0x0802 6 fun L s =>
    match testArgs L with
    | none => s.fail n.val cplBADARG
    | some (k, a, b, c) =>
      match s.bst.results.find? fun x => x.kind == k && x.a == a && x.b == b && x.c == c with
      | some x => s.done n.val x.bytes
      | none => s.done n.val (leBytes 1 0xFF ++ leBytes 23 0)

/-- R413: TEST.SCHEDULE writes the staged BST_ registers. -/
def execTestSchedule (n : Lb) (s : State) : Host.Outcome State Fault Refusal :=
  s.command n.val 0x0803 11 fun L s =>
    if 127 < L.arg 0 1 then s.fail n.val cplBADARG
    else match s.sessionFor (s.lbPath n.val) with
      | none => s.fail n.val cplBUSY
      | some s =>
        let s := { s with staged := s.staged.put R.BST_CTL (BitVec.ofNat 32 (L.arg 0 1)) }
        let s := (s.setStagedF F.BST_SCHED_LOGIC_engine_period (L.arg 1 2)).setStagedF F.BST_SCHED_LOGIC_parlour_period (L.arg 3 2)
        let s := (s.setStagedF F.BST_SCHED_MEM_row_rate (L.arg 5 1)).setStagedF F.BST_SCHED_MEM_lbank_rate (L.arg 6 1)
        let s := s.setStagedF F.BST_SCHED_RISER_riser_period (L.arg 7 2)
        ((s.setStagedF F.BST_YIELD_bound (L.arg 9 1)).setStagedF F.BST_YIELD_retry (L.arg 10 1)).done n.val []

/-- R410: RETIRE.RESTORE begins its probe; the switch is its commit point. -/
def execRetireRestore (n : Lb) (s : State) : Host.Outcome State Fault Refusal :=
  s.command n.val 0x0603 2 fun L s =>
    let k := L.arg 0 1
    let a := L.arg 1 1
    let b := L.arg 2 1
    let row := L.arg 3 2
    let go (kind b c stage : Nat) (whole : Bool) : State :=
      if s.scopeTaken kind a then s.fail n.val cplBUSY
      else
        let s := ((s.begin n.val false 0).setRuns (s.bst.runs.filter fun r => !(r.kind == kind && r.a == a))).launch kind a b c (some n.val) true whole
        match s.runOf kind a with | some r => s.putRun { r with stage := stage } | none => s
    if k = 2 then (if a < 128 ∧ s.engineOut a then go tkEngine 0 0 1 false else s.fail n.val cplBADARG)
    else if 2 < k ∨ 31 < a ∨ 31 < b ∨ L.args.length < (if k = 0 then 5 else 3) then s.fail n.val cplBADARG
    else if k = 0 then (if (s.eccOf a).rows.contains (b, row) then go tkRow b row 1 false else s.fail n.val cplBADARG)
    else if (s.eccOf a).banks.contains b then go tkRow b 0 1 true else s.fail n.val cplBADARG

/-! ### What ends tests early -/

/-- R402, R501: a test is abandoned: a borrowed unit returns with what its copy holds. -/
def State.abandonTest (s : State) (r : TestRun) : State :=
  let s := if r.kind = tkRow then s.freeSlots (rowCode r.a)
    else if r.kind = tkBank then
      (if 1 ≤ r.stage then s.fromStandIn r else s.freeSlots (bankCode r.a))
    else if r.kind = tkParlour then s.putBit F.BST_STATUS_parlour r.a false
    else if r.kind = tkRiser && s.fb F.VRT_SPARE_CARRY_busy && s.fv F.VRT_SPARE_CARRY_reason == 3 then s.leaveSpare
    else s
  if r.restore then (s.dropRun r).complete (r.lb.getD 0) cplREJECTED false [] else s.endTest r toAbandoned false

/-- R501: entry to RETENTION abandons every test. -/
def State.abandonTests (s : State) : State :=
  let s := (s.bst.runs.filter fun r => !r.yielded).foldl State.abandonTest s
  (s.setRuns []).showBst

/-! ### The move onto the spare riser (R344, R386, R402) -/

/-- R344 step 1: the channel that a calibration or a test holds on the spare riser returns to its own; the idle spare riser's
calibration or test ends too. The displaced channel is 0xFF when there is none. -/
def State.displace (s : State) : State × Nat :=
  let who := if s.fb F.VRT_SPARE_CARRY_busy then s.fv F.VRT_SPARE_CARRY_channel else 0xFF
  let s := if s.thm.cal.any (fun r => !r.chunks) then s.abandonCal true else s
  let s := match s.bst.runs.find? fun r => r.kind == tkRiser with | some r => s.abandonTest r | none => s
  (s, who)

/-- R344: the boundary of a move: channel `c` runs on the spare riser from now on. -/
def execSpareRiserMove (c : Channel) (s : State) : Host.Outcome State Fault Refusal :=
  match (s.riser c.val).move with
  | some (line, e) =>
    if s.atBoundary && decide (e ≤ s.epoch) && !s.halted then
      let (s, who) := s.displace
      .next ((s.moveToSpare c.val line who).calNext)
    else .next s
  | none => .next s

end Sys2Proof.Machine
end

