-- ==== Sys2Proof/Machine/Strongroom.lean ====
section
/-! DEFINITION. The Strongroom (16_strongroom_trust_and_debug.md): images and their checks (R463-R468), the start (R484), attestation (R469-R471),
lifecycle (R472-R475), challenge and unlock (R476-R479), watchdogs (R480, R481), and the FW commands (R482, R483, R485). -/

namespace Sys2Proof.Machine

/-! ### Keys and policy (R464-R467) -/

/-- R466: the KEYS section can name owner keys. -/
def State.keysGood (s : State) : Bool := s.sectGood 5 0

/-- An owner slot that KEYS marks present. -/
def State.slotPresent (s : State) (k : Nat) : Bool := decide (k < 4) && s.keysGood && (s.imageWord 5 0 0).getLsbD k

/-- The slots that are usable, where `revoked` are revoked (R466). -/
def State.usableSlots (s : State) (revoked : Nat) : List Nat :=
  (List.range 4).filter fun k => s.slotPresent k && !revoked.testBit k

/-- The digest that KEYS holds for a slot. -/
def State.slotDigest (s : State) (k : Nat) : List Byte := (List.range 8).flatMap fun j => leBytes 4 (s.imageWord 5 0 (1 + 8 * k + j)).toNat

/-- One bit for each slot of a list. -/
def slotMask (ks : List Nat) : Nat := (ks.map fun k => 2 ^ k).sum

/-- R467: the signature mode that acts: 0 BOTH, 1 OWNER, 2 VENDOR, 3 EITHER. -/
def State.sigMode (s : State) (revoked : Nat) : Nat :=
  if (s.usableSlots revoked).isEmpty || s.isLimited then 2
  else match s.lifecycle with
    | 0 | 1 => 3
    | 2 => (s.policyOf).field 4 2
    | _ => 2

/-! ### Images (R463, R464) -/

/-- The bytes of an image, by image offset. -/
abbrev Img := Nat → Byte

def imgBytes (f : Img) (a n : Nat) : List Byte := (List.range n).map fun k => f (a + k)
def imgNum (f : Img) (a n : Nat) : Nat := ofLeBytes (imgBytes f a n)
def imgFlag (f : Img) (i : Nat) : Bool := (imgNum f 5 1).testBit i

def slotBase (k : Nat) : Nat := 0x10000 + 0x300000 * k

/-- The image in a slot of the flash, and the image in the code stores. -/
def State.slotImg (s : State) (k : Nat) : Img := fun a => flashByte s.sec.flash (slotBase k + a)
def State.storeImg (s : State) : Img := fun a => flashByte s.sec.stores a

/-- The three sections: image offset, the place of the length and of the digest in the header, and the longest length. -/
def imgSections : List (Nat × Nat × Nat × Nat) :=
  [(0x1000, 16, 64, 0x10000), (0x11000, 20, 96, 0x200000), (0x211000, 24, 128, 0x40000)]

/-- The header bytes that are 0: offset and length. -/
def imgReserved : List (Nat × Nat) := [(7, 1), (28, 36), (160, 96), (598, 426)]

def imgFormatOk (f : Img) : Bool :=
  imgNum f 0 4 == 0x96164657 && imgNum f 4 1 == 1 && decide (imgNum f 5 1 < 8) &&
  (imgSections.all fun x => let n := imgNum f x.2.1 4; decide (4 ≤ n) && decide (n ≤ x.2.2.2) && n % 4 == 0) &&
  imgReserved.all fun x => (imgBytes f x.1 x.2).all (· == 0)

/-- "DV9616-IMAGE". -/
def ctxImage : List Byte := [0x44, 0x56, 0x39, 0x36, 0x31, 0x36, 0x2D, 0x49, 0x4D, 0x41, 0x47, 0x45]

/-- A chunk of 240 bytes that covers what an image needs of it. -/
def chunksCover (have_ : Tab Nat) (a n : Nat) : Bool :=
  (List.range ((a + n + 239) / 240)).all fun i => decide (240 * (i + 1) ≤ a) || decide (min (a + n - 240 * i) 240 ≤ natGet have_ i)

/-- R464: the verify code of an image where `revoked` are the revoked slots; for a loaded image with the chunks that came. -/
def State.verifyImage (s : State) (f : Img) (revoked : Nat) (loaded : Option (Tab Nat)) : Nat :=
  let vendor := imgFlag f 0
  let owner := imgFlag f 1
  let slot := imgNum f 6 1
  let msg := imgBytes f 0 256
  let mode := s.sigMode revoked
  if !imgFormatOk f then 1
  else if (vendor && decide (digest (imgBytes f 256 57) ≠ Config.vendorKey)) ||
      (owner && (!s.slotPresent slot || decide (digest (imgBytes f 427 57) ≠ s.slotDigest slot))) then 2
  else if owner && revoked.testBit slot then 3
  else if (vendor && !edVerify (imgBytes f 256 57) ctxImage msg (imgBytes f 313 114)) ||
      (owner && !edVerify (imgBytes f 427 57) ctxImage msg (imgBytes f 484 114)) then 4
  else if !(if mode = 0 then vendor && owner else if mode = 1 then owner else if mode = 2 then vendor else vendor || owner) then 5
  else if decide (imgNum f 12 2 < s.burnedCount 0) || decide (imgNum f 14 2 < s.burnedCount 1) then 6
  else if imgSections.any fun x => decide (digest (imgBytes f x.1 (imgNum f x.2.1 4)) ≠ imgBytes f x.2.2.1 32) then 7
  else match loaded with
    | some have_ =>
      if (((0, 1024) :: imgSections.map fun x => (x.1, imgNum f x.2.1 4)).all fun x => chunksCover have_ x.1 x.2) then 0 else 8
    | none => 0

/-- What is known of an image (R463, R470, R471). -/
def imgInfo (f : Img) : ImageInfo where
  fw := imgNum f 8 2
  rcp := imgNum f 10 2
  fwRoll := imgNum f 12 2
  rcpRoll := imgNum f 14 2
  signer := if imgFlag f 1 then 1 + imgNum f 6 1 else 0
  late := imgFlag f 2
  meas := digest (imgBytes f 0 1024) :: imgSections.map fun x => digest (imgBytes f x.1 (imgNum f x.2.1 4))

/-- R470: the measurements as SEC_MEAS shows them. -/
def State.showMeas (s : State) : State :=
  (s.sec.running.meas.zipIdx).foldl (fun (s : State) m =>
    (List.range 8).foldl (fun (s : State) j => s.setF (F.SEC_MEAS_bytes (8 * m.2 + j)) (ofLeBytes ((m.1.drop (4 * j)).take 4))) s) s

/-- R464, R484, R491: an image that has failed: the code, and the source for it. -/
def State.rejectImage (s : State) (code : Nat) : State :=
  let s := (s.setF F.SEC_STATUS_last_img code).inc F.SEC_CNT_IMGREJ_count
  s.raise (Src.trust (if code = 3 then 3 else if code = 6 then 1 else 0)) code

/-- Image offsets `lo` to `hi` of a slot, put in the place of what the stores hold there. -/
def State.copyStores (s : State) (slot lo hi : Nat) : State :=
  let base := slotBase slot
  let new := (s.sec.flash.filter fun e => decide (base + lo ≤ e.1) && decide (e.1 < base + hi)).map fun e => (e.1 - base, e.2)
  let old := s.sec.stores
  { s with sec := { s.sec with
    stores := (old.filter fun e => decide (e.1 < lo)) ++ new ++ old.filter fun e => decide (hi ≤ e.1) } }

/-- R489. -/
def State.fwState (s : State) (event code : Nat) : State := s.event 0x0D03 [(12, 1, event), (13, 2, s.sec.running.fw), (15, 1, code)]

/-! ### The start (R469, R475, R484) -/

/-- R469: "DV9616-IDENTITY". -/
def identityText : List Byte := [0x44, 0x56, 0x39, 0x36, 0x31, 0x36, 0x2D, 0x49, 0x44, 0x45, 0x4E, 0x54, 0x49, 0x54, 0x59]

/-- R469: the identity key is derived, in the states that have one. -/
def State.deriveIdentity (s : State) : State :=
  let may := (s.lifecycle == 1 || s.lifecycle == 2) && s.sectGood 0 0 && !s.isLimited
  let words (a n : Nat) : List Byte := (List.range n).flatMap fun j => leBytes 4 (s.imageWord 0 0 (a + j)).toNat
  let key := shake256 (identityText ++ words 0 8 ++ words 8 2) 57
  { s.setF F.SEC_STATUS_identity (if may then 1 else 0) with sec := { s.sec with key := if may then some key else none } }

/-- What the Strongroom shows once the Cornerstone is sensed: the lifecycle and its mirror, LIMITED, and the open level. -/
def State.startTrust (s : State) : State :=
  let lc := s.lifeSteps
  let lim := s.bootsLimited
  let b : Nat := if lim then 1 else 0
  let s := ((s.setF F.SEC_STATUS_lifecycle lc).setF F.SEC_LC_mirror lc).setF F.CST_STATUS_limited b
  let s := (s.setF F.SEC_STATUS_limited b).when lim fun s => s.raise Src.limited 0
  s.applyTrim.levelToOpen

/-- R439: the store is sensed at a cold start; `fuses` are the words whose reading is not that of the last. -/
def State.coldSense (s : State) (fuses : List (Fin 2048 × Word × Word × Word)) : State :=
  if s.fb F.CST_STATUS_sensed then s
  else (s.senseStore (fuses.foldl (fun f x => putFuse f x.1.val x.2) s.cst.fuse)).startTrust

/-- R484 steps 7 and 8: an image is in the stores: it is measured, the key derived, the cores released. -/
def State.runImage (s : State) (slot : Nat) : State :=
  let s := { s with sec := { s.sec with running := imgInfo s.storeImg, slot := slot } }
  let s := (s.setF F.SEC_STATUS_last_img 0).showMeas.deriveIdentity
  let s := { s with sec := { s.sec with kickAt := (List.range 4).foldl (fun t c => Tab.set (fun _ => 0) t c s.epoch) s.sec.kickAt } }
  (s.setF F.SEC_STATUS_halt_cause 0).setPhase 3

/-- R484 step 2: the Strongroom's scan; `none` when its budget has expired. -/
def State.strongScan (s : State) (sig : Option (BitVec 64)) : Bool × State :=
  match sig with
  | none => (false, s)
  | some v => if s.sigsGood then (v.toNat == s.goldOf 189, s) else (true, s.noteUnjudged 0)

/-- R484 step 4: slots in order; the codes of those passed over. -/
def State.trySlots : List Nat → State → Option Nat × List Nat × State
  | [], s => (none, [], s)
  | k :: ks, s =>
    let code := s.verifyImage (s.slotImg k) s.revokedSlots none
    if code = 0 then (some k, [], s)
    else
      let (found, codes, s) := State.trySlots ks (s.rejectImage code)
      (found, code :: codes, s)

/-- R484, R482, R475: the Strongroom's procedure at each start. -/
def execStrongroomBoot (fuses : List (Fin 2048 × Word × Word × Word)) (sig : Option (BitVec 64)) (s : State) : Host.Outcome State Fault Refusal :=
  if s.halted || !(s.pwr.phase == 1 || s.pwr.phase == 2) then .next s
  else
    let s := (s.coldSense fuses).setPhase 2
    let s := s.when (s.lifecycle == 3) fun s => { s with sec := { s.sec with flash := flashErase s.sec.flash cfgArea 0x100000 } }
    let (ok, s) := s.strongScan sig
    if !ok then .next ((s.setF F.SEC_STATUS_halt_cause 2).setPhase 0x0F)
    else
      let (_, _, primary, trial) := bootRecord s.sec.flash
      let p := primary % 2
      let s := s.when (trial != 0xFF) fun s => { s with sec := { s.sec with flash := putBootRecord s.sec.flash primary 0xFF } }
      let (found, codes, s) := State.trySlots [p, 1 - p] s
      match found with
      | none => .next ((s.setF F.SEC_STATUS_halt_cause 1).setPhase 0x0F)
      | some k =>
        let s := (s.copyStores k 0 0x300000).runImage k
        .next (s.when (k != p) fun s => (s.raise (Src.trust 0) 0).fwState 4 (codes.getD 0 0))

/-! ### Attestation (R470, R471) -/

/-- R470. -/
def State.refDigest (s : State) : List Byte :=
  if s.fb F.CFG_STATUS_committed then digest ((List.range 37).flatMap fun d => leBytes 4 (s.fv (F.CFG_REF_ref d))) else List.replicate 32 0

/-- R471: the report body. -/
def State.reportBody (s : State) (nonce : List Byte) : List Byte :=
  let rev := s.revokedSlots
  let b (f : Fld) (i : Nat) : Nat := if s.fb f then 2 ^ i else 0
  leBytes 4 0x96164154 ++ leBytes 1 1 ++ leBytes 1 s.lifecycle ++ leBytes 1 s.level ++ leBytes 1 s.mode ++ s.serial ++ nonce ++
    ((List.range 32).flatMap fun i => leBytes 4 (s.fv (F.SEC_MEAS_bytes i))) ++ s.refDigest ++ leBytes 2 s.sec.running.fw ++
    leBytes 2 s.sec.running.rcp ++ leBytes 2 (s.burnedCount 0) ++ leBytes 2 (s.burnedCount 1) ++
    leBytes 1 (rev + 16 * slotMask (s.usableSlots rev)) ++ leBytes 1 s.sec.running.signer ++
    leBytes 1 (b F.CFG_STATUS_committed 0 + b F.CFG_STATUS_adopted 1 + b F.SEC_STATUS_trial 2) ++ leBytes 1 0 ++ leBytes 8 s.epoch

/-- "DV9616-ATTEST". -/
def ctxAttest : List Byte := [0x44, 0x56, 0x39, 0x36, 0x31, 0x36, 0x2D, 0x41, 0x54, 0x54, 0x45, 0x53, 0x54]

/-- R471. -/
def execSecAttest (n : Lb) (s : State) : Host.Outcome State Fault Refusal :=
  s.command n.val 0x0C01 1 fun L s =>
    match s.sec.key with
    | none => s.fail n.val cplDENIED
    | some key =>
      if L.arg 0 1 = 0 then
        if L.args.length < 33 then s.fail n.val cplBADARG
        else
          let body := s.reportBody ((L.args.drop 1).take 32)
          { s with sec := { s.sec with body := some body } }.done n.val body
      else match s.sec.body with
        | none => s.fail n.val cplBADARG
        | some body =>
          if L.arg 0 1 = 1 then s.done n.val (edSign key ctxAttest body)
          else if L.arg 0 1 = 2 then s.done n.val (edPublic key)
          else s.fail n.val cplBADARG

/-! ### Challenge and unlock (R476, R477) -/

/-- R476: no nonce is valid any more. -/
def State.dropNonce (s : State) : State := { s with sec := { s.sec with nonce := none } }

/-- R476. -/
def execSecChallenge (n : Lb) (s : State) : Host.Outcome State Fault Refusal :=
  s.command n.val 0x0C02 0 fun _ s =>
    let fails := s.fv F.SEC_STATUS_unlock_fail
    if 8 ≤ fails then s.dropNonce.fail n.val cplDENIED
    else
      let (v, s) := s.takeFree
      let nonce := leBytes 32 v
      { s with sec := { s.sec with nonce := some (nonce, s.epoch) } }.done n.val
        (nonce ++ s.serial ++ leBytes 1 s.lifecycle ++ leBytes 1 s.level ++ leBytes 1 (8 - fails))

/-- R476: 60 s after the challenge. -/
def execNonceLapse (s : State) : Host.Outcome State Fault Refusal :=
  match s.sec.nonce with
  | some (_, e) => if e + epochsOfSeconds 60 ≤ s.epoch then .next s.dropNonce else .next s
  | none => .next s

/-- Who has signed: a key that the ROM or a usable slot names (true), a revoked slot's key, or neither. -/
inductive Signer where
  | good | revoked | bad
deriving DecidableEq, Repr

/-- Whether a signer's key and signature stand: 0 vendor, 1 + k owner slot k. -/
def State.signedBy (s : State) (signer : Nat) (pub ctx msg sig : List Byte) : Signer :=
  let named := if signer = 0 then decide (digest pub = Config.vendorKey)
    else s.slotPresent (signer - 1) && decide (digest pub = s.slotDigest (signer - 1))
  if !named || !edVerify pub ctx msg sig then .bad
  else if signer ≠ 0 ∧ s.revokedSlots.testBit (signer - 1) then .revoked
  else .good

/-- R476: a signature of SEC.UNLOCK or SEC.LIFECYCLE that does not stand. -/
def State.signFailed (s : State) (by_ : Signer) : State :=
  let s := (s.setF F.SEC_STATUS_unlock_fail (satAdd 8 (s.fv F.SEC_STATUS_unlock_fail) 1)).inc F.SEC_CNT_UNLOCKFAIL_count
  s.raise (Src.trust (if by_ = .revoked then 3 else 2)) 0

/-- "DV9616-UNLOCK" and "DV9616-LIFECYCLE". -/
def ctxUnlock : List Byte := [0x44, 0x56, 0x39, 0x36, 0x31, 0x36, 0x2D, 0x55, 0x4E, 0x4C, 0x4F, 0x43, 0x4B]
def ctxLifecycle : List Byte := [0x44, 0x56, 0x39, 0x36, 0x31, 0x36, 0x2D, 0x4C, 0x49, 0x46, 0x45, 0x43, 0x59, 0x43, 0x4C, 0x45]

/-- R479: how a level above the open one is reached in the current state: by a vendor signature (true), an owner's (false),
or never. -/
def State.unlockWay (s : State) (level : Nat) : Option Bool :=
  if s.isLimited then none
  else match s.lifecycle with
    | 1 => if level ≤ 2 then some false else none
    | 2 => if level ≤ 1 then some false else if level = 2 ∧ (s.policyOf).field 1 1 = 1 then some false else none
    | 3 => if 2 ≤ level ∧ s.fb F.SEC_STATUS_wiped then some true else none
    | _ => none

/-- R477: the seconds granted. -/
def State.grantSeconds (s : State) (asked : Nat) : Nat :=
  if s.lifecycle = 2 then
    let hours := (s.policyOf).field 8 8
    let top := if hours = 0 then 600 else 3600 * hours
    if asked = 0 ∨ top < asked then top else asked
  else asked

/-- R486: the cycle is one in which the nonce lapses. -/
def State.nonceEnds (s : State) : Bool := match s.sec.nonce with | some (_, e) => s.epoch == e + epochsOfSeconds 60 | none => false

/-- R486: the cycle is one in which the unlock's duration runs out. -/
def State.unlockEnds (s : State) : Bool :=
  match s.sec.unlock with | some (_, e, secs) => secs != 0 && s.epoch == e + epochsOfSeconds secs | none => false

/-- R477. With `tie` it completes in the cycle in which the unlock's duration runs out, or its nonce lapses (R486). -/
def execSecUnlock (n : Lb) (tie : Bool) (s : State) : Host.Outcome State Fault Refusal :=
  s.command n.val 0x0C03 6 fun L s =>
    let level := L.arg 0 1
    let signer := L.arg 1 1
    let asked := L.arg 2 4
    let old := s.sec.nonce
    let s := (s.when (tie && (s.nonceEnds || s.unlockEnds)) fun s => s.inc F.SEC_CNT_NEARMISS_count).dropNonce
    if 3 < level then s.fail n.val cplBADARG
    else if level ≤ s.openLevel then
      (({ s with sec := { s.sec with unlock := none } }.begin n.val true 0).setLevel level 0xFF 0).done n.val (leBytes 1 level ++ leBytes 4 0)
    else match s.unlockWay level with
      | none => s.fail n.val cplDENIED
      | some vendor =>
        if L.args.length < 177 ∨ 4 < signer then s.fail n.val cplBADARG
        else match old with
          | none => s.fail n.val cplREJECTED
          | some (nonce, _) =>
            if (signer == 0) != vendor then s.fail n.val cplREJECTED
            else
              let pub := (L.args.drop 6).take 57
              let msg := nonce ++ s.serial ++ leBytes 1 level ++ leBytes 1 s.lifecycle ++ leBytes 1 signer ++ leBytes 4 asked
              match s.signedBy signer pub ctxUnlock msg ((L.args.drop 63).take 114) with
              | .good =>
                let secs := s.grantSeconds asked
                (({ s with sec := { s.sec with unlock := some (signer, s.epoch, secs) } }.begin n.val true 0).setLevel level signer secs).done n.val
                  (leBytes 1 level ++ leBytes 4 secs)
              | by_ => (s.signFailed by_).fail n.val cplREJECTED

/-- R477: the duration of the unlock runs out. -/
def execUnlockExpiry (s : State) : Host.Outcome State Fault Refusal :=
  match s.sec.unlock with
  | some (_, e, secs) => if secs ≠ 0 ∧ e + epochsOfSeconds secs ≤ s.epoch then .next s.levelToOpen else .next s
  | none => .next s

/-! ### Lifecycle (R472-R475) -/

/-- R472: the signers of a move (vendor, owner), or none where there is no such move. -/
def moveSigners (src dst : Nat) : Option (Bool × Bool) :=
  match src, dst with
  | 0, 1 => some (true, false)
  | 1, 2 => some (false, true)
  | 1, 3 => some (true, true)
  | 2, 3 => some (false, true)
  | _, _ => none

/-- R472: the sections that a move needs VERIFIED or RESOLVED. -/
def State.moveReady (s : State) (src dst : Nat) : Bool :=
  if src = 0 then s.sectGood 0 0 && s.sectGood 3 0 && s.sectGood 7 0
  else if src = 1 ∧ dst = 2 then s.keysGood && s.sectGood 4 0
  else true

/-- The signature of SEC.LIFECYCLE, over its operation, its target, the serial and the nonce. -/
def State.lifeSigned (s : State) (L : LbSt) (nonce : List Byte) : Signer :=
  s.signedBy (L.arg 2 1) ((L.args.drop 3).take 57) ctxLifecycle ((L.args.take 2) ++ s.serial ++ nonce) ((L.args.drop 60).take 114)

/-- Lifecycle words under the pump, all 32 bits of each; whether every one reads burned. -/
def burnSteps : List Nat → Burn → Bool × Burn
  | [], b => (true, b)
  | w :: ws, b =>
    let c := (b.word w 0xFFFFFFFF 0xFFFFFFFF).2
    let c := if c.ended = .going then { c with words := c.words + 1 } else c
    if c.ended ≠ .going ∨ anyBits (readFuse c.fuse w) = 0 then (false, c) else burnSteps ws (c.check (!ws.isEmpty))

/-- R472: the lifecycle words from the current state to `dst` are burned; the first pulse is the commit point. -/
def State.burnMove (s : State) (n dst : Nat) (obs : BurnObs) : State :=
  let words := (List.range (dst - s.lifecycle)).map fun j => 1649 + s.lifecycle + j
  let (ok, b) := burnSteps words (Burn.begin s.cst.fuse obs)
  let s := s.noteBurn b 6
  if b.ended = .cut then s.burnCut n
  else if ok && decide (b.ended = .going) then { s with sec := { s.sec with effect := some (s.epoch + 1, n) } }.begin n true 0
  else { s with sec := { s.sec with moving := false, shut := false } }.complete n cplREJECTED (decide (0 < b.pulses)) []

/-- R473 step 1: every link has left OPEN and DOZE, and every accepted request has completed. -/
def State.drained (s : State) : Bool :=
  s.reqs.isEmpty && (List.range 16).all fun l => s.linkState l != lsOpen && s.linkState l != lsDoze

/-- R472, R473: a move. One to RETURNED waits, after its signature check, until the device has drained, and then burns. Any
operation but 1 and 2 is refused here. With `tie` it reaches the Strongroom as its nonce lapses (R486). -/
def execSecLifecycleMove (n : Lb) (obs : BurnObs) (tie : Bool) (s : State) : Host.Outcome State Fault Refusal :=
  s.command n.val 0x0C04 174 fun L s =>
    let dst := L.arg 1 1
    let src := s.lifecycle
    if L.arg 0 1 = 2 then s
    else if s.sec.moving then
      if !s.sec.shut || !s.drained then s else if s.burnBarred then
        { s with sec := { s.sec with moving := false, shut := false } }.fail n.val cplREJECTED
      else s.burnMove n.val dst obs
    else
      let old := s.sec.nonce
      let s := (s.when (tie && s.nonceEnds) fun s => s.inc F.SEC_CNT_NEARMISS_count).dropNonce
      if L.arg 0 1 ≠ 1 ∨ 4 < L.arg 2 1 then s.fail n.val cplBADARG
      else match moveSigners src dst with
        | none => s.fail n.val cplBADARG
        | some (vendor, owner) =>
          match old with
          | none => s.fail n.val cplREJECTED
          | some (nonce, _) =>
            if !(if L.arg 2 1 = 0 then vendor else owner) || !s.moveReady src dst || s.burnBarred || s.isLimited then s.fail n.val cplREJECTED
            else match s.lifeSigned L nonce with
              | .good =>
                if dst = 3 then { s with sec := { s.sec with moving := true } } else s.burnMove n.val dst obs
              | by_ => (s.signFailed by_).fail n.val cplREJECTED

/-- R472, R473: the boundary after the last burn: the state, its mirror and its open level take effect. -/
def execLifecycleEffect (s : State) : Host.Outcome State Fault Refusal :=
  match s.sec.effect with
  | none => .next s
  | some (e, n) =>
    if !s.atBoundary || decide (s.epoch < e) then .next s
    else
      let lc := s.lifeSteps
      let s := { s with sec := { s.sec with effect := none }, votes := s.votes.filter fun v => v.fieldId != 89 }
      let s := (s.setF F.SEC_STATUS_lifecycle lc).setF F.SEC_LC_mirror lc
      let s := s.when (lc == 3) fun s =>
        { (s.setF F.SEC_STATUS_identity 0).setF F.SEC_STATUS_wiped 0 with
          sec := { s.sec with key := none, body := none, nonce := none, wiping := some n } }
      let s := s.levelToOpen.event 0x0D02 [(12, 1, 1), (13, 1, lc)]
      .next (if lc = 3 then s else s.done n (leBytes 1 lc ++ leBytes 1 s.revokedSlots))

/-- A core restarts, but a command of letterbox `n` that has passed its commit point goes on (R483). -/
def State.restartBut (s : State) (n c : Nat) : State := (s.restartCore c).modLb n fun L => { L with restarted := false }

/-- R473 step 4 ends: the array, the Larder and the flash configuration are wiped, with the caches in the Larder, and the
cores restart. -/
def execReturnedWipeDone (s : State) : Host.Outcome State Fault Refusal :=
  match s.sec.wiping with
  | none => .next s
  | some n =>
    let s := s.fillDram.fillLarder
    let s := { s with
      eng := { s.eng with cache := [], spill := [] }
      cel := { s.cel with heads := [] }
      sec := { s.sec with flash := flashErase s.sec.flash cfgArea 0x100000, wiping := none, moving := false } }
    let s := (List.range 4).foldl (fun (s : State) c => s.restartBut n c) s
    let s := (s.setF F.SEC_STATUS_wiped 1).levelToOpen
    .next (s.done n (leBytes 1 s.lifecycle ++ leBytes 1 s.revokedSlots))

/-- R474: a slot is revoked. -/
def execSecLifecycleRevoke (n : Lb) (obs : BurnObs) (tie : Bool) (s : State) : Host.Outcome State Fault Refusal :=
  s.command n.val 0x0C04 174 fun L s =>
    let k := L.arg 1 1
    if L.arg 0 1 ≠ 2 then s
    else
      let old := s.sec.nonce
      let s := (s.when (tie && s.nonceEnds) fun s => s.inc F.SEC_CNT_NEARMISS_count).dropNonce
      let rev := s.revokedSlots
      let after := rev ||| 2 ^ k
      let (_, _, primary, _) := bootRecord s.sec.flash
      if 3 < k ∨ 4 < L.arg 2 1 then s.fail n.val cplBADARG
      else match old with
        | none => s.fail n.val cplREJECTED
        | some (nonce, _) =>
          if decide (s.usableSlots rev = [k]) || s.verifyImage (s.slotImg (primary % 2)) after none != 0 || s.burnBarred then
            s.fail n.val cplREJECTED
          else match s.lifeSigned L nonce with
            | .good =>
              let (ok, b) := (Burn.begin s.cst.fuse obs).counterBit 1648 k
              let s := s.noteBurn b 6
              if b.ended = .cut then s.burnCut n.val
              else if !ok then s.complete n.val cplREJECTED (decide (0 < b.pulses)) []
              else
                let falls := match s.sec.unlock with | some (signer, _, _) => signer == 1 + k | none => false
                let s := ((s.begin n.val true 0).when falls State.levelToOpen).event 0x0D02 [(12, 1, 2), (13, 1, k)]
                s.done n.val (leBytes 1 s.lifecycle ++ leBytes 1 s.revokedSlots)
            | by_ => (s.signFailed by_).fail n.val cplREJECTED

/-! ### Watchdogs (R480, R481) -/

/-- A parlour core runs: it is not held, halted, or retained. -/
def State.coreRuns (s : State) (c : Nat) : Bool :=
  s.pwr.booted && !s.halted && !s.pwr.inReset && s.mode != 4 && !s.flt.cores.contains c && !s.bit F.SEC_DBGHALT_halt c

/-- R480: a core kicks its watchdog; with `tie` in the cycle of its expiry (R481). -/
def execSecWdKick (c : Quad) (tie : Bool) (s : State) : Host.Outcome State Fault Refusal :=
  if s.coreRuns c.val then
    let last := Tab.get (fun _ => (0 : Nat)) s.sec.kickAt c.val
    let s := s.when (tie && s.epoch == last + epochsOfMs (s.fv F.SEC_WDOG_parlour_ms)) fun s => s.inc F.SEC_CNT_NEARMISS_P_count
    .next { s with sec := { s.sec with kickAt := Tab.set (fun _ => 0) s.sec.kickAt c.val s.epoch } }
  else .next s

/-- R480 step 3: the parlour code store is checked, and loaded again from the primary slot when it does not match. -/
def State.checkStore (s : State) : State :=
  let f := s.storeImg
  if digest (imgBytes f 0x11000 (imgNum f 20 4)) = s.sec.running.meas.getD 2 [] then s
  else
    let (_, _, primary, _) := bootRecord s.sec.flash
    let code := s.verifyImage (s.slotImg (primary % 2)) s.revokedSlots none
    if code = 0 then s.copyStores (primary % 2) 0x11000 0x211000 else s.rejectImage code

/-- R480: a core's watchdog runs out. `upsets` are bytes of the parlour code store that have changed by themselves. -/
def execParlourWatchdogExpiry (c : Quad) (upsets : List (BitVec 21 × BitVec 8)) (s : State) : Host.Outcome State Fault Refusal :=
  let last := Tab.get (fun _ => (0 : Nat)) s.sec.kickAt c.val
  if s.coreRuns c.val && decide (last + epochsOfMs (s.fv F.SEC_WDOG_parlour_ms) ≤ s.epoch) then
    let stores : List Host.Cell := upsets.foldl (fun (m : List Host.Cell) x => Tab.set flashDefault m (0x11000 + x.1.toNat) x.2) s.sec.stores
    let recent : List (Nat × Nat) := s.sec.expiries.filter fun (x : Nat × Nat) => decide (s.epoch < x.2 + epochsOfSeconds 1)
    let expiries : List (Nat × Nat) := recent ++ [(c.val, s.epoch)]
    let s := { s with sec := { s.sec with stores := stores, expiries := expiries } }
    let s := ((s.inc F.SEC_CNT_WDOG_count).raise (Src.parlour c.val) c.val).checkStore
    if 3 ≤ (expiries.filter fun (x : Nat × Nat) => x.1 == c.val).length then .next (s.failCore c.val) else .next (s.restartCore c.val)
  else .next s

/-- R481: the Strongroom's watchdog expires; with `kick` it is kicked in that cycle. It runs while the Strongroom does. -/
def execStrongroomWatchdogExpiry (kick : Bool) (s : State) : Host.Outcome State Fault Refusal :=
  if !s.pwr.good || s.pwr.inReset || s.asleep then .next s
  else if kick then .next (s.inc F.SEC_CNT_NEARMISS_count) else .next (s.raise (Src.trust 4) 0)

/-! ### The FW commands (R482, R483, R485) -/

/-- R485: in DEPLOYED a letterbox needs its bit of POLICY. -/
def State.fwDenied (s : State) (n : Nat) : Bool :=
  s.lifecycle == 2 && ((decide (n < 4) && (s.policyOf).field 2 1 == 0) || (n == 4 && (s.policyOf).field 3 1 == 0))

/-- The slot that is not primary. -/
def State.otherSlot (s : State) : Nat := 1 - (bootRecord s.sec.flash).2.2.1 % 2

/-- R482: a program erases each 64 KiB block before the first program of this load in it; programming clears bits. -/
def State.programSlot (s : State) (have_ : Tab Nat) (off : Nat) (bs : List Byte) : State :=
  let base := slotBase s.otherSlot
  let fresh := ([off / 0x10000, (off + bs.length - 1) / 0x10000].dedup).filter fun b =>
    !have_.any fun e => decide (240 * e.1 / 0x10000 ≤ b) && decide (b ≤ (240 * e.1 + e.2 - 1) / 0x10000)
  let flash := fresh.foldl (fun m b => flashErase m (base + 0x10000 * b) 0x10000) s.sec.flash
  { s with sec := { s.sec with
    flash := (bs.zipIdx).foldl (fun m b => let a := base + off + b.2; Tab.set flashDefault m a (flashByte m a &&& b.1)) flash } }

/-- R483, R485: one chunk of an image. -/
def execFwLoad (n : Lb) (s : State) : Host.Outcome State Fault Refusal :=
  s.command n.val 0x0D01 8 fun L s =>
    let i := L.arg 0 4
    let len := L.arg 4 2
    let target := L.arg 6 1
    let bs := (L.args.drop 8).take len
    let have_ : Tab Nat := match s.sec.load with | some (t, m) => if i = 0 ∨ t ≠ target then [] else m | none => []
    if s.fwDenied n.val then s.fail n.val cplDENIED
    else if s.noImage && target != 1 then s.fail n.val cplNOTREADY
    else if len = 0 ∨ 240 < len ∨ 1 < target ∨ (target = 1 ∧ !s.noImage) ∨ L.arg 7 1 ≠ 0 ∨ L.args.length < 8 + len ∨ 0x300000 < 240 * i + len then
      s.fail n.val cplBADARG
    else if s.fb F.SEC_STATUS_trial then s.fail n.val cplBUSY
    else
      let s := if target = 0 then s.programSlot have_ (240 * i) bs
        else { s with sec := { s.sec with
          stores := (bs.zipIdx).foldl (fun m b => Tab.set flashDefault m (240 * i + b.2) b.1) (if have_.isEmpty then [] else s.sec.stores) } }
      { s with sec := { s.sec with load := some (target, natSet have_ i len) } }.done n.val []

/-- The chunks of the image that has been loaded for a target. -/
def State.loadedFor (s : State) (target : Nat) : Tab Nat := match s.sec.load with | some (t, m) => if t = target then m else [] | none => []

/-- R470, R483: parlour code and recipes of a slot's image run, the cores restarting one at a time; with `late` the recipe set
waits for the next start. -/
def State.rollOver (s : State) (n slot : Nat) (late : Bool) : State :=
  let new := imgInfo (s.slotImg slot)
  let old := s.sec.running
  let s := (s.copyStores slot 0 0x1000).copyStores slot 0x11000 0x211000
  let s := s.when (!late) fun s => s.copyStores slot 0x211000 0x300000
  let meas := [new.meas.getD 0 [], old.meas.getD 1 [], new.meas.getD 2 [], (if late then old else new).meas.getD 3 []]
  let running := { new with meas := meas, rcp := if late then old.rcp else new.rcp }
  let s := { s with sec := { s.sec with running := running, slot := slot } }
  [3, 2, 1, 0].foldl (fun (s : State) c => s.restartBut n c) s.showMeas

/-- R482, R483: op 0. Any operation but 0, 1 and 2 is refused here. -/
def execFwActivateTry (n : Lb) (s : State) : Host.Outcome State Fault Refusal :=
  s.command n.val 0x0D02 2 fun L s =>
    let op := L.arg 0 1
    let source := L.arg 1 1
    if op = 1 ∨ op = 2 then s
    else if s.fwDenied n.val then s.fail n.val cplDENIED
    else if s.noImage && !(op == 0 && source == 1) then s.fail n.val cplNOTREADY
    else if op ≠ 0 ∨ 1 < source ∨ (source = 1 ∧ !s.noImage) then s.fail n.val cplBADARG
    else if s.fb F.SEC_STATUS_trial then s.fail n.val cplBUSY
    else
      let slot := s.otherSlot
      let f := if source = 1 then s.storeImg else s.slotImg slot
      let code := s.verifyImage f s.revokedSlots (some (s.loadedFor source))
      let answer := leBytes 1 code ++ leBytes 1 (imgInfo f).signer
      if code ≠ 0 then (s.rejectImage code).complete n.val cplREJECTED false answer
      else if source = 1 then (s.runImage 2).done n.val answer
      else
        let (_, _, primary, _) := bootRecord s.sec.flash
        let s := { s with sec := { s.sec with flash := putBootRecord s.sec.flash primary slot } }.begin n.val true 0
        let s := ((s.setF F.SEC_STATUS_last_img 0).setF F.SEC_STATUS_trial 1).rollOver n.val slot (imgInfo f).late
        (s.fwState 1 0).done n.val answer

/-- R468, R483: op 1: the counters are raised, and the trial slot becomes primary. -/
def execFwActivateCommit (n : Lb) (obs : BurnObs) (s : State) : Host.Outcome State Fault Refusal :=
  s.command n.val 0x0D02 2 fun L s =>
    if L.arg 0 1 ≠ 1 then s
    else if s.fwDenied n.val then s.fail n.val cplDENIED
    else if s.noImage then s.fail n.val cplNOTREADY
    else
      let (_, _, _, trial) := bootRecord s.sec.flash
      if !s.fb F.SEC_STATUS_trial then s.fail n.val cplBADARG
      else
        let r := s.sec.running
        let due := decide (s.burnedCount 0 < r.fwRoll) || decide (s.burnedCount 1 < r.rcpRoll)
        if due && s.burnBarred then s.fail n.val cplREJECTED
        else
          let b := raiseCounter 0 r.fwRoll 256 0 (Burn.begin s.cst.fuse obs)
          let b := raiseCounter 1 r.rcpRoll 256 0 (b.check (decide (s.burnedCount 1 < r.rcpRoll)))
          let s := s.noteBurn b 6
          match b.ended with
          | .going =>
            let s := { s with sec := { s.sec with flash := putBootRecord s.sec.flash trial 0xFF } }
            ((s.setF F.SEC_STATUS_trial 0).fwState 2 0).done n.val (leBytes 1 0 ++ leBytes 1 r.signer)
          | .cut => s.burnCut n.val
          | _ => s.complete n.val cplREJECTED (decide (0 < b.pulses)) []

/-- R483: op 2: the record names no trial, and the primary image's code and recipes run again. -/
def execFwActivateRevert (n : Lb) (s : State) : Host.Outcome State Fault Refusal :=
  s.command n.val 0x0D02 2 fun L s =>
    if L.arg 0 1 ≠ 2 then s
    else if s.fwDenied n.val then s.fail n.val cplDENIED
    else if s.noImage then s.fail n.val cplNOTREADY
    else if !s.fb F.SEC_STATUS_trial then s.fail n.val cplBADARG
    else
      let (_, _, primary, _) := bootRecord s.sec.flash
      let s := { s with sec := { s.sec with flash := putBootRecord s.sec.flash primary 0xFF } }.begin n.val true 0
      let s := (s.setF F.SEC_STATUS_trial 0).rollOver n.val (primary % 2) false
      (s.fwState 3 0).done n.val (leBytes 1 0 ++ leBytes 1 s.sec.running.signer)

/-- R485. -/
def execFwStatus (n : Lb) (s : State) : Host.Outcome State Fault Refusal :=
  s.command n.val 0x0D03 0 fun _ s =>
    let (_, _, primary, trial) := bootRecord s.sec.flash
    let target := if s.noImage then 1 else 0
    let f := if s.noImage then s.storeImg else s.slotImg s.otherSlot
    let have_ := s.loadedFor target
    s.done n.val (leBytes 1 primary ++ leBytes 1 trial ++ leBytes 2 s.sec.running.fw ++ leBytes 2 s.sec.running.rcp ++
      leBytes 2 (imgNum f 8 2) ++ leBytes 2 (s.burnedCount 0) ++ leBytes 2 (s.burnedCount 1) ++ leBytes 4 ((have_.map (·.2)).sum) ++
      leBytes 1 (s.verifyImage f s.revokedSlots (some have_)))

end Sys2Proof.Machine
end

