-- ==== Sys2Proof/Machine/Power.lean ====
section
/-! DEFINITION. Modes (R492-R500), RETENTION (R501-R503, R516), brown-outs and domain faults (R505, R506), the boot phases
(R507-R509) and the resets (R511, R512). -/

namespace Sys2Proof.Machine

/-! ### Changing mode (R495, R496, R515) -/

/-- R515. -/
def execModeGet (n : Lb) (s : State) : Host.Outcome State Fault Refusal :=
  s.command n.val 0x0201 0 fun _ s =>
    s.done n.val (leBytes 1 s.mode ++ leBytes 1 (s.fv F.PWR_MODE_prev) ++
      leBytes 1 (if s.fb F.PWR_MODE_pending then s.fv F.PWR_MODE_target else 0xFF) ++ leBytes 1 0 ++
      leBytes 4 (s.fv F.PWR_MODE_EPOCH_epoch) ++ leBytes 2 (s.fv F.PWR_STATUS_draw))

/-- R495 step 1: an intrusive test or a parlour halt is in force in MAINTENANCE. -/
def State.maintBusy (s : State) : Bool :=
  s.mode == 5 && ((s.bst.runs.any fun r => decide (0x10 ≤ r.kind)) || s.fv F.SEC_DBGHALT_halt != 0)

/-- R165, R495: the configuration may run in a mode as far as SCH_DET goes. -/
def detAlike (cfg : RegMap) (mode : Nat) : Bool := mode != 2 || tilesAlike cfg fun t => R.SCH_DET t

/-- A mode change waits for its boundary. -/
def State.planChange (s : State) (c : ModeChange) : State :=
  { (s.setF F.PWR_MODE_target c.target).setF F.PWR_MODE_pending 1 with pwr := { s.pwr with change := some c } }

/-- R495. -/
def execModeSet (n : Lb) (s : State) : Host.Outcome State Fault Refusal :=
  s.command n.val 0x0202 1 fun L s =>
    let t := L.arg 0 1
    if 5 < t then s.fail n.val cplBADARG
    else if t = s.mode then s.done n.val []
    else if s.maintBusy || s.pwr.change.isSome then s.fail n.val cplBUSY
    else
      let v := configVerdict s.active t
      if v = 2 ∨ !detAlike s.active t then s.fail n.val cplREJECTED
      else (s.planChange ⟨t, s.twoEpochsOn, some n.val, v == 1, 0⟩).begin n.val true s.twoEpochsOn

/-- R501 step 1: at B tests and calibrations end, and the drain begins; the dies whose relaxed refresh was permitted keep it
(R378). -/
def State.startDrain (s : State) (b n : Nat) : State :=
  let s := (s.abandonTests).abandonCal false
  let waiting := s.thm.calQ
  let s := waiting.foldl (fun (s : State) j => s.calEnded j calNotRun) { s with thm := { s.thm with calQ := [] } }
  let relaxed := (List.range 16).filter fun d => s.fb (F.THM_UNIT_relax_ok d)
  { s.showCal with thm := { s.showCal.thm with relaxRet := relaxed }, pwr := { s.pwr with drain := some (b, n) } }

/-- R495, R496, R501: the change boundary. -/
def execModeChangeBoundary (s : State) : Host.Outcome State Fault Refusal :=
  match s.pwr.change with
  | none => .next s
  | some c =>
    if !s.atBoundary || decide (s.epoch < c.at_) then .next s
    else
      let s := (s.setF F.PWR_MODE_target 7).setF F.PWR_MODE_pending 0
      let s := ({ s with pwr := { s.pwr with change := none } }.setMode c.target c.cause).showOversub (if c.oversub then 1 else 0)
      let s := match c.lb with
        | some n =>
          if c.target = 4 then s.startDrain c.at_ n
          else if c.cause = 2 then s.done n (leBytes 4 (s.lb n).answerEpoch ++ leBytes 1 1)
          else s.done n (leBytes 4 c.at_ ++ leBytes 1 0)
        | none => s
      .next s.fixFigures

/-! ### COOL (R500) -/

/-- The device sends PARK(SLEEP), four epochs ahead, on a link in the vestibule state; it holds whatever the host answers. -/
def State.forcePark (s : State) (n : Nat) : State :=
  let e := s.epoch + 4
  (s.modLink n fun L => { L with parkOut := some ⟨5, e, false, true⟩ }).sendMgmt n (payload [(0, 1, 1), (1, 1, 6), (4, 1, 5), (8, 8, e)])

/-- R500: the conditions of an odd link hold. -/
def execCoolPark (l : Link) (s : State) : Host.Outcome State Fault Refusal :=
  let n := l.val
  if s.mode == 3 && s.pwr.coolLinks.contains n && s.linkState n == lsVestibule && s.mayPark n then
    .next ({ s with pwr := { s.pwr with coolLinks := s.pwr.coolLinks.filter (· ≠ n) } }.forcePark n)
  else .next s

/-- R500: they have not all come to hold within 1,024 epochs of B. -/
def execCoolParkTimeout (l : Link) (s : State) : Host.Outcome State Fault Refusal :=
  let n := l.val
  if s.mode == 3 && s.pwr.coolLinks.contains n && decide (s.pwr.coolFrom + 1024 ≤ s.epoch) then
    .next ({ s with pwr := { s.pwr with coolLinks := s.pwr.coolLinks.filter (· ≠ n) } }.linkDown n)
  else .next s

/-! ### RETENTION (R501-R503, R516) -/

/-- The drain limit in epochs (R501). -/
def State.drainLimit (s : State) : Nat :=
  let n := max 1 (s.fv F.PWR_RET_drain_limit)
  if Config.grade = .dv9616_16 then n * 3125 else n * 109375 / 40

/-- R501 step 2: the staged spill records of a quadrant go to the ring while it is enabled and has room. -/
def State.flushSpill (s : State) (q : Nat) : State :=
  if ringOn s.active then
    let p := s.spillOf q
    let n := 2 ^ ringLog s.active - s.ringUsed
    ((p.staged.take n).foldl State.ringPut (s.setSpill q { p with staged := p.staged.drop n })).ringLevel
  else s

/-- R501 steps 2 to 4: every request has completed; dirty lines are written back first and a burst under probe is restored
(log 104), and once that is over (R212) the spill records are written, MODE.SET completes, and every link in the vestibule state
is parked. With `tie` the last request completes as the limit expires (R516). -/
def execRetentionDrainDone (tie : Bool) (s : State) : Host.Outcome State Fault Refusal :=
  match s.pwr.drain with
  | none => .next s
  | some (b, n) =>
    let all (_ : Nat) (_ : CLine) : Bool := true
    if !s.reqs.isEmpty then .next s
    else if !(s.dirtyLines all).isEmpty then .next (s.cleanLines noReq all)
    else if (List.range 32).any fun t => s.fb (F.ENG_CTL_flush_busy t) || (s.eccOf t).probe.isSome then .next s
    else
      let s := s.when (tie && decide (b + s.drainLimit ≤ s.epoch)) fun s => s.inc F.PWR_CNT_NEARMISS_count
      let s := (List.range 4).foldl State.flushSpill s
      let s := { s with pwr := { s.pwr with drain := none, sleepAt := some (s.epoch + 4), revert := s.fb F.PWR_WAKE_wake } }
      let s := (s.setF F.PWR_WAKE_wake 0).done n (leBytes 4 b ++ leBytes 1 0)
      .next ((List.range 16).foldl (fun (s : State) l => if s.linkState l = lsVestibule then s.forcePark l else s) s)

/-- R501 step 2: the drain has not ended within its limit: the mode before returns at the next boundary. -/
def execRetentionDrainTimeout (s : State) : Host.Outcome State Fault Refusal :=
  match s.pwr.drain with
  | none => .next s
  | some (b, n) =>
    if s.epoch < b + s.drainLimit then .next s
    else
      let back := s.fv F.PWR_MODE_prev
      let s := { s.setF F.PWR_WAKE_wake 0 with pwr := { s.pwr with drain := none } }.planChange
        ⟨back, if s.atBoundary then s.epoch else s.epoch + 1, some n, configVerdict s.active back == 1, 2⟩
      .next (s.raise (Src.power 0) 0)

/-- R502: the exit mode, and the cause of R518. -/
def State.exitMode (s : State) : Nat × Nat :=
  let before := s.fv F.PWR_MODE_prev
  let m := s.fv F.PWR_RET_exit_mode
  if m = 4 ∨ 6 ≤ m ∨ m = before then (before, 1)
  else if configVerdict s.active m = 2 ∨ !detAlike s.active m then (before, 3) else (m, 1)

/-- R503: a riser that fails its exit verify is trained in full, its channel meanwhile on the spare riser where R344 allows. -/
def State.exitRiser (s : State) (r : Nat) : State :=
  let s := s.modRiser r fun V => { V with step := 0, tries := 0, die := 0, retrain := true }
  if r = 32 then s.setF F.VRT_SPARE_DIES_trained 0
  else if s.fb (F.VRT_CTL_auto_spare r) && s.spareTrained r && !s.fb F.VRT_SPARE_CARRY_busy && !s.spareTaken then s.takeSpare r 1
  else s

/-- R154: a tile takes each bank's refresh pointer over where the die left it, which is a free value (log 105). -/
def State.takePointers (s : State) (t : Nat) : State :=
  let (v, s) := s.takeFree
  s.modTile t fun T => { T with due := [], ptr := (List.range 32).foldl (fun p b => natSet p b (v / 2 ^ (16 * b) % 2 ^ 16 % userRows)) T.ptr }

/-- R502: granules but the FIRMWARE ones are written as zero codewords. -/
def State.zeroGranules (s : State) : State :=
  let kept (e : Host.Cell) : Bool := decide (e.1 / (10 * 8 * 2048) % 129 < 8)
  let gens : Tab Nat := s.larGen.filter fun e => e.1 % 16 = 0
  { s with larder := s.larder.filter kept, larGen := gens, cel := { s.cel with initDue := some s.epoch } }

/-- R502, R503, R518: the exit completes at a boundary. `elapsed` is the time the always-on oscillator has measured, in epochs
(R223), `us` the duration of the exit, and `bad` the risers that fail their verify. -/
def execRetentionExitDone (elapsed us : Nat) (bad : List Tile) (s : State) : Host.Outcome State Fault Refusal :=
  if !s.pwr.exiting || !s.asleep || s.halted then .next s
  else
    let s := { s with epoch := (s.epoch + elapsed) % 2 ^ 64, frame := 0, flit := 0, pwr := { s.pwr with exiting := false } }
    let s := (List.range 96).foldl (fun (s : State) d => if s.domain d = 3 then s else s.setDomain d 2) (s.setF F.CLK_STATUS_pll_lock 0xF)
    let s := s.when (!s.fb F.PWR_RET_LAST_larder_kept) State.zeroGranules
    let s := (List.range 32).foldl (fun (s : State) t => (s.setF (F.SCH_STATUS_running t) 1).takePointers t) s
    let s := { s with thm := { s.thm with window := [] } }
    let s := s.setF F.PWR_RET_LAST_exit_us (min us 0xFFFF)
    let s := s.when (decide (2000 < us)) fun s => (s.inc F.PWR_CNT_RETSLOW_count).raise (Src.power 1) 0
    let s := bad.foldl (fun (s : State) r => (s.raise (Src.power 1) r.val).exitRiser r.val) s
    let s := (List.range 32).foldl (fun (s : State) g => s.setWv g { s.wvGroup g with fresh := false, writes := 0, reads := 0 }) s
    let (m, cause) := s.exitMode
    let s := ((s.setMode m cause).showOversub (configVerdict s.active m)).when (cause == 3) fun s => s.raise (Src.power 0) 0
    let s := (List.range 16).foldl (fun (s : State) n =>
      if (s.link n).waking && s.linkState n == lsSleep then s.shortRetrain n else s.coolPhy n) s
    .next s.fixFigures

/-! ### Supplies (R505, R506) -/

/-- R505: a rail stays below 90 % for 2 µs; rails in the order of R504, VAON first. A trip on VAON acts as PWROK low. -/
def execBrownOut (rail : Fin 6) (s : State) : Host.Outcome State Fault Refusal :=
  if rail.val = 0 then .next { s with pwr := { s.pwr with good := false } }
  else
    let s := s.raise (Src.power 2) (Config.railDomain rail.val).val
    .next (s.when (rail.val == 1 || rail.val == 2) fun s => (List.range 32).foldl State.loseDram s)

/-- R506: what the units of a domain in FAULT do, beside a tile and a link PHY as their own failures do. -/
def State.failDomain (s : State) (d : Nat) : State :=
  if d < 32 then s.degrade d 0 6
  else if d < 64 then s.riserUntrained (d - 32)
  else if d = 64 then s.setF F.VRT_SPARE_DIES_trained 0
  else if d < 81 then (if s.linkState (d - 65) = lsDown then s else s.linkDown (d - 65))
  else if d < 85 then
    { s with staged := s.staged.put (deadKey (d - 81)) 1, active := s.active.put (deadKey (d - 81)) 1 }
  else if d < 89 then s.holdCore (d - 85)
  else if 92 ≤ d then
    let q := d - 92
    let s := (List.range 4).foldl (fun (s : State) k =>
      let n := 4 * q + k
      (if s.linkState n = lsDown then s else s.linkDown n).barLink n) s
    (List.range 8).foldl (fun (s : State) k => s.degrade (8 * q + k) 0 6) s
  else s

/-- R506: a domain has not reached its state within 100 µs. -/
def execDomainFault (d : Fin 96) (s : State) : Host.Outcome State Fault Refusal :=
  .next (((s.setDomain d.val 3).failDomain d.val).raise (Src.power 2) d.val)

/-! ### The boot phases (R507-R509) -/

/-- R507: PWROK rises. -/
def execPowerGood (s : State) : Host.Outcome State Fault Refusal :=
  if s.pwr.good then .next s
  else .next { s.setF F.CLK_STATUS_pll_lock 0xF with epoch := 0, frame := 0, flit := 0, pwr := { s.pwr with good := true } }

/-- R168, R330, R453: riser training begins: the saved and the fused records are applied. -/
def State.startTraining (s : State) : State :=
  let s := s.applyRetired.applyFuseRemaps
  (List.range 32).foldl (fun (s : State) t => s.showRetired t) s

/-- R411, R475, R509: training is over: the table of start-up tests is complete, the tiles run, the receivers are enabled; in
RETURNED the wipe of the start is complete. -/
def State.enterLinks (s : State) : State :=
  let s := (List.range 32).foldl (fun (s : State) t => s.setF (F.SCH_STATUS_running t) 1) (s.setF F.BST_STATUS_boot_done 1)
  let s := { s with thm := { s.thm with window := [] } }
  let s := s.when (s.lifecycle == 3) fun s => (s.setF F.SEC_STATUS_wiped 1).levelToOpen
  s.setPhase (if s.isLimited then 0x0E else 5)

/-- R507: a boot phase completes. `fuses` are the words of the Cornerstone that read otherwise than at the last start. -/
def execBootPhaseAdvance (fuses : List (Fin 2048 × Word × Word × Word)) (s : State) : Host.Outcome State Fault Refusal :=
  if s.halted || !s.pwr.good || s.pwr.inReset then .next s
  else match s.pwr.phase with
    | 0 => .next (s.setPhase 1)
    | 1 => .next ((s.coldSense fuses).setPhase 2)
    | 3 => if s.bst.bootQuads = 4 ∧ 4 ≤ s.bst.marched.length then .next (s.startTraining.setPhase 4) else .next s
    | 4 => if s.risersDone && (s.pwr.filled || !s.mustFill) then .next s.enterLinks else .next s
    | 5 =>
      if s.fb F.CFG_STATUS_committed then .next (s.setPhase 7)
      else if (List.range 16).any fun n => s.linkState n == lsVestibule then .next (s.setPhase 6)
      else .next s
    | _ => .next s

/-- R508: 600 ms have passed in a phase before AWAITCFG. -/
def execBootTimeout (s : State) : Host.Outcome State Fault Refusal :=
  if s.pwr.good && !s.pwr.inReset && decide (s.pwr.phase ≤ 5) && decide (600 ≤ s.ms) then
    .next ({ s with pwr := { s.pwr with haltPhase := s.pwr.phase } }.setPhase 0x0F)
  else .next s

/-! ### Resets (R511, R512) -/

/-- R511: everything is lost but what is burned; the boot flash is another device. What the arrays hold afterwards is a free
value until they are written (log 12). -/
def execColdReset (s : State) : Host.Outcome State Fault Refusal :=
  let r := State.reset
  let r := { r with pending := s.pending, free := s.free, cst := { r.cst with fuse := s.cst.fuse, unusable := s.cst.unusable }, sec := { r.sec with flash := s.sec.flash } }
  .next ((List.range 64).foldl State.loseGranule ((List.range 32).foldl State.loseDram r))

/-- The bits of a live register that a warm reset leaves as they are (R429, R439, R511): the Cornerstone's image, the last
failure and the repairs of links and risers, held Larder banks, FLT_RECOVERY and FLT_FATAL_SRC, the measurements of the
Chimney, which runs on (R512), and PWR_CNT_WARM. -/
def warmKeeps (held : List Nat) (a : Nat) : Word :=
  if a = R.CST_STATUS then 0xDFFFFFFF
  else if 0x5000 ≤ a ∧ a < 0x5100 then 0xFFFFFFFF
  else if a = R.FLT_RECOVERY ∨ a = R.FLT_FATAL_SRC ∨ a = R.PWR_CNT_WARM then 0xFFFFFFFF
  else if (0x6000 ≤ a ∧ a < 0x6800) ∨ a = R.THM_SHUT ∨ (0x7080 ≤ a ∧ a < 0x73C0) then 0xFFFFFFFF
  else if (List.range 16).any fun n => a == R.LNK_REPAIR_IN n || a == R.LNK_REPAIR_OUT n then 0xFFFFFFFF
  else if (List.range 16).any fun n => a == R.LNK_STATUS n then 0x00FF0600
  else if (List.range 33).any fun r => a == R.VRT_STATUS r then 0x000FFFF0
  else if (List.range 33).any fun r => (List.range 8).any fun i => a == R.VRT_SPARE_MAP r i then 0xFFFFFFFF
  else if held.any fun q => a == R.LAR_SPARE_STAT q then 0xFFFFFFFF
  else if a = R.SEC_STATUS then 0x0000FF00
  else 0

/-- The live registers after a warm reset. -/
def warmLive (held : List Nat) (m : RegMap) : RegMap :=
  m.foldl (fun r e => let k := warmKeeps held e.1; r.put e.1 ((e.2 &&& k) ||| (regReset e.1 &&& ~~~k))) []

/-- R506: a domain in FAULT stays so; every other is on again. -/
def State.keepFaults (s old : State) : State := (List.range 96).foldl (fun (s : State) d => if old.domain d = 3 then s.setDomain d 3 else s) s

/-- R511, R512: RST_N falls: what a warm reset loses. Held rows are written back first (R406). -/
def State.warm (s : State) : State :=
  let s := s.bst.held.foldl (fun (s : State) h =>
    let n := (s.slotOf (heldCode h)).getD 0
    ((List.range 32).foldl (fun (s : State) col => s.restoreBurst h.1 h.2.1 h.2.2 col n) s).releaseRow h) s
  let r := State.reset
  let tripped := s.fb F.THM_SHUT_tripped
  let new : State := { r with
    pending := s.pending
    epoch := s.epoch, frame := s.frame, flit := s.flit, free := s.free
    dram := s.dram, dramGen := s.dramGen, larder := s.larder, larGen := s.larGen
    live := warmLive (s.bst.lheld.map (·.1)) s.live
    flt := { latches := s.flt.latches, lastEvent := s.flt.lastEvent }
    halted := tripped
    cst := s.cst
    pwr := { good := true, inReset := true }
    ecc := (List.range 32).foldl (fun (t : Tab EccSt) c =>
      let e := s.eccOf c
      Tab.set (fun _ => {}) t c { rows := e.rows, banks := e.banks, remap := e.remap }) []
    sec := { flash := s.sec.flash }
    thm := { rejects := s.thm.rejects, broken := s.thm.broken, wv := s.thm.wv, staleRaised := s.thm.staleRaised, relaxWas := s.thm.relaxWas
             calTemp := s.thm.calTemp
             relaxRet := if s.selfRefreshing then s.thm.relaxRet else (List.range 16).filter fun d => s.fb (F.THM_UNIT_relax_ok d) }
    bst := { lheld := s.bst.lheld }
    tap := s.tap }
  let new := ((List.range 64).foldl State.loseGranule new).keepFaults s
  let new := (new.setF F.CLK_STATUS_pll_lock (s.fv F.CLK_STATUS_pll_lock)).setF F.PWR_STATUS_reset_cause 1
  (new.setWindows.inc F.PWR_CNT_WARM_count).when (s.fb F.CST_STATUS_sensed) State.startTrust

def execWarmReset (s : State) : Host.Outcome State Fault Refusal := if s.pwr.good then .next s.warm else .next s

/-- R512: RST_N rises: the device restarts from the FIRMWARE phase; from FUSES when the Cornerstone has not been sensed. -/
def execWarmResetRelease (s : State) : Host.Outcome State Fault Refusal :=
  if s.pwr.inReset && s.pwr.good then
    .next ({ s with pwr := { s.pwr with inReset := false } }.setPhase (if s.fb F.CST_STATUS_sensed then 2 else 1))
  else .next s

end Sys2Proof.Machine
end

