-- ==== Sys2Proof/Machine/RegRows.lean ====
section
/-! DEFINITION. The commands that are register accesses: in-band messages (R100, R101), sideband transactions (R129-R131),
and the writes that have a row of their own. -/

namespace Sys2Proof.Machine

/-! ### In-band messages -/

/-- The register message at the head of a link's inbox: kind 2 REGWR or 3 REGRD (R100). -/
def LinkSt.regMsg (L : LinkSt) (kind : Nat) : Option Payload :=
  match L.inbox with
  | (5, p) :: _ => if p.at 0 1 = kind then some p else none
  | _ => none

/-- R101: the address of register `k` of a message. -/
def msgAddr (p : Payload) (k : Nat) : Nat := (p.at 4 3 / 4 * 4 + 4 * k) % 2 ^ 24

/-- The data for register `k` of a message. -/
def msgData (p : Payload) (k : Nat) : Word := BitVec.ofNat 32 (p.at (8 + 4 * k) 4)

/-- The REGRSP of R100. -/
def regRsp (p : Payload) (code : Nat) (data : List Word) : Payload :=
  payload ([(0, 1, 4), (1, 1, p.at 1 1 % 4), (2, 1, p.at 2 1), (3, 1, p.at 3 1), (4, 3, p.at 4 3), (7, 1, code)] ++
    (data.zipIdx).map fun d => (8 + 4 * d.2, 4, d.1.toNat))

/-- R101: the first register of a message that refuses it: (address, code). -/
def State.refusedAt (s : State) (port : Nat) (p : Payload) (write late : Bool) : Option (Nat × Nat) :=
  ((List.range (p.at 2 1)).map fun k => (msgAddr p k, s.accessCode port (msgAddr p k) write (msgData p k) late)).find? fun x => x.2 != accOK

/-- R101: a REGWR. -/
def execRegwr (l : Link) (late : Bool) (s : State) : Host.Outcome State Fault Refusal :=
  let n := l.val
  match (s.link n).regMsg 2 with
  | none => .next s
  | some p =>
    let s := s.popInbox n
    let port := 4 * n + p.at 1 1 % 4
    match s.refusedAt port p true late with
    | some (a, c) => .next ((s.accessFault port a c).sendMgmt n (regRsp p c []))
    | none =>
      match (List.range (p.at 2 1)).findSome? fun k => s.keepFault port (msgAddr p k) (msgData p k) late with
      | some f => .fault f
      | none =>
        .next (((List.range (p.at 2 1)).foldl (fun (s : State) k => s.writeReg port (msgAddr p k) (msgData p k)) s).sendMgmt n (regRsp p accOK []))

/-- R101: a REGRD. -/
def execRegrd (l : Link) (late : Bool) (s : State) : Host.Outcome State Fault Refusal :=
  let n := l.val
  match (s.link n).regMsg 3 with
  | none => .next s
  | some p =>
    let s := s.popInbox n
    let port := 4 * n + p.at 1 1 % 4
    match s.refusedAt port p false late with
    | some (a, c) => .next ((s.accessFault port a c).sendMgmt n (regRsp p c ((List.range (p.at 2 1)).map fun _ => 0)))
    | none =>
      let (vs, s) := (List.range (p.at 2 1)).foldl (fun (x : List Word × State) k =>
        let (v, s) := x.2.readReg (msgAddr p k)
        (x.1 ++ [v], s)) ([], s)
      .next (s.sendMgmt n (regRsp p accOK vs))

/-! ### The sideband -/

/-- A number as bytes, most significant first (R129). -/
def beBytes (n v : Nat) : List Byte := (leBytes n v).reverse

/-- R129, R131: STATUS. -/
def execSbStatus (s : State) : Host.Outcome State Fault Refusal := .next { s with sbOut := beBytes 4 s.statusWord }

/-- R129: READ. Until 0.5 ms after power-good SB_SDO is driven 0 (R507). -/
def execSbRead (addr : BitVec 24) (late : Bool) (s : State) : Host.Outcome State Fault Refusal :=
  if s.bootPhase = 0 then .next { s with sbOut := [] }
  else
    let (c, v, s) := s.doRead 64 addr.toNat late
    .next { s with sbOut := [0xA5, BitVec.ofNat 8 c] ++ beBytes 4 v.toNat }

/-- R129: WRITE. -/
def execSbWrite (addr : BitVec 24) (data : Word) (late : Bool) (s : State) : Host.Outcome State Fault Refusal :=
  if s.bootPhase = 0 then .next { s with sbOut := [] }
  else
    match s.keepFault 64 addr.toNat data late with
    | some f => .fault f
    | none =>
      let (c, s) := s.doWrite 64 addr.toNat data late
      .next { s with sbOut := [0xA5, BitVec.ofNat 8 c] }

/-- R129: another opcode: SB_SDO stays 0, no effect. -/
def execSbUnknownOpcode (_op : BitVec 8) (s : State) : Host.Outcome State Fault Refusal := .next { s with sbOut := [] }

/-- R130: SB_CS_N rises before 0xA5: a READ, or a WRITE whose data has not all come (`none`), has no effect; a WRITE whose
data has been received completes and its result code is lost. -/
def execSbCsRise (received : Option (BitVec 24 × Word)) (late : Bool) (s : State) : Host.Outcome State Fault Refusal :=
  match received with
  | none => .next { s with sbOut := [] }
  | some (addr, data) =>
    if s.bootPhase = 0 then .next { s with sbOut := [] }
    else match s.keepFault 64 addr.toNat data late with
      | some f => .fault f
      | none => .next { (s.doWrite 64 addr.toNat data late).2 with sbOut := [] }

/-! ### Timers of a letterbox -/

/-- R118, R128: an owned letterbox with no command running is not accessed for MBX_CLAIM.timeout; with `tie`, the owner
accesses it in the cycle of expiry and wins. -/
def execMbxClaimTimeout (n : Lb) (tie : Bool) (s : State) : Host.Outcome State Fault Refusal :=
  if (s.lb n.val).running.isSome || (s.lbOwner n.val).isNone then .next s
  else if tie then .next (s.inc (F.MBX_CNT_NEARMISS_count n.val)) else .next (s.releaseLb n.val)

/-- R121, R128: a command's deadline expires; with `tie`, in the cycle of its commit point or completion, which wins. -/
def execMbxDeadlineExpiry (n : Lb) (tie : Bool) (s : State) : Host.Outcome State Fault Refusal :=
  if (s.lb n.val).running.isNone then .next s
  else if tie then .next (s.inc (F.MBX_CNT_NEARMISS_count n.val)) else .next (s.endEarly n.val cplDEADLINE)

/-! ### Writes and reads with a row of their own -/

/-- R104, R105: a write through any view. -/
def execRegisterWrite (path : Path) (addr : BitVec 24) (data : Word) (late : Bool) (s : State) : Host.Outcome State Fault Refusal :=
  match s.keepFault path.val addr.toNat data late with
  | some f => .fault f
  | none => .next (s.doWrite path.val addr.toNat data late).2

/-- R230: a read of ENG_EPOCH_LO latches the high half of the epoch counter. -/
def execEngEpochLoRead (t : Tile) (path : Path) (s : State) : Host.Outcome State Fault Refusal :=
  .next (s.doRead path.val (R.ENG_EPOCH_LO t.val) false).2.2

/-- The address of a containment register (R434). -/
def containAddr : ContainReg → Nat
  | .link => R.FLT_CONTAIN_LINK
  | .portLo => R.FLT_CONTAIN_PORT_LO
  | .portHi => R.FLT_CONTAIN_PORT_HI
  | .tile => R.FLT_CONTAIN_TILE
  | .misc => R.FLT_CONTAIN_MISC

/-- R50: a write of LNK_CTL. -/
def execLnkRetrain (l : Link) (path : Path) (data : Word) (s : State) : Host.Outcome State Fault Refusal :=
  s.regCommand path.val (R.LNK_CTL l.val) data

/-- R43: a write of LNK_CTL. -/
def execLnkHoldDown (l : Link) (path : Path) (data : Word) (s : State) : Host.Outcome State Fault Refusal :=
  s.regCommand path.val (R.LNK_CTL l.val) data

/-- R57: a write of LNK_REPAIR_REQ. -/
def execLnkRepairReq (l : Link) (path : Path) (data : Word) (s : State) : Host.Outcome State Fault Refusal :=
  s.regCommand path.val (R.LNK_REPAIR_REQ l.val) data

/-- R62: a write of LNK_CNT_CLR. -/
def execLnkCntClear (l : Link) (path : Path) (data : Word) (s : State) : Host.Outcome State Fault Refusal :=
  s.regCommand path.val (R.LNK_CNT_CLR l.val) data

/-- R62: a write of LNK_CNT_CLR. -/
def execLnkLaneErrClear (l : Link) (path : Path) (data : Word) (s : State) : Host.Outcome State Fault Refusal :=
  s.regCommand path.val (R.LNK_CNT_CLR l.val) data

/-- R62: a write of LNK_EVT_LOST. -/
def execLnkEvtLostClear (path : Path) (data : Word) (s : State) : Host.Outcome State Fault Refusal :=
  s.regCommand path.val R.LNK_EVT_LOST data

/-- R118: a write of MBX_BUF. -/
def execMbxBufWrite (n : Lb) (i : Fin 64) (path : Path) (data : Word) (s : State) : Host.Outcome State Fault Refusal :=
  s.regCommand path.val (R.MBX_BUF n.val i.val) data

/-- R120: a write of MBX_DOORBELL. -/
def execMbxDoorbell (n : Lb) (path : Path) (data : Word) (s : State) : Host.Outcome State Fault Refusal :=
  s.regCommand path.val (R.MBX_DOORBELL n.val) data

/-- R121: a write of MBX_CTL. -/
def execMbxAbort (n : Lb) (path : Path) (data : Word) (s : State) : Host.Outcome State Fault Refusal :=
  s.regCommand path.val (R.MBX_CTL n.val) data

/-- R118: a write of MBX_OWNER. -/
def execMbxRelease (n : Lb) (path : Path) (data : Word) (s : State) : Host.Outcome State Fault Refusal :=
  s.regCommand path.val (R.MBX_OWNER n.val) data

/-- R132: a write of CFG_SNAP. -/
def execSnapshotRequest (path : Path) (data : Word) (s : State) : Host.Outcome State Fault Refusal :=
  s.regCommand path.val R.CFG_SNAP data

/-- R197: a write of PRT_CNT_CLR. -/
def execPrtCntClear (p : Port) (path : Path) (data : Word) (s : State) : Host.Outcome State Fault Refusal :=
  s.regCommand path.val (R.PRT_CNT_CLR p.val) data

/-- R198: a write of SCH_POOL_OVER. -/
def execSchPoolOverClear (t : Tile) (path : Path) (data : Word) (s : State) : Host.Outcome State Fault Refusal :=
  s.regCommand path.val (R.SCH_POOL_OVER t.val) data

/-- R170: a write of SCH_CNT_CLR. -/
def execSchCntClear (t : Tile) (path : Path) (data : Word) (s : State) : Host.Outcome State Fault Refusal :=
  s.regCommand path.val (R.SCH_CNT_CLR t.val) data

/-- R216: a write of ENG_RING_CONS_WR. -/
def execEngRingConsWr (path : Path) (data : Word) (s : State) : Host.Outcome State Fault Refusal :=
  s.regCommand path.val R.ENG_RING_CONS_WR data

/-- R230: a write of ENG_CNT_CLR. -/
def execEngCntClear (t : Tile) (path : Path) (data : Word) (s : State) : Host.Outcome State Fault Refusal :=
  s.regCommand path.val (R.ENG_CNT_CLR t.val) data

/-- R255: a write of ENG_LK_CNT_CLR. -/
def execEngLkCntClear (t : Tile) (path : Path) (data : Word) (s : State) : Host.Outcome State Fault Refusal :=
  s.regCommand path.val (R.ENG_LK_CNT_CLR t.val) data

/-- R281: a write of CEL_QRESET. -/
def execCelQreset (path : Path) (data : Word) (s : State) : Host.Outcome State Fault Refusal :=
  s.regCommand path.val R.CEL_QRESET data

/-- R284: a write of CEL_CNT_CLR. -/
def execCelCntClear (path : Path) (data : Word) (s : State) : Host.Outcome State Fault Refusal :=
  s.regCommand path.val R.CEL_CNT_CLR data

/-- R301: a write of LAR_CNT_CLR. -/
def execLarCntClear (q : Quad) (path : Path) (data : Word) (s : State) : Host.Outcome State Fault Refusal :=
  s.regCommand path.val (R.LAR_CNT_CLR q.val) data

/-- R301: a write of LAR_CONF_CLR. -/
def execLarConfClear (q : Quad) (path : Path) (data : Word) (s : State) : Host.Outcome State Fault Refusal :=
  s.regCommand path.val (R.LAR_CONF_CLR q.val) data

/-- R333: a write of ECC_INJ_CTL. -/
def execEccInjArm (path : Path) (data : Word) (s : State) : Host.Outcome State Fault Refusal :=
  s.regCommand path.val R.ECC_INJ_CTL data

/-- R333: a write of ECC_CNT_CLR. -/
def execEccCntClear (c : Channel) (path : Path) (data : Word) (s : State) : Host.Outcome State Fault Refusal :=
  s.regCommand path.val (R.ECC_CNT_CLR c.val) data

/-- R342: a write of VRT_REPAIR_REQ. -/
def execVrtRepairReq (r : Tile) (path : Path) (data : Word) (s : State) : Host.Outcome State Fault Refusal :=
  s.regCommand path.val (R.VRT_REPAIR_REQ r.val) data

/-- R358: a write of VRT_CNT_CLR. -/
def execVrtCntClear (r : Tile) (path : Path) (data : Word) (s : State) : Host.Outcome State Fault Refusal :=
  s.regCommand path.val (R.VRT_CNT_CLR r.val) data

/-- R360: a write of CLK_CNT_CLR. -/
def execClkCntClear (path : Path) (data : Word) (s : State) : Host.Outcome State Fault Refusal :=
  s.regCommand path.val R.CLK_CNT_CLR data

/-- R390: a write of HKP_CNT_CLR. -/
def execHkpCntClear (path : Path) (data : Word) (s : State) : Host.Outcome State Fault Refusal :=
  s.regCommand path.val R.HKP_CNT_CLR data

/-- R390: a write of THM_CNT_CLR. -/
def execThmCntClear (path : Path) (data : Word) (s : State) : Host.Outcome State Fault Refusal :=
  s.regCommand path.val R.THM_CNT_CLR data

/-- R417: a write of BST_CNT_CLR. -/
def execBstCntClear (path : Path) (data : Word) (s : State) : Host.Outcome State Fault Refusal :=
  s.regCommand path.val R.BST_CNT_CLR data

/-- R425: a write of 1 to bits of an FLT_CONTAIN register. -/
def execContainRelease (reg : ContainReg) (path : Path) (data : Word) (s : State) : Host.Outcome State Fault Refusal :=
  s.regCommand path.val (containAddr reg) data

/-- R434: a write of FLT_DET_CLR. -/
def execFltDetClr (path : Path) (data : Word) (s : State) : Host.Outcome State Fault Refusal :=
  s.regCommand path.val R.FLT_DET_CLR data

/-- R434: a write of FLT_CNT_CLR. -/
def execFltCntClear (path : Path) (data : Word) (s : State) : Host.Outcome State Fault Refusal :=
  s.regCommand path.val R.FLT_CNT_CLR data

/-- R456: a write of CST_CNT_CLR. -/
def execCstCntClear (path : Path) (data : Word) (s : State) : Host.Outcome State Fault Refusal :=
  s.regCommand path.val R.CST_CNT_CLR data

/-- R487: a write of SEC_DBGHALT. -/
def execSecDbghalt (path : Path) (data : Word) (s : State) : Host.Outcome State Fault Refusal :=
  s.regCommand path.val R.SEC_DBGHALT data

/-- R487: a write of SEC_DBGMEM_CTL. -/
def execSecDbgmemAccess (path : Path) (data : Word) (s : State) : Host.Outcome State Fault Refusal :=
  s.regCommand path.val R.SEC_DBGMEM_CTL data

/-- R487: a write of SEC_CNT_CLR. -/
def execSecCntClear (path : Path) (data : Word) (s : State) : Host.Outcome State Fault Refusal :=
  s.regCommand path.val R.SEC_CNT_CLR data

/-- R502: a write of PWR_WAKE. -/
def execPwrWake (path : Path) (data : Word) (s : State) : Host.Outcome State Fault Refusal :=
  s.regCommand path.val R.PWR_WAKE data

/-- R513: a write of PWR_LRST. -/
def execLinkReset (path : Path) (data : Word) (s : State) : Host.Outcome State Fault Refusal :=
  s.regCommand path.val R.PWR_LRST data

/-- R517: a write of PWR_CNT_CLR. -/
def execPwrCntClear (path : Path) (data : Word) (s : State) : Host.Outcome State Fault Refusal :=
  s.regCommand path.val R.PWR_CNT_CLR data

end Sys2Proof.Machine
end

