-- ==== Sys2Proof/Machine/Tap.lean ====
section
/-! DEFINITION. The test port (R354-R356, R414, R415, R488, R535). Every command is one instruction with one scan of the
register it selects: what is shifted in is an operand, and what was captured and is shifted out is `tap.tdo`. What the pins
and lines drive into a capture are operands. -/

namespace Sys2Proof.Machine

/-! ### What is served (R414, R479) -/

/-- R507: the port works while the device has power, from 0.5 ms on. -/
def State.tapOn (s : State) : Bool := s.pwr.good && (s.bootPhase != 0 || s.pwr.inReset)

/-- An instruction above D0 is served at its level, outside RETENTION, once the Cornerstone is checked. -/
def State.tapLevel (s : State) (l : Nat) : Bool := s.fb F.CST_STATUS_sensed && s.mode != 4 && decide (l ≤ s.level)

/-- What D2 adds in MAINTENANCE. -/
def State.tapMaint (s : State) : Bool := s.tapLevel 2 && s.mode == 5

def State.anyOpen (s : State) : Bool := (List.range 16).any fun n => s.linkState n == lsOpen

/-- The level that an instruction code needs (R414, R479); codes not listed act as BYPASS. -/
def State.tapServes (s : State) (code : Nat) : Bool :=
  match code with
  | 0x01 | 0x38 => true
  | 0x02 | 0x10 | 0x11 | 0x20 | 0x21 | 0x22 | 0x30 => s.tapLevel 1
  | 0x03 | 0x04 | 0x05 => s.tapMaint && !s.anyOpen
  | _ => false

/-- R414: the instruction in effect: BYPASS in place of one that is not served. -/
def State.tapInstr (s : State) : Nat := if s.tapServes s.tap.ir then s.tap.ir else 0xFF

def State.modTap (s : State) (f : TapSt → TapSt) : State := { s with tap := f s.tap }

/-- An instruction is loaded; `f` is its scan when it is served, and the bypass register is scanned otherwise: it captures 0. -/
def State.tapRun (s : State) (code : Nat) (f : State → State) : Host.Outcome State Fault Refusal :=
  if !s.tapOn then .next s
  else
    let s := s.modTap fun t => { t with ir := code, tdo := 0 }
    .next (if s.tapServes code then f s else s)

/-- R414: the package IDCODE. -/
def idcodeOf (version : BitVec 4) (part : Nat) : Nat := version.toNat * 2 ^ 28 + part * 2 ^ 12 + 0x1A3 * 2 + 1

/-! ### Package instructions -/

def execIdcode (s : State) : Host.Outcome State Fault Refusal :=
  s.tapRun 0x01 fun s => s.modTap fun t => { t with tdo := idcodeOf Config.version 0x9616 }

/-- SAMPLE captures the pins; PRELOAD loads what is shifted in. -/
def execSamplePreload (pins data : BitVec 2452) (s : State) : Host.Outcome State Fault Refusal :=
  s.tapRun 0x02 fun s => s.modTap fun t => { t with tdo := pins.toNat, boundary := data.toNat }

/-- EXTEST drives the outputs from the boundary register and captures the pins. -/
def execExtest (pins data : BitVec 2452) (s : State) : Host.Outcome State Fault Refusal :=
  s.tapRun 0x03 fun s => s.modTap fun t => { t with tdo := pins.toNat, boundary := data.toNat }

/-- CLAMP and HIGHZ select the bypass register; what they do to the outputs follows from the instruction in effect. -/
def execClamp (s : State) : Host.Outcome State Fault Refusal := s.tapRun 0x04 fun s => s

def execHighz (s : State) : Host.Outcome State Fault Refusal := s.tapRun 0x05 fun s => s

def execBypass (s : State) : Host.Outcome State Fault Refusal := s.tapRun 0xFF fun s => s

/-- R414: the signal pins as the test port drives them: from the boundary register, held, floating, or not at all. -/
inductive PinDrive where
  | normal
  | boundary (value : Nat)
  | floating
deriving DecidableEq, Repr

def State.pinDrive (s : State) : PinDrive :=
  match s.tapInstr with
  | 0x03 | 0x04 => .boundary s.tap.boundary
  | 0x05 => .floating
  | _ => .normal

/-- R354: the tier-select register. -/
def execTierSel (sel : BitVec 18) (s : State) : Host.Outcome State Fault Refusal :=
  s.tapRun 0x10 fun s => s.modTap fun t => { t with tdo := t.tierSel, tierSel := sel.toNat }

/-! ### The tier chain (R354-R356) -/

/-- A tier's instruction register. -/
def State.dieIr (s : State) (k : Nat) : Nat := Tab.get (fun _ => 0xF) s.tap.dieIr k

/-- R356: DWR_EXTEST needs D2 in MAINTENANCE with no link OPEN (R479). -/
def State.extestServed (s : State) : Bool := s.tapMaint && !s.anyOpen

/-- An instruction is loaded into a tier; DWR_EXTEST runs in it until another is. -/
def State.setDieIr (s : State) (k code : Nat) : State :=
  s.modTap fun t =>
    { t with
      dieIr := Tab.set (fun _ => 0xF) t.dieIr k code
      extest := (t.extest.filter (· ≠ k)) ++ if code = 3 ∧ s.extestServed then [k] else [] }

/-- R414: instructions are shifted into the tiers that the chain includes; what their registers capture is not stated. -/
def execTierScan (codes : List (Fin 18 × BitVec 4)) (s : State) : Host.Outcome State Fault Refusal :=
  s.tapRun 0x11 fun s =>
    let (v, s) := s.takeFree
    let s := codes.foldl (fun (s : State) x => if s.tap.tierSel.testBit x.1.val then s.setDieIr x.1.val x.2.toNat else s) s
    s.modTap fun t => { t with tdo := v }

/-- R355: the register of a tier is scanned under an instruction of its own, through TIER_SCAN; a tier that the chain
bypasses takes no part. -/
def State.dieRun (s : State) (tier code : Nat) (served : Bool) (f : State → State) : Host.Outcome State Fault Refusal :=
  s.tapRun 0x11 fun s =>
    if s.tap.tierSel.testBit tier then
      let s := s.setDieIr tier code
      if served then f s else s
    else s

/-- R355: the part number of a tier. -/
def tierPart (k : Nat) : Nat := if k = 0 then 0x9619 else if k = 1 then 0x9617 else 0x9618

/-- R355: the length of a tier's die wrapper register. -/
def dwrLength (k : Nat) : Nat := if k < 2 then 6864 else 632

def execDieIdcode (tier : Fin 18) (s : State) : Host.Outcome State Fault Refusal :=
  s.dieRun tier.val 0x1 true fun s => s.modTap fun t => { t with tdo := idcodeOf (Config.dieVersion tier.val) (tierPart tier.val) }

def execDwrSample (tier : Fin 18) (lines : BitVec 6864) (s : State) : Host.Outcome State Fault Refusal :=
  s.dieRun tier.val 0x2 (s.tapLevel 1) fun s => s.modTap fun t => { t with tdo := lines.toNat % 2 ^ dwrLength tier.val }

/-- R356: the riser lines are driven and captured. While the instruction stays the dies of the tier, or all sixteen for the
risers of a base tier, are not refreshed, and their contents are lost (State.refreshes). -/
def execDwrExtest (tier : Fin 18) (lines data : BitVec 6864) (s : State) : Host.Outcome State Fault Refusal :=
  let k := tier.val
  s.dieRun k 0x3 s.extestServed fun s =>
    let s := s.modTap fun t => { t with tdo := lines.toNat % 2 ^ dwrLength k, dwr := natSet t.dwr k (data.toNat % 2 ^ dwrLength k) }
    (if k < 2 then List.range 32 else [2 * (k - 2), 2 * (k - 2) + 1]).foldl State.loseDram s

/-- The addresses of a tier's register block. -/
def inTier (k a : Nat) : Bool :=
  if k = 0 then false
  else if k = 1 then decide (0x40000 ≤ a) && decide (a < 0x44000)
  else decide (0x380000 + 0x4000 * (k - 2) ≤ a) && decide (a < 0x384000 + 0x4000 * (k - 2))

/-- R355, R356: DIE_REG; in the Plinth it acts as BYPASS, and an address outside the tier's block reaches nothing. -/
def execDieReg (tier : Fin 18) (write : Bool) (addr : BitVec 23) (data : Word) (late : Bool) (s : State) : Host.Outcome State Fault Refusal :=
  let k := tier.val
  let a := addr.toNat
  let on := s.tapLevel (if write then 2 else 1) && s.tap.tierSel.testBit k && inTier k a && s.tapOn
  match (if on && write then s.keepFault 65 a data late else none) with
  | some f => .fault f
  | none =>
    s.dieRun k 0x8 on fun s =>
      let (v, s) := if write then (data, (s.doWrite 65 a data late).2) else let (_, v, s) := s.doRead 65 a late; (v, s)
      s.modTap fun t => { t with tdo := (if write then 2 ^ 55 else 0) + a * 2 ^ 32 + v.toNat }

def execDieBypass (tier : Fin 18) (s : State) : Host.Outcome State Fault Refusal := s.dieRun tier.val 0xF true fun s => s

/-! ### Core wrappers (R415) -/

def execCoreSel (sel : BitVec 8) (s : State) : Host.Outcome State Fault Refusal :=
  s.tapRun 0x20 fun s => s.modTap fun t => { t with tdo := t.coreSel, coreSel := sel.toNat }

/-- A core is selected. -/
def State.coreIn (s : State) : Bool := decide (s.tap.coreSel ≤ 184)

/-- R415, R479: a wrapper instruction is served. -/
def State.wirServes (s : State) (core code : Nat) : Bool :=
  match code with
  | 1 | 2 | 5 => s.tapMaint
  | 4 => s.tapMaint || (s.tapLevel 2 && (decide (core < 128) || (decide (177 ≤ core) && decide (core ≤ 180))))
  | _ => s.tapLevel 1

def State.wirOf (s : State) (core : Nat) : Nat := natGet s.tap.wir core

/-- The kind and unit of the test that a core's WS_LBIST runs (R396, R415); a quadrant fabric is tested with its quadrant. -/
def lbistOf (core : Nat) : Nat × Nat :=
  if core < 128 then (tkEngine, core) else if core < 161 then (tkTile, core - 128) else if core < 177 then (tkLink, core - 161)
  else if core < 181 then (tkParlour, core - 177) else (tkQuad, core - 181)

/-- A wrapper instruction is loaded into the selected core; WS_LBIST starts its test. One that is not served acts as WS_BYPASS. -/
def State.loadWir (s : State) (code : Nat) : State :=
  let c := s.tap.coreSel
  if !s.coreIn then s
  else
    let code := if s.wirServes c code then code else 0
    let s := s.modTap fun t => { t with wir := natSet t.wir c code }
    if code = 4 then let (k, a) := lbistOf c; (s.startTest k a 0 0 none false).1 else s

/-- The data register of the selected core: `pins` are what a wrapper boundary captures. -/
def State.scanWdr (s : State) (pins data : Nat) : State :=
  let c := s.tap.coreSel
  let code := s.wirOf c
  if !s.coreIn || !s.wirServes c code then s
  else match code with
    | 1 | 2 | 3 | 5 => s.modTap fun t => { t with tdo := pins, wbr := natSet t.wbr c data }
    | 4 =>
      let (k, a) := lbistOf c
      let sig := match s.bst.results.find? fun x => x.kind == k && x.a == a with | some x => x.sig | none => 0
      s.modTap fun t => { t with tdo := sig }
    | _ => s

/-- R414: the selected core's instruction register; codes 6 and 7 act as WS_BYPASS. -/
def execWirScan (code : BitVec 3) (s : State) : Host.Outcome State Fault Refusal :=
  s.tapRun 0x21 fun s =>
    let old := s.wirOf s.tap.coreSel
    (s.loadWir (if code.toNat < 6 then code.toNat else 0)).modTap fun t => { t with tdo := old }

def execWdrScan (pins data : Nat) (s : State) : Host.Outcome State Fault Refusal := s.tapRun 0x22 fun s => s.scanWdr pins data

/-- A wrapper instruction with one scan of its register. -/
def State.wsRun (s : State) (code pins data : Nat) : Host.Outcome State Fault Refusal :=
  s.tapRun 0x22 fun s => (s.loadWir code).scanWdr pins data

def execWsBypass (s : State) : Host.Outcome State Fault Refusal := s.wsRun 0 0 0
def execWsExtest (pins data : Nat) (s : State) : Host.Outcome State Fault Refusal := s.wsRun 1 pins data
def execWsIntest (pins data : Nat) (s : State) : Host.Outcome State Fault Refusal := s.wsRun 2 pins data
def execWsPreload (pins data : Nat) (s : State) : Host.Outcome State Fault Refusal := s.wsRun 3 pins data
def execWsLbist (s : State) : Host.Outcome State Fault Refusal := s.wsRun 4 0 0
def execWsClamp (pins data : Nat) (s : State) : Host.Outcome State Fault Refusal := s.wsRun 5 pins data

/-! ### Register accesses (R414, R488) -/

/-- The 64 captured bits of REG_ACCESS. -/
def tapCapture (code addr : Nat) (data : Word) : Nat := code * 2 ^ 56 + addr * 2 ^ 32 + data.toNat

/-- An access on path 65; what it captures. -/
def State.tapAccess (s : State) (write : Bool) (addr : Nat) (data : Word) (late : Bool) : State :=
  if write then
    let (c, s) := s.doWrite 65 addr data late
    s.modTap fun t => { t with tdo := tapCapture c addr data }
  else
    let (c, v, s) := s.doRead 65 addr late
    s.modTap fun t => { t with tdo := tapCapture c addr v }

/-- REG_ACCESS is served: a read at D1, a write at D2 (R414); in RETENTION the wake alone (R502). -/
def State.regServed (s : State) (write : Bool) (addr : Nat) : Bool :=
  s.tapLevel (if write then 2 else 1) || (s.mode == 4 && write && offsetOf addr == R.PWR_WAKE && decide (2 ≤ s.level))

/-- R414. -/
def execRegAccess (write : Bool) (addr : BitVec 24) (data : Word) (late : Bool) (s : State) : Host.Outcome State Fault Refusal :=
  if !s.tapOn then .next s
  else
    let s := s.modTap fun t => { t with ir := 0x30, tdo := 0 }
    if !s.regServed write addr.toNat then .next s
    else match (if write then s.keepFault 65 addr.toNat data late else none) with
      | some f => .fault f
      | none => .next (s.tapAccess write addr.toNat data late)

/-- R488: SEC. -/
def State.secAccess (s : State) (write : Bool) (addr : Nat) (data : Word) (late : Bool) : State :=
  if s.mode = 4 then s.modTap fun t => { t with tdo := tapCapture accOK 0 (s.live.val R.SEC_STATUS) }
  else if !inLb 5 (offsetOf addr) then
    (s.accessFault 65 addr accDENIED).modTap fun t => { t with tdo := tapCapture accDENIED addr 0 }
  else s.tapAccess write addr data late

/-- R488. -/
def execSec (write : Bool) (addr : BitVec 24) (data : Word) (late : Bool) (s : State) : Host.Outcome State Fault Refusal :=
  if !s.tapOn then .next s
  else
    let s := s.modTap fun t => { t with ir := 0x38, tdo := 0 }
    match (if write && s.mode != 4 && inLb 5 (offsetOf addr.toNat) then s.keepFault 65 addr.toNat data late else none) with
    | some f => .fault f
    | none => .next (s.secAccess write addr.toNat data late)

/-! ### Test reset (R535) -/

/-- The registers of a test reset: IDCODE selected, every tier in BYPASS and every wrapper in WS_BYPASS; parlour cores under
scan restart (R478). -/
def State.tapReset (s : State) : State :=
  let cores := s.tap.wir.filter fun e => decide (177 ≤ e.1) && decide (e.1 ≤ 180) && (e.2 == 1 || e.2 == 2 || e.2 == 5)
  let s := cores.foldl (fun (s : State) e => s.restartCore (e.1 - 177)) s
  { s with tap := {} }

/-- R535: a REG_ACCESS or SEC under way completes when Update-DR has come before the reset, and is not made otherwise. -/
def execTestReset (access : Option TapAccess) (s : State) : Host.Outcome State Fault Refusal :=
  if !s.tapOn then .next s
  else match access with
    | some x =>
      if !x.updated then .next s.tapReset
      else if x.sec then
        match (if x.write && s.mode != 4 && inLb 5 (offsetOf x.addr.toNat) then s.keepFault 65 x.addr.toNat x.data false else none) with
        | some f => .fault f
        | none => .next (s.secAccess x.write x.addr.toNat x.data false).tapReset
      else if !s.regServed x.write x.addr.toNat then .next s.tapReset
      else match (if x.write then s.keepFault 65 x.addr.toNat x.data false else none) with
        | some f => .fault f
        | none => .next (s.tapAccess x.write x.addr.toNat x.data false).tapReset
    | none => .next s.tapReset

end Sys2Proof.Machine
end

