-- ==== Sys2Proof/Machine/Dispatch.lean ====
section
/-! DEFINITION. The dispatch of commands to their meanings, one arm per constructor of `Instr`. -/

namespace Sys2Proof.Machine

def exec (i : Instr) (s : State) : Host.Outcome State Fault Refusal :=
  match i with
  | .clockDrift l => Sys2Proof.Machine.execClockDrift l s
  | .reqFlit l side data badLane => Sys2Proof.Machine.execReqFlit l side data badLane s
  | .requestHeader l => Sys2Proof.Machine.execRequestHeader l s
  | .decisionVector l => Sys2Proof.Machine.execDecisionVector l s
  | .decisionComplement l => Sys2Proof.Machine.execDecisionComplement l s
  | .wdata l => Sys2Proof.Machine.execWdata l s
  | .wdataLate p tag => Sys2Proof.Machine.execWdataLate p tag s
  | .sequencedFlit l side data badLane => Sys2Proof.Machine.execSequencedFlit l side data badLane s
  | .retry l => Sys2Proof.Machine.execRetry l s
  | .replayTimeout l tie => Sys2Proof.Machine.execReplayTimeout l tie s
  | .creditReturn l n => Sys2Proof.Machine.execCreditReturn l n s
  | .linkOpen l => Sys2Proof.Machine.execLinkOpen l s
  | .linkToVestibule l => Sys2Proof.Machine.execLinkToVestibule l s
  | .park l => Sys2Proof.Machine.execPark l s
  | .parkAck l => Sys2Proof.Machine.execParkAck l s
  | .parkNak l => Sys2Proof.Machine.execParkNak l s
  | .parkEntry l => Sys2Proof.Machine.execParkEntry l s
  | .autoDoze l e => Sys2Proof.Machine.execAutoDoze l e s
  | .linkWake l => Sys2Proof.Machine.execLinkWake l s
  | .trainingStart l => Sys2Proof.Machine.execTrainingStart l s
  | .forwardedClockStop l => Sys2Proof.Machine.execForwardedClockStop l s
  | .lnkRetrain l path data => Sys2Proof.Machine.execLnkRetrain l path data s
  | .trainStepDone l obs tie => Sys2Proof.Machine.execTrainStepDone l obs tie s
  | .trainStepTimeout l => Sys2Proof.Machine.execTrainStepTimeout l s
  | .trainTotalTimeout l => Sys2Proof.Machine.execTrainTotalTimeout l s
  | .trainBackoffExpiry l => Sys2Proof.Machine.execTrainBackoffExpiry l s
  | .shortRetrainStepDone l obs tie => Sys2Proof.Machine.execShortRetrainStepDone l obs tie s
  | .shortRetrainTimeout l => Sys2Proof.Machine.execShortRetrainTimeout l s
  | .laneRepairRequest l lane e => Sys2Proof.Machine.execLaneRepairRequest l lane e s
  | .repair l => Sys2Proof.Machine.execRepair l s
  | .repairAck l => Sys2Proof.Machine.execRepairAck l s
  | .repairNak l => Sys2Proof.Machine.execRepairNak l s
  | .laneRepairSwitch l => Sys2Proof.Machine.execLaneRepairSwitch l s
  | .repairAckTimeout l => Sys2Proof.Machine.execRepairAckTimeout l s
  | .lnkRepairReq l path data => Sys2Proof.Machine.execLnkRepairReq l path data s
  | .dquery l => Sys2Proof.Machine.execDquery l s
  | .historyDiscard l => Sys2Proof.Machine.execHistoryDiscard l s
  | .eventDelivery => Sys2Proof.Machine.execEventDelivery s
  | .lnkHoldDown l path data => Sys2Proof.Machine.execLnkHoldDown l path data s
  | .lnkCntClear l path data => Sys2Proof.Machine.execLnkCntClear l path data s
  | .lnkLaneErrClear l path data => Sys2Proof.Machine.execLnkLaneErrClear l path data s
  | .lnkEvtLostClear path data => Sys2Proof.Machine.execLnkEvtLostClear path data s
  | .rd p tag => Sys2Proof.Machine.execRd p tag s
  | .wr p tag => Sys2Proof.Machine.execWr p tag s
  | .wrm p tag => Sys2Proof.Machine.execWrm p tag s
  | .lrd p tag met wrote => Sys2Proof.Machine.execLrd p tag met wrote s
  | .lwr p tag met wrote => Sys2Proof.Machine.execLwr p tag met wrote s
  | .lwrm p tag met wrote => Sys2Proof.Machine.execLwrm p tag met wrote s
  | .fence p tag => Sys2Proof.Machine.execFence p tag s
  | .tquery p tag => Sys2Proof.Machine.execTquery p tag s
  | .cadd64 p tag k => Sys2Proof.Machine.execCadd64 p tag k s
  | .caddpb p tag k => Sys2Proof.Machine.execCaddpb p tag k s
  | .caddd32 p tag k => Sys2Proof.Machine.execCaddd32 p tag k s
  | .crd p tag k => Sys2Proof.Machine.execCrd p tag k s
  | .crdclr p tag k => Sys2Proof.Machine.execCrdclr p tag k s
  | .cflush p tag => Sys2Proof.Machine.execCflush p tag s
  | .pol p tag k => Sys2Proof.Machine.execPol p tag k s
  | .hlk p tag => Sys2Proof.Machine.execHlk p tag s
  | .hins p tag => Sys2Proof.Machine.execHins p tag s
  | .hdel p tag => Sys2Proof.Machine.execHdel p tag s
  | .lpm p tag => Sys2Proof.Machine.execLpm p tag s
  | .walkNodeReturn p tag tie => Sys2Proof.Machine.execWalkNodeReturn p tag tie s
  | .walkStepTimeout p tag => Sys2Proof.Machine.execWalkStepTimeout p tag s
  | .enq p tag => Sys2Proof.Machine.execEnq p tag s
  | .deq p tag => Sys2Proof.Machine.execDeq p tag s
  | .qstat p tag => Sys2Proof.Machine.execQstat p tag s
  | .responseSend p tag => Sys2Proof.Machine.execResponseSend p tag s
  | .regwr l late => Sys2Proof.Machine.execRegwr l late s
  | .regrd l late => Sys2Proof.Machine.execRegrd l late s
  | .registerWrite path addr data late => Sys2Proof.Machine.execRegisterWrite path addr data late s
  | .sbStatus => Sys2Proof.Machine.execSbStatus s
  | .sbRead addr late => Sys2Proof.Machine.execSbRead addr late s
  | .sbWrite addr data late => Sys2Proof.Machine.execSbWrite addr data late s
  | .sbUnknownOpcode op => Sys2Proof.Machine.execSbUnknownOpcode op s
  | .sbCsRise received late => Sys2Proof.Machine.execSbCsRise received late s
  | .mbxBufWrite n word path data => Sys2Proof.Machine.execMbxBufWrite n word path data s
  | .mbxDoorbell n path data => Sys2Proof.Machine.execMbxDoorbell n path data s
  | .mbxAbort n path data => Sys2Proof.Machine.execMbxAbort n path data s
  | .mbxRelease n path data => Sys2Proof.Machine.execMbxRelease n path data s
  | .mbxClaimTimeout n tie => Sys2Proof.Machine.execMbxClaimTimeout n tie s
  | .mbxDeadlineExpiry n tie => Sys2Proof.Machine.execMbxDeadlineExpiry n tie s
  | .infoId n => Sys2Proof.Machine.execInfoId n s
  | .infoStatus n => Sys2Proof.Machine.execInfoStatus n s
  | .infoCaps n => Sys2Proof.Machine.execInfoCaps n s
  | .modeGet n => Sys2Proof.Machine.execModeGet n s
  | .modeSet n => Sys2Proof.Machine.execModeSet n s
  | .planLoad n => Sys2Proof.Machine.execPlanLoad n s
  | .planCheck n => Sys2Proof.Machine.execPlanCheck n s
  | .planCommit n => Sys2Proof.Machine.execPlanCommit n s
  | .planGet n => Sys2Proof.Machine.execPlanGet n s
  | .portSet n => Sys2Proof.Machine.execPortSet n s
  | .portGet n => Sys2Proof.Machine.execPortGet n s
  | .portReset n => Sys2Proof.Machine.execPortReset n s
  | .portResetCommit => Sys2Proof.Machine.execPortResetCommit s
  | .zoneSet n => Sys2Proof.Machine.execZoneSet n s
  | .zoneGet n => Sys2Proof.Machine.execZoneGet n s
  | .retireRow n => Sys2Proof.Machine.execRetireRow n s
  | .retireBank n => Sys2Proof.Machine.execRetireBank n s
  | .retireRestore n => Sys2Proof.Machine.execRetireRestore n s
  | .retireRemap n => Sys2Proof.Machine.execRetireRemap n s
  | .logRead n => Sys2Proof.Machine.execLogRead n s
  | .logClear n => Sys2Proof.Machine.execLogClear n s
  | .logSnapshot n => Sys2Proof.Machine.execLogSnapshot n s
  | .testRun n => Sys2Proof.Machine.execTestRun n s
  | .testResult n => Sys2Proof.Machine.execTestResult n s
  | .testSchedule n => Sys2Proof.Machine.execTestSchedule n s
  | .thermGet n => Sys2Proof.Machine.execThermGet n s
  | .thermSet n => Sys2Proof.Machine.execThermSet n s
  | .calRun n => Sys2Proof.Machine.execCalRun n s
  | .calStatus n => Sys2Proof.Machine.execCalStatus n s
  | .otpRead n => Sys2Proof.Machine.execOtpRead n s
  | .otpBurn n obs => Sys2Proof.Machine.execOtpBurn n obs s
  | .otpFinalise n obs => Sys2Proof.Machine.execOtpFinalise n obs s
  | .secAttest n => Sys2Proof.Machine.execSecAttest n s
  | .secChallenge n => Sys2Proof.Machine.execSecChallenge n s
  | .secUnlock n tie => Sys2Proof.Machine.execSecUnlock n tie s
  | .secLifecycleMove n obs tie => Sys2Proof.Machine.execSecLifecycleMove n obs tie s
  | .secLifecycleRevoke n obs tie => Sys2Proof.Machine.execSecLifecycleRevoke n obs tie s
  | .fwLoad n => Sys2Proof.Machine.execFwLoad n s
  | .fwActivateTry n => Sys2Proof.Machine.execFwActivateTry n s
  | .fwActivateCommit n obs => Sys2Proof.Machine.execFwActivateCommit n obs s
  | .fwActivateRevert n => Sys2Proof.Machine.execFwActivateRevert n s
  | .fwStatus n => Sys2Proof.Machine.execFwStatus n s
  | .cfgBegin n => Sys2Proof.Machine.execCfgBegin n s
  | .cfgCommit n => Sys2Proof.Machine.execCfgCommit n s
  | .cfgAbort n => Sys2Proof.Machine.execCfgAbort n s
  | .cfgRef n => Sys2Proof.Machine.execCfgRef n s
  | .cfgSave n => Sys2Proof.Machine.execCfgSave n s
  | .configCommitBoundary => Sys2Proof.Machine.execConfigCommitBoundary s
  | .cfgCrcPass d flip overlap => Sys2Proof.Machine.execCfgCrcPass d flip overlap s
  | .voteDisagreement field quad lost => Sys2Proof.Machine.execVoteDisagreement field quad lost s
  | .cfgSessionIdle tie => Sys2Proof.Machine.execCfgSessionIdle tie s
  | .bootFlashConfigApply => Sys2Proof.Machine.execBootFlashConfigApply s
  | .snapshotRequest path data => Sys2Proof.Machine.execSnapshotRequest path data s
  | .snapshotTake => Sys2Proof.Machine.execSnapshotTake s
  | .epochBoundary lanes lines => Sys2Proof.Machine.execEpochBoundary lanes lines s
  | .hammerTrigger c bank row => Sys2Proof.Machine.execHammerTrigger c bank row s
  | .penaltyExpiry => Sys2Proof.Machine.execPenaltyExpiry s
  | .actBudgetPeriod => Sys2Proof.Machine.execActBudgetPeriod s
  | .shortfallMergeExpiry => Sys2Proof.Machine.execShortfallMergeExpiry s
  | .demandReport => Sys2Proof.Machine.execDemandReport s
  | .prtCntClear p path data => Sys2Proof.Machine.execPrtCntClear p path data s
  | .schPoolOverClear t path data => Sys2Proof.Machine.execSchPoolOverClear t path data s
  | .schCntClear t path data => Sys2Proof.Machine.execSchCntClear t path data s
  | .riserTrainStepDone r ok fails trims => Sys2Proof.Machine.execRiserTrainStepDone r ok fails trims s
  | .arrayFillDone => Sys2Proof.Machine.execArrayFillDone s
  | .spillRecordWrite q => Sys2Proof.Machine.execSpillRecordWrite q s
  | .spillLostMergeExpiry q => Sys2Proof.Machine.execSpillLostMergeExpiry q s
  | .engRingConsWr path data => Sys2Proof.Machine.execEngRingConsWr path data s
  | .engEpochLoRead t path => Sys2Proof.Machine.execEngEpochLoRead t path s
  | .engCntClear t path data => Sys2Proof.Machine.execEngCntClear t path data s
  | .engLkCntClear t path data => Sys2Proof.Machine.execEngLkCntClear t path data s
  | .freeRefillLand q => Sys2Proof.Machine.execFreeRefillLand q s
  | .pairFree q => Sys2Proof.Machine.execPairFree q s
  | .headCacheIdleRelease queue tie => Sys2Proof.Machine.execHeadCacheIdleRelease queue tie s
  | .celQreset path data => Sys2Proof.Machine.execCelQreset path data s
  | .cellarInit => Sys2Proof.Machine.execCellarInit s
  | .cellarInitDone => Sys2Proof.Machine.execCellarInitDone s
  | .celCntClear path data => Sys2Proof.Machine.execCelCntClear path data s
  | .larCntClear q path data => Sys2Proof.Machine.execLarCntClear q path data s
  | .larConfClear q path data => Sys2Proof.Machine.execLarConfClear q path data s
  | .recurrenceAgeExpiry c tie => Sys2Proof.Machine.execRecurrenceAgeExpiry c tie s
  | .probeStart c => Sys2Proof.Machine.execProbeStart c s
  | .probeComplete c obs => Sys2Proof.Machine.execProbeComplete c obs s
  | .polisherRead c => Sys2Proof.Machine.execPolisherRead c s
  | .polisherWriteback c => Sys2Proof.Machine.execPolisherWriteback c s
  | .larderScrub q obs => Sys2Proof.Machine.execLarderScrub q obs s
  | .logMove => Sys2Proof.Machine.execLogMove s
  | .eccInjArm path data => Sys2Proof.Machine.execEccInjArm path data s
  | .eccCntClear c path data => Sys2Proof.Machine.execEccCntClear c path data s
  | .lineFailing r line tie => Sys2Proof.Machine.execLineFailing r line tie s
  | .softRepairVerifyDone r line mismatch => Sys2Proof.Machine.execSoftRepairVerifyDone r line mismatch s
  | .softRepairSwitch r => Sys2Proof.Machine.execSoftRepairSwitch r s
  | .vrtRepairReq r path data => Sys2Proof.Machine.execVrtRepairReq r path data s
  | .spareRiserMove c => Sys2Proof.Machine.execSpareRiserMove c s
  | .vrtCntClear r path data => Sys2Proof.Machine.execVrtCntClear r path data s
  | .pllLockLoss q => Sys2Proof.Machine.execPllLockLoss q s
  | .crossingTuneDone q setup hold => Sys2Proof.Machine.execCrossingTuneDone q setup hold s
  | .clockFallbackEntry => Sys2Proof.Machine.execClockFallbackEntry s
  | .clockFallbackExit => Sys2Proof.Machine.execClockFallbackExit s
  | .clkCntClear path data => Sys2Proof.Machine.execClkCntClear path data s
  | .dieIdcode tier => Sys2Proof.Machine.execDieIdcode tier s
  | .dwrSample tier lines => Sys2Proof.Machine.execDwrSample tier lines s
  | .dwrExtest tier lines data => Sys2Proof.Machine.execDwrExtest tier lines data s
  | .dieReg tier write addr data late => Sys2Proof.Machine.execDieReg tier write addr data late s
  | .dieBypass tier => Sys2Proof.Machine.execDieBypass tier s
  | .housekeepingRoundEnd obs => Sys2Proof.Machine.execHousekeepingRoundEnd obs s
  | .weathervaneRead g reading tie => Sys2Proof.Machine.execWeathervaneRead g reading tie s
  | .weathervaneFreshnessExpiry g => Sys2Proof.Machine.execWeathervaneFreshnessExpiry g s
  | .weathervaneStale d => Sys2Proof.Machine.execWeathervaneStale d s
  | .thermalShutdown tier => Sys2Proof.Machine.execThermalShutdown tier s
  | .calStepDone bad trims => Sys2Proof.Machine.execCalStepDone bad trims s
  | .reducedCalChunk bad trims => Sys2Proof.Machine.execReducedCalChunk bad trims s
  | .hkpCntClear path data => Sys2Proof.Machine.execHkpCntClear path data s
  | .thmCntClear path data => Sys2Proof.Machine.execThmCntClear path data s
  | .infieldTestDue u => Sys2Proof.Machine.execInfieldTestDue u s
  | .engineDrainDone e => Sys2Proof.Machine.execEngineDrainDone e s
  | .logicTestDone u sig fails tie => Sys2Proof.Machine.execLogicTestDone u sig fails tie s
  | .logicTestTimeout u => Sys2Proof.Machine.execLogicTestTimeout u s
  | .riserTestStepDone bad => Sys2Proof.Machine.execRiserTestStepDone bad s
  | .rowTestStep c differs lost => Sys2Proof.Machine.execRowTestStep c differs lost s
  | .larderBankTestStep q lines banks => Sys2Proof.Machine.execLarderBankTestStep q lines banks s
  | .testYield u => Sys2Proof.Machine.execTestYield u s
  | .yieldRetryExpiry u delay => Sys2Proof.Machine.execYieldRetryExpiry u delay s
  | .unitReturnSwitch u ok bad => Sys2Proof.Machine.execUnitReturnSwitch u ok bad s
  | .bstCntClear path data => Sys2Proof.Machine.execBstCntClear path data s
  | .idcode => Sys2Proof.Machine.execIdcode s
  | .samplePreload pins data => Sys2Proof.Machine.execSamplePreload pins data s
  | .extest pins data => Sys2Proof.Machine.execExtest pins data s
  | .clamp => Sys2Proof.Machine.execClamp s
  | .highz => Sys2Proof.Machine.execHighz s
  | .tierSel sel => Sys2Proof.Machine.execTierSel sel s
  | .tierScan codes => Sys2Proof.Machine.execTierScan codes s
  | .coreSel sel => Sys2Proof.Machine.execCoreSel sel s
  | .wirScan code => Sys2Proof.Machine.execWirScan code s
  | .wdrScan pins data => Sys2Proof.Machine.execWdrScan pins data s
  | .regAccess write addr data late => Sys2Proof.Machine.execRegAccess write addr data late s
  | .sec write addr data late => Sys2Proof.Machine.execSec write addr data late s
  | .bypass => Sys2Proof.Machine.execBypass s
  | .wsBypass => Sys2Proof.Machine.execWsBypass s
  | .wsExtest pins data => Sys2Proof.Machine.execWsExtest pins data s
  | .wsIntest pins data => Sys2Proof.Machine.execWsIntest pins data s
  | .wsPreload pins data => Sys2Proof.Machine.execWsPreload pins data s
  | .wsLbist => Sys2Proof.Machine.execWsLbist s
  | .wsClamp pins data => Sys2Proof.Machine.execWsClamp pins data s
  | .testReset access => Sys2Proof.Machine.execTestReset access s
  | .quietPeriodExpiry => Sys2Proof.Machine.execQuietPeriodExpiry s
  | .containUnit => Sys2Proof.Machine.execContainUnit s
  | .containRelease reg path data => Sys2Proof.Machine.execContainRelease reg path data s
  | .fltDetClr path data => Sys2Proof.Machine.execFltDetClr path data s
  | .fltCntClear path data => Sys2Proof.Machine.execFltCntClear path data s
  | .cstCntClear path data => Sys2Proof.Machine.execCstCntClear path data s
  | .strongroomBoot fuses sig => Sys2Proof.Machine.execStrongroomBoot fuses sig s
  | .parlourWatchdogExpiry c upsets => Sys2Proof.Machine.execParlourWatchdogExpiry c upsets s
  | .secWdKick c tie => Sys2Proof.Machine.execSecWdKick c tie s
  | .strongroomWatchdogExpiry kick => Sys2Proof.Machine.execStrongroomWatchdogExpiry kick s
  | .unlockExpiry => Sys2Proof.Machine.execUnlockExpiry s
  | .nonceLapse => Sys2Proof.Machine.execNonceLapse s
  | .lifecycleEffect => Sys2Proof.Machine.execLifecycleEffect s
  | .returnedWipeDone => Sys2Proof.Machine.execReturnedWipeDone s
  | .secDbghalt path data => Sys2Proof.Machine.execSecDbghalt path data s
  | .secDbgmemAccess path data => Sys2Proof.Machine.execSecDbgmemAccess path data s
  | .secCntClear path data => Sys2Proof.Machine.execSecCntClear path data s
  | .modeChangeBoundary => Sys2Proof.Machine.execModeChangeBoundary s
  | .coolPark l => Sys2Proof.Machine.execCoolPark l s
  | .coolParkTimeout l => Sys2Proof.Machine.execCoolParkTimeout l s
  | .retentionDrainDone tie => Sys2Proof.Machine.execRetentionDrainDone tie s
  | .retentionDrainTimeout => Sys2Proof.Machine.execRetentionDrainTimeout s
  | .pwrWake path data => Sys2Proof.Machine.execPwrWake path data s
  | .retentionExitDone elapsed us bad => Sys2Proof.Machine.execRetentionExitDone elapsed us bad s
  | .brownOut rail => Sys2Proof.Machine.execBrownOut rail s
  | .domainFault d => Sys2Proof.Machine.execDomainFault d s
  | .powerGood => Sys2Proof.Machine.execPowerGood s
  | .bootPhaseAdvance fuses => Sys2Proof.Machine.execBootPhaseAdvance fuses s
  | .bootTimeout => Sys2Proof.Machine.execBootTimeout s
  | .coldReset => Sys2Proof.Machine.execColdReset s
  | .warmReset => Sys2Proof.Machine.execWarmReset s
  | .warmResetRelease => Sys2Proof.Machine.execWarmResetRelease s
  | .linkReset path data => Sys2Proof.Machine.execLinkReset path data s
  | .pwrCntClear path data => Sys2Proof.Machine.execPwrCntClear path data s
  | .idleFlit l side badLane => Sys2Proof.Machine.execIdleFlit l side badLane s
  | .pllLock q => Sys2Proof.Machine.execPllLock q s

end Sys2Proof.Machine
end

