-- ==== Sys2Proof/Safety.lean ====
section
/-! DEFINITION. What the claims call a sound state, and the ways in which they say what a command leaves alone. -/

namespace Sys2Proof.Machine

/-! ### Sound states -/

/-- The two memories and the three register maps are in canonical form: keys strictly rising, no entry that an unlisted key
would read as. Two states that hold the same bytes and registers are then the same data. -/
def State.Canonical (s : State) : Prop :=
  Memory.wf s.dram = true ∧ Memory.wf s.larder = true ∧
  Tab.wf regReset s.staged = true ∧ Tab.wf regReset s.active = true ∧ Tab.wf regReset s.live = true

/-- R7: a frame has 8 flits and an epoch 8 frames. -/
def State.InTime (s : State) : Prop := s.flit < 8 ∧ s.frame < 8

/-- The step goes on: no fault and no refusal. -/
def GoesOn (o : Host.Outcome State Fault Refusal) : Prop := ∃ t, o = .next t

/-! ### What stays -/

/-- Every register of the live map outside `as` reads in `t` as in `s`. -/
def LiveBut (as : List Nat) (s t : State) : Prop := ∀ a, a ∉ as → t.live.val a = s.live.val a

/-- Every link but `n` is in `t` as in `s`. -/
def LinksBut (n : Nat) (s t : State) : Prop := ∀ k, k ≠ n → t.link k = s.link k

/-- A counter has risen by one, and no further than its width. -/
def Counted (f : Fld) (s t : State) : Prop := t.fv f = min (s.fv f + 1) (2 ^ f.width - 1)

/-- Every byte of both memories reads in `t` as in `s`. -/
def SameMemory (s t : State) : Prop :=
  (∀ a, memByte t.dram a = memByte s.dram a) ∧ ∀ a, memByte t.larder a = memByte s.larder a

/-- Both register maps of the configuration are in `t` as in `s`. -/
def SameConfig (s t : State) : Prop := t.staged = s.staged ∧ t.active = s.active

/-- The registers that raising a source and sending an event write: FLT_STATUS, the counters of R434, LNK_EVT_LOST. -/
def reportRegs : List Nat := [R.FLT_STATUS, R.FLT_CNT_RAISE, R.FLT_CNT_EVENT, R.FLT_CNT_QUIETRESTART, R.LNK_EVT_LOST]

/-- `t` is `s` but for what reports leave behind: sources raised below fatal, and events sent. -/
def Reported (s t : State) : Prop :=
  t = { s with live := t.live, evq := t.evq, evLost := t.evLost, flt := t.flt } ∧ LiveBut reportRegs s t

/-- Requests leave only as their responses, which waited on link `n`, go out: their tags are free from the next frame (R72). -/
def FreedBy (n : Nat) (s t : State) : Prop :=
  ∃ ks : List (Nat × Nat), (∀ k ∈ ks, ∃ f ∈ (s.link n).out, f.typ = 3 ∧ f.resp = some k) ∧
    t.reqs = s.reqs.filter (fun q => !ks.contains (q.port, q.tag)) ∧
    ∀ x ∈ t.sentTags, x ∈ s.sentTags ∨ ((x.1, x.2.1) ∈ ks ∧ x.2.2 = s.absFrame)

/-- `t` is `s` but for link `n`, which has sent what it may. -/
def LinkSends (n : Nat) (s t : State) : Prop :=
  t = { s with links := t.links, reqs := t.reqs, sentTags := t.sentTags } ∧ LinksBut n s t ∧ FreedBy n s t

/-- `t` is `s` but for link `n`, which has sent what it may, and the live registers `as`. -/
def LinkMoves (n : Nat) (as : List Nat) (s t : State) : Prop :=
  t = { s with links := t.links, live := t.live, reqs := t.reqs, sentTags := t.sentTags } ∧ LinksBut n s t ∧ LiveBut as s t ∧ FreedBy n s t

/-- `t` is `s` but for link `n`, the requests and their charges, the live registers `as`, and reports. -/
def LinkReports (n : Nat) (as : List Nat) (s t : State) : Prop :=
  t = { s with links := t.links, live := t.live, reqs := t.reqs, sentTags := t.sentTags, gate := t.gate, tiles := t.tiles
               evq := t.evq, evLost := t.evLost, flt := t.flt } ∧
  LinksBut n s t ∧ LiveBut (as ++ reportRegs) s t

/-- The deferral counters of a port. -/
def deferRegs (p : Nat) : List Nat :=
  [R.PRT_CNT_DEF_RIGHTS p, R.PRT_CNT_DEF_TAG p, R.PRT_CNT_DEF_FENCE p, R.PRT_CNT_DEF_OUTST p, R.PRT_CNT_DEF_ACT p,
    R.PRT_CNT_DEF_SLOT p, R.PRT_CNT_DEF_QUOTA p]

/-- Every request of another link than `n` is in `t` as in `s`, and `t` has no other. -/
def OthersStay (n : Nat) (s t : State) : Prop := ∀ q : Req, q.link ≠ n → (q ∈ t.reqs ↔ q ∈ s.reqs)

/-- Link `n` has gone to DOWN from its training: its requests are discarded, nothing is held, and the failure is reported. -/
def TrainingGivenUp (n : Nat) (s t : State) : Prop :=
  (t.link n).held = [] ∧ (∀ q ∈ t.reqs, q.link = n → q.discard = true) ∧ OthersStay n s t ∧ LinkReports n [R.LNK_STATUS n] s t

/-- Link `n` has left its state for TRAINING: the requests of the frame in progress are gone, what is held stays, and the
retraining is reported. -/
def Retrained (n : Nat) (s t : State) : Prop :=
  (t.link n).held = (s.link n).held ∧ t.reqs = s.reqs.filter (fun q => !(q.tentative && q.link == n)) ∧ t.sentTags = s.sentTags ∧
  LinkReports n [R.LNK_STATUS n, R.LNK_CNT_RETRAIN n, R.LNK_CTL n] s t

/-! ### Requests -/

/-- The flits of a link on their way out, oldest first: those held for a replay, then those that wait. -/
def LinkSt.flits (L : LinkSt) : List (Nat × Payload) := L.held.map (fun h => (h.typ, h.data)) ++ L.out.map fun f => (f.typ, f.data)

/-- The command for (port, tag) with opcode `op` runs the request `r`, whose answer is wanted. -/
def Runs (s : State) (op : Nat) (p : Port) (tag : BitVec 9) (r : Req) : Prop := s.runnable op p tag = some r ∧ r.discard = false

/-- The request of `r`'s port and tag is answered with `a`; every other request is as it was, but that one which has waited for
late data of `r` has no fixed latency any more (R162). -/
def Answers (s t : State) (r : Req) (a : Answer) : Prop :=
  t.reqs = (s.reqs.map fun (q : Req) => if q.waitedFor r = true then { q with unfixed := true } else q).map fun (q : Req) =>
    if q.port = r.port ∧ q.tag = r.tag then { q with answer := some a } else q

/-- No source from `lo` up to `hi` is set to the severity that stops the device. -/
def Mild (s : State) (lo hi : Nat) : Prop := ∀ src, lo ≤ src → src < hi → s.severityOf src ≠ 5

/-- No source but those that R422 sets to it by default (a lost vote and the Strongroom's watchdog) and the thermal shutdown has
the severity that stops the device. -/
def Gentle (s : State) : Prop := ∀ src, src < 722 → s.severityOf src = 5 → src = 616 ∨ src = Src.voteLost ∨ src = Src.trust 4

/-- A burst is in the array alone: no line of the counter cache, no probe, no copy of its row and no remap holds another of it. -/
def State.InArray (s : State) (l : Loc) : Prop :=
  s.cached l = none ∧ s.heldJob l = none ∧ s.mirrorRow l.ch l.bank l.row l.col = none ∧
  s.copyOf l.ch l.bank (s.physRow l.ch l.bank l.row) = none ∧ s.mirrorOf l.ch l.bank (s.physRow l.ch l.bank l.row) l.col = none ∧
  ∀ e, s.physRowAt e l.ch l.bank l.row = s.physRow l.ch l.bank l.row

/-- Word `w` of a burst is in the array alone, and reads as `x` with nothing to correct and no poison. -/
def CleanDram (s : State) (l : Loc) (w : Nat) (x : DWord) : Prop :=
  s.InArray l ∧ s.erasures l.ch w = [] ∧ decodeWord (s.dramGet (s.physWord l w)).toNat [] = .ok x.toNat [] false

/-- The codeword of word `w` of a Larder line, in the bank that serves. -/
def State.larderWord (s : State) (l : LLine) (w : Nat) : Codeword := s.larderGet (s.serving l).q (s.serving l).bank (s.serving l).line w

/-- Its place among the words of the Larder. -/
def State.larderPlace (s : State) (l : LLine) (w : Nat) : Nat := larderIndex (s.serving l).q (s.serving l).bank (s.serving l).line w

/-- Word `w` of a Larder line reads as `x` with nothing to correct and no poison. -/
def CleanLarder (s : State) (l : LLine) (w : Nat) (x : DWord) : Prop := decodeWord (s.larderWord l w).toNat [] = .ok x.toNat [] false

/-- No byte of `t`'s DRAM outside the codewords `ws` differs from `s`'s, and none of the Larder. -/
def StoresDram (ws : Nat → Prop) (s t : State) : Prop :=
  (∀ i, ¬ ws (i / 10) → memByte t.dram i = memByte s.dram i) ∧ ∀ i, memByte t.larder i = memByte s.larder i

/-- No byte of `t`'s Larder outside the codewords `ws` differs from `s`'s, and none of the DRAM. -/
def StoresLarder (ws : Nat → Prop) (s t : State) : Prop :=
  (∀ i, ¬ ws (i / 10) → memByte t.larder i = memByte s.larder i) ∧ ∀ i, memByte t.dram i = memByte s.dram i

/-- The registers that reading and writing stored words may write: the counts and status of the integrity blocks, and the
attributions of the risers. -/
def wordRegs : List Nat :=
  ((List.range 32).flatMap fun t => [R.ECC_STATUS t, R.ECC_CNT_CE t, R.ECC_CNT_UE t, R.ECC_CNT_ERASE t, R.ECC_CNT_POISON_RD t,
    R.ECC_CNT_SCRUB_CE t, R.ECC_CNT_SCRUB_UE t, R.ECC_CNT_PROBEDROP t, R.ECC_CNT_RECEVICT t, R.ECC_CNT_RETIRED t, R.ECC_CNT_LOGLOST t]) ++
  ((List.range 4).flatMap fun q => [R.ECC_CNT_LCE q, R.ECC_CNT_LUE q]) ++ (List.range 33).map R.VRT_CNT_ATTR ++ reportRegs

/-- `t` is `s` but for the requests, the memories, and what reading and writing their words leaves behind. -/
def WordsMove (s t : State) : Prop :=
  t = { s with reqs := t.reqs, live := t.live, dram := t.dram, larder := t.larder, ecc := t.ecc, vrt := t.vrt, free := t.free
               evq := t.evq, evLost := t.evLost, flt := t.flt } ∧ LiveBut wordRegs s t

/-- Nothing stands in the way of a request on the host path of the Larder in this flit: no access that goes before it uses a bank of
its, and no engine's access, one of `more` too, meets it on a word (R296, R297). -/
def HostFree (s : State) (r : Req) (more : List LAcc) : Prop :=
  ∀ x ∈ hostUse r, (∀ y ∈ s.hostAhead r, x.at_ ≠ y.at_) ∧ ∀ y ∈ s.lar.eng ++ more, x.meets y = false

/-- Its lines lie in different places of the Larder. -/
def LinesApart (s : State) (r : Req) : Prop :=
  ∀ b c, b ≤ r.len → c ≤ r.len → s.serving (scratchLine r.cfg (r.addr + 64 * b)) = s.serving (scratchLine r.cfg (r.addr + 64 * c)) → b = c

/-! ### Errors and risers -/

/-- The registers of channel `c`'s integrity block that errors, probes and the Polisher write, and those of its quadrant's Larder. -/
def eccRegs (c : Nat) : List Nat :=
  [R.ECC_STATUS c, R.ECC_SCRUB_PTR c, R.ECC_SCRUB_PASS c, R.ECC_CNT_CE c, R.ECC_CNT_UE c, R.ECC_CNT_ERASE c, R.ECC_CNT_POISON_RD c,
    R.ECC_CNT_SCRUB_CE c, R.ECC_CNT_SCRUB_UE c, R.ECC_CNT_PROBE c, R.ECC_CNT_TRANS c, R.ECC_CNT_INTERM c, R.ECC_CNT_HARD c,
    R.ECC_CNT_PROBEDROP c, R.ECC_CNT_RECEVICT c, R.ECC_CNT_NEARMISS c, R.ECC_CNT_RETIRED c, R.ECC_CNT_LOGLOST c,
    R.ECC_CNT_LCE (c / 8), R.ECC_CNT_LUE (c / 8)] ++ (List.range 33).map R.VRT_CNT_ATTR ++ reportRegs

/-- `t` is `s` but for channel `c`: its errors and probes, its slots, and the array. -/
def EccMoves (c : Nat) (s t : State) : Prop :=
  t = { s with live := t.live, dram := t.dram, ecc := t.ecc, vrt := t.vrt, tiles := t.tiles, free := t.free, evq := t.evq
               evLost := t.evLost, flt := t.flt } ∧
  (∀ k, k ≠ c → t.eccOf k = s.eccOf k ∧ t.tile k = s.tile k) ∧ LiveBut (eccRegs c) s t

/-- The registers of risers that repair, erasures and moves write. -/
def riserRegs : List Nat :=
  ((List.range 33).flatMap fun r => [R.VRT_STATUS r, R.VRT_DEAD r, R.VRT_CNT_SOFTREP r, R.VRT_CNT_SPAREBAD r, R.VRT_CNT_ERASE r,
    R.VRT_CNT_MOVE r, R.VRT_CNT_NEARMISS r, R.ECC_ERASE r, R.SCH_STATUS r] ++ (List.range 8).map (R.VRT_SPARE_MAP r)) ++
  (List.range 16).map R.VRT_DIE_CTL ++ [R.VRT_SPARE_CARRY, R.VRT_SPARE_DIES, R.THM_CAL_STATUS] ++ reportRegs

/-- `t` is `s` but for the risers, the live registers `as`, contents that a dead command line has lost, and reports. -/
def RisersMove (as : List Nat) (s t : State) : Prop :=
  t = { s with vrt := t.vrt, live := t.live, dramGen := t.dramGen, free := t.free, evq := t.evq, evLost := t.evLost, flt := t.flt } ∧
  LiveBut (as ++ riserRegs) s t

/-! ### Targets of counters and policers -/

/-- The codeword `off` bytes into a counter or policer operation's target. -/
def State.targetCode (s : State) (r : Req) (off : Nat) : Codeword :=
  if isL r.op r.flags then s.larderWord (scratchLine r.cfg (r.addr + off)) ((r.addr + off) / 8 % 8)
  else s.dramGet (s.physWord (dramLoc r.cfg (r.addr + off)) ((r.addr + off) / 8 % 8))

/-- The target is in its memory itself and nowhere else, on a riser with no line erased; no injection is armed. -/
def State.targetPlain (s : State) (r : Req) (off : Nat) : Prop :=
  s.fb F.ECC_INJ_CTL_arm = false ∧ (isL r.op r.flags = false →
    s.InArray (dramLoc r.cfg (r.addr + off)) ∧ s.erasures (dramLoc r.cfg (r.addr + off)).ch ((r.addr + off) / 8 % 8) = [])

/-- The target reads as `x`, with the bits `errs` corrected. -/
def TargetReads (s : State) (r : Req) (off : Nat) (x : DWord) (errs : List Nat) : Prop :=
  s.targetPlain r off ∧ decodeWord (s.targetCode r off).toNat [] = .ok x.toNat errs false

/-- Only the words at `offs` bytes into the target have changed, in either memory. -/
def StoresTarget (r : Req) (offs : List Nat) (s t : State) : Prop :=
  if isL r.op r.flags then
    StoresLarder (fun i => ∃ o ∈ offs, i = s.larderPlace (scratchLine r.cfg (r.addr + o)) ((r.addr + o) / 8 % 8)) s t
  else StoresDram (fun i => ∃ o ∈ offs, i = s.physWord (dramLoc r.cfg (r.addr + o)) ((r.addr + o) / 8 % 8)) s t

/-- The registers that counter and policer operations may write beside those of the words they read and write. -/
def counterRegs : List Nat :=
  ((List.range 32).flatMap fun t => [R.ENG_CNT_CUPD t, R.ENG_CNT_CHIT t, R.ENG_CNT_CMISS t, R.ENG_CNT_CWB t, R.ENG_CNT_OVF t,
    R.ENG_CNT_SPILL t, R.ENG_CNT_SPILL_LOST t, R.ENG_CNT_POL t, R.ENG_CNT_POLRED t, R.ENG_CNT_CDAMAGE t]) ++
  ((List.range 4).flatMap fun q => (List.range 32).map fun i => R.LAR_CNT_ECONF q i) ++ (List.range 32).map R.ENG_CTL ++
    [R.ENG_SPILL_STAGED] ++ wordRegs

/-- An engine operation of tile `t` may access the Larder words `use` in this flit (R296, R297). -/
def EngineFree (s : State) (r : Req) (t : Nat) (use : List LAcc) : Prop :=
  s.engineBusy r t use = none ∧ ∀ x ∈ use, ∀ y ∈ s.lar.host, x.meets y = false

/-- `t` is `s` but for the requests, the memories, and what counter and policer operations leave behind. -/
def EngineMoves (s t : State) : Prop :=
  t = { s with reqs := t.reqs, live := t.live, dram := t.dram, larder := t.larder, ecc := t.ecc, vrt := t.vrt, free := t.free
               eng := t.eng, lar := t.lar, tiles := t.tiles, evq := t.evq, evLost := t.evLost, flt := t.flt } ∧
  t.lar.host = s.lar.host ∧ LiveBut counterRegs s t

/-! ### Tables and queues -/

/-- A bucket that the engine reaches and whose words read as `y` with nothing to correct. -/
def cleanBucket (n : Nat) (y : Nat → DWord) : Bucket := ⟨n, some ((List.range 8).map fun w => ⟨y w, false, false, false⟩)⟩

/-- Bucket `n` of a request's table is in a channel that serves, and its words read as `y`. -/
def BucketReads (s : State) (r : Req) (n : Nat) (y : Nat → DWord) : Prop :=
  s.serves (dramLoc r.cfg (r.table.base + 64 * n)).ch = true ∧
  ∀ w, w < 8 → CleanDram s (dramLoc r.cfg (r.table.base + 64 * n)) w (y w)

/-- The candidates of a request's key. -/
def Req.keyBuckets (r : Req) : Nat × Nat := r.table.candidates (r.key r.table.keylen)

/-- The place in the DRAM of the word at an address. -/
def State.wordAt (s : State) (cfg : RegMap) (a : Nat) : Nat := s.physWord (dramLoc cfg a) (a / 8 % 8)

/-- The registers that lookups, walks and queue operations may write beside those of the words they read and write. -/
def tableRegs : List Nat :=
  ((List.range 32).flatMap fun t => [R.ENG_CNT_HLK t, R.ENG_CNT_HHIT t, R.ENG_CNT_HINS t, R.ENG_CNT_HDISP t, R.ENG_CNT_HFULL t,
    R.ENG_CNT_HDEL t, R.ENG_CNT_LPM t, R.ENG_CNT_LPMMISS t, R.ENG_CNT_WALKTO t, R.ENG_CNT_LKDAMAGE t, R.ENG_CNT_BADNODE t,
    R.ENG_CNT_NEARMISS t, R.SCH_POOL_OVER t]) ++ (List.range 4).map R.CEL_HC_STAT ++
  [R.CEL_STATUS, R.CEL_CNT_ENQ, R.CEL_CNT_DEQ, R.CEL_CNT_FULL, R.CEL_CNT_EMPTY, R.CEL_CNT_HCHIT, R.CEL_CNT_POISON, R.CEL_CNT_BROKEN,
    R.CEL_CNT_FREEWAIT, R.MAP_CNT_HOLE] ++ (List.range 32).map R.ENG_CTL ++ wordRegs

/-- `t` is `s` but for the requests, the memories, and what lookups, walks and queue operations leave behind. -/
def TablesMove (s t : State) : Prop :=
  t = { s with reqs := t.reqs, live := t.live, dram := t.dram, larder := t.larder, ecc := t.ecc, vrt := t.vrt, free := t.free
               eng := t.eng, lar := t.lar, cel := t.cel, tiles := t.tiles, evq := t.evq, evLost := t.evLost, flt := t.flt } ∧
  t.lar.host = s.lar.host ∧ LiveBut tableRegs s t

/-- `t` is `s` but for the requests, the slots of tiles, the Larder's paths, and counts and reports. -/
def TablesRead (s t : State) : Prop :=
  t = { s with reqs := t.reqs, live := t.live, tiles := t.tiles, lar := t.lar, evq := t.evq, evLost := t.evLost, flt := t.flt } ∧
  t.lar.host = s.lar.host ∧ LiveBut tableRegs s t

/-- No WR of a request's table is outstanding with it (R242). -/
def NoClash (s : State) (r : Req) : Prop := r.clash = false ∧ ∀ w ∈ s.reqs, meetsTable w r = false

/-- The request has touched the buckets `bs`. -/
def State.touching (s : State) (r : Req) (bs : List Nat) : State := s.modReq r fun q => { q with buckets := bs }

/-- The two words of a request's queue descriptor read as `a` and `b`. -/
def DescReads (s : State) (r : Req) (a b : DWord) : Prop :=
  CleanLarder s (descLine r.cfg r.queue).1 (descLine r.cfg r.queue).2 a ∧
  CleanLarder s (descLine r.cfg r.queue).1 ((descLine r.cfg r.queue).2 + 1) b

/-- They hold the descriptor `d`. -/
def DescHolds (t : State) (r : Req) (d : Desc) : Prop :=
  t.larderWord (descLine r.cfg r.queue).1 (descLine r.cfg r.queue).2 = encodeWord d.word0 false ∧
  t.larderWord (descLine r.cfg r.queue).1 ((descLine r.cfg r.queue).2 + 1) = encodeWord d.word1 false

/-- Every byte of the Larder outside a request's queue descriptor is as it was. -/
def OnlyDesc (r : Req) (s t : State) : Prop :=
  ∀ i, i / 10 ≠ s.larderPlace (descLine r.cfg r.queue).1 (descLine r.cfg r.queue).2 →
    i / 10 ≠ s.larderPlace (descLine r.cfg r.queue).1 ((descLine r.cfg r.queue).2 + 1) → memByte t.larder i = memByte s.larder i

/-- A cell lies in the user's DRAM, in channels that serve, and nowhere else. -/
def CellPlain (s : State) (r : Req) (x : Nat) : Prop :=
  (celCfg r.cfg).cellAt x + 256 ≤ dramTop ∧ s.servesRange r.cfg ((celCfg r.cfg).cellAt x) 4 = true ∧
  ∀ k, k < 4 → s.InArray (dramLoc r.cfg ((celCfg r.cfg).cellAt x + 64 * k))

/-- `t` is `s` but for what the Cellar does by itself: its caches and stack, and the words it reads and writes. -/
def CellarMoves (s t : State) : Prop :=
  t = { s with live := t.live, dram := t.dram, larder := t.larder, ecc := t.ecc, vrt := t.vrt, eng := t.eng, tiles := t.tiles
               cel := t.cel, free := t.free, evq := t.evq, evLost := t.evLost, flt := t.flt } ∧ LiveBut (R.CEL_LOST :: tableRegs) s t

/-! ### Letterboxes -/

/-- The command of letterbox `n` has ended: the letterbox is free for the next, its completion word holds the sequence number, the
status and the length of the result, and the result stands in the buffer. -/
def Completes (s t : State) (n status : Nat) (committed : Bool) (result : List Byte) : Prop :=
  t.lb n = {} ∧ t.bufBytes n 8 result.length = result ∧
  ∀ code seq, (s.lb n).running = some (code, seq) → t.fv (F.MBX_CPL_word n) = cplWord seq status committed result.length

/-- The registers of a letterbox, and those of reports. -/
def lbRegs (n : Nat) : List Nat :=
  [R.MBX_CTL n, R.MBX_DOORBELL n, R.MBX_CPL n, R.MBX_OWNER n] ++ (List.range 64).map (R.MBX_BUF n) ++ reportRegs

/-- Beside letterbox `n`, its completion note on a link and reports, `t` is `s`. -/
def OnlyLetterbox (s t : State) (n : Nat) : Prop :=
  t = { s with live := t.live, lbs := t.lbs, links := t.links, reqs := t.reqs, sentTags := t.sentTags, evq := t.evq, evLost := t.evLost
               flt := t.flt } ∧
  LiveBut (lbRegs n) s t ∧ (∀ k, k ≠ n → t.lb k = s.lb k) ∧ ∃ l, LinksBut l s t ∧ FreedBy l s t

/-- `u` is `s` but for what retiring a unit of channel `c` changes there: no error waits in its recurrence table or its probes for a unit
that is retired, and its counts tell. -/
def Retires (s u : State) (c : Nat) : Prop :=
  u = { s with live := u.live, ecc := u.ecc, evq := u.evq, evLost := u.evLost, flt := u.flt } ∧
  (∀ d, d ≠ c → u.eccOf d = s.eccOf d) ∧
  (∃ es, u.eccOf c = { s.eccOf c with rows := (u.eccOf c).rows, banks := (u.eccOf c).banks, recs := (u.eccOf c).recs
                                      probeQ := (u.eccOf c).probeQ, capture := (s.eccOf c).capture ++ es }) ∧
  LiveBut (R.ECC_STATUS c :: R.ECC_RET_CNT c :: R.ECC_CNT_LOGLOST c :: reportRegs) s u ∧
  ((u.eccOf c).rows = (s.eccOf c).rows ∧ (u.eccOf c).banks = (s.eccOf c).banks ∨
    ((∀ r ∈ (u.eccOf c).recs, u.isRetired c r.bank r.row = false) ∧ (∀ j ∈ (u.eccOf c).probeQ, u.isRetired c j.bank j.row = false) ∧
      u.fv (F.ECC_RET_CNT_rows c) = (u.eccOf c).rows.length % 2 ^ 8 ∧ u.fv (F.ECC_RET_CNT_banks c) = (u.eccOf c).banks.length % 2 ^ 8))

/-- Letterbox `n` runs the command `code`, and no restart of its core has met it. -/
def LbRuns (s : State) (n code : Nat) : Prop := s.runs n code = true ∧ (s.lb n).restarted = false

/-- The letterbox of a doorbell, its command's code, sequence number, flags and argument length as the buffer holds them. -/
def State.lbHeader (s : State) (n : Nat) : Nat × Nat × Nat × Nat :=
  (ofLeBytes (s.bufBytes n 0 2), ofLeBytes (s.bufBytes n 2 1), ofLeBytes (s.bufBytes n 3 1), ofLeBytes (s.bufBytes n 6 2))

/-- A write of `data` through the view of `addr` leaves the RW bits of the register `h` with what the view makes of them, in the
staged copy for configuration, and no other register changes. -/
def RwStored (s t : State) (addr : Nat) (h : RegHit) (data : Word) : Prop :=
  (∀ m, m = h.row.maskOf .rw &&& ~~~h.cfgMask &&& ~~~(h.row.maskOf .w1c ||| h.row.maskOf .w1s ||| h.row.maskOf .wo) →
    t.live.val h.addr &&& m = viewWrite (viewOf addr) (s.stored h) data &&& m) ∧
  t.staged.val h.addr &&& h.cfgMask = viewWrite (viewOf addr) (s.stored h) data &&& h.cfgMask ∧
  (∀ a, a ≠ h.addr → t.staged.val a = s.staged.val a) ∧ LiveBut [h.addr] s t

/-- Letterbox `n`'s command tells the result `bytes`: it completes OK with it, and nothing else happens. -/
def Tells (c : Instr) (s : State) (n : Nat) (bytes : List Byte) : Prop :=
  ∃ t, exec c s = .next t ∧ Completes s t n cplOK true bytes ∧ OnlyLetterbox s t n

/-- No session is open, or the letterbox's own is, and it is not frozen (R111). -/
def OwnSession (s : State) (n : Nat) : Prop :=
  s.session = none ∨ ∃ x, s.session = some x ∧ x.owner = s.lbPath n ∧ x.commitAt = none

/-- The command stages `m` in its path's session, opened where none is, and completes OK; nothing else changes. -/
def Stages (c : Instr) (s : State) (n : Nat) (m : RegMap) : Prop :=
  ∃ u t, s.sessionFor (s.lbPath n) = some u ∧ exec c s = .next t ∧ Completes s t n cplOK true [] ∧
    t.staged = m ∧ t.active = s.active ∧ (∃ y, t.session = some y ∧ y.owner = s.lbPath n ∧ y.commitAt = none) ∧
    OnlyLetterbox { u with staged := m } t n

/-- The snapshot of R132 has been taken in `u`: every counter is copied into its holding register, and CFG_SNAP tells. -/
def Snapped (s u : State) : Prop :=
  u = { s with live := u.live, snapAt := if s.snapDue then none else s.snapAt } ∧ u.fb F.CFG_SNAP_done = true ∧
  u.fb F.CFG_SNAP_req = (s.fb F.CFG_SNAP_req && !s.snapDue) ∧
  u.fv F.CFG_SNAP_seq = (s.fv F.CFG_SNAP_seq + 1) % 2 ^ 16 ∧ u.fv F.CFG_SNAP_EPOCH_epoch = s.epoch % 2 ^ 32 ∧
  (∀ i a m, snapRegs[i]? = some (a, m) → u.live.val (0x300000 + 4 * i) = s.live.val a &&& m) ∧
  LiveBut (R.CFG_SNAP :: R.CFG_SNAP_EPOCH :: (List.range snapRegs.length).map (0x300000 + 4 * ·)) s u

/-- The command has begun and waits for what ends it. -/
def Begun (s t : State) (n : Nat) (committed : Bool) (epoch : Nat) : Prop :=
  t.lb n = { s.lb n with begun := true, committed := committed, answerEpoch := epoch } ∧ ∀ k, k ≠ n → t.lb k = s.lb k

/-! ### Register writes -/

/-- A write of `data` at `addr` on a path ends OK (R102) and puts no other value into a KEEP field (R12). -/
def WriteTaken (s : State) (path addr : Nat) (data : Word) : Prop :=
  s.accessCode path addr true data false = accOK ∧ s.keepFault path addr data false = none

/-- A command that writes a clear register (`*_CNT_CLR`): a 1 in bit `i` clears counter `base + 4 i`, a 0 leaves it, and of the
rest of the state only what the clear register itself holds may change. -/
def ClearsCounters (c : Path → Word → Instr) (reg base n : Nat) : Prop :=
  ∀ (path : Path) (data : Word) (s : State), WriteTaken s path.val reg data → data.toNat < 2 ^ n →
    ∃ t, exec (c path data) s = .next t ∧
      (∀ i, i < n → t.live.val (base + 4 * i) = if data.toNat.testBit i then 0 else s.live.val (base + 4 * i)) ∧
      t = { s with live := t.live } ∧ ∀ a, a ≠ reg → (∀ i, i < n → a ≠ base + 4 * i) → t.live.val a = s.live.val a

/-! ### The Chimney -/

/-- The registers that a housekeeping round writes, beside those of reports. -/
def roundRegs : List Nat :=
  (List.range 192).map R.HKP_SAMPLE ++ (List.range 40).map R.HKP_VOLT ++ (List.range 24).map R.HKP_CUR ++ (List.range 104).map R.THM_DIODE ++
  (List.range 24).map R.THM_UNIT ++ (List.range 33).map R.THM_CAL_LAST ++
  [R.HKP_STATUS, R.HKP_ROUND, R.HKP_CNT_VOUT, R.HKP_CNT_CONVFAIL, R.HKP_CNT_COMPCLIP, R.THM_CNT_SUSPECT, R.THM_CNT_BROKEN, R.THM_CNT_WARN,
    R.THM_CNT_THROT, R.THM_CNT_WVOVER, R.THM_CAL_STATUS, R.PWR_STATUS]

/-- A step of calibration changes nothing beside the Chimney's own, a riser's line helper and its generator, and the live registers `as`. -/
def CalMoves (as : List Nat) (r : Nat) (s t : State) : Prop :=
  t = { s with live := t.live, thm := t.thm, vrt := t.vrt, free := s.free + 210 } ∧
  t.riser r = { s.riser r with helper := (t.riser r).helper } ∧ (∀ k, k ≠ r → t.riser k = s.riser k) ∧ LiveBut as s t

/-- `t` runs the calibration `r`, and the Chimney is else as in `s`. -/
def CalRuns (r : CalRun) (s t : State) : Prop := t.thm = { s.thm with cal := some r }

/-! ### Self-test -/

/-- `t` is `s` but for the tests, the live registers `as`, and reports. -/
def TestsMove (as : List Nat) (s t : State) : Prop :=
  t = { s with live := t.live, bst := t.bst, evq := t.evq, evLost := t.evLost, flt := t.flt } ∧ LiveBut (as ++ reportRegs) s t

/-- `t` is `s` but for the runs of tests and the live registers `as`. -/
def RunsMove (as : List Nat) (s t : State) : Prop :=
  t = { s with live := t.live, bst := { s.bst with runs := t.bst.runs } } ∧ LiveBut (R.BST_STATUS :: as) s t

/-- `t` is `s` but for the tests, the riser `r`'s line helper and its generator, and BST_STATUS. -/
def HelperMoves (r : Nat) (s t : State) : Prop :=
  t = { s with live := t.live, bst := { s.bst with runs := t.bst.runs }, vrt := t.vrt, free := s.free + 210 } ∧
  t.riser r = { s.riser r with helper := (t.riser r).helper } ∧ (∀ k, k ≠ r → t.riser k = s.riser k) ∧ LiveBut [R.BST_STATUS] s t

/-- The registers that tell of the shadow slots. -/
def shadowRegs : List Nat := (List.range 4).map R.LAR_SHADOW_USED

/-- `t` is `s` but for the tests, the memories, what reading and writing their words leaves behind, and the live registers `as`. -/
def TestWordsMove (as : List Nat) (s t : State) : Prop :=
  t = { s with live := t.live, dram := t.dram, larder := t.larder, ecc := t.ecc, vrt := t.vrt, tiles := t.tiles, free := t.free
               bst := t.bst, evq := t.evq, evLost := t.evLost, flt := t.flt } ∧ LiveBut (R.BST_STATUS :: as ++ wordRegs) s t

/-- The words of a burst of a physical row. -/
def burstWords (c bank row col i : Nat) : Prop := ∃ w, w < 8 ∧ i = (⟨c, bank, row, col⟩ : Loc).word w

/-- The words of a line of the Larder. -/
def lineWords (s : State) (l : LLine) (i : Nat) : Prop := ∃ w, w < 8 ∧ i = s.larderPlace l w

/-- The burst at which a row test stands is restored from slot `n`, and only it is written; a word of the slot that the decoder corrected
is written back. -/
def Restored (s t : State) (r : TestRun) (n : Nat) : Prop :=
  (∀ w x errs er, w < 8 → decodeWord (s.larderWord (slotLine n r.pos) w).toNat [] = .ok x errs er →
    t.dramGet ((⟨r.a, r.b, r.c, r.pos⟩ : Loc).word w) = encodeWord (BitVec.ofNat 64 x) (x.testBit 64)) ∧
  (∀ i, ¬ burstWords r.a r.b r.c r.pos (i / 10) → memByte t.dram i = memByte s.dram i) ∧
  (∀ i, ¬ lineWords s (slotLine n r.pos) (i / 10) → memByte t.larder i = memByte s.larder i) ∧ TestWordsMove [] s t

/-- The test of engine `e` has ended with FAIL: the engine is out. -/
def EngineFails (s t : State) (e : Nat) : Prop :=
  t.engineOut e = true ∧ Counted F.BST_CNT_FAIL_count s t ∧ (∃ x ∈ t.bst.results, x.kind = tkEngine ∧ x.a = e ∧ x.outcome = toFail) ∧
  TestsMove [R.BST_ENG_OUT (e / 32), R.BST_STATUS, R.BST_CNT_FAIL] s t

/-! ### Trust -/

/-- No parlour core is halted, and no core is under a wrapper instruction. -/
def State.Quiet (s : State) : Prop := s.fv F.SEC_DBGHALT_halt = 0 ∧ s.tap.wir = []

/-- Every pulse burns the bits it is asked for at every margin, and nothing stops or cuts the pump. -/
def PlainBurn (o : BurnObs) : Prop := o.pulses = [] ∧ o.reread = [] ∧ o.stop = none ∧ o.cut = none

/-- The registers that a change of the debug level writes, beside reports. -/
def levelRegs : List Nat := [R.SEC_STATUS, R.SEC_DBG, R.SEC_DBG_TIME, R.SEC_GATE] ++ reportRegs

/-- `u` is `s` but for the fuses and the counts of burning. -/
def Burned (s u : State) : Prop :=
  u = { s with cst := { s.cst with fuse := u.cst.fuse }, live := u.live } ∧ LiveBut [R.CST_CNT_PULSE, R.CST_CNT_RETRY, R.CST_CNT_SPARE] s u

/-- `u` is `s` but for what the Strongroom holds, the live registers `as`, and reports. -/
def TrustMoves (as : List Nat) (s u : State) : Prop :=
  u = { s with sec := u.sec, live := u.live, evq := u.evq, evLost := u.evLost, flt := u.flt } ∧ LiveBut (as ++ reportRegs) s u

/-- The near misses of the Strongroom have gone up by one where `tie` holds (R481, R486). -/
def NearMissIf (tie : Bool) (s t : State) : Prop :=
  t.fv F.SEC_CNT_NEARMISS_count = if tie = true then min (s.fv F.SEC_CNT_NEARMISS_count + 1) (2 ^ F.SEC_CNT_NEARMISS_count.width - 1)
    else s.fv F.SEC_CNT_NEARMISS_count

end Sys2Proof.Machine
end

