-- ==== Sys2Proof/Certificates/Slice0/Obligations.lean ====
section
/-! DEFINITION. The statements for the provers, family by family in the order of the table. -/

open Sys2Proof Sys2Proof.Machine

/-! ### Host links -/

/-- R22, R27, R33: a REQ flit of an OPEN link in flits 0-3. With a good CRC its headers wait, in position order, and nothing but
the link's own state changes; in single-decision mode those of flits 2 and 3 are discarded and their credits owed. When it fails
its CRC, no header of it waits, all four positions are deferred (where the mode reports them), its four credits are owed and a
RETRY is. -/
def Obligations.ReqFlitTakenOrDeferredWhole : Prop :=
  ∀ (l : Link) (side : BitVec 48) (data : Payload) (s : State),
    s.linkState l.val = lsOpen → sideType side = 1 → s.flit < 4 →
    (sideSeq side = s.frame12 % 256 → crc24 (s.frame12 / 256) side data = sideCrc side → (s.link l.val).single = false →
      ∀ lane, ∃ t, exec (.reqFlit l side data lane) s = .next t ∧
        (t.link l.val).hdrs = (s.link l.val).hdrs ++ reqSlots s.flit data ∧
        (t.link l.val).vec = (s.link l.val).vec ∧ (t.link l.val).credOwed = (s.link l.val).credOwed ∧
        LinkSends l.val s t) ∧
    (sideSeq side = s.frame12 % 256 → crc24 (s.frame12 / 256) side data = sideCrc side → (s.link l.val).single = true → 2 ≤ s.flit →
      ∀ lane, ∃ t, exec (.reqFlit l side data lane) s = .next t ∧ (t.link l.val).hdrs = (s.link l.val).hdrs ∧
        (t.link l.val).credOwed = (s.link l.val).credOwed + (reqSlots s.flit data).length ∧ LinkSends l.val s t) ∧
    (crc24 (s.frame12 / 256) side data ≠ sideCrc side →
      ∃ t, exec (.reqFlit l side data none) s = .next t ∧
        (t.link l.val).hdrs = (s.link l.val).hdrs ∧
        (t.link l.val).vec = (if s.flit < 2 ∨ (s.link l.val).single = false then (s.link l.val).vec ||| flitBits s.flit
          else (s.link l.val).vec) ∧
        (t.link l.val).credOwed = (s.link l.val).credOwed + 4 ∧
        (t.link l.val).retryOwed = true ∧ Counted (F.LNK_CNT_CRC_count l.val) s t ∧ Counted (F.LNK_CNT_REQCRC_count l.val) s t ∧
        t = { s with links := t.links, live := t.live } ∧ LinksBut l.val s t ∧
        LiveBut [R.LNK_CNT_CRC l.val, R.LNK_CNT_REQCRC l.val] s t)

/-- R33, R174, R25, R26: The gate decides the first header that waits on an OPEN link: its credit is owed, and either it is deferred, its
bit of the vector set and no request added, or it becomes one new request of its port and tag, its bit as it was. Without
memory rights it is deferred and counted in PRT_CNT_DEF_RIGHTS. Of the registers only the port's deferral counters and those of
reports change. In flit 7 of a link that is not waking from SLEEP the vector of the frame is driven on the usable decision lanes
and the frame's requests stand; in flit 0 its complement is driven, and nothing but the link changes; credits go back through a crd code of at most what is owed. -/
def Obligations.HeadersAreDecidedAndDecisionsDriven : Prop :=
  (∀ (l : Link) (s : State) (pos w : Nat) (rest : List (Nat × Nat)),
    s.linkState l.val = lsOpen → (s.link l.val).hdrs = (pos, w) :: rest →
    s.severityOf (Src.port 1 ((4 * l.val + (Hdr.ofNat w).sub) / 16)) ≠ 5 →
    ∃ t, exec (.requestHeader l) s = .next t ∧
      (t.link l.val).hdrs = rest ∧ (t.link l.val).credOwed = (s.link l.val).credOwed + 1 ∧ t.sentTags = s.sentTags ∧
      LinkReports l.val (deferRegs (4 * l.val + (Hdr.ofNat w).sub)) s t ∧
      ((t.reqs = s.reqs ∧ (t.link l.val).vec = (s.link l.val).vec ||| BitVec.ofNat 16 (1 <<< pos)) ∨
       (∃ r : Req, t.reqs = s.reqs ++ [r] ∧ r.port = 4 * l.val + (Hdr.ofNat w).sub ∧ r.tag = (Hdr.ofNat w).tag ∧
          r.op = (Hdr.ofNat w).op ∧ r.frame = s.absFrame ∧ r.cfg = s.active ∧ r.mode = s.mode ∧ r.tentative = true ∧
          (t.link l.val).vec = (s.link l.val).vec)) ∧
      (s.memRights (4 * l.val + (Hdr.ofNat w).sub) = false →
        t.reqs = s.reqs ∧ Counted (F.PRT_CNT_DEF_RIGHTS_count (4 * l.val + (Hdr.ofNat w).sub)) s t)) ∧
  ((∀ (l : Link) (s : State), s.linkTalks l.val = true → s.flit = 7 → (s.link l.val).hdrs = [] → (s.link l.val).complement = none →
    (s.link l.val).woken = false →
    ∃ t, exec (.decisionVector l) s = .next t ∧ (t.link l.val).lanes = (s.link l.val).onLanes (s.link l.val).vec ∧
      (∀ r ∈ t.reqs, r.link = l.val → r.tentative = false) ∧ SameMemory s t ∧ SameConfig s t ∧
      ((∀ k, k < 4 → s.severityOf (Src.port 0 k) ≠ 5) → (∀ r ∈ s.reqs, r.port < 64) →
        (t.link l.val).complement = some (s.link l.val).vec ∧ (t.link l.val).vec = 0 ∧
        t.reqs = s.reqs.map (fun r => if r.link = l.val then { r with tentative := false } else r) ∧
        t.sentTags = s.sentTags ∧ t.gate = s.gate ∧ t.tiles = s.tiles ∧
        LinkReports l.val ((List.range 64).flatMap fun p => [R.PRT_CNT_ACC p, R.PRT_CNT_CARRY p, R.PRT_CNT_SHARED p, R.PRT_CNT_DENIED p])
          s t)) ∧
  (∀ (l : Link) (s : State) (v : BitVec 16), s.flit = 0 → (s.link l.val).complement = some v →
    ∃ t, exec (.decisionComplement l) s = .next t ∧ (t.link l.val).lanes = (s.link l.val).onLanes (~~~v) ∧ (t.link l.val).complement = none ∧
      t = { s with links := t.links } ∧ LinksBut l.val s t) ∧
  (∀ (l : Link) (n : Fin 15) (s : State), s.linkState l.val = lsOpen → n.val ≤ (s.link l.val).credOwed →
    ∃ t, exec (.creditReturn l n) s = .next t ∧ (t.link l.val).credOwed + n.val = (s.link l.val).credOwed ∧
      t = { s with links := t.links } ∧ LinksBut l.val s t))

/-- R23, R24: a WDATA flit goes to the oldest request of the link whose data is incomplete, and to no other; the limit of 16
frames on a write's data counts it late, once, and takes nothing from it. -/
def Obligations.WriteDataIsMatched : Prop :=
  (∀ (l : Link) (s : State) (p : Payload) (more : List (Nat × Payload)) (before after : List Req) (r : Req),
    (s.link l.val).inbox = (2, p) :: more → s.reqs = before ++ r :: after →
    (∀ q ∈ before, ¬(q.link = l.val ∧ q.data.length < q.need)) → r.link = l.val → r.data.length < r.need →
    s.absFrame ≤ r.frame + 16 →
    ∃ t, exec (.wdata l) s = .next t ∧ (t.link l.val).inbox = more ∧
      t.reqs = before ++ { r with data := r.data ++ [p], ready := s.absFrame } :: after ∧
      t = { s with links := t.links, reqs := t.reqs } ∧ LinksBut l.val s t) ∧
  (∀ (p : Port) (tag : BitVec 9) (s : State) (r : Req),
    (s.reqs.find? fun r => r.port == p.val && r.tag == tag.toNat && decide (r.data.length < r.need) && decide (r.frame + 16 < s.absFrame)) =
      some r → r.late = false →
    ∃ t, exec (.wdataLate p tag) s = .next t ∧ Counted (F.LNK_CNT_WDLATE_count r.link) s t ∧
      t.reqs = (s.reqs.map fun q => if q.port = p.val ∧ q.tag = tag.toNat then { q with late := true } else q) ∧
      t = { s with reqs := t.reqs, live := t.live } ∧ LiveBut [R.LNK_CNT_WDLATE r.link] s t)

/-- R36-R38, R39-R42: A sequenced flit with a good CRC and the number expected next is accepted and the next number is expected; one
with another number is a duplicate and leaves the expected number; one that fails its CRC is discarded, owes one RETRY and
sets the link to discard. Write data that is accepted waits in the inbox. An IDLE flit with a good CRC leaves the expected number and frees the held flits its ack covers. A RETRY, and the expiry of the replay timer once the oldest held flit has waited its time, replay the flits that the
ack does not cover, or all that are held: they are to go out again, in order, before any new flit; the replay is counted, every
held flit is kept, and below `max_replays` of them in a row the link stays in its state. In each flit time the next of them goes
out again, with its number. -/
def Obligations.FlitsAreSequencedAndReplayed : Prop :=
  ((∀ (l : Link) (side : BitVec 48) (data : Payload) (s : State), s.linkTalks l.val = true → 2 ≤ sideType side → sideType side < 7 →
    (crc24 (reconSeq (s.link l.val).rxE (sideSeq side) / 256) side data = sideCrc side →
      ∀ lane, ∃ t, exec (.sequencedFlit l side data lane) s = .next t ∧
        LinkMoves l.val [R.LNK_CNT_PROTO l.val, R.MBX_CNT_BADMSG (l.val / 4)] s t ∧
        (reconSeq (s.link l.val).rxE (sideSeq side) = (s.link l.val).rxE →
          (t.link l.val).rxE = ((s.link l.val).rxE + 1) % 4096 ∧ (t.link l.val).rxDiscard = false ∧
          (sideType side = 2 → (t.link l.val).inbox = (s.link l.val).inbox ++ [(2, data)])) ∧
        (reconSeq (s.link l.val).rxE (sideSeq side) ≠ (s.link l.val).rxE →
          (t.link l.val).rxE = (s.link l.val).rxE ∧ (t.link l.val).inbox = (s.link l.val).inbox ∧ LinkSends l.val s t)) ∧
    (crc24 (reconSeq (s.link l.val).rxE (sideSeq side) / 256) side data ≠ sideCrc side →
      ∃ t, exec (.sequencedFlit l side data none) s = .next t ∧ (t.link l.val).rxE = (s.link l.val).rxE ∧
        (t.link l.val).inbox = (s.link l.val).inbox ∧ (t.link l.val).retryOwed = true ∧ (t.link l.val).rxDiscard = true ∧
        Counted (F.LNK_CNT_CRC_count l.val) s t ∧ t = { s with links := t.links, live := t.live } ∧ LinksBut l.val s t ∧
        LiveBut [R.LNK_CNT_CRC l.val] s t)) ∧
  (∀ (l : Link) (side : BitVec 48) (lane : Option Lane) (s : State), s.linkTalks l.val = true → sideType side = 0 →
    crc24 (reconSeq (s.link l.val).rxE (sideSeq side) / 256) side 0 = sideCrc side →
    ∃ t, exec (.idleFlit l side lane) s = .next t ∧ (t.link l.val).rxE = (s.link l.val).rxE ∧
      (∀ h ∈ ackHeld (sideAck side) (s.link l.val).held, h ∈ (t.link l.val).held) ∧
      LinkSends l.val s t)) ∧
  ((∀ (l : Link) (s : State) (a : Nat) (h : HeldFlit) (hs : List HeldFlit), s.linkTalks l.val = true →
    (s.link l.val).retryRx = some a → (s.link l.val).replayAck ≠ some a → ackHeld a (s.link l.val).held = h :: hs →
    (s.link l.val).replayRun.2 + 1 < max 1 (s.fv (F.LNK_RPL_max_replays l.val)) → 1 < max 1 (s.fv (F.LNK_RPL_max_replays l.val)) →
    ∃ t, exec (.retry l) s = .next t ∧ (t.link l.val).retryRx = none ∧ (t.link l.val).replayAck = some a ∧
      (t.link l.val).replayQ = h :: hs ∧ (t.link l.val).held.map (·.seq) = (s.link l.val).held.map (·.seq) ∧
      Counted (F.LNK_CNT_REPLAY_count l.val) s t ∧
      t = { s with links := t.links, live := t.live } ∧ LinksBut l.val s t ∧ LiveBut [R.LNK_CNT_REPLAY l.val] s t) ∧
  (∀ (l : Link) (s : State) (h : HeldFlit) (hs : List HeldFlit), s.linkTalks l.val = true → (s.link l.val).held = h :: hs →
    h.since + max 32 (s.fv (F.LNK_RPL_timer l.val)) ≤ (s.link l.val).clock →
    (s.link l.val).replayRun.2 + 1 < max 1 (s.fv (F.LNK_RPL_max_replays l.val)) → 1 < max 1 (s.fv (F.LNK_RPL_max_replays l.val)) →
    ∃ t, exec (.replayTimeout l false) s = .next t ∧ (t.link l.val).replayQ = h :: hs ∧
      (t.link l.val).held.map (·.seq) = (h :: hs).map (·.seq) ∧ Counted (F.LNK_CNT_REPLAY_count l.val) s t ∧
      t = { s with links := t.links, live := t.live } ∧ LinksBut l.val s t ∧ LiveBut [R.LNK_CNT_REPLAY l.val] s t) ∧
  (∀ (n : Nat) (s : State) (h : HeldFlit) (hs : List HeldFlit), s.linkTalks n = true → (s.link n).replayQ = h :: hs →
    (s.link n).replayHeld = false →
    ∃ crd more, ((s.linkFlit n).link n).wire = (composeSide h.typ h.seq (s.link n).ackField crd h.data, h.data) :: more ∧
      ((s.linkFlit n).link n).replayQ = hs))

/-- R33, R44, R45: at a boundary a link in the vestibule state whose conditions hold enters OPEN with a grant of `hdr_pool`
credits between 16 and 64, and an OPEN link whose conditions no longer hold moves to the vestibule state and owes none. -/
def Obligations.LinksOpenAndCloseAtBoundaries : Prop :=
  (∀ (l : Link) (s : State), s.atBoundary = true → s.linkState l.val = lsVestibule → s.mayOpen l.val = true → s.halted = false →
    ∃ t, exec (.linkOpen l) s = .next t ∧ t.linkState l.val = lsOpen ∧
      (t.link l.val).granted = max 16 (min 64 (s.fv (F.LNK_CRD_hdr_pool l.val))) ∧ (t.link l.val).credOwed = 0 ∧
      LinkMoves l.val [R.LNK_STATUS l.val] s t) ∧
  (∀ (l : Link) (s : State), s.atBoundary = true → s.linkState l.val = lsOpen → s.mayOpen l.val = false →
    ∃ t, exec (.linkToVestibule l) s = .next t ∧ t.linkState l.val = lsVestibule ∧ (t.link l.val).credOwed = 0 ∧
      (t.link l.val).frozen = some (s.link l.val).hist ∧
      t = { s with links := t.links, live := t.live } ∧ LinksBut l.val s t ∧ LiveBut [R.LNK_STATUS l.val] s t)

/-- R47, R59, R48, R53: The answers to a PARK. A PARK that meets every condition (the link OPEN with nothing held, waiting or unanswered,
target DOZE, or SLEEP where it is allowed, an epoch at least 4 ahead) is acknowledged and remembered; any other is refused; the
answer, with a copy of bytes 4-15, is the next flit the device sends. A PARK_ACK that copies the PARK this end sent acknowledges
it, and a PARK_NAK ends it unless R500 or R501 forces it; one that copies no PARK leaves everything but the message. Entering and leaving a park. At the boundary named in an acknowledged PARK, an OPEN link with nothing held or
unanswered enters the state the PARK names; after `doze_idle` idle epochs the device asks for DOZE at an epoch more than 4 ahead
with auto_doze = 1; a clock that restarts wakes a DOZE link for the next boundary, takes a SLEEP link to TRAINING on the short
retrain from step 0, counted as a retraining, and on a link that is OPEN still makes a park of the next epoch lapse. -/
def Obligations.LinksParkAndWakeByAgreement : Prop :=
  ((∀ (l : Link) (s : State) (p : Payload), (s.link l.val).control 6 = some p →
    ∃ t, exec (.park l) s = .next t ∧ (t.link l.val).inbox = (s.link l.val).inbox.tail ∧
      (t.link l.val).parkIn =
        (if s.linkState l.val = lsOpen ∧ s.mayPark l.val = true ∧ (p.at 4 1 = 4 ∨ p.at 4 1 = 5) ∧ s.epoch + 4 ≤ p.at 8 8 ∧
            (p.at 4 1 = 4 ∨ s.fb (F.LNK_PM_sleep_allow l.val) = true)
          then some ⟨p.at 4 1, p.at 8 8, true, false⟩ else (s.link l.val).parkIn) ∧
      (t.link l.val).flits = (s.link l.val).flits ++ [(5, payload [(0, 1, 1),
        (1, 1, if s.linkState l.val = lsOpen ∧ s.mayPark l.val = true ∧ (p.at 4 1 = 4 ∨ p.at 4 1 = 5) ∧ s.epoch + 4 ≤ p.at 8 8 ∧
            (p.at 4 1 = 4 ∨ s.fb (F.LNK_PM_sleep_allow l.val) = true) then 7 else 8), (4, 12, p.at 4 12)])] ∧
      LinkSends l.val s t) ∧
  (∀ (l : Link) (s : State) (p : Payload) (k : ParkX), (s.link l.val).control 7 = some p → (s.link l.val).parkOut = some k →
    k.target = p.at 4 1 → k.epoch = p.at 8 8 →
    ∃ t, exec (.parkAck l) s = .next t ∧ (t.link l.val).parkOut = some { k with acked := true } ∧
      (t.link l.val).inbox = (s.link l.val).inbox.tail ∧ t = { s with links := t.links } ∧ LinksBut l.val s t) ∧
  (∀ (l : Link) (s : State) (p : Payload) (k : ParkX), (s.link l.val).control 8 = some p → (s.link l.val).parkOut = some k →
    k.target = p.at 4 1 → k.epoch = p.at 8 8 →
    ∃ t, exec (.parkNak l) s = .next t ∧ (t.link l.val).parkOut = (if k.forced then some k else none) ∧
      (t.link l.val).inbox = (s.link l.val).inbox.tail ∧ t = { s with links := t.links } ∧ LinksBut l.val s t) ∧
  (∀ (l : Link) (s : State) (p : Payload), (s.link l.val).parkMatch p = false →
    ((s.link l.val).control 7 = some p → exec (.parkAck l) s = .next (s.popInbox l.val)) ∧
    ((s.link l.val).control 8 = some p → exec (.parkNak l) s = .next (s.popInbox l.val)))) ∧
  ((∀ (l : Link) (s : State) (k : ParkX), s.atBoundary = true → s.linkState l.val = lsOpen → s.mayPark l.val = true →
    (s.link l.val).parkIn = some k → k.acked = true → k.epoch = s.epoch → (k.target = 4 ∨ k.target = 5) →
    ∃ t, exec (.parkEntry l) s = .next t ∧ t.linkState l.val = k.target ∧ (t.link l.val).parkIn = none ∧
      (t.link l.val).parkOut = none ∧ t.reqs = s.reqs ∧
      LinkMoves l.val (R.LNK_STATUS l.val :: if s.mode = 3 then [R.PWR_DOM ((65 + l.val) / 16)] else []) s t) ∧
  (∀ (l : Link) (s : State) (k : ParkX), s.atBoundary = true → s.linkState l.val = lsOpen → s.mayPark l.val = false →
    (s.link l.val).parkIn = some k → k.acked = true → k.epoch = s.epoch → k.forced = false →
    ∃ t, exec (.parkEntry l) s = .next t ∧ t.linkState l.val = lsOpen ∧ (t.link l.val).parkIn = none ∧ (t.link l.val).parkOut = none ∧
      t = { s with links := t.links } ∧ LinksBut l.val s t) ∧
  (∀ (l : Link) (e : BitVec 64) (s : State), s.linkState l.val = lsOpen → s.fb (F.LNK_PM_auto_doze l.val) = true →
    s.fv (F.LNK_PM_doze_idle l.val) ≠ 0 → s.fv (F.LNK_PM_doze_idle l.val) < (s.link l.val).idle → s.mayPark l.val = true →
    (s.link l.val).parkOut = none → (s.link l.val).parkIn = none → s.epoch + 4 < e.toNat →
    ∃ t, exec (.autoDoze l e) s = .next t ∧ (t.link l.val).parkOut = some ⟨4, e.toNat, false, false⟩ ∧
      (t.link l.val).flits = (s.link l.val).flits ++ [(5, payload [(0, 1, 1), (1, 1, 6), (4, 1, 4), (8, 8, e.toNat)])] ∧
      LinkSends l.val s t) ∧
  (∀ (l : Link) (s : State), s.mode ≠ 4 → s.linkState l.val = lsDoze →
    ∃ t, exec (.linkWake l) s = .next t ∧ (t.link l.val).waking = true ∧ t = { s with links := t.links } ∧ LinksBut l.val s t) ∧
  (∀ (l : Link) (s : State), (s.mode ≠ 4 ∨ s.pwr.drain.isSome = true) → s.linkState l.val = lsSleep →
    ∃ t, exec (.linkWake l) s = .next t ∧ t.linkState l.val = lsTraining ∧ t.fv (F.LNK_STATUS_train_step l.val) = 0 ∧
      (t.link l.val).short = true ∧ (t.link l.val).woken = true ∧ Counted (F.LNK_CNT_RETRAIN_count l.val) s t ∧
      t = { s with links := t.links, live := t.live } ∧ LinksBut l.val s t ∧
      LiveBut ([R.LNK_STATUS l.val, R.LNK_CNT_RETRAIN l.val] ++ if s.mode = 3 then [R.PWR_DOM ((65 + l.val) / 16)] else []) s t) ∧
  (∀ (l : Link) (s : State), s.mode ≠ 4 → s.linkState l.val = lsOpen →
    ∃ t, exec (.linkWake l) s = .next t ∧ t.linkState l.val = lsOpen ∧
      (∀ k, (t.link l.val).parkIn = some k → k.epoch ≠ s.epoch + 1) ∧ (∀ k, (t.link l.val).parkOut = some k → k.epoch ≠ s.epoch + 1) ∧
      t = { s with links := t.links } ∧ LinksBut l.val s t))

/-- R50-R52, R51, R54: Training goes forward. The host's clock takes a link that may train from DOWN to TRAINING at T0; each step that
finds nothing wrong leads to the next: T0, T1 and T3, T2 with no lane to repair, T4 with both decision lanes usable; the end of
T5 leads to the vestibule state; the back-off ends. Nothing but the link and registers of the live map changes. Training fails. A step that reaches its own timeout, the whole sequence that reaches LNK_TRAIN.timeout and a step
that finds TRAIN content out of form take the link to DOWN with the back-off running and a cause in last_fail: 1, 2 and 4 for
a timeout of T0, T1 and T3, 6 for the whole, 7 for the content. A timeout of T2, T4 or T5 does so too, with a cause that the spec
leaves open (a free value). The requests of the link's ports are discarded, and those of every other link stay. -/
def Obligations.TrainingEndsOrFails : Prop :=
  ((∀ (l : Link) (s : State), s.linkState l.val = lsDown → s.receiversOn = true → s.halted = false → s.linkBarred l.val = false →
    (s.link l.val).backoff = false → (s.fv F.CLK_STATUS_pll_lock).testBit (l.val / 4) = true →
    ∃ t, exec (.trainingStart l) s = .next t ∧ t.linkState l.val = lsTraining ∧ t.fv (F.LNK_STATUS_train_step l.val) = 0 ∧
      (t.link l.val).fresh = true ∧ t = { s with links := t.links, live := t.live } ∧ LinksBut l.val s t ∧
      LiveBut [R.LNK_STATUS l.val] s t) ∧
  (∀ (l : Link) (obs : TrainObs) (s : State) (k : Nat), s.linkState l.val = lsTraining → (s.link l.val).short = false →
    s.fv (F.LNK_STATUS_train_step l.val) = k → (k = 0 ∨ k = 1 ∨ k = 3) → obs.wellFormed = true → obs.centred = true →
    obs.aligned = true →
    ∃ t, exec (.trainStepDone l obs false) s = .next t ∧ t.linkState l.val = lsTraining ∧
      t.fv (F.LNK_STATUS_train_step l.val) = k + 1 ∧ t = { s with links := t.links, live := t.live } ∧ LinksBut l.val s t ∧
      LiveBut [R.LNK_STATUS l.val] s t) ∧
  (∀ (l : Link) (obs : TrainObs) (s : State), s.linkState l.val = lsTraining → (s.link l.val).short = false →
    s.fv (F.LNK_STATUS_train_step l.val) = 2 → obs.wellFormed = true → s.fuseLanes l.val false = [] → s.fuseLanes l.val true = [] →
    (s.link l.val).weakIn = [] → s.weakOf l.val obs.eyeOut = [] →
    ∃ t, exec (.trainStepDone l obs false) s = .next t ∧ t.linkState l.val = lsTraining ∧
      t.fv (F.LNK_STATUS_train_step l.val) = 3 ∧ t = { s with links := t.links, live := t.live } ∧ LinksBut l.val s t ∧
      LiveBut [R.LNK_STATUS l.val, R.CST_CNT_SKIPPED] s t) ∧
  (∀ (l : Link) (obs : TrainObs) (s : State), s.linkState l.val = lsTraining → (s.link l.val).short = false →
    s.fv (F.LNK_STATUS_train_step l.val) = 4 → obs.wellFormed = true → obs.d0 = true → obs.d1 = true →
    ∃ t, exec (.trainStepDone l obs false) s = .next t ∧ t.linkState l.val = lsTraining ∧
      t.fv (F.LNK_STATUS_train_step l.val) = 5 ∧ t.fb (F.LNK_STATUS_decide_single l.val) = false ∧
      (t.link l.val).d0 = true ∧ (t.link l.val).d1 = true ∧ t = { s with links := t.links, live := t.live } ∧
      LinksBut l.val s t ∧ LiveBut [R.LNK_STATUS l.val] s t) ∧
  (∀ (l : Link) (obs : TrainObs) (s : State), s.linkState l.val = lsTraining → (s.link l.val).short = false →
    s.fv (F.LNK_STATUS_train_step l.val) = 5 → obs.wellFormed = true → obs.gradeOk = true →
    ∃ t, exec (.trainStepDone l obs false) s = .next t ∧ t.linkState l.val = lsVestibule ∧
      ((s.link l.val).fresh = true → (t.link l.val).rxE = 0) ∧ LinkMoves l.val [R.LNK_STATUS l.val] s t) ∧
  (∀ (l : Link) (s : State), ∃ t, exec (.trainBackoffExpiry l) s = .next t ∧ (t.link l.val).backoff = false ∧
    t = { s with links := t.links } ∧ LinksBut l.val s t)) ∧
  ((∀ (l : Link) (s : State) (k cause : Nat), s.linkState l.val = lsTraining → (s.link l.val).short = false →
    s.fv (F.LNK_STATUS_train_step l.val) = k → ((k = 0 ∧ cause = 1) ∨ (k = 1 ∧ cause = 2) ∨ (k = 3 ∧ cause = 4)) →
    ∃ t, exec (.trainStepTimeout l) s = .next t ∧ t.linkState l.val = lsDown ∧ t.fv (F.LNK_STATUS_last_fail l.val) = cause ∧
      (t.link l.val).backoff = true ∧ SameMemory s t ∧ SameConfig s t ∧
      (s.severityOf (Src.trainFail l.val) ≠ 5 → TrainingGivenUp l.val s t)) ∧
  (∀ (l : Link) (s : State) (k : Nat), s.linkState l.val = lsTraining → (s.link l.val).short = false →
    s.fv (F.LNK_STATUS_train_step l.val) = k → (k = 2 ∨ k = 4 ∨ k = 5) →
    ∃ t, exec (.trainStepTimeout l) s = .next t ∧ t.linkState l.val = lsDown ∧ (t.link l.val).backoff = true ∧ t.free = s.free + 1 ∧
      (s.severityOf (Src.trainFail l.val) ≠ 5 → TrainingGivenUp l.val { s with free := s.free + 1 } t)) ∧
  (∀ (l : Link) (s : State), s.linkState l.val = lsTraining →
    ∃ t, exec (.trainTotalTimeout l) s = .next t ∧ t.linkState l.val = lsDown ∧ t.fv (F.LNK_STATUS_last_fail l.val) = 6 ∧
      (t.link l.val).backoff = true ∧ SameMemory s t ∧ SameConfig s t ∧
      (s.severityOf (Src.trainFail l.val) ≠ 5 → TrainingGivenUp l.val s t)) ∧
  (∀ (l : Link) (obs : TrainObs) (s : State), s.linkState l.val = lsTraining → (s.link l.val).short = false → obs.wellFormed = false →
    ∃ t, exec (.trainStepDone l obs false) s = .next t ∧ t.linkState l.val = lsDown ∧
      t.fv (F.LNK_STATUS_last_fail l.val) = 7 ∧ (t.link l.val).backoff = true ∧ SameMemory s t ∧ SameConfig s t ∧
      (s.severityOf (Src.trainFail l.val) ≠ 5 → TrainingGivenUp l.val s t)))

/-- R14, R50, R51, R53: What takes an OPEN link to TRAINING at T0: its clock drifting or stopping; a clock that stops in TRAINING takes
the training back to T0. The retraining is counted; the flits held for a replay stay, the headers of the frame in progress have no
effect, and every other link and request is as it was. The short retrain. Its steps lead from S0 to S1 to S2 to S3 (train_step 0, 1, 4, 5), its end to the vestibule state; a step that
fails or times out goes on as a full training from T0. -/
def Obligations.LinksRetrain : Prop :=
  ((∀ (l : Link) (s : State), s.linkState l.val = lsOpen → s.severityOf (Src.retrain l.val) ≠ 5 →
    ∃ t, exec (.clockDrift l) s = .next t ∧ t.linkState l.val = lsTraining ∧ t.fv (F.LNK_STATUS_train_step l.val) = 0 ∧
      Counted (F.LNK_CNT_RETRAIN_count l.val) s t ∧ (t.link l.val).frozen = some (s.link l.val).hist ∧ Retrained l.val s t) ∧
  (∀ (l : Link) (s : State), s.linkState l.val = lsOpen → s.severityOf (Src.retrain l.val) ≠ 5 →
    ∃ t, exec (.forwardedClockStop l) s = .next t ∧ t.linkState l.val = lsTraining ∧
      t.fv (F.LNK_STATUS_train_step l.val) = 0 ∧ Counted (F.LNK_CNT_RETRAIN_count l.val) s t ∧ Retrained l.val s t) ∧
  (∀ (l : Link) (s : State), s.linkState l.val = lsTraining →
    ∃ t, exec (.forwardedClockStop l) s = .next t ∧ t.linkState l.val = lsTraining ∧
      t.fv (F.LNK_STATUS_train_step l.val) = 0 ∧ (t.link l.val).short = false ∧
      t = { s with links := t.links, live := t.live } ∧ LinksBut l.val s t ∧ LiveBut [R.LNK_STATUS l.val] s t)) ∧
  ((∀ (l : Link) (obs : TrainObs) (s : State) (k next : Nat), s.linkState l.val = lsTraining → (s.link l.val).short = true →
    s.fv (F.LNK_STATUS_train_step l.val) = k → ((k = 0 ∧ next = 1) ∨ (k = 1 ∧ next = 4)) → obs.wellFormed = true → obs.centred = true →
    ∃ t, exec (.shortRetrainStepDone l obs false) s = .next t ∧ t.linkState l.val = lsTraining ∧
      t.fv (F.LNK_STATUS_train_step l.val) = next ∧ (t.link l.val).short = true ∧
      t = { s with live := t.live } ∧ LiveBut [R.LNK_STATUS l.val] s t) ∧
  (∀ (l : Link) (obs : TrainObs) (s : State), s.linkState l.val = lsTraining → (s.link l.val).short = true →
    s.fv (F.LNK_STATUS_train_step l.val) = 4 → obs.wellFormed = true → obs.d0 = true → obs.d1 = true →
    ∃ t, exec (.shortRetrainStepDone l obs false) s = .next t ∧ t.linkState l.val = lsTraining ∧
      t.fv (F.LNK_STATUS_train_step l.val) = 5 ∧ (t.link l.val).d0 = true ∧ (t.link l.val).d1 = true ∧
      t = { s with links := t.links, live := t.live } ∧ LinksBut l.val s t ∧ LiveBut [R.LNK_STATUS l.val] s t) ∧
  (∀ (l : Link) (obs : TrainObs) (s : State), s.linkState l.val = lsTraining → (s.link l.val).short = true →
    s.fv (F.LNK_STATUS_train_step l.val) = 5 → obs.wellFormed = true → obs.gradeOk = true →
    ∃ t, exec (.shortRetrainStepDone l obs false) s = .next t ∧ t.linkState l.val = lsVestibule ∧ (t.link l.val).short = false ∧
      LinkMoves l.val [R.LNK_STATUS l.val] s t) ∧
  (∀ (l : Link) (s : State), s.linkState l.val = lsTraining → (s.link l.val).short = true →
    ∃ t, exec (.shortRetrainTimeout l) s = .next t ∧ t.linkState l.val = lsTraining ∧
      t.fv (F.LNK_STATUS_train_step l.val) = 0 ∧ (t.link l.val).short = false ∧
      t = { s with links := t.links, live := t.live } ∧ LinksBut l.val s t ∧ LiveBut [R.LNK_STATUS l.val] s t))

/-- R57, R62: The repair exchange. A lane that called for a repair, or that software named, is asked for with the lowest free spare
and an epoch at least 8 ahead; a REPAIR of a spare that is free and not yet promised is acknowledged and pending, one of a spare that
is assigned is refused; a REPAIR_ACK that copies this end's REPAIR before epoch E - 2 makes it pending, one that comes later does
not; a REPAIR_NAK, or epoch E - 2 without an answer, ends it and no spare is given. At the boundary of epoch E of an acknowledged repair both ends move the lane onto the spare: the register of its
direction names the lane under that spare, with source 2 (found in service), and the exchange is over. -/
def Obligations.LanesAreRepairedInService : Prop :=
  ((∀ (l : Link) (lane : Lane) (e : BitVec 64) (s : State) (sp : Nat), s.linkTalks l.val = true →
    s.fb (F.LNK_REPAIR_REQ_go l.val) = false → lane.val ∈ (s.link l.val).laneReq → (∀ x ∈ (s.link l.val).repairs, x.outbound = true) →
    s.epoch + 8 ≤ e.toNat → s.freeSpare l.val false = some sp →
    ∃ t, exec (.laneRepairRequest l lane e) s = .next t ∧
      (t.link l.val).repairs = (s.link l.val).repairs ++ [⟨false, sp, lane.val, e.toNat, false, true⟩] ∧
      lane.val ∉ (t.link l.val).laneReq ∧
      (t.link l.val).flits = (s.link l.val).flits ++ [(5, repairMsg 3 ⟨false, sp, lane.val, e.toNat, false, true⟩)] ∧
      LinkSends l.val s t) ∧
  (∀ (l : Link) (lane : Lane) (e : BitVec 64) (s : State) (dir : Bool) (sp : Nat), s.linkTalks l.val = true →
    s.fb (F.LNK_REPAIR_REQ_go l.val) = true → s.fv (F.LNK_REPAIR_REQ_lane l.val) = lane.val →
    s.fb (F.LNK_REPAIR_REQ_dir l.val) = dir → (∀ x ∈ (s.link l.val).repairs, x.outbound ≠ dir) →
    s.epoch + 8 ≤ e.toNat → s.freeSpare l.val dir = some sp →
    ∃ t, exec (.laneRepairRequest l lane e) s = .next t ∧
      (t.link l.val).repairs = (s.link l.val).repairs ++ [⟨dir, sp, lane.val, e.toNat, false, true⟩] ∧
      t.fb (F.LNK_REPAIR_REQ_go l.val) = false ∧
      (t.link l.val).flits = (s.link l.val).flits ++ [(5, repairMsg 3 ⟨dir, sp, lane.val, e.toNat, false, true⟩)] ∧
      LinkMoves l.val [R.LNK_REPAIR_REQ l.val] s t) ∧
  (∀ (l : Link) (s : State) (p : Payload), (s.link l.val).control 3 = some p → p.at 5 1 ≤ 1 → p.at 6 1 ≤ 69 →
    (∀ a ∈ s.assigned l.val (p.at 4 1 == 1), a.1 ≠ p.at 5 1) →
    (∀ y ∈ (s.link l.val).repairs, y.acked = true → y.outbound = (p.at 4 1 == 1) → y.spare ≠ p.at 5 1) →
    ∃ t, exec (.repair l) s = .next t ∧
      (t.link l.val).repairs = (s.link l.val).repairs ++ [⟨p.at 4 1 == 1, p.at 5 1, p.at 6 1, p.at 8 8, true, false⟩] ∧
      t.fb (F.LNK_STATUS_repair_pending l.val) = true ∧
      (t.link l.val).flits = (s.link l.val).flits ++ [(5, payload [(0, 1, 1), (1, 1, 4), (4, 12, p.at 4 12)])] ∧
      LinkMoves l.val [R.LNK_STATUS l.val] s t) ∧
  (∀ (l : Link) (s : State) (p : Payload), (s.link l.val).control 3 = some p →
    (∃ a ∈ s.assigned l.val (p.at 4 1 == 1), a.1 = p.at 5 1) →
    ∃ t, exec (.repair l) s = .next t ∧ (t.link l.val).repairs = (s.link l.val).repairs ∧
      (t.link l.val).flits = (s.link l.val).flits ++ [(5, payload [(0, 1, 1), (1, 1, 5), (4, 12, p.at 4 12)])] ∧
      LinkSends l.val s t) ∧
  (∀ (l : Link) (s : State) (p : Payload), (s.link l.val).control 4 = some p →
    ∃ t, exec (.repairAck l) s = .next t ∧ (t.link l.val).inbox = (s.link l.val).inbox.tail ∧
      (t.link l.val).repairs = (s.link l.val).repairs.map (fun x =>
        if x.answers p = true ∧ s.epoch + 2 < x.epoch then { x with acked := true } else x) ∧
      t.fb (F.LNK_STATUS_repair_pending l.val) = (t.link l.val).repairs.any (·.acked) ∧
      t = { s with links := t.links, live := t.live } ∧ LinksBut l.val s t ∧ LiveBut [R.LNK_STATUS l.val] s t) ∧
  (∀ (l : Link) (s : State) (p : Payload), (s.link l.val).control 5 = some p →
    ∃ t, exec (.repairNak l) s = .next t ∧ (t.link l.val).inbox = (s.link l.val).inbox.tail ∧
      (t.link l.val).repairs = (s.link l.val).repairs.filter (fun x => !x.answers p) ∧
      t = { s with links := t.links } ∧ LinksBut l.val s t) ∧
  (∀ (l : Link) (s : State), ∃ t, exec (.repairAckTimeout l) s = .next t ∧
    (∀ x, x ∈ (t.link l.val).repairs ↔ x ∈ (s.link l.val).repairs ∧ ¬(x.mine = true ∧ x.acked = false ∧ x.epoch ≤ s.epoch + 2)) ∧
    t = { s with links := t.links } ∧ LinksBut l.val s t)) ∧
  (∀ (l : Link) (s : State) (x : RepairX), s.atBoundary = true →
    (s.link l.val).repairs.filter (fun y => y.acked && y.epoch == s.epoch) = [x] →
    x.spare ≤ 1 → x.lane < 70 → s.severityOf (Src.laneRepair l.val) ≠ 5 →
    ∃ t, exec (.laneRepairSwitch l) s = .next t ∧ (x.spare, x.lane, 2) ∈ t.assigned l.val x.outbound ∧
      (t.link l.val).repairs = (s.link l.val).repairs.filter (fun y => !(y.acked && y.epoch == s.epoch)) ∧
      t.fb (F.LNK_STATUS_repair_pending l.val) = (t.link l.val).repairs.any (·.acked) ∧
      t.assigned l.val (!x.outbound) = s.assigned l.val (!x.outbound) ∧
      t = { s with links := t.links, live := t.live, evq := t.evq, evLost := t.evLost, flt := t.flt } ∧ LinksBut l.val s t ∧
      LiveBut ([R.LNK_STATUS l.val, R.LNK_REPAIR_IN l.val, R.LNK_REPAIR_OUT l.val] ++ reportRegs) s t)

/-- R30, R60, R61: a DQUERY is answered with one DREPLY for 1 to 16 frames and counted; the frozen history is given up after 64
frames of OPEN; while the event link is OPEN and enabled the queue of events is sent, in order, and nothing of it is left. -/
def Obligations.QueriesAndEvents : Prop :=
  (∀ (l : Link) (s : State) (p : Payload), (s.link l.val).control 1 = some p →
    ∃ t, exec (.dquery l) s = .next t ∧ Counted (F.LNK_CNT_DQUERY_count l.val) s t ∧
      (t.link l.val).inbox = (s.link l.val).inbox.tail ∧
      (t.link l.val).flits = (s.link l.val).flits ++ [(5, dreply (s.link l.val) (p.at 4 2 % 4096) (max 1 (min 16 (p.at 6 1))))] ∧
      LinkMoves l.val [R.LNK_CNT_DQUERY l.val] s t) ∧
  (∀ (l : Link) (s : State), s.linkState l.val = lsOpen → 64 ≤ (s.link l.val).frozenFrames →
    ∃ t, exec (.historyDiscard l) s = .next t ∧ (t.link l.val).frozen = none ∧ (t.link l.val).hist = (s.link l.val).hist ∧
      t = { s with links := t.links } ∧ LinksBut l.val s t) ∧
  (∀ (s : State), s.linkState (s.fv F.LNK_EVTPORT_port / 4) = lsOpen → s.fb F.LNK_EVTPORT_enable = true →
    s.fb (F.LNK_CTL_enable (s.fv F.LNK_EVTPORT_port / 4)) = true →
    ∃ t, exec .eventDelivery s = .next t ∧ t.evq = [] ∧ t.evLost = none ∧
      (t.link (s.fv F.LNK_EVTPORT_port / 4)).flits = (s.link (s.fv F.LNK_EVTPORT_port / 4)).flits ++
        (eventOrder s.evq s.evLost).map (fun p => (6, p ||| payload [(2, 1, s.fv F.LNK_EVTPORT_port % 4)])) ∧
      LinkSends (s.fv F.LNK_EVTPORT_port / 4) { s with evq := [], evLost := none, flt := t.flt } t)

/-- R43, R50, R57, R62: writes of a link's control registers. retrain takes an OPEN link that is not held down to TRAINING at T0 and
reads 0 again; hold_down takes a link to DOWN; a repair request with a free spare stands until it is made; the clear of
LNK_CNT_CLR.lane_err clears every lane count, that of LNK_EVT_LOST its count. -/
def Obligations.LinkRegistersCommand : Prop :=
  (∀ (l : Link) (path : Path) (data : Word) (s : State), WriteTaken s path.val (R.LNK_CTL l.val) data → s.linkState l.val = lsOpen →
    data.field (F.LNK_CTL_retrain l.val).lo 1 = 1 →
    data.field (F.LNK_CTL_hold_down l.val).lo 1 = 0 → s.severityOf (Src.retrain l.val) ≠ 5 →
    ∃ t, exec (.lnkRetrain l path data) s = .next t ∧ t.linkState l.val = lsTraining ∧
      t.fv (F.LNK_STATUS_train_step l.val) = 0 ∧ t.fb (F.LNK_CTL_retrain l.val) = false ∧
      Counted (F.LNK_CNT_RETRAIN_count l.val) s t ∧ Retrained l.val s t) ∧
  (∀ (l : Link) (path : Path) (data : Word) (s : State), WriteTaken s path.val (R.LNK_CTL l.val) data → s.linkState l.val ≠ lsDown →
    data.field (F.LNK_CTL_hold_down l.val).lo 1 = 1 → data.field (F.LNK_CTL_retrain l.val).lo 1 = 0 →
    ∃ t, exec (.lnkHoldDown l path data) s = .next t ∧ t.linkState l.val = lsDown ∧ (t.link l.val).held = [] ∧
      (t.link l.val).txSeq = 0 ∧ (t.link l.val).rxE = 0 ∧ (∀ r ∈ t.reqs, r.link = l.val → r.discard = true) ∧
      OthersStay l.val s t ∧
      (s.fb (F.LNK_CTL_retrain l.val) = false → LinkReports l.val [R.LNK_CTL l.val, R.LNK_STATUS l.val] s t)) ∧
  (∀ (l : Link) (path : Path) (data : Word) (s : State), WriteTaken s path.val (R.LNK_CNT_CLR l.val) data → data.field 8 1 = 1 →
    ∃ t, exec (.lnkLaneErrClear l path data) s = .next t ∧ (t.link l.val).laneErr = [] ∧
      t = { s with links := t.links, live := t.live } ∧ LinksBut l.val s t ∧
      LiveBut (R.LNK_CNT_CLR l.val :: (List.range 8).map fun i => R.LNK_CTL l.val + 0x40 + 4 * i) s t) ∧
  (∀ (path : Path) (data : Word) (s : State), WriteTaken s path.val R.LNK_EVT_LOST data →
    ∃ t, exec (.lnkEvtLostClear path data) s = .next t ∧ t.fv F.LNK_EVT_LOST_count = 0 ∧ t = { s with live := t.live } ∧
      LiveBut [R.LNK_EVT_LOST] s t) ∧
  (∀ (l : Link) (path : Path) (data : Word) (s : State), WriteTaken s path.val (R.LNK_REPAIR_REQ l.val) data →
    data.field (F.LNK_REPAIR_REQ_go l.val).lo 1 = 1 →
    (s.freeSpare l.val (data.field (F.LNK_REPAIR_REQ_dir l.val).lo 1 == 1)).isSome = true →
    ∃ t, exec (.lnkRepairReq l path data) s = .next t ∧ t.fb (F.LNK_REPAIR_REQ_go l.val) = true ∧
      t = { s with live := t.live } ∧ LiveBut [R.LNK_REPAIR_REQ l.val] s t)

/-! ### Requests -/

/-- R91, R293, R312: what an RD and an LRD answer. Words that read with nothing to correct are delivered as they are, with OK, a
poison mask of 0 and one RDATA payload for each burst, and neither the words nor, for an RD, anything else but the request
changes. For every other content of the words the answer still has len + 1 payloads, and is OK or POISON, and no word of the DRAM
changes. An LRD does so in a flit in which its lines are free (R296, R297), whatever else the
engine path does in it. -/
def Obligations.ReadsReturnTheWords : Prop :=
  (∀ (p : Port) (tag : BitVec 9) (s : State) (r : Req) (x : Nat → Nat → DWord), Runs s opRD p tag r → s.dramCheck r = none →
    (∀ b w, b ≤ r.len → w < 8 → CleanDram s (dramLoc r.cfg (r.addr + 64 * b)) w (x b w)) →
    ∃ t a, exec (.rd p tag) s = .next t ∧ Answers s t r a ∧ a.status = 0 ∧ a.info = 0 ∧ a.result = 0 ∧ a.rdata.length = r.len + 1 ∧
      (∀ b w, b ≤ r.len → w < 8 → (a.rdata.getD b 0).word w = x b w) ∧ t = { s with reqs := t.reqs }) ∧
  (∀ (p : Port) (tag : BitVec 9) (s : State) (r : Req), Runs s opRD p tag r → s.dramCheck r = none → Mild s 504 544 →
    ∃ t a, exec (.rd p tag) s = .next t ∧ Answers s t r a ∧ (a.status = 0 ∨ a.status = 1) ∧ a.rdata.length = r.len + 1 ∧
      WordsMove s t ∧ t.dram = s.dram ∧ (s.bst.held = [] → s.bst.runs = [] → t.larder = s.larder)) ∧
  (∀ (p : Port) (tag : BitVec 9) (met : Option (Fin 64)) (wrote : Bool) (s : State) (r : Req) (x : Nat → Nat → DWord),
    Runs s opLRD p tag r →
    scratchCheck r = none → HostFree s r (metUse r met wrote) →
    (∀ b w, b ≤ r.len → w < 8 → CleanLarder s (scratchLine r.cfg (r.addr + 64 * b)) w (x b w)) →
    ∃ t a, exec (.lrd p tag met wrote) s = .next t ∧ Answers s t r a ∧ a.status = 0 ∧ a.info = 0 ∧ a.result = 0 ∧
      a.rdata.length = r.len + 1 ∧ (∀ b w, b ≤ r.len → w < 8 → (a.rdata.getD b 0).word w = x b w) ∧
      t = { s with reqs := t.reqs, live := t.live, lar := { s.lar with host := s.lar.host ++ hostUse r } } ∧
      LiveBut ((List.range 4).map R.LAR_CNT_HRD) s t) ∧
  (∀ (p : Port) (tag : BitVec 9) (met : Option (Fin 64)) (wrote : Bool) (s : State) (r : Req),
    Runs s opLRD p tag r → scratchCheck r = none → HostFree s r (metUse r met wrote) → Mild s 504 544 →
    ∃ t a, exec (.lrd p tag met wrote) s = .next t ∧ Answers s t r a ∧ (a.status = 0 ∨ a.status = 1) ∧ a.rdata.length = r.len + 1 ∧
      StoresLarder (fun i => ∃ b w, b ≤ r.len ∧ w < 8 ∧ i = s.larderPlace (scratchLine r.cfg (r.addr + 64 * b)) w) s t ∧
      t = { s with reqs := t.reqs, live := t.live, larder := t.larder, ecc := t.ecc, evq := t.evq, evLost := t.evLost, flt := t.flt
                   lar := { s.lar with host := s.lar.host ++ hostUse r } } ∧
      LiveBut ((List.range 4).map R.LAR_CNT_HRD ++ wordRegs) s t)

/-- R71, R92, R293, R304: what a WR, WRM, LWR and LWRM store. Each word written, all of a burst's for WR and LWR and those that the
mask covers for WRM and LWRM, is stored as the clean codeword of its data; every other byte of both memories is as it was, and
the answer is OK. The bursts of a WR and WRM are in the array alone, no injection is armed, and no table maintenance that R242
speaks of is outstanding with it; the lines of an LWR and LWRM are free in this flit. -/
def Obligations.WritesStoreTheWords : Prop :=
  (∀ (p : Port) (tag : BitVec 9) (s : State) (r : Req), Runs s opWR p tag r → s.dramCheck r = none → r.need = r.len + 1 →
    (∀ b, b ≤ r.len → s.InArray (dramLoc r.cfg (r.addr + 64 * b))) → s.fb F.ECC_INJ_CTL_arm = false →
    (∀ q ∈ s.reqs, meetsTable r q = false) → Mild s 504 544 →
    ∃ t, exec (.wr p tag) s = .next t ∧ Answers s t r { status := 0 } ∧
      (∀ b w, b ≤ r.len → w < 8 →
        t.dramGet (s.physWord (dramLoc r.cfg (r.addr + 64 * b)) w) = encodeWord ((r.data.getD b 0).word w) false) ∧
      StoresDram (fun i => ∃ b w, b ≤ r.len ∧ w < 8 ∧ i = s.physWord (dramLoc r.cfg (r.addr + 64 * b)) w) s t ∧ WordsMove s t) ∧
  (∀ (p : Port) (tag : BitVec 9) (s : State) (r : Req), Runs s opWRM p tag r → s.dramCheck r = none →
    s.InArray (dramLoc r.cfg r.addr) → s.fb F.ECC_INJ_CTL_arm = false → Mild s 504 544 →
    ∃ t, exec (.wrm p tag) s = .next t ∧ Answers s t r { status := 0 } ∧
      (∀ w ∈ maskWords r.operand.toNat,
        t.dramGet (s.physWord (dramLoc r.cfg r.addr) w) = encodeWord ((r.data.headD 0).word w) false) ∧
      StoresDram (fun i => ∃ w ∈ maskWords r.operand.toNat, i = s.physWord (dramLoc r.cfg r.addr) w) s t ∧ WordsMove s t) ∧
  (∀ (p : Port) (tag : BitVec 9) (met : Option (Fin 64)) (wrote : Bool) (s : State) (r : Req),
    Runs s opLWR p tag r → scratchCheck r = none → HostFree s r (metUse r met wrote) →
    LinesApart s r → r.need = r.len + 1 →
    ∃ t, exec (.lwr p tag met wrote) s = .next t ∧ Answers s t r { status := 0 } ∧
      (∀ b w, b ≤ r.len → w < 8 →
        t.larderWord (scratchLine r.cfg (r.addr + 64 * b)) w = encodeWord ((r.data.getD b 0).word w) false) ∧
      StoresLarder (fun i => ∃ b w, b ≤ r.len ∧ w < 8 ∧ i = s.larderPlace (scratchLine r.cfg (r.addr + 64 * b)) w) s t ∧
      t = { s with reqs := t.reqs, live := t.live, larder := t.larder, lar := { s.lar with host := s.lar.host ++ hostUse r } } ∧
      LiveBut ((List.range 4).map R.LAR_CNT_HWR) s t) ∧
  (∀ (p : Port) (tag : BitVec 9) (met : Option (Fin 64)) (wrote : Bool) (s : State) (r : Req),
    Runs s opLWRM p tag r → scratchCheck r = none → HostFree s r (metUse r met wrote) →
    ∃ t, exec (.lwrm p tag met wrote) s = .next t ∧ Answers s t r { status := 0 } ∧
      (∀ w ∈ maskWords r.operand.toNat, t.larderWord (scratchLine r.cfg r.addr) w = encodeWord ((r.data.headD 0).word w) false) ∧
      StoresLarder (fun i => ∃ w ∈ maskWords r.operand.toNat, i = s.larderPlace (scratchLine r.cfg r.addr) w) s t ∧
      t = { s with reqs := t.reqs, live := t.live, larder := t.larder, lar := { s.lar with host := s.lar.host ++ hostUse r } } ∧
      LiveBut ((List.range 4).map R.LAR_CNT_HWR) s t)

/-- R70, R71, R80, R82, R93, R296, R297: the answers of an array or scratchpad request that is not performed: REFUSED for a
misaligned address or a narrow mask, before HOLE for a range beyond the top, before UNAVAIL for a channel that does not serve.
A scratchpad request for a bank that an earlier access uses in this flit waits, and its port's count rises; one that meets an
engine's access on a word is answered COLLIDE, counted. Neither memory changes. -/
def Obligations.UnperformedRequestsAreTold : Prop :=
  (∀ (c : Port → BitVec 9 → Instr) (op : Nat) (p : Port) (tag : BitVec 9) (s : State) (r : Req),
    (c, op) ∈ [(Instr.rd, opRD), (Instr.wr, opWR), (Instr.wrm, opWRM)] → Runs s op p tag r →
    (misaligned r.op r.flags r.addr r.operand.toNat = true ∨ dramHole r.op r.len r.flags r.addr = true ∨
      ∃ x ∈ slotsOf r.cfg r.op r.len r.flags r.addr, s.serves x.loc.ch = false) →
    ∃ t, exec (c p tag) s = .next t ∧
      Answers s t r ⟨(if misaligned r.op r.flags r.addr r.operand.toNat then 7 else if dramHole r.op r.len r.flags r.addr then 6 else 0xA),
        0, 0, 0, []⟩ ∧
      t = { s with reqs := t.reqs, live := t.live, tiles := t.tiles } ∧ LiveBut [R.MAP_CNT_HOLE] s t ∧
      (misaligned r.op r.flags r.addr r.operand.toNat = false → dramHole r.op r.len r.flags r.addr = true →
        Counted F.MAP_CNT_HOLE_count s t)) ∧
  (∀ (c : Port → BitVec 9 → Option (Fin 64) → Bool → Instr) (op : Nat) (p : Port) (tag : BitVec 9) (met : Option (Fin 64)) (wrote : Bool)
    (s : State) (r : Req), (c, op) ∈ [(Instr.lrd, opLRD), (Instr.lwr, opLWR), (Instr.lwrm, opLWRM)] → Runs s op p tag r →
    (misaligned r.op r.flags r.addr r.operand.toNat = true ∨ scratchHole r.cfg r.op r.len r.flags r.addr = true →
      ∃ t, exec (c p tag met wrote) s = .next t ∧
        Answers s t r ⟨(if misaligned r.op r.flags r.addr r.operand.toNat then 7 else 6), 0, 0, 0, []⟩ ∧
        t = { s with reqs := t.reqs, live := t.live } ∧ LiveBut [R.MAP_CNT_HOLE] s t) ∧
    (scratchCheck r = none → (∃ x ∈ hostUse r, ∃ y ∈ s.hostAhead r, x.at_ = y.at_) →
      ∃ t q, exec (c p tag met wrote) s = .next t ∧ q ∈ (hostUse r).map (·.q) ∧
        t.reqs = s.reqs.map (fun (x : Req) => if x.port = r.port ∧ x.tag = r.tag then { x with larQuad := some q } else x) ∧
        t = { s with reqs := t.reqs, live := t.live, lar := { s.lar with counted := t.lar.counted } } ∧
        LiveBut [R.LAR_CNT_PCONF (p.val / 16) (p.val % 16)] s t ∧
        ((r.port, r.tag) ∉ s.lar.counted → Counted (F.LAR_CNT_PCONF_count (p.val / 16) (p.val % 16)) s t)) ∧
    (scratchCheck r = none → (∀ x ∈ hostUse r, ∀ y ∈ s.hostAhead r, x.at_ ≠ y.at_) →
      (∃ x ∈ hostUse r, ∃ y ∈ s.lar.eng ++ metUse r met wrote, x.meets y = true) →
      ∃ t q, exec (c p tag met wrote) s = .next t ∧ q ∈ (hostUse r).map (·.q) ∧ Answers s t r { status := 5 } ∧
        Counted (F.LAR_CNT_COLLIDE_count q) s t ∧ t = { s with reqs := t.reqs, live := t.live } ∧ LiveBut [R.LAR_CNT_COLLIDE q] s t))

/-- R88, R97, R72, R78, R79, R159, R166: A FENCE whose turn has come is answered OK, and one behind an unanswered request of its port waits; a TQUERY is
answered REFUSED when it asks after its own tag, and otherwise says whether the tag was busy at its acceptance. The response of an answered request whose bursts have run is handed to its link as one RESP flit
with its header and one RDATA flit for each payload, in order, behind what the link already sends; its tag stays busy through the
frame. A link that can send transmits it, and the request is gone; one that holds 255 flits keeps the request until it can. In
DETERMINISTIC it waits for the frame of its fixed latency, and one that goes out later is counted. -/
def Obligations.FencesTagsAndResponses : Prop :=
  ((∀ (p : Port) (tag : BitVec 9) (s : State) (r : Req), Runs s opFENCE p tag r →
    ∃ t, exec (.fence p tag) s = .next t ∧ Answers s t r { status := 0 } ∧ t = { s with reqs := t.reqs }) ∧
  (∀ (p : Port) (tag : BitVec 9) (s : State) (r a : Req), (s.reqs.find? fun q => q.port == p.val && q.tag == tag.toNat) = some r →
    r.op = opFENCE → a ∈ s.reqs → a.port = p.val → a.before r = true → a.answer = none → exec (.fence p tag) s = .next s) ∧
  (∀ (p : Port) (tag : BitVec 9) (s : State) (r : Req), Runs s opTQUERY p tag r →
    ∃ t, exec (.tquery p tag) s = .next t ∧ t = { s with reqs := t.reqs } ∧
      Answers s t r (if r.operand.toNat % 512 = r.tag then { status := 7 } else { status := 0, result := BitVec.ofNat 64 (r.note % 2) }))) ∧
  ((∀ (p : Port) (tag : BitVec 9) (s : State) (r : Req) (a : Answer),
    (s.reqs.find? fun r => r.port == p.val && r.tag == tag.toNat && !r.tentative && r.data.length == r.need && !r.queued) = some r →
    r.answer = some a → s.linkTalks r.link = true → s.respWaits r = false → s.burstsLeft r = false →
    (r.mode = 2 → r.unfixed = false → ∀ f, r.respFrame = some f → f + r.excess ≤ s.absFrame) →
    (r.mode = 2 → r.unfixed = false → ∀ f, r.respFrame = some f → f < s.absFrame →
      s.severityOf (Src.larder 0 (r.larQuad.getD (scratchLine r.cfg r.addr).q)) ≠ 5 ∧ s.severityOf (Src.sched 2 r.lateAt) ≠ 5) →
    ∃ t, exec (.responseSend p tag) s = .next t ∧
      (t.link r.link).flits = (s.link r.link).flits ++ (3, payload [(0, 16, respHeader r a)]) :: a.rdata.map (fun d => (4, d)) ∧
      t.tagBusy r.port r.tag = true ∧ (∀ q ∈ t.reqs, q ∈ s.reqs ∨ (q.port = r.port ∧ q.tag = r.tag ∧ q.queued = true)) ∧
      ((s.link r.link).out = [] → (s.link r.link).replayQ = [] → (s.link r.link).held.length < 255 →
        ∀ q ∈ t.reqs, ¬(q.port = r.port ∧ q.tag = r.tag)) ∧
      (255 ≤ (s.link r.link).held.length → t.sentTags = s.sentTags ∧
        t.reqs = s.reqs.map (fun (q : Req) => if q.port = r.port ∧ q.tag = r.tag then { q with queued := true } else q)) ∧
      t = { s with reqs := t.reqs, sentTags := t.sentTags, links := t.links, live := t.live, evq := t.evq, evLost := t.evLost
                   flt := t.flt } ∧ LinksBut r.link s t ∧
      ((r.mode = 2 → r.unfixed = false → ∀ f, r.respFrame = some f → s.absFrame ≤ f) →
        t = { s with reqs := t.reqs, sentTags := t.sentTags, links := t.links })) ∧
  (∀ (p : Port) (tag : BitVec 9) (s : State) (r : Req) (a : Answer) (f : Nat),
    (s.reqs.find? fun r => r.port == p.val && r.tag == tag.toNat && !r.tentative && r.data.length == r.need && !r.queued) = some r →
    r.answer = some a → r.mode = 2 → r.unfixed = false → r.respFrame = some f → s.absFrame < f →
    exec (.responseSend p tag) s = .next s))

/-! ### Counters and policers -/

/-- R202, R203, R205, R230, R296: A CADD64, CADDPB or CADDD32 that is performed on its word in memory answers OK with the counter as
the format and policy of the request make it, stores that value clean and nothing else, and is counted. An overflow is
counted and, under policy 2 with room to stage it, recorded; info carries corrected, spilled and overflow. A CADD that meets an uncorrectable word is REFUSED and leaves the word poisoned with its data bits as read;
one that meets a poisoned word answers POISON with the word and changes nothing in memory. Both are counted as damage. A counter or policer operation that finds a bank of its words taken in this flit, or claimed by a waiting operation whose
turn it is, waits with nothing done: it is counted once for its engine, and its banks know that it waits. -/
def Obligations.CountersCountUnlessDamaged : Prop :=
  (∀ (c : Port → BitVec 9 → Fin 4 → Instr) (op format : Nat) (p : Port) (tag : BitVec 9) (k : Fin 4) (s : State) (r : Req)
    (x : DWord) (errs : List Nat),
    (c, op, format) ∈ [(Instr.cadd64, opCADD64, 0), (Instr.caddpb, opCADDPB, 1), (Instr.caddd32, opCADDD32, 2)] →
    Runs s op p tag r → s.engCheck r = none → EngineFree s r r.engTile (s.engUse r) → s.caches r r.engTile = false → TargetReads s r 0 x errs →
    (s.spillOf (r.engTile / 8)).staged.length + 2 ≤ 1024 → Mild s 304 336 → Mild s 504 544 →
    ∃ t, exec (c p tag k) s = .next t ∧
      Answers s t r ⟨0, (if errs = [] then 0 else 1) +
        (if (addCounter format (r.flags % 4) x r.operand).2 = [] then 0 else if r.flags % 4 = 2 then 6 else 4),
        0, (addCounter format (r.flags % 4) x r.operand).1, []⟩ ∧
      t.targetCode r 0 = encodeWord (addCounter format (r.flags % 4) x r.operand).1 false ∧ StoresTarget r [0] s t ∧
      Counted (F.ENG_CNT_CUPD_count r.engTile) s t ∧
      ((addCounter format (r.flags % 4) x r.operand).2 ≠ [] → Counted (F.ENG_CNT_OVF_count r.engTile) s t) ∧
      EngineMoves s t) ∧
  (∀ (c : Port → BitVec 9 → Fin 4 → Instr) (op : Nat) (p : Port) (tag : BitVec 9) (k : Fin 4) (s : State) (r : Req),
    (c, op) ∈ [(Instr.cadd64, opCADD64), (Instr.caddpb, opCADDPB), (Instr.caddd32, opCADDD32)] →
    Runs s op p tag r → s.engCheck r = none → EngineFree s r r.engTile (s.engUse r) → s.caches r r.engTile = false → s.targetPlain r 0 →
    Mild s 304 336 → Mild s 504 544 →
    (decodeWord (s.targetCode r 0).toNat [] = .bad →
      ∃ t, exec (c p tag k) s = .next t ∧ Answers s t r { status := 7 } ∧
        t.targetCode r 0 = encodeWord ((s.targetCode r 0).setWidth 64) true ∧ StoresTarget r [0] s t ∧
        Counted (F.ENG_CNT_CDAMAGE_count r.engTile) s t ∧ EngineMoves s t) ∧
    (∀ x : DWord, decodeWord (s.targetCode r 0).toNat [] = .ok (x.toNat + 2 ^ 64) [] false →
      ∃ t, exec (c p tag k) s = .next t ∧ Answers s t r { status := 1, result := x } ∧ SameMemory s t ∧
        Counted (F.ENG_CNT_CDAMAGE_count r.engTile) s t ∧ EngineMoves s t)) ∧
  (∀ (c : Port → BitVec 9 → Fin 4 → Instr) (op : Nat) (p : Port) (tag : BitVec 9) (k : Fin 4) (s : State) (r : Req) (x : LAcc),
    (c, op) ∈ [(Instr.cadd64, opCADD64), (Instr.caddpb, opCADDPB), (Instr.caddd32, opCADDD32), (Instr.crd, opCRD),
      (Instr.crdclr, opCRDCLR), (Instr.pol, opPOL)] →
    Runs s op p tag r → s.engCheck r = none → s.engineBusy r r.engTile (s.engUse r) = some x →
    ∃ t, exec (c p tag k) s = .next t ∧
      t.reqs = s.reqs.map (fun (q : Req) => if q.port = r.port ∧ q.tag = r.tag then { q with larQuad := some x.q } else q) ∧
      ((r.port, r.tag) ∉ s.lar.counted →
        Counted (F.LAR_CNT_ECONF_count (s.engineFor r.engTile k / 32) (s.engineFor r.engTile k % 32)) s t) ∧
      (∀ y ∈ s.engUse r, (⟨y.at_, r.engTile, r.port, r.tag⟩ : LWait) ∈ t.lar.waits) ∧
      t = { s with reqs := t.reqs, live := t.live, lar := { s.lar with counted := t.lar.counted, waits := t.lar.waits } } ∧
      LiveBut [R.LAR_CNT_ECONF (s.engineFor r.engTile k / 32) (s.engineFor r.engTile k % 32)] s t)

/-- R201-R203, R204, R230: The arithmetic of a counter word. Each field of the format is added apart: it keeps the sum below its width;
beyond, it stays at its maximum under policy 1 and wraps under the others, and it is then, and only then, among the
overflowed fields. A CRD answers its word and a CRDCLR answers it and stores 0 clean; with nothing to correct a CRD leaves both
memories as they are. A poisoned word answers POISON. Each is counted. -/
def Obligations.CountersAddApartAndAreRead : Prop :=
  (∀ (format policy : Nat) (old inc : DWord) (i lo w : Nat), (counterFields format)[i]? = some (lo, w) →
    bits (addCounter format policy old inc).1.toNat lo w =
      (if policy = 1 then min (bits old.toNat lo w + bits inc.toNat lo w) (2 ^ w - 1)
        else (bits old.toNat lo w + bits inc.toNat lo w) % 2 ^ w) ∧
    (i ∈ (addCounter format policy old inc).2 ↔ 2 ^ w ≤ bits old.toNat lo w + bits inc.toNat lo w)) ∧
  (∀ (p : Port) (tag : BitVec 9) (k : Fin 4) (s : State) (r : Req) (x : DWord) (errs : List Nat) (poison : Bool), s.engCheck r = none →
    EngineFree s r r.engTile (s.engUse r) → s.caches r r.engTile = false → s.targetPlain r 0 →
    decodeWord (s.targetCode r 0).toNat [] = .ok (x.toNat + if poison then 2 ^ 64 else 0) errs false → Mild s 304 336 → Mild s 504 544 →
    (Runs s opCRD p tag r →
      ∃ t, exec (.crd p tag k) s = .next t ∧
        Answers s t r ⟨if poison then 1 else 0, if errs = [] then 0 else 1, 0, x, []⟩ ∧ StoresTarget r [0] s t ∧
        (errs = [] → SameMemory s t) ∧ Counted (F.ENG_CNT_CUPD_count r.engTile) s t ∧ EngineMoves s t) ∧
    (Runs s opCRDCLR p tag r →
      ∃ t, exec (.crdclr p tag k) s = .next t ∧
        Answers s t r ⟨if poison then 1 else 0, if errs = [] then 0 else 1, 0, x, []⟩ ∧ StoresTarget r [0] s t ∧
        t.targetCode r 0 = encodeWord 0 false ∧ Counted (F.ENG_CNT_CUPD_count r.engTile) s t ∧ EngineMoves s t))

/-- R208-R211: the counter cache. A CADD64 that hits changes the cached line alone, which becomes dirty, and neither memory; a CFLUSH of
a dirty line whose words hold no error stores them and leaves the line clean, answering the 8 words it wrote; a CFLUSH of all leaves no
line dirty. The bank that the line's word lies in is free in this flit. -/
def Obligations.TheCacheHoldsAndFlushes : Prop :=
  (∀ (p : Port) (tag : BitVec 9) (e : Fin 4) (s : State) (r : Req) (k : Nat) (l : CLine) (x : DWord), Runs s opCADD64 p tag r →
    s.engCheck r = none → EngineFree s r r.engTile (s.engUse r) → s.caches r r.engTile = true → Tab.wf (fun _ => []) s.eng.cache = true → l.words.length = 8 →
    s.cached (dramLoc r.cfg r.addr) = some (k, l) → decodeWord (l.words.getD (r.addr / 8 % 8) 0).toNat [] = .ok x.toNat [] false →
    (addCounter 0 (r.flags % 4) x r.operand).2 = [] →
    ∃ t, exec (.cadd64 p tag e) s = .next t ∧ Answers s t r { status := 0, result := x + r.operand } ∧ SameMemory s t ∧
      (∃ l', t.cached (dramLoc r.cfg r.addr) = some (k, l') ∧ l'.dirty = true ∧
        l'.words = l.words.set (r.addr / 8 % 8) (encodeWord (x + r.operand) false)) ∧
      Counted (F.ENG_CNT_CHIT_count r.engTile) s t ∧
      t = { s with reqs := t.reqs, live := t.live, eng := { s.eng with cache := t.eng.cache }, lar := t.lar, tiles := t.tiles } ∧
      t.lar.host = s.lar.host ∧ LiveBut [R.ENG_CNT_CUPD r.engTile, R.ENG_CNT_CHIT r.engTile] s t) ∧
  (∀ (p : Port) (tag : BitVec 9) (s : State) (r : Req) (k : Nat) (l : CLine) (x : Nat → DWord), Runs s opCFLUSH p tag r →
    r.flags.testBit 0 = false → s.dramCheck r = none → s.serves (dramLoc r.cfg r.addr).ch = true →
    s.engineUp (dramLoc r.cfg r.addr).ch = true → Tab.wf (fun _ => []) s.eng.cache = true → s.fb F.ECC_INJ_CTL_arm = false →
    Mild s 504 544 → l.words.length = 8 → s.heldJob (dramLoc r.cfg r.addr) = none →
    s.mirrorRow (dramLoc r.cfg r.addr).ch (dramLoc r.cfg r.addr).bank (dramLoc r.cfg r.addr).row (dramLoc r.cfg r.addr).col = none →
    s.mirrorOf (dramLoc r.cfg r.addr).ch (dramLoc r.cfg r.addr).bank
      (s.physRow (dramLoc r.cfg r.addr).ch (dramLoc r.cfg r.addr).bank (dramLoc r.cfg r.addr).row) (dramLoc r.cfg r.addr).col = none →
    s.dirtyLines (fun t l => decide (l.loc t = dramLoc r.cfg r.addr)) = [(k, l)] →
    (∀ w, w < 8 → decodeWord (l.words.getD w 0).toNat [] = .ok (x w).toNat [] false) →
    ∃ t, exec (.cflush p tag) s = .next t ∧ Answers s t r { status := 0, aux := 8 } ∧
      (∀ w, w < 8 → t.dramGet (s.physWord (dramLoc r.cfg r.addr) w) = encodeWord (x w) false) ∧
      StoresDram (fun i => ∃ w, w < 8 ∧ i = s.physWord (dramLoc r.cfg r.addr) w) s t ∧
      t.dirtyLines (fun t l => decide (l.loc t = dramLoc r.cfg r.addr)) = [] ∧
      Counted (F.ENG_CNT_CWB_count (dramLoc r.cfg r.addr).ch) s t ∧ EngineMoves s t) ∧
  (∀ (p : Port) (tag : BitVec 9) (s : State) (r : Req), Runs s opCFLUSH p tag r → r.flags.testBit 0 = true → s.fb F.ECC_INJ_CTL_arm = false →
    (∀ e ∈ s.eng.cache, e.1 < 32 * 16384) →
    Tab.wf (fun _ => []) s.eng.cache = true → Mild s 304 336 → Mild s 504 544 →
    ∃ t, exec (.cflush p tag) s = .next t ∧
      Answers s t r { status := 0, aux := min (8 * (s.dirtyLines fun _ _ => true).length) (2 ^ 32 - 1) } ∧
      t.dirtyLines (fun _ _ => true) = [] ∧ (s.bst.held = [] → s.bst.runs = [] → t.larder = s.larder) ∧ EngineMoves s t)

/-- R221, R224-R226, R224, R225: A POL on two words that read without poison, under a profile that is no bad one, refills and marks the policer,
stores both of its words and nothing else, and answers OK with the colour; a bad profile is REFUSED and stores nothing. The policer's arithmetic. A refill leaves neither bucket above its size, and takes no time for a stamp up to
64 epochs ahead. A mark takes the packet's bytes from the buckets of its colour, only where they hold them, and none for red; with
a colour-aware profile no colour is better than the input. The two words of a policer in range read back as it. -/
def Obligations.PolicersMarkWithinTheirBuckets : Prop :=
  (∀ (p : Port) (tag : BitVec 9) (k : Fin 4) (s : State) (r : Req) (x y : DWord), Runs s opPOL p tag r →
    s.engCheck r = none → EngineFree s r r.engTile (s.engUse r) → TargetReads s r 0 x [] → TargetReads s r 8 y [] → Mild s 504 544 →
    (badProfile (profileOf r.cfg (Policer.ofWords x y).profile) x = false →
      ∃ t, exec (.pol p tag k) s = .next t ∧
        ∀ out, out = ((Policer.ofWords x y).refill (profileOf r.cfg (Policer.ofWords x y).profile) (r.frame / 8)).mark
            (profileOf r.cfg (Policer.ofWords x y).profile) (r.operand.toNat % 2 ^ 32) (r.flags % 4) →
          Answers s t r { status := 0, info := out.2 } ∧ t.targetCode r 0 = encodeWord out.1.words.1 false ∧
          t.targetCode r 8 = encodeWord out.1.words.2 false ∧ StoresTarget r [0, 8] s t ∧
          Counted (F.ENG_CNT_POL_count r.engTile) s t ∧ (out.2 = 2 → Counted (F.ENG_CNT_POLRED_count r.engTile) s t) ∧
          EngineMoves s t) ∧
    (badProfile (profileOf r.cfg (Policer.ofWords x y).profile) x = true →
      ∃ t, exec (.pol p tag k) s = .next t ∧ Answers s t r { status := 7 } ∧ SameMemory s t ∧
        Counted (F.ENG_CNT_POL_count r.engTile) s t ∧ EngineMoves s t)) ∧
  ((∀ (x : Policer) (f : Profile) (n : Nat), (x.refill f n).tc ≤ f.cbs ∧ (x.refill f n).te ≤ f.ebs ∧ (x.refill f n).profile = x.profile ∧
    ((n % 2 ^ 32 + 2 ^ 32 - x.stamp) % 2 ^ 32 < 2 ^ 32 - 64 → (x.refill f n).stamp = n % 2 ^ 32) ∧
    (2 ^ 32 - 64 ≤ (n % 2 ^ 32 + 2 ^ 32 - x.stamp) % 2 ^ 32 → x.cfrac < 4096 → x.efrac < 4096 →
      (x.refill f n).stamp = x.stamp ∧ (x.refill f n).tc = min f.cbs x.tc)) ∧
  (∀ (x : Policer) (f : Profile) (b c : Nat),
    ((x.mark f b c).2 = 2 → (x.mark f b c).1 = x) ∧
    ((x.mark f b c).2 = 1 → b ≤ x.te ∧ (x.mark f b c).1 = { x with te := x.te - b }) ∧
    ((x.mark f b c).2 = 0 → b ≤ x.tc ∧ (x.mark f b c).1 = { x with tc := x.tc - b, te := if f.alg = 1 then x.te else x.te - b }) ∧
    (f.alg ≠ 1 → (x.mark f b c).2 = 0 → b ≤ x.te) ∧
    (x.mark f b c).2 ≤ 2 ∧ (f.aware = true → c ≤ 2 → c ≤ (x.mark f b c).2)) ∧
  (∀ x : Policer, x.profile < 64 → x.stamp < 2 ^ 32 → x.cfrac < 4096 → x.efrac < 4096 → x.te < 2 ^ 32 → x.tc < 2 ^ 32 →
    Policer.ofWords x.words.1 x.words.2 = x))

/-! ### Lookups, walks and queues -/

/-- R234, R238: An HLK whose two candidate buckets read with nothing to correct answers OK with the first entry that holds the key, bit
1 of info telling the second candidate, or MISS when none does; a candidate that cannot be reached, with no hit in the other, answers
UNAVAIL; aux is the table each time. Memory does not change, and the lookup is counted. What a lookup in two buckets finds. A hit is a valid, readable entry that holds the key, in one of the buckets at its own
slot; where both are reached and all their entries readable, the key is absent only when no valid entry holds it. -/
def Obligations.LookupsFindWhatIsThere : Prop :=
  ((∀ (p : Port) (tag : BitVec 9) (s : State) (r : Req) (x y : Nat → DWord), Runs s opHLK p tag r → s.hashCheck r = none →
    BucketReads s r r.keyBuckets.1 x → BucketReads s r r.keyBuckets.2 y → Mild s 112 144 →
    (∀ e, findKey r.table (r.key r.table.keylen) [cleanBucket r.keyBuckets.1 x, cleanBucket r.keyBuckets.2 y] = .hit e →
      ∃ t, exec (.hlk p tag) s = .next t ∧
        Answers s t r ⟨0, if e.bucket = r.keyBuckets.1 then 0 else 2, r.operand.toNat % 64, 0, [wordsPayload (e.words.map (·.data))]⟩ ∧
        Counted (F.ENG_CNT_HLK_count r.home) s t ∧ Counted (F.ENG_CNT_HHIT_count r.home) s t ∧ TablesRead s t) ∧
    (findKey r.table (r.key r.table.keylen) [cleanBucket r.keyBuckets.1 x, cleanBucket r.keyBuckets.2 y] = .absent →
      ∃ t, exec (.hlk p tag) s = .next t ∧ Answers s t r { status := 2, aux := r.operand.toNat % 64 } ∧
        Counted (F.ENG_CNT_HLK_count r.home) s t ∧ TablesRead s t)) ∧
  (∀ (p : Port) (tag : BitVec 9) (s : State) (r : Req) (y : Nat → DWord), Runs s opHLK p tag r → s.hashCheck r = none →
    s.serves (dramLoc r.cfg (r.table.base + 64 * r.keyBuckets.1)).ch = false → BucketReads s r r.keyBuckets.2 y → Mild s 112 144 →
    findKey r.table (r.key r.table.keylen) [⟨r.keyBuckets.1, none⟩, cleanBucket r.keyBuckets.2 y] = .unreached →
    ∃ t, exec (.hlk p tag) s = .next t ∧ Answers s t r { status := 0xA, aux := r.operand.toNat % 64 } ∧ TablesRead s t)) ∧
  (∀ (h : HashTab) (key : Nat) (bs : List Bucket),
    (∀ e, findKey h key bs = .hit e → (∃ b ∈ bs, e ∈ b.entries h) ∧ e.readable h = true ∧ e.valid h = true ∧ e.key h = key) ∧
    (findKey h key bs = .absent → ∀ b ∈ bs, b.words.isSome = true ∧ ∀ e ∈ b.entries h, ¬(e.valid h = true ∧ e.key h = key)))

/-- R236, R239, R240, R241: Table maintenance on buckets that read with nothing to correct. An HINS of a key that is there overwrites its entry
and says so; of a key that is not, it fills the first empty slot. An HDEL writes its key's entry as 0, or answers MISS. Only the words of
that entry change. No WR of the table is outstanding with it (R242). Whatever the words of a table hold, an HLK, HINS or HDEL of a configured table is answered, with OK, POISON, MISS,
FULL or UNAVAIL; an HLK stores to no byte of the DRAM, and a HINS or HDEL, whose table lies in the array alone and has no WR
outstanding with it, to none outside the table. -/
def Obligations.MaintenanceWritesItsTableAlone : Prop :=
  (∀ (p : Port) (tag : BitVec 9) (s : State) (r : Req) (x y : Nat → DWord), s.hashCheck r = none →
    BucketReads s r r.keyBuckets.1 x → BucketReads s r r.keyBuckets.2 y → s.fb F.ECC_INJ_CTL_arm = false → NoClash s r →
    Mild s 112 144 → Mild s 504 544 →
    (∀ e, Runs s opHINS p tag r →
      findKey r.table (r.key r.table.keylen) [cleanBucket r.keyBuckets.1 x, cleanBucket r.keyBuckets.2 y] = .hit e →
      ∃ t, exec (.hins p tag) s = .next t ∧ Answers (s.touching r [r.keyBuckets.1, r.keyBuckets.2]) t r { status := 0, info := 2 } ∧
        (∀ i, i < r.table.esize / 8 → t.dramGet (s.wordAt r.cfg (r.table.base + 64 * e.bucket + r.table.esize * e.slot + 8 * i)) =
          encodeWord ((newEntry r.table (r.data.headD 0)).getD i (0, false)).1 false) ∧
        StoresDram (fun j => ∃ i, i < r.table.esize / 8 ∧
          j = s.wordAt r.cfg (r.table.base + 64 * e.bucket + r.table.esize * e.slot + 8 * i)) s t ∧
        Counted (F.ENG_CNT_HINS_count r.home) s t ∧ TablesMove s t) ∧
    (∀ e, Runs s opHINS p tag r →
      findKey r.table (r.key r.table.keylen) [cleanBucket r.keyBuckets.1 x, cleanBucket r.keyBuckets.2 y] = .absent →
      (([cleanBucket r.keyBuckets.1 x, cleanBucket r.keyBuckets.2 y].flatMap (Bucket.entries r.table)).find? (Entry.empty r.table)) = some e →
      ∃ t, exec (.hins p tag) s = .next t ∧ Answers (s.touching r [r.keyBuckets.1, r.keyBuckets.2]) t r { status := 0 } ∧
        (∀ i, i < r.table.esize / 8 → t.dramGet (s.wordAt r.cfg (r.table.base + 64 * e.bucket + r.table.esize * e.slot + 8 * i)) =
          encodeWord ((newEntry r.table (r.data.headD 0)).getD i (0, false)).1 false) ∧
        StoresDram (fun j => ∃ i, i < r.table.esize / 8 ∧
          j = s.wordAt r.cfg (r.table.base + 64 * e.bucket + r.table.esize * e.slot + 8 * i)) s t ∧
        Counted (F.ENG_CNT_HINS_count r.home) s t ∧ TablesMove s t) ∧
    (∀ e, Runs s opHDEL p tag r →
      findKey r.table (r.key r.table.keylen) [cleanBucket r.keyBuckets.1 x, cleanBucket r.keyBuckets.2 y] = .hit e →
      ∃ t, exec (.hdel p tag) s = .next t ∧ Answers (s.touching r [r.keyBuckets.1, r.keyBuckets.2]) t r { status := 0 } ∧
        (∀ i, i < r.table.esize / 8 → t.dramGet (s.wordAt r.cfg (r.table.base + 64 * e.bucket + r.table.esize * e.slot + 8 * i)) =
          encodeWord 0 false) ∧
        StoresDram (fun j => ∃ i, i < r.table.esize / 8 ∧
          j = s.wordAt r.cfg (r.table.base + 64 * e.bucket + r.table.esize * e.slot + 8 * i)) s t ∧
        Counted (F.ENG_CNT_HDEL_count r.home) s t ∧ TablesMove s t) ∧
    (Runs s opHDEL p tag r →
      findKey r.table (r.key r.table.keylen) [cleanBucket r.keyBuckets.1 x, cleanBucket r.keyBuckets.2 y] = .absent →
      ∃ t, exec (.hdel p tag) s = .next t ∧ Answers (s.touching r [r.keyBuckets.1, r.keyBuckets.2]) t r { status := 2 } ∧
        Counted (F.ENG_CNT_HDEL_count r.home) s t ∧ TablesRead s t)) ∧
  (∀ (p : Port) (tag : BitVec 9) (s : State) (r : Req), s.hashCheck r = none → Mild s 112 144 → Mild s 304 336 → Mild s 504 544 →
    (Runs s opHLK p tag r → ∃ t a, exec (.hlk p tag) s = .next t ∧ Answers s t r a ∧ a.status ∈ [0, 1, 2, 0xA] ∧ t.dram = s.dram ∧
      (s.bst.held = [] → s.bst.runs = [] → t.larder = s.larder) ∧ TablesMove s t) ∧
    (∀ c op, (c, op) ∈ [(Instr.hins, opHINS), (Instr.hdel, opHDEL)] → Runs s op p tag r → NoClash s r → s.fb F.ECC_INJ_CTL_arm = false →
      (∀ k, k < r.table.size / 64 → s.InArray (dramLoc r.cfg (r.table.base + 64 * k))) →
      ∃ t a bs, exec (c p tag) s = .next t ∧ Answers (s.touching r bs) t r a ∧ a.status ∈ [0, 1, 2, 3, 0xA] ∧
        StoresDram (fun j => ∃ k, k < r.table.size / 8 ∧ j = s.wordAt r.cfg (r.table.base + 8 * k)) s t ∧ TablesMove s t))

/-- R245-R251: a prefix walk. An LPM of an enabled table of its family reads its root entry in the scratchpad where the table has Larder
levels and ends there, or sends the fetch of a DRAM root; a returned DRAM entry ends the walk or sends the next fetch, with the best
result kept; the step timer that the walk was accepted under ends it with TIMEOUT. A table that is not enabled or is of the other family answers REFUSED. -/
def Obligations.WalksGoLevelByLevel : Prop :=
  (∀ (p : Port) (tag : BitVec 9) (s : State) (r : Req) (x : DWord) (b : Option (Nat × Nat)), Runs s opLPM p tag r → r.walk = none →
    (trieTab r.cfg (r.operand.toNat % 16)).enable = true → (trieTab r.cfg (r.operand.toNat % 16)).v6 = r.flags.testBit 0 →
    s.engineUp (homeTile r.port) = true → 0 < (trieTab r.cfg (r.operand.toNat % 16)).nlar → Mild s 304 336 →
    ∀ T key entry, T = trieTab r.cfg (r.operand.toNat % 16) → key = r.lpmKey T.v6 → entry = T.poolBase 0 + 8 * T.index key 0 →
    EngineFree s r (homeTile r.port) (s.walkUse r T key (min T.nlar T.levels.length) 0 entry) →
    entry + 8 ≤ scratchSize r.cfg → CleanLarder s (scratchLine r.cfg entry) (entry / 8 % 8) x →
    T.follow key 0 (T.dflt.map fun nh => (0, nh)) x = .stop b →
    ∃ t, exec (.lpm p tag) s = .next t ∧
      Answers s t r (match b with | some (plen, nh) => { status := 0, aux := plen, result := BitVec.ofNat 64 nh } | none => { status := 2 }) ∧
      Counted (F.ENG_CNT_LPM_count (homeTile r.port)) s t ∧ TablesRead s t) ∧
  (∀ (p : Port) (tag : BitVec 9) (s : State) (r : Req), Runs s opLPM p tag r → r.walk = none →
    (trieTab r.cfg (r.operand.toNat % 16)).enable = true → (trieTab r.cfg (r.operand.toNat % 16)).v6 = r.flags.testBit 0 →
    s.engineUp (homeTile r.port) = true → (trieTab r.cfg (r.operand.toNat % 16)).nlar = 0 → Mild s 112 144 →
    ∀ T key entry, T = trieTab r.cfg (r.operand.toNat % 16) → key = r.lpmKey T.v6 → entry = T.poolBase 0 + 8 * T.index key 0 →
    entry + 8 ≤ dramTop → s.serves (dramLoc r.cfg entry).ch = true → s.engineUp (dramLoc r.cfg entry).ch = true →
    ∃ t, exec (.lpm p tag) s = .next t ∧
      t.reqs = (s.reqs.map fun q => if q.port = r.port ∧ q.tag = r.tag then
        { q with walk := some ⟨0, entry, s.epoch, key, T.dflt.map fun nh => (0, nh), false, homeTile r.port⟩ } else q) ∧
      Counted (F.ENG_CNT_LPM_count (homeTile r.port)) s t ∧ TablesRead s t) ∧
  (∀ (p : Port) (tag : BitVec 9) (s : State) (r : Req), Runs s opLPM p tag r → r.walk = none →
    ((trieTab r.cfg (r.operand.toNat % 16)).enable = false ∨ (trieTab r.cfg (r.operand.toNat % 16)).v6 ≠ r.flags.testBit 0) →
    ∃ t, exec (.lpm p tag) s = .next t ∧ Answers s t r { status := 7 } ∧ t = { s with reqs := t.reqs }) ∧
  (∀ (p : Port) (tag : BitVec 9) (tie : Bool) (s : State) (r : Req) (w : Walk) (x : DWord), s.walking p tag = some (r, w) → r.discard = false →
    w.tile < 32 → CleanDram s (dramLoc r.cfg w.entry) (w.entry / 8 % 8) x → Mild s 112 144 → Mild s 304 336 →
    ∀ T, T = trieTab r.cfg (r.operand.toNat % 16) →
    (∀ b, T.follow w.key w.level w.best x = .stop b →
      ∃ t a, exec (.walkNodeReturn p tag tie) s = .next t ∧
        Answers (s.modReq r fun q => { q with walk := none }) t r a ∧
        a.status = (if b = none then 2 else 0) ∧ a.aux = (b.getD (0, 0)).1 ∧ a.result = BitVec.ofNat 64 (b.getD (0, 0)).2 ∧
        a.info = (if w.corr then 1 else 0) ∧
        (tie = true → Counted (F.ENG_CNT_NEARMISS_count w.tile) s t) ∧ TablesRead s t) ∧
    (∀ b e, T.follow w.key w.level w.best x = .go b e → e + 8 ≤ dramTop → s.serves (dramLoc r.cfg e).ch = true →
      s.engineUp (dramLoc r.cfg e).ch = true →
      ∃ t, exec (.walkNodeReturn p tag tie) s = .next t ∧
        t.reqs = (s.reqs.map fun q => if q.port = r.port ∧ q.tag = r.tag then
          { q with walk := some ⟨w.level + 1, e, s.epoch, w.key, b, w.corr, (dramLoc r.cfg w.entry).ch⟩ } else q) ∧
        TablesRead s t)) ∧
  (∀ (p : Port) (tag : BitVec 9) (s : State) (r : Req) (w : Walk), s.walking p tag = some (r, w) → r.discard = false → w.tile < 32 →
    w.issued + max 1 (r.cfg.fv (F.ENG_WALK_step_timer w.tile)) ≤ s.epoch → Mild s 112 144 → Mild s 304 336 →
    ∃ t, exec (.walkStepTimeout p tag) s = .next t ∧
      Answers (s.modReq r fun q => { q with walk := none }) t r { status := 0xB, info := if w.corr then 1 else 0 } ∧
      Counted (F.ENG_CNT_WALKTO_count w.tile) s t ∧ TablesRead s t)

/-- R262, R266, R268-R271: an ENQ on a sound queue that is not full. It takes the other cell of a half-used tail pair, or the first cell
of a free pair of its quadrant's cache, which leaves the cache; stores the cell's 32 words; sets tail and length, and head where the queue
was empty; and answers OK with the length and the cell. Beside the cell only the old tail's link word and the descriptor change. With no
pair in the cache it is FULL when the free stack is empty too, and waits for a refill when it is not. -/
def Obligations.EnqueueAppends : Prop :=
  ∀ (p : Port) (tag : BitVec 9) (s : State) (r : Req) (a b : DWord), Runs s opENQ p tag r → s.celCheck r = none →
    EngineFree s r (queueTile r.queue) (s.celUse r) → DescReads s r a b →
    (Desc.ofWords a b).broken = false → (Desc.ofWords a b).len < 2 ^ 24 - 1 → s.fb F.ECC_INJ_CTL_arm = false →
    Mild s 112 144 → Mild s 504 544 → Mild s 596 602 →
    (∀ cell, (Desc.ofWords a b).len ≠ 0 → (Desc.ofWords a b).tail % 2 = 0 → cell = (Desc.ofWords a b).tail + 1 → CellPlain s r cell →
      ∃ t d, exec (.enq p tag) s = .next t ∧
        Answers s t r { status := 0, aux := (Desc.ofWords a b).len + 1, result := BitVec.ofNat 64 cell } ∧
        DescHolds t r d ∧ d.len = (Desc.ofWords a b).len + 1 ∧ d.tail = cell ∧ d.head = (Desc.ofWords a b).head ∧ OnlyDesc r s t ∧
        (∀ i, i < 32 → t.dramGet (s.wordAt r.cfg ((celCfg r.cfg).cellAt cell + 8 * i)) = encodeWord ((cellWords r).getD i 0) false) ∧
        (∀ i, (∀ k, k < 32 → i / 10 ≠ s.wordAt r.cfg ((celCfg r.cfg).cellAt cell + 8 * k)) → memByte t.dram i = memByte s.dram i) ∧
        TablesMove s t) ∧
    (((Desc.ofWords a b).len = 0 ∨ (Desc.ofWords a b).tail % 2 = 1) → s.cacheOf (queueQuad r.queue) ≠ [] →
      (∀ j ∈ s.cacheOf (queueQuad r.queue), CellPlain s r (2 * j)) →
      ((Desc.ofWords a b).len ≠ 0 → s.servesRange r.cfg ((celCfg r.cfg).linkAt ((Desc.ofWords a b).tail / 2)) 1 = true ∧
        s.InArray (dramLoc r.cfg ((celCfg r.cfg).linkAt ((Desc.ofWords a b).tail / 2)))) →
      (s.cel.stack = 0 ∨ (s.bst.held = [] ∧ s.bst.runs = [])) →
      ∃ t d j, exec (.enq p tag) s = .next t ∧ j ∈ s.cacheOf (queueQuad r.queue) ∧
        t.cacheOf (queueQuad r.queue) = (s.cacheOf (queueQuad r.queue)).erase j ∧
        Answers s t r { status := 0, aux := (Desc.ofWords a b).len + 1, result := BitVec.ofNat 64 (2 * j) } ∧
        DescHolds t r d ∧ d.len = (Desc.ofWords a b).len + 1 ∧ d.tail = 2 * j ∧
        d.head = (if (Desc.ofWords a b).len = 0 then 2 * j else (Desc.ofWords a b).head) ∧ OnlyDesc r s t ∧
        (∀ i, i < 32 → t.dramGet (s.wordAt r.cfg ((celCfg r.cfg).cellAt (2 * j) + 8 * i)) = encodeWord ((cellWords r).getD i 0) false) ∧
        (∀ i, (∀ k, k < 32 → i / 10 ≠ s.wordAt r.cfg ((celCfg r.cfg).cellAt (2 * j) + 8 * k)) →
          ((Desc.ofWords a b).len ≠ 0 → i / 10 ≠ s.wordAt r.cfg ((celCfg r.cfg).linkAt ((Desc.ofWords a b).tail / 2))) →
          memByte t.dram i = memByte s.dram i) ∧
        TablesMove s t) ∧
    (((Desc.ofWords a b).len = 0 ∨ (Desc.ofWords a b).tail % 2 = 1) → s.cacheOf (queueQuad r.queue) = [] → s.cel.stack = 0 →
      r.waiting = false →
      ∃ t, exec (.enq p tag) s = .next t ∧ Answers s t r { status := 3 } ∧ Counted F.CEL_CNT_FULL_count s t ∧ TablesRead s t) ∧
    (((Desc.ofWords a b).len = 0 ∨ (Desc.ofWords a b).tail % 2 = 1) → s.cacheOf (queueQuad r.queue) = [] → 0 < s.cel.stack →
      ∃ t, exec (.enq p tag) s = .next t ∧
        t.reqs = s.reqs.map (fun (q : Req) => if q.port = r.port ∧ q.tag = r.tag then { q with waiting := true } else q) ∧
        (r.waiting = false → t.cel.waits = s.cel.waits ++ [(r.port, r.tag)]) ∧ t.dram = s.dram ∧ TablesMove s t)

/-- R267, R272, R273, R275, R268, R274: A DEQ on a sound queue takes its first cell: OK with its 256 bytes, its eop and its length, from DRAM or
from the head cache; the descriptor's head moves on and its length falls by 1; the pair is freed after its second cell or with the queue's
last. An empty queue answers EMPTY. A QSTAT of a queue that is not empty answers OK with the two words of its descriptor; of an empty one with the second
word, the head and the tail being undefined (a free value). It changes nothing else. -/
def Obligations.QueuesLoseTheirHeadAndTellTheirState : Prop :=
  (∀ (p : Port) (tag : BitVec 9) (s : State) (r : Req) (a b : DWord), Runs s opDEQ p tag r → s.celCheck r = none →
    EngineFree s r (queueTile r.queue) (s.celUse r) → DescReads s r a b →
    (Desc.ofWords a b).broken = false → Mild s 112 144 →
    ((Desc.ofWords a b).len = 0 →
      ∃ t, exec (.deq p tag) s = .next t ∧ Answers s t r { status := 4 } ∧ Counted F.CEL_CNT_EMPTY_count s t ∧
        TablesRead s t) ∧
    (∀ (D : Desc) (x : Nat → DWord) (e : DWord), D = Desc.ofWords a b → D.len ≠ 0 → s.headOf r.queue = none →
      CellPlain s r D.head → (∀ i, i < 32 → CleanDram s (dramLoc r.cfg ((celCfg r.cfg).cellAt D.head + 8 * i)) (i % 8) (x i)) →
      (D.head / 2 ≠ D.tail / 2 → s.servesRange r.cfg ((celCfg r.cfg).linkAt (D.head / 2)) 1 = true) →
      (D.head / 2 ≠ D.tail / 2 ∨ D.head % 2 = 1 → s.servesRange r.cfg ((celCfg r.cfg).linkAt (D.head / 2)) 1 = true →
        CleanDram s (dramLoc r.cfg ((celCfg r.cfg).linkAt (D.head / 2))) ((celCfg r.cfg).linkAt (D.head / 2) / 8 % 8) e) →
      ∃ t ans d, exec (.deq p tag) s = .next t ∧ Answers s t r ans ∧ ans.status = 0 ∧ ans.result = BitVec.ofNat 64 D.head ∧
        ans.rdata.length = 4 ∧ (∀ i, i < 32 → (ans.rdata.getD (i / 8) 0).word (i % 8) = x i) ∧
        ans.info = (if D.head / 2 = D.tail / 2 then (if (if D.head % 2 = 0 then D.eEop else D.oEop) then 1 else 0)
          else if e.toNat.testBit (if D.head % 2 = 0 then 31 else 63) then 1 else 0) ∧
        ans.aux = (if (if D.head / 2 = D.tail / 2 then (if D.head % 2 = 0 then D.eShort else D.oShort)
          else e.toNat.testBit (if D.head % 2 = 0 then 30 else 62)) then (x 31).toNat >>> 56 else 256) ∧
        DescHolds t r d ∧ d.len = D.len - 1 ∧ d.tail = D.tail ∧ OnlyDesc r s t ∧
        (D.len ≠ 1 → d.head = if D.head % 2 = 0 then D.head + 1 else if D.head / 2 = D.tail / 2 then 0 else bits e.toNat 32 28) ∧
        t.cel.freeing = s.cel.freeing ++
          (if D.head % 2 = 1 ∨ D.len = 1 then ([⟨queueQuad r.queue, D.head / 2, r.frame / 8 + 3, r.work⟩] : List FreedPair) else []) ∧
        t.dram = s.dram ∧ TablesMove s t) ∧
    (∀ (D : Desc) (h : HcEntry) (c : HcCell) (x : Nat → DWord), D = Desc.ofWords a b → D.len ≠ 0 → s.headOf r.queue = some h →
      h.cells = [c] → c.ptr = D.head → h.follow = none → c.words.length = 32 →
      (∀ i, i < 32 → decodeWord (c.words.getD i 0).toNat [] = .ok (x i).toNat [] false) →
      ∃ t ans d, exec (.deq p tag) s = .next t ∧ Answers s t r ans ∧ ans.status = 0 ∧ ans.result = BitVec.ofNat 64 D.head ∧
        ans.info = (if c.eop then 1 else 0) ∧ (∀ i, i < 32 → (ans.rdata.getD (i / 8) 0).word (i % 8) = x i) ∧
        DescHolds t r d ∧ d.len = D.len - 1 ∧ OnlyDesc r s t ∧ Counted F.CEL_CNT_HCHIT_count s t ∧
        t.dram = s.dram ∧ TablesMove s t)) ∧
  (∀ (p : Port) (tag : BitVec 9) (s : State) (r : Req) (a b : DWord), Runs s opQSTAT p tag r → s.celCheck r = none →
    EngineFree s r (queueTile r.queue) (s.celUse r) → DescReads s r a b →
    ∃ t ans, exec (.qstat p tag) s = .next t ∧ Answers s t r ans ∧ ans.status = 0 ∧ ans.rdata.length = 1 ∧
      (bits b.toNat 32 24 ≠ 0 → (ans.rdata.headD 0).word 0 = a) ∧ (ans.rdata.headD 0).word 1 = b ∧ t.lar.host = s.lar.host ∧
      t = { s with reqs := t.reqs, lar := t.lar, free := if bits b.toNat 32 24 = 0 then s.free + 1 else s.free })

/-! ### Registers and letterboxes -/

/-- R99-R105: register writes on any path. A write that ends OK on a plain register leaves its RW fields with what the view makes of them
(the data, or the old value with bits set, cleared or toggled) and every other register as it was; a write with another code changes no
configuration, no memory and no register but the counters of such ends. -/
def Obligations.WritesEndByTheirCode : Prop :=
  (∀ (path : Path) (addr : BitVec 24) (data : Word) (late : Bool) (s : State) (h : RegHit),
    s.accessCode path.val addr.toNat true data late = accOK → s.keepFault path.val addr.toNat data late = none →
    lookupReg (offsetOf addr.toNat) = some h → h.row.act = .plain →
    ∃ t, exec (.registerWrite path addr data late) s = .next t ∧ RwStored s t addr.toNat h data ∧
      t = { s with live := t.live, staged := t.staged }) ∧
  (∀ (path : Path) (addr : BitVec 24) (data : Word) (late : Bool) (s : State),
    s.accessCode path.val addr.toNat true data late ≠ accOK → Mild s 656 692 →
    ∃ t, exec (.registerWrite path addr data late) s = .next t ∧
      t = { s with live := t.live, evq := t.evq, evLost := t.evLost, flt := t.flt } ∧
      LiveBut (reportRegs ++ (List.range 6).map R.MBX_CNT_BUSY) s t)

/-- R100, R101: the in-band messages at the head of a link's inbox. A REGWR and a REGRD of one plain register that end OK write and
read it, and the link sends a REGRSP with OK and the value read; one with a register that refuses writes nothing and sends its code. -/
def Obligations.MessagesAreAnswered : Prop :=
  (∀ (l : Link) (late : Bool) (s : State) (p : Payload) (h : RegHit), (s.link l.val).regMsg 2 = some p → p.at 2 1 = 1 →
    s.accessCode (4 * l.val + p.at 1 1 % 4) (msgAddr p 0) true (msgData p 0) late = accOK →
    s.keepFault (4 * l.val + p.at 1 1 % 4) (msgAddr p 0) (msgData p 0) late = none →
    lookupReg (offsetOf (msgAddr p 0)) = some h → h.row.act = .plain →
    ∃ t, exec (.regwr l late) s = .next t ∧ RwStored s t (msgAddr p 0) h (msgData p 0) ∧
      (t.link l.val).inbox = (s.link l.val).inbox.tail ∧
      (t.link l.val).flits = (s.link l.val).flits ++ [(5, regRsp p accOK [])] ∧
      LinkSends l.val { s with live := t.live, staged := t.staged } t) ∧
  (∀ (l : Link) (late : Bool) (s : State) (p : Payload) (a c : Nat), (s.link l.val).regMsg 2 = some p →
    s.refusedAt (4 * l.val + p.at 1 1 % 4) p true late = some (a, c) → Mild s 656 692 →
    ∃ t, exec (.regwr l late) s = .next t ∧ (t.link l.val).inbox = (s.link l.val).inbox.tail ∧
      (t.link l.val).flits = (s.link l.val).flits ++ [(5, regRsp p c [])] ∧
      LinkSends l.val { s with live := t.live, evq := t.evq, evLost := t.evLost, flt := t.flt } t ∧
      LiveBut (reportRegs ++ (List.range 6).map R.MBX_CNT_BUSY) s t) ∧
  (∀ (l : Link) (late : Bool) (s : State) (p : Payload) (h : RegHit), (s.link l.val).regMsg 3 = some p → p.at 2 1 = 1 →
    s.accessCode (4 * l.val + p.at 1 1 % 4) (msgAddr p 0) false (msgData p 0) late = accOK →
    offsetOf (msgAddr p 0) < 0x3F0000 → lookupReg (offsetOf (msgAddr p 0)) = some h → h.row.act = .plain →
    ∃ t, exec (.regrd l late) s = .next t ∧ (t.link l.val).inbox = (s.link l.val).inbox.tail ∧
      (t.link l.val).flits = (s.link l.val).flits ++ [(5, regRsp p accOK [s.stored h])] ∧
      LinkSends l.val s t)

/-- R129-R131: sideband transactions. STATUS drives the status word; a READ drives 0xA5, its code and the value of a plain register, or
0; a WRITE writes and drives 0xA5 and its code; an unknown opcode and a transaction cut short before its data drive nothing and change
nothing; a WRITE cut short after its data still writes. Before the sideband answers, nothing is driven and nothing done. -/
def Obligations.SidebandTransacts : Prop :=
  (∀ s : State, exec .sbStatus s = .next { s with sbOut := beBytes 4 s.statusWord }) ∧
  (∀ (addr : BitVec 24) (late : Bool) (s : State) (h : RegHit), s.bootPhase ≠ 0 → s.accessCode 64 addr.toNat false 0 late = accOK →
    offsetOf addr.toNat < 0x3F0000 → lookupReg (offsetOf addr.toNat) = some h → h.row.act = .plain →
    exec (.sbRead addr late) s = .next { s with sbOut := [0xA5, BitVec.ofNat 8 accOK] ++ beBytes 4 (s.stored h).toNat }) ∧
  (∀ (addr : BitVec 24) (late : Bool) (s : State), s.bootPhase ≠ 0 → s.accessCode 64 addr.toNat false 0 late ≠ accOK → Mild s 656 692 →
    ∃ t, exec (.sbRead addr late) s = .next t ∧
      t.sbOut = [0xA5, BitVec.ofNat 8 (s.accessCode 64 addr.toNat false 0 late), 0, 0, 0, 0] ∧
      t = { s with live := t.live, evq := t.evq, evLost := t.evLost, flt := t.flt, sbOut := t.sbOut } ∧
      LiveBut (reportRegs ++ (List.range 6).map R.MBX_CNT_BUSY) s t) ∧
  (∀ (addr : BitVec 24) (data : Word) (late : Bool) (s : State) (h : RegHit), s.bootPhase ≠ 0 →
    s.accessCode 64 addr.toNat true data late = accOK → s.keepFault 64 addr.toNat data late = none →
    lookupReg (offsetOf addr.toNat) = some h → h.row.act = .plain →
    (∃ t, exec (.sbWrite addr data late) s = .next t ∧ t.sbOut = [0xA5, BitVec.ofNat 8 accOK] ∧ RwStored s t addr.toNat h data ∧
      t = { s with live := t.live, staged := t.staged, sbOut := t.sbOut }) ∧
    (∃ t, exec (.sbCsRise (some (addr, data)) late) s = .next t ∧ t.sbOut = [] ∧ RwStored s t addr.toNat h data ∧
      t = { s with live := t.live, staged := t.staged, sbOut := t.sbOut })) ∧
  (∀ (op : BitVec 8) (late : Bool) (s : State), exec (.sbUnknownOpcode op) s = .next { s with sbOut := [] } ∧
    exec (.sbCsRise none late) s = .next { s with sbOut := [] }) ∧
  (∀ (addr : BitVec 24) (data : Word) (late : Bool) (s : State), s.bootPhase = 0 →
    exec (.sbRead addr late) s = .next { s with sbOut := [] } ∧ exec (.sbWrite addr data late) s = .next { s with sbOut := [] } ∧
    exec (.sbCsRise (some (addr, data)) late) s = .next { s with sbOut := [] })

/-- R118, R120, R121, R128: A letterbox's own registers. A write of its buffer is stored and claims an unowned letterbox; ringing its doorbell
takes the header and arguments from the buffer and runs the command, or ends it at once with its status where it may not start; an
abort before the commit point ends it ABORTED, and what it had begun is dropped; a release by the owner frees a letterbox that runs
nothing. A letterbox's timers. The claim of an idle letterbox lapses; a command before its commit point ends DEADLINE; an
access or a commit in the cycle of expiry wins and is counted. -/
def Obligations.LetterboxesAreRungAndTimed : Prop :=
  ((∀ (n : Lb) (i : Fin 64) (path : Path) (data : Word) (s : State), WriteTaken s path.val (R.MBX_BUF n.val i.val) data →
    (s.lb n.val).running = none →
    ∃ t, exec (.mbxBufWrite n i path data) s = .next t ∧ t.live.val (R.MBX_BUF n.val i.val) = data ∧ t.lbOwner n.val = some path.val ∧
      t = { s with live := t.live } ∧ LiveBut [R.MBX_BUF n.val i.val, R.MBX_OWNER n.val] s t) ∧
  (∀ (n : Lb) (path : Path) (data : Word) (s : State) (code seq flags len : Nat), WriteTaken s path.val (R.MBX_DOORBELL n.val) data →
    data.field 0 1 = 1 → (s.lb n.val).running = none → s.fb (F.MBX_CTL_enable n.val) = true →
    s.isContained (.letterbox n.val) = false → s.lbHeader n.val = (code, seq, flags, len) → len ≤ 248 →
    (s.claim n.val path.val).startStatus n.val code flags = none →
    ∃ t, exec (.mbxDoorbell n path data) s = .next t ∧ t.lb n.val = { running := some (code, seq), flags := flags, args := s.bufBytes n.val 8 len } ∧
      t.fv (F.MBX_CPL_word n.val) = cplWord seq cplRUNNING false 0 ∧ t.lbOwner n.val = some path.val ∧
      t = { s with live := t.live, lbs := t.lbs } ∧ LiveBut [R.MBX_CPL n.val, R.MBX_OWNER n.val, R.MBX_DOORBELL n.val] s t ∧
      ∀ k, k ≠ n.val → t.lb k = s.lb k) ∧
  (∀ (n : Lb) (path : Path) (data : Word) (s : State) (code seq flags len st : Nat), WriteTaken s path.val (R.MBX_DOORBELL n.val) data →
    data.field 0 1 = 1 → (s.lb n.val).running = none → s.fb (F.MBX_CTL_enable n.val) = true →
    s.isContained (.letterbox n.val) = false → s.lbHeader n.val = (code, seq, flags, len) →
    (s.claim n.val path.val).startStatus n.val code flags = some st →
    ∃ t, exec (.mbxDoorbell n path data) s = .next t ∧ t.lb n.val = {} ∧ t.fv (F.MBX_CPL_word n.val) = cplWord seq st false 0 ∧
      OnlyLetterbox s t n.val) ∧
  (∀ (n : Lb) (path : Path) (data : Word) (s : State), WriteTaken s path.val (R.MBX_CTL n.val) data → data.field 2 1 = 1 →
    (s.lb n.val).running.isSome = true → (s.lb n.val).committed = false → (s.lb n.val).restarted = false → Mild s 656 692 →
    ∃ t, exec (.mbxAbort n path data) s = .next t ∧ Completes s t n.val cplABORTED false [] ∧
      OnlyLetterbox (s.dropWork n.val) t n.val) ∧
  (∀ (n : Lb) (path : Path) (data : Word) (s : State), WriteTaken s path.val (R.MBX_OWNER n.val) data → data.field 8 1 = 1 →
    s.lbOwner n.val = some path.val → (s.lb n.val).running = none →
    ∃ t, exec (.mbxRelease n path data) s = .next t ∧ t.lbOwner n.val = none ∧ t = { s with live := t.live } ∧
      LiveBut [R.MBX_OWNER n.val] s t) ∧
  (∀ (n : Lb) (path : Path) (data : Word) (s : State), WriteTaken s path.val (R.MBX_OWNER n.val) data → data.field 8 1 = 1 →
    s.lbOwner n.val = some path.val → (s.lb n.val).running.isSome = true →
    ∃ t, exec (.mbxRelease n path data) s = .next t ∧ t.lbOwner n.val = some path.val ∧
      t.lb n.val = { s.lb n.val with releaseAtEnd := true } ∧ t = { s with live := t.live, lbs := t.lbs } ∧
      LiveBut [R.MBX_OWNER n.val] s t)) ∧
  (∀ (n : Lb) (s : State),
    ((s.lb n.val).running = none → (s.lbOwner n.val).isSome = true →
      (∃ t, exec (.mbxClaimTimeout n false) s = .next t ∧ t.lbOwner n.val = none ∧ t = { s with live := t.live } ∧
        LiveBut [R.MBX_OWNER n.val] s t) ∧
      (∃ t, exec (.mbxClaimTimeout n true) s = .next t ∧ Counted (F.MBX_CNT_NEARMISS_count n.val) s t ∧ t.lbOwner n.val = s.lbOwner n.val ∧
        t = { s with live := t.live } ∧ LiveBut [R.MBX_CNT_NEARMISS n.val] s t)) ∧
    ((s.lb n.val).running.isSome = true → (s.lb n.val).committed = false → (s.lb n.val).restarted = false → Mild s 656 692 →
      (∃ t, exec (.mbxDeadlineExpiry n false) s = .next t ∧ Completes s t n.val cplDEADLINE false [] ∧
        OnlyLetterbox (s.dropWork n.val) t n.val) ∧
      (∃ t, exec (.mbxDeadlineExpiry n true) s = .next t ∧ Counted (F.MBX_CNT_NEARMISS_count n.val) s t ∧
        t = { s with live := t.live } ∧ LiveBut [R.MBX_CNT_NEARMISS n.val] s t)))

/-- R62, R170, R197, R230, R255, R284, R301, R333, R358, R360, R390, R417, R434, R456, R487, R517, R132, R198, R216, R281: A 1 in bit i of a block's counter clear
register clears counter i of the block, in the order of its registers, a 0 leaves it, and nothing else changes. Other register commands. LAR_CONF_CLR clears the conflict counts of its quadrant, a write of
SCH_POOL_OVER its count; the spill ring takes a consumer index within its size and no other; a read of ENG_EPOCH_LO latches the high half
of the epoch; CFG_SNAP asks for one snapshot; an injection is armed in MAINTENANCE alone; CEL_QRESET asks for the reset of a queue, and
the reset empties it. -/
def Obligations.RegisterWritesAct : Prop :=
  ((∀ l : Link, ClearsCounters (Instr.lnkCntClear l) (R.LNK_CNT_CLR l.val) (R.LNK_CNT_CRC l.val) 8) ∧
  (∀ p : Port, ClearsCounters (Instr.prtCntClear p) (R.PRT_CNT_CLR p.val) (R.PRT_CTL p.val + 0x80) 11) ∧
  (∀ t : Tile, ClearsCounters (Instr.schCntClear t) (R.SCH_CNT_CLR t.val) (R.SCH_CNT_ACT t.val) 8 ∧
    ClearsCounters (Instr.engCntClear t) (R.ENG_CNT_CLR t.val) (R.ENG_CNT_CUPD t.val) 10 ∧
    ClearsCounters (Instr.engLkCntClear t) (R.ENG_LK_CNT_CLR t.val) (R.ENG_CNT_HLK t.val) 12 ∧
    ClearsCounters (Instr.vrtCntClear t) (R.VRT_CNT_CLR t.val) (R.VRT_CNT_ATTR t.val) 7) ∧
  (∀ c : Channel, ClearsCounters (Instr.eccCntClear c) (R.ECC_CNT_CLR c.val) (R.ECC_CNT_CE c.val) 18) ∧
  (∀ q : Quad, ClearsCounters (Instr.larCntClear q) (R.LAR_CNT_CLR q.val) (R.LAR_CNT_HRD q.val) 4) ∧
  ClearsCounters Instr.celCntClear R.CEL_CNT_CLR R.CEL_CNT_ENQ 9 ∧ ClearsCounters Instr.clkCntClear R.CLK_CNT_CLR R.CLK_CNT_FALLBACK 2 ∧
  ClearsCounters Instr.hkpCntClear R.HKP_CNT_CLR R.HKP_CNT_VOUT 3 ∧ ClearsCounters Instr.thmCntClear R.THM_CNT_CLR R.THM_CNT_WARN 10 ∧
  ClearsCounters Instr.bstCntClear R.BST_CNT_CLR R.BST_CNT_RUN 6 ∧ ClearsCounters Instr.fltCntClear R.FLT_CNT_CLR R.FLT_CNT_RAISE 3 ∧
  ClearsCounters Instr.cstCntClear R.CST_CNT_CLR R.CST_CNT_PULSE 4 ∧ ClearsCounters Instr.secCntClear R.SEC_CNT_CLR R.SEC_CNT_IMGREJ 5 ∧
  ClearsCounters Instr.pwrCntClear R.PWR_CNT_CLR R.PWR_CNT_MODE 8) ∧
  ((∀ (q : Quad) (path : Path) (data : Word) (s : State), WriteTaken s path.val (R.LAR_CONF_CLR q.val) data →
    ∃ t, exec (.larConfClear q path data) s = .next t ∧ (∀ i, i < 16 → t.live.val (R.LAR_CNT_PCONF q.val i) = 0) ∧
      (∀ i, i < 32 → t.live.val (R.LAR_CNT_ECONF q.val i) = 0) ∧ t = { s with live := t.live } ∧
      LiveBut (R.LAR_CONF_CLR q.val :: (List.range 16).map (R.LAR_CNT_PCONF q.val) ++ (List.range 32).map (R.LAR_CNT_ECONF q.val)) s t) ∧
  (∀ (c : Tile) (path : Path) (data : Word) (s : State), WriteTaken s path.val (R.SCH_POOL_OVER c.val) data →
    ∃ t, exec (.schPoolOverClear c path data) s = .next t ∧ t.fv (F.SCH_POOL_OVER_count c.val) = 0 ∧ t = { s with live := t.live } ∧
      LiveBut [R.SCH_POOL_OVER c.val] s t) ∧
  (∀ (path : Path) (data : Word) (s : State), WriteTaken s path.val R.ENG_RING_CONS_WR data → Mild s 304 336 →
    ∃ t, exec (.engRingConsWr path data) s = .next t ∧
      t.fv F.ENG_RING_CONS_index = (if (s.fv F.ENG_RING_PROD_index + 2 ^ 32 - data.toNat) % 2 ^ 32 ≤ 2 ^ ringLog s.active then data.toNat
        else s.fv F.ENG_RING_CONS_index) ∧
      t = { s with live := t.live, eng := { s.eng with ringWarned := t.eng.ringWarned }, evq := t.evq, evLost := t.evLost, flt := t.flt } ∧
      LiveBut (R.ENG_RING_CONS_WR :: R.ENG_RING_CONS :: reportRegs) s t) ∧
  (∀ (c : Tile) (path : Path) (s : State), s.accessCode path.val (R.ENG_EPOCH_LO c.val) false 0 false = accOK →
    ∃ t, exec (.engEpochLoRead c path) s = .next t ∧ t.fv (F.ENG_EPOCH_HI_epoch c.val) = s.epoch / 2 ^ 32 % 2 ^ 32 ∧
      t = { s with live := t.live } ∧ LiveBut [R.ENG_EPOCH_HI c.val] s t) ∧
  (∀ (path : Path) (data : Word) (s : State), WriteTaken s path.val R.CFG_SNAP data → data.field 0 1 = 1 →
    ∃ t, exec (.snapshotRequest path data) s = .next t ∧ t.snapAt = some (s.snapAt.getD s.absFlit) ∧ t.fb F.CFG_SNAP_done = false ∧
      t = { s with live := t.live, snapAt := t.snapAt } ∧ LiveBut [R.CFG_SNAP] s t) ∧
  (∀ (path : Path) (data : Word) (s : State), WriteTaken s path.val R.ECC_INJ_CTL data → data.field 0 1 = 1 →
    ∃ t, exec (.eccInjArm path data) s = .next t ∧
      (s.mode = 5 → t.fb F.ECC_INJ_CTL_arm = true ∧ t.fb F.ECC_INJ_CTL_done = false) ∧ (s.mode ≠ 5 → t.fb F.ECC_INJ_CTL_arm = false) ∧
      t = { s with live := t.live } ∧ LiveBut [R.ECC_INJ_CTL] s t) ∧
  (∀ (path : Path) (data : Word) (s : State), WriteTaken s path.val R.CEL_QRESET data → data.field 31 1 = 1 →
    ∃ t, exec (.celQreset path data) s = .next t ∧ t.cel = { s.cel with resets := s.cel.resets ++ [data.field 0 18] } ∧
      t = { s with live := t.live, cel := t.cel } ∧ LiveBut [R.CEL_QRESET] s t) ∧
  (∀ (qn : Nat) (s : State) (a b : DWord) (l : LLine) (w : Nat), s.fb F.CEL_STATUS_ready = true → qn < (celCfg s.active).queues →
    descLine s.active qn = (l, w) → CleanLarder s l w a → CleanLarder s l (w + 1) b →
    ∀ t, t = s.queueReset qn →
      t.larderWord l w = encodeWord Desc.empty.word0 false ∧ t.larderWord l (w + 1) = encodeWord Desc.empty.word1 false ∧
      t.fv F.CEL_LOST_pairs = min (s.fv F.CEL_LOST_pairs + (Desc.ofWords a b).pairs) (2 ^ F.CEL_LOST_pairs.width - 1) ∧
      t.headOf qn = none ∧ qn ∉ t.cel.broken ∧
      (∀ i, i / 10 ≠ s.larderPlace l w → i / 10 ≠ s.larderPlace l (w + 1) → memByte t.larder i = memByte s.larder i) ∧
      t = { s with larder := t.larder, live := t.live, cel := { s.cel with heads := t.cel.heads, broken := t.cel.broken } } ∧
      LiveBut (R.CEL_LOST :: (List.range 4).map R.CEL_HC_STAT) s t))

/-! ### Letterbox commands -/

/-- R124, R125, R127, R144, R195, R413, R454, R471, R485, R119-R122: Commands that only tell. Each completes OK with its result of the list, at
byte 8 of the buffer, and changes nothing but its letterbox. A command whose arguments are shorter than it needs completes BADARG with no other effect, and the command's row does
nothing at all in a letterbox that does not run it. -/
def Obligations.CommandsAskForTheirArguments : Prop :=
  (∀ (n : Lb) (s : State),
    (LbRuns s n.val 0x0101 → Tells (.infoId n) s n.val (leBytes 4 0x9616 ++ leBytes 1 (if Config.grade = .dv9616_16 then 16 else 14) ++
      [Config.siliconStep] ++ leBytes 2 s.sec.running.fw ++ s.serial ++ leBytes 8 0)) ∧
    (LbRuns s n.val 0x0102 → Tells (.infoStatus n) s n.val
      (leBytes 4 s.statusWord ++ leBytes 4 (s.live.val R.CFG_STATUS).toNat ++ leBytes 8 s.summary)) ∧
    (LbRuns s n.val 0x0103 → Tells (.infoCaps n) s n.val (leBytes 2 s.sec.running.rcp ++
      leBytes 2 ((List.range 128).filter fun e => !s.engineOut e).length ++ leBytes 4 s.degradedMask)) ∧
    (LbRuns s n.val 0x0201 → Tells (.modeGet n) s n.val (leBytes 1 s.mode ++ leBytes 1 (s.fv F.PWR_MODE_prev) ++
      leBytes 1 (if s.fb F.PWR_MODE_pending then s.fv F.PWR_MODE_target else 0xFF) ++ leBytes 1 0 ++
      leBytes 4 (s.fv F.PWR_MODE_EPOCH_epoch) ++ leBytes 2 (s.fv F.PWR_STATUS_draw))) ∧
    (LbRuns s n.val 0x0304 → 2 ≤ (s.lb n.val).args.length → (s.lb n.val).arg 0 2 < 14 →
      ∀ c, c = ((planImage s.active s.mode s.planId).drop (240 * (s.lb n.val).arg 0 2)).take 240 →
      Tells (.planGet n) s n.val (leBytes 2 14 ++ leBytes 2 c.length ++ leBytes 4 0 ++ c)) ∧
    (∀ x, LbRuns s n.val 0x0402 → 1 ≤ (s.lb n.val).args.length → (planOf s.active).ports[(s.lb n.val).arg 0 1]? = some x →
      Tells (.portGet n) s n.val (portRecord x ++ leBytes 4 (s.prtStatus ((s.lb n.val).arg 0 1)))) ∧
    (LbRuns s n.val 0x0502 → (s.lb n.val).args.length < 5 →
      Tells (.zoneGet n) s n.val ((List.range 24).flatMap fun z => leBytes 1 (s.fv (F.MAP_ZONE_order z)))) ∧
    (LbRuns s n.val 0x0502 → 5 ≤ (s.lb n.val).args.length → (s.lb n.val).arg 0 5 < dramTop →
      ∀ l, l = dramLoc s.active ((s.lb n.val).arg 0 5) →
      Tells (.zoneGet n) s n.val (((List.range 24).flatMap fun z => leBytes 1 (s.fv (F.MAP_ZONE_order z))) ++
        (leBytes 1 0 ++ leBytes 1 l.ch ++ leBytes 1 l.bank ++ leBytes 2 l.row ++ leBytes 1 l.col))) ∧
    (LbRuns s n.val 0x0901 → Tells (.thermGet n) s n.val ((List.range 24).flatMap (fun u => leBytes 2 (s.fv (F.THM_UNIT_temp u))) ++
      (List.range 24).flatMap (fun u => leBytes 1 ((s.live.val (R.THM_UNIT u)).field 16 8)) ++ leBytes 4 (s.fv F.HKP_ROUND_round) ++
      leBytes 1 ((if s.thermLow then 1 else 0) + (if s.fb F.HKP_STATUS_slow then 2 else 0)) ++ leBytes 1 0)) ∧
    (∃ bytes : List Byte, bytes.length = 136 ∧ (LbRuns s n.val 0x0A02 → Tells (.calStatus n) s n.val bytes) ∧
      ∀ r, r < 33 → (bytes.drop (4 + 4 * r)).take 4 = leBytes 4 (s.live.val (R.THM_CAL_LAST r)).toNat) ∧
    (∀ k a b c, LbRuns s n.val 0x0802 → 6 ≤ (s.lb n.val).args.length → testArgs (s.lb n.val) = some (k, a, b, c) →
      Tells (.testResult n) s n.val
        (((s.bst.results.find? fun x => x.kind == k && x.a == a && x.b == b && x.c == c).map TestRes.bytes).getD (leBytes 1 0xFF ++ leBytes 23 0))) ∧
    (LbRuns s n.val 0x0701 → 5 ≤ (s.lb n.val).args.length → 1 ≤ (s.lb n.val).arg 4 1 → (s.lb n.val).arg 4 1 ≤ 7 →
      (s.lb n.val).arg 0 4 = s.oldestSeq →
      Tells (.logRead n) s n.val (leBytes 4 s.oldestSeq ++ leBytes 4 s.log.nextSeq ++
        leBytes 1 (s.log.ring.take ((s.lb n.val).arg 4 1)).length ++ leBytes 7 0 ++
        (s.log.ring.take ((s.lb n.val).arg 4 1)).flatMap LogEntry.bytes)) ∧
    (LbRuns s n.val 0x0E04 → Tells (.cfgRef n) s n.val ((List.range 37).flatMap fun d => leBytes 4 (s.fv (F.CFG_REF_ref d)))) ∧
    (∃ bytes : List Byte, (LbRuns s n.val 0x0D03 → Tells (.fwStatus n) s n.val bytes) ∧
      bytes.take 2 = [BitVec.ofNat 8 (bootRecord s.sec.flash).2.2.1, BitVec.ofNat 8 (bootRecord s.sec.flash).2.2.2] ∧
      (bytes.drop 2).take 2 = leBytes 2 s.sec.running.fw ∧ (bytes.drop 8).take 4 = leBytes 2 (s.burnedCount 0) ++ leBytes 2 (s.burnedCount 1)) ∧
    (∀ r k first count, LbRuns s n.val 0x0B01 → 5 ≤ (s.lb n.val).args.length → (s.lb n.val).arg 0 1 = r → (s.lb n.val).arg 1 1 = k →
      (s.lb n.val).arg 2 2 = first → (s.lb n.val).arg 4 1 = count → 1 ≤ r → r ≤ 7 → r ≠ 6 → k < (regionRow r).sections →
      1 ≤ count → count ≤ 60 → first + count ≤ (regionRow r).data →
      Tells (.otpRead n) s n.val (leBytes 1 (s.section_ r k).state ++ leBytes 1 (s.section_ r k).marginal ++ leBytes 2 (s.section_ r k).count ++
        leBytes 4 0 ++ (List.range count).flatMap fun j => leBytes 4 ((s.section_ r k).words.getD (first + j) 0).toNat)) ∧
    (∀ key body, LbRuns s n.val 0x0C01 → 1 ≤ (s.lb n.val).args.length → s.sec.key = some key → s.sec.body = some body →
      ((s.lb n.val).arg 0 1 = 1 → Tells (.secAttest n) s n.val (edSign key ctxAttest body)) ∧
      ((s.lb n.val).arg 0 1 = 2 → Tells (.secAttest n) s n.val (edPublic key)))) ∧
  (∀ (n : Lb) (obs : BurnObs) (tie : Bool) (s : State) (c : Instr) (code need : Nat), (c, code, need) ∈
    ([(.modeSet n, 0x0202, 1), (.planLoad n, 0x0301, 8), (.planCheck n, 0x0302, 2), (.planCommit n, 0x0303, commitNeed (s.lb n.val)),
      (.planGet n, 0x0304, 2), (.portSet n, 0x0401, 14), (.portGet n, 0x0402, 1), (.portReset n, 0x0403, 1), (.zoneSet n, 0x0501, 2),
      (.retireRow n, 0x0601, 5), (.retireBank n, 0x0602, 2), (.retireRestore n, 0x0603, 2), (.retireRemap n, 0x0604, 5),
      (.logRead n, 0x0701, 5), (.testRun n, 0x0801, 6), (.testResult n, 0x0802, 6), (.testSchedule n, 0x0803, 11),
      (.thermSet n, 0x0902, 10), (.calRun n, 0x0A01, 3), (.otpRead n, 0x0B01, 5), (.otpBurn n obs, 0x0B02, 8),
      (.otpFinalise n obs, 0x0B03, 2), (.secAttest n, 0x0C01, 1), (.secUnlock n tie, 0x0C03, 6),
      (.secLifecycleMove n obs tie, 0x0C04, 174), (.secLifecycleRevoke n obs tie, 0x0C04, 174), (.fwLoad n, 0x0D01, 8),
      (.fwActivateTry n, 0x0D02, 2), (.fwActivateCommit n obs, 0x0D02, 2), (.fwActivateRevert n, 0x0D02, 2),
      (.cfgCommit n, 0x0E02, commitNeed (s.lb n.val))] : List (Instr × Nat × Nat)) →
    (LbRuns s n.val code → (s.lb n.val).args.length < need →
      ∃ t, exec c s = .next t ∧ Completes s t n.val cplBADARG false [] ∧ OnlyLetterbox s t n.val) ∧
    (s.runs n.val code = false → exec c s = .next s))

/-- R108, R111-R113, R115, R144, R190, R194, R195, R408: what commands stage. CFG.BEGIN opens the path's session and CFG.ABORT, or its
idle limit, ends it with the staged copy back at the active one; PORT.SET, ZONE.SET, THERM.SET and TEST.SCHEDULE write staged fields
alone; PLAN.LOAD keeps its chunk; CFG.COMMIT and PLAN.COMMIT freeze a session whose check passes, until a boundary two epochs on. The
active configuration stays throughout. -/
def Obligations.SessionsStageAndFreeze : Prop :=
  ∀ (n : Lb) (s : State),
    (LbRuns s n.val 0x0E01 → s.session = none →
      ∃ t, exec (.cfgBegin n) s = .next t ∧ Completes s t n.val cplOK true [] ∧ t.session = some { owner := s.lbPath n.val } ∧
        t.fv F.CFG_STATUS_session = 1 ∧ SameConfig s t ∧ OnlyLetterbox (s.openSession (s.lbPath n.val)) t n.val ∧
        LiveBut (R.CFG_STATUS :: lbRegs n.val) s t) ∧
    (∀ x, LbRuns s n.val 0x0E03 → s.session = some x → x.owner = s.lbPath n.val → x.commitAt = none →
      ∃ t, exec (.cfgAbort n) s = .next t ∧ Completes s t n.val cplOK true [] ∧ t.session = none ∧ t.staged = s.active ∧
        t.active = s.active ∧ OnlyLetterbox s.abortSession t n.val ∧ LiveBut (R.CFG_STATUS :: lbRegs n.val) s t) ∧
    (LbRuns s n.val 0x0E03 → s.session = none → Tells (.cfgAbort n) s n.val []) ∧
    (∀ x, s.session = some x → x.commitAt = none →
      (∃ t, exec (.cfgSessionIdle false) s = .next t ∧ t.session = none ∧ t.staged = s.active ∧ t.active = s.active ∧
        t = { s with session := none, staged := s.active, live := t.live } ∧ LiveBut [R.CFG_STATUS] s t) ∧
      (∃ t, exec (.cfgSessionIdle true) s = .next t ∧ Counted F.CFG_CNT_NEARMISS_count s t ∧ t = { s with live := t.live } ∧
        LiveBut [R.CFG_CNT_NEARMISS] s t)) ∧
    (∀ p x, LbRuns s n.val 0x0401 → 14 ≤ (s.lb n.val).args.length → portArgs (s.lb n.val) = some (p, x) → OwnSession s n.val →
      Stages (.portSet n) s n.val (s.stagePort p x).staged) ∧
    (LbRuns s n.val 0x0501 → 2 ≤ (s.lb n.val).args.length → (s.lb n.val).arg 0 1 ≤ 23 → (s.lb n.val).arg 1 1 ≤ 3 → OwnSession s n.val →
      Stages (.zoneSet n) s n.val (s.staged.setF (F.MAP_ZONE_order ((s.lb n.val).arg 0 1)) ((s.lb n.val).arg 1 1))) ∧
    (LbRuns s n.val 0x0902 → 10 ≤ (s.lb n.val).args.length → thermArgsOk (s.lb n.val) = true → OwnSession s n.val →
      ∃ m, Stages (.thermSet n) s n.val m ∧ m.fv F.THM_THRESH_warn = (s.lb n.val).arg 0 1 ∧ m.fv F.THM_THRESH_throttle = (s.lb n.val).arg 1 1 ∧
        m.fv F.THM_THROT_cap1 = (s.lb n.val).arg 4 1 ∧ m.fv F.THM_THROT_cap2 = (s.lb n.val).arg 5 1 ∧
        ((s.lb n.val).arg 8 1 ≤ 103 → (m.fv (F.THM_DIODE_MASK_mask ((s.lb n.val).arg 8 1 / 32))).testBit ((s.lb n.val).arg 8 1 % 32) =
          decide ((s.lb n.val).arg 9 1 = 1))) ∧
    (LbRuns s n.val 0x0803 → 11 ≤ (s.lb n.val).args.length → (s.lb n.val).arg 0 1 ≤ 127 → OwnSession s n.val →
      ∃ m, Stages (.testSchedule n) s n.val m ∧ m.val R.BST_CTL = BitVec.ofNat 32 ((s.lb n.val).arg 0 1) ∧
        m.fv F.BST_SCHED_LOGIC_engine_period = (s.lb n.val).arg 1 2 ∧ m.fv F.BST_SCHED_LOGIC_parlour_period = (s.lb n.val).arg 3 2 ∧
        m.fv F.BST_SCHED_MEM_row_rate = (s.lb n.val).arg 5 1 ∧ m.fv F.BST_SCHED_RISER_riser_period = (s.lb n.val).arg 7 2) ∧
    (∀ i count len, LbRuns s n.val 0x0301 → (s.lb n.val).arg 0 2 = i → (s.lb n.val).arg 2 2 = count → (s.lb n.val).arg 4 2 = len →
      1 ≤ len → len ≤ 240 → i < count → 8 + len ≤ (s.lb n.val).args.length → (i = 0 ∨ (count = s.planChunks ∧ (count ≤ i + 1 ∨ len = 240))) →
      ∃ t, exec (.planLoad n) s = .next t ∧ Completes s t n.val cplOK true [] ∧ t.planChunks = count ∧
        Tab.get (fun _ => []) t.plan i = ((s.lb n.val).args.drop 8).take len ∧
        (∀ j, j ≠ i → Tab.get (fun _ => []) t.plan j = if i = 0 then [] else Tab.get (fun _ => []) s.plan j) ∧
        OnlyLetterbox { s with plan := t.plan, planChunks := t.planChunks } t n.val) ∧
    (∀ u v, LbRuns s n.val 0x0E02 → commitNeed (s.lb n.val) ≤ (s.lb n.val).args.length → s.adoptDenied (s.lb n.val) = false →
      s.sessionFor (s.lbPath n.val) = some u →
      u.tryCommit ((s.lb n.val).flags % 2 == 1) (argRefs (s.lb n.val).args) none = (true, v) →
      ∃ t, exec (.cfgCommit n) s = .next t ∧ Begun s t n.val true s.twoEpochsOn ∧ t = { v with lbs := t.lbs } ∧ SameConfig s t) ∧
    (∀ u v, LbRuns s n.val 0x0E02 → commitNeed (s.lb n.val) ≤ (s.lb n.val).args.length → s.adoptDenied (s.lb n.val) = false →
      s.sessionFor (s.lbPath n.val) = some u → Mild s 656 692 →
      u.tryCommit ((s.lb n.val).flags % 2 == 1) (argRefs (s.lb n.val).args) none = (false, v) →
      ∃ t, exec (.cfgCommit n) s = .next t ∧ Completes s t n.val cplREJECTED false [] ∧ OnlyLetterbox v t n.val) ∧
    (∀ b u v, LbRuns s n.val 0x0303 → commitNeed (s.lb n.val) ≤ (s.lb n.val).args.length → s.adoptDenied (s.lb n.val) = false →
      s.planBytes = some b → verdict ((byteNum b 6 1).testBit 0) (imageFailures b s.active s.modeAfter) ≠ 2 →
      s.sessionFor (s.lbPath n.val) = some u →
      (u.stagePlan (planFor b u.active s.modeAfter)).tryCommit ((s.lb n.val).flags % 2 == 1) (argRefs (s.lb n.val).args)
        (some (byteNum b 16 4)) = (true, v) →
      ∃ t, exec (.planCommit n) s = .next t ∧ Begun s t n.val true s.twoEpochsOn ∧ t = { v with lbs := t.lbs } ∧
        t.staged = (u.stagePlan (planFor b u.active s.modeAfter)).staged ∧ t.active = s.active) ∧
    (∀ refs id v x, s.session = some x → s.tryCommit false refs id = (true, v) →
      (∃ y, v.session = some y ∧ y.commitAt = some s.twoEpochsOn ∧ y.refs = refs ∧ y.owner = x.owner) ∧
      v = { s with session := v.session, live := v.live } ∧ LiveBut [R.CFG_STATUS] s v ∧ s.epoch + 2 ≤ s.twoEpochsOn ∧ ∀ d, d < 37 → refs.getD d 0 = domainCrc s.staged d)

/-- R108, R112-R116, R127, R132, R510: configuration in force. At its boundary a frozen session's staged copy becomes the active one, its
references are stored and it closes; a pass of a domain shows its CRC, compares it, marks a mismatch and corrects nothing; a lost vote is
held and a fixed one flagged; CFG.SAVE writes the boot flash; the flash image is applied once; PLAN.CHECK changes no configuration. -/
def Obligations.CommitsTakeEffectWhole : Prop :=
  (∀ (s : State) (x : Session) (e : Nat), s.session = some x → x.commitAt = some e → s.atBoundary = true → e ≤ s.epoch →
    ∃ t, exec .configCommitBoundary s = .next t ∧ t.active = s.staged ∧ t.staged = s.staged ∧ t.session = none ∧ t.cfgBad = [] ∧
      t.fb F.CFG_STATUS_committed = true ∧ (s.epoch < 2 ^ 32 → t.fv F.CFG_COMMIT_EPOCH_epoch = s.epoch) ∧
      (∀ d w, d < 37 → x.refs[d]? = some w → t.fv (F.CFG_REF_ref d) = w.toNat)) ∧
  (∀ (d : Fin 37) (overlap : Bool) (s : State), s.severityOf (Src.mismatch d.val) ≠ 5 →
    ∃ t, exec (.cfgCrcPass d none overlap) s = .next t ∧ t.fv (F.CFG_CUR_crc d.val) = (domainCrc s.active d.val).toNat ∧
      t = { s with live := t.live, cfgBad := t.cfgBad, evq := t.evq, evLost := t.evLost, flt := t.flt } ∧
      LiveBut (R.CFG_CUR d.val :: R.CFG_MISMATCH_T :: R.CFG_MISMATCH_Q :: reportRegs) s t ∧
      (∀ e, e ≠ d.val → (e ∈ t.cfgBad ↔ e ∈ s.cfgBad)) ∧
      (overlap = true → t.cfgBad = s.cfgBad) ∧
      (overlap = false → s.fb F.CFG_STATUS_committed = true →
        (d.val ∈ t.cfgBad ↔ (domainCrc s.active d.val).toNat ≠ s.fv (F.CFG_REF_ref d.val)))) ∧
  (∀ (d : Fin 37) (a : BitVec 24) (m : Word) (s : State), cfgRegs.contains (offsetOf a.toNat) = true → domainOf (offsetOf a.toNat) = d.val →
    ∃ t, exec (.cfgCrcPass d (some (a, m)) true) s = .next t ∧
      t.active.val (offsetOf a.toNat) = s.active.val (offsetOf a.toNat) ^^^ (m &&& cfgMaskAt (offsetOf a.toNat)) ∧
      (∀ b, b ≠ offsetOf a.toNat → t.active.val b = s.active.val b) ∧ t = { s with active := t.active, live := t.live } ∧
      LiveBut [R.CFG_CUR d.val] s t) ∧
  (∀ (field : Fin 90) (q : Quad) (s : State),
    (∃ t, exec (.voteDisagreement field q true) s = .next t ∧ ⟨field.val, q.val⟩ ∈ t.votes ∧ SameConfig s t ∧ SameMemory s t ∧
      (s.severityOf Src.voteLost = 5 → t.halted = true) ∧
      (s.severityOf Src.voteLost ≠ 5 → Reported { s with votes := t.votes } t ∧ ∀ v, v ≠ ⟨field.val, q.val⟩ → (v ∈ t.votes ↔ v ∈ s.votes))) ∧
    (∃ t, exec (.voteDisagreement field q false) s = .next t ∧ t.fb F.CFG_STATUS_vote_fixed = true ∧ t.votes = s.votes ∧ SameConfig s t ∧
      SameMemory s t ∧ (s.severityOf Src.voteFixed ≠ 5 → Reported (s.setF F.CFG_STATUS_vote_fixed 1) t))) ∧
  (∀ (n : Lb) (s : State), LbRuns s n.val 0x0E05 →
    ∃ t seq, exec (.cfgSave n) s = .next t ∧ Completes s t n.val cplOK true [] ∧
      OnlyLetterbox { s with sec := { s.sec with
        flash := flashPut (flashErase s.sec.flash cfgArea 0x100000) cfgArea (s.cfgImage seq) } } t n.val ∧
      seq = if flashNum s.sec.flash cfgArea 4 = 0x96164346 then flashNum s.sec.flash (cfgArea + 4) 4 + 1 else 1) ∧
  (∀ s : State, s.pwr.flashDone = false → (s.pwr.phase = 5 ∨ s.pwr.phase = 6) → (∃ l, l < 16 ∧ s.linkState l = lsVestibule) →
    (s.pwr.lb4Session = true ∨ (s.session = none ∧ flashConfig s.sec.flash = none)) →
    exec .bootFlashConfigApply s = .next { s with pwr := { s.pwr with flashDone := true } }) ∧
  (∀ (s : State) (rs : List (Nat × Nat)) (refs : List Word), s.pwr.flashDone = false → (s.pwr.phase = 5 ∨ s.pwr.phase = 6) →
    (∃ l, l < 16 ∧ s.linkState l = lsVestibule) → flashConfig s.sec.flash = some (rs, refs) → s.session = none →
    s.pwr.lb4Session = false → s.severityOf (Src.letterbox 1 4) ≠ 5 →
    ∃ t, exec .bootFlashConfigApply s = .next t ∧ t.pwr = { s.pwr with flashDone := true } ∧ t.active = s.active ∧
      ((∃ y, t.session = some y ∧ y.owner = 127 ∧ y.commitAt = some s.twoEpochsOn ∧ y.refs = refs) ∨
        (t.session = none ∧ t.staged = s.active)) ∧
      t = { s with pwr := t.pwr, staged := t.staged, session := t.session, live := t.live, evq := t.evq, evLost := t.evLost, flt := t.flt } ∧
      LiveBut (R.CFG_STATUS :: reportRegs) s t) ∧
  (∀ (n : Lb) (s : State), LbRuns s n.val 0x0302 → 2 ≤ (s.lb n.val).args.length → (s.lb n.val).arg 0 1 = 1 →
    ((s.lb n.val).arg 1 1 ≤ 5 ∨ (s.lb n.val).arg 1 1 = 0xFF) → Mild s 656 692 →
    ∃ t st c, exec (.planCheck n) s = .next t ∧ Completes s t n.val st c (checkBytes (planOf s.active).oversub
        ((planOf s.active).failures s.active (if (s.lb n.val).arg 1 1 = 0xFF then s.mode else (s.lb n.val).arg 1 1))) ∧
      (st = cplOK ∨ st = cplREJECTED) ∧ OnlyLetterbox s t n.val) ∧
  (∀ (n : Lb) (s : State), LbRuns s n.val 0x0703 →
    ∃ t, exec (.logSnapshot n) s = .next t ∧ Begun s t n.val false s.absFlit ∧ t = { s with lbs := t.lbs }) ∧
  (∀ s : State, s.atBoundary = true → s.snapDue = true → (∀ n, n < 6 → s.snapWaits n = false) →
    ∃ t, exec .snapshotTake s = .next t ∧ Snapped s t) ∧
  (∀ (s : State) (n : Lb), s.atBoundary = true → s.snapWaits n.val = true → (∀ k, k < 6 → k ≠ n.val → s.snapWaits k = false) →
    (s.lb n.val).restarted = false →
    ∃ u t, exec .snapshotTake s = .next t ∧ Snapped s u ∧
      Completes s t n.val cplOK true (leBytes 4 ((s.fv F.CFG_SNAP_seq + 1) % 2 ^ 16) ++ leBytes 4 s.epoch) ∧ OnlyLetterbox u t n.val)

/-- R328, R331, R329, R394, R407, R495, R514: commands on units. RETIRE.ROW and RETIRE.BANK add to the retired rows and banks;
RETIRE.REMAP and RETIRE.RESTORE begin their work; LOG.CLEAR empties the ring; TEST.RUN starts a test that may start; MODE.SET plans a
valid change of mode; PORT.RESET waits, and at the boundary every waiting reset commits, its port's requests then discarded. -/
def Obligations.UnitCommandsBegin : Prop :=
  (∀ (n : Lb) (s : State) (l : Loc), LbRuns s n.val 0x0601 → 5 ≤ (s.lb n.val).args.length → (s.lb n.val).arg 0 5 < dramTop →
    l = dramLoc s.active ((s.lb n.val).arg 0 5) → Mild s 504 544 → Mild s 656 692 →
    ((l.bank, l.row) ∉ (s.eccOf l.ch).rows → 64 ≤ (s.eccOf l.ch).rows.length →
      ∃ t, exec (.retireRow n) s = .next t ∧ Completes s t n.val cplREJECTED false [] ∧ OnlyLetterbox s t n.val) ∧
    (((l.bank, l.row) ∈ (s.eccOf l.ch).rows ∨ (s.eccOf l.ch).rows.length < 64) →
      ∃ u t, exec (.retireRow n) s = .next t ∧ (l.bank, l.row) ∈ (t.eccOf l.ch).rows ∧
        Completes s t n.val cplOK true (leBytes 1 l.ch ++ leBytes 1 l.bank ++ leBytes 2 l.row ++ leBytes 1 32 ++
          (List.range 32).flatMap fun k => leBytes 5 (dramAddr s.active { l with col := k })) ∧
        Retires s u l.ch ∧ OnlyLetterbox u t n.val ∧
        (∀ x, x ∈ (t.eccOf l.ch).rows ↔ x ∈ (s.eccOf l.ch).rows ∨ x = (l.bank, l.row)) ∧ (t.eccOf l.ch).banks = (s.eccOf l.ch).banks)) ∧
  (∀ (n : Lb) (s : State) (c b : Nat), LbRuns s n.val 0x0602 → 2 ≤ (s.lb n.val).args.length → (s.lb n.val).arg 0 1 = c → c < 32 →
    (s.lb n.val).arg 1 1 = b → b < 32 → Mild s 504 544 →
    ∃ u t, exec (.retireBank n) s = .next t ∧ Completes s t n.val cplOK true [] ∧ Retires s u c ∧ OnlyLetterbox u t n.val ∧
      (∀ x, x ∈ (t.eccOf c).banks ↔ x ∈ (s.eccOf c).banks ∨ x = b) ∧ (t.eccOf c).rows = (s.eccOf c).rows) ∧
  (∀ (n : Lb) (s : State) (k a b row kind c : Nat) (whole : Bool), LbRuns s n.val 0x0603 → (s.lb n.val).arg 0 1 = k →
    (s.lb n.val).arg 1 1 = a → (s.lb n.val).arg 2 1 = b → (s.lb n.val).arg 3 2 = row →
    ((k = 0 ∧ 5 ≤ (s.lb n.val).args.length ∧ a < 32 ∧ b < 32 ∧ (b, row) ∈ (s.eccOf a).rows ∧ kind = tkRow ∧ c = row ∧ whole = false) ∨
      (k = 1 ∧ 3 ≤ (s.lb n.val).args.length ∧ a < 32 ∧ b < 32 ∧ b ∈ (s.eccOf a).banks ∧ kind = tkRow ∧ c = 0 ∧ whole = true) ∨
      (k = 2 ∧ 2 ≤ (s.lb n.val).args.length ∧ a < 128 ∧ s.engineOut a = true ∧ kind = tkEngine ∧ c = 0 ∧ whole = false)) →
    s.scopeTaken kind a = false →
    ∃ t, exec (.retireRestore n) s = .next t ∧ Begun s t n.val false 0 ∧ Counted F.BST_CNT_RUN_count s t ∧
      (∃ r ∈ t.bst.runs, r.kind = kind ∧ r.a = a ∧ r.b = (if k = 2 then 0 else b) ∧ r.c = c ∧ r.restore = true ∧ r.whole = whole ∧
        r.lb = some n.val) ∧
      t = { s with live := t.live, lbs := t.lbs, bst := { s.bst with runs := t.bst.runs } } ∧
      LiveBut [R.BST_CNT_RUN, R.BST_STATUS] s t) ∧
  (∀ (n : Lb) (s : State) (c b row k op : Nat), LbRuns s n.val 0x0604 → 5 ≤ (s.lb n.val).args.length → (s.lb n.val).arg 0 1 = c →
    (s.lb n.val).arg 1 1 = b → (s.lb n.val).arg 2 2 = row → (s.lb n.val).arg 4 1 = op → c < 32 → b < 32 → row < userRows →
    (∀ r ∈ s.remapRuns, ¬ (r.ch = c ∧ r.bank = b ∧ r.row = row)) →
    ((op = 0 ∧ s.spareOf c b row = none ∧ s.freeSpareRow c b = some k) ∨ (op = 1 ∧ s.spareOf c b row = some k)) →
    ∃ t, exec (.retireRemap n) s = .next t ∧ Begun s t n.val false 0 ∧
      t.remapRuns = s.remapRuns ++ [{ lb := n.val, ch := c, bank := b, row := row, unmap := op == 1, spare := k }] ∧
      t = { s with lbs := t.lbs, remapRuns := t.remapRuns }) ∧
  (∀ (n : Lb) (s : State), LbRuns s n.val 0x0702 →
    ∃ t, exec (.logClear n) s = .next t ∧ Completes s t n.val cplOK true (leBytes 4 s.log.nextSeq) ∧
      OnlyLetterbox { s with log := { s.log with ring := [] } } t n.val) ∧
  (∀ (n : Lb) (s : State) (k a b c : Nat), LbRuns s n.val 0x0801 → 6 ≤ (s.lb n.val).args.length → testArgs (s.lb n.val) = some (k, a, b, c) →
    s.mode ≠ 4 → (k < 0x10 ∨ s.mode = 5) → s.mayStart k a b c = .runs →
    ∃ t, exec (.testRun n) s = .next t ∧ Begun s t n.val true 0 ∧ Counted F.BST_CNT_RUN_count s t ∧
      (∃ r ∈ t.bst.runs, r.kind = k ∧ r.a = a ∧ r.b = b ∧ r.c = c ∧ r.restore = false ∧ r.lb = some n.val) ∧ SameConfig s t ∧
      (∀ i, memByte t.dram i = memByte s.dram i) ∧ (k ≠ tkRow → SameMemory s t) ∧
      (k = tkEngine ∨ k = tkParlour ∨ k = tkTile ∨ k = tkRiser → t = { s with live := t.live, lbs := t.lbs, bst := { s.bst with runs := t.bst.runs } } ∧
        LiveBut [R.BST_CNT_RUN, R.BST_STATUS] s t)) ∧
  (∀ (n : Lb) (s : State) (m : Nat), LbRuns s n.val 0x0202 → 1 ≤ (s.lb n.val).args.length → (s.lb n.val).arg 0 1 = m → m ≤ 5 →
    (m = s.mode → Tells (.modeSet n) s n.val []) ∧
    (m ≠ s.mode → s.maintBusy = false → s.pwr.change = none → configVerdict s.active m ≠ 2 → detAlike s.active m = true →
      ∃ t, exec (.modeSet n) s = .next t ∧ Begun s t n.val true s.twoEpochsOn ∧ t.fv F.PWR_MODE_target = m ∧
        t.fb F.PWR_MODE_pending = true ∧ t.mode = s.mode ∧
        t.pwr.change = some ⟨m, s.twoEpochsOn, some n.val, configVerdict s.active m == 1, 0⟩ ∧
        t = { s with live := t.live, lbs := t.lbs, pwr := t.pwr } ∧ LiveBut [R.PWR_MODE] s t)) ∧
  (∀ (n : Lb) (s : State) (p : Nat), LbRuns s n.val 0x0403 → 1 ≤ (s.lb n.val).args.length → (s.lb n.val).arg 0 1 = p → p < 64 →
    (∀ r ∈ s.pwr.resets, r.port ≠ p) →
    ∃ t, exec (.portReset n) s = .next t ∧ Begun s t n.val false 0 ∧ t.pwr.resets = s.pwr.resets ++ [⟨p, n.val, false, false⟩] ∧
      t = { s with lbs := t.lbs, pwr := { s.pwr with resets := t.pwr.resets } }) ∧
  (∀ s : State, s.atBoundary = true → (∀ r ∈ s.pwr.resets, r.lb < 6) → Mild s 656 692 →
    ∃ t, exec .portResetCommit s = .next t ∧ (∀ r ∈ t.pwr.resets, r.committed = true) ∧
      (∀ q ∈ t.reqs, ∀ r ∈ s.pwr.resets, r.committed = false → r.port = q.port →
        q.discard = true ∧ (q.answer = none ∨ q.data.length ≠ q.need)) ∧
      (∀ q ∈ s.reqs, (∀ r ∈ s.pwr.resets, r.port ≠ q.port) →
        q ∈ t.reqs ∨ ∃ l, ∃ f ∈ (s.link l).out, f.typ = 3 ∧ f.resp = some (q.port, q.tag)) ∧
      t = { s with live := t.live, lbs := t.lbs, links := t.links, reqs := t.reqs, sentTags := t.sentTags, gate := t.gate
                   pwr := { s.pwr with resets := t.pwr.resets }, evq := t.evq, evLost := t.evLost, flt := t.flt } ∧
      LiveBut (R.PWR_CNT_PRST :: (List.range 6).flatMap lbRegs) s t)

/-! ### Trust -/

/-- R440, R441, R443, R454: burning. OTP.BURN appends its values to an unlocked section, a pulse for each that is not 0, and each then
reads stably at its place; OTP.FINALISE burns the count, the digest of the data and the lock. Both leave every other word. -/
def Obligations.FusesAreBurned : Prop :=
  (∀ (n : Lb) (obs : BurnObs) (s : State) (r k first count : Nat) (v : Nat → Word), LbRuns s n.val 0x0B02 → (s.lb n.val).arg 0 1 = r →
    (s.lb n.val).arg 1 1 = k → (s.lb n.val).arg 2 2 = first → (s.lb n.val).arg 4 1 = count → (s.lb n.val).arg 5 3 = 0 → 1 ≤ count →
    count ≤ 32 → 8 + 4 * count ≤ (s.lb n.val).args.length → s.burnRefused r k true = none → burnedData s.cst.fuse r k = first →
    first + count ≤ (regionRow r).data → (∀ j, (s.lb n.val).arg (8 + 4 * j) 4 = (v j).toNat) → PlainBurn obs →
    ∃ t, exec (.otpBurn n obs) s = .next t ∧
      Completes s t n.val cplOK true (leBytes 1 count ++ leBytes 1 ((List.range count).filter fun j => v j != 0).length ++ leBytes 1 0) ∧
      (∀ j, j < count → readWord t.cst.fuse r (sectAt r k + first + j) = (v j, v j, v j)) ∧
      (∀ w, w < (regionRow r).base + sectAt r k + first ∨ (regionRow r).base + sectAt r k + first + count ≤ w →
        readFuse t.cst.fuse w = readFuse s.cst.fuse w) ∧
      t.fv F.CST_CNT_PULSE_count = min (s.fv F.CST_CNT_PULSE_count + ((List.range count).filter fun j => v j != 0).length)
        (2 ^ F.CST_CNT_PULSE_count.width - 1) ∧
      ∃ u, Burned s u ∧ OnlyLetterbox u t n.val) ∧
  (∀ (n : Lb) (obs : BurnObs) (s : State) (r k : Nat) (d : List Byte), LbRuns s n.val 0x0B03 → 2 ≤ (s.lb n.val).args.length →
    (s.lb n.val).arg 0 1 = r → (s.lb n.val).arg 1 1 = k → s.burnRefused r k false = none → sectStable s.cst.fuse r k = true →
    anyBits (readWord s.cst.fuse r (countAt r k)) = 0 → (∀ x ∈ readDigest s.cst.fuse r k, anyBits x = 0) →
    (∀ j, j < 9 → placeOf s.cst.fuse r (countAt r k + j) = (regionRow r).base + countAt r k + j) →
    sectDigest r k (burnedData s.cst.fuse r k) ((sectData s.cst.fuse r k).map (·.1)) = d → PlainBurn obs →
    ∃ t, exec (.otpFinalise n obs) s = .next t ∧
      Completes s t n.val cplOK true (leBytes 2 0 ++ leBytes 2 (burnedData s.cst.fuse r k) ++ d) ∧
      (readWord t.cst.fuse r (countAt r k)).1.toNat = burnedData s.cst.fuse r k ∧ digestBytes (readDigest t.cst.fuse r k) = d ∧
      (readFuse t.cst.fuse ((regionRow r).base + lockAt r k)).2.1 = 0xFFFFFFFF ∧
      (∀ w, w < (regionRow r).base + countAt r k ∨ (regionRow r).base + countAt r k + 10 ≤ w →
        readFuse t.cst.fuse w = readFuse s.cst.fuse w) ∧
      ∃ u, Burned s u ∧ OnlyLetterbox u t n.val) ∧
  (∀ (n : Lb) (obs : BurnObs) (s : State), LbRuns s n.val 0x0B03 → 2 ≤ (s.lb n.val).args.length → (s.lb n.val).arg 0 1 = 6 →
    ∃ t, exec (.otpFinalise n obs) s = .next t ∧ Completes s t n.val cplDENIED false [] ∧ OnlyLetterbox s t n.val)

/-- R476, R477: SEC.CHALLENGE draws a nonce and refuses after eight failures; a nonce serves one command or 60 s. SEC.UNLOCK grants the
open levels to anyone and a higher one to the signature that the state's way asks for; a signature that does not stand is counted and
grants nothing; at the end of its time the level is the open one again. -/
def Obligations.LevelsAreUnlocked : Prop :=
  (∀ (n : Lb) (s : State), LbRuns s n.val 0x0C02 → s.fv F.SEC_STATUS_unlock_fail < 8 →
    ∃ t nonce, exec (.secChallenge n) s = .next t ∧ nonce.length = 32 ∧
      OnlyLetterbox { s with sec := { s.sec with nonce := some (nonce, s.epoch) }, free := s.free + 1 } t n.val ∧
      Completes s t n.val cplOK true (nonce ++ s.serial ++ leBytes 1 s.lifecycle ++ leBytes 1 s.level ++
        leBytes 1 (8 - s.fv F.SEC_STATUS_unlock_fail))) ∧
  (∀ (n : Lb) (s : State), LbRuns s n.val 0x0C02 → 8 ≤ s.fv F.SEC_STATUS_unlock_fail →
    ∃ t, exec (.secChallenge n) s = .next t ∧ Completes s t n.val cplDENIED false [] ∧ OnlyLetterbox s.dropNonce t n.val) ∧
  (∀ (s : State) (x : List Byte) (e : Nat), s.sec.nonce = some (x, e) → e + epochsOfSeconds 60 ≤ s.epoch →
    exec .nonceLapse s = .next { s with sec := { s.sec with nonce := none } }) ∧
  (∀ (n : Lb) (tie : Bool) (s : State) (l : Nat), LbRuns s n.val 0x0C03 → 6 ≤ (s.lb n.val).args.length → (s.lb n.val).arg 0 1 = l →
    l ≤ s.openLevel → s.Quiet →
    ∃ u t, exec (.secUnlock n tie) s = .next t ∧ t.level = l ∧ t.sec = { s.sec with unlock := none, nonce := none } ∧
      Completes s t n.val cplOK true (leBytes 1 l ++ leBytes 4 0) ∧ NearMissIf (tie && (s.nonceEnds || s.unlockEnds)) s t ∧
      TrustMoves (R.SEC_CNT_NEARMISS :: levelRegs) s u ∧ OnlyLetterbox u t n.val) ∧
  (∀ (n : Lb) (tie : Bool) (s : State) (l signer e : Nat) (nonce pub sig : List Byte), LbRuns s n.val 0x0C03 → 177 ≤ (s.lb n.val).args.length →
    (s.lb n.val).arg 0 1 = l → (s.lb n.val).arg 1 1 = signer → s.openLevel < l → l ≤ 3 → signer ≤ 4 →
    s.unlockWay l = some (signer == 0) → s.sec.nonce = some (nonce, e) → ((s.lb n.val).args.drop 6).take 57 = pub →
    ((s.lb n.val).args.drop 63).take 114 = sig →
    (s.signedBy signer pub ctxUnlock (nonce ++ s.serial ++ leBytes 1 l ++ leBytes 1 s.lifecycle ++ leBytes 1 signer ++
        leBytes 4 ((s.lb n.val).arg 2 4)) sig = .good → s.Quiet →
      ∃ u t, exec (.secUnlock n tie) s = .next t ∧ t.level = l ∧
        t.sec = { s.sec with unlock := some (signer, s.epoch, s.grantSeconds ((s.lb n.val).arg 2 4)), nonce := none } ∧
        Completes s t n.val cplOK true (leBytes 1 l ++ leBytes 4 (s.grantSeconds ((s.lb n.val).arg 2 4))) ∧
        NearMissIf (tie && (s.nonceEnds || s.unlockEnds)) s t ∧ TrustMoves (R.SEC_CNT_NEARMISS :: levelRegs) s u ∧ OnlyLetterbox u t n.val) ∧
    (s.signedBy signer pub ctxUnlock (nonce ++ s.serial ++ leBytes 1 l ++ leBytes 1 s.lifecycle ++ leBytes 1 signer ++
        leBytes 4 ((s.lb n.val).arg 2 4)) sig ≠ .good → Mild s 656 692 → Mild s 709 713 →
      ∃ u t, exec (.secUnlock n tie) s = .next t ∧ t.level = s.level ∧ t.sec = { s.sec with nonce := none } ∧
        t.fv F.SEC_STATUS_unlock_fail = min (s.fv F.SEC_STATUS_unlock_fail + 1) 255 ∧ Counted F.SEC_CNT_UNLOCKFAIL_count s t ∧
        Completes s t n.val cplREJECTED false [] ∧ TrustMoves [R.SEC_STATUS, R.SEC_CNT_UNLOCKFAIL, R.SEC_CNT_NEARMISS] s u ∧
        OnlyLetterbox u t n.val)) ∧
  (∀ (s : State) (signer e secs : Nat), s.sec.unlock = some (signer, e, secs) → secs ≠ 0 → e + epochsOfSeconds secs ≤ s.epoch → s.Quiet →
    ∃ t, exec .unlockExpiry s = .next t ∧ t.level = s.openLevel ∧ t.sec = { s.sec with unlock := none } ∧ TrustMoves levelRegs s t)

/-- R472, R473, R474: lifecycle moves and revocations. A move whose signature stands burns its words; one to RETURNED first shuts the
links and waits for them and every request. The state takes effect at the next boundary, a RETURNED one with its keys gone, and is wiped
with the array and the Larder. A revocation burns the slot's bit. -/
def Obligations.LifecycleMovesAreBurned : Prop :=
  (∀ (n : Lb) (obs : BurnObs) (tie : Bool) (s : State) (dst e : Nat) (v o : Bool) (nonce : List Byte), LbRuns s n.val 0x0C04 →
    174 ≤ (s.lb n.val).args.length → (s.lb n.val).arg 0 1 = 1 → (s.lb n.val).arg 1 1 = dst → (s.lb n.val).arg 2 1 ≤ 4 → s.sec.moving = false →
    moveSigners s.lifecycle dst = some (v, o) → (if (s.lb n.val).arg 2 1 = 0 then v else o) = true → s.moveReady s.lifecycle dst = true →
    s.burnBarred = false → s.isLimited = false → s.sec.nonce = some (nonce, e) → s.lifeSigned (s.lb n.val) nonce = .good →
    (dst = 3 → ∃ t, exec (.secLifecycleMove n obs tie) s = .next t ∧ NearMissIf (tie && s.nonceEnds) s t ∧
      t = { s with sec := { s.sec with nonce := none, moving := true }, live := t.live } ∧ LiveBut [R.SEC_CNT_NEARMISS] s t) ∧
    (dst ≠ 3 → PlainBurn obs →
      ∃ u t, exec (.secLifecycleMove n obs tie) s = .next t ∧ Begun s t n.val true 0 ∧
        t.sec = { s.sec with nonce := none, effect := some (s.epoch + 1, n.val) } ∧ t.lifecycle = s.lifecycle ∧
        anyBits (readFuse t.cst.fuse (1649 + s.lifecycle)) ≠ 0 ∧
        (∀ w, w ≠ 1649 + s.lifecycle → readFuse t.cst.fuse w = readFuse s.cst.fuse w) ∧ NearMissIf (tie && s.nonceEnds) s t ∧
        TrustMoves [R.SEC_CNT_NEARMISS] s u ∧ Burned { u with lbs := t.lbs } t)) ∧
  (∀ (n : Lb) (obs : BurnObs) (s : State) (tie : Bool), LbRuns s n.val 0x0C04 → 174 ≤ (s.lb n.val).args.length →
    (s.lb n.val).arg 0 1 = 1 → (s.lb n.val).arg 1 1 = 3 → s.lifecycle ≤ 2 → s.sec.moving = true →
    ((s.sec.shut = false ∨ s.drained = false) → exec (.secLifecycleMove n obs tie) s = .next s) ∧
    (s.sec.shut = true → s.drained = true → s.burnBarred = false → PlainBurn obs →
      ∃ t, exec (.secLifecycleMove n obs tie) s = .next t ∧ Begun s t n.val true 0 ∧ t.sec = { s.sec with effect := some (s.epoch + 1, n.val) } ∧
        (∀ j, s.lifecycle ≤ j → j < 3 → anyBits (readFuse t.cst.fuse (1649 + j)) ≠ 0) ∧
        (∀ w, w < 1649 + s.lifecycle ∨ 1652 ≤ w → readFuse t.cst.fuse w = readFuse s.cst.fuse w) ∧
        Burned { s with sec := t.sec, lbs := t.lbs } t)) ∧
  (∀ (s : State) (e n : Nat), s.sec.effect = some (e, n) → n < 6 → s.atBoundary = true → e ≤ s.epoch → s.Quiet →
    (s.lifeSteps ≠ 3 → (s.lb n).restarted = false →
      ∃ u t, exec .lifecycleEffect s = .next t ∧ t.lifecycle = s.lifeSteps ∧ t.fv F.SEC_LC_mirror = s.lifeSteps ∧ t.level = t.openLevel ∧
        t.sec = { s.sec with effect := none, unlock := none } ∧
        Completes s t n cplOK true (leBytes 1 s.lifeSteps ++ leBytes 1 s.revokedSlots) ∧
        TrustMoves (R.SEC_LC :: levelRegs) { s with votes := t.votes } u ∧ OnlyLetterbox u t n) ∧
    (s.lifeSteps = 3 →
      ∃ t, exec .lifecycleEffect s = .next t ∧ t.lifecycle = 3 ∧ t.fv F.SEC_LC_mirror = 3 ∧ t.fb F.SEC_STATUS_identity = false ∧
        t.fb F.SEC_STATUS_wiped = false ∧ t.level = t.openLevel ∧
        t.sec = { s.sec with effect := none, key := none, body := none, nonce := none, unlock := none, wiping := some n } ∧
        TrustMoves (R.SEC_LC :: levelRegs) { s with votes := t.votes } t)) ∧
  (∀ (s : State) (n : Nat), s.sec.wiping = some n → n < 6 → (s.lb n).committed = true → s.Quiet →
    ∃ t, exec .returnedWipeDone s = .next t ∧ t.dram = [] ∧ t.larder = [] ∧ t.eng.cache = [] ∧ t.cel.heads = [] ∧
      t.fb F.SEC_STATUS_wiped = true ∧ t.level = t.openLevel ∧ t.sec.wiping = none ∧ t.sec.moving = false ∧
      (∀ a, cfgArea ≤ a → a < cfgArea + 0x100000 → flashByte t.sec.flash a = 0xFF) ∧ (∀ l w, t.dramGet (t.physWord l w) = 0) ∧
      Completes s t n cplOK true (leBytes 1 s.lifecycle ++ leBytes 1 s.revokedSlots) ∧
      SameConfig s t ∧ t.cst = s.cst ∧ t.pwr.phase = s.pwr.phase ∧ t.epoch = s.epoch ∧
      ((∀ m, m < 6 → m ≠ n → (s.lb m).running = none) → ∃ u, u.dram = [] ∧ u.larder = [] ∧
        TrustMoves levelRegs { s with dram := [], dramGen := [], larder := [], larGen := [], eng := { s.eng with cache := [], spill := [] }
                                      cel := { s.cel with heads := [] } } u ∧ OnlyLetterbox u t n)) ∧
  (∀ (n : Lb) (obs : BurnObs) (tie : Bool) (s : State) (k e : Nat) (nonce : List Byte), LbRuns s n.val 0x0C04 → 174 ≤ (s.lb n.val).args.length →
    (s.lb n.val).arg 0 1 = 2 → (s.lb n.val).arg 1 1 = k → (s.lb n.val).arg 2 1 ≤ 4 → k ≤ 3 → s.sec.nonce = some (nonce, e) →
    s.usableSlots s.revokedSlots ≠ [k] →
    s.verifyImage (s.slotImg ((bootRecord s.sec.flash).2.2.1 % 2)) (s.revokedSlots ||| 2 ^ k) none = 0 → s.burnBarred = false →
    s.lifeSigned (s.lb n.val) nonce = .good → PlainBurn obs → s.Quiet →
    ∃ u v t, exec (.secLifecycleRevoke n obs tie) s = .next t ∧ t.revokedSlots = s.revokedSlots ||| 2 ^ k ∧ t.lifecycle = s.lifecycle ∧
      t.sec.nonce = none ∧ (∀ w, w ≠ 1648 → readFuse t.cst.fuse w = readFuse s.cst.fuse w) ∧
      Completes s t n.val cplOK true (leBytes 1 s.lifecycle ++ leBytes 1 (s.revokedSlots ||| 2 ^ k)) ∧
      (∀ y, s.sec.unlock = some y → y.1 = 1 + k → t.level = t.openLevel ∧ t.sec.unlock = none) ∧ NearMissIf (tie && s.nonceEnds) s t ∧
      Burned s u ∧ TrustMoves (R.SEC_CNT_NEARMISS :: levelRegs) u v ∧ OnlyLetterbox v t n.val)

/-- R463, R464, R468, R482, R483, R484, R485: images. FW.LOAD programs one chunk into the slot that is not primary, or pushes it into the
stores while no image is accepted; FW.ACTIVATE tries, commits and reverts it; at each start the Strongroom runs the primary slot's image
when it verifies, and stops with no image when neither slot's does, or its scan has not passed. -/
def Obligations.ImagesAreLoadedAndRun : Prop :=
  (∀ (n : Lb) (s : State) (i len : Nat) (bs : List Byte), LbRuns s n.val 0x0D01 → (s.lb n.val).arg 0 4 = i → (s.lb n.val).arg 4 2 = len →
    (s.lb n.val).arg 7 1 = 0 → ((s.lb n.val).args.drop 8).take len = bs → 1 ≤ len → len ≤ 240 → 8 + len ≤ (s.lb n.val).args.length →
    240 * i + len ≤ 0x300000 → s.fwDenied n.val = false → s.fb F.SEC_STATUS_trial = false →
    ((s.lb n.val).arg 6 1 = 0 → s.noImage = false →
      ∃ t m, exec (.fwLoad n) s = .next t ∧ Completes s t n.val cplOK true [] ∧ t.sec.load = some (0, m) ∧ natGet m i = len ∧
        t.sec.stores = s.sec.stores ∧
        (∀ j, j < len → ∃ old, (old = flashByte s.sec.flash (slotBase s.otherSlot + 240 * i + j) ∨ old = 0xFF) ∧
          flashByte t.sec.flash (slotBase s.otherSlot + 240 * i + j) = old &&& bs.getD j 0) ∧
        (∀ a, a < slotBase s.otherSlot + 0x10000 * (240 * i / 0x10000) ∨
            slotBase s.otherSlot + 0x10000 * ((240 * i + len - 1) / 0x10000 + 1) ≤ a → flashByte t.sec.flash a = flashByte s.sec.flash a) ∧
        OnlyLetterbox { s with sec := { s.sec with flash := t.sec.flash, load := t.sec.load } } t n.val) ∧
    ((s.lb n.val).arg 6 1 = 1 → s.noImage = true →
      ∃ t m, exec (.fwLoad n) s = .next t ∧ Completes s t n.val cplOK true [] ∧ t.sec.load = some (1, m) ∧ natGet m i = len ∧
        (∀ j, j < len → t.storeImg (240 * i + j) = bs.getD j 0) ∧
        OnlyLetterbox { s with sec := { s.sec with stores := t.sec.stores, load := t.sec.load } } t n.val)) ∧
  (∀ (n : Lb) (s : State) (src code : Nat) (f : Img), LbRuns s n.val 0x0D02 → 2 ≤ (s.lb n.val).args.length → (s.lb n.val).arg 0 1 = 0 →
    (s.lb n.val).arg 1 1 = src → src ≤ 1 → s.noImage = (src == 1) → s.fwDenied n.val = false → s.fb F.SEC_STATUS_trial = false →
    f = (if src = 1 then s.storeImg else s.slotImg s.otherSlot) → s.verifyImage f s.revokedSlots (some (s.loadedFor src)) = code →
    (code ≠ 0 → Mild s 656 692 → Mild s 709 713 →
      ∃ u t, exec (.fwActivateTry n) s = .next t ∧ Completes s t n.val cplREJECTED false (leBytes 1 code ++ leBytes 1 (imgInfo f).signer) ∧
        t.sec = s.sec ∧ t.fv F.SEC_STATUS_last_img = code ∧ Counted F.SEC_CNT_IMGREJ_count s t ∧
        TrustMoves [R.SEC_STATUS, R.SEC_CNT_IMGREJ] s u ∧ OnlyLetterbox u t n.val) ∧
    (code = 0 → src = 0 →
      ∃ t, exec (.fwActivateTry n) s = .next t ∧ t.fb F.SEC_STATUS_trial = true ∧ t.sec.slot = s.otherSlot ∧
        t.sec.running.fw = (imgInfo f).fw ∧ t.sec.flash = putBootRecord s.sec.flash (bootRecord s.sec.flash).2.2.1 s.otherSlot ∧
        Completes s t n.val cplOK true (leBytes 1 0 ++ leBytes 1 (imgInfo f).signer) ∧ SameConfig s t ∧ SameMemory s t ∧
        ((∀ m, m < 6 → m ≠ n.val → (s.lb m).running = none) →
          ∃ u, TrustMoves (R.SEC_STATUS :: (List.range 32).map R.SEC_MEAS) s u ∧ OnlyLetterbox u t n.val)) ∧
    (code = 0 → src = 1 →
      ∃ t, exec (.fwActivateTry n) s = .next t ∧ t.pwr.phase = 3 ∧ t.sec.slot = 2 ∧ t.sec.running = imgInfo f ∧
        t.fv F.SEC_STATUS_halt_cause = 0 ∧ Completes s t n.val cplOK true (leBytes 1 0 ++ leBytes 1 (imgInfo f).signer) ∧
        ∃ u, TrustMoves (R.SEC_STATUS :: (List.range 32).map R.SEC_MEAS) { s with pwr := { s.pwr with phase := 3, booted := true } } u ∧
          OnlyLetterbox u t n.val)) ∧
  (∀ (n : Lb) (obs : BurnObs) (s : State), LbRuns s n.val 0x0D02 → 2 ≤ (s.lb n.val).args.length → (s.lb n.val).arg 0 1 = 1 →
    s.fwDenied n.val = false → s.noImage = false → s.fb F.SEC_STATUS_trial = true → s.burnBarred = false → PlainBurn obs →
    ∃ t, exec (.fwActivateCommit n obs) s = .next t ∧ t.burnedCount 0 = max (s.burnedCount 0) (min s.sec.running.fwRoll 256) ∧
      t.burnedCount 1 = max (s.burnedCount 1) (min s.sec.running.rcpRoll 256) ∧ t.fb F.SEC_STATUS_trial = false ∧
      t.sec = { s.sec with flash := putBootRecord s.sec.flash (bootRecord s.sec.flash).2.2.2 0xFF } ∧
      Completes s t n.val cplOK true (leBytes 1 0 ++ leBytes 1 s.sec.running.signer) ∧
      (∀ w, w < 1632 ∨ 1648 ≤ w → readFuse t.cst.fuse w = readFuse s.cst.fuse w) ∧
      ∃ u v, Burned s u ∧ TrustMoves [R.SEC_STATUS] u v ∧ OnlyLetterbox v t n.val) ∧
  (∀ (n : Lb) (s : State) (p : Nat), LbRuns s n.val 0x0D02 → 2 ≤ (s.lb n.val).args.length → (s.lb n.val).arg 0 1 = 2 →
    s.fwDenied n.val = false → s.noImage = false → s.fb F.SEC_STATUS_trial = true → (bootRecord s.sec.flash).2.2.1 = p →
    ∃ t, exec (.fwActivateRevert n) s = .next t ∧ t.fb F.SEC_STATUS_trial = false ∧ t.sec.slot = p % 2 ∧
      t.sec.flash = putBootRecord s.sec.flash p 0xFF ∧
      Completes s t n.val cplOK true (leBytes 1 0 ++ leBytes 1 t.sec.running.signer) ∧ SameConfig s t ∧ SameMemory s t ∧
      ((∀ m, m < 6 → m ≠ n.val → (s.lb m).running = none) →
        ∃ u, TrustMoves (R.SEC_STATUS :: (List.range 32).map R.SEC_MEAS) s u ∧ OnlyLetterbox u t n.val)) ∧
  (∀ (fuses : List (Fin 2048 × Word × Word × Word)) (sig : BitVec 64) (s : State) (p : Nat), s.halted = false →
    (s.pwr.phase = 1 ∨ s.pwr.phase = 2) → s.fb F.CST_STATUS_sensed = true → s.lifecycle ≠ 3 → s.sigsGood = true →
    (bootRecord s.sec.flash).2.2 = (p, 0xFF) → p < 2 →
    (sig.toNat = s.goldOf 189 → s.verifyImage (s.slotImg p) s.revokedSlots none = 0 →
      ∃ t, exec (.strongroomBoot fuses (some sig)) s = .next t ∧ t.pwr.phase = 3 ∧ t.sec.slot = p ∧ t.sec.running = imgInfo t.storeImg ∧
        (∀ a, a < 0x300000 → t.storeImg a = s.slotImg p a) ∧ t.sec.flash = s.sec.flash ∧ t.fv F.SEC_STATUS_halt_cause = 0 ∧
        TrustMoves (R.SEC_STATUS :: (List.range 32).map R.SEC_MEAS) { s with pwr := { s.pwr with phase := 3, booted := true } } t) ∧
    (sig.toNat = s.goldOf 189 → s.verifyImage (s.slotImg p) s.revokedSlots none ≠ 0 →
      s.verifyImage (s.slotImg (1 - p)) s.revokedSlots none = 0 → Mild s 709 713 →
      ∃ t, exec (.strongroomBoot fuses (some sig)) s = .next t ∧ t.pwr.phase = 3 ∧ t.sec.slot = 1 - p ∧ t.sec.running = imgInfo t.storeImg ∧
        (∀ a, a < 0x300000 → t.storeImg a = s.slotImg (1 - p) a) ∧ Counted F.SEC_CNT_IMGREJ_count s t ∧
        TrustMoves (R.SEC_STATUS :: R.SEC_CNT_IMGREJ :: (List.range 32).map R.SEC_MEAS)
          { s with pwr := { s.pwr with phase := 3, booted := true } } t) ∧
    (sig.toNat = s.goldOf 189 → s.verifyImage (s.slotImg 0) s.revokedSlots none ≠ 0 → s.verifyImage (s.slotImg 1) s.revokedSlots none ≠ 0 →
      Mild s 709 713 →
      ∃ t, exec (.strongroomBoot fuses (some sig)) s = .next t ∧ t.pwr.phase = 0x0F ∧ t.fv F.SEC_STATUS_halt_cause = 1 ∧
        t.fv F.SEC_STATUS_last_img = s.verifyImage (s.slotImg (1 - p)) s.revokedSlots none ∧ t.sec = s.sec ∧
        TrustMoves [R.SEC_STATUS, R.SEC_CNT_IMGREJ] { s with pwr := { s.pwr with phase := 0x0F } } t) ∧
    (sig.toNat ≠ s.goldOf 189 →
      ∃ t, exec (.strongroomBoot fuses (some sig)) s = .next t ∧ t.fv F.SEC_STATUS_halt_cause = 2 ∧
        t = { s with live := t.live, pwr := { s.pwr with phase := 0x0F } } ∧ LiveBut [R.SEC_STATUS] s t) ∧
    (∃ t, exec (.strongroomBoot fuses none) s = .next t ∧ t.fv F.SEC_STATUS_halt_cause = 2 ∧
        t = { s with live := t.live, pwr := { s.pwr with phase := 0x0F } } ∧ LiveBut [R.SEC_STATUS] s t))

/-- R480, R481, R487: watchdogs and debug access. A kick restarts a core's time; an expiry is counted and restarts the core, and the third
in a second holds it; the Strongroom's own is reported. SEC_DBGHALT halts cores, and SEC_DBGMEM reads and writes codewords as they stand. -/
def Obligations.WatchdogsAndDebugAct : Prop :=
  (∀ (c : Quad) (tie : Bool) (s : State), s.coreRuns c.val = true →
    ∃ t, exec (.secWdKick c tie) s = .next t ∧ natGet t.sec.kickAt c.val = s.epoch ∧
      (∀ d, d ≠ c.val → natGet t.sec.kickAt d = natGet s.sec.kickAt d) ∧
      ((tie = true ∧ s.epoch = natGet s.sec.kickAt c.val + epochsOfMs (s.fv F.SEC_WDOG_parlour_ms)) → Counted F.SEC_CNT_NEARMISS_P_count s t) ∧
      (¬ (tie = true ∧ s.epoch = natGet s.sec.kickAt c.val + epochsOfMs (s.fv F.SEC_WDOG_parlour_ms)) → t.live = s.live) ∧
      t = { s with live := t.live, sec := { s.sec with kickAt := t.sec.kickAt } } ∧ LiveBut [R.SEC_CNT_NEARMISS_P] s t) ∧
  (∀ (c : Quad) (upsets : List (BitVec 21 × BitVec 8)) (s : State), s.coreRuns c.val = true →
    natGet s.sec.kickAt c.val + epochsOfMs (s.fv F.SEC_WDOG_parlour_ms) ≤ s.epoch → Mild s 557 596 → Mild s 656 692 → Mild s 714 718 →
    ∃ t, exec (.parlourWatchdogExpiry c upsets) s = .next t ∧ Counted F.SEC_CNT_WDOG_count s t ∧ (c.val, s.epoch) ∈ t.sec.expiries ∧
      natGet t.sec.kickAt c.val = s.epoch ∧ SameConfig s t ∧ SameMemory s t ∧
      (c.val ∈ t.flt.cores ↔
        2 ≤ (s.sec.expiries.filter fun (x : Nat × Nat) => x.1 == c.val && decide (s.epoch < x.2 + epochsOfSeconds 1)).length)) ∧
  (∀ s : State, s.pwr.good = true → s.pwr.inReset = false → s.asleep = false →
    (s.severityOf (Src.trust 4) = 5 → ∃ t, exec (.strongroomWatchdogExpiry false) s = .next t ∧ t.halted = true ∧ t.reqs = [] ∧
      ∀ l, l < 16 → t.linkState l = lsDown) ∧
    (s.severityOf (Src.trust 4) ≠ 5 → ∃ t, exec (.strongroomWatchdogExpiry false) s = .next t ∧ Reported s t ∧
      (s.severityOf (Src.trust 4) ≠ 0 → Counted F.FLT_CNT_RAISE_count s t ∧ (t.latch (Src.trust 4)).severity ≠ 0)) ∧
    (∃ t, exec (.strongroomWatchdogExpiry true) s = .next t ∧ Counted F.SEC_CNT_NEARMISS_count s t ∧ t = { s with live := t.live } ∧
      LiveBut [R.SEC_CNT_NEARMISS] s t)) ∧
  (∀ (path : Path) (data : Word) (s : State), WriteTaken s path.val R.SEC_DBGHALT data →
    ∃ t, exec (.secDbghalt path data) s = .next t ∧ t.fv F.SEC_DBGHALT_halt = data.toNat % 16 ∧
      (∀ c, c < 4 → (s.fv F.SEC_DBGHALT_halt).testBit c = true → data.toNat.testBit c = false → natGet t.sec.kickAt c = s.epoch) ∧
      ((∀ c, c < 4 → (s.fv F.SEC_DBGHALT_halt).testBit c = true → data.toNat.testBit c = true) → t = { s with live := t.live } ∧
        LiveBut [R.SEC_DBGHALT] s t)) ∧
  (∀ (path : Path) (data : Word) (s : State) (l : Bool) (a : Nat), WriteTaken s path.val R.SEC_DBGMEM_CTL data → data.field 0 1 = 1 →
    s.fb F.SEC_DBGMEM_ADDR_HI_raw = true → s.fb F.SEC_DBGMEM_ADDR_HI_l = l →
    8 * s.fv F.SEC_DBGMEM_ADDR_LO_addr + 2 ^ 32 * s.fv F.SEC_DBGMEM_ADDR_HI_addr = a →
    a + 8 ≤ (if l then scratchSize s.active else dramTop) →
    (data.field 1 1 = 0 →
      ∃ t, exec (.secDbgmemAccess path data) s = .next t ∧
        t.fv F.SEC_DBGMEM_DATA_LO_data + 2 ^ 32 * t.fv F.SEC_DBGMEM_DATA_HI_data + 2 ^ 64 * t.fv F.SEC_DBGMEM_CTL_upper = (s.rawWord l a).toNat ∧
        t.fb F.SEC_DBGMEM_CTL_done = true ∧ t.fb F.SEC_DBGMEM_CTL_go = false ∧ t = { s with live := t.live } ∧
        LiveBut [R.SEC_DBGMEM_DATA_LO, R.SEC_DBGMEM_DATA_HI, R.SEC_DBGMEM_CTL] s t) ∧
    (data.field 1 1 = 1 → s.fb F.ECC_INJ_CTL_arm = false → (l = false → s.InArray (dramLoc s.active a)) →
      ∃ t, exec (.secDbgmemAccess path data) s = .next t ∧
        (t.rawWord l a).toNat = s.fv F.SEC_DBGMEM_DATA_LO_data + 2 ^ 32 * s.fv F.SEC_DBGMEM_DATA_HI_data + 2 ^ 64 * data.field 16 16 ∧
        t.fb F.SEC_DBGMEM_CTL_done = true ∧ t = { s with live := t.live, dram := t.dram, larder := t.larder, ecc := t.ecc } ∧
        LiveBut [R.SEC_DBGMEM_CTL] s t ∧
        (if l then StoresLarder (fun i => i = s.larderPlace (scratchLine s.active a) (a / 8 % 8)) s t
          else StoresDram (fun i => i = s.physWord (dramLoc s.active a) (a / 8 % 8)) s t)))

/-! ### Epochs, rows, the spill ring and the free pairs -/

/-- R7, R145, R181, R182, R186, R191: an epoch. The boundary starts the next one at frame 0, flit 0, with new quotas and no demand; in frame
7 each gate reports its demand, capped at 64; an activation period starts every 64 epochs; a merged shortfall is sent 256 epochs after the last. -/
def Obligations.EpochsBegin : Prop :=
  (∀ (lanes : List (Link × Nat)) (lines : List (Tile × Nat)) (s : State), s.asleep = false → s.pwr.good = true →
    (s.frame ≠ 7 ∨ s.flit ≠ 7 → exec (.epochBoundary lanes lines) s = .next s) ∧
    (s.frame = 7 → s.flit = 7 → Gentle s →
    ∃ t, exec (.epochBoundary lanes lines) s = .next t ∧ t.epoch = (s.epoch + 1) % 2 ^ 64 ∧ t.frame = 0 ∧ t.flit = 0 ∧ SameConfig s t ∧
      (s.halted = false → t.gate.quota = [] ∧ t.gate.demand = [] ∧
        (∀ x ∈ t.gate.penalties, ∀ e, x.until_ = some e → t.epoch < e)))) ∧
  (∀ s : State, s.frame = 7 →
    ∃ t, exec .demandReport s = .next t ∧ t = { s with gate := { s.gate with report := t.gate.report } } ∧
      ∀ k, natGet t.gate.report k = min 64 (natGet s.gate.demand k)) ∧
  (∀ s : State, s.atBoundary = true → s.epoch % 64 = 0 →
    exec .actBudgetPeriod s = .next { s with gate := { s.gate with acts := [], memo := [] } }) ∧
  (∀ s : State, ∃ t, exec .shortfallMergeExpiry s = .next t ∧
    t = { s with live := t.live, evq := t.evq, evLost := t.evLost, tiles := t.tiles } ∧ LiveBut [R.LNK_EVT_LOST] s t ∧
    ∀ c, c < 32 →
      (∀ e sent, (s.tile c).shortPend = some e → (s.tile c).shortSent = some sent → sent + 256 ≤ s.epoch →
        t.tile c = { s.tile c with shortSent := some s.epoch, shortPend := none }) ∧
      ((∀ e sent, (s.tile c).shortPend = some e → (s.tile c).shortSent = some sent → s.epoch < sent + 256) → t.tile c = s.tile c))

/-- R155-R158, R187: hammered rows. A row that has reached the threshold is queued with its neighbours, and the ports that made
a quarter of the count are penalised from the next boundary on; a penalty whose period has run out ends at the next boundary. -/
def Obligations.HammeredRowsAreMitigated : Prop :=
  (∀ (c : Channel) (b : Fin 32) (row : BitVec 16) (s : State), Mild s 144 304 →
    ((∀ x ∈ (s.tile c.val).reached, ¬ (x.bank = b.val ∧ x.row = row.toNat)) → exec (.hammerTrigger c b row) s = .next s) ∧
    (∀ x, (s.tile c.val).reached.find? (fun y => y.bank == b.val && y.row == row.toNat) = some x →
      ∃ t, exec (.hammerTrigger c b row) s = .next t ∧
        t.tile c.val = { s.tile c.val with
          reached := (s.tile c.val).reached.erase x, mitQ := (s.tile c.val).mitQ ++ [(b.val, row.toNat, neighbours row.toNat)] } ∧
        (∀ k, k ≠ c.val → t.tile k = s.tile k) ∧ Counted (F.SCH_CNT_TRIG_count c.val) s t ∧
        (∀ p n, (p, n) ∈ x.ports → x.count ≤ 4 * n →
          ∃ y ∈ t.gate.penalties, y.tile = c.val ∧ y.port = p ∧ y.bank = b.val ∧ 1 ≤ y.level ∧ y.start = s.epoch + 1 ∧
            y.ends = s.epoch + 256 * max 1 (s.fv (F.SCH_HAM_penalty c.val)) ∧ y.until_ = none) ∧
        (∀ y ∈ s.gate.penalties, (y.tile ≠ c.val ∨ y.bank ≠ b.val) → y ∈ t.gate.penalties) ∧
        t = { s with tiles := t.tiles, gate := { s.gate with penalties := t.gate.penalties }, live := t.live, evq := t.evq
                     evLost := t.evLost, flt := t.flt } ∧
        LiveBut (R.SCH_CNT_TRIG c.val :: R.SCH_CNT_PENALTY c.val :: reportRegs) s t)) ∧
  (∀ s : State, ∃ t, exec .penaltyExpiry s = .next t ∧ t = { s with gate := { s.gate with penalties := t.gate.penalties } } ∧
    t.gate.penalties.length = s.gate.penalties.length ∧
    ∀ (i : Nat) (x : Penalty), s.gate.penalties[i]? = some x →
      t.gate.penalties[i]? = some (if x.until_ = none ∧ x.ends ≤ s.epoch then { x with until_ := some (s.epoch + 1) } else x))

/-- R215-R219, R265, R267, R276, R282: staged spill records enter the ring, in order and while it has room, with the producer index moved
on; freed pairs and refills enter their cache; an idle head-cache entry is released; the Cellar is initialised and then serves. -/
def Obligations.RingAndCellarMoveOn : Prop :=
  (∀ (q : Quad) (s : State) (x : SpillRec) (rest : List SpillRec) (i a : Nat), ringOn s.active = true → (s.spillOf q.val).staged = x :: rest →
    s.fv F.ENG_RING_PROD_index = i → (i % 4 = 3 ∨ rest = []) → s.ringUsed < 2 ^ ringLog s.active →
    (if s.fv (F.SCH_CTL_maint s.ringTile) = 0 then s.openFree s.ringTile else s.maintFor 2 s.ringTile) = true →
    ringBase s.active + 16 * (i % 2 ^ ringLog s.active) = a → a + 16 ≤ dramTop → s.serves (dramLoc s.active a).ch = true →
    s.InArray (dramLoc s.active a) → s.fb F.ECC_INJ_CTL_arm = false → Mild s 304 336 → Mild s 504 544 →
    ∃ t, exec (.spillRecordWrite q) s = .next t ∧ (t.spillOf q.val) = { s.spillOf q.val with staged := rest } ∧
      t.fv F.ENG_RING_PROD_index = (i + 1) % 2 ^ 32 ∧
      t.dramGet (s.wordAt s.active a) = encodeWord (spillWords s.active x i).1 false ∧
      t.dramGet (s.wordAt s.active (a + 8)) = encodeWord (spillWords s.active x i).2 false ∧
      StoresDram (fun k => k = s.wordAt s.active a ∨ k = s.wordAt s.active (a + 8)) s t ∧
      (∀ k, k < 4 → k ≠ q.val → t.spillOf k = s.spillOf k) ∧ (∀ k, k ≠ s.ringTile → t.tile k = s.tile k) ∧
      t = { s with live := t.live, dram := t.dram, ecc := t.ecc, eng := t.eng, tiles := t.tiles, evq := t.evq, evLost := t.evLost, flt := t.flt } ∧
      LiveBut (R.ENG_RING_PROD :: R.ENG_SPILL_STAGED :: R.ECC_STATUS (dramLoc s.active a).ch :: reportRegs) s t) ∧
  (∀ (q : Quad) (s : State) (e n a : Nat), (s.spillOf q.val).lost = some (e, n, a) →
    (s.epoch < e + 256 → exec (.spillLostMergeExpiry q) s = .next s) ∧
    (e + 256 ≤ s.epoch → ∃ t, exec (.spillLostMergeExpiry q) s = .next t ∧ (t.spillOf q.val) = { s.spillOf q.val with lost := none } ∧
      (n ≠ 0 → s.evq.length < 64 → t.evq.length = s.evq.length + 1) ∧ (n = 0 → t.evq = s.evq) ∧
      t = { s with eng := t.eng, live := t.live, evq := t.evq, evLost := t.evLost } ∧ LiveBut [R.LNK_EVT_LOST, R.ENG_SPILL_STAGED] s t)) ∧
  (∀ (q : Quad) (s : State) (x : FreeBlock) (rest : List FreeBlock), s.flightOf q.val = x :: rest →
    s.blockWaits q.val (some x.since) = false → Mild s 504 602 →
    ∃ t, exec (.freeRefillLand q) s = .next t ∧ CellarMoves s t ∧ (∀ k, k ≠ q.val → t.cacheOf k = s.cacheOf k) ∧
      (∃ ys, t.flightOf q.val = rest ++ ys) ∧
      (x.bad = true → t.fv F.CEL_LOST_pairs = min (s.fv F.CEL_LOST_pairs + x.pairs.length) (2 ^ F.CEL_LOST_pairs.width - 1)) ∧
      (x.bad = false → t.fv F.CEL_LOST_pairs = s.fv F.CEL_LOST_pairs ∧
        ((s.cacheOf q.val).length + x.pairs.length ≤ 1792 → t.cacheOf q.val = s.cacheOf q.val ++ x.pairs))) ∧
  (∀ (q : Quad) (s : State) (x : FreedPair), s.freeDue q.val = some x →
    exec (.pairFree q) s = .next { s with cel := { s.cel with
      freeing := s.cel.freeing.erase x, entering := s.cel.entering ++ [(x.quad, x.pair)] } }) ∧
  (∀ (s : State) (q j : Nat), s.cel.entering = [(q, j)] → Mild s 504 602 →
    CellarMoves s s.pairsEnter ∧ s.pairsEnter.cel.entering = [] ∧
    ((s.cacheOf q).length < 1792 → s.pairsEnter.cacheOf q = s.cacheOf q ++ [j])) ∧
  (∀ (queue : BitVec 18) (s : State) (e : HcEntry) (l : LLine) (w : Nat) (a b : DWord), s.headOf queue.toNat = some e →
    s.fv F.CEL_HC_idle ≠ 0 → e.since + 256 * s.fv F.CEL_HC_idle ≤ s.epoch →
    (∃ t, exec (.headCacheIdleRelease queue true) s = .next t ∧ Counted F.CEL_CNT_NEARMISS_count s t ∧ t = { s with live := t.live } ∧
      LiveBut [R.CEL_CNT_NEARMISS] s t) ∧
    (descLine s.active queue.toNat = (l, w) → CleanLarder s l w a → CleanLarder s l (w + 1) b →
      ∃ t, exec (.headCacheIdleRelease queue false) s = .next t ∧ t.headOf queue.toNat = none ∧
        (∀ k, k ≠ queue.toNat → t.headOf k = s.headOf k) ∧
        t.larderWord l w = encodeWord { Desc.ofWords a b with hc := false, hcn := 0, hci := 0 }.word0 false ∧
        t.larderWord l (w + 1) = encodeWord { Desc.ofWords a b with hc := false, hcn := 0, hci := 0 }.word1 false ∧
        StoresLarder (fun i => i = s.larderPlace l w ∨ i = s.larderPlace l (w + 1)) s t ∧
        t = { s with live := t.live, larder := t.larder, cel := { s.cel with heads := t.cel.heads } } ∧
        LiveBut ((List.range 4).map R.CEL_HC_STAT) s t)) ∧
  (∀ (s : State) (e : Nat), s.cel.initDue = some e → s.celOld e = false → s.fb F.CEL_STATUS_init_busy = false →
    (celCfg s.active).enable = true → (celCfg s.active).size ≠ 0 → Mild s 504 602 →
    ∃ t, exec .cellarInit s = .next t ∧ t.fb F.CEL_STATUS_init_busy = true ∧ t.fb F.CEL_STATUS_ready = false ∧ CellarMoves s t ∧
      t.cel = { s.cel with caches := [], flight := [], refillAt := [], freeing := [], entering := [], heads := [], broken := [], resets := []
                           stack := (celCfg s.active).size * 8, base := (celCfg s.active).stackAt 0, initDue := none
                           lowSent := t.cel.lowSent } ∧
      t.fv F.CEL_STATUS_free_pairs = 256 * t.cel.stack % 2 ^ F.CEL_STATUS_free_pairs.width) ∧
  (∀ s : State, s.fb F.CEL_STATUS_init_busy = true → s.blockWaits 5 none = false →
    ∃ t, exec .cellarInitDone s = .next t ∧ t.fb F.CEL_STATUS_ready = (s.cel.initDue.isNone && (celCfg s.active).enable) ∧
      t.fb F.CEL_STATUS_init_busy = false ∧ t.fv F.CEL_LOST_pairs = 0 ∧
      t = { s with live := t.live, cel := { s.cel with lowSent := false } } ∧ LiveBut [R.CEL_STATUS, R.CEL_LOST] s t)

/-! ### Stored-data integrity -/

/-- R306, R315-R325: errors are found, probed and logged. An entry past its age leaves the recurrence table for a probe; a probe holds eight
valid codewords, and at its end its word is classed, counted and captured; the Polisher and the Larder scrub pass over clean words and leave
valid codewords where they correct; the log takes the captured records, oldest first, each under the next sequence number. -/
def Obligations.ErrorsAreProbedAndLogged : Prop :=
  (∀ (c : Channel) (s : State) (r : RecEntry), r ∈ (s.eccOf c.val).recs → r.first + s.maxAge c.val ≤ s.epoch → Mild s 504 544 →
    (∃ t, exec (.recurrenceAgeExpiry c true) s = .next t ∧ Counted (F.ECC_CNT_NEARMISS_count c.val) s t ∧ t = { s with live := t.live } ∧
      LiveBut [R.ECC_CNT_NEARMISS c.val] s t) ∧
    ((∀ x ∈ (s.eccOf c.val).recs, ∀ y ∈ (s.eccOf c.val).recs, x.burst = y.burst → x.word = y.word → x = y) →
      ∃ t, exec (.recurrenceAgeExpiry c false) s = .next t ∧ (∀ x ∈ (t.eccOf c.val).recs, s.epoch < x.first + s.maxAge c.val) ∧
      ((s.eccOf c.val).recs = [r] → s.fb (F.ECC_CTL_probe_en c.val) = true → s.isRetired c.val r.bank r.row = false →
        (s.eccOf c.val).probe = none → (s.eccOf c.val).probeQ = [] →
        (t.eccOf c.val).probeQ = [{ bank := r.bank, row := r.row, col := r.col, errs := [{ r.info with count := r.count }] }]) ∧
      EccMoves c.val s t ∧ t.dram = s.dram ∧ t.tiles = s.tiles)) ∧
  (∀ (c : Channel) (s : State) (j : ProbeJob) (l : Loc), (s.eccOf c.val).probe = none → s.fb (F.ECC_CTL_probe_en c.val) = true →
    s.maintFor 1 c.val = true → (s.eccOf c.val).probeQ.find? (fun j => !s.isRetired c.val j.bank j.row &&
      !s.isBorrowed c.val j.bank (s.physRow c.val j.bank j.row)) = some j → Mild s 504 544 → l = ⟨c.val, j.bank, j.row, j.col⟩ →
    ∃ t k, exec (.probeStart c) s = .next t ∧ (t.eccOf c.val).probe = some k ∧ k.burst = j.burst ∧ k.left = 4 * s.probeRounds c.val ∧
      k.held.length = 8 ∧ (∀ x ∈ k.held, syndrome x.toNat = 0) ∧
      (∀ w x, w < 8 → CleanDram s l w x → k.held[w]? = some (encodeWord x false) ∨ k.held[w]? = some (encodeWord x true)) ∧
      (t.eccOf c.val).probeQ = (s.eccOf c.val).probeQ.erase j ∧ EccMoves c.val s t ∧ t.dram = s.dram) ∧
  (∀ (c : Channel) (obs : List (Fin 8 × Bool)) (s : State) (j : ProbeJob) (i : ErrInfo) (cls : Nat) (l : Loc) (x : Nat → DWord)
      (p : Nat → Bool), (s.eccOf c.val).probe = some j → j.left = 0 → s.maintFor 1 c.val = true →
    j.held = (List.range 8).map (fun w => encodeWord (x w) (p w)) → l = ⟨c.val, j.bank, j.row, j.col⟩ →
    j.errs = [i] → classOf (s.eccOf c.val).last16 ((j.bank, j.row), (j.col, i.word)) obs = cls → (s.eccOf c.val).capture.length < 16 →
    s.fb F.ECC_INJ_CTL_arm = false → s.mirrorRow l.ch l.bank l.row l.col = none →
    s.mirrorOf l.ch l.bank (s.physRow l.ch l.bank l.row) l.col = none → Mild s 504 544 →
    ∃ t, exec (.probeComplete c obs) s = .next t ∧ (t.eccOf c.val).probe = none ∧ Counted (F.ECC_CNT_PROBE_count c.val) s t ∧
      (cls = 1 → Counted (F.ECC_CNT_TRANS_count c.val) s t) ∧ (cls = 2 → Counted (F.ECC_CNT_INTERM_count c.val) s t) ∧
      (cls = 3 → Counted (F.ECC_CNT_HARD_count c.val) s t) ∧ (1 ≤ cls ∧ cls ≤ 3) ∧
      (t.eccOf c.val).capture = (s.eccOf c.val).capture ++
        [⟨0, cls, { i with flags := if i.flags.testBit 3 then i.flags else i.flags + 8 }⟩] ∧
      (t.eccOf c.val).last16.head? = some ((j.bank, j.row), (j.col, i.word)) ∧
      (∀ w, w < 8 → t.dramGet (s.physWord l w) = encodeWord (x w) (p w)) ∧
      StoresDram (fun n => ∃ w, w < 8 ∧ n = s.physWord l w) s t ∧ EccMoves c.val s t) ∧
  (∀ (c : Channel) (s : State) (p : Nat), s.patrolNext c.val 2200 (s.patrolAt c.val) = p → p < patrolLength → s.patrolSkips c.val p = false →
    s.fb (F.ECC_CTL_scrub_en c.val) = true → s.mode ≠ 4 → s.planning c.val = true → s.fb (F.SCH_STATUS_degraded c.val) = false →
    64 * s.aheadBy c.val ≤ (patrolLength : Int) * s.passEpochs c.val →
    (∀ w, w < 8 → ∃ x, CleanDram s ⟨c.val, p / 32 % 32, p / 1024, p % 32⟩ w x) →
    (∀ r ∈ (s.eccOf c.val).recs, r.burst ≠ (p / 32 % 32, p / 1024, p % 32)) →
    ∀ behind : Bool, behind = (decide (s.aheadBy c.val < 0) && (s.eccOf c.val).wb.isEmpty && s.patrolMaint c.val) →
    (behind = true ∨ s.openFree c.val = true) →
    ∃ t, exec (.polisherRead c) s = .next t ∧ t.patrolAt c.val = (p + 1) % patrolLength ∧ EccMoves c.val s t ∧ t.dram = s.dram ∧
      t.vrt = s.vrt ∧ t.tile c.val = (if behind then s.takeMaint c.val 1 else s.takeOpen c.val).tile c.val ∧
      (p + 1 = patrolLength → Counted (F.ECC_SCRUB_PASS_count c.val) s t)) ∧
  (∀ (c : Channel) (s : State) (b row col : Nat) (rest : List (Nat × Nat × Nat)) (l : Loc), (s.eccOf c.val).wb = (b, row, col) :: rest →
    l = ⟨c.val, b, row, col⟩ → s.patrolMaint c.val = true → s.isBorrowed c.val b (s.physRow c.val b row) = false →
    s.probing c.val b row col = false → s.InArray l → s.fb F.ECC_INJ_CTL_arm = false →
    ∃ t, exec (.polisherWriteback c) s = .next t ∧ (∀ x ∈ (t.eccOf c.val).wb, x ∈ rest) ∧
      (∀ w x errs er, w < 8 → decodeWord (s.dramGet (s.physWord l w)).toNat (s.erasures c.val w) = .ok x errs er →
        t.dramGet (s.physWord l w) = encodeWord (BitVec.ofNat 64 x) (x.testBit 64)) ∧
      (∀ w, w < 8 → decodeWord (s.dramGet (s.physWord l w)).toNat (s.erasures c.val w) = .bad →
        t.dramGet (s.physWord l w) = if s.fb (F.ECC_CTL_scrub_poison c.val) then
          encodeWord (BitVec.ofNat 64 (s.dramGet (s.physWord l w)).toNat) true else s.dramGet (s.physWord l w)) ∧
      StoresDram (fun i => ∃ w, w < 8 ∧ i = s.physWord l w) s t ∧ EccMoves c.val s t) ∧
  (∀ (q : Quad) (obs : List (Fin 8 × Bool)) (s : State) (p : Nat), natGet s.log.scrub q.val = p → p < 262144 → s.mode ≠ 4 → 3 ≤ s.pwr.phase →
    (∀ a ∈ s.lar.eng, a.at_ ≠ 128 * q.val + p / 2048) → (∀ a ∈ s.lar.host, ¬ (a.at_ = 128 * q.val + p / 2048 ∧ a.line = p % 2048)) →
    Mild s 504 544 →
    ∃ t, exec (.larderScrub q obs) s = .next t ∧ natGet t.log.scrub q.val = (p + 1) % 262144 ∧
      (granule s.active q.val (p / 16384) = 0 → t = { s with log := t.log }) ∧
      (granule s.active q.val (p / 16384) ≠ 0 → ∀ w, w < 8 →
        (∀ x errs er, decodeWord (s.larderWord ⟨q.val, p / 2048, p % 2048⟩ w).toNat [] = .ok x errs er →
          t.larderWord ⟨q.val, p / 2048, p % 2048⟩ w = encodeWord (BitVec.ofNat 64 x) (x.testBit 64)) ∧
        (decodeWord (s.larderWord ⟨q.val, p / 2048, p % 2048⟩ w).toNat [] = .bad →
          t.larderWord ⟨q.val, p / 2048, p % 2048⟩ w =
            encodeWord (BitVec.ofNat 64 (s.larderWord ⟨q.val, p / 2048, p % 2048⟩ w).toNat) true)) ∧
      StoresLarder (fun i => ∃ w, w < 8 ∧ i = s.larderPlace ⟨q.val, p / 2048, p % 2048⟩ w) s t ∧
      t = { s with live := t.live, larder := t.larder, ecc := t.ecc, log := { s.log with scrub := t.log.scrub }
                   lar := { s.lar with eng := t.lar.eng }, free := t.free, evq := t.evq, evLost := t.evLost, flt := t.flt } ∧
      LiveBut (eccRegs (8 * q.val)) s t) ∧
  (∀ s : State, s.log.ring.length ≤ 4096 → s.log.nextSeq < 2 ^ 32 →
    ∃ t es, exec .logMove s = .next t ∧ t.log.ring = (s.log.ring ++ es).drop ((s.log.ring ++ es).length - 4096) ∧
      es.map (fun e => (e.cls, e.info)) = ((List.range 32).flatMap fun c => (s.eccOf c).capture).map (fun e => (e.cls, e.info)) ∧
      (∀ k e, es[k]? = some e → e.seq = (s.log.nextSeq + k) % 2 ^ 32) ∧
      (∀ c, c < 32 → (t.eccOf c).capture = []) ∧ t = { s with live := t.live, evq := t.evq, evLost := t.evLost, ecc := t.ecc, log := t.log } ∧
      LiveBut [R.LNK_EVT_LOST] s t)

/-! ### Risers and clocks -/

/-- R341-R344, R168, R169, R338, R339: lines. A failing line calls for the lowest free spare of its cluster and its verify, or is erased
at the next boundary while fewer than two are; a verified spare takes its line at the switch; the third dead line's channel moves to the
spare riser at its boundary; a training step leads to the next; the array is filled once. -/
def Obligations.LinesAreRepairedOrErased : Prop :=
  (∀ (r : Tile) (line : BitVec 8) (tie : Bool) (s : State) (V : VrtSt), s.riser r.val = V → line.toNat ∈ V.calling → line.toNat ∉ V.failing →
    s.replaced r.val line.toNat = false → line.toNat < 200 → s.outOfService r.val = false →
    (∀ sp, s.fb (F.VRT_CTL_soft_repair_en r.val) = true → s.spareFor r.val line.toNat = some sp → (∀ x ∈ V.reps, x.line ≠ line.toNat) →
      ∃ t, exec (.lineFailing r line tie) s = .next t ∧
        t.riser r.val = { V with
          failing := V.failing ++ [line.toNat], calling := V.calling.filter (· ≠ line.toNat)
          reps := V.reps ++ [⟨line.toNat, sp, s.epoch, none⟩]
          eraseNext := if line.toNat < 160 ∧ (V.erased ++ V.eraseNext).dedup.length < 2 ∧ line.toNat ∉ V.erased ++ V.eraseNext then
            V.eraseNext ++ [line.toNat] else V.eraseNext } ∧
        t.fb (F.VRT_STATUS_repair_pending r.val) = true ∧ (∀ k, k ≠ r.val → t.riser k = s.riser k) ∧
        (tie = true → Counted (F.VRT_CNT_NEARMISS_count r.val) s t) ∧ t = { s with vrt := t.vrt, live := t.live } ∧
        LiveBut (R.VRT_STATUS r.val :: R.VRT_CNT_NEARMISS r.val :: (List.range 32).map R.ECC_ERASE) s t) ∧
    ((s.spareFor r.val line.toNat = none ∨ s.fb (F.VRT_CTL_soft_repair_en r.val) = false) → line.toNat < 160 →
      line.toNat ∉ V.erased → line.toNat ∉ V.eraseNext → ((s.deadLines r.val).filter (· ≠ line.toNat)).length < 2 →
      ∃ t, exec (.lineFailing r line tie) s = .next t ∧
        t.riser r.val = { V with failing := V.failing ++ [line.toNat], calling := V.calling.filter (· ≠ line.toNat)
                                 eraseNext := V.eraseNext ++ [line.toNat] } ∧
        (∀ k, k ≠ r.val → t.riser k = s.riser k) ∧ (tie = true → Counted (F.VRT_CNT_NEARMISS_count r.val) s t) ∧
        t = { s with vrt := t.vrt, live := t.live } ∧ LiveBut [R.VRT_CNT_NEARMISS r.val] s t)) ∧
  (∀ (r : Tile) (line : BitVec 8) (s : State) (x : SoftRep),
    (s.riser r.val).reps.find? (fun x => x.line == line.toNat && x.at_.isNone && decide (x.start + 16 ≤ s.epoch)) = some x →
    (∃ t h, exec (.softRepairVerifyDone r line false) s = .next t ∧ t = { s with vrt := t.vrt, free := s.free + 210 } ∧
      t.riser r.val = { s.riser r.val with
        helper := h, reps := (s.riser r.val).reps.map fun y => if y.line == x.line then { y with at_ := some (s.epoch + 1) } else y } ∧
      h.pattern = some .prbs23 ∧ h.lines = [200 + x.spare] ∧ h.bad = [] ∧ ∀ k, k ≠ r.val → t.riser k = s.riser k) ∧
    (x.spare < 8 → Mild s 336 504 → Mild s 692 698 →
      ∃ t, exec (.softRepairVerifyDone r line true) s = .next t ∧ t.bit (F.VRT_STATUS_spare_bad r.val) x.spare = true ∧
        Counted (F.VRT_CNT_SPAREBAD_count r.val) s t ∧ (∀ y ∈ (t.riser r.val).reps, y.line = x.line → y.at_ = none ∧ y.start = s.epoch) ∧
        RisersMove [] s t)) ∧
  (∀ (r : Tile) (s : State) (x : SoftRep), s.atBoundary = true → (s.riser r.val).reps = [x] → x.at_ = some s.epoch → x.spare < 8 →
    x.line < 200 → Mild s 336 504 → Mild s 692 698 →
    ∃ t, exec (.softRepairSwitch r) s = .next t ∧ t.bit (F.VRT_STATUS_spare_used r.val) x.spare = true ∧
      t.fv (F.VRT_SPARE_MAP_line r.val x.spare) = x.line ∧ (t.riser r.val).reps = [] ∧ x.line ∉ (t.riser r.val).erased ∧
      x.line ∉ (t.riser r.val).failing ∧ Counted (F.VRT_CNT_SOFTREP_count r.val) s t ∧ (∀ k, k ≠ r.val → t.riser k = s.riser k) ∧
      RisersMove [] s t ∧ t.dramGen = s.dramGen ∧ t.free = s.free) ∧
  (∀ (r : Tile) (path : Path) (data : Word) (s : State) (sp : Nat), WriteTaken s path.val (R.VRT_REPAIR_REQ r.val) data →
    data.field 8 1 = 1 → data.field 0 8 < 200 → s.spareFor r.val (data.field 0 8) = some sp → s.replaced r.val (data.field 0 8) = false →
    (∀ x ∈ (s.riser r.val).reps, x.line ≠ data.field 0 8) →
    ∃ t, exec (.vrtRepairReq r path data) s = .next t ∧
      (t.riser r.val).reps = (s.riser r.val).reps ++ [⟨data.field 0 8, sp, s.epoch, none⟩] ∧ (∀ k, k ≠ r.val → t.riser k = s.riser k) ∧
      t = { s with vrt := t.vrt, live := t.live } ∧
      LiveBut (R.VRT_REPAIR_REQ r.val :: R.VRT_STATUS r.val :: (List.range 32).map R.ECC_ERASE) s t) ∧
  (∀ (c : Channel) (s : State) (line e : Nat), (s.riser c.val).move = some (line, e) → s.atBoundary = true → e ≤ s.epoch → s.halted = false →
    s.thm.cal = none → s.thm.calQ = [] → s.bst.runs = [] → Mild s 336 504 →
    ∃ t, exec (.spareRiserMove c) s = .next t ∧
      t.riser c.val = { s.riser c.val with move := none, erased := [], eraseNext := [], reps := [], calling := [] } ∧ t.carrier c.val = 32 ∧
      t.fv F.VRT_SPARE_CARRY_reason = 1 ∧ t.fb (F.SCH_STATUS_on_spare c.val) = true ∧ Counted (F.VRT_CNT_MOVE_count c.val) s t ∧
      (∀ k, k ≠ c.val → t.riser k = s.riser k) ∧ RisersMove [] s t ∧ t.dramGen = s.dramGen) ∧
  (∀ (r : Tile) (ok : Bool) (fails : List (BitVec 8)) (trims : List TrimObs) (s : State) (V : VrtSt), s.riser r.val = V → V.step < 6 →
    (V.retrain = true ∨ (s.pwr.phase = 4 ∧ s.trainTurn r.val = true)) → Mild s 144 304 → Mild s 336 504 → Mild s 692 698 →
    (V.step ≤ 1 → ok = false → V.tries < 3 → ∃ t, exec (.riserTrainStepDone r ok fails trims) s = .next t ∧ t = { s with vrt := t.vrt } ∧
      t.riser r.val = { V with tries := V.tries + 1 } ∧ ∀ k, k ≠ r.val → t.riser k = s.riser k) ∧
    (V.step ≤ 1 → ok = false → 3 ≤ V.tries → ∃ t, exec (.riserTrainStepDone r ok fails trims) s = .next t ∧
      (t.riser r.val).step = 6 ∧ (t.riser r.val).retrain = false ∧ RisersMove [] s t) ∧
    ((ok = true ∨ 2 ≤ V.step) → V.step < 5 → ∃ t, exec (.riserTrainStepDone r ok fails trims) s = .next t ∧
      (t.riser r.val).step = V.step + 1 ∧ (t.riser r.val).tries = 0 ∧
      (1 ≤ V.step → t.riser r.val = { V with step := V.step + 1, tries := 0, helper := (t.riser r.val).helper } ∧
        t = { s with vrt := t.vrt, free := s.free + 210, live := t.live } ∧ LiveBut (trims.map (trimAddr r.val V.die)) s t) ∧
      (∀ x, trims = [x] → 1 ≤ V.step → t.live.val (trimAddr r.val V.die x) = x.value.setWidth 32) ∧
      RisersMove (R.CST_CNT_SKIPPED :: trims.map (trimAddr r.val V.die)) s t) ∧
    (V.step = 5 → ∃ t, exec (.riserTrainStepDone r ok fails trims) s = .next t ∧
      (r.val < 32 → (t.riser r.val).step = 6 ∧ (t.riser r.val).retrain = false ∧
        (V.retrain = true → s.carrier r.val = 32 → fails = [] → (t.riser r.val).homeAt = some s.nextBoundary)) ∧
      (r.val = 32 → V.die < 15 → (t.riser 32).step = 3 ∧ (t.riser 32).die = V.die + 1) ∧
      (r.val = 32 → 15 ≤ V.die → (t.riser 32).step = 6) ∧
      (r.val = 32 → V.die < 16 → fails = [] → s.fb (F.VRT_DEAD_valid 32) = false → t.bit F.VRT_SPARE_DIES_trained V.die = true) ∧
      RisersMove (trims.map (trimAddr r.val V.die)) s t)) ∧
  (∀ s : State, s.pwr.phase = 4 → s.risersDone = true → s.mustFill = true →
    exec .arrayFillDone s = .next { s with dram := [], dramGen := [], pwr := { s.pwr with filled := true } })

/-- R348-R351: clocks. A PLL that loses lock retrains the open links of its quadrant; a tuning below the least margin is reported and plans
the entry to the fallback two boundaries on; at the boundaries the fallback is entered, or left where it may be. -/
def Obligations.ClocksFallBack : Prop :=
  (∀ (q : Quad) (s : State), s.bit F.CLK_STATUS_pll_lock q.val = true → s.severityOf (Src.pllLock q.val) ≠ 5 → Mild s 0 112 →
    ∃ t, exec (.pllLockLoss q) s = .next t ∧ t.bit F.CLK_STATUS_pll_lock q.val = false ∧
      (∀ k, k < 4 → s.linkState (4 * q.val + k) = lsOpen → t.linkState (4 * q.val + k) = lsTraining) ∧
      (∀ k, k < 4 → s.linkState (4 * q.val + k) ≠ lsOpen → t.link (4 * q.val + k) = s.link (4 * q.val + k)) ∧
      (∀ l, l / 4 ≠ q.val → t.link l = s.link l) ∧
      t = { s with live := t.live, links := t.links, reqs := t.reqs, sentTags := t.sentTags, gate := t.gate, tiles := t.tiles, evq := t.evq
                   evLost := t.evLost, flt := t.flt } ∧
      LiveBut (R.CLK_STATUS :: ((List.range 4).flatMap fun k =>
        [R.LNK_STATUS (4 * q.val + k), R.LNK_CNT_RETRAIN (4 * q.val + k), R.LNK_CTL (4 * q.val + k)]) ++ reportRegs) s t) ∧
  (∀ (q : Quad) (s : State), ∃ t, exec (.pllLock q) s = .next t ∧ t.bit F.CLK_STATUS_pll_lock q.val = true ∧ t = { s with live := t.live } ∧
    LiveBut [R.CLK_STATUS] s t) ∧
  (∀ (q : Quad) (setup hold : BitVec 16) (s : State), (s.pwr.phase = 3 ∨ q.val ∈ s.clk.due) → s.severityOf (Src.tuneFail q.val) ≠ 5 →
    ∃ t, exec (.crossingTuneDone q setup hold) s = .next t ∧ t.fv (F.CLK_XMARGIN_setup q.val) = setup.toNat ∧
      t.fv (F.CLK_XMARGIN_hold q.val) = hold.toNat ∧ Counted F.CLK_CNT_TUNE_count s t ∧ t.clk.due = s.clk.due.filter (· ≠ q.val) ∧
      t.clk.tuned = s.clk.tuned ++ [(q.val, s.free)] ∧
      (min setup.toNat hold.toNat < s.minMargin → t.bit F.CLK_STATUS_tune_fail q.val = true ∧
        (s.fb F.CLK_STATUS_fallback = false → s.clk.entryAt = none → t.clk.entryAt = some (s.epoch + 2)) ∧ t.clk.exitAt = none ∧
        t.clk.closed = 0) ∧
      (s.minMargin ≤ min setup.toNat hold.toNat → t.bit F.CLK_STATUS_tune_fail q.val = false ∧ t.clk.entryAt = s.clk.entryAt ∧
        (∀ e, s.clk.exitAt = some e → t.clk.exitAt = some e) ∧
        (s.fb F.CLK_STATUS_fallback = true → s.clk.due.filter (· ≠ q.val) = [] → s.exitMargin ≤ min setup.toNat hold.toNat →
          s.clk.closed ||| (1 <<< q.val) = 15 → s.fb F.CLK_CTL_exit_allow = true → s.fb F.CLK_CTL_force_fallback = false →
          s.clk.exitAt = none → t.clk.exitAt = some (s.epoch + 2))) ∧
      t = { s with live := t.live, clk := t.clk, free := s.free + 1, evq := t.evq, evLost := t.evLost, flt := t.flt } ∧
      LiveBut (R.CLK_XMARGIN q.val :: R.CLK_CNT_TUNE :: R.CLK_STATUS :: reportRegs) s t) ∧
  (∀ s : State, s.atBoundary = true → s.clk.entryAt = some s.epoch → s.fb F.CLK_STATUS_fallback = false →
    s.severityOf (Src.vertCommon 5) ≠ 5 →
    ∃ t, exec .clockFallbackEntry s = .next t ∧ t.fb F.CLK_STATUS_fallback = true ∧
      (∀ c, c < 33 → t.fb (F.SCH_STATUS_clock_fallback c) = true) ∧ Counted F.CLK_CNT_FALLBACK_count s t ∧
      t = { s with live := t.live, clk := { s.clk with entryAt := none, exitAt := none, closed := 0 }, evq := t.evq, evLost := t.evLost
                   flt := t.flt } ∧
      LiveBut (R.CLK_STATUS :: R.CLK_CNT_FALLBACK :: (List.range 33).map R.SCH_STATUS ++ reportRegs) s t) ∧
  (∀ s : State, s.atBoundary = true → s.clk.exitAt = some s.epoch → s.fb F.CLK_STATUS_fallback = true →
    s.fb F.CLK_CTL_exit_allow = true → s.fb F.CLK_CTL_force_fallback = false →
    ∃ t, exec .clockFallbackExit s = .next t ∧ t.fb F.CLK_STATUS_fallback = false ∧
      (∀ c, c < 33 → t.fb (F.SCH_STATUS_clock_fallback c) = false) ∧
      t = { s with live := t.live, clk := { s.clk with exitAt := none, closed := 0 }, evq := t.evq, evLost := t.evLost, flt := t.flt } ∧
      LiveBut (R.CLK_STATUS :: (List.range 33).map R.SCH_STATUS ++ reportRegs) s t)

/-! ### The Chimney -/

/-- R366, R367, R370-R376, R378-R380: measurement. A read sets its weathervane group, whose estimate then ages; a round publishes what
was measured, judges the diodes, and governs each unit by its hottest accepted diode, with its threshold states; a comparator stops the
device and sets every die's self-refresh window to 16 ms. -/
def Obligations.TheChimneyMeasures : Prop :=
  (∀ (g : Fin 32) (reading : Option (BitVec 16)) (tie : Bool) (s : State) (w : WvGroup), s.wvGroup g.val = w →
    s.fb F.THM_CTL_wv_en = true → s.mode ≠ 4 → s.halted = false → 5 ≤ s.pwr.phase → (s.planning g.val = false ∨ 256 ≤ w.reads) →
    ∃ t, exec (.weathervaneRead g reading tie) s = .next t ∧
      t.wvGroup g.val = { w with est := (reading.map fun r => tempInt r.toNat).getD w.est, readAt := s.epoch, fresh := true
                                 below := reading.isNone, start := s.epoch, writes := 0, reads := 0 } ∧
      (∀ k, k ≠ g.val → t.wvGroup k = s.wvGroup k) ∧
      t.fv F.THM_CNT_NEARMISS_count = (if tie = true ∧ w.fresh = true then min (s.fv F.THM_CNT_NEARMISS_count + 1)
        (2 ^ F.THM_CNT_NEARMISS_count.width - 1) else s.fv F.THM_CNT_NEARMISS_count) ∧
      (w.unreliable = false → t.fb (F.THM_WVEST_fresh (g.val / 2)) = true ∧ g.val / 2 ∉ t.thm.staleRaised) ∧
      (∀ v, t.wvEst (g.val / 2) = some v → t.fv (F.THM_WVEST_w (g.val / 2)) = tempBits v) ∧
      t = { s with live := t.live, thm := { s.thm with wv := t.thm.wv, staleRaised := t.thm.staleRaised } } ∧
      LiveBut [R.THM_WVEST (g.val / 2), R.THM_CNT_NEARMISS] s t) ∧
  (∀ (g : Fin 32) (s : State) (w : WvGroup), s.wvGroup g.val = w → w.fresh = true → w.readAt + epochsOfMs (4 * s.wvHold) ≤ s.epoch →
    ∃ t, exec (.weathervaneFreshnessExpiry g) s = .next t ∧ t.wvGroup g.val = { w with fresh := false } ∧
      (∀ k, k ≠ g.val → t.wvGroup k = s.wvGroup k) ∧ t = { s with live := t.live, thm := { s.thm with wv := t.thm.wv } } ∧
      LiveBut [R.THM_WVEST (g.val / 2)] s t) ∧
  (∀ (d : Fin 16) (s : State), s.wvOf d.val = [] → d.val ∉ s.thm.staleRaised →
    max (s.wvGroup (2 * d.val)).readAt (s.wvGroup (2 * d.val + 1)).readAt + epochsOfMs (20 * s.wvHold) ≤ s.epoch →
    s.severityOf (Src.thermal 7) ≠ 5 →
    ∃ t, exec (.weathervaneStale d) s = .next t ∧ t.thm = { s.thm with staleRaised := s.thm.staleRaised ++ [d.val] } ∧
      (s.severityOf (Src.thermal 7) ≠ 0 → (t.latch (Src.thermal 7)).severity ≠ 0) ∧
      t = { s with live := t.live, thm := t.thm, evq := t.evq, evLost := t.evLost, flt := t.flt } ∧ LiveBut reportRegs s t) ∧
  (∀ (obs : RoundObs) (s : State), s.pwr.good = true → s.fb F.THM_SHUT_tripped = false →
    (∀ g, g < 32 → -32768 ≤ (s.wvGroup g).est ∧ (s.wvGroup g).est < 32768) →
    ∃ t, exec (.housekeepingRoundEnd obs) s = .next t ∧ t.fv F.HKP_ROUND_round = (s.fv F.HKP_ROUND_round + 1) % 2 ^ 32 ∧ SameConfig s t ∧
      SameMemory s t ∧
      (∀ i v, (i, v) ∈ obs.codes → (∀ y ∈ obs.codes, y.1 = i → y.2 = v) →
        t.fv (F.HKP_SAMPLE_code i.val) = v.toNat ∧ t.fb (F.HKP_SAMPLE_valid i.val) = true) ∧
      (∀ i v, (i, v) ∈ obs.temps → (∀ y ∈ obs.temps, y.1 = i → y.2 = v) → t.fv (F.THM_DIODE_temp i.val) = v.toNat) ∧
      (∀ j v, (j, v) ∈ obs.volts → (∀ y ∈ obs.volts, y.1 = j → y.2 = v) → t.fv (F.HKP_VOLT_mv j.val) = v.toNat) ∧
      (∀ k v, (k, v) ∈ obs.currents → (∀ y ∈ obs.currents, y.1 = k → y.2 = v) → t.fv (F.HKP_CUR_current k.val) = v.toNat) ∧
      (∀ i, i < 104 → s.diodeMasked i = true → t.fv (F.THM_DIODE_state i) = 4) ∧
      (∀ i, i < 104 → s.diodeMasked i = false → i ∈ s.thm.broken → t.fv (F.THM_DIODE_state i) = 3) ∧
      (∀ u i, u < 24 → i ∈ unitDiodes u → t.fv (F.THM_DIODE_state i) ≤ 1 →
        tempInt (t.fv (F.THM_DIODE_temp i)) ≤ tempInt (t.fv (F.THM_UNIT_temp u))) ∧
      (∀ u, u < 24 → t.warnAt < tempInt (t.fv (F.THM_UNIT_temp u)) → t.fb (F.THM_UNIT_warn u) = true) ∧
      (∀ u, u < 24 → t.throttleAt < tempInt (t.fv (F.THM_UNIT_temp u)) → 1 ≤ t.fv (F.THM_UNIT_throttle u)) ∧
      (∀ u, u < 24 → t.fv (F.THM_UNIT_throttle u) = 2 ∨ tempInt (t.fv (F.THM_UNIT_temp u)) ≤ t.throttle2At) ∧
      (Mild s 602 616 → s.thm.calQ = [] →
        t = { s with live := t.live, thm := t.thm, clk := t.clk, evq := t.evq, evLost := t.evLost, flt := t.flt } ∧
        t.thm.wv = s.thm.wv ∧ t.thm.staleRaised = s.thm.staleRaised ∧ LiveBut (roundRegs ++ reportRegs) s t)) ∧
  (∀ (tier : Fin 18) (s : State), s.fb F.THM_SHUT_tripped = false →
    ∃ t, exec (.thermalShutdown tier) s = .next t ∧ t.fb F.THM_SHUT_tripped = true ∧ t.fv F.THM_SHUT_tier = tier.val ∧ t.halted = true ∧
      (∀ n, n < 16 → t.linkState n = lsDown) ∧ t.reqs = [] ∧ (t.latch 616).severity ≠ 0 ∧ t.thermLow = true ∧
      (∀ d, d < 16 → natGet t.thm.window d = 16) ∧ SameConfig s t ∧ SameMemory s t) ∧
  (∀ (tier : Fin 18) (s : State), s.fb F.THM_SHUT_tripped = true → exec (.thermalShutdown tier) s = .next s)

/-- R383-R385, R387, R388: calibration. A CAL.RUN queues its risers, each once, and is told NOTRUN in RETENTION; a takeover
moves the channel to the spare riser at a boundary and back when its verify has passed; a reduced one takes its chunks 64 epochs apart. -/
def Obligations.RisersAreCalibrated : Prop :=
  (∀ (n : Lb) (s : State) (r : Nat), LbRuns s n.val 0x0A01 → 3 ≤ (s.lb n.val).args.length → (s.lb n.val).arg 0 1 = r →
    (s.lb n.val).arg 2 1 = 0 → r < 32 → s.thm.asks = [] →
    (∀ x, s.thm.cal = some x → x.job.riser ≠ r → (∀ j ∈ s.thm.calQ, j.riser ≠ r) →
      ∃ t, exec (.calRun n) s = .next t ∧ Begun s t n.val true 0 ∧
        t = { s with live := t.live, lbs := t.lbs, thm := { s.thm with calQ := s.thm.calQ ++ [⟨r, 0, false, [n.val]⟩]
                                                                       asks := [(n.val, ⟨[], 1⟩)] } } ∧
        LiveBut [R.THM_CAL_STATUS] s t) ∧
    (s.thm.cal = none → s.thm.calQ = [] → s.calWay ⟨r, 0, false, [n.val]⟩ = .takeover →
      ∃ t, exec (.calRun n) s = .next t ∧ Begun s t n.val true 0 ∧
        t = { s with live := t.live, lbs := t.lbs, thm := { s.thm with
          cal := some ⟨⟨r, 0, false, [n.val]⟩, 0, false, false, true, false, s.epoch, [], []⟩, asks := [(n.val, ⟨[], 1⟩)] } } ∧
        t.fv F.THM_CAL_STATUS_riser = r ∧ LiveBut [R.THM_CAL_STATUS] s t) ∧
    (s.thm.cal = none → s.thm.calQ = [] → s.mode = 4 →
      ∃ t, exec (.calRun n) s = .next t ∧
        Completes s t n.val cplOK true ((List.range 33).flatMap fun k => leBytes 1 (if k = r then 4 else 0xFF)) ∧
        t.fv (F.THM_CAL_LAST_outcome r) = 4 ∧ t.thm = s.thm ∧
        t = { s with live := t.live, lbs := t.lbs, links := t.links, reqs := t.reqs, sentTags := t.sentTags, evq := t.evq
                     evLost := t.evLost, flt := t.flt } ∧
        LiveBut (R.THM_CAL_STATUS :: R.THM_CAL_LAST r :: lbRegs n.val) s t)) ∧
  (∀ (trims : List TrimObs) (s : State) (r : CalRun), s.thm.cal = some r → s.halted = false → r.chunks = false → r.job.riser < 33 →
    (r.step = 0 → s.atBoundary = true → s.fb F.VRT_SPARE_CARRY_busy = false → r.job.riser < 32 →
      ∃ t, exec (.calStepDone [] trims) s = .next t ∧ CalRuns { r with step := 1 } s t ∧ t.carrier r.job.riser = 32 ∧
        t.fv F.VRT_SPARE_CARRY_reason = 2 ∧ t = { s with live := t.live, thm := t.thm } ∧ LiveBut (R.THM_CAL_STATUS :: riserRegs) s t) ∧
    (r.step = 1 ∨ r.step = 2 →
      ∃ t, exec (.calStepDone [] trims) s = .next t ∧
        CalRuns { r with step := r.step + 1, trims := r.trims ++ r.trimWrites trims } s t ∧ CalMoves [R.THM_CAL_STATUS] r.job.riser s t) ∧
    (r.step = 3 → r.takes = true →
      ∃ t, exec (.calStepDone [] trims) s = .next t ∧
        CalRuns { r with step := 4, at_ := if s.atBoundary = true then s.epoch + 1 else s.epoch + 2 } s t ∧
        CalMoves [R.THM_CAL_STATUS] r.job.riser s t) ∧
    (r.step = 4 → s.atBoundary = true → r.at_ ≤ s.epoch → r.failed = false → s.carrier r.job.riser = 32 → r.job.riser < 32 →
      r.job.lbs = [] → r.trims = [] → s.thm.calQ = [] →
      ∃ t, exec (.calStepDone [] trims) s = .next t ∧ t.thm.cal = none ∧ t.carrier r.job.riser = r.job.riser ∧
        t.fv (F.THM_CAL_LAST_outcome r.job.riser) = 0 ∧ Counted F.THM_CNT_CAL_count s t ∧
        t.thm = { s.thm with cal := none, calTemp := t.thm.calTemp } ∧
        t = { s with live := t.live, thm := t.thm, evq := t.evq, evLost := t.evLost, flt := t.flt } ∧
        LiveBut ([R.THM_CAL_STATUS, R.THM_CAL_LAST r.job.riser, R.THM_CNT_CAL] ++ riserRegs) s t)) ∧
  (∀ (s : State) (r : CalRun), s.thm.cal = some r → s.halted = false → r.chunks = true → s.atBoundary = true → r.at_ ≤ s.epoch →
    r.job.riser < 33 →
    (r.step < 6 → ∃ t, exec (.reducedCalChunk [] []) s = .next t ∧ CalRuns { r with step := r.step + 1, at_ := r.at_ + 64 } s t ∧
      CalMoves [R.THM_CAL_STATUS] r.job.riser s t) ∧
    (6 ≤ r.step → r.job.lbs = [] → s.thm.calQ = [] → Mild s 602 616 →
      ∃ t, exec (.reducedCalChunk [] []) s = .next t ∧ t.fv (F.THM_CAL_LAST_outcome r.job.riser) = 1 ∧
        Counted F.THM_CNT_CALREDUCED_count s t ∧ Counted F.THM_CNT_CAL_count s t ∧
        t.thm = { s.thm with cal := none, calTemp := t.thm.calTemp } ∧
        t = { s with live := t.live, thm := t.thm, vrt := t.vrt, free := s.free + 210, evq := t.evq, evLost := t.evLost, flt := t.flt } ∧
        LiveBut ([R.THM_CAL_STATUS, R.THM_CAL_LAST r.job.riser, R.THM_CNT_CAL, R.THM_CNT_CALREDUCED] ++ reportRegs) s t))

/-! ### Self-test -/

/-- R396-R399, R412, R401, R289, R404, R406, R407, R411, R408, R416, R299, R329, R331, R398, R407-R410: Logic tests in service. A due test starts when it may; an engine under test is drained, and its signature or its
expired budget decides it; at start-up the quadrants' slices are tested in turn. A riser test takes the riser's channel over at a boundary, goes step by step, and mirrors it for an epoch before the return. A row test takes a slot, copies its row there before it borrows it, tests and restores a burst at a time, and holds a
row that loses data. A Larder bank's stand-in takes its words over before the marches, and a bank that fails them is held. A late request makes a row test yield, and it is resumed where it stood after its retry time, which a new delay starts
again. Units return at a boundary. An engine that has passed takes work again, and one under
RETIRE.RESTORE is in again; one whose reload fails goes out; a riser's channel goes back to its own; a row's slot is freed, and a bank takes its
words back; a remap switches its row to the spare row; the spare bank replaces a bank for good. -/
def Obligations.TestsRunInServiceAndEnd : Prop :=
  ((∀ (e : Fin 128) (s : State), s.fb F.BST_CTL_infield_en = true → s.fb F.BST_CTL_engine_en = true → s.mode ≠ 3 → s.mode ≠ 4 → s.halted = false →
    5 ≤ s.pwr.phase → s.engineOut e.val = false →
    (s.periodOver (tkEngine, e.val) = false ∨ s.mayStart tkEngine e.val 0 0 = .busy → exec (.infieldTestDue (.engine e)) s = .next s) ∧
    (s.periodOver (tkEngine, e.val) = true → s.mayStart tkEngine e.val 0 0 = .runs →
      ∃ t, exec (.infieldTestDue (.engine e)) s = .next t ∧
        t.runOf tkEngine e.val = some ⟨tkEngine, e.val, 0, 0, none, 0, 0, [], 0, 0, s.nextBoundary, false, false, false⟩ ∧
        Counted F.BST_CNT_RUN_count s t ∧
        t = { s with live := t.live, bst := { s.bst with runs := t.bst.runs, lastRun := natSet s.bst.lastRun (1024 * tkEngine + e.val) (s.epoch + 1) } } ∧
        LiveBut [R.BST_CNT_RUN, R.BST_STATUS] s t)) ∧
  (∀ (e : Fin 128) (s : State) (r : TestRun), s.runOf tkEngine e.val = some r → r.at_ ≤ s.epoch → r.yielded = false →
    (r.stage = 0 → ∃ t, exec (.engineDrainDone e) s = .next t ∧ t.runOf tkEngine e.val = some { r with stage := 1 } ∧ RunsMove [] s t) ∧
    (∀ (sig : BitVec 64) (tie : Bool), r.stage = 1 → s.sigsGood = true → sig.toNat = s.goldOf e.val →
      ∃ t, exec (.logicTestDone (.engine e) sig [] tie) s = .next t ∧
        t.runOf tkEngine e.val = some { r with sig := sig.toNat, gold := sig.toNat, fails := [], stage := 2, at_ := s.nextBoundary, pos := toPass } ∧
        (tie = true → Counted F.BST_CNT_NEARMISS_count s t) ∧ RunsMove (if tie = true then [R.BST_CNT_NEARMISS] else []) s t) ∧
    (∀ sig : BitVec 64, r.stage = 1 → r.restore = false → r.lb = none → s.sigsGood = true → sig.toNat ≠ s.goldOf e.val →
      s.severityOf (Src.selftest 0 (e.val / 32)) ≠ 5 →
      ∃ t, exec (.logicTestDone (.engine e) sig [] false) s = .next t ∧ EngineFails s t e.val) ∧
    (r.stage = 1 → r.restore = false → r.lb = none → s.severityOf (Src.selftest 0 (e.val / 32)) ≠ 5 →
      ∃ t, exec (.logicTestTimeout (.engine e)) s = .next t ∧ EngineFails s t e.val)) ∧
  (∀ (q : Quad) (sig : BitVec 64) (s : State), s.runOf tkQuad q.val = none → s.startupTurn tkQuad q.val = true → s.sigsGood = true →
    sig.toNat = s.goldOf (185 + q.val) →
    exec (.logicTestDone (.quadrant q) sig [] false) s = .next { s with bst := { s.bst with bootQuads := q.val + 1 } })) ∧
  (∀ (s : State) (r : TestRun), s.bst.runs.find? (fun r => r.kind == tkRiser) = some r → s.halted = false → s.thm.calQ = [] → r.a < 32 →
    (r.stage = 0 → s.fb F.VRT_SPARE_CARRY_busy = false → s.thm.cal = none → s.atBoundary = true →
      ∃ t, exec (.riserTestStepDone []) s = .next t ∧ t.carrier r.a = 32 ∧ t.fv F.VRT_SPARE_CARRY_reason = 3 ∧
        { r with stage := 1 } ∈ t.bst.runs ∧ RunsMove riserRegs s t) ∧
    (r.stage = 1 → r.fails = [] →
      ∃ t, exec (.riserTestStepDone []) s = .next t ∧ { r with stage := 2 } ∈ t.bst.runs ∧ HelperMoves r.a s t) ∧
    (r.stage = 2 → r.fails = [] →
      ∃ t, exec (.riserTestStepDone []) s = .next t ∧ { r with stage := 3 } ∈ t.bst.runs ∧ RunsMove [] s t) ∧
    (r.stage = 3 → r.fails = [] →
      ∃ t, exec (.riserTestStepDone []) s = .next t ∧
        { r with stage := 4, at_ := if s.atBoundary = true then s.epoch + 1 else s.epoch + 2, pos := toPass } ∈ t.bst.runs ∧ RunsMove [] s t) ∧
    (r.stage = 4 → r.fails = [] → s.atBoundary = true → r.at_ ≤ s.epoch →
      ∃ t, exec (.riserTestStepDone []) s = .next t ∧ { r with stage := 5 } ∈ t.bst.runs ∧ RunsMove [] s t)) ∧
  ((∀ (c : Channel) (p : Nat) (s : State), s.fb F.BST_CTL_infield_en = true → s.fb F.BST_CTL_row_en = true → s.mode ≠ 3 → s.mode ≠ 4 →
    s.halted = false → 5 ≤ s.pwr.phase → s.planning c.val = true → s.periodOver (tkRow, c.val) = true →
    s.nextRow c.val 4096 (natGet s.bst.rowPtr c.val) = p → s.mayStart tkRow c.val (p / 49168) (p % 49168) = .runs →
    ∃ t n, exec (.infieldTestDue (.row c)) s = .next t ∧ t.slotOf (rowCode c.val) = some n ∧
      t.runOf tkRow c.val = some ⟨tkRow, c.val, p / 49168, p % 49168, none, 0, 0, [], 0, 0, s.nextBoundary, false, false, false⟩ ∧
      Counted F.BST_CNT_RUN_count s t ∧ natGet t.bst.rowPtr c.val = (p + 1) % (32 * 49168) ∧
      t = { s with live := t.live, larder := t.larder, bst := t.bst } ∧ StoresLarder (lineWords s (slotLine n 32)) s t ∧
      LiveBut ([R.BST_CNT_RUN, R.BST_STATUS] ++ shadowRegs) s t) ∧
  (∀ (c : Channel) (s : State) (r : TestRun) (n : Nat), s.runOf tkRow c.val = some r → s.slotOf (rowCode c.val) = some n →
    r.yielded = false → s.halted = false → s.maintFor 0 c.val = true → r.restore = false → Mild s 504 544 →
    (r.stage = 0 → r.at_ ≤ s.epoch → r.sig ≤ 31 → s.copyOf c.val r.b r.c = none →
      s.heldJob ⟨c.val, r.b, (s.userRow c.val r.b r.c).getD r.c, r.sig⟩ = none →
      ∃ t, exec (.rowTestStep c false false) s = .next t ∧
        t.runOf tkRow c.val = some (if r.sig = 31 then { r with stage := 1, sig := 0, at_ := s.epoch + 1 } else { r with sig := r.sig + 1 }) ∧
        (∀ w x errs er, w < 8 → s.erasures c.val w = [] →
          decodeWord (s.dramGet ((⟨c.val, r.b, r.c, r.sig⟩ : Loc).word w)).toNat [] = .ok x errs er →
          t.larderWord (slotLine n r.sig) w = encodeWord (BitVec.ofNat 64 x) (x.testBit 64)) ∧
        StoresLarder (lineWords s (slotLine n r.sig)) s t ∧ (t.tile c.val).maintDue = (s.tile c.val).maintDue + 1 ∧ TestWordsMove [] s t) ∧
    (r.stage = 1 → r.at_ ≤ s.epoch →
      ∃ t, exec (.rowTestStep c false false) s = .next t ∧ Restored s t r n ∧ (t.tile c.val).maintDue = (s.tile c.val).maintDue + 10 ∧
        t.runOf tkRow c.val = some (if r.pos < 31 then { r with pos := r.pos + 1 } else { r with stage := 2, at_ := s.epoch + 1 })) ∧
    (r.stage = 1 → r.at_ ≤ s.epoch → r.lb = none → s.severityOf (Src.selftest 5 (c.val / 8)) ≠ 5 → s.slotOf (heldCode (c.val, r.b, r.c)) = none →
      ∃ t, exec (.rowTestStep c false true) s = .next t ∧ (c.val, r.b, r.c) ∈ t.bst.held ∧
        t.slotOf (heldCode (c.val, r.b, r.c)) = some n ∧ (∃ x ∈ t.bst.results, x.kind = tkRow ∧ x.a = c.val ∧ x.outcome = toHeld) ∧
        StoresDram (burstWords c.val r.b r.c r.pos) s t ∧ TestWordsMove [R.BST_CNT_FAIL] s t) ∧
    (r.stage = 3 → r.at_ ≤ s.epoch + 1 →
      ∃ t, exec (.rowTestStep c false false) s = .next t ∧ Restored s t r n ∧ t.bst.runs = s.bst.runs))) ∧
  ((∀ (q : Quad) (s : State), s.runOf tkBank q.val = none → s.pwr.phase = 3 → q.val ∉ s.bst.marched →
    exec (.larderBankTestStep q [] []) s = .next { s with bst := { s.bst with marched := s.bst.marched ++ [q.val] } }) ∧
  (∀ (q : Quad) (s : State) (r : TestRun), s.runOf tkBank q.val = some r → r.yielded = false → s.halted = false →
    r.at_ ≤ s.epoch → r.fails = [] →
    (r.stage = 0 → s.atBoundary = true → r.b < 128 → s.slotOf (bankCode q.val) = none →
      ∃ t, exec (.larderBankTestStep q [] []) s = .next t ∧ (∀ l, t.serving ⟨q.val, r.b, l⟩ = ⟨q.val, 128, l⟩) ∧
        t.runOf tkBank q.val = some { r with stage := 1 } ∧
        (∀ l w x errs er, l < 2048 → w < 8 → decodeWord (s.larderGet q.val r.b l w).toNat [] = .ok x errs er →
          t.larderGet q.val 128 l w = encodeWord (BitVec.ofNat 64 x) (x.testBit 64)) ∧
        StoresLarder (fun i => ∃ b l w, (b = r.b ∨ b = 128) ∧ l < 2048 ∧ w < 8 ∧ i = larderIndex q.val b l w) s t ∧
        (Mild s 504 544 → TestWordsMove [R.LAR_SPARE_STAT q.val] s t)) ∧
    (r.stage = 1 → ∃ t, exec (.larderBankTestStep q [] []) s = .next t ∧ t.runOf tkBank q.val = some { r with stage := 2 } ∧ RunsMove [] s t) ∧
    (r.stage = 2 → ∃ t, exec (.larderBankTestStep q [] []) s = .next t ∧ RunsMove [] s t ∧
      t.runOf tkBank q.val = some { r with stage := 4, at_ := if s.atBoundary = true then s.epoch + 1 else s.epoch + 2 }) ∧
    (∀ x, r.stage = 2 → r.b < 128 → r.lb = none → s.severityOf (Src.selftest 6 q.val) ≠ 5 →
      ∃ t, exec (.larderBankTestStep q [x] []) s = .next t ∧ (q.val, r.b) ∈ t.bst.lheld ∧
        (∃ y ∈ t.bst.results, y.kind = tkBank ∧ y.a = q.val ∧ y.outcome = toHeld) ∧ TestsMove [R.BST_STATUS, R.BST_CNT_FAIL] s t))) ∧
  (∀ (c : Channel) (s : State) (r : TestRun), s.runOf tkRow c.val = some r → r.restore = false →
    (r.stage = 1 → r.yielded = false → s.mode ≠ 2 → s.fb F.BST_CTL_rt_yield = true →
      ∃ t, exec (.testYield (.row c)) s = .next t ∧ t.runOf tkRow c.val = some { r with stage := 3, at_ := s.epoch + 2 } ∧ RunsMove [] s t) ∧
    (r.yielded = true → r.at_ ≤ s.epoch →
      (∃ t, exec (.yieldRetryExpiry (.row c) true) s = .next t ∧ Counted F.BST_CNT_NEARMISS_count s t ∧
        t.runOf tkRow c.val = some { r with at_ := s.epoch + 1024 * max 1 (s.fv F.BST_YIELD_retry) } ∧ RunsMove [R.BST_CNT_NEARMISS] s t) ∧
      (s.bst.runs = [r] → s.mayStart tkRow c.val r.b r.c = .runs →
        ∃ t n, exec (.yieldRetryExpiry (.row c) false) s = .next t ∧ t.slotOf (rowCode c.val) = some n ∧
          t.runOf tkRow c.val = some ⟨tkRow, c.val, r.b, r.c, none, 0, r.pos, r.fails, 0, 0, s.nextBoundary, false, false, false⟩ ∧
          t = { s with live := t.live, larder := t.larder, bst := t.bst } ∧ StoresLarder (lineWords s (slotLine n 32)) s t ∧
          LiveBut ([R.BST_CNT_RUN, R.BST_STATUS] ++ shadowRegs) s t))) ∧
  ((∀ (e : Fin 128) (ok : Bool) (s : State) (r : TestRun), s.atBoundary = true → s.halted = false → s.runOf tkEngine e.val = some r →
    r.yielded = false → r.stage = 2 → r.at_ ≤ s.epoch →
    (ok = true → r.restore = false → r.pos = toPass → r.lb = none →
      ∃ t, exec (.unitReturnSwitch (.engine e) ok []) s = .next t ∧ r ∉ t.bst.runs ∧ Counted F.BST_CNT_PASS_count s t ∧
        r.result toPass s.epoch32 ∈ t.bst.results ∧ t = { s with live := t.live, bst := t.bst } ∧ LiveBut [R.BST_STATUS, R.BST_CNT_PASS] s t) ∧
    (ok = false → r.restore = false → r.lb = none → s.severityOf (Src.selftest 0 (e.val / 32)) ≠ 5 →
      ∃ t, exec (.unitReturnSwitch (.engine e) ok []) s = .next t ∧ r ∉ t.bst.runs ∧ EngineFails s t e.val) ∧
    (∀ n : Lb, ok = true → r.restore = true → r.lb = some n.val → (s.lb n.val).restarted = false →
      ∃ t, exec (.unitReturnSwitch (.engine e) ok []) s = .next t ∧ r ∉ t.bst.runs ∧ t.engineOut e.val = false ∧
        t.isContained (.engine e.val) = false ∧ Completes s t n.val cplOK true [] ∧
        t = { s with live := t.live, bst := { s.bst with runs := t.bst.runs }, lbs := t.lbs, links := t.links, reqs := t.reqs
                     sentTags := t.sentTags, evq := t.evq, evLost := t.evLost, flt := t.flt } ∧
        LiveBut ([R.BST_STATUS, R.BST_ENG_OUT (e.val / 32)] ++ lbRegs n.val) s t)) ∧
  (∀ (ok : Bool) (s : State) (r : TestRun), s.atBoundary = true → s.halted = false →
    s.bst.runs.find? (fun r => r.kind == tkRiser && r.stage == 5) = some r → r.a < 32 → r.fails = [] → r.pos = toPass → r.lb = none →
    r.whole = false → s.carrier r.a = 32 → s.thm.cal = none → s.thm.calQ = [] →
    ∃ t, exec (.unitReturnSwitch .riser ok []) s = .next t ∧ r ∉ t.bst.runs ∧ t.carrier r.a = r.a ∧ t.fb F.VRT_SPARE_CARRY_busy = false ∧
      Counted F.BST_CNT_PASS_count s t ∧ t = { s with live := t.live, bst := t.bst } ∧
      LiveBut ([R.BST_STATUS, R.BST_CNT_PASS] ++ riserRegs) s t) ∧
  (∀ (c : Channel) (ok : Bool) (s : State) (r : TestRun), s.atBoundary = true → s.halted = false → s.runOf tkRow c.val = some r →
    r.yielded = false → r.at_ ≤ s.epoch → r.restore = false → r.lb = none →
    (r.stage = 2 → r.fails = [] →
      ∃ t, exec (.unitReturnSwitch (.row c) ok []) s = .next t ∧ r ∉ t.bst.runs ∧ t.slotOf (rowCode c.val) = none ∧
        Counted F.BST_CNT_PASS_count s t ∧ r.result toPass s.epoch32 ∈ t.bst.results ∧ t = { s with live := t.live, bst := t.bst } ∧
        LiveBut ([R.BST_STATUS, R.BST_CNT_PASS] ++ shadowRegs) s t) ∧
    (r.stage = 3 → s.severityOf (Src.selftest 8 (testQuad tkRow c.val)) ≠ 5 →
      ∃ t, exec (.unitReturnSwitch (.row c) ok []) s = .next t ∧ t.slotOf (rowCode c.val) = none ∧ Counted F.BST_CNT_YIELD_count s t ∧
        t.runOf tkRow c.val = some { r with at_ := s.epoch + 1024 * max 1 (s.fv F.BST_YIELD_retry), stage := 0, lb := none, yielded := true } ∧
        TestsMove ([R.BST_STATUS, R.BST_CNT_YIELD] ++ shadowRegs) s t)) ∧
  (∀ (q : Quad) (s : State) (r : TestRun), s.atBoundary = true → s.halted = false → s.runOf tkBank q.val = some r →
    r.yielded = false → r.stage = 4 → r.at_ ≤ s.epoch → r.b < 128 → r.lb = none → s.slotOf (bankCode q.val) = none →
    ∃ t, exec (.unitReturnSwitch (.lbank q) true []) s = .next t ∧ r ∉ t.bst.runs ∧ t.fb (F.LAR_SPARE_STAT_active q.val) = false ∧
      (∀ l w x errs er, l < 2048 → w < 8 → decodeWord (s.larderGet q.val 128 l w).toNat [] = .ok x errs er →
        t.larderGet q.val r.b l w = encodeWord (BitVec.ofNat 64 x) (x.testBit 64)) ∧
      StoresLarder (fun i => ∃ b l w, (b = r.b ∨ b = 128) ∧ l < 2048 ∧ w < 8 ∧ i = larderIndex q.val b l w) s t ∧
      (Mild s 504 544 → Counted F.BST_CNT_PASS_count s t ∧ TestWordsMove [R.LAR_SPARE_STAT q.val, R.BST_CNT_PASS] s t)) ∧
  (∀ (s : State) (r : RemapRun), s.atBoundary = true → s.halted = false →
    s.remapRuns.find? (fun r => !r.works && decide (r.at_ ≤ s.epoch)) = some r →
    r.unmap = false → r.lb < 6 → r.ch < 32 → r.bank < 32 → r.row < userRows → r.spare < 16 → s.spareOf r.ch r.bank r.row = none →
    (s.lb r.lb).restarted = false → Mild s 504 544 →
    ∃ t, exec (.unitReturnSwitch .remap true []) s = .next t ∧ t.physRow r.ch r.bank r.row = 49152 + r.spare ∧
      (t.spareAt r.ch r.bank r.spare).since = s.epoch ∧ (∀ x ∈ t.remapRuns, x ∈ s.remapRuns ∧ x.lb ≠ r.lb) ∧
      Completes s t r.lb cplOK true (leBytes 1 r.spare ++ leBytes 2 (49152 + r.spare)) ∧
      t = { s with live := t.live, ecc := t.ecc, remapRuns := t.remapRuns, bst := t.bst, lbs := t.lbs, links := t.links, reqs := t.reqs
                   sentTags := t.sentTags, evq := t.evq, evLost := t.evLost, flt := t.flt } ∧
      (∀ d, d ≠ r.ch → t.eccOf d = s.eccOf d) ∧
      LiveBut ([R.BST_STATUS, R.ECC_STATUS r.ch, R.ECC_CNT_LOGLOST r.ch] ++ shadowRegs ++ lbRegs r.lb) s t) ∧
  (∀ (q : Quad) (s : State), s.atBoundary = true → s.halted = false → s.permDue q.val = true → s.severityOf (Src.larder 1 q.val) ≠ 5 →
    ∃ t, exec (.unitReturnSwitch (.spareBank q) true []) s = .next t ∧ t.permDue q.val = false ∧ t.fb (F.LAR_SPARE_STAT_active q.val) = true ∧
      (s.fb (F.LAR_SPARE_STAT_active q.val) = true → TestsMove [R.BST_STATUS] s t) ∧
      (s.fb (F.LAR_SPARE_STAT_active q.val) = false → t.fv (F.LAR_SPARE_STAT_bank q.val) = s.fv (F.LAR_SPARE_bank q.val) ∧
        (∀ l w x errs er, l < 2048 → w < 8 → decodeWord (s.larderGet q.val (s.fv (F.LAR_SPARE_bank q.val)) l w).toNat [] = .ok x errs er →
          t.larderGet q.val 128 l w = encodeWord (BitVec.ofNat 64 x) (x.testBit 64)) ∧
        StoresLarder (fun i => ∃ b l w, (b = s.fv (F.LAR_SPARE_bank q.val) ∨ b = 128) ∧ l < 2048 ∧ w < 8 ∧ i = larderIndex q.val b l w) s t ∧
        (Mild s 504 544 → TestWordsMove [R.LAR_SPARE_STAT q.val] s t))))

/-! ### Faults -/

/-- R422, R423, R424, R426, R428: raising a source. Off, nothing happens; else its latch keeps the first raise and counts; contain severity
holds its unit for the next boundary; fatal severity stops the device, with every link DOWN, no request left and every die refreshing
itself. -/
def Obligations.SourcesAreRaised : Prop :=
  ∀ (s : State) (src info sev : Nat), s.severityOf src = sev →
    (sev = 0 → s.raise src info = s) ∧
    (sev ≠ 0 → ∃ l, l = (s.raise src info).latch src ∧ l.severity ≠ 0 ∧ l.last = s.epoch32 ∧
      ((s.latch src).severity = 0 → l = ⟨sev, s.epoch32, s.epoch32, 1, info % 2 ^ 16⟩) ∧
      ((s.latch src).severity ≠ 0 → l.first = (s.latch src).first ∧ l.info = (s.latch src).info ∧ l.severity = (s.latch src).severity) ∧
      Counted F.FLT_CNT_RAISE_count s (s.raise src info) ∧ ∀ k, k ≠ src → (s.raise src info).latch k = s.latch k) ∧
    (sev < 5 → Reported s (s.raise src info)) ∧
    (2 ≤ sev → sev < 5 → (s.raise src info).fb F.FLT_STATUS_fault_state = true ∧ (s.raise src info).fb F.FLT_STATUS_quiet_running = true ∧
      (s.raise src info).flt.quietAt = s.absFlit) ∧
    (sev = 3 → (s.raise src info).fb F.FLT_STATUS_degraded = true) ∧
    (∀ u, sev = 4 → s.fb F.FLT_CTL_contain_en = true → containUnit src info = some u → u ∈ (s.raise src info).flt.pendContain) ∧
    (sev = 5 → (s.raise src info).halted = true ∧ (s.raise src info).reqs = [] ∧ (s.raise src info).fb F.FLT_FATAL_SRC_valid = true ∧
      (s.fb F.FLT_FATAL_SRC_valid = false → src < 1024 → (s.raise src info).fv F.FLT_FATAL_SRC_source = src) ∧
      (∀ n, n < 16 → (s.raise src info).linkState n = lsDown) ∧ (∀ d, d < 16 → natGet (s.raise src info).thm.window d ≠ 0) ∧ SameConfig s (s.raise src info) ∧ SameMemory s (s.raise src info))

/-- R424-R427, R431, R433, R434: containment and recovery. The boundary contains what waits; a written bit asks for the release of a contained unit,
and reads 1 until it comes; the quiet period's end, which no raise has met, leaves the fault state and is counted; FLT_DET_CLR clears the
latches it names, but one that is raised in the same cycle keeps that raise. -/
def Obligations.UnitsAreContainedAndReleased : Prop :=
  (∀ s : State, s.atBoundary = true →
    ∃ t, exec .containUnit s = .next t ∧ SameConfig s t ∧ SameMemory s t ∧
      (∀ n, CUnit.link n ∈ s.flt.pendContain → n < 16 → t.isContained (.link n) = true ∧
        (s.isContained (.link n) = false → t.linkState n = lsDown)) ∧
      (∀ p, CUnit.port p ∈ s.flt.pendContain → p < 64 → t.isContained (.port p) = true) ∧
      (∀ c, CUnit.tile c ∈ s.flt.pendContain → c < 32 → t.isContained (.tile c) = true) ∧
      (∀ e, CUnit.engine e ∈ s.flt.pendContain → e < 128 → t.isContained (.engine e) = true ∧
        (s.isContained (.engine e) = false → t.engineOut e = true)) ∧
      (∀ c, CUnit.core c ∈ s.flt.pendContain → t.isContained (.core c) = true ∧ (s.isContained (.core c) = false → c ∈ t.flt.cores)) ∧
      (CUnit.cellar ∈ s.flt.pendContain → t.isContained .cellar = true) ∧
      (∀ n, CUnit.letterbox n ∈ s.flt.pendContain → n < 6 → t.isContained (.letterbox n) = true) ∧
      (s.flt.pendContain = [] → t = s) ∧
      (∀ c, s.flt.pendContain = [.tile c] → t = { s with live := t.live, flt := { s.flt with pendContain := [] } } ∧
        LiveBut [R.FLT_CONTAIN_TILE] s t)) ∧
  (∀ s : State, s.atBoundary = false → exec .containUnit s = .next s) ∧
  (∀ (path : Path) (data : Word) (s : State), WriteTaken s path.val R.FLT_CONTAIN_LINK data →
    ∃ t, exec (.containRelease .link path data) s = .next t ∧ t.fv F.FLT_CONTAIN_LINK_link = s.fv F.FLT_CONTAIN_LINK_link ∧
      (∀ n, n < 16 → (CUnit.link n ∈ t.flt.pendRelease ↔ CUnit.link n ∈ s.flt.pendRelease ∨
        (data.toNat.testBit n = true ∧ s.isContained (.link n) = true ∧ CUnit.link n ∉ s.flt.pendContain))) ∧
      t = { s with live := t.live, flt := { s.flt with pendRelease := t.flt.pendRelease } } ∧ LiveBut [R.FLT_CONTAIN_LINK] s t) ∧
  (∀ s : State, s.fb F.FLT_STATUS_quiet_running = true → s.halted = false → s.flt.quietAt + s.quietPeriod ≤ s.absFlit →
    ∃ t, exec .quietPeriodExpiry s = .next t ∧ t.fb F.FLT_STATUS_quiet_running = false ∧ t.fb F.FLT_STATUS_fault_state = false ∧
      Counted F.FLT_RECOVERY_count s t ∧
      t = { s with live := t.live, evq := t.evq, evLost := t.evLost
                   flt := { s.flt with cycle := t.flt.cycle, queued := t.flt.queued, raised := t.flt.raised } } ∧
      LiveBut [R.FLT_STATUS, R.FLT_RECOVERY, R.LNK_EVT_LOST] s t) ∧
  (∀ s : State, s.fb F.FLT_STATUS_quiet_running = false ∨ s.absFlit < s.flt.quietAt + s.quietPeriod → exec .quietPeriodExpiry s = .next s) ∧
  (∀ (path : Path) (data : Word) (s : State), WriteTaken s path.val R.FLT_DET_CLR data →
    ∃ t, exec (.fltDetClr path data) s = .next t ∧
      (∀ src, (data.field 31 1 = 1 ∨ (data.field 24 1 = 1 ∧ summaryBit src = data.field 16 6) ∨ (data.field 24 1 = 0 ∧ src = data.field 0 10)) →
        ((∀ e ∈ s.flt.raised, s.flt.cycle = s.absFlit → e.1 ≠ src) → t.latch src = {}) ∧
        ∀ x, s.flt.cycle = s.absFlit → (src, x) ∈ s.flt.raised → (∀ y ∈ s.flt.raised, y.1 = src → y.2 = x) → t.latch src = x) ∧
      (∀ src, data.field 31 1 = 0 → (data.field 24 1 = 1 → summaryBit src ≠ data.field 16 6) →
        (data.field 24 1 = 0 → src ≠ data.field 0 10) → t.latch src = s.latch src) ∧
      t = { s with live := t.live, evq := t.evq, evLost := t.evLost, flt := t.flt } ∧ LiveBut (R.FLT_DET_CLR :: reportRegs) s t ∧
      ((∀ e ∈ s.flt.raised, s.flt.cycle ≠ s.absFlit) → t = { s with live := t.live, flt := t.flt } ∧ LiveBut [R.FLT_DET_CLR] s t))

/-! ### The test port -/

/-- R354, R355, R414, R415, R479, R488, R535, R356: The test port. A served instruction scans its register; one that is not acts as BYPASS; a core's
wrapper and a tier of the chain take their own instructions; REG_ACCESS and SEC make one register access and capture its code and data; a
test reset clears the port. The tier chain. A tier that the chain includes takes its instruction and scans the register it selects; a tier that the
chain bypasses keeps its own; DWR_EXTEST needs D2 in MAINTENANCE with no link OPEN, and the dies of the tier lose what they hold. -/
def Obligations.TheTestPortAndItsTiersScan : Prop :=
  ((∀ (s : State), s.tapOn = true →
    exec .idcode s = .next { s with tap := { s.tap with ir := 0x01, tdo := idcodeOf Config.version 0x9616 } } ∧
    exec .bypass s = .next { s with tap := { s.tap with ir := 0xFF, tdo := 0 } } ∧
    exec .clamp s = .next { s with tap := { s.tap with ir := 0x04, tdo := 0 } } ∧
    exec .highz s = .next { s with tap := { s.tap with ir := 0x05, tdo := 0 } } ∧
    (s.tap.wir = [] → exec (.testReset none) s = .next { s with tap := {} }) ∧
    (∀ pins data : BitVec 2452,
      exec (.samplePreload pins data) s = .next { s with tap := if s.tapLevel 1 then
        { s.tap with ir := 0x02, tdo := pins.toNat, boundary := data.toNat } else { s.tap with ir := 0x02, tdo := 0 } } ∧
      exec (.extest pins data) s = .next { s with tap := if s.tapMaint && !s.anyOpen then
        { s.tap with ir := 0x03, tdo := pins.toNat, boundary := data.toNat } else { s.tap with ir := 0x03, tdo := 0 } }) ∧
    (∀ sel : BitVec 18, exec (.tierSel sel) s = .next { s with tap := if s.tapLevel 1 then
      { s.tap with ir := 0x10, tdo := s.tap.tierSel, tierSel := sel.toNat } else { s.tap with ir := 0x10, tdo := 0 } }) ∧
    (∀ sel : BitVec 8, exec (.coreSel sel) s = .next { s with tap := if s.tapLevel 1 then
      { s.tap with ir := 0x20, tdo := s.tap.coreSel, coreSel := sel.toNat } else { s.tap with ir := 0x20, tdo := 0 } })) ∧
  (∀ (codes : List (Fin 18 × BitVec 4)) (s : State), s.tapOn = true → s.tapLevel 1 = true →
    ∃ t, exec (.tierScan codes) s = .next t ∧ t = { s with tap := t.tap, free := s.free + 1 } ∧ t.tap.ir = 0x11 ∧
      (∀ k code, (k, code) ∈ codes → (∀ x ∈ codes, x.1 = k → x.2 = code) → s.tap.tierSel.testBit k.val = true →
        t.dieIr k.val = code.toNat ∧ (k.val ∈ t.tap.extest ↔ code.toNat = 3 ∧ s.extestServed = true)) ∧
      (∀ k, s.tap.tierSel.testBit k = false → t.dieIr k = s.dieIr k ∧ (k ∈ t.tap.extest ↔ k ∈ s.tap.extest)) ∧
      t.tap = { s.tap with ir := 0x11, tdo := t.tap.tdo, dieIr := t.tap.dieIr, extest := t.tap.extest }) ∧
  (∀ (s : State) (core code pins data : Nat) (c : Instr), s.tapOn = true → s.tapLevel 1 = true → s.tap.coreSel = core → core ≤ 184 →
    s.wirServes core code = true →
    ((c, code) ∈ ([(.wsExtest pins data, 1), (.wsIntest pins data, 2), (.wsPreload pins data, 3), (.wsClamp pins data, 5)] : List (Instr × Nat)) →
      exec c s = .next { s with tap := { s.tap with ir := 0x22, tdo := pins, wir := natSet s.tap.wir core code, wbr := natSet s.tap.wbr core data } }) ∧
    (code = 0 → exec .wsBypass s = .next { s with tap := { s.tap with ir := 0x22, tdo := 0, wir := natSet s.tap.wir core 0 } }) ∧
    (s.wirOf core = code → (code = 1 ∨ code = 2 ∨ code = 3 ∨ code = 5) →
      exec (.wdrScan pins data) s = .next { s with tap := { s.tap with ir := 0x22, tdo := pins, wbr := natSet s.tap.wbr core data } }) ∧
    (∀ w : BitVec 3, w.toNat = code → code < 6 → code ≠ 4 →
      exec (.wirScan w) s = .next { s with tap := { s.tap with ir := 0x21, tdo := s.wirOf core, wir := natSet s.tap.wir core code } }) ∧
    (code = 4 → s.mayStart (lbistOf core).1 (lbistOf core).2 0 0 = .runs →
      ∃ t, exec .wsLbist s = .next t ∧ t.wirOf core = 4 ∧ Counted F.BST_CNT_RUN_count s t ∧ SameConfig s t ∧ SameMemory s t ∧
        (∃ r ∈ t.bst.runs, r.kind = (lbistOf core).1 ∧ r.a = (lbistOf core).2 ∧ r.lb = none ∧ r.stage = 0) ∧
        (core < 128 ∨ (177 ≤ core ∧ core ≤ 180) →
          t = { s with tap := t.tap, live := t.live, bst := { s.bst with runs := t.bst.runs } } ∧ LiveBut [R.BST_CNT_RUN, R.BST_STATUS] s t))) ∧
  (∀ (addr : BitVec 24) (data : Word) (late : Bool) (s u : State), s.tapOn = true →
    (u = { s with tap := { s.tap with ir := 0x30, tdo := 0 } } →
      (u.regServed false addr.toNat = true → ∃ t, exec (.regAccess false addr data late) s = .next t ∧
        t.tap.tdo = tapCapture (u.doRead 65 addr.toNat late).1 addr.toNat (u.doRead 65 addr.toNat late).2.1 ∧
        t = { (u.doRead 65 addr.toNat late).2.2 with tap := t.tap }) ∧
      (u.regServed true addr.toNat = true → u.keepFault 65 addr.toNat data late = none → ∃ t, exec (.regAccess true addr data late) s = .next t ∧
        t.tap.tdo = tapCapture (u.doWrite 65 addr.toNat data late).1 addr.toNat data ∧ t = { (u.doWrite 65 addr.toNat data late).2 with tap := t.tap }) ∧
      (∀ f, u.regServed true addr.toNat = true → u.keepFault 65 addr.toNat data late = some f →
        exec (.regAccess true addr data late) s = .fault f) ∧
      (∀ w, u.regServed w addr.toNat = false → exec (.regAccess w addr data late) s = .next u)) ∧
    (u = { s with tap := { s.tap with ir := 0x38, tdo := 0 } } →
      (s.mode = 4 → ∀ w, exec (.sec w addr data late) s =
        .next { u with tap := { u.tap with tdo := tapCapture accOK 0 (s.live.val R.SEC_STATUS) } }) ∧
      (s.mode ≠ 4 → inLb 5 (offsetOf addr.toNat) = true → ∃ t, exec (.sec false addr data late) s = .next t ∧
        t.tap.tdo = tapCapture (u.doRead 65 addr.toNat late).1 addr.toNat (u.doRead 65 addr.toNat late).2.1 ∧
        t = { (u.doRead 65 addr.toNat late).2.2 with tap := t.tap }) ∧
      (s.mode ≠ 4 → inLb 5 (offsetOf addr.toNat) = true → u.keepFault 65 addr.toNat data late = none →
        ∃ t, exec (.sec true addr data late) s = .next t ∧
          t.tap.tdo = tapCapture (u.doWrite 65 addr.toNat data late).1 addr.toNat data ∧ t = { (u.doWrite 65 addr.toNat data late).2 with tap := t.tap }) ∧
      (s.mode ≠ 4 → inLb 5 (offsetOf addr.toNat) = false → s.severityOf (Src.letterbox 5 (lbOfPath 65)) ≠ 5 → ∀ w,
        ∃ t, exec (.sec w addr data late) s = .next t ∧ t.tap.tdo = tapCapture accDENIED addr.toNat 0 ∧
          t = { s with tap := t.tap, live := t.live, evq := t.evq, evLost := t.evLost, flt := t.flt } ∧ LiveBut reportRegs s t)))) ∧
  ((∀ (tier : Fin 18) (s : State) (f : Nat → TapSt), s.tapOn = true → s.tapLevel 1 = true →
    f = (fun code =>
      { s.tap with ir := 0x11, tdo := 0, dieIr := Tab.set (fun _ => 0xF) s.tap.dieIr tier.val code
                   extest := s.tap.extest.filter (· ≠ tier.val) ++ (if code = 3 ∧ s.extestServed = true then [tier.val] else []) }) →
    (s.tap.tierSel.testBit tier.val = false → ∀ lines : BitVec 6864,
      exec (.dieIdcode tier) s = .next { s with tap := { s.tap with ir := 0x11, tdo := 0 } } ∧
      exec (.dwrSample tier lines) s = .next { s with tap := { s.tap with ir := 0x11, tdo := 0 } } ∧
      exec (.dieBypass tier) s = .next { s with tap := { s.tap with ir := 0x11, tdo := 0 } }) ∧
    (s.tap.tierSel.testBit tier.val = true →
      exec (.dieIdcode tier) s = .next { s with tap := { f 1 with tdo := idcodeOf (Config.dieVersion tier.val) (tierPart tier.val) } } ∧
      (∀ lines : BitVec 6864, exec (.dwrSample tier lines) s =
        .next { s with tap := { f 2 with tdo := lines.toNat % 2 ^ dwrLength tier.val } }) ∧
      exec (.dieBypass tier) s = .next { s with tap := f 0xF } ∧
      (∀ (addr : BitVec 23) (data : Word) (late : Bool) (u : State), inTier tier.val addr.toNat = true → u = { s with tap := f 8 } →
        (∃ t, exec (.dieReg tier false addr data late) s = .next t ∧
          t.tap.tdo = addr.toNat * 2 ^ 32 + (u.doRead 65 addr.toNat late).2.1.toNat ∧ t = { (u.doRead 65 addr.toNat late).2.2 with tap := t.tap }) ∧
        (2 ≤ s.level → s.keepFault 65 addr.toNat data late = none → ∃ t, exec (.dieReg tier true addr data late) s = .next t ∧
          t.tap.tdo = 2 ^ 55 + addr.toNat * 2 ^ 32 + data.toNat ∧ t = { (u.doWrite 65 addr.toNat data late).2 with tap := t.tap }) ∧
        (∀ x, 2 ≤ s.level → s.keepFault 65 addr.toNat data late = some x → exec (.dieReg tier true addr data late) s = .fault x)) ∧
      (∀ lines data : BitVec 6864,
        (s.tapMaint = false ∨ s.anyOpen = true → exec (.dwrExtest tier lines data) s = .next { s with tap := f 3 }) ∧
        (s.tapMaint = true → s.anyOpen = false →
          ∃ t, exec (.dwrExtest tier lines data) s = .next t ∧ t = { s with tap := t.tap, dramGen := t.dramGen, free := t.free } ∧
            t.tap = { f 3 with tdo := lines.toNat % 2 ^ dwrLength tier.val
                               dwr := natSet s.tap.dwr tier.val (data.toNat % 2 ^ dwrLength tier.val) } ∧
            ∀ c, c < 32 → if tier.val < 2 ∨ c = 2 * (tier.val - 2) ∨ c = 2 * (tier.val - 2) + 1 then s.free < natGet t.dramGen c
              else natGet t.dramGen c = natGet s.dramGen c)))))

/-! ### Modes, RETENTION, supplies, the boot phases and the resets -/

/-- R495, R496, R500: a change of mode takes effect at its boundary and not before, and its command completes; entering BALANCED sets
auto_doze and every other mode clears it. An odd link that COOL is to park gets a PARK(SLEEP) four epochs ahead when its conditions
hold, and goes to DOWN when they have not come to hold for 1,024 epochs. -/
def Obligations.ModesChangeAtBoundaries : Prop :=
  (∀ s : State, s.pwr.change = none → exec .modeChangeBoundary s = .next s) ∧
  (∀ (s : State) (c : ModeChange), s.pwr.change = some c →
    (s.atBoundary = false ∨ s.epoch < c.at_ → exec .modeChangeBoundary s = .next s) ∧
    (s.atBoundary = true → c.at_ ≤ s.epoch → c.target < 6 →
      ∃ t, exec .modeChangeBoundary s = .next t ∧ t.mode = c.target ∧ t.fv F.PWR_MODE_prev = s.mode ∧
        t.fv F.PWR_MODE_EPOCH_epoch = s.epoch % 2 ^ 32 ∧ t.fv F.PWR_MODE_pending = 0 ∧ t.pwr.change = none ∧
        Counted F.PWR_CNT_MODE_count s t ∧ SameConfig s t ∧
        (∀ l, l < 16 → t.fb (F.LNK_PM_auto_doze l) = (c.target == 1)) ∧
        (c.target ≠ 4 → SameMemory s t) ∧
        (∀ n, c.lb = some n → c.target = 4 → t.pwr.drain = some (c.at_, n)) ∧
        (∀ n, n < 6 → c.lb = some n → c.target ≠ 4 → s.Quiet → (s.lb n).restarted = false → c.cause ≠ 2 →
          Completes s t n cplOK true (leBytes 4 c.at_ ++ leBytes 1 0)) ∧
        (∀ n, n < 6 → c.lb = some n → c.target ≠ 4 → s.Quiet → (s.lb n).restarted = false → c.cause = 2 →
          Completes s t n cplOK true (leBytes 4 (s.lb n).answerEpoch ++ leBytes 1 1)))) ∧
  (∀ (l : Link) (s : State),
    (s.mode = 3 ∧ l.val ∈ s.pwr.coolLinks →
      (s.linkState l.val = lsVestibule → s.mayPark l.val = true →
        ∃ t, exec (.coolPark l) s = .next t ∧ (t.link l.val).parkOut = some ⟨5, s.epoch + 4, false, true⟩ ∧
          (t.link l.val).flits = (s.link l.val).flits ++ [(5, payload [(0, 1, 1), (1, 1, 6), (4, 1, 5), (8, 8, s.epoch + 4)])] ∧
          t = { s with links := t.links, pwr := { s.pwr with coolLinks := s.pwr.coolLinks.filter (· ≠ l.val) } } ∧ LinksBut l.val s t) ∧
      (s.linkState l.val ≠ lsVestibule ∨ s.mayPark l.val = false → exec (.coolPark l) s = .next s) ∧
      (s.pwr.coolFrom + 1024 ≤ s.epoch → ∃ t, exec (.coolParkTimeout l) s = .next t ∧ t.linkState l.val = lsDown ∧
        t.pwr = { s.pwr with coolLinks := s.pwr.coolLinks.filter (· ≠ l.val) } ∧ LinksBut l.val s t ∧ SameConfig s t ∧ SameMemory s t ∧
        LiveBut [R.LNK_STATUS l.val] s t) ∧
      (s.epoch < s.pwr.coolFrom + 1024 → exec (.coolParkTimeout l) s = .next s)) ∧
    (s.mode ≠ 3 ∨ l.val ∉ s.pwr.coolLinks → exec (.coolPark l) s = .next s ∧ exec (.coolParkTimeout l) s = .next s))

/-- R501-R503, R516: RETENTION. The drain of the entry ends when every request has completed, its MODE.SET completes and the links that
remain are parked; at its limit the mode before is to return. A wake starts the exit, or undoes the entry; the exit moves the epoch
counter on, brings the domains back and restores the exit mode. -/
def Obligations.RetentionIsEnteredAndLeft : Prop :=
  (∀ s : State, s.pwr.drain = none →
    (∀ tie, exec (.retentionDrainDone tie) s = .next s) ∧ exec .retentionDrainTimeout s = .next s) ∧
  (∀ (s : State) (b n : Nat), s.pwr.drain = some (b, n) → n < 6 →
    (∀ tie, s.reqs ≠ [] → exec (.retentionDrainDone tie) s = .next s) ∧
    (∀ tie, s.reqs = [] → s.dirtyLines (fun _ _ => true) ≠ [] → Gentle s →
      ∃ t, exec (.retentionDrainDone tie) s = .next t ∧ SameConfig s t ∧
        t = { s with live := t.live, dram := t.dram, larder := t.larder, ecc := t.ecc, vrt := t.vrt, eng := t.eng, tiles := t.tiles
                     free := t.free, evq := t.evq, evLost := t.evLost, flt := t.flt }) ∧
    (∀ tie, s.reqs = [] → s.dirtyLines (fun _ _ => true) = [] →
      (∃ c, c < 32 ∧ (s.fb (F.ENG_CTL_flush_busy c) = true ∨ (s.eccOf c).probe ≠ none)) → exec (.retentionDrainDone tie) s = .next s) ∧
    (∀ tie, s.reqs = [] → s.dirtyLines (fun _ _ => true) = [] →
      (∀ c, c < 32 → s.fb (F.ENG_CTL_flush_busy c) = false ∧ (s.eccOf c).probe = none) → (s.lb n).restarted = false → Gentle s →
      ∃ t, exec (.retentionDrainDone tie) s = .next t ∧ Completes s t n cplOK true (leBytes 4 b ++ leBytes 1 0) ∧
        t.pwr = { s.pwr with drain := none, sleepAt := some (s.epoch + 4), revert := s.fb F.PWR_WAKE_wake } ∧
        t.fb F.PWR_WAKE_wake = false ∧ SameConfig s t ∧
        (tie = true → b + s.drainLimit ≤ s.epoch → Counted F.PWR_CNT_NEARMISS_count s t) ∧
        t = { s with live := t.live, pwr := t.pwr, lbs := t.lbs, links := t.links, dram := t.dram, larder := t.larder, ecc := t.ecc
                     vrt := t.vrt, eng := t.eng, tiles := t.tiles, sentTags := t.sentTags, free := t.free, evq := t.evq
                     evLost := t.evLost, flt := t.flt } ∧
        ∀ l, l < 16 → t.linkState l = s.linkState l ∧
          (s.linkState l = lsVestibule → (t.link l).parkOut = some ⟨5, s.epoch + 4, false, true⟩ ∧
            (5, payload [(0, 1, 1), (1, 1, 6), (4, 1, 5), (8, 8, s.epoch + 4)]) ∈ (t.link l).flits)) ∧
    (s.epoch < b + s.drainLimit → exec .retentionDrainTimeout s = .next s) ∧
    (b + s.drainLimit ≤ s.epoch → s.severityOf (Src.power 0) ≠ 5 →
      ∃ t, exec .retentionDrainTimeout s = .next t ∧ t.pwr.drain = none ∧ t.fv F.PWR_MODE_target = s.fv F.PWR_MODE_prev ∧
        t.fv F.PWR_MODE_pending = 1 ∧ t.fb F.PWR_WAKE_wake = false ∧
        t = { s with live := t.live, evq := t.evq, evLost := t.evLost, flt := t.flt, pwr := { s.pwr with drain := none, change := t.pwr.change } } ∧
        LiveBut (R.PWR_WAKE :: R.PWR_MODE :: reportRegs) s t ∧
        ∃ c, t.pwr.change = some c ∧ c.target = s.fv F.PWR_MODE_prev ∧ c.lb = some n ∧ c.cause = 2 ∧
          c.at_ = if s.atBoundary then s.epoch else s.epoch + 1)) ∧
  (∀ (path : Path) (data : Word) (s : State), WriteTaken s path.val R.PWR_WAKE data →
    ∃ t, exec (.pwrWake path data) s = .next t ∧ t = { s with live := t.live, pwr := t.pwr } ∧ LiveBut [R.PWR_WAKE] s t ∧
      (data.field 0 1 = 0 ∨ s.mode ≠ 4 → t.pwr = s.pwr) ∧
      (data.field 0 1 = 1 → s.mode = 4 →
        (∀ e, s.pwr.drain = none → s.pwr.sleepAt = some e → t.pwr = { s.pwr with revert := true } ∧ t.fb F.PWR_WAKE_wake = false) ∧
        (s.pwr.drain = none → s.pwr.sleepAt = none → t.pwr = { s.pwr with exiting := true } ∧ t.fb F.PWR_WAKE_wake = false) ∧
        (s.pwr.drain ≠ none → t.pwr = s.pwr ∧ t.fb F.PWR_WAKE_wake = true))) ∧
  (∀ (elapsed us : Nat) (bad : List Tile) (s : State),
    (s.pwr.exiting = false ∨ s.asleep = false ∨ s.halted = true → exec (.retentionExitDone elapsed us bad) s = .next s) ∧
    (s.pwr.exiting = true → s.asleep = true → s.halted = false → Gentle s →
      ∃ t, exec (.retentionExitDone elapsed us bad) s = .next t ∧ t.epoch = (s.epoch + elapsed) % 2 ^ 64 ∧ t.frame = 0 ∧ t.flit = 0 ∧
        t.pwr.exiting = false ∧ t.mode = s.exitMode.1 ∧ t.fv F.PWR_MODE_prev = 4 ∧ t.fv F.PWR_RET_LAST_exit_us = min us 0xFFFF ∧
        (2000 < us → Counted F.PWR_CNT_RETSLOW_count s t) ∧ SameConfig s t ∧ t.thm.window = [] ∧
        (∀ c, c < 32 → (t.tile c).due = [] ∧ t.fb (F.SCH_STATUS_running c) = true) ∧ (∀ g, g < 32 → (t.wvGroup g).fresh = false) ∧
        (∀ d, d < 65 ∨ (81 ≤ d ∧ d < 96) → t.domain d = if s.domain d = 3 then 3 else 2) ∧
        (∀ r ∈ bad, (t.riser r.val).retrain = true ∧ (t.riser r.val).step = 0) ∧
        (∀ a, memByte t.dram a = memByte s.dram a) ∧
        (∀ a, memByte t.larder a =
          if s.fb F.PWR_RET_LAST_larder_kept = true ∨ a / (10 * 8 * 2048) % 129 < 8 then memByte s.larder a else 0) ∧
        ∀ l, l < 16 → s.linkState l = lsSleep →
          ((s.link l).waking = true → t.linkState l = lsTraining ∧ (t.link l).short = true ∧ (t.link l).waking = false) ∧
          ((s.link l).waking = false → t.linkState l = lsSleep)))

/-- R505-R509, R511-R513: supplies, the boot phases and the resets. A brown-out of VAON acts as PWROK low, and one of an array rail loses
the DRAM; a domain that fails is in FAULT with its unit out; the boot goes through its phases in order and stops when 600 ms have passed;
a cold reset leaves what is burned and the boot flash, a warm reset keeps the memories and the registers of R511; a link reset takes a
link to DOWN. -/
def Obligations.PowerBootAndResets : Prop :=
  (∀ (rail : Fin 6) (s : State),
    (rail.val = 0 → exec (.brownOut rail) s = .next { s with pwr := { s.pwr with good := false } }) ∧
    (rail.val ≠ 0 → s.severityOf (Src.power 2) ≠ 5 → ∃ t, exec (.brownOut rail) s = .next t ∧
      t = { s with live := t.live, evq := t.evq, evLost := t.evLost, flt := t.flt, dramGen := t.dramGen, free := t.free } ∧
      LiveBut reportRegs s t ∧ (s.severityOf (Src.power 2) ≠ 0 → (t.latch (Src.power 2)).severity ≠ 0) ∧
      (if rail.val = 1 ∨ rail.val = 2 then ∀ c, c < 32 → s.free < natGet t.dramGen c else t.dramGen = s.dramGen))) ∧
  (∀ (d : Fin 96) (s : State), ∃ t, exec (.domainFault d) s = .next t ∧ t.domain d.val = 3 ∧
    (∀ k, k < 96 → k ≠ d.val → t.domain k = s.domain k) ∧
    (d.val < 32 → t.fv (F.VRT_STATUS_vstate d.val) = 3) ∧ (d.val = 64 → t.fv F.VRT_SPARE_DIES_trained = 0) ∧
    (65 ≤ d.val → d.val < 81 → t.linkState (d.val - 65) = lsDown) ∧ (81 ≤ d.val → d.val < 85 → t.active.val (deadKey (d.val - 81)) = 1) ∧
    (85 ≤ d.val → d.val < 89 → d.val - 85 ∈ t.flt.cores) ∧
    (92 ≤ d.val → ∀ k, k < 4 → t.linkState (4 * (d.val - 92) + k) = lsDown ∧ 4 * (d.val - 92) + k ∈ t.bst.downLinks) ∧
    (81 ≤ d.val ∨ SameConfig s t) ∧ SameMemory s t) ∧
  (∀ s : State, (s.pwr.good = true → exec .powerGood s = .next s) ∧
    (s.pwr.good = false → ∃ t, exec .powerGood s = .next t ∧ t.fv F.CLK_STATUS_pll_lock = 0xF ∧ LiveBut [R.CLK_STATUS] s t ∧
      t = { s with live := t.live, epoch := 0, frame := 0, flit := 0, pwr := { s.pwr with good := true } })) ∧
  (∀ (fuses : List (Fin 2048 × Word × Word × Word)) (s : State),
    (s.halted = true ∨ s.pwr.good = false ∨ s.pwr.inReset = true → exec (.bootPhaseAdvance fuses) s = .next s) ∧
    (s.halted = false → s.pwr.good = true → s.pwr.inReset = false →
      (s.pwr.phase = 0 → exec (.bootPhaseAdvance fuses) s = .next { s with pwr := { s.pwr with phase := 1 } }) ∧
      (s.pwr.phase = 1 → ∃ t, exec (.bootPhaseAdvance fuses) s = .next t ∧ t.pwr.phase = 2 ∧ t.fb F.CST_STATUS_sensed = true) ∧
      (s.pwr.phase = 3 → s.bst.bootQuads ≠ 4 ∨ s.bst.marched.length < 4 → exec (.bootPhaseAdvance fuses) s = .next s) ∧
      (s.pwr.phase = 3 → s.bst.bootQuads = 4 → 4 ≤ s.bst.marched.length →
        ∃ t, exec (.bootPhaseAdvance fuses) s = .next t ∧ t.pwr.phase = 4 ∧ SameConfig s t ∧ SameMemory s t) ∧
      (s.pwr.phase = 4 → s.risersDone = false ∨ (s.pwr.filled = false ∧ s.mustFill = true) → exec (.bootPhaseAdvance fuses) s = .next s) ∧
      (s.pwr.phase = 4 → s.risersDone = true → s.pwr.filled = true ∨ s.mustFill = false → ∃ t, exec (.bootPhaseAdvance fuses) s = .next t ∧
        t.pwr.phase = (if s.isLimited then 0x0E else 5) ∧ t.fb F.BST_STATUS_boot_done = true ∧ (Gentle s → t.thm.window = []) ∧
        ∀ c, c < 32 → t.fb (F.SCH_STATUS_running c) = true) ∧
      (s.pwr.phase = 5 → ∃ t, exec (.bootPhaseAdvance fuses) s = .next t ∧
        t.pwr.phase = (if s.fb F.CFG_STATUS_committed then 7
          else if (List.range 16).any fun n => s.linkState n == lsVestibule then 6 else 5)) ∧
      (s.pwr.phase = 2 ∨ 6 ≤ s.pwr.phase → exec (.bootPhaseAdvance fuses) s = .next s))) ∧
  (∀ s : State,
    (s.pwr.good = true → s.pwr.inReset = false → s.pwr.phase ≤ 5 → 600 ≤ s.ms →
      exec .bootTimeout s = .next { s with pwr := { s.pwr with phase := 0x0F, haltPhase := s.pwr.phase } }) ∧
    (s.pwr.good = false ∨ s.pwr.inReset = true ∨ 5 < s.pwr.phase ∨ s.ms < 600 → exec .bootTimeout s = .next s)) ∧
  (∀ s : State, ∃ t, exec .coldReset s = .next t ∧ t.cst = { ({} : CstSt) with fuse := s.cst.fuse, unusable := s.cst.unusable } ∧
    t.sec = { ({} : SecSt) with flash := s.sec.flash } ∧ (∀ c, c < 32 → s.free < natGet t.dramGen c) ∧
    t = { State.reset with pending := s.pending, free := t.free, cst := t.cst, sec := t.sec, dramGen := t.dramGen, larGen := t.larGen }) ∧
  (∀ s : State,
    (s.pwr.good = false → exec .warmReset s = .next s) ∧
    (s.pwr.good = true → s.Canonical → s.bst.held = [] →
      ∃ t, exec .warmReset s = .next t ∧ SameMemory s t ∧ t.dramGen = s.dramGen ∧ t.pwr.inReset = true ∧ t.pwr.good = true ∧
        t.pwr.phase = 0 ∧ Counted F.PWR_CNT_WARM_count s t ∧ t.fv F.PWR_STATUS_reset_cause = 1 ∧ t.links = [] ∧ t.reqs = [] ∧ t.lbs = [] ∧
        t.session = none ∧ t.cst.fuse = s.cst.fuse ∧ t.sec.flash = s.sec.flash ∧ t.epoch = s.epoch ∧ t.frame = s.frame ∧ t.flit = s.flit ∧
        (∀ d, d < 96 → s.domain d = 3 → t.domain d = 3) ∧
        t.bst.lheld = s.bst.lheld ∧
        (s.fb F.CST_STATUS_sensed = false → t.halted = s.fb F.THM_SHUT_tripped ∧ t.thm.wv = s.thm.wv ∧ t.staged = [] ∧ t.active = [] ∧ ∀ a, a ∉ [R.CLK_STATUS, R.PWR_STATUS, R.PWR_CNT_WARM] →
          (∀ i, i < 6 → a ≠ R.PWR_DOM i) → ∀ k, k = warmKeeps (s.bst.lheld.map (·.1)) a →
            t.live.val a = (s.live.val a &&& k) ||| (regReset a &&& ~~~k))) ∧
    (s.pwr.inReset = true → s.pwr.good = true → exec .warmResetRelease s =
      .next { s with pwr := { s.pwr with inReset := false, phase := if s.fb F.CST_STATUS_sensed then 2 else 1 } }) ∧
    (s.pwr.inReset = false ∨ s.pwr.good = false → exec .warmResetRelease s = .next s)) ∧
  (∀ (path : Path) (data : Word) (s : State), WriteTaken s path.val R.PWR_LRST data →
    ∃ t, exec (.linkReset path data) s = .next t ∧
      t = { s with live := t.live, links := t.links, reqs := t.reqs, sentTags := t.sentTags, gate := t.gate, tiles := t.tiles } ∧
      LiveBut (R.PWR_LRST :: R.PWR_CNT_LRST :: (List.range 16).map R.LNK_STATUS) s t ∧
      ∀ l, l < 16 → if data.toNat.testBit l then
          t.linkState l = lsDown ∧ (t.link l).hist = [] ∧ (t.link l).frozen = none ∧ (t.link l).backoff = true ∧ ∀ r ∈ t.reqs, r.link = l → r.discard = true
        else t.link l = s.link l ∧ t.linkState l = s.linkState l)

/-! ### The gate's order, and the replay timer's tie -/

/-- R73, R89: a header whose tag is busy is deferred with no effect, and with memory rights it is counted as a duplicate tag of its port. A
FENCE that is deferred marks its port for the rest of the frame, and every later header of a marked port in that frame is deferred. -/
def Obligations.BusyTagsAndFencesDefer : Prop :=
  ∀ (l : Link) (s : State) (pos w p : Nat) (rest : List (Nat × Nat)), s.linkState l.val = lsOpen → (s.link l.val).hdrs = (pos, w) :: rest →
    p = 4 * l.val + (Hdr.ofNat w).sub → s.severityOf (Src.port 1 (p / 16)) ≠ 5 →
    ∃ t, exec (.requestHeader l) s = .next t ∧ (∀ k ∈ (s.link l.val).fenced, k ∈ (t.link l.val).fenced) ∧
      (s.tagBusy p (Hdr.ofNat w).tag = true →
        t.reqs = s.reqs ∧ (t.link l.val).vec = (s.link l.val).vec ||| BitVec.ofNat 16 (1 <<< pos) ∧
        t = { s with links := t.links, live := t.live, evq := t.evq, evLost := t.evLost, flt := t.flt } ∧
        (s.memRights p = true → Counted (F.PRT_CNT_DEF_TAG_count p) s t)) ∧
      ((Hdr.ofNat w).op = opFENCE → t.reqs = s.reqs → p ∈ (t.link l.val).fenced) ∧
      (p ∈ (s.link l.val).fenced →
        t.reqs = s.reqs ∧ (t.link l.val).vec = (s.link l.val).vec ||| BitVec.ofNat 16 (1 <<< pos) ∧
        (s.memRights p = true → s.tagBusy p (Hdr.ofNat w).tag = false → Counted (F.PRT_CNT_DEF_FENCE_count p) s t))

/-- R40, R41: the replay timer of the oldest held flit expires in the flit in which an ack that covers it arrives: the ack takes effect, no
replay takes place, and the timeout is counted nowhere but in LNK_CNT_NEARMISS; before the timer has run out nothing happens. -/
def Obligations.AnAckBeatsTheReplayTimer : Prop :=
  ∀ (l : Link) (s : State) (h : HeldFlit) (hs : List HeldFlit), s.linkTalks l.val = true → (s.link l.val).held = h :: hs →
    ((s.link l.val).clock < h.since + s.replayTimer l.val → ∀ tie, exec (.replayTimeout l tie) s = .next s) ∧
    (h.since + s.replayTimer l.val ≤ (s.link l.val).clock →
      ∃ t, exec (.replayTimeout l true) s = .next t ∧ Counted (F.LNK_CNT_NEARMISS_count l.val) s t ∧
        (t.link l.val).flits = hs.map (fun x => (x.typ, x.data)) ++ (s.link l.val).out.map (fun f => (f.typ, f.data)) ∧
        (t.link l.val).replayQ = (s.link l.val).replayQ.filter (fun x => x.seq != h.seq) ∧
        (t.link l.val).replayRun = (s.link l.val).replayRun ∧ t.linkState l.val = s.linkState l.val ∧
        LinkMoves l.val [R.LNK_CNT_NEARMISS l.val] s t)

/-! ### The block as a whole -/

/-- A step runs the command at the front of the queue on the state with the queue's rest (log 4). -/
def Obligations.AStepRunsTheFrontCommand : Prop :=
  ∀ (c : Instr) (rest : List Instr) (s : State), s.pending = c :: rest → step s = exec c { s with pending := rest }

/-- R7, R10, R26: with no command waiting, one flit passes: after flit 7 the frame's next begins, with every header of an OPEN link decided;
time waits at the end of an epoch for its boundary; the decision lanes fall back to 0 after flit 0. Asleep, or without PWROK, nothing moves.
That a step on an empty queue is one flit is the model's choice (log 3). -/
def Obligations.TimePassesWhileIdle : Prop :=
  ∀ s : State, s.pending = [] →
    (s.asleep = true ∨ s.pwr.good = false → step s = .next s) ∧
    (s.asleep = false → s.pwr.good = true →
      ∃ t, step s = .next t ∧
        (s.flit < 7 → t.flit = s.flit + 1 ∧ t.frame = s.frame) ∧
        (7 ≤ s.flit → s.frame < 7 → t.flit = 0 ∧ t.frame = s.frame + 1) ∧
        (7 ≤ s.flit → 7 ≤ s.frame → t = s) ∧
        t.epoch = s.epoch ∧ t.pending = [] ∧ SameConfig s t ∧ t.session = s.session ∧ t.lbs = s.lbs ∧ t.pwr = s.pwr ∧ t.cst = s.cst ∧
        t.sec = s.sec ∧ t.tap = s.tap ∧
        (s.flit = 0 → ∀ l, l < 16 → (t.link l).lanes = 0 ∧ (t.link l).complement = none) ∧
        (s.flit = 7 → s.frame < 7 → ∀ l, l < 16 → s.linkState l = lsOpen → (t.link l).hdrs = [] ∧
          ((s.link l).woken = false → (s.link l).complement = none → ∀ r ∈ t.reqs, r.link = l → r.tentative = false)) ∧
        (s.flit < 7 → t.lar.host = [] ∧ t.lar.eng = []) ∧
        (Gentle s → s.flit < 7 → ∀ l, l < 16 → s.linkTalks l = true →
          (t.link l).clock = (s.link l).clock + 1 ∧ t.linkState l = s.linkState l))

/-- R497, R511: the state after reset: no command waits, the mode reads BALANCED, every link is in DOWN, no request is outstanding,
nothing is stored, and the state is sound. What registers without a stated reset value hold is the model's choice (log 2). -/
def Obligations.ResetIsSound : Prop :=
  State.reset.Canonical ∧ State.reset.InTime ∧ State.reset.pending = [] ∧ State.reset.mode = 1 ∧
  (∀ l, l < 16 → State.reset.linkState l = lsDown) ∧ State.reset.reqs = [] ∧ State.reset.dram = [] ∧ State.reset.larder = [] ∧
  State.reset.epoch = 0 ∧ ∀ r, r < 33 → State.reset.fv (F.VRT_STATUS_vstate r) = 0

/-- Every step keeps both memories and the three register maps in canonical form, so that equal contents are equal data (log 1, log 2). -/
def Obligations.EveryStepKeepsTheStateCanonical : Prop :=
  ∀ s t : State, s.Canonical → step s = .next t → t.Canonical

/-- R7: every step keeps the time base within its epoch: 8 frames of 8 flits. -/
def Obligations.EveryStepKeepsTheTimeBase : Prop :=
  ∀ s t : State, s.InTime → step s = .next t → t.InTime
end

