-- ==== Sys2Proof/Laws/State.lean ====
section
/-! SUPPORT. What each update of the state leaves alone: one lemma for each field and update. -/

namespace Sys2Proof.Machine

variable (s : State)

/-! ### `State.setF` -/

@[simp] theorem State.setF_pending (f : Fld) (v : Nat) : (s.setF f v).pending = s.pending := by unfold State.setF; split <;> rfl
@[simp] theorem State.setF_epoch (f : Fld) (v : Nat) : (s.setF f v).epoch = s.epoch := by unfold State.setF; split <;> rfl
@[simp] theorem State.setF_frame (f : Fld) (v : Nat) : (s.setF f v).frame = s.frame := by unfold State.setF; split <;> rfl
@[simp] theorem State.setF_flit (f : Fld) (v : Nat) : (s.setF f v).flit = s.flit := by unfold State.setF; split <;> rfl
@[simp] theorem State.setF_free (f : Fld) (v : Nat) : (s.setF f v).free = s.free := by unfold State.setF; split <;> rfl
@[simp] theorem State.setF_dram (f : Fld) (v : Nat) : (s.setF f v).dram = s.dram := by unfold State.setF; split <;> rfl
@[simp] theorem State.setF_larder (f : Fld) (v : Nat) : (s.setF f v).larder = s.larder := by unfold State.setF; split <;> rfl
@[simp] theorem State.setF_staged (f : Fld) (v : Nat) : (s.setF f v).staged = s.staged := by unfold State.setF; split <;> rfl
@[simp] theorem State.setF_links (f : Fld) (v : Nat) : (s.setF f v).links = s.links := by unfold State.setF; split <;> rfl
@[simp] theorem State.setF_evq (f : Fld) (v : Nat) : (s.setF f v).evq = s.evq := by unfold State.setF; split <;> rfl
@[simp] theorem State.setF_evLost (f : Fld) (v : Nat) : (s.setF f v).evLost = s.evLost := by unfold State.setF; split <;> rfl
@[simp] theorem State.setF_reqs (f : Fld) (v : Nat) : (s.setF f v).reqs = s.reqs := by unfold State.setF; split <;> rfl
@[simp] theorem State.setF_sentTags (f : Fld) (v : Nat) : (s.setF f v).sentTags = s.sentTags := by unfold State.setF; split <;> rfl
@[simp] theorem State.setF_gate (f : Fld) (v : Nat) : (s.setF f v).gate = s.gate := by unfold State.setF; split <;> rfl
@[simp] theorem State.setF_tiles (f : Fld) (v : Nat) : (s.setF f v).tiles = s.tiles := by unfold State.setF; split <;> rfl
@[simp] theorem State.setF_lbs (f : Fld) (v : Nat) : (s.setF f v).lbs = s.lbs := by unfold State.setF; split <;> rfl
@[simp] theorem State.setF_session (f : Fld) (v : Nat) : (s.setF f v).session = s.session := by unfold State.setF; split <;> rfl
@[simp] theorem State.setF_votes (f : Fld) (v : Nat) : (s.setF f v).votes = s.votes := by unfold State.setF; split <;> rfl
@[simp] theorem State.setF_cfgBad (f : Fld) (v : Nat) : (s.setF f v).cfgBad = s.cfgBad := by unfold State.setF; split <;> rfl
@[simp] theorem State.setF_planId (f : Fld) (v : Nat) : (s.setF f v).planId = s.planId := by unfold State.setF; split <;> rfl
@[simp] theorem State.setF_flt (f : Fld) (v : Nat) : (s.setF f v).flt = s.flt := by unfold State.setF; split <;> rfl
@[simp] theorem State.setF_detFrom (f : Fld) (v : Nat) : (s.setF f v).detFrom = s.detFrom := by unfold State.setF; split <;> rfl
@[simp] theorem State.setF_halted (f : Fld) (v : Nat) : (s.setF f v).halted = s.halted := by unfold State.setF; split <;> rfl
@[simp] theorem State.setF_cst (f : Fld) (v : Nat) : (s.setF f v).cst = s.cst := by unfold State.setF; split <;> rfl
@[simp] theorem State.setF_pwr (f : Fld) (v : Nat) : (s.setF f v).pwr = s.pwr := by unfold State.setF; split <;> rfl
@[simp] theorem State.setF_ecc (f : Fld) (v : Nat) : (s.setF f v).ecc = s.ecc := by unfold State.setF; split <;> rfl
@[simp] theorem State.setF_log (f : Fld) (v : Nat) : (s.setF f v).log = s.log := by unfold State.setF; split <;> rfl
@[simp] theorem State.setF_eng (f : Fld) (v : Nat) : (s.setF f v).eng = s.eng := by unfold State.setF; split <;> rfl
@[simp] theorem State.setF_larGen (f : Fld) (v : Nat) : (s.setF f v).larGen = s.larGen := by unfold State.setF; split <;> rfl
@[simp] theorem State.setF_dramGen (f : Fld) (v : Nat) : (s.setF f v).dramGen = s.dramGen := by unfold State.setF; split <;> rfl
@[simp] theorem State.setF_lar (f : Fld) (v : Nat) : (s.setF f v).lar = s.lar := by unfold State.setF; split <;> rfl
@[simp] theorem State.setF_cel (f : Fld) (v : Nat) : (s.setF f v).cel = s.cel := by unfold State.setF; split <;> rfl
@[simp] theorem State.setF_sec (f : Fld) (v : Nat) : (s.setF f v).sec = s.sec := by unfold State.setF; split <;> rfl
@[simp] theorem State.setF_snapAt (f : Fld) (v : Nat) : (s.setF f v).snapAt = s.snapAt := by unfold State.setF; split <;> rfl
@[simp] theorem State.setF_sbOut (f : Fld) (v : Nat) : (s.setF f v).sbOut = s.sbOut := by unfold State.setF; split <;> rfl
@[simp] theorem State.setF_plan (f : Fld) (v : Nat) : (s.setF f v).plan = s.plan := by unfold State.setF; split <;> rfl
@[simp] theorem State.setF_planChunks (f : Fld) (v : Nat) : (s.setF f v).planChunks = s.planChunks := by unfold State.setF; split <;> rfl
@[simp] theorem State.setF_vrt (f : Fld) (v : Nat) : (s.setF f v).vrt = s.vrt := by unfold State.setF; split <;> rfl
@[simp] theorem State.setF_clk (f : Fld) (v : Nat) : (s.setF f v).clk = s.clk := by unfold State.setF; split <;> rfl
@[simp] theorem State.setF_thm (f : Fld) (v : Nat) : (s.setF f v).thm = s.thm := by unfold State.setF; split <;> rfl
@[simp] theorem State.setF_bst (f : Fld) (v : Nat) : (s.setF f v).bst = s.bst := by unfold State.setF; split <;> rfl
@[simp] theorem State.setF_remapRuns (f : Fld) (v : Nat) : (s.setF f v).remapRuns = s.remapRuns := by unfold State.setF; split <;> rfl
@[simp] theorem State.setF_tap (f : Fld) (v : Nat) : (s.setF f v).tap = s.tap := by unfold State.setF; split <;> rfl

/-! ### `State.addF` -/

@[simp] theorem State.addF_pending (f : Fld) (v : Nat) : (s.addF f v).pending = s.pending := State.setF_pending s _ _
@[simp] theorem State.addF_epoch (f : Fld) (v : Nat) : (s.addF f v).epoch = s.epoch := State.setF_epoch s _ _
@[simp] theorem State.addF_frame (f : Fld) (v : Nat) : (s.addF f v).frame = s.frame := State.setF_frame s _ _
@[simp] theorem State.addF_flit (f : Fld) (v : Nat) : (s.addF f v).flit = s.flit := State.setF_flit s _ _
@[simp] theorem State.addF_free (f : Fld) (v : Nat) : (s.addF f v).free = s.free := State.setF_free s _ _
@[simp] theorem State.addF_dram (f : Fld) (v : Nat) : (s.addF f v).dram = s.dram := State.setF_dram s _ _
@[simp] theorem State.addF_larder (f : Fld) (v : Nat) : (s.addF f v).larder = s.larder := State.setF_larder s _ _
@[simp] theorem State.addF_staged (f : Fld) (v : Nat) : (s.addF f v).staged = s.staged := State.setF_staged s _ _
@[simp] theorem State.addF_links (f : Fld) (v : Nat) : (s.addF f v).links = s.links := State.setF_links s _ _
@[simp] theorem State.addF_evq (f : Fld) (v : Nat) : (s.addF f v).evq = s.evq := State.setF_evq s _ _
@[simp] theorem State.addF_evLost (f : Fld) (v : Nat) : (s.addF f v).evLost = s.evLost := State.setF_evLost s _ _
@[simp] theorem State.addF_reqs (f : Fld) (v : Nat) : (s.addF f v).reqs = s.reqs := State.setF_reqs s _ _
@[simp] theorem State.addF_sentTags (f : Fld) (v : Nat) : (s.addF f v).sentTags = s.sentTags := State.setF_sentTags s _ _
@[simp] theorem State.addF_gate (f : Fld) (v : Nat) : (s.addF f v).gate = s.gate := State.setF_gate s _ _
@[simp] theorem State.addF_tiles (f : Fld) (v : Nat) : (s.addF f v).tiles = s.tiles := State.setF_tiles s _ _
@[simp] theorem State.addF_lbs (f : Fld) (v : Nat) : (s.addF f v).lbs = s.lbs := State.setF_lbs s _ _
@[simp] theorem State.addF_session (f : Fld) (v : Nat) : (s.addF f v).session = s.session := State.setF_session s _ _
@[simp] theorem State.addF_votes (f : Fld) (v : Nat) : (s.addF f v).votes = s.votes := State.setF_votes s _ _
@[simp] theorem State.addF_cfgBad (f : Fld) (v : Nat) : (s.addF f v).cfgBad = s.cfgBad := State.setF_cfgBad s _ _
@[simp] theorem State.addF_planId (f : Fld) (v : Nat) : (s.addF f v).planId = s.planId := State.setF_planId s _ _
@[simp] theorem State.addF_flt (f : Fld) (v : Nat) : (s.addF f v).flt = s.flt := State.setF_flt s _ _
@[simp] theorem State.addF_detFrom (f : Fld) (v : Nat) : (s.addF f v).detFrom = s.detFrom := State.setF_detFrom s _ _
@[simp] theorem State.addF_halted (f : Fld) (v : Nat) : (s.addF f v).halted = s.halted := State.setF_halted s _ _
@[simp] theorem State.addF_cst (f : Fld) (v : Nat) : (s.addF f v).cst = s.cst := State.setF_cst s _ _
@[simp] theorem State.addF_pwr (f : Fld) (v : Nat) : (s.addF f v).pwr = s.pwr := State.setF_pwr s _ _
@[simp] theorem State.addF_ecc (f : Fld) (v : Nat) : (s.addF f v).ecc = s.ecc := State.setF_ecc s _ _
@[simp] theorem State.addF_log (f : Fld) (v : Nat) : (s.addF f v).log = s.log := State.setF_log s _ _
@[simp] theorem State.addF_eng (f : Fld) (v : Nat) : (s.addF f v).eng = s.eng := State.setF_eng s _ _
@[simp] theorem State.addF_larGen (f : Fld) (v : Nat) : (s.addF f v).larGen = s.larGen := State.setF_larGen s _ _
@[simp] theorem State.addF_dramGen (f : Fld) (v : Nat) : (s.addF f v).dramGen = s.dramGen := State.setF_dramGen s _ _
@[simp] theorem State.addF_lar (f : Fld) (v : Nat) : (s.addF f v).lar = s.lar := State.setF_lar s _ _
@[simp] theorem State.addF_cel (f : Fld) (v : Nat) : (s.addF f v).cel = s.cel := State.setF_cel s _ _
@[simp] theorem State.addF_sec (f : Fld) (v : Nat) : (s.addF f v).sec = s.sec := State.setF_sec s _ _
@[simp] theorem State.addF_snapAt (f : Fld) (v : Nat) : (s.addF f v).snapAt = s.snapAt := State.setF_snapAt s _ _
@[simp] theorem State.addF_sbOut (f : Fld) (v : Nat) : (s.addF f v).sbOut = s.sbOut := State.setF_sbOut s _ _
@[simp] theorem State.addF_plan (f : Fld) (v : Nat) : (s.addF f v).plan = s.plan := State.setF_plan s _ _
@[simp] theorem State.addF_planChunks (f : Fld) (v : Nat) : (s.addF f v).planChunks = s.planChunks := State.setF_planChunks s _ _
@[simp] theorem State.addF_vrt (f : Fld) (v : Nat) : (s.addF f v).vrt = s.vrt := State.setF_vrt s _ _
@[simp] theorem State.addF_clk (f : Fld) (v : Nat) : (s.addF f v).clk = s.clk := State.setF_clk s _ _
@[simp] theorem State.addF_thm (f : Fld) (v : Nat) : (s.addF f v).thm = s.thm := State.setF_thm s _ _
@[simp] theorem State.addF_bst (f : Fld) (v : Nat) : (s.addF f v).bst = s.bst := State.setF_bst s _ _
@[simp] theorem State.addF_remapRuns (f : Fld) (v : Nat) : (s.addF f v).remapRuns = s.remapRuns := State.setF_remapRuns s _ _
@[simp] theorem State.addF_tap (f : Fld) (v : Nat) : (s.addF f v).tap = s.tap := State.setF_tap s _ _

/-! ### `State.inc` -/

@[simp] theorem State.inc_pending (f : Fld) : (s.inc f).pending = s.pending := State.addF_pending s _ _
@[simp] theorem State.inc_epoch (f : Fld) : (s.inc f).epoch = s.epoch := State.addF_epoch s _ _
@[simp] theorem State.inc_frame (f : Fld) : (s.inc f).frame = s.frame := State.addF_frame s _ _
@[simp] theorem State.inc_flit (f : Fld) : (s.inc f).flit = s.flit := State.addF_flit s _ _
@[simp] theorem State.inc_free (f : Fld) : (s.inc f).free = s.free := State.addF_free s _ _
@[simp] theorem State.inc_dram (f : Fld) : (s.inc f).dram = s.dram := State.addF_dram s _ _
@[simp] theorem State.inc_larder (f : Fld) : (s.inc f).larder = s.larder := State.addF_larder s _ _
@[simp] theorem State.inc_staged (f : Fld) : (s.inc f).staged = s.staged := State.addF_staged s _ _
@[simp] theorem State.inc_links (f : Fld) : (s.inc f).links = s.links := State.addF_links s _ _
@[simp] theorem State.inc_evq (f : Fld) : (s.inc f).evq = s.evq := State.addF_evq s _ _
@[simp] theorem State.inc_evLost (f : Fld) : (s.inc f).evLost = s.evLost := State.addF_evLost s _ _
@[simp] theorem State.inc_reqs (f : Fld) : (s.inc f).reqs = s.reqs := State.addF_reqs s _ _
@[simp] theorem State.inc_sentTags (f : Fld) : (s.inc f).sentTags = s.sentTags := State.addF_sentTags s _ _
@[simp] theorem State.inc_gate (f : Fld) : (s.inc f).gate = s.gate := State.addF_gate s _ _
@[simp] theorem State.inc_tiles (f : Fld) : (s.inc f).tiles = s.tiles := State.addF_tiles s _ _
@[simp] theorem State.inc_lbs (f : Fld) : (s.inc f).lbs = s.lbs := State.addF_lbs s _ _
@[simp] theorem State.inc_session (f : Fld) : (s.inc f).session = s.session := State.addF_session s _ _
@[simp] theorem State.inc_votes (f : Fld) : (s.inc f).votes = s.votes := State.addF_votes s _ _
@[simp] theorem State.inc_cfgBad (f : Fld) : (s.inc f).cfgBad = s.cfgBad := State.addF_cfgBad s _ _
@[simp] theorem State.inc_planId (f : Fld) : (s.inc f).planId = s.planId := State.addF_planId s _ _
@[simp] theorem State.inc_flt (f : Fld) : (s.inc f).flt = s.flt := State.addF_flt s _ _
@[simp] theorem State.inc_detFrom (f : Fld) : (s.inc f).detFrom = s.detFrom := State.addF_detFrom s _ _
@[simp] theorem State.inc_halted (f : Fld) : (s.inc f).halted = s.halted := State.addF_halted s _ _
@[simp] theorem State.inc_cst (f : Fld) : (s.inc f).cst = s.cst := State.addF_cst s _ _
@[simp] theorem State.inc_pwr (f : Fld) : (s.inc f).pwr = s.pwr := State.addF_pwr s _ _
@[simp] theorem State.inc_ecc (f : Fld) : (s.inc f).ecc = s.ecc := State.addF_ecc s _ _
@[simp] theorem State.inc_log (f : Fld) : (s.inc f).log = s.log := State.addF_log s _ _
@[simp] theorem State.inc_eng (f : Fld) : (s.inc f).eng = s.eng := State.addF_eng s _ _
@[simp] theorem State.inc_larGen (f : Fld) : (s.inc f).larGen = s.larGen := State.addF_larGen s _ _
@[simp] theorem State.inc_dramGen (f : Fld) : (s.inc f).dramGen = s.dramGen := State.addF_dramGen s _ _
@[simp] theorem State.inc_lar (f : Fld) : (s.inc f).lar = s.lar := State.addF_lar s _ _
@[simp] theorem State.inc_cel (f : Fld) : (s.inc f).cel = s.cel := State.addF_cel s _ _
@[simp] theorem State.inc_sec (f : Fld) : (s.inc f).sec = s.sec := State.addF_sec s _ _
@[simp] theorem State.inc_snapAt (f : Fld) : (s.inc f).snapAt = s.snapAt := State.addF_snapAt s _ _
@[simp] theorem State.inc_sbOut (f : Fld) : (s.inc f).sbOut = s.sbOut := State.addF_sbOut s _ _
@[simp] theorem State.inc_plan (f : Fld) : (s.inc f).plan = s.plan := State.addF_plan s _ _
@[simp] theorem State.inc_planChunks (f : Fld) : (s.inc f).planChunks = s.planChunks := State.addF_planChunks s _ _
@[simp] theorem State.inc_vrt (f : Fld) : (s.inc f).vrt = s.vrt := State.addF_vrt s _ _
@[simp] theorem State.inc_clk (f : Fld) : (s.inc f).clk = s.clk := State.addF_clk s _ _
@[simp] theorem State.inc_thm (f : Fld) : (s.inc f).thm = s.thm := State.addF_thm s _ _
@[simp] theorem State.inc_bst (f : Fld) : (s.inc f).bst = s.bst := State.addF_bst s _ _
@[simp] theorem State.inc_remapRuns (f : Fld) : (s.inc f).remapRuns = s.remapRuns := State.addF_remapRuns s _ _
@[simp] theorem State.inc_tap (f : Fld) : (s.inc f).tap = s.tap := State.addF_tap s _ _

/-! ### `State.setStagedF` -/

@[simp] theorem State.setStagedF_pending (f : Fld) (v : Nat) : (s.setStagedF f v).pending = s.pending := rfl
@[simp] theorem State.setStagedF_epoch (f : Fld) (v : Nat) : (s.setStagedF f v).epoch = s.epoch := rfl
@[simp] theorem State.setStagedF_frame (f : Fld) (v : Nat) : (s.setStagedF f v).frame = s.frame := rfl
@[simp] theorem State.setStagedF_flit (f : Fld) (v : Nat) : (s.setStagedF f v).flit = s.flit := rfl
@[simp] theorem State.setStagedF_free (f : Fld) (v : Nat) : (s.setStagedF f v).free = s.free := rfl
@[simp] theorem State.setStagedF_dram (f : Fld) (v : Nat) : (s.setStagedF f v).dram = s.dram := rfl
@[simp] theorem State.setStagedF_larder (f : Fld) (v : Nat) : (s.setStagedF f v).larder = s.larder := rfl
@[simp] theorem State.setStagedF_active (f : Fld) (v : Nat) : (s.setStagedF f v).active = s.active := rfl
@[simp] theorem State.setStagedF_live (f : Fld) (v : Nat) : (s.setStagedF f v).live = s.live := rfl
@[simp] theorem State.setStagedF_links (f : Fld) (v : Nat) : (s.setStagedF f v).links = s.links := rfl
@[simp] theorem State.setStagedF_evq (f : Fld) (v : Nat) : (s.setStagedF f v).evq = s.evq := rfl
@[simp] theorem State.setStagedF_evLost (f : Fld) (v : Nat) : (s.setStagedF f v).evLost = s.evLost := rfl
@[simp] theorem State.setStagedF_reqs (f : Fld) (v : Nat) : (s.setStagedF f v).reqs = s.reqs := rfl
@[simp] theorem State.setStagedF_sentTags (f : Fld) (v : Nat) : (s.setStagedF f v).sentTags = s.sentTags := rfl
@[simp] theorem State.setStagedF_gate (f : Fld) (v : Nat) : (s.setStagedF f v).gate = s.gate := rfl
@[simp] theorem State.setStagedF_tiles (f : Fld) (v : Nat) : (s.setStagedF f v).tiles = s.tiles := rfl
@[simp] theorem State.setStagedF_lbs (f : Fld) (v : Nat) : (s.setStagedF f v).lbs = s.lbs := rfl
@[simp] theorem State.setStagedF_session (f : Fld) (v : Nat) : (s.setStagedF f v).session = s.session := rfl
@[simp] theorem State.setStagedF_votes (f : Fld) (v : Nat) : (s.setStagedF f v).votes = s.votes := rfl
@[simp] theorem State.setStagedF_cfgBad (f : Fld) (v : Nat) : (s.setStagedF f v).cfgBad = s.cfgBad := rfl
@[simp] theorem State.setStagedF_planId (f : Fld) (v : Nat) : (s.setStagedF f v).planId = s.planId := rfl
@[simp] theorem State.setStagedF_flt (f : Fld) (v : Nat) : (s.setStagedF f v).flt = s.flt := rfl
@[simp] theorem State.setStagedF_detFrom (f : Fld) (v : Nat) : (s.setStagedF f v).detFrom = s.detFrom := rfl
@[simp] theorem State.setStagedF_halted (f : Fld) (v : Nat) : (s.setStagedF f v).halted = s.halted := rfl
@[simp] theorem State.setStagedF_cst (f : Fld) (v : Nat) : (s.setStagedF f v).cst = s.cst := rfl
@[simp] theorem State.setStagedF_pwr (f : Fld) (v : Nat) : (s.setStagedF f v).pwr = s.pwr := rfl
@[simp] theorem State.setStagedF_ecc (f : Fld) (v : Nat) : (s.setStagedF f v).ecc = s.ecc := rfl
@[simp] theorem State.setStagedF_log (f : Fld) (v : Nat) : (s.setStagedF f v).log = s.log := rfl
@[simp] theorem State.setStagedF_eng (f : Fld) (v : Nat) : (s.setStagedF f v).eng = s.eng := rfl
@[simp] theorem State.setStagedF_larGen (f : Fld) (v : Nat) : (s.setStagedF f v).larGen = s.larGen := rfl
@[simp] theorem State.setStagedF_dramGen (f : Fld) (v : Nat) : (s.setStagedF f v).dramGen = s.dramGen := rfl
@[simp] theorem State.setStagedF_lar (f : Fld) (v : Nat) : (s.setStagedF f v).lar = s.lar := rfl
@[simp] theorem State.setStagedF_cel (f : Fld) (v : Nat) : (s.setStagedF f v).cel = s.cel := rfl
@[simp] theorem State.setStagedF_sec (f : Fld) (v : Nat) : (s.setStagedF f v).sec = s.sec := rfl
@[simp] theorem State.setStagedF_snapAt (f : Fld) (v : Nat) : (s.setStagedF f v).snapAt = s.snapAt := rfl
@[simp] theorem State.setStagedF_sbOut (f : Fld) (v : Nat) : (s.setStagedF f v).sbOut = s.sbOut := rfl
@[simp] theorem State.setStagedF_plan (f : Fld) (v : Nat) : (s.setStagedF f v).plan = s.plan := rfl
@[simp] theorem State.setStagedF_planChunks (f : Fld) (v : Nat) : (s.setStagedF f v).planChunks = s.planChunks := rfl
@[simp] theorem State.setStagedF_vrt (f : Fld) (v : Nat) : (s.setStagedF f v).vrt = s.vrt := rfl
@[simp] theorem State.setStagedF_clk (f : Fld) (v : Nat) : (s.setStagedF f v).clk = s.clk := rfl
@[simp] theorem State.setStagedF_thm (f : Fld) (v : Nat) : (s.setStagedF f v).thm = s.thm := rfl
@[simp] theorem State.setStagedF_bst (f : Fld) (v : Nat) : (s.setStagedF f v).bst = s.bst := rfl
@[simp] theorem State.setStagedF_remapRuns (f : Fld) (v : Nat) : (s.setStagedF f v).remapRuns = s.remapRuns := rfl
@[simp] theorem State.setStagedF_tap (f : Fld) (v : Nat) : (s.setStagedF f v).tap = s.tap := rfl

/-! ### `State.setLink` -/

@[simp] theorem State.setLink_pending (n : Nat) (v : LinkSt) : (s.setLink n v).pending = s.pending := rfl
@[simp] theorem State.setLink_epoch (n : Nat) (v : LinkSt) : (s.setLink n v).epoch = s.epoch := rfl
@[simp] theorem State.setLink_frame (n : Nat) (v : LinkSt) : (s.setLink n v).frame = s.frame := rfl
@[simp] theorem State.setLink_flit (n : Nat) (v : LinkSt) : (s.setLink n v).flit = s.flit := rfl
@[simp] theorem State.setLink_free (n : Nat) (v : LinkSt) : (s.setLink n v).free = s.free := rfl
@[simp] theorem State.setLink_dram (n : Nat) (v : LinkSt) : (s.setLink n v).dram = s.dram := rfl
@[simp] theorem State.setLink_larder (n : Nat) (v : LinkSt) : (s.setLink n v).larder = s.larder := rfl
@[simp] theorem State.setLink_staged (n : Nat) (v : LinkSt) : (s.setLink n v).staged = s.staged := rfl
@[simp] theorem State.setLink_active (n : Nat) (v : LinkSt) : (s.setLink n v).active = s.active := rfl
@[simp] theorem State.setLink_live (n : Nat) (v : LinkSt) : (s.setLink n v).live = s.live := rfl
@[simp] theorem State.setLink_evq (n : Nat) (v : LinkSt) : (s.setLink n v).evq = s.evq := rfl
@[simp] theorem State.setLink_evLost (n : Nat) (v : LinkSt) : (s.setLink n v).evLost = s.evLost := rfl
@[simp] theorem State.setLink_reqs (n : Nat) (v : LinkSt) : (s.setLink n v).reqs = s.reqs := rfl
@[simp] theorem State.setLink_sentTags (n : Nat) (v : LinkSt) : (s.setLink n v).sentTags = s.sentTags := rfl
@[simp] theorem State.setLink_gate (n : Nat) (v : LinkSt) : (s.setLink n v).gate = s.gate := rfl
@[simp] theorem State.setLink_tiles (n : Nat) (v : LinkSt) : (s.setLink n v).tiles = s.tiles := rfl
@[simp] theorem State.setLink_lbs (n : Nat) (v : LinkSt) : (s.setLink n v).lbs = s.lbs := rfl
@[simp] theorem State.setLink_session (n : Nat) (v : LinkSt) : (s.setLink n v).session = s.session := rfl
@[simp] theorem State.setLink_votes (n : Nat) (v : LinkSt) : (s.setLink n v).votes = s.votes := rfl
@[simp] theorem State.setLink_cfgBad (n : Nat) (v : LinkSt) : (s.setLink n v).cfgBad = s.cfgBad := rfl
@[simp] theorem State.setLink_planId (n : Nat) (v : LinkSt) : (s.setLink n v).planId = s.planId := rfl
@[simp] theorem State.setLink_flt (n : Nat) (v : LinkSt) : (s.setLink n v).flt = s.flt := rfl
@[simp] theorem State.setLink_detFrom (n : Nat) (v : LinkSt) : (s.setLink n v).detFrom = s.detFrom := rfl
@[simp] theorem State.setLink_halted (n : Nat) (v : LinkSt) : (s.setLink n v).halted = s.halted := rfl
@[simp] theorem State.setLink_cst (n : Nat) (v : LinkSt) : (s.setLink n v).cst = s.cst := rfl
@[simp] theorem State.setLink_pwr (n : Nat) (v : LinkSt) : (s.setLink n v).pwr = s.pwr := rfl
@[simp] theorem State.setLink_ecc (n : Nat) (v : LinkSt) : (s.setLink n v).ecc = s.ecc := rfl
@[simp] theorem State.setLink_log (n : Nat) (v : LinkSt) : (s.setLink n v).log = s.log := rfl
@[simp] theorem State.setLink_eng (n : Nat) (v : LinkSt) : (s.setLink n v).eng = s.eng := rfl
@[simp] theorem State.setLink_larGen (n : Nat) (v : LinkSt) : (s.setLink n v).larGen = s.larGen := rfl
@[simp] theorem State.setLink_dramGen (n : Nat) (v : LinkSt) : (s.setLink n v).dramGen = s.dramGen := rfl
@[simp] theorem State.setLink_lar (n : Nat) (v : LinkSt) : (s.setLink n v).lar = s.lar := rfl
@[simp] theorem State.setLink_cel (n : Nat) (v : LinkSt) : (s.setLink n v).cel = s.cel := rfl
@[simp] theorem State.setLink_sec (n : Nat) (v : LinkSt) : (s.setLink n v).sec = s.sec := rfl
@[simp] theorem State.setLink_snapAt (n : Nat) (v : LinkSt) : (s.setLink n v).snapAt = s.snapAt := rfl
@[simp] theorem State.setLink_sbOut (n : Nat) (v : LinkSt) : (s.setLink n v).sbOut = s.sbOut := rfl
@[simp] theorem State.setLink_plan (n : Nat) (v : LinkSt) : (s.setLink n v).plan = s.plan := rfl
@[simp] theorem State.setLink_planChunks (n : Nat) (v : LinkSt) : (s.setLink n v).planChunks = s.planChunks := rfl
@[simp] theorem State.setLink_vrt (n : Nat) (v : LinkSt) : (s.setLink n v).vrt = s.vrt := rfl
@[simp] theorem State.setLink_clk (n : Nat) (v : LinkSt) : (s.setLink n v).clk = s.clk := rfl
@[simp] theorem State.setLink_thm (n : Nat) (v : LinkSt) : (s.setLink n v).thm = s.thm := rfl
@[simp] theorem State.setLink_bst (n : Nat) (v : LinkSt) : (s.setLink n v).bst = s.bst := rfl
@[simp] theorem State.setLink_remapRuns (n : Nat) (v : LinkSt) : (s.setLink n v).remapRuns = s.remapRuns := rfl
@[simp] theorem State.setLink_tap (n : Nat) (v : LinkSt) : (s.setLink n v).tap = s.tap := rfl

/-! ### `State.modLink` -/

@[simp] theorem State.modLink_pending (n : Nat) (f : LinkSt → LinkSt) : (s.modLink n f).pending = s.pending := rfl
@[simp] theorem State.modLink_epoch (n : Nat) (f : LinkSt → LinkSt) : (s.modLink n f).epoch = s.epoch := rfl
@[simp] theorem State.modLink_frame (n : Nat) (f : LinkSt → LinkSt) : (s.modLink n f).frame = s.frame := rfl
@[simp] theorem State.modLink_flit (n : Nat) (f : LinkSt → LinkSt) : (s.modLink n f).flit = s.flit := rfl
@[simp] theorem State.modLink_free (n : Nat) (f : LinkSt → LinkSt) : (s.modLink n f).free = s.free := rfl
@[simp] theorem State.modLink_dram (n : Nat) (f : LinkSt → LinkSt) : (s.modLink n f).dram = s.dram := rfl
@[simp] theorem State.modLink_larder (n : Nat) (f : LinkSt → LinkSt) : (s.modLink n f).larder = s.larder := rfl
@[simp] theorem State.modLink_staged (n : Nat) (f : LinkSt → LinkSt) : (s.modLink n f).staged = s.staged := rfl
@[simp] theorem State.modLink_active (n : Nat) (f : LinkSt → LinkSt) : (s.modLink n f).active = s.active := rfl
@[simp] theorem State.modLink_live (n : Nat) (f : LinkSt → LinkSt) : (s.modLink n f).live = s.live := rfl
@[simp] theorem State.modLink_evq (n : Nat) (f : LinkSt → LinkSt) : (s.modLink n f).evq = s.evq := rfl
@[simp] theorem State.modLink_evLost (n : Nat) (f : LinkSt → LinkSt) : (s.modLink n f).evLost = s.evLost := rfl
@[simp] theorem State.modLink_reqs (n : Nat) (f : LinkSt → LinkSt) : (s.modLink n f).reqs = s.reqs := rfl
@[simp] theorem State.modLink_sentTags (n : Nat) (f : LinkSt → LinkSt) : (s.modLink n f).sentTags = s.sentTags := rfl
@[simp] theorem State.modLink_gate (n : Nat) (f : LinkSt → LinkSt) : (s.modLink n f).gate = s.gate := rfl
@[simp] theorem State.modLink_tiles (n : Nat) (f : LinkSt → LinkSt) : (s.modLink n f).tiles = s.tiles := rfl
@[simp] theorem State.modLink_lbs (n : Nat) (f : LinkSt → LinkSt) : (s.modLink n f).lbs = s.lbs := rfl
@[simp] theorem State.modLink_session (n : Nat) (f : LinkSt → LinkSt) : (s.modLink n f).session = s.session := rfl
@[simp] theorem State.modLink_votes (n : Nat) (f : LinkSt → LinkSt) : (s.modLink n f).votes = s.votes := rfl
@[simp] theorem State.modLink_cfgBad (n : Nat) (f : LinkSt → LinkSt) : (s.modLink n f).cfgBad = s.cfgBad := rfl
@[simp] theorem State.modLink_planId (n : Nat) (f : LinkSt → LinkSt) : (s.modLink n f).planId = s.planId := rfl
@[simp] theorem State.modLink_flt (n : Nat) (f : LinkSt → LinkSt) : (s.modLink n f).flt = s.flt := rfl
@[simp] theorem State.modLink_detFrom (n : Nat) (f : LinkSt → LinkSt) : (s.modLink n f).detFrom = s.detFrom := rfl
@[simp] theorem State.modLink_halted (n : Nat) (f : LinkSt → LinkSt) : (s.modLink n f).halted = s.halted := rfl
@[simp] theorem State.modLink_cst (n : Nat) (f : LinkSt → LinkSt) : (s.modLink n f).cst = s.cst := rfl
@[simp] theorem State.modLink_pwr (n : Nat) (f : LinkSt → LinkSt) : (s.modLink n f).pwr = s.pwr := rfl
@[simp] theorem State.modLink_ecc (n : Nat) (f : LinkSt → LinkSt) : (s.modLink n f).ecc = s.ecc := rfl
@[simp] theorem State.modLink_log (n : Nat) (f : LinkSt → LinkSt) : (s.modLink n f).log = s.log := rfl
@[simp] theorem State.modLink_eng (n : Nat) (f : LinkSt → LinkSt) : (s.modLink n f).eng = s.eng := rfl
@[simp] theorem State.modLink_larGen (n : Nat) (f : LinkSt → LinkSt) : (s.modLink n f).larGen = s.larGen := rfl
@[simp] theorem State.modLink_dramGen (n : Nat) (f : LinkSt → LinkSt) : (s.modLink n f).dramGen = s.dramGen := rfl
@[simp] theorem State.modLink_lar (n : Nat) (f : LinkSt → LinkSt) : (s.modLink n f).lar = s.lar := rfl
@[simp] theorem State.modLink_cel (n : Nat) (f : LinkSt → LinkSt) : (s.modLink n f).cel = s.cel := rfl
@[simp] theorem State.modLink_sec (n : Nat) (f : LinkSt → LinkSt) : (s.modLink n f).sec = s.sec := rfl
@[simp] theorem State.modLink_snapAt (n : Nat) (f : LinkSt → LinkSt) : (s.modLink n f).snapAt = s.snapAt := rfl
@[simp] theorem State.modLink_sbOut (n : Nat) (f : LinkSt → LinkSt) : (s.modLink n f).sbOut = s.sbOut := rfl
@[simp] theorem State.modLink_plan (n : Nat) (f : LinkSt → LinkSt) : (s.modLink n f).plan = s.plan := rfl
@[simp] theorem State.modLink_planChunks (n : Nat) (f : LinkSt → LinkSt) : (s.modLink n f).planChunks = s.planChunks := rfl
@[simp] theorem State.modLink_vrt (n : Nat) (f : LinkSt → LinkSt) : (s.modLink n f).vrt = s.vrt := rfl
@[simp] theorem State.modLink_clk (n : Nat) (f : LinkSt → LinkSt) : (s.modLink n f).clk = s.clk := rfl
@[simp] theorem State.modLink_thm (n : Nat) (f : LinkSt → LinkSt) : (s.modLink n f).thm = s.thm := rfl
@[simp] theorem State.modLink_bst (n : Nat) (f : LinkSt → LinkSt) : (s.modLink n f).bst = s.bst := rfl
@[simp] theorem State.modLink_remapRuns (n : Nat) (f : LinkSt → LinkSt) : (s.modLink n f).remapRuns = s.remapRuns := rfl
@[simp] theorem State.modLink_tap (n : Nat) (f : LinkSt → LinkSt) : (s.modLink n f).tap = s.tap := rfl

/-! ### `State.setTile` -/

@[simp] theorem State.setTile_pending (n : Nat) (v : TileSt) : (s.setTile n v).pending = s.pending := rfl
@[simp] theorem State.setTile_epoch (n : Nat) (v : TileSt) : (s.setTile n v).epoch = s.epoch := rfl
@[simp] theorem State.setTile_frame (n : Nat) (v : TileSt) : (s.setTile n v).frame = s.frame := rfl
@[simp] theorem State.setTile_flit (n : Nat) (v : TileSt) : (s.setTile n v).flit = s.flit := rfl
@[simp] theorem State.setTile_free (n : Nat) (v : TileSt) : (s.setTile n v).free = s.free := rfl
@[simp] theorem State.setTile_dram (n : Nat) (v : TileSt) : (s.setTile n v).dram = s.dram := rfl
@[simp] theorem State.setTile_larder (n : Nat) (v : TileSt) : (s.setTile n v).larder = s.larder := rfl
@[simp] theorem State.setTile_staged (n : Nat) (v : TileSt) : (s.setTile n v).staged = s.staged := rfl
@[simp] theorem State.setTile_active (n : Nat) (v : TileSt) : (s.setTile n v).active = s.active := rfl
@[simp] theorem State.setTile_live (n : Nat) (v : TileSt) : (s.setTile n v).live = s.live := rfl
@[simp] theorem State.setTile_links (n : Nat) (v : TileSt) : (s.setTile n v).links = s.links := rfl
@[simp] theorem State.setTile_evq (n : Nat) (v : TileSt) : (s.setTile n v).evq = s.evq := rfl
@[simp] theorem State.setTile_evLost (n : Nat) (v : TileSt) : (s.setTile n v).evLost = s.evLost := rfl
@[simp] theorem State.setTile_reqs (n : Nat) (v : TileSt) : (s.setTile n v).reqs = s.reqs := rfl
@[simp] theorem State.setTile_sentTags (n : Nat) (v : TileSt) : (s.setTile n v).sentTags = s.sentTags := rfl
@[simp] theorem State.setTile_gate (n : Nat) (v : TileSt) : (s.setTile n v).gate = s.gate := rfl
@[simp] theorem State.setTile_lbs (n : Nat) (v : TileSt) : (s.setTile n v).lbs = s.lbs := rfl
@[simp] theorem State.setTile_session (n : Nat) (v : TileSt) : (s.setTile n v).session = s.session := rfl
@[simp] theorem State.setTile_votes (n : Nat) (v : TileSt) : (s.setTile n v).votes = s.votes := rfl
@[simp] theorem State.setTile_cfgBad (n : Nat) (v : TileSt) : (s.setTile n v).cfgBad = s.cfgBad := rfl
@[simp] theorem State.setTile_planId (n : Nat) (v : TileSt) : (s.setTile n v).planId = s.planId := rfl
@[simp] theorem State.setTile_flt (n : Nat) (v : TileSt) : (s.setTile n v).flt = s.flt := rfl
@[simp] theorem State.setTile_detFrom (n : Nat) (v : TileSt) : (s.setTile n v).detFrom = s.detFrom := rfl
@[simp] theorem State.setTile_halted (n : Nat) (v : TileSt) : (s.setTile n v).halted = s.halted := rfl
@[simp] theorem State.setTile_cst (n : Nat) (v : TileSt) : (s.setTile n v).cst = s.cst := rfl
@[simp] theorem State.setTile_pwr (n : Nat) (v : TileSt) : (s.setTile n v).pwr = s.pwr := rfl
@[simp] theorem State.setTile_ecc (n : Nat) (v : TileSt) : (s.setTile n v).ecc = s.ecc := rfl
@[simp] theorem State.setTile_log (n : Nat) (v : TileSt) : (s.setTile n v).log = s.log := rfl
@[simp] theorem State.setTile_eng (n : Nat) (v : TileSt) : (s.setTile n v).eng = s.eng := rfl
@[simp] theorem State.setTile_larGen (n : Nat) (v : TileSt) : (s.setTile n v).larGen = s.larGen := rfl
@[simp] theorem State.setTile_dramGen (n : Nat) (v : TileSt) : (s.setTile n v).dramGen = s.dramGen := rfl
@[simp] theorem State.setTile_lar (n : Nat) (v : TileSt) : (s.setTile n v).lar = s.lar := rfl
@[simp] theorem State.setTile_cel (n : Nat) (v : TileSt) : (s.setTile n v).cel = s.cel := rfl
@[simp] theorem State.setTile_sec (n : Nat) (v : TileSt) : (s.setTile n v).sec = s.sec := rfl
@[simp] theorem State.setTile_snapAt (n : Nat) (v : TileSt) : (s.setTile n v).snapAt = s.snapAt := rfl
@[simp] theorem State.setTile_sbOut (n : Nat) (v : TileSt) : (s.setTile n v).sbOut = s.sbOut := rfl
@[simp] theorem State.setTile_plan (n : Nat) (v : TileSt) : (s.setTile n v).plan = s.plan := rfl
@[simp] theorem State.setTile_planChunks (n : Nat) (v : TileSt) : (s.setTile n v).planChunks = s.planChunks := rfl
@[simp] theorem State.setTile_vrt (n : Nat) (v : TileSt) : (s.setTile n v).vrt = s.vrt := rfl
@[simp] theorem State.setTile_clk (n : Nat) (v : TileSt) : (s.setTile n v).clk = s.clk := rfl
@[simp] theorem State.setTile_thm (n : Nat) (v : TileSt) : (s.setTile n v).thm = s.thm := rfl
@[simp] theorem State.setTile_bst (n : Nat) (v : TileSt) : (s.setTile n v).bst = s.bst := rfl
@[simp] theorem State.setTile_remapRuns (n : Nat) (v : TileSt) : (s.setTile n v).remapRuns = s.remapRuns := rfl
@[simp] theorem State.setTile_tap (n : Nat) (v : TileSt) : (s.setTile n v).tap = s.tap := rfl

/-! ### `State.modTile` -/

@[simp] theorem State.modTile_pending (n : Nat) (f : TileSt → TileSt) : (s.modTile n f).pending = s.pending := rfl
@[simp] theorem State.modTile_epoch (n : Nat) (f : TileSt → TileSt) : (s.modTile n f).epoch = s.epoch := rfl
@[simp] theorem State.modTile_frame (n : Nat) (f : TileSt → TileSt) : (s.modTile n f).frame = s.frame := rfl
@[simp] theorem State.modTile_flit (n : Nat) (f : TileSt → TileSt) : (s.modTile n f).flit = s.flit := rfl
@[simp] theorem State.modTile_free (n : Nat) (f : TileSt → TileSt) : (s.modTile n f).free = s.free := rfl
@[simp] theorem State.modTile_dram (n : Nat) (f : TileSt → TileSt) : (s.modTile n f).dram = s.dram := rfl
@[simp] theorem State.modTile_larder (n : Nat) (f : TileSt → TileSt) : (s.modTile n f).larder = s.larder := rfl
@[simp] theorem State.modTile_staged (n : Nat) (f : TileSt → TileSt) : (s.modTile n f).staged = s.staged := rfl
@[simp] theorem State.modTile_active (n : Nat) (f : TileSt → TileSt) : (s.modTile n f).active = s.active := rfl
@[simp] theorem State.modTile_live (n : Nat) (f : TileSt → TileSt) : (s.modTile n f).live = s.live := rfl
@[simp] theorem State.modTile_links (n : Nat) (f : TileSt → TileSt) : (s.modTile n f).links = s.links := rfl
@[simp] theorem State.modTile_evq (n : Nat) (f : TileSt → TileSt) : (s.modTile n f).evq = s.evq := rfl
@[simp] theorem State.modTile_evLost (n : Nat) (f : TileSt → TileSt) : (s.modTile n f).evLost = s.evLost := rfl
@[simp] theorem State.modTile_reqs (n : Nat) (f : TileSt → TileSt) : (s.modTile n f).reqs = s.reqs := rfl
@[simp] theorem State.modTile_sentTags (n : Nat) (f : TileSt → TileSt) : (s.modTile n f).sentTags = s.sentTags := rfl
@[simp] theorem State.modTile_gate (n : Nat) (f : TileSt → TileSt) : (s.modTile n f).gate = s.gate := rfl
@[simp] theorem State.modTile_lbs (n : Nat) (f : TileSt → TileSt) : (s.modTile n f).lbs = s.lbs := rfl
@[simp] theorem State.modTile_session (n : Nat) (f : TileSt → TileSt) : (s.modTile n f).session = s.session := rfl
@[simp] theorem State.modTile_votes (n : Nat) (f : TileSt → TileSt) : (s.modTile n f).votes = s.votes := rfl
@[simp] theorem State.modTile_cfgBad (n : Nat) (f : TileSt → TileSt) : (s.modTile n f).cfgBad = s.cfgBad := rfl
@[simp] theorem State.modTile_planId (n : Nat) (f : TileSt → TileSt) : (s.modTile n f).planId = s.planId := rfl
@[simp] theorem State.modTile_flt (n : Nat) (f : TileSt → TileSt) : (s.modTile n f).flt = s.flt := rfl
@[simp] theorem State.modTile_detFrom (n : Nat) (f : TileSt → TileSt) : (s.modTile n f).detFrom = s.detFrom := rfl
@[simp] theorem State.modTile_halted (n : Nat) (f : TileSt → TileSt) : (s.modTile n f).halted = s.halted := rfl
@[simp] theorem State.modTile_cst (n : Nat) (f : TileSt → TileSt) : (s.modTile n f).cst = s.cst := rfl
@[simp] theorem State.modTile_pwr (n : Nat) (f : TileSt → TileSt) : (s.modTile n f).pwr = s.pwr := rfl
@[simp] theorem State.modTile_ecc (n : Nat) (f : TileSt → TileSt) : (s.modTile n f).ecc = s.ecc := rfl
@[simp] theorem State.modTile_log (n : Nat) (f : TileSt → TileSt) : (s.modTile n f).log = s.log := rfl
@[simp] theorem State.modTile_eng (n : Nat) (f : TileSt → TileSt) : (s.modTile n f).eng = s.eng := rfl
@[simp] theorem State.modTile_larGen (n : Nat) (f : TileSt → TileSt) : (s.modTile n f).larGen = s.larGen := rfl
@[simp] theorem State.modTile_dramGen (n : Nat) (f : TileSt → TileSt) : (s.modTile n f).dramGen = s.dramGen := rfl
@[simp] theorem State.modTile_lar (n : Nat) (f : TileSt → TileSt) : (s.modTile n f).lar = s.lar := rfl
@[simp] theorem State.modTile_cel (n : Nat) (f : TileSt → TileSt) : (s.modTile n f).cel = s.cel := rfl
@[simp] theorem State.modTile_sec (n : Nat) (f : TileSt → TileSt) : (s.modTile n f).sec = s.sec := rfl
@[simp] theorem State.modTile_snapAt (n : Nat) (f : TileSt → TileSt) : (s.modTile n f).snapAt = s.snapAt := rfl
@[simp] theorem State.modTile_sbOut (n : Nat) (f : TileSt → TileSt) : (s.modTile n f).sbOut = s.sbOut := rfl
@[simp] theorem State.modTile_plan (n : Nat) (f : TileSt → TileSt) : (s.modTile n f).plan = s.plan := rfl
@[simp] theorem State.modTile_planChunks (n : Nat) (f : TileSt → TileSt) : (s.modTile n f).planChunks = s.planChunks := rfl
@[simp] theorem State.modTile_vrt (n : Nat) (f : TileSt → TileSt) : (s.modTile n f).vrt = s.vrt := rfl
@[simp] theorem State.modTile_clk (n : Nat) (f : TileSt → TileSt) : (s.modTile n f).clk = s.clk := rfl
@[simp] theorem State.modTile_thm (n : Nat) (f : TileSt → TileSt) : (s.modTile n f).thm = s.thm := rfl
@[simp] theorem State.modTile_bst (n : Nat) (f : TileSt → TileSt) : (s.modTile n f).bst = s.bst := rfl
@[simp] theorem State.modTile_remapRuns (n : Nat) (f : TileSt → TileSt) : (s.modTile n f).remapRuns = s.remapRuns := rfl
@[simp] theorem State.modTile_tap (n : Nat) (f : TileSt → TileSt) : (s.modTile n f).tap = s.tap := rfl

/-! ### `State.setLb` -/

@[simp] theorem State.setLb_pending (n : Nat) (v : LbSt) : (s.setLb n v).pending = s.pending := rfl
@[simp] theorem State.setLb_epoch (n : Nat) (v : LbSt) : (s.setLb n v).epoch = s.epoch := rfl
@[simp] theorem State.setLb_frame (n : Nat) (v : LbSt) : (s.setLb n v).frame = s.frame := rfl
@[simp] theorem State.setLb_flit (n : Nat) (v : LbSt) : (s.setLb n v).flit = s.flit := rfl
@[simp] theorem State.setLb_free (n : Nat) (v : LbSt) : (s.setLb n v).free = s.free := rfl
@[simp] theorem State.setLb_dram (n : Nat) (v : LbSt) : (s.setLb n v).dram = s.dram := rfl
@[simp] theorem State.setLb_larder (n : Nat) (v : LbSt) : (s.setLb n v).larder = s.larder := rfl
@[simp] theorem State.setLb_staged (n : Nat) (v : LbSt) : (s.setLb n v).staged = s.staged := rfl
@[simp] theorem State.setLb_active (n : Nat) (v : LbSt) : (s.setLb n v).active = s.active := rfl
@[simp] theorem State.setLb_live (n : Nat) (v : LbSt) : (s.setLb n v).live = s.live := rfl
@[simp] theorem State.setLb_links (n : Nat) (v : LbSt) : (s.setLb n v).links = s.links := rfl
@[simp] theorem State.setLb_evq (n : Nat) (v : LbSt) : (s.setLb n v).evq = s.evq := rfl
@[simp] theorem State.setLb_evLost (n : Nat) (v : LbSt) : (s.setLb n v).evLost = s.evLost := rfl
@[simp] theorem State.setLb_reqs (n : Nat) (v : LbSt) : (s.setLb n v).reqs = s.reqs := rfl
@[simp] theorem State.setLb_sentTags (n : Nat) (v : LbSt) : (s.setLb n v).sentTags = s.sentTags := rfl
@[simp] theorem State.setLb_gate (n : Nat) (v : LbSt) : (s.setLb n v).gate = s.gate := rfl
@[simp] theorem State.setLb_tiles (n : Nat) (v : LbSt) : (s.setLb n v).tiles = s.tiles := rfl
@[simp] theorem State.setLb_session (n : Nat) (v : LbSt) : (s.setLb n v).session = s.session := rfl
@[simp] theorem State.setLb_votes (n : Nat) (v : LbSt) : (s.setLb n v).votes = s.votes := rfl
@[simp] theorem State.setLb_cfgBad (n : Nat) (v : LbSt) : (s.setLb n v).cfgBad = s.cfgBad := rfl
@[simp] theorem State.setLb_planId (n : Nat) (v : LbSt) : (s.setLb n v).planId = s.planId := rfl
@[simp] theorem State.setLb_flt (n : Nat) (v : LbSt) : (s.setLb n v).flt = s.flt := rfl
@[simp] theorem State.setLb_detFrom (n : Nat) (v : LbSt) : (s.setLb n v).detFrom = s.detFrom := rfl
@[simp] theorem State.setLb_halted (n : Nat) (v : LbSt) : (s.setLb n v).halted = s.halted := rfl
@[simp] theorem State.setLb_cst (n : Nat) (v : LbSt) : (s.setLb n v).cst = s.cst := rfl
@[simp] theorem State.setLb_pwr (n : Nat) (v : LbSt) : (s.setLb n v).pwr = s.pwr := rfl
@[simp] theorem State.setLb_ecc (n : Nat) (v : LbSt) : (s.setLb n v).ecc = s.ecc := rfl
@[simp] theorem State.setLb_log (n : Nat) (v : LbSt) : (s.setLb n v).log = s.log := rfl
@[simp] theorem State.setLb_eng (n : Nat) (v : LbSt) : (s.setLb n v).eng = s.eng := rfl
@[simp] theorem State.setLb_larGen (n : Nat) (v : LbSt) : (s.setLb n v).larGen = s.larGen := rfl
@[simp] theorem State.setLb_dramGen (n : Nat) (v : LbSt) : (s.setLb n v).dramGen = s.dramGen := rfl
@[simp] theorem State.setLb_lar (n : Nat) (v : LbSt) : (s.setLb n v).lar = s.lar := rfl
@[simp] theorem State.setLb_cel (n : Nat) (v : LbSt) : (s.setLb n v).cel = s.cel := rfl
@[simp] theorem State.setLb_sec (n : Nat) (v : LbSt) : (s.setLb n v).sec = s.sec := rfl
@[simp] theorem State.setLb_snapAt (n : Nat) (v : LbSt) : (s.setLb n v).snapAt = s.snapAt := rfl
@[simp] theorem State.setLb_sbOut (n : Nat) (v : LbSt) : (s.setLb n v).sbOut = s.sbOut := rfl
@[simp] theorem State.setLb_plan (n : Nat) (v : LbSt) : (s.setLb n v).plan = s.plan := rfl
@[simp] theorem State.setLb_planChunks (n : Nat) (v : LbSt) : (s.setLb n v).planChunks = s.planChunks := rfl
@[simp] theorem State.setLb_vrt (n : Nat) (v : LbSt) : (s.setLb n v).vrt = s.vrt := rfl
@[simp] theorem State.setLb_clk (n : Nat) (v : LbSt) : (s.setLb n v).clk = s.clk := rfl
@[simp] theorem State.setLb_thm (n : Nat) (v : LbSt) : (s.setLb n v).thm = s.thm := rfl
@[simp] theorem State.setLb_bst (n : Nat) (v : LbSt) : (s.setLb n v).bst = s.bst := rfl
@[simp] theorem State.setLb_remapRuns (n : Nat) (v : LbSt) : (s.setLb n v).remapRuns = s.remapRuns := rfl
@[simp] theorem State.setLb_tap (n : Nat) (v : LbSt) : (s.setLb n v).tap = s.tap := rfl

/-! ### `State.modLb` -/

@[simp] theorem State.modLb_pending (n : Nat) (f : LbSt → LbSt) : (s.modLb n f).pending = s.pending := rfl
@[simp] theorem State.modLb_epoch (n : Nat) (f : LbSt → LbSt) : (s.modLb n f).epoch = s.epoch := rfl
@[simp] theorem State.modLb_frame (n : Nat) (f : LbSt → LbSt) : (s.modLb n f).frame = s.frame := rfl
@[simp] theorem State.modLb_flit (n : Nat) (f : LbSt → LbSt) : (s.modLb n f).flit = s.flit := rfl
@[simp] theorem State.modLb_free (n : Nat) (f : LbSt → LbSt) : (s.modLb n f).free = s.free := rfl
@[simp] theorem State.modLb_dram (n : Nat) (f : LbSt → LbSt) : (s.modLb n f).dram = s.dram := rfl
@[simp] theorem State.modLb_larder (n : Nat) (f : LbSt → LbSt) : (s.modLb n f).larder = s.larder := rfl
@[simp] theorem State.modLb_staged (n : Nat) (f : LbSt → LbSt) : (s.modLb n f).staged = s.staged := rfl
@[simp] theorem State.modLb_active (n : Nat) (f : LbSt → LbSt) : (s.modLb n f).active = s.active := rfl
@[simp] theorem State.modLb_live (n : Nat) (f : LbSt → LbSt) : (s.modLb n f).live = s.live := rfl
@[simp] theorem State.modLb_links (n : Nat) (f : LbSt → LbSt) : (s.modLb n f).links = s.links := rfl
@[simp] theorem State.modLb_evq (n : Nat) (f : LbSt → LbSt) : (s.modLb n f).evq = s.evq := rfl
@[simp] theorem State.modLb_evLost (n : Nat) (f : LbSt → LbSt) : (s.modLb n f).evLost = s.evLost := rfl
@[simp] theorem State.modLb_reqs (n : Nat) (f : LbSt → LbSt) : (s.modLb n f).reqs = s.reqs := rfl
@[simp] theorem State.modLb_sentTags (n : Nat) (f : LbSt → LbSt) : (s.modLb n f).sentTags = s.sentTags := rfl
@[simp] theorem State.modLb_gate (n : Nat) (f : LbSt → LbSt) : (s.modLb n f).gate = s.gate := rfl
@[simp] theorem State.modLb_tiles (n : Nat) (f : LbSt → LbSt) : (s.modLb n f).tiles = s.tiles := rfl
@[simp] theorem State.modLb_session (n : Nat) (f : LbSt → LbSt) : (s.modLb n f).session = s.session := rfl
@[simp] theorem State.modLb_votes (n : Nat) (f : LbSt → LbSt) : (s.modLb n f).votes = s.votes := rfl
@[simp] theorem State.modLb_cfgBad (n : Nat) (f : LbSt → LbSt) : (s.modLb n f).cfgBad = s.cfgBad := rfl
@[simp] theorem State.modLb_planId (n : Nat) (f : LbSt → LbSt) : (s.modLb n f).planId = s.planId := rfl
@[simp] theorem State.modLb_flt (n : Nat) (f : LbSt → LbSt) : (s.modLb n f).flt = s.flt := rfl
@[simp] theorem State.modLb_detFrom (n : Nat) (f : LbSt → LbSt) : (s.modLb n f).detFrom = s.detFrom := rfl
@[simp] theorem State.modLb_halted (n : Nat) (f : LbSt → LbSt) : (s.modLb n f).halted = s.halted := rfl
@[simp] theorem State.modLb_cst (n : Nat) (f : LbSt → LbSt) : (s.modLb n f).cst = s.cst := rfl
@[simp] theorem State.modLb_pwr (n : Nat) (f : LbSt → LbSt) : (s.modLb n f).pwr = s.pwr := rfl
@[simp] theorem State.modLb_ecc (n : Nat) (f : LbSt → LbSt) : (s.modLb n f).ecc = s.ecc := rfl
@[simp] theorem State.modLb_log (n : Nat) (f : LbSt → LbSt) : (s.modLb n f).log = s.log := rfl
@[simp] theorem State.modLb_eng (n : Nat) (f : LbSt → LbSt) : (s.modLb n f).eng = s.eng := rfl
@[simp] theorem State.modLb_larGen (n : Nat) (f : LbSt → LbSt) : (s.modLb n f).larGen = s.larGen := rfl
@[simp] theorem State.modLb_dramGen (n : Nat) (f : LbSt → LbSt) : (s.modLb n f).dramGen = s.dramGen := rfl
@[simp] theorem State.modLb_lar (n : Nat) (f : LbSt → LbSt) : (s.modLb n f).lar = s.lar := rfl
@[simp] theorem State.modLb_cel (n : Nat) (f : LbSt → LbSt) : (s.modLb n f).cel = s.cel := rfl
@[simp] theorem State.modLb_sec (n : Nat) (f : LbSt → LbSt) : (s.modLb n f).sec = s.sec := rfl
@[simp] theorem State.modLb_snapAt (n : Nat) (f : LbSt → LbSt) : (s.modLb n f).snapAt = s.snapAt := rfl
@[simp] theorem State.modLb_sbOut (n : Nat) (f : LbSt → LbSt) : (s.modLb n f).sbOut = s.sbOut := rfl
@[simp] theorem State.modLb_plan (n : Nat) (f : LbSt → LbSt) : (s.modLb n f).plan = s.plan := rfl
@[simp] theorem State.modLb_planChunks (n : Nat) (f : LbSt → LbSt) : (s.modLb n f).planChunks = s.planChunks := rfl
@[simp] theorem State.modLb_vrt (n : Nat) (f : LbSt → LbSt) : (s.modLb n f).vrt = s.vrt := rfl
@[simp] theorem State.modLb_clk (n : Nat) (f : LbSt → LbSt) : (s.modLb n f).clk = s.clk := rfl
@[simp] theorem State.modLb_thm (n : Nat) (f : LbSt → LbSt) : (s.modLb n f).thm = s.thm := rfl
@[simp] theorem State.modLb_bst (n : Nat) (f : LbSt → LbSt) : (s.modLb n f).bst = s.bst := rfl
@[simp] theorem State.modLb_remapRuns (n : Nat) (f : LbSt → LbSt) : (s.modLb n f).remapRuns = s.remapRuns := rfl
@[simp] theorem State.modLb_tap (n : Nat) (f : LbSt → LbSt) : (s.modLb n f).tap = s.tap := rfl

/-! ### `State.modRiser` -/

@[simp] theorem State.modRiser_pending (n : Nat) (f : VrtSt → VrtSt) : (s.modRiser n f).pending = s.pending := rfl
@[simp] theorem State.modRiser_epoch (n : Nat) (f : VrtSt → VrtSt) : (s.modRiser n f).epoch = s.epoch := rfl
@[simp] theorem State.modRiser_frame (n : Nat) (f : VrtSt → VrtSt) : (s.modRiser n f).frame = s.frame := rfl
@[simp] theorem State.modRiser_flit (n : Nat) (f : VrtSt → VrtSt) : (s.modRiser n f).flit = s.flit := rfl
@[simp] theorem State.modRiser_free (n : Nat) (f : VrtSt → VrtSt) : (s.modRiser n f).free = s.free := rfl
@[simp] theorem State.modRiser_dram (n : Nat) (f : VrtSt → VrtSt) : (s.modRiser n f).dram = s.dram := rfl
@[simp] theorem State.modRiser_larder (n : Nat) (f : VrtSt → VrtSt) : (s.modRiser n f).larder = s.larder := rfl
@[simp] theorem State.modRiser_staged (n : Nat) (f : VrtSt → VrtSt) : (s.modRiser n f).staged = s.staged := rfl
@[simp] theorem State.modRiser_active (n : Nat) (f : VrtSt → VrtSt) : (s.modRiser n f).active = s.active := rfl
@[simp] theorem State.modRiser_live (n : Nat) (f : VrtSt → VrtSt) : (s.modRiser n f).live = s.live := rfl
@[simp] theorem State.modRiser_links (n : Nat) (f : VrtSt → VrtSt) : (s.modRiser n f).links = s.links := rfl
@[simp] theorem State.modRiser_evq (n : Nat) (f : VrtSt → VrtSt) : (s.modRiser n f).evq = s.evq := rfl
@[simp] theorem State.modRiser_evLost (n : Nat) (f : VrtSt → VrtSt) : (s.modRiser n f).evLost = s.evLost := rfl
@[simp] theorem State.modRiser_reqs (n : Nat) (f : VrtSt → VrtSt) : (s.modRiser n f).reqs = s.reqs := rfl
@[simp] theorem State.modRiser_sentTags (n : Nat) (f : VrtSt → VrtSt) : (s.modRiser n f).sentTags = s.sentTags := rfl
@[simp] theorem State.modRiser_gate (n : Nat) (f : VrtSt → VrtSt) : (s.modRiser n f).gate = s.gate := rfl
@[simp] theorem State.modRiser_tiles (n : Nat) (f : VrtSt → VrtSt) : (s.modRiser n f).tiles = s.tiles := rfl
@[simp] theorem State.modRiser_lbs (n : Nat) (f : VrtSt → VrtSt) : (s.modRiser n f).lbs = s.lbs := rfl
@[simp] theorem State.modRiser_session (n : Nat) (f : VrtSt → VrtSt) : (s.modRiser n f).session = s.session := rfl
@[simp] theorem State.modRiser_votes (n : Nat) (f : VrtSt → VrtSt) : (s.modRiser n f).votes = s.votes := rfl
@[simp] theorem State.modRiser_cfgBad (n : Nat) (f : VrtSt → VrtSt) : (s.modRiser n f).cfgBad = s.cfgBad := rfl
@[simp] theorem State.modRiser_planId (n : Nat) (f : VrtSt → VrtSt) : (s.modRiser n f).planId = s.planId := rfl
@[simp] theorem State.modRiser_flt (n : Nat) (f : VrtSt → VrtSt) : (s.modRiser n f).flt = s.flt := rfl
@[simp] theorem State.modRiser_detFrom (n : Nat) (f : VrtSt → VrtSt) : (s.modRiser n f).detFrom = s.detFrom := rfl
@[simp] theorem State.modRiser_halted (n : Nat) (f : VrtSt → VrtSt) : (s.modRiser n f).halted = s.halted := rfl
@[simp] theorem State.modRiser_cst (n : Nat) (f : VrtSt → VrtSt) : (s.modRiser n f).cst = s.cst := rfl
@[simp] theorem State.modRiser_pwr (n : Nat) (f : VrtSt → VrtSt) : (s.modRiser n f).pwr = s.pwr := rfl
@[simp] theorem State.modRiser_ecc (n : Nat) (f : VrtSt → VrtSt) : (s.modRiser n f).ecc = s.ecc := rfl
@[simp] theorem State.modRiser_log (n : Nat) (f : VrtSt → VrtSt) : (s.modRiser n f).log = s.log := rfl
@[simp] theorem State.modRiser_eng (n : Nat) (f : VrtSt → VrtSt) : (s.modRiser n f).eng = s.eng := rfl
@[simp] theorem State.modRiser_larGen (n : Nat) (f : VrtSt → VrtSt) : (s.modRiser n f).larGen = s.larGen := rfl
@[simp] theorem State.modRiser_dramGen (n : Nat) (f : VrtSt → VrtSt) : (s.modRiser n f).dramGen = s.dramGen := rfl
@[simp] theorem State.modRiser_lar (n : Nat) (f : VrtSt → VrtSt) : (s.modRiser n f).lar = s.lar := rfl
@[simp] theorem State.modRiser_cel (n : Nat) (f : VrtSt → VrtSt) : (s.modRiser n f).cel = s.cel := rfl
@[simp] theorem State.modRiser_sec (n : Nat) (f : VrtSt → VrtSt) : (s.modRiser n f).sec = s.sec := rfl
@[simp] theorem State.modRiser_snapAt (n : Nat) (f : VrtSt → VrtSt) : (s.modRiser n f).snapAt = s.snapAt := rfl
@[simp] theorem State.modRiser_sbOut (n : Nat) (f : VrtSt → VrtSt) : (s.modRiser n f).sbOut = s.sbOut := rfl
@[simp] theorem State.modRiser_plan (n : Nat) (f : VrtSt → VrtSt) : (s.modRiser n f).plan = s.plan := rfl
@[simp] theorem State.modRiser_planChunks (n : Nat) (f : VrtSt → VrtSt) : (s.modRiser n f).planChunks = s.planChunks := rfl
@[simp] theorem State.modRiser_clk (n : Nat) (f : VrtSt → VrtSt) : (s.modRiser n f).clk = s.clk := rfl
@[simp] theorem State.modRiser_thm (n : Nat) (f : VrtSt → VrtSt) : (s.modRiser n f).thm = s.thm := rfl
@[simp] theorem State.modRiser_bst (n : Nat) (f : VrtSt → VrtSt) : (s.modRiser n f).bst = s.bst := rfl
@[simp] theorem State.modRiser_remapRuns (n : Nat) (f : VrtSt → VrtSt) : (s.modRiser n f).remapRuns = s.remapRuns := rfl
@[simp] theorem State.modRiser_tap (n : Nat) (f : VrtSt → VrtSt) : (s.modRiser n f).tap = s.tap := rfl

/-! ### `State.setLatch` -/

@[simp] theorem State.setLatch_pending (n : Nat) (l : Latch) : (s.setLatch n l).pending = s.pending := rfl
@[simp] theorem State.setLatch_epoch (n : Nat) (l : Latch) : (s.setLatch n l).epoch = s.epoch := rfl
@[simp] theorem State.setLatch_frame (n : Nat) (l : Latch) : (s.setLatch n l).frame = s.frame := rfl
@[simp] theorem State.setLatch_flit (n : Nat) (l : Latch) : (s.setLatch n l).flit = s.flit := rfl
@[simp] theorem State.setLatch_free (n : Nat) (l : Latch) : (s.setLatch n l).free = s.free := rfl
@[simp] theorem State.setLatch_dram (n : Nat) (l : Latch) : (s.setLatch n l).dram = s.dram := rfl
@[simp] theorem State.setLatch_larder (n : Nat) (l : Latch) : (s.setLatch n l).larder = s.larder := rfl
@[simp] theorem State.setLatch_staged (n : Nat) (l : Latch) : (s.setLatch n l).staged = s.staged := rfl
@[simp] theorem State.setLatch_active (n : Nat) (l : Latch) : (s.setLatch n l).active = s.active := rfl
@[simp] theorem State.setLatch_live (n : Nat) (l : Latch) : (s.setLatch n l).live = s.live := rfl
@[simp] theorem State.setLatch_links (n : Nat) (l : Latch) : (s.setLatch n l).links = s.links := rfl
@[simp] theorem State.setLatch_evq (n : Nat) (l : Latch) : (s.setLatch n l).evq = s.evq := rfl
@[simp] theorem State.setLatch_evLost (n : Nat) (l : Latch) : (s.setLatch n l).evLost = s.evLost := rfl
@[simp] theorem State.setLatch_reqs (n : Nat) (l : Latch) : (s.setLatch n l).reqs = s.reqs := rfl
@[simp] theorem State.setLatch_sentTags (n : Nat) (l : Latch) : (s.setLatch n l).sentTags = s.sentTags := rfl
@[simp] theorem State.setLatch_gate (n : Nat) (l : Latch) : (s.setLatch n l).gate = s.gate := rfl
@[simp] theorem State.setLatch_tiles (n : Nat) (l : Latch) : (s.setLatch n l).tiles = s.tiles := rfl
@[simp] theorem State.setLatch_lbs (n : Nat) (l : Latch) : (s.setLatch n l).lbs = s.lbs := rfl
@[simp] theorem State.setLatch_session (n : Nat) (l : Latch) : (s.setLatch n l).session = s.session := rfl
@[simp] theorem State.setLatch_votes (n : Nat) (l : Latch) : (s.setLatch n l).votes = s.votes := rfl
@[simp] theorem State.setLatch_cfgBad (n : Nat) (l : Latch) : (s.setLatch n l).cfgBad = s.cfgBad := rfl
@[simp] theorem State.setLatch_planId (n : Nat) (l : Latch) : (s.setLatch n l).planId = s.planId := rfl
@[simp] theorem State.setLatch_detFrom (n : Nat) (l : Latch) : (s.setLatch n l).detFrom = s.detFrom := rfl
@[simp] theorem State.setLatch_halted (n : Nat) (l : Latch) : (s.setLatch n l).halted = s.halted := rfl
@[simp] theorem State.setLatch_cst (n : Nat) (l : Latch) : (s.setLatch n l).cst = s.cst := rfl
@[simp] theorem State.setLatch_pwr (n : Nat) (l : Latch) : (s.setLatch n l).pwr = s.pwr := rfl
@[simp] theorem State.setLatch_ecc (n : Nat) (l : Latch) : (s.setLatch n l).ecc = s.ecc := rfl
@[simp] theorem State.setLatch_log (n : Nat) (l : Latch) : (s.setLatch n l).log = s.log := rfl
@[simp] theorem State.setLatch_eng (n : Nat) (l : Latch) : (s.setLatch n l).eng = s.eng := rfl
@[simp] theorem State.setLatch_larGen (n : Nat) (l : Latch) : (s.setLatch n l).larGen = s.larGen := rfl
@[simp] theorem State.setLatch_dramGen (n : Nat) (l : Latch) : (s.setLatch n l).dramGen = s.dramGen := rfl
@[simp] theorem State.setLatch_lar (n : Nat) (l : Latch) : (s.setLatch n l).lar = s.lar := rfl
@[simp] theorem State.setLatch_cel (n : Nat) (l : Latch) : (s.setLatch n l).cel = s.cel := rfl
@[simp] theorem State.setLatch_sec (n : Nat) (l : Latch) : (s.setLatch n l).sec = s.sec := rfl
@[simp] theorem State.setLatch_snapAt (n : Nat) (l : Latch) : (s.setLatch n l).snapAt = s.snapAt := rfl
@[simp] theorem State.setLatch_sbOut (n : Nat) (l : Latch) : (s.setLatch n l).sbOut = s.sbOut := rfl
@[simp] theorem State.setLatch_plan (n : Nat) (l : Latch) : (s.setLatch n l).plan = s.plan := rfl
@[simp] theorem State.setLatch_planChunks (n : Nat) (l : Latch) : (s.setLatch n l).planChunks = s.planChunks := rfl
@[simp] theorem State.setLatch_vrt (n : Nat) (l : Latch) : (s.setLatch n l).vrt = s.vrt := rfl
@[simp] theorem State.setLatch_clk (n : Nat) (l : Latch) : (s.setLatch n l).clk = s.clk := rfl
@[simp] theorem State.setLatch_thm (n : Nat) (l : Latch) : (s.setLatch n l).thm = s.thm := rfl
@[simp] theorem State.setLatch_bst (n : Nat) (l : Latch) : (s.setLatch n l).bst = s.bst := rfl
@[simp] theorem State.setLatch_remapRuns (n : Nat) (l : Latch) : (s.setLatch n l).remapRuns = s.remapRuns := rfl
@[simp] theorem State.setLatch_tap (n : Nat) (l : Latch) : (s.setLatch n l).tap = s.tap := rfl

/-! ### `State.setLinkState` -/

@[simp] theorem State.setLinkState_pending (n v : Nat) : (s.setLinkState n v).pending = s.pending := State.setF_pending s _ _
@[simp] theorem State.setLinkState_epoch (n v : Nat) : (s.setLinkState n v).epoch = s.epoch := State.setF_epoch s _ _
@[simp] theorem State.setLinkState_frame (n v : Nat) : (s.setLinkState n v).frame = s.frame := State.setF_frame s _ _
@[simp] theorem State.setLinkState_flit (n v : Nat) : (s.setLinkState n v).flit = s.flit := State.setF_flit s _ _
@[simp] theorem State.setLinkState_free (n v : Nat) : (s.setLinkState n v).free = s.free := State.setF_free s _ _
@[simp] theorem State.setLinkState_dram (n v : Nat) : (s.setLinkState n v).dram = s.dram := State.setF_dram s _ _
@[simp] theorem State.setLinkState_larder (n v : Nat) : (s.setLinkState n v).larder = s.larder := State.setF_larder s _ _
@[simp] theorem State.setLinkState_staged (n v : Nat) : (s.setLinkState n v).staged = s.staged := State.setF_staged s _ _
@[simp] theorem State.setLinkState_links (n v : Nat) : (s.setLinkState n v).links = s.links := State.setF_links s _ _
@[simp] theorem State.setLinkState_evq (n v : Nat) : (s.setLinkState n v).evq = s.evq := State.setF_evq s _ _
@[simp] theorem State.setLinkState_evLost (n v : Nat) : (s.setLinkState n v).evLost = s.evLost := State.setF_evLost s _ _
@[simp] theorem State.setLinkState_reqs (n v : Nat) : (s.setLinkState n v).reqs = s.reqs := State.setF_reqs s _ _
@[simp] theorem State.setLinkState_sentTags (n v : Nat) : (s.setLinkState n v).sentTags = s.sentTags := State.setF_sentTags s _ _
@[simp] theorem State.setLinkState_gate (n v : Nat) : (s.setLinkState n v).gate = s.gate := State.setF_gate s _ _
@[simp] theorem State.setLinkState_tiles (n v : Nat) : (s.setLinkState n v).tiles = s.tiles := State.setF_tiles s _ _
@[simp] theorem State.setLinkState_lbs (n v : Nat) : (s.setLinkState n v).lbs = s.lbs := State.setF_lbs s _ _
@[simp] theorem State.setLinkState_session (n v : Nat) : (s.setLinkState n v).session = s.session := State.setF_session s _ _
@[simp] theorem State.setLinkState_votes (n v : Nat) : (s.setLinkState n v).votes = s.votes := State.setF_votes s _ _
@[simp] theorem State.setLinkState_cfgBad (n v : Nat) : (s.setLinkState n v).cfgBad = s.cfgBad := State.setF_cfgBad s _ _
@[simp] theorem State.setLinkState_planId (n v : Nat) : (s.setLinkState n v).planId = s.planId := State.setF_planId s _ _
@[simp] theorem State.setLinkState_flt (n v : Nat) : (s.setLinkState n v).flt = s.flt := State.setF_flt s _ _
@[simp] theorem State.setLinkState_detFrom (n v : Nat) : (s.setLinkState n v).detFrom = s.detFrom := State.setF_detFrom s _ _
@[simp] theorem State.setLinkState_halted (n v : Nat) : (s.setLinkState n v).halted = s.halted := State.setF_halted s _ _
@[simp] theorem State.setLinkState_cst (n v : Nat) : (s.setLinkState n v).cst = s.cst := State.setF_cst s _ _
@[simp] theorem State.setLinkState_pwr (n v : Nat) : (s.setLinkState n v).pwr = s.pwr := State.setF_pwr s _ _
@[simp] theorem State.setLinkState_ecc (n v : Nat) : (s.setLinkState n v).ecc = s.ecc := State.setF_ecc s _ _
@[simp] theorem State.setLinkState_log (n v : Nat) : (s.setLinkState n v).log = s.log := State.setF_log s _ _
@[simp] theorem State.setLinkState_eng (n v : Nat) : (s.setLinkState n v).eng = s.eng := State.setF_eng s _ _
@[simp] theorem State.setLinkState_larGen (n v : Nat) : (s.setLinkState n v).larGen = s.larGen := State.setF_larGen s _ _
@[simp] theorem State.setLinkState_dramGen (n v : Nat) : (s.setLinkState n v).dramGen = s.dramGen := State.setF_dramGen s _ _
@[simp] theorem State.setLinkState_lar (n v : Nat) : (s.setLinkState n v).lar = s.lar := State.setF_lar s _ _
@[simp] theorem State.setLinkState_cel (n v : Nat) : (s.setLinkState n v).cel = s.cel := State.setF_cel s _ _
@[simp] theorem State.setLinkState_sec (n v : Nat) : (s.setLinkState n v).sec = s.sec := State.setF_sec s _ _
@[simp] theorem State.setLinkState_snapAt (n v : Nat) : (s.setLinkState n v).snapAt = s.snapAt := State.setF_snapAt s _ _
@[simp] theorem State.setLinkState_sbOut (n v : Nat) : (s.setLinkState n v).sbOut = s.sbOut := State.setF_sbOut s _ _
@[simp] theorem State.setLinkState_plan (n v : Nat) : (s.setLinkState n v).plan = s.plan := State.setF_plan s _ _
@[simp] theorem State.setLinkState_planChunks (n v : Nat) : (s.setLinkState n v).planChunks = s.planChunks := State.setF_planChunks s _ _
@[simp] theorem State.setLinkState_vrt (n v : Nat) : (s.setLinkState n v).vrt = s.vrt := State.setF_vrt s _ _
@[simp] theorem State.setLinkState_clk (n v : Nat) : (s.setLinkState n v).clk = s.clk := State.setF_clk s _ _
@[simp] theorem State.setLinkState_thm (n v : Nat) : (s.setLinkState n v).thm = s.thm := State.setF_thm s _ _
@[simp] theorem State.setLinkState_bst (n v : Nat) : (s.setLinkState n v).bst = s.bst := State.setF_bst s _ _
@[simp] theorem State.setLinkState_remapRuns (n v : Nat) : (s.setLinkState n v).remapRuns = s.remapRuns := State.setF_remapRuns s _ _
@[simp] theorem State.setLinkState_tap (n v : Nat) : (s.setLinkState n v).tap = s.tap := State.setF_tap s _ _

end Sys2Proof.Machine
end

