-- ==== Sys2Proof/Laws/Tab.lean ====
section
/-! SUPPORT. Laws of tables: a read after a write, at the same key and at another, and that a write keeps the canonical
form. Memories and register maps rest on these. -/

namespace Sys2Proof.Machine

variable {α : Type}

theorem Tab.get_insert_self (d : Nat → α) (t : Tab α) (k : Nat) (v : α) : Tab.get d (Tab.insert k v t) k = v := by
  induction t with
  | nil => simp [Tab.insert, Tab.get]
  | cons h t ih =>
    obtain ⟨k', v'⟩ := h
    unfold Tab.insert
    split
    · simp [Tab.get]
    · split
      · simp [Tab.get]
      · rename_i h1 h2
        simp [Tab.get, ih, Ne.symm h2]

theorem Tab.get_insert_ne (d : Nat → α) (t : Tab α) {k j : Nat} (v : α) (h : j ≠ k) :
    Tab.get d (Tab.insert k v t) j = Tab.get d t j := by
  induction t with
  | nil => simp [Tab.insert, Tab.get, Ne.symm h]
  | cons e t ih =>
    obtain ⟨k', v'⟩ := e
    unfold Tab.insert
    split
    · simp [Tab.get, Ne.symm h]
    · split
      · rename_i _ hk
        subst hk
        simp [Tab.get, Ne.symm h]
      · simp only [Tab.get, ih]

theorem Tab.get_erase_self (d : Nat → α) (t : Tab α) (k : Nat) : Tab.get d (Tab.erase k t) k = d k := by
  induction t with
  | nil => simp [Tab.erase, Tab.get]
  | cons e t ih =>
    obtain ⟨k', v'⟩ := e
    by_cases hk : k' = k
    · simp [Tab.erase, hk, ih]
    · simp [Tab.erase, Tab.get, hk, ih]

theorem Tab.get_erase_ne (d : Nat → α) (t : Tab α) {k j : Nat} (h : j ≠ k) :
    Tab.get d (Tab.erase k t) j = Tab.get d t j := by
  induction t with
  | nil => simp [Tab.erase]
  | cons e t ih =>
    obtain ⟨k', v'⟩ := e
    by_cases hk : k' = k
    · subst hk
      simp [Tab.erase, Tab.get, Ne.symm h, ih]
    · simp [Tab.erase, Tab.get, hk, ih]

/-- A read after a write to the same key gives the value written. -/
@[simp] theorem Tab.get_set_self [DecidableEq α] (d : Nat → α) (t : Tab α) (k : Nat) (v : α) :
    Tab.get d (Tab.set d t k v) k = v := by
  unfold Tab.set
  split
  · rename_i h
    rw [Tab.get_erase_self, h]
  · exact Tab.get_insert_self d t k v

/-- A write leaves every other key alone. -/
theorem Tab.get_set_ne [DecidableEq α] (d : Nat → α) (t : Tab α) {k j : Nat} (v : α) (h : j ≠ k) :
    Tab.get d (Tab.set d t k v) j = Tab.get d t j := by
  unfold Tab.set
  split
  · exact Tab.get_erase_ne d t h
  · exact Tab.get_insert_ne d t v h

theorem Tab.get_set [DecidableEq α] (d : Nat → α) (t : Tab α) (k j : Nat) (v : α) :
    Tab.get d (Tab.set d t k v) j = if j = k then v else Tab.get d t j := by
  by_cases h : j = k
  · subst h
    simp
  · simp [h, Tab.get_set_ne]

theorem Tab.wfFrom_weaken [DecidableEq α] (d : Nat → α) {t : Tab α} {l : Nat} (lo : Option Nat)
    (hlo : ∀ m, lo = some m → m ≤ l) (h : Tab.wfFrom d (some l) t = true) : Tab.wfFrom d lo t = true := by
  cases t with
  | nil => rfl
  | cons e t =>
    obtain ⟨k, v⟩ := e
    simp only [Tab.wfFrom, Bool.and_eq_true, decide_eq_true_eq] at h ⊢
    refine ⟨⟨?_, h.1.2⟩, h.2⟩
    cases lo with
    | none => rfl
    | some m =>
      have := hlo m rfl
      simp only [Tab.above, decide_eq_true_eq] at h ⊢
      omega

theorem Tab.wfFrom_erase [DecidableEq α] (d : Nat → α) (k : Nat) (t : Tab α) :
    ∀ lo, Tab.wfFrom d lo t = true → Tab.wfFrom d lo (Tab.erase k t) = true := by
  induction t with
  | nil => intro lo _; rfl
  | cons e t ih =>
    obtain ⟨k', v'⟩ := e
    intro lo h
    simp only [Tab.wfFrom, Bool.and_eq_true] at h
    by_cases hk : k' = k
    · simp only [Tab.erase, hk, if_true]
      refine ih lo (Tab.wfFrom_weaken d lo ?_ h.2)
      intro m hm
      subst hm
      have := h.1.1
      simp only [Tab.above, decide_eq_true_eq] at this
      omega
    · simp only [Tab.erase, hk, if_false, Tab.wfFrom, Bool.and_eq_true]
      exact ⟨h.1, ih _ h.2⟩

theorem Tab.wfFrom_insert [DecidableEq α] (d : Nat → α) {k : Nat} {v : α} (hv : v ≠ d k) (t : Tab α) :
    ∀ lo : Option Nat, (∀ m, lo = some m → m < k) → Tab.wfFrom d lo t = true →
      Tab.wfFrom d lo (Tab.insert k v t) = true := by
  induction t with
  | nil =>
    intro lo hlo _
    cases lo with
    | none => simp [Tab.insert, Tab.wfFrom, Tab.above, hv]
    | some m => simp [Tab.insert, Tab.wfFrom, Tab.above, hv, hlo m rfl]
  | cons e t ih =>
    obtain ⟨k', v'⟩ := e
    intro lo hlo h
    simp only [Tab.wfFrom, Bool.and_eq_true] at h
    have hbound : Tab.above lo k = true := by
      cases lo with
      | none => rfl
      | some m => simpa [Tab.above] using hlo m rfl
    unfold Tab.insert
    split
    · rename_i hlt
      simp only [Tab.wfFrom, Tab.above, Bool.and_eq_true, decide_eq_true_eq]
      exact ⟨⟨hbound, hv⟩, ⟨hlt, by simpa using h.1.2⟩, h.2⟩
    · split
      · rename_i heq
        subst heq
        simp only [Tab.wfFrom, Bool.and_eq_true, decide_eq_true_eq]
        exact ⟨⟨hbound, hv⟩, h.2⟩
      · simp only [Tab.wfFrom, Bool.and_eq_true]
        refine ⟨h.1, ih (some k') ?_ h.2⟩
        intro m hm
        cases hm
        omega

/-- Every write keeps the canonical form. -/
theorem Tab.wf_set [DecidableEq α] (d : Nat → α) (t : Tab α) (k : Nat) (v : α) (h : Tab.wf d t = true) :
    Tab.wf d (Tab.set d t k v) = true := by
  unfold Tab.set
  split
  · exact Tab.wfFrom_erase d k t none h
  · rename_i hv
    exact Tab.wfFrom_insert d hv t none (by simp) h

@[simp] theorem Tab.get_nil (d : Nat → α) (k : Nat) : Tab.get d [] k = d k := rfl

end Sys2Proof.Machine
end

