-- ==== Sys2Proof/Laws/Word.lean ====
section
/-! SUPPORT. Laws of register fields: a field that has been set reads as what was put in, and every other field as before. -/

namespace Sys2Proof

theorem Nat.testBit_field (x lo w i : Nat) : ((x >>> lo) % 2 ^ w).testBit i = (decide (i < w) && x.testBit (lo + i)) := by
  simp [Nat.testBit_mod_two_pow, Nat.testBit_shiftRight]

theorem Word.field_lt (x : Word) (lo w : Nat) : x.field lo w < 2 ^ w := Nat.mod_lt _ (by positivity)

/-- Bit `i` of a word with a field set. -/
theorem Word.getLsbD_setField (x : Word) (lo w v i : Nat) (hi : i < 32) :
    (x.setField lo w v).getLsbD i = if lo ≤ i ∧ i < lo + w then v.testBit (i - lo) else x.getLsbD i := by
  simp only [Word.setField, BitVec.getLsbD_or, BitVec.getLsbD_and, BitVec.getLsbD_not, BitVec.getLsbD_ofNat,
    Nat.testBit_shiftLeft, Nat.testBit_two_pow_sub_one, Nat.testBit_mod_two_pow, hi, decide_true, Bool.true_and]
  by_cases h1 : lo ≤ i
  · by_cases h2 : i < lo + w
    · have h3 : i - lo < w := by omega
      simp [h1, h2, h3]
    · have h3 : ¬ i - lo < w := by omega
      simp [h1, h2, h3]
  · simp [h1]

/-- A field that has been set reads as the low bits of what was put in. -/
theorem Word.field_setField_self (x : Word) (lo w v : Nat) (h : lo + w ≤ 32) : (x.setField lo w v).field lo w = v % 2 ^ w := by
  apply Nat.eq_of_testBit_eq
  intro i
  rw [Word.field, Nat.testBit_field, Nat.testBit_mod_two_pow]
  by_cases hi : i < w
  · have h32 : lo + i < 32 := by omega
    have := Word.getLsbD_setField x lo w v (lo + i) h32
    rw [← BitVec.testBit_toNat] at this
    simp [hi, this]
  · simp [hi]

/-- A field that shares no bit with the one that was set reads as before. -/
theorem Word.field_setField_ne (x : Word) {lo w lo' w' : Nat} (v : Nat) (h : lo' + w' ≤ lo ∨ lo + w ≤ lo') :
    (x.setField lo w v).field lo' w' = x.field lo' w' := by
  apply Nat.eq_of_testBit_eq
  intro i
  simp only [Word.field, Nat.testBit_field]
  by_cases hi : i < w'
  · by_cases h32 : lo' + i < 32
    · have := Word.getLsbD_setField x lo w v (lo' + i) h32
      rw [← BitVec.testBit_toNat] at this
      rw [this]
      have hn : ¬ (lo ≤ lo' + i ∧ lo' + i < lo + w) := by omega
      simp [hn, BitVec.testBit_toNat]
    · simp [BitVec.testBit_toNat, BitVec.getLsbD_of_ge, Nat.le_of_not_lt h32]
  · simp [hi]

end Sys2Proof
end

