-- ==== Sys2Proof/Laws/Regs.lean ====
section
/-! SUPPORT. Laws of registers: what a write of a register or a field leaves in every register and field, and that each
write keeps the canonical form of its map. -/

namespace Sys2Proof.Machine

/-! ### Maps -/

@[simp] theorem RegMap.val_put_self (m : RegMap) (a : Nat) (w : Word) : (m.put a w).val a = w := Tab.get_set_self _ _ _ _

theorem RegMap.val_put_ne (m : RegMap) {a b : Nat} (w : Word) (h : b ≠ a) : (m.put a w).val b = m.val b :=
  Tab.get_set_ne _ _ _ h

theorem RegMap.wf_put (m : RegMap) (a : Nat) (w : Word) (h : Tab.wf regReset m = true) : Tab.wf regReset (m.put a w) = true :=
  Tab.wf_set _ _ _ _ h

theorem RegMap.wf_setF (m : RegMap) (f : Fld) (v : Nat) (h : Tab.wf regReset m = true) : Tab.wf regReset (m.setF f v) = true :=
  RegMap.wf_put m _ _ h

/-- A field that has been set reads as the low bits of what was put in. -/
theorem RegMap.fv_setF_self (m : RegMap) (f : Fld) (v : Nat) (h : f.lo + f.width ≤ 32) : (m.setF f v).fv f = v % 2 ^ f.width := by
  simp [RegMap.fv, RegMap.setF, Word.field_setField_self _ _ _ _ h]

/-- Two fields that share no bit. -/
def Fld.apart (f g : Fld) : Prop := g.addr ≠ f.addr ∨ g.lo + g.width ≤ f.lo ∨ f.lo + f.width ≤ g.lo

/-- A field apart from the one that was set reads as before. -/
theorem RegMap.fv_setF_ne (m : RegMap) {f g : Fld} (v : Nat) (h : f.apart g) : (m.setF f v).fv g = m.fv g := by
  unfold RegMap.fv RegMap.setF
  by_cases ha : g.addr = f.addr
  · rw [ha, RegMap.val_put_self, Word.field_setField_ne _ v (h.resolve_left (by simp [ha]))]
  · rw [RegMap.val_put_ne _ _ ha]

theorem RegMap.val_setF_ne (m : RegMap) (f : Fld) (v : Nat) {a : Nat} (h : a ≠ f.addr) : (m.setF f v).val a = m.val a :=
  RegMap.val_put_ne m _ h

/-! ### The state -/

/-- The device sets a field: it reads as the low bits of what was put in. -/
theorem State.fv_setF_self (s : State) (f : Fld) (v : Nat) (h : f.lo + f.width ≤ 32) : (s.setF f v).fv f = v % 2 ^ f.width := by
  unfold State.fv State.setF
  cases hc : f.cfg <;> simp [RegMap.fv_setF_self _ _ _ h]

/-- Every field apart from the one set reads as before. -/
theorem State.fv_setF_ne (s : State) {f g : Fld} (v : Nat) (h : f.apart g) : (s.setF f v).fv g = s.fv g := by
  unfold State.fv State.setF
  cases hc : f.cfg <;> cases hg : g.cfg <;> simp [RegMap.fv_setF_ne _ _ h]

/-- A field of the other kind (configuration or not) reads as before. -/
theorem State.fv_setF_cfg (s : State) {f g : Fld} (v : Nat) (h : f.cfg ≠ g.cfg) : (s.setF f v).fv g = s.fv g := by
  unfold State.fv State.setF
  cases hc : f.cfg <;> cases hg : g.cfg <;> simp_all

theorem State.setF_live (s : State) (f : Fld) (v : Nat) (h : f.cfg = false) :
    s.setF f v = { s with live := s.live.setF f v } := by simp [State.setF, h]

theorem State.setF_active (s : State) (f : Fld) (v : Nat) (h : f.cfg = true) :
    s.setF f v = { s with active := s.active.setF f v } := by simp [State.setF, h]

/-- A counter has risen, and no further than its width. -/
theorem State.fv_addF_self (s : State) (f : Fld) (n : Nat) (h : f.lo + f.width ≤ 32) :
    (s.addF f n).fv f = min (s.fv f + n) (2 ^ f.width - 1) := by
  have hp : 0 < 2 ^ f.width := by positivity
  rw [State.addF, State.fv_setF_self _ _ _ h, satAdd, Nat.mod_eq_of_lt (by omega)]

theorem State.fv_inc_self (s : State) (f : Fld) (h : f.lo + f.width ≤ 32) :
    (s.inc f).fv f = min (s.fv f + 1) (2 ^ f.width - 1) := State.fv_addF_self s f 1 h

theorem State.fv_addF_ne (s : State) {f g : Fld} (n : Nat) (h : f.apart g) : (s.addF f n).fv g = s.fv g :=
  State.fv_setF_ne s _ h

theorem State.fv_inc_ne (s : State) {f g : Fld} (h : f.apart g) : (s.inc f).fv g = s.fv g := State.fv_addF_ne s 1 h

/-! ### Units -/

@[simp] theorem State.link_setLink_self (s : State) (n : Nat) (v : LinkSt) : (s.setLink n v).link n = v := Tab.get_set_self _ _ _ _
@[simp] theorem State.link_modLink_self (s : State) (n : Nat) (f : LinkSt → LinkSt) : (s.modLink n f).link n = f (s.link n) :=
  Tab.get_set_self _ _ _ _
theorem State.link_modLink_ne (s : State) {n k : Nat} (f : LinkSt → LinkSt) (h : k ≠ n) : (s.modLink n f).link k = s.link k :=
  Tab.get_set_ne _ _ _ h
@[simp] theorem State.tile_modTile_self (s : State) (n : Nat) (f : TileSt → TileSt) : (s.modTile n f).tile n = f (s.tile n) :=
  Tab.get_set_self _ _ _ _
theorem State.tile_modTile_ne (s : State) {n k : Nat} (f : TileSt → TileSt) (h : k ≠ n) : (s.modTile n f).tile k = s.tile k :=
  Tab.get_set_ne _ _ _ h
@[simp] theorem State.lb_modLb_self (s : State) (n : Nat) (f : LbSt → LbSt) : (s.modLb n f).lb n = f (s.lb n) := Tab.get_set_self _ _ _ _
theorem State.lb_modLb_ne (s : State) {n k : Nat} (f : LbSt → LbSt) (h : k ≠ n) : (s.modLb n f).lb k = s.lb k := Tab.get_set_ne _ _ _ h
@[simp] theorem State.latch_setLatch_self (s : State) (n : Nat) (l : Latch) : (s.setLatch n l).latch n = l := Tab.get_set_self _ _ _ _
theorem State.latch_setLatch_ne (s : State) {n k : Nat} (l : Latch) (h : k ≠ n) : (s.setLatch n l).latch k = s.latch k :=
  Tab.get_set_ne _ _ _ h

end Sys2Proof.Machine
end

