-- ==== Sys2Proof/Laws/Report.lean ====
section
/-! SUPPORT. Everything that raising a source (R423-R431) and sending an event (R61) can do. -/

namespace Sys2Proof.Machine

theorem Reported.refl (s : State) : Reported s s := ⟨rfl, fun _ _ => rfl⟩

theorem Reported.trans {s t u : State} (h : Reported s t) (h' : Reported t u) : Reported s u := by
  refine ⟨?_, fun a ha => (h'.2 a ha).trans (h.2 a ha)⟩
  rw [h'.1, h.1]

/-- A live field of one of the reporting registers is set. -/
theorem Reported.setF (s : State) (f : Fld) (v : Nat) (hc : f.cfg = false) (ha : f.addr ∈ reportRegs) : Reported s (s.setF f v) := by
  rw [State.setF_live _ _ _ hc]
  exact ⟨rfl, fun a h => RegMap.val_setF_ne _ _ _ fun e => h (e ▸ ha)⟩

theorem Reported.inc (s : State) (f : Fld) (hc : f.cfg = false) (ha : f.addr ∈ reportRegs) : Reported s (s.inc f) :=
  Reported.setF s f _ hc ha

/-- An event is queued, or counted as lost. -/
theorem State.sendEvent_reported (s : State) (code sev : Nat) (d : List (Nat × Nat × Nat)) : Reported s (s.sendEvent code sev d) := by
  unfold State.sendEvent
  split
  · exact ⟨rfl, fun _ _ => rfl⟩
  · have h := Reported.inc s F.LNK_EVT_LOST_count rfl (by decide)
    extract_lets s1
    split
    · exact h.trans ⟨rfl, fun _ _ => rfl⟩
    · exact h.trans ⟨rfl, fun _ _ => rfl⟩

theorem State.event_reported (s : State) (code : Nat) (d : List (Nat × Nat × Nat)) : Reported s (s.event code d) :=
  State.sendEvent_reported s code _ d

theorem State.restartQuiet_reported (s : State) : Reported s s.restartQuiet := by
  unfold State.restartQuiet
  extract_lets x s1
  have h : Reported s s1 := ⟨rfl, fun _ _ => rfl⟩
  split
  · exact h.trans (Reported.inc _ _ rfl (by decide))
  · exact h.trans (Reported.setF _ _ _ rfl (by decide))

theorem State.setLatch_reported (s : State) (n : Nat) (l : Latch) : Reported s (s.setLatch n l) := ⟨rfl, fun _ _ => rfl⟩

theorem State.noteRaised_reported (s : State) (n : Nat) (l : Latch) : Reported s (s.noteRaised n l) := ⟨rfl, fun _ _ => rfl⟩

theorem Reported.when {s t : State} (h : Reported s t) (c : Bool) (f : State → State) (hf : ∀ t, Reported t (f t)) :
    Reported s (t.when c f) := by
  unfold State.when
  split
  · exact h.trans (hf t)
  · exact h

theorem State.holdUnit_reported (s : State) (u : Option CUnit) : Reported s (s.holdUnit u) := by
  cases u <;> exact ⟨rfl, fun _ _ => rfl⟩

theorem State.faultEvent_reported (s : State) (src sev : Nat) (l : Latch) (u : Option CUnit) : Reported s (s.faultEvent src sev l u) :=
  (State.sendEvent_reported s _ _ _).trans
    (Reported.trans (⟨rfl, fun _ _ => rfl⟩ : Reported _ _) (Reported.inc _ _ rfl (by decide)))

/-- A source that is not fatal is raised: a report and nothing else. -/
theorem State.raise_reported (s : State) (src info : Nat) (h : s.severityOf src ≠ 5) : Reported s (s.raise src info) := by
  have h1 : Reported s (((s.noteRaised src ⟨s.severityOf src, s.epoch32, s.epoch32, 1, info % 2 ^ 16⟩).setLatch src
      (s.raisedLatch src (s.severityOf src) info)).inc F.FLT_CNT_RAISE_count) :=
    ((State.noteRaised_reported s src _).trans (State.setLatch_reported _ src _)).trans (Reported.inc _ _ rfl (by decide))
  unfold State.raise
  simp only [h, if_false]
  split
  · exact Reported.refl s
  split
  · exact h1
  · refine Reported.when (Reported.when (Reported.when ?_ _ _ ?_) _ _ ?_) _ _ ?_
    · exact (h1.trans (Reported.setF _ _ _ rfl (by decide))).trans (State.restartQuiet_reported _)
    · exact fun t => Reported.setF _ _ _ rfl (by decide)
    · exact fun t => State.holdUnit_reported t _
    · exact fun t => State.faultEvent_reported t _ _ _ _

/-- A report leaves every field outside the reporting registers as it was. -/
theorem Reported.fv {s t : State} (h : Reported s t) (f : Fld) (hf : f.addr ∉ reportRegs) : t.fv f = s.fv f := by
  obtain ⟨e, hl⟩ := h
  have ha : t.active = s.active := by rw [e]
  unfold State.fv RegMap.fv
  rw [ha, hl _ hf]

theorem Reported.link {s t : State} (h : Reported s t) (n : Nat) : t.link n = s.link n := by
  unfold State.link
  rw [h.1]

end Sys2Proof.Machine
end

