-- ==== Sys2Proof/Laws/Links.lean ====
section
/-! SUPPORT. Everything that the shared operations of a link can do: sending, receiving the side field, leaving a state. -/

namespace Sys2Proof.Machine

theorem LiveBut.refl (as : List Nat) (s : State) : LiveBut as s s := fun _ _ => rfl

theorem LiveBut.trans {as bs cs : List Nat} {s t u : State} (h : LiveBut as s t) (h' : LiveBut bs t u) (ha : as ⊆ cs) (hb : bs ⊆ cs) :
    LiveBut cs s u := fun a hc => (h' a fun hm => hc (hb hm)).trans (h a fun hm => hc (ha hm))

theorem LinksBut.refl (n : Nat) (s : State) : LinksBut n s s := fun _ _ => rfl

theorem LinksBut.trans {n : Nat} {s t u : State} (h : LinksBut n s t) (h' : LinksBut n t u) : LinksBut n s u :=
  fun k hk => (h' k hk).trans (h k hk)

/-- `t` is `s` but for link `n`, the responses that have gone out, and the live registers `as`. -/
def LinkStep (n : Nat) (as : List Nat) (s t : State) : Prop :=
  t = { s with links := t.links, live := t.live, reqs := t.reqs, sentTags := t.sentTags } ∧ LinksBut n s t ∧ LiveBut as s t

theorem LinkStep.refl (n : Nat) (as : List Nat) (s : State) : LinkStep n as s s := ⟨rfl, LinksBut.refl n s, LiveBut.refl as s⟩

theorem LinkStep.trans {n : Nat} {as : List Nat} {s t u : State} (h : LinkStep n as s t) (h' : LinkStep n as t u) : LinkStep n as s u := by
  refine ⟨?_, h.2.1.trans h'.2.1, h.2.2.trans h'.2.2 (List.Subset.refl _) (List.Subset.refl _)⟩
  rw [h'.1, h.1]

theorem LinkStep.modLink (n : Nat) (as : List Nat) (s : State) (f : LinkSt → LinkSt) : LinkStep n as s (s.modLink n f) :=
  ⟨rfl, fun _ h => s.link_modLink_ne f h, LiveBut.refl as s⟩

theorem LinkStep.setF (n : Nat) (as : List Nat) (s : State) (f : Fld) (v : Nat) (hc : f.cfg = false) (ha : f.addr ∈ as) :
    LinkStep n as s (s.setF f v) := by
  rw [State.setF_live _ _ _ hc]
  exact ⟨rfl, LinksBut.refl n s, fun a h => RegMap.val_setF_ne _ _ _ fun e => h (e ▸ ha)⟩

theorem LinkStep.inc (n : Nat) (as : List Nat) (s : State) (f : Fld) (hc : f.cfg = false) (ha : f.addr ∈ as) :
    LinkStep n as s (s.inc f) := LinkStep.setF n as s f _ hc ha

/-- A step that writes no register of the live map at all. -/
theorem LinkStep.only {n : Nat} {s t : State} (h : LinkStep n [] s t) (hl : t.live = s.live) :
    t = { s with links := t.links, reqs := t.reqs, sentTags := t.sentTags } := by
  have := h.1
  rw [hl] at this
  exact this

/-- What sending leaves alone in a link. -/
def Unsent {α : Type} (f : LinkSt → α) : Prop :=
  ∀ L o h t w r, f { L with out := o, held := h, txSeq := t, wire := w, retryOwed := r } = f L

theorem LinkSt.sendNew_keeps {α : Type} (f : LinkSt → α) (hf : Unsent f) (L : LinkSt) (o : List OutFlit) (x : OutFlit) :
    f ({ L with out := o }.sendNew x) = f L := hf L o _ _ _ _

/-- What a pump leaves alone in a link: everything but the flits that wait, those that are held, and what sending moves. -/
theorem pumpLoop_keeps {α : Type} (f : LinkSt → α) (hf : Unsent f) (k : Nat) (L : LinkSt) : f (pumpLoop k L).1 = f L := by
  induction k generalizing L with
  | zero => rfl
  | succ k ih =>
    unfold pumpLoop
    split
    · rfl
    · split
      · exact (ih _).trans (LinkSt.sendNew_keeps f hf _ _ _)
      · rfl

/-- No held flit is lost by a pump. -/
theorem pumpLoop_held (k : Nat) (L : LinkSt) (h : HeldFlit) (hh : h ∈ L.held) : h ∈ (pumpLoop k L).1.held := by
  induction k generalizing L with
  | zero => exact hh
  | succ k ih =>
    unfold pumpLoop
    split
    · exact hh
    · split
      · exact ih _ (by simp [LinkSt.sendNew, LinkSt.transmit, hh])
      · exact hh

/-- The responses that a pump sends have waited in the link. -/
theorem pumpLoop_done (k : Nat) (L : LinkSt) : ∀ x ∈ (pumpLoop k L).2, ∃ f ∈ L.out, f.typ = 3 ∧ f.resp = some x := by
  induction k generalizing L with
  | zero => intro x hx; cases hx
  | succ k ih =>
    intro x hx
    unfold pumpLoop at hx
    split at hx
    · cases hx
    · rename_i f rest ho
      split at hx
      · rcases List.mem_append.mp hx with h | h
        · split at h
          · rename_i ht
            exact ⟨f, by simp [ho], ht, Option.mem_toList.mp h⟩
          · cases h
        · obtain ⟨g, hg, h1, h2⟩ := ih _ x h
          exact ⟨g, by rw [ho]; exact List.mem_cons_of_mem _ hg, h1, h2⟩
      · cases hx

/-- Everything that freeing tags can do. -/
theorem State.freeTags (ks : List (Nat × Nat)) (s : State) :
    ks.foldl State.freeTag s = { s with reqs := (ks.foldl State.freeTag s).reqs, sentTags := (ks.foldl State.freeTag s).sentTags } ∧
    (ks.foldl State.freeTag s).reqs = s.reqs.filter (fun q => !ks.contains (q.port, q.tag)) ∧
    ∀ x ∈ (ks.foldl State.freeTag s).sentTags, x ∈ s.sentTags ∨ ((x.1, x.2.1) ∈ ks ∧ x.2.2 = s.absFrame) := by
  induction ks generalizing s with
  | nil => exact ⟨rfl, by simp, fun x h => .inl h⟩
  | cons k ks ih =>
    obtain ⟨h1, h2, h3⟩ := ih (s.freeTag k)
    rw [List.foldl_cons]
    refine ⟨?_, ?_, fun x hx => ?_⟩
    · rw [h1]
      rfl
    · rw [h2]
      show (s.reqs.filter fun q => !(q.port == k.1 && q.tag == k.2)).filter _ = _
      rw [List.filter_filter]
      refine List.filter_congr fun q _ => ?_
      rw [Bool.eq_iff_iff]
      simp [Prod.ext_iff]
      tauto
    · rcases h3 x hx with h | ⟨h, e⟩
      · rcases List.mem_append.mp h with h | h
        · exact .inl (List.mem_filter.mp h).1
        · rw [List.mem_singleton] at h
          subst h
          exact .inr ⟨List.mem_cons_self, rfl⟩
      · exact .inr ⟨List.mem_cons_of_mem _ h, e⟩

/-- Everything that a pump can do. -/
theorem State.pump_sends (s : State) (n : Nat) :
    LinkSends n s (s.pump n) ∧ (s.pump n).link n = if s.linkTalks n then (pumpLoop (s.link n).out.length (s.link n)).1 else s.link n := by
  unfold State.pump
  split
  · extract_lets r
    obtain ⟨h1, h2, h3⟩ := State.freeTags r.2 (s.setLink n r.1)
    refine ⟨⟨?_, fun k hk => ?_, _, pumpLoop_done _ _, h2, h3⟩, ?_⟩
    · rw [h1]
      rfl
    · unfold State.link
      rw [h1]
      exact Tab.get_set_ne _ _ _ hk
    · unfold State.link
      rw [h1]
      exact Tab.get_set_self _ _ _ _
  · exact ⟨⟨rfl, LinksBut.refl n s, [], by simp, by simp, fun x h => .inl h⟩, rfl⟩

theorem State.pump_keeps (s : State) (n : Nat) {α : Type} (f : LinkSt → α) (hf : Unsent f) : f ((s.pump n).link n) = f (s.link n) := by
  rw [(s.pump_sends n).2]
  split
  · exact pumpLoop_keeps f hf _ _
  · rfl

theorem LinkSends.step {n : Nat} {s t : State} (h : LinkSends n s t) (as : List Nat) : LinkStep n as s t := by
  have hl : t.live = s.live := by rw [h.1]
  refine ⟨?_, h.2.1, fun a _ => by rw [hl]⟩
  rw [hl]
  exact h.1

theorem State.pump_step (s : State) (n : Nat) (as : List Nat) : LinkStep n as s (s.pump n) := (s.pump_sends n).1.step as

theorem State.sendFlit_step (s : State) (n typ : Nat) (p : Payload) (as : List Nat) : LinkStep n as s (s.sendFlit n typ p) :=
  (LinkStep.modLink n as s _).trans (State.pump_step _ n as)

/-- A flit that is no response frees no other tag than those whose responses waited before it. -/
theorem State.sendFlit_freed (s : State) (n typ : Nat) (p : Payload) : FreedBy n s (s.sendFlit n typ p) := by
  obtain ⟨ks, h1, h2, h3⟩ := ((s.modLink n fun L => { L with out := L.out ++ [⟨typ, p, none⟩] }).pump_sends n).1.2.2
  refine ⟨ks, fun k hk => ?_, h2, h3⟩
  obtain ⟨f, hf, ht, hr⟩ := h1 k hk
  rw [State.link_modLink_self] at hf
  rcases List.mem_append.mp hf with h | h
  · exact ⟨f, h, ht, hr⟩
  · rw [List.mem_singleton] at h
    subst h
    cases hr

/-- Sending a flit leaves all of a link alone but what a pump moves. -/
theorem State.sendFlit_keeps (s : State) (n typ : Nat) (p : Payload) {α : Type} (f : LinkSt → α) (hf : Unsent f) :
    f ((s.sendFlit n typ p).link n) = f (s.link n) := by
  unfold State.sendFlit State.queueFlit
  rw [State.pump_keeps _ n f hf, State.link_modLink_self]
  exact hf (s.link n) _ (s.link n).held (s.link n).txSeq (s.link n).wire (s.link n).retryOwed

theorem State.sideIn_step (s : State) (n : Nat) (side : BitVec 48) (as : List Nat) : LinkStep n as s (s.sideIn n side) :=
  (LinkStep.modLink n as s _).trans (State.pump_step _ n as)

@[simp] theorem State.link_setF (s : State) (f : Fld) (v n : Nat) : (s.setF f v).link n = s.link n := by simp [State.link]
@[simp] theorem State.link_inc (s : State) (f : Fld) (n : Nat) : (s.inc f).link n = s.link n := by simp [State.link]

/-- The state of a link is a field of LNK_STATUS. -/
@[simp] theorem State.linkState_modLink (s : State) (n : Nat) (f : LinkSt → LinkSt) (k : Nat) : (s.modLink n f).linkState k = s.linkState k := rfl

theorem State.linkState_setLinkState (s : State) (n v : Nat) (h : v < 8) : (s.setLinkState n v).linkState n = v := by
  unfold State.linkState State.setLinkState
  rw [State.fv_setF_self _ _ _ (by show 0 + 3 ≤ 32; decide)]
  exact Nat.mod_eq_of_lt h

theorem LinkStep.linkState {n : Nat} {as : List Nat} {s t : State} (h : LinkStep n as s t) (k : Nat) (hk : R.LNK_STATUS k ∉ as) :
    t.linkState k = s.linkState k := by
  show (t.live.val (R.LNK_STATUS k)).field 0 3 = (s.live.val (R.LNK_STATUS k)).field 0 3
  rw [h.2.2 _ hk]

end Sys2Proof.Machine
end

