-- ==== Sys2Proof/Laws/Memory.lean ====
section
/-! SUPPORT. Laws of the two memories: a codeword that has been stored is read back, every byte outside its ten cells is as
before, and every store keeps the canonical form. -/

namespace Sys2Proof.Machine

/-- A run of byte writes keeps the canonical form. -/
theorem Memory.wf_foldl (f : Nat → Nat) (g : Nat → Byte) (ks : List Nat) (m : List Host.Cell) (h : Memory.wf m = true) :
    Memory.wf (ks.foldl (fun m k => Tab.set memDefault m (f k) (g k)) m) = true := by
  induction ks generalizing m with
  | nil => exact h
  | cons k ks ih => exact ih _ (Tab.wf_set _ _ _ _ h)

/-- A run of byte writes leaves every other byte alone. -/
theorem memByte_foldl_ne (f : Nat → Nat) (g : Nat → Byte) (ks : List Nat) (m : List Host.Cell) {a : Nat}
    (h : ∀ k ∈ ks, a ≠ f k) :
    memByte (ks.foldl (fun m k => Tab.set memDefault m (f k) (g k)) m) a = memByte m a := by
  induction ks generalizing m with
  | nil => rfl
  | cons k ks ih =>
    rw [List.foldl_cons, ih _ fun j hj => h j (List.mem_cons_of_mem _ hj)]
    exact Tab.get_set_ne _ _ _ (h k List.mem_cons_self)

/-- A run of byte writes to different addresses leaves each byte as written. -/
theorem memByte_foldl_mem (f : Nat → Nat) (g : Nat → Byte) (hf : ∀ i j, f i = f j → i = j) (ks : List Nat) (hd : ks.Nodup)
    (m : List Host.Cell) {k : Nat} (h : k ∈ ks) :
    memByte (ks.foldl (fun m k => Tab.set memDefault m (f k) (g k)) m) (f k) = g k := by
  induction ks generalizing m with
  | nil => cases h
  | cons j ks ih =>
    rw [List.foldl_cons]
    by_cases hk : k ∈ ks
    · exact ih hd.of_cons _ hk
    · have hj : k = j := (List.mem_cons.mp h).resolve_right hk
      subst hj
      rw [memByte_foldl_ne f g ks _ fun i hi e => hk (by rw [hf _ _ e]; exact hi)]
      exact Tab.get_set_self _ _ _ _

/-- Every store keeps the canonical form. -/
theorem Memory.wf_memPut (m : List Host.Cell) (w : Nat) (c : Codeword) (h : Memory.wf m = true) : Memory.wf (memPut m w c) = true :=
  Memory.wf_foldl (fun k => 10 * w + k) (fun k => BitVec.ofNat 8 (c.toNat >>> (8 * k))) _ m h

/-- The ten cells of a codeword, and no other byte, are stored to. -/
theorem memByte_memPut_ne (m : List Host.Cell) (w : Nat) (c : Codeword) {a : Nat} (h : a < 10 * w ∨ 10 * w + 10 ≤ a) :
    memByte (memPut m w c) a = memByte m a := by
  refine memByte_foldl_ne (fun k => 10 * w + k) (fun k => BitVec.ofNat 8 (c.toNat >>> (8 * k))) _ m fun k hk => ?_
  have := List.mem_range.mp hk
  show a ≠ 10 * w + k
  omega

theorem memByte_memPut_mem (m : List Host.Cell) (w : Nat) (c : Codeword) {k : Nat} (h : k < 10) :
    memByte (memPut m w c) (10 * w + k) = BitVec.ofNat 8 (c.toNat >>> (8 * k)) :=
  memByte_foldl_mem (fun k => 10 * w + k) (fun k => BitVec.ofNat 8 (c.toNat >>> (8 * k))) (fun i j e => by omega) _
    List.nodup_range m (List.mem_range.mpr h)

/-- The bytes of a number, put together again. -/
theorem ofLeBytes_map (x n : Nat) : ofLeBytes ((List.range n).map fun k => BitVec.ofNat 8 (x >>> (8 * k))) = x % 256 ^ n := by
  induction n generalizing x with
  | zero => simp [ofLeBytes, Nat.mod_one]
  | succ n ih =>
    have hs : (fun k => BitVec.ofNat 8 (x >>> (8 * k))) ∘ Nat.succ = fun k => BitVec.ofNat 8 ((x >>> 8) >>> (8 * k)) := by
      funext k
      simp [← Nat.shiftRight_add, Nat.mul_succ, Nat.add_comm]
    rw [List.range_succ_eq_map, List.map_cons, List.map_map, hs, ofLeBytes, ih]
    have h8 : x >>> 8 = x / 256 := Nat.shiftRight_eq_div_pow x 8
    rw [h8, pow_succ, Nat.mul_comm (256 ^ n) 256, Nat.mod_mul]
    simp

/-- A codeword that has been stored is read back. -/
theorem memWord_memPut_self (m : List Host.Cell) (w : Nat) (c : Codeword) : memWord (memPut m w c) w = c := by
  have h : (List.range 10).map (fun k => Tab.get memDefault (memPut m w c) (10 * w + k)) =
      (List.range 10).map fun k => BitVec.ofNat 8 (c.toNat >>> (8 * k)) :=
    List.map_congr_left fun k hk => memByte_memPut_mem m w c (List.mem_range.mp hk)
  unfold memWord
  rw [h, ofLeBytes_map]
  apply BitVec.eq_of_toNat_eq
  rw [BitVec.toNat_ofNat, Nat.mod_mod_of_dvd _ (by decide)]
  exact Nat.mod_eq_of_lt c.isLt

/-- Every other codeword is as before. -/
theorem memWord_memPut_ne (m : List Host.Cell) {w v : Nat} (c : Codeword) (h : v ≠ w) : memWord (memPut m w c) v = memWord m v := by
  unfold memWord
  congr 2
  refine List.map_congr_left fun k hk => ?_
  have := List.mem_range.mp hk
  exact memByte_memPut_ne m w c (by omega)

/-! ### The arrays -/

/-- A DRAM codeword that has been stored is read back, whatever its channel has lost before. -/
@[simp] theorem State.dramGet_dramPut_self (s : State) (i : Nat) (c : Codeword) : (s.dramPut i c).dramGet i = c := by
  simp [State.dramGet, State.dramPut, State.lostMask, memWord_memPut_self]

theorem State.dramGet_dramPut_ne (s : State) {i j : Nat} (c : Codeword) (h : j ≠ i) : (s.dramPut i c).dramGet j = s.dramGet j := by
  simp [State.dramGet, State.dramPut, State.lostMask, memWord_memPut_ne _ _ h]

/-- A Larder codeword that has been stored is read back. -/
@[simp] theorem State.larderGet_larderPut_self (s : State) (q bank line w : Nat) (c : Codeword) :
    (s.larderPut q bank line w c).larderGet q bank line w = c := by
  simp [State.larderGet, State.larderPut, State.powerMask, memWord_memPut_self]

/-- Every operation on a memory keeps its canonical form: a store, and the fill of an array. -/
theorem State.dramPut_wf (s : State) (i : Nat) (c : Codeword) (h : Memory.wf s.dram = true) : Memory.wf (s.dramPut i c).dram = true :=
  Memory.wf_memPut _ _ _ h

theorem State.larderPut_wf (s : State) (q bank line w : Nat) (c : Codeword) (h : Memory.wf s.larder = true) :
    Memory.wf (s.larderPut q bank line w c).larder = true :=
  Memory.wf_memPut _ _ _ h

theorem State.fillDram_wf (s : State) : Memory.wf s.fillDram.dram = true := rfl

theorem State.fillLarder_wf (s : State) : Memory.wf s.fillLarder.larder = true := rfl

/-- What is left of a memory when the bytes of some addresses are dropped is in canonical form. -/
theorem Memory.wf_filter (p : Host.Cell → Bool) (m : List Host.Cell) (h : Memory.wf m = true) : Memory.wf (m.filter p) = true := by
  have go : ∀ (m : List Host.Cell) (lo : Option Nat), Tab.wfFrom memDefault lo m = true → Tab.wfFrom memDefault lo (m.filter p) = true := by
    intro m
    induction m with
    | nil => intro lo _; rfl
    | cons e m ih =>
      obtain ⟨k, v⟩ := e
      intro lo h
      simp only [Tab.wfFrom, Bool.and_eq_true] at h
      rw [List.filter_cons]
      split
      · simp only [Tab.wfFrom, Bool.and_eq_true]
        exact ⟨h.1, ih _ h.2⟩
      · refine Tab.wfFrom_weaken memDefault lo (l := k) ?_ (ih _ h.2)
        intro m' hm
        subst hm
        have := h.1.1
        simp only [Tab.above, decide_eq_true_eq] at this
        omega
  exact go m none h

end Sys2Proof.Machine
end

