-- ==== Sys2Proof/Laws/Slots.lean ====
section
/-! SUPPORT. Everything that a slot of a tile can do beside the work of maintenance (R138, R139, R145, R149), and when the paths of the
Larder let an operation through (R296, R297). -/

namespace Sys2Proof.Machine

/-! ### Slots -/

/-- The live registers that a slot of tile `t` writes beside those of maintenance. -/
def slotRegs (t : Nat) : List Nat := [R.SCH_CNT_ACT t, R.SCH_CNT_EXPRESS t, R.SCH_CNT_REF t, R.SCH_CNT_MITIG t, R.ENG_CTL t]

/-- `u` is `s` but for tile `t`, what the requests keep of their bursts, the weathervanes and the registers of a slot. -/
def SlotStep (t : Nat) (s u : State) : Prop :=
  u = { s with tiles := u.tiles, reqs := u.reqs, live := u.live, thm := u.thm } ∧ (∀ k, k ≠ t → u.tile k = s.tile k) ∧ LiveBut (slotRegs t) s u

theorem SlotStep.refl (t : Nat) (s : State) : SlotStep t s s := ⟨rfl, fun _ _ => rfl, fun _ _ => rfl⟩

theorem SlotStep.trans {t : Nat} {s u v : State} (h : SlotStep t s u) (h' : SlotStep t u v) : SlotStep t s v := by
  refine ⟨?_, fun k hk => (h'.2.1 k hk).trans (h.2.1 k hk), fun a ha => (h'.2.2 a ha).trans (h.2.2 a ha)⟩
  rw [h'.1, h.1]

theorem SlotStep.setTile (t : Nat) (s : State) (T : TileSt) : SlotStep t s (s.setTile t T) :=
  ⟨rfl, fun _ hk => Tab.get_set_ne _ _ _ hk, fun _ _ => rfl⟩

theorem SlotStep.modTile (t : Nat) (s : State) (f : TileSt → TileSt) : SlotStep t s (s.modTile t f) := SlotStep.setTile t s _

theorem SlotStep.modOf (t : Nat) (s : State) (b : Burst) (f : Req → Req) : SlotStep t s (s.modOf b f) := ⟨rfl, fun _ _ => rfl, fun _ _ => rfl⟩

theorem SlotStep.setF (t : Nat) (s : State) (f : Fld) (v : Nat) (hc : f.cfg = false) (ha : f.addr ∈ slotRegs t) : SlotStep t s (s.setF f v) := by
  rw [State.setF_live _ _ _ hc]
  exact ⟨rfl, fun _ _ => rfl, fun a h => RegMap.val_setF_ne _ _ _ fun e => h (e ▸ ha)⟩

theorem SlotStep.inc (t : Nat) (s : State) (f : Fld) (hc : f.cfg = false) (ha : f.addr ∈ slotRegs t) : SlotStep t s (s.inc f) :=
  SlotStep.setF t s f _ hc ha

theorem SlotStep.when {t : Nat} {s u : State} (h : SlotStep t s u) (c : Bool) (f : State → State) (hf : ∀ v, SlotStep t v (f v)) :
    SlotStep t s (u.when c f) := by
  cases c
  · exact h
  · exact h.trans (hf u)

/-- R137, R155: a burst opens its row or finds it open. -/
theorem State.runBurst_step (s : State) (t : Nat) (b : Burst) : SlotStep t s (s.runBurst t b) := by
  unfold State.runBurst
  extract_lets T row T1 T2
  split
  · exact SlotStep.setTile t s _
  · exact (SlotStep.setTile t s _).trans (SlotStep.inc t _ _ rfl (by simp [slotRegs, F.SCH_CNT_ACT_count, R.SCH_CNT_ACT]))

theorem State.noteBurst_step (s : State) (t : Nat) (u : OpenUse) : SlotStep t s (s.noteBurst t u) := by
  unfold State.noteBurst
  extract_lets b
  split
  · exact SlotStep.refl t s
  · exact (SlotStep.modOf t s _ _).when _ _ fun v => SlotStep.inc t v _ rfl (by simp [slotRegs, F.SCH_CNT_EXPRESS_count, R.SCH_CNT_EXPRESS])

theorem State.runOpen_step (s : State) (t : Nat) (u : OpenUse) : SlotStep t s (s.runOpen t u) :=
  (((SlotStep.modTile t s _).trans (State.runBurst_step _ t _)).trans (State.noteBurst_step _ t _)).trans
    (SlotStep.setF t _ (F.ENG_CTL_flush_busy t) _ rfl (by simp [slotRegs, F.ENG_CTL_flush_busy, R.ENG_CTL]))

/-- R149: an open slot, or one of the margin. -/
theorem State.openSlot_step (s : State) (t : Nat) (margin : Bool) : SlotStep t s (s.openSlot t margin) := by
  unfold State.openSlot
  split
  · exact SlotStep.modTile t s _
  · split
    · exact (State.runOpen_step s t _).trans (SlotStep.modTile t _ _)
    · exact SlotStep.modTile t s _

/-- R139, R145: the planned slot of a burst. -/
theorem State.plannedSlot_step (s : State) (t : Nat) (b : Burst) (rest : List Burst) : SlotStep t s (s.plannedSlot t b rest) := by
  unfold State.plannedSlot
  extract_lets c s1
  have h : SlotStep t s s1 := (SlotStep.modTile t s _).trans (SlotStep.modTile t _ _)
  split
  · exact ((h.trans (State.runBurst_step s1 t c)).trans (SlotStep.modTile t _ _)).trans (SlotStep.modOf t _ c _)
  · exact (h.trans (SlotStep.modTile t s1 _)).trans (State.openSlot_step _ t false)

/-- R151, R152, R372: a refresh slot. -/
theorem State.refreshNow_step (s u : State) (t : Nat) (h : s.refreshNow t = some u) : SlotStep t s u := by
  have done : ∀ T, SlotStep t s ((s.setTile t T).inc (F.SCH_CNT_REF_count t)) := fun T =>
    (SlotStep.setTile t s T).trans (SlotStep.inc t _ _ rfl (by simp [slotRegs, F.SCH_CNT_REF_count, R.SCH_CNT_REF]))
  simp only [State.refreshNow] at h
  split at h
  · cases h
  · split at h
    · cases h; exact done _
    · split at h
      · next v hv =>
        cases h
        simp only [State.wvNext] at hv
        split at hv
        · cases hv
        · obtain ⟨w, -, rfl⟩ := Option.map_eq_some_iff.mp hv
          exact SlotStep.trans ⟨rfl, fun _ _ => rfl, fun _ _ => rfl⟩ (SlotStep.modTile t _ _)
      · split at h
        · cases h
        · obtain ⟨b, -, rfl⟩ := Option.map_eq_some_iff.mp h
          exact done _

/-- R156: a mitigation slot. -/
theorem State.mitigateNow_step (s u : State) (t : Nat) (h : s.mitigateNow t = some u) : SlotStep t s u := by
  simp only [State.mitigateNow] at h
  split at h
  · cases h
  · cases h
    exact (SlotStep.setTile t s _).trans (SlotStep.inc t _ _ rfl (by simp [slotRegs, F.SCH_CNT_MITIG_count, R.SCH_CNT_MITIG]))

/-- R138: the idle slot of a turn between reads and writes. -/
theorem State.turnSlot_step (s : State) (t : Nat) : SlotStep t s (s.turnSlot t) := by
  have left : ∀ l, SlotStep t s (s.setLeft t l) := fun l => SlotStep.modTile t s _
  have quiet : ∀ l, SlotStep t s ((s.setLeft t l).quiet t) := fun l => (left l).trans (SlotStep.modTile t _ _)
  have orQuiet : ∀ l (x : Option State), (∀ u, x = some u → SlotStep t (s.setLeft t l) u) → SlotStep t s (x.getD ((s.setLeft t l).quiet t)) := by
    intro l x hx
    cases x with
    | none => exact quiet l
    | some u => exact (left l).trans (hx u rfl)
  unfold State.turnSlot
  extract_lets l
  split
  · exact orQuiet _ _ fun u hu => State.refreshNow_step _ u t hu
  · split
    · exact orQuiet _ _ fun u hu => State.mitigateNow_step _ u t hu
    · split
      · exact quiet _
      · exact quiet _

/-! ### The paths of the Larder -/

/-- R296, R297: a request of the host path that nothing stands in the way of performs its lines in this flit. -/
theorem State.hostPath_free (s : State) (r : Req) (more : List LAcc) (go : State → State) (h : HostFree s r more) :
    s.hostPath r more go = go { s with lar := { s.lar with host := s.lar.host ++ hostUse r } } := by
  have h1 : (hostUse r).find? (fun x => (s.hostAhead r).any fun y => x.at_ == y.at_) = none := by
    rw [List.find?_eq_none]
    intro x hx
    simpa using fun y hy => (h x hx).1 y hy
  have h2 : (hostUse r).find? (fun x => (s.lar.eng ++ more).any x.meets) = none := by
    rw [List.find?_eq_none]
    intro x hx
    rw [Bool.not_eq_true, List.any_eq_false]
    intro y hy
    simp [(h x hx).2 y hy]
  simp only [State.hostPath, h1, h2]

/-- R296, R297: an operation of an engine that nothing stands in the way of accesses its lines in this flit. -/
theorem State.enginePath_free (s : State) (r : Req) (t e : Nat) (use : List LAcc) (go : State → State) (h : EngineFree s r t use) :
    ∃ waits turn, s.enginePath r t e use go = go { s with lar := { s.lar with eng := s.lar.eng ++ use, waits := waits, turn := turn } } := by
  have h2 : (use.any fun x => s.lar.host.any x.meets) = false := by
    rw [List.any_eq_false]
    intro x hx
    simpa using fun y hy => h.2 x hx y hy
  simp only [State.enginePath, h.1, h2, Bool.false_eq_true, if_false]
  exact ⟨_, _, rfl⟩

end Sys2Proof.Machine
end

