-- ==== Sys2Proof/WellFormed.lean ====
section
/-! DEFINITION. Which operands a command can bring beside what their types say: lines of a riser (R337 counts 208 of them),
rows of a bank, and findings of which there is one for each thing found. `exec` is total and does not ask for it. -/

namespace Sys2Proof

/-- A line number of a riser (R337). -/
def isLine (b : BitVec 8) : Bool := decide (b.toNat < 208)

/-- Every first component occurs once. -/
def once {α β : Type} [DecidableEq α] (l : List (α × β)) : Bool := decide (l.map Prod.fst).Nodup

/-- One reading for each thing read in a housekeeping round. -/
def RoundObs.wf (o : RoundObs) : Bool := once o.codes && once o.temps && once o.volts && once o.currents

/-- One eye for each lane of a direction. -/
def TrainObs.wf (o : TrainObs) : Bool := once o.eyeIn && once o.eyeOut

/-- A command whose operands can occur. -/
def Instr.wf : Instr → Bool
  | .trainStepDone _ obs _ => obs.wf
  | .shortRetrainStepDone _ obs _ => obs.wf
  | .otpBurn _ obs => once obs.reread
  | .otpFinalise _ obs => once obs.reread
  | .secLifecycleMove _ obs _ => once obs.reread
  | .secLifecycleRevoke _ obs _ => once obs.reread
  | .fwActivateCommit _ obs => once obs.reread
  | .epochBoundary lanes lines => once lanes && once lines
  | .hammerTrigger _ _ row => decide (row.toNat < 49184)
  | .riserTrainStepDone _ _ fails _ => fails.all isLine
  | .probeComplete _ obs => once obs
  | .larderScrub _ obs => once obs
  | .lineFailing _ line _ => isLine line
  | .softRepairVerifyDone _ line _ => isLine line
  | .housekeepingRoundEnd obs => obs.wf
  | .calStepDone bad _ => bad.all isLine
  | .reducedCalChunk bad _ => bad.all isLine
  | .logicTestDone _ _ fails _ => decide fails.Nodup
  | .riserTestStepDone bad => bad.all isLine
  | .larderBankTestStep _ lines banks => decide lines.Nodup && decide banks.Nodup
  | .unitReturnSwitch _ _ bad => bad.all isLine
  | .tierScan codes => once codes
  | .strongroomBoot fuses _ => once fuses
  | .parlourWatchdogExpiry _ upsets => once upsets
  | .retentionExitDone _ _ bad => decide bad.Nodup
  | .bootPhaseAdvance fuses => once fuses
  | .clockDrift _ | .reqFlit _ _ _ _ | .requestHeader _ | .decisionVector _ | .decisionComplement _ | .wdata _
  | .wdataLate _ _ | .sequencedFlit _ _ _ _ | .retry _ | .replayTimeout _ _ | .creditReturn _ _ | .linkOpen _
  | .linkToVestibule _ | .park _ | .parkAck _ | .parkNak _ | .parkEntry _ | .autoDoze _ _ | .linkWake _
  | .trainingStart _ | .forwardedClockStop _ | .lnkRetrain _ _ _ | .trainStepTimeout _ | .trainTotalTimeout _
  | .trainBackoffExpiry _ | .shortRetrainTimeout _ | .laneRepairRequest _ _ _ | .repair _ | .repairAck _
  | .repairNak _ | .laneRepairSwitch _ | .repairAckTimeout _ | .lnkRepairReq _ _ _ | .dquery _ | .historyDiscard _
  | .eventDelivery | .lnkHoldDown _ _ _ | .lnkCntClear _ _ _ | .lnkLaneErrClear _ _ _ | .lnkEvtLostClear _ _
  | .rd _ _ | .wr _ _ | .wrm _ _ | .lrd _ _ _ _ | .lwr _ _ _ _ | .lwrm _ _ _ _ | .fence _ _ | .tquery _ _
  | .cadd64 _ _ _ | .caddpb _ _ _ | .caddd32 _ _ _ | .crd _ _ _ | .crdclr _ _ _ | .cflush _ _ | .pol _ _ _ | .hlk _ _
  | .hins _ _ | .hdel _ _ | .lpm _ _ | .walkNodeReturn _ _ _ | .walkStepTimeout _ _ | .enq _ _ | .deq _ _
  | .qstat _ _ | .responseSend _ _ | .regwr _ _ | .regrd _ _ | .registerWrite _ _ _ _ | .sbStatus | .sbRead _ _
  | .sbWrite _ _ _ | .sbUnknownOpcode _ | .sbCsRise _ _ | .mbxBufWrite _ _ _ _ | .mbxDoorbell _ _ _ | .mbxAbort _ _ _
  | .mbxRelease _ _ _ | .mbxClaimTimeout _ _ | .mbxDeadlineExpiry _ _ | .infoId _ | .infoStatus _ | .infoCaps _
  | .modeGet _ | .modeSet _ | .planLoad _ | .planCheck _ | .planCommit _ | .planGet _ | .portSet _ | .portGet _
  | .portReset _ | .portResetCommit | .zoneSet _ | .zoneGet _ | .retireRow _ | .retireBank _ | .retireRestore _
  | .retireRemap _ | .logRead _ | .logClear _ | .logSnapshot _ | .testRun _ | .testResult _ | .testSchedule _
  | .thermGet _ | .thermSet _ | .calRun _ | .calStatus _ | .otpRead _ | .secAttest _ | .secChallenge _
  | .secUnlock _ _ | .fwLoad _ | .fwActivateTry _ | .fwActivateRevert _ | .fwStatus _ | .cfgBegin _ | .cfgCommit _
  | .cfgAbort _ | .cfgRef _ | .cfgSave _ | .configCommitBoundary | .cfgCrcPass _ _ _ | .voteDisagreement _ _ _
  | .cfgSessionIdle _ | .bootFlashConfigApply | .snapshotRequest _ _ | .snapshotTake | .penaltyExpiry
  | .actBudgetPeriod | .shortfallMergeExpiry | .demandReport | .prtCntClear _ _ _ | .schPoolOverClear _ _ _
  | .schCntClear _ _ _ | .arrayFillDone | .spillRecordWrite _ | .spillLostMergeExpiry _ | .engRingConsWr _ _
  | .engEpochLoRead _ _ | .engCntClear _ _ _ | .engLkCntClear _ _ _ | .freeRefillLand _ | .pairFree _
  | .headCacheIdleRelease _ _ | .celQreset _ _ | .cellarInit | .cellarInitDone | .celCntClear _ _
  | .larCntClear _ _ _ | .larConfClear _ _ _ | .recurrenceAgeExpiry _ _ | .probeStart _ | .polisherRead _
  | .polisherWriteback _ | .logMove | .eccInjArm _ _ | .eccCntClear _ _ _ | .softRepairSwitch _ | .vrtRepairReq _ _ _
  | .spareRiserMove _ | .vrtCntClear _ _ _ | .pllLockLoss _ | .crossingTuneDone _ _ _ | .clockFallbackEntry
  | .clockFallbackExit | .clkCntClear _ _ | .dieIdcode _ | .dwrSample _ _ | .dwrExtest _ _ _ | .dieReg _ _ _ _ _
  | .dieBypass _ | .weathervaneRead _ _ _ | .weathervaneFreshnessExpiry _ | .weathervaneStale _ | .thermalShutdown _
  | .hkpCntClear _ _ | .thmCntClear _ _ | .infieldTestDue _ | .engineDrainDone _ | .logicTestTimeout _
  | .rowTestStep _ _ _ | .testYield _ | .yieldRetryExpiry _ _ | .bstCntClear _ _ | .idcode | .samplePreload _ _
  | .extest _ _ | .clamp | .highz | .tierSel _ | .coreSel _ | .wirScan _ | .wdrScan _ _ | .regAccess _ _ _ _
  | .sec _ _ _ _ | .bypass | .wsBypass | .wsExtest _ _ | .wsIntest _ _ | .wsPreload _ _ | .wsLbist | .wsClamp _ _
  | .testReset _ | .quietPeriodExpiry | .containUnit | .containRelease _ _ _ | .fltDetClr _ _ | .fltCntClear _ _
  | .cstCntClear _ _ | .secWdKick _ _ | .strongroomWatchdogExpiry _ | .unlockExpiry | .nonceLapse | .lifecycleEffect
  | .returnedWipeDone | .secDbghalt _ _ | .secDbgmemAccess _ _ | .secCntClear _ _ | .modeChangeBoundary | .coolPark _
  | .coolParkTimeout _ | .retentionDrainDone _ | .retentionDrainTimeout | .pwrWake _ _ | .brownOut _ | .domainFault _
  | .powerGood | .bootTimeout | .coldReset | .warmReset | .warmResetRelease | .linkReset _ _ | .pwrCntClear _ _
  | .idleFlit _ _ _ | .pllLock _ => true

end Sys2Proof
end

