-- ==== Sys2Proof/Tests/Slice0.lean ====
section
/-! SUPPORT. Tests: an ill-formed term for each check of WellFormed, small steps with results taken from the spec, and for every
statement a witness: a concrete state and operands that meet its hypotheses together. -/

namespace Sys2Proof.Tests

open Sys2Proof Sys2Proof.Machine

set_option Elab.async false

/-! ### Ill-formed commands -/

/-- A burn whose changed readings name a word twice. -/
def twiceReread : BurnObs := ⟨[], [(0, 1, 1, 1), (0, 0, 0, 0)], none, none⟩

/-- An eye given twice for a lane. -/
def twiceEye : TrainObs := ⟨true, [(3, 1), (3, 2)], [], true, true, true, true, true⟩

def twiceEyeOut : TrainObs := ⟨true, [], [(69, 1), (69, 2)], true, true, true, true, true⟩

theorem test_illformed_train : (Instr.trainStepDone 0 twiceEye false).wf = false ∧ (Instr.trainStepDone 0 twiceEyeOut false).wf = false ∧
    (Instr.shortRetrainStepDone 0 twiceEye false).wf = false := by decide

theorem test_illformed_burn : (Instr.otpBurn 5 twiceReread).wf = false ∧ (Instr.otpFinalise 5 twiceReread).wf = false ∧
    (Instr.secLifecycleMove 5 twiceReread false).wf = false ∧ (Instr.secLifecycleRevoke 5 twiceReread false).wf = false ∧
    (Instr.fwActivateCommit 5 twiceReread).wf = false := by decide

theorem test_illformed_fuses : (Instr.strongroomBoot [(7, 0, 0, 0), (7, 1, 1, 1)] none).wf = false ∧
    (Instr.bootPhaseAdvance [(7, 0, 0, 0), (7, 1, 1, 1)]).wf = false := by decide

theorem test_illformed_epoch : (Instr.epochBoundary [(1, 2), (1, 3)] []).wf = false ∧
    (Instr.epochBoundary [] [(1, 2), (1, 3)]).wf = false := by decide

/-- R137: rows 0-49,151 and the spare and Weathervane rows. -/
theorem test_illformed_row : (Instr.hammerTrigger 0 0 49184).wf = false ∧ (Instr.hammerTrigger 0 0 49183).wf = true := by decide

/-- R337: 208 lines, 0-207. -/
theorem test_illformed_lines : (Instr.riserTrainStepDone 0 true [208] []).wf = false ∧ (Instr.lineFailing 0 208 false).wf = false ∧
    (Instr.softRepairVerifyDone 0 208 false).wf = false ∧ (Instr.calStepDone [208] []).wf = false ∧ (Instr.reducedCalChunk [208] []).wf = false ∧
    (Instr.riserTestStepDone [208]).wf = false ∧ (Instr.unitReturnSwitch .riser true [208]).wf = false ∧
    (Instr.lineFailing 0 207 false).wf = true := by decide

theorem test_illformed_repeats : (Instr.probeComplete 0 [(2, true), (2, false)]).wf = false ∧ (Instr.larderScrub 0 [(2, true), (2, false)]).wf = false ∧
    (Instr.tierScan [(4, 1), (4, 2)]).wf = false ∧ (Instr.parlourWatchdogExpiry 0 [(9, 1), (9, 2)]).wf = false ∧
    (Instr.logicTestDone (.tile 0) 0 [5, 5] false).wf = false ∧ (Instr.larderBankTestStep 0 [1, 1] []).wf = false ∧
    (Instr.larderBankTestStep 0 [] [1, 1]).wf = false ∧ (Instr.retentionExitDone 0 0 [6, 6]).wf = false := by decide

/-- R367: one reading of each kind for each thing read. -/
theorem test_illformed_round : (Instr.housekeepingRoundEnd ⟨[(0, 1), (0, 2)], [], [], [], 0⟩).wf = false ∧
    (Instr.housekeepingRoundEnd ⟨[], [(0, 1), (0, 2)], [], [], 0⟩).wf = false ∧
    (Instr.housekeepingRoundEnd ⟨[], [], [(0, 1), (0, 2)], [], 0⟩).wf = false ∧
    (Instr.housekeepingRoundEnd ⟨[], [], [], [(0, 1), (0, 2)], 0⟩).wf = false := by decide

/-! ### Helpers -/

/-- A state with a field set. -/
def withF (f : Fld) (v : Nat) (s : State) : State := s.setF f v

/-- Link `n` in the state `v`, all else as after reset. -/
def linkIn (n v : Nat) : State := State.reset.setLinkState n v

/-- The side field of a flit of a type with a sequence field, and the CRC that goes with a payload (R16, R18). -/
def sideOf (typ seq : Nat) (d : Payload) : BitVec 48 :=
  let x : BitVec 48 := BitVec.ofNat 48 (typ * 2 ^ 44 + seq * 2 ^ 36)
  x + BitVec.ofNat 48 (crc24 0 x d)

/-- A device in service with nothing committed: power good, READY. -/
def up : State := { State.reset with pwr := { good := true, phase := 7, booted := true } }

/-- A device in service: committed, port `p` enabled with management rights and every opcode, its link OPEN. -/
def serving (p : Nat) : State :=
  ((((up.setF F.CFG_STATUS_committed 1).setF (F.PRT_CTL_enable p) 1).setF (F.PRT_CTL_mgmt p) 1).setF (F.PRT_OPS_ops p) 0x1FF).setLinkState (p / 4) lsOpen

/-- A link control message with a code waits on link `n` (R59). -/
def told (n code : Nat) (more : List (Nat × Nat × Nat)) (s : State) : State :=
  s.modLink n fun L => { L with inbox := [(5, payload ([(0, 1, 1), (1, 1, code)] ++ more))] }

/-- The fields of a severity register that hold 5, but for the sources that stop the device by default. -/
def mildReg (k : Nat) (v : Word) : Bool :=
  (List.range 8).all fun j => [616, 655, 713].contains (8 * k + j) || decide (722 ≤ 8 * k + j) || v.field (4 * j) 3 != 5

theorem mild_regs : ∀ k, k < 91 → mildReg k (regReset (R.FLT_SEV k)) = true := by decide +kernel

/-- While every severity is at its default, a lost vote, the Strongroom's watchdog and the thermal shutdown alone are fatal (R422). -/
theorem severity_default (src : Nat) (h : src < 722) (h1 : src ≠ 616) (h2 : src ≠ 655) (h3 : src ≠ 713) : State.reset.severityOf src ≠ 5 := by
  have m := mild_regs (src / 8) (by omega)
  unfold mildReg at m
  rw [List.all_eq_true] at m
  have m := m (src % 8) (List.mem_range.mpr (by omega))
  have e : 8 * (src / 8) + src % 8 = src := by omega
  rw [e] at m
  have c : ([616, 655, 713] : List Nat).contains src = false := by simp [h1, h2, h3]
  have d : decide (722 ≤ src) = false := by simp; omega
  rw [c, d, Bool.false_or, Bool.false_or, bne_iff_ne] at m
  unfold State.severityOf
  rw [if_neg h1]
  show (if _ then 2 else _) ≠ 5
  have a : State.reset.active.val (R.FLT_SEV (src / 8)) = regReset (R.FLT_SEV (src / 8)) := rfl
  simp only [a]
  split
  · decide
  · exact m

/-- The severities depend on the active configuration alone. -/
theorem severity_active (s : State) (h : s.active = State.reset.active) (src : Nat) : s.severityOf src = State.reset.severityOf src := by
  unfold State.severityOf
  rw [h]

theorem mild_sev (s : State) (h : ∀ k, k < 91 → s.active.val (R.FLT_SEV k) = State.reset.active.val (R.FLT_SEV k)) (lo hi : Nat)
    (hr : hi ≤ 616 ∨ (616 < lo ∧ hi ≤ 655) ∨ (655 < lo ∧ hi ≤ 713) ∨ (713 < lo ∧ hi ≤ 722)) : Mild s lo hi := by
  intro src h1 h2
  have h3 : s.severityOf src = State.reset.severityOf src := by
    unfold State.severityOf
    rw [h (src / 8) (by omega)]
  rw [h3]
  exact severity_default src (by omega) (by omega) (by omega) (by omega)

theorem mild_default (s : State) (h : s.active = State.reset.active) (lo hi : Nat)
    (hr : hi ≤ 616 ∨ (616 < lo ∧ hi ≤ 655) ∨ (655 < lo ∧ hi ≤ 713) ∨ (713 < lo ∧ hi ≤ 722)) : Mild s lo hi := by
  intro src h1 h2
  rw [severity_active s h src]
  exact severity_default src (by omega) (by omega) (by omega) (by omega)

theorem gentle_default (s : State) (h : s.active = State.reset.active) : Gentle s := by
  intro src h1 h2
  rw [severity_active s h src] at h2
  by_contra h3
  have h4 : src ≠ 616 ∧ src ≠ 655 ∧ src ≠ 713 := by
    simp only [Src.voteLost, Src.trust] at h3
    omega
  exact severity_default src h1 h4.1 h4.2.1 h4.2.2 h2

/-- An accepted request of a port with all of its data, under a configuration. -/
def req (cfg : RegMap) (port tag op len flags addr operand : Nat) (data : List Payload) : Req :=
  { State.newReq State.reset (port / 4) 0 ⟨op, port % 4, tag, len, flags, addr, operand⟩ [] with
    cfg := cfg, need := data.length, data := data, answer := none, tentative := false }

/-- A state whose one request is `r`. -/
def asks (r : Req) (s : State) : State := { s with reqs := [r] }


/-- A configuration with fields set. -/
def conf (c : RegMap) (l : List (Fld × Nat)) : RegMap := l.foldl (fun c x => c.setF x.1 x.2) c

/-- A state with fields set. -/
def having (s : State) (l : List (Fld × Nat)) : State := l.foldl (fun s x => s.setF x.1 x.2) s

/-- Where no line is cached, no probe or test is under way and no row is remapped, every burst is in the array alone. -/
theorem inArray_of (s : State) (h1 : s.eng.cache = []) (h2 : ∀ c, (s.eccOf c).probe = none ∧ (s.eccOf c).remap = []) (h3 : s.remapRuns = [])
    (h4 : s.bst.held = []) (h5 : s.bst.runs = []) (l : Loc) : s.InArray l := by
  have m : ∀ c b k, s.spareAt c b k = {} := fun c b k => by unfold State.spareAt; rw [(h2 c).2]; rfl
  refine ⟨by simp [State.cached, h1], by simp [State.heldJob, (h2 l.ch).1], ?_, by simp [State.copyOf, State.isBorrowed, h4, h5],
    by simp [State.mirrorOf, State.copyOf, State.isBorrowed, h4, h5], fun x => ?_⟩
  · simp [State.mirrorRow, h3, m]
  · cases x <;> simp [State.physRowAt, State.physRow, State.rowBy, m]

theorem inArray_plain (s : State) (h1 : s.eng.cache = []) (h2 : s.ecc = []) (h3 : s.remapRuns = []) (h4 : s.bst.held = [])
    (h5 : s.bst.runs = []) (l : Loc) : s.InArray l :=
  inArray_of s h1 (fun c => by unfold State.eccOf; rw [h2]; exact ⟨rfl, rfl⟩) h3 h4 h5 l

/-- A target's words are then in their memory itself. -/
theorem target_plain {s : State} {r : Req} {off : Nat} (h : ∀ l, s.InArray l)
    (d : s.fb F.ECC_INJ_CTL_arm = false ∧ s.erasures (dramLoc r.cfg (r.addr + off)).ch ((r.addr + off) / 8 % 8) = []) :
    s.targetPlain r off := ⟨d.1, fun _ => ⟨h _, d.2⟩⟩

/-- Where nothing has used the Larder in this flit and nothing waits for it, an engine's path is free. -/
theorem engine_free (s : State) (r : Req) (t : Nat) (use : List LAcc) (h1 : s.lar.eng = []) (h2 : s.lar.waits = []) (h3 : s.lar.host = []) :
    EngineFree s r t use := by
  refine ⟨?_, fun x _ y hy => ?_⟩
  · simp [State.engineBusy, h1, h2]
  · rw [h3] at hy; cases hy

/-! ### Witnesses: host links -/

set_option maxRecDepth 40000 in
theorem witness_ReqFlitTakenOrDeferredWhole :
    (linkIn 3 lsOpen).linkState 3 = lsOpen ∧ sideType (sideOf 1 0 5) = 1 ∧ (linkIn 3 lsOpen).flit < 4 ∧
    sideSeq (sideOf 1 0 5) = (linkIn 3 lsOpen).frame12 % 256 ∧
    crc24 ((linkIn 3 lsOpen).frame12 / 256) (sideOf 1 0 5) 5 = sideCrc (sideOf 1 0 5) ∧ ((linkIn 3 lsOpen).link 3).single = false ∧
    sideType (sideOf 1 0 5 + 1) = 1 ∧ crc24 ((linkIn 3 lsOpen).frame12 / 256) (sideOf 1 0 5 + 1) 5 ≠ sideCrc (sideOf 1 0 5 + 1) := by
  decide +kernel

/-- The same link in single-decision mode, in flit 3. -/
def single3 : State := { (linkIn 3 lsOpen).modLink 3 fun L => { L with d1 := false } with flit := 3 }

set_option maxRecDepth 40000 in
theorem witness_reqFlit_single : single3.linkState 3 = lsOpen ∧ sideType (sideOf 1 0 5) = 1 ∧ single3.flit < 4 ∧ 2 ≤ single3.flit ∧
    sideSeq (sideOf 1 0 5) = single3.frame12 % 256 ∧ (single3.link 3).single = true ∧
    crc24 (single3.frame12 / 256) (sideOf 1 0 5) 5 = sideCrc (sideOf 1 0 5) := by decide +kernel

/-- Link 15 OPEN with a header of sub-port 3 in position 15. -/
def hdrIn : State := (linkIn 15 lsOpen).modLink 15 fun L => { L with hdrs := [(15, 3 * 2 ^ 56)] }

theorem witness_RequestHeaderIsDecided :
    hdrIn.linkState 15 = lsOpen ∧ (hdrIn.link 15).hdrs = [(15, 3 * 2 ^ 56)] ∧
    hdrIn.severityOf (Src.port 1 ((4 * 15 + (Hdr.ofNat (3 * 2 ^ 56)).sub) / 16)) ≠ 5 ∧
    hdrIn.memRights (4 * 15 + (Hdr.ofNat (3 * 2 ^ 56)).sub) = false := by decide +kernel

theorem witness_DecisionsAreDriven :
    ({ linkIn 0 lsVestibule with flit := 7 }.linkTalks 0 = true ∧ ({ linkIn 0 lsVestibule with flit := 7 }.link 0).hdrs = [] ∧
      ({ linkIn 0 lsVestibule with flit := 7 }.link 0).complement = none ∧ ({ linkIn 0 lsVestibule with flit := 7 }.link 0).woken = false ∧
      (∀ k, k < 4 → { linkIn 0 lsVestibule with flit := 7 }.severityOf (Src.port 0 k) ≠ 5) ∧ (linkIn 0 lsVestibule).reqs = []) ∧
    (((linkIn 0 lsOpen).modLink 0 fun L => { L with complement := some 0xFFFF }).flit = 0 ∧
      (((linkIn 0 lsOpen).modLink 0 fun L => { L with complement := some 0xFFFF }).link 0).complement = some 0xFFFF) ∧
    (((linkIn 0 lsOpen).modLink 0 fun L => { L with credOwed := 14 }).linkState 0 = lsOpen ∧
      (14 : Fin 15).val ≤ (((linkIn 0 lsOpen).modLink 0 fun L => { L with credOwed := 14 }).link 0).credOwed) := by decide +kernel

/-- A request of a port, with nothing of its data yet. -/
def reqOf (port tag op need : Nat) : Req :=
  State.newReq State.reset (port / 4) 0 { Hdr.ofNat 0 with op := op, sub := port % 4, tag := tag } [] |> fun r => { r with need := need, answer := none, tentative := false }

/-- Link 2 has a WDATA flit for its one write. -/
def wdataIn : State := { (linkIn 2 lsOpen).modLink 2 fun L => { L with inbox := [(2, 7)] } with reqs := [reqOf 8 511 0x02 1] }

theorem witness_WriteDataIsMatched :
    ((wdataIn.link 2).inbox = [(2, 7)] ∧ wdataIn.reqs = [] ++ reqOf 8 511 0x02 1 :: [] ∧ (reqOf 8 511 0x02 1).link = 2 ∧
      (reqOf 8 511 0x02 1).data.length < (reqOf 8 511 0x02 1).need ∧ wdataIn.absFrame ≤ (reqOf 8 511 0x02 1).frame + 16) ∧
    ((({ wdataIn with epoch := 3 }.reqs.find? fun r => r.port == 8 && r.tag == 511 && decide (r.data.length < r.need) &&
        decide (r.frame + 16 < { wdataIn with epoch := 3 }.absFrame)) = some (reqOf 8 511 0x02 1)) ∧ (reqOf 8 511 0x02 1).late = false) := by
  decide +kernel

set_option maxRecDepth 40000 in
theorem witness_FlitsAreSequenced :
    ((linkIn 1 lsOpen).linkTalks 1 = true ∧ 2 ≤ sideType (sideOf 2 0 9) ∧ sideType (sideOf 2 0 9) < 7 ∧
      crc24 (reconSeq ((linkIn 1 lsOpen).link 1).rxE (sideSeq (sideOf 2 0 9)) / 256) (sideOf 2 0 9) 9 = sideCrc (sideOf 2 0 9) ∧
      crc24 (reconSeq ((linkIn 1 lsOpen).link 1).rxE (sideSeq (sideOf 2 0 9 + 1)) / 256) (sideOf 2 0 9 + 1) 9 ≠ sideCrc (sideOf 2 0 9 + 1)) ∧
    (sideType (sideOf 0 0 0) = 0 ∧
      crc24 (reconSeq ((linkIn 1 lsOpen).link 1).rxE (sideSeq (sideOf 0 0 0)) / 256) (sideOf 0 0 0) 0 = sideCrc (sideOf 0 0 0)) := by
  decide +kernel

/-- Link 4 OPEN with one flit held since its first flit time, a RETRY received. -/
def heldIn : State :=
  (linkIn 4 lsOpen).modLink 4 fun L => { L with held := [⟨0, 5, 1, 0⟩], retryRx := some 0xFF, clock := 65535, replayQ := [⟨0, 5, 1, 0⟩] }

theorem witness_HeldFlitsAreReplayed :
    heldIn.linkTalks 4 = true ∧ (heldIn.link 4).retryRx = some 0xFF ∧ (heldIn.link 4).replayAck ≠ some 0xFF ∧
    ackHeld 0xFF (heldIn.link 4).held = [⟨0, 5, 1, 0⟩] ∧ (heldIn.link 4).held = [⟨0, 5, 1, 0⟩] ∧
    0 + max 32 (heldIn.fv (F.LNK_RPL_timer 4)) ≤ (heldIn.link 4).clock ∧
    (heldIn.link 4).replayRun.2 + 1 < max 1 (heldIn.fv (F.LNK_RPL_max_replays 4)) ∧
    1 < max 1 (heldIn.fv (F.LNK_RPL_max_replays 4)) ∧ (heldIn.link 4).replayQ = [⟨0, 5, 1, 0⟩] ∧
    (heldIn.link 4).replayHeld = false := by decide +kernel

/-- An OPEN link of a device in service; nothing committed. -/
theorem witness_LinksOpenAndCloseAtBoundaries :
    ((linkIn 5 lsOpen).atBoundary = true ∧ (linkIn 5 lsOpen).linkState 5 = lsOpen ∧ (linkIn 5 lsOpen).mayOpen 5 = false) := by decide +kernel

/-- Link 5 in the vestibule state of a device in service. -/
def vestibule5 : State := ((serving 20).setLinkState 5 lsVestibule).modLink 5 fun L => { L with d0 := true }

theorem witness_linkOpen : vestibule5.atBoundary = true ∧ vestibule5.linkState 5 = lsVestibule ∧ vestibule5.mayOpen 5 = true ∧
    vestibule5.halted = false := by decide +kernel

def parkMsg (code target e : Nat) : Payload := payload [(0, 1, 1), (1, 1, code), (4, 1, target), (8, 8, e)]

/-- Link 3 OPEN with a PARK(DOZE) for epoch 4. -/
def parkIn : State := told 3 6 [(4, 1, 4), (8, 8, 4)] (linkIn 3 lsOpen)

/-- The same with an answer to this end's own PARK. -/
def parkAnswered (code : Nat) : State := (told 3 code [(4, 1, 4), (8, 8, 4)] (linkIn 3 lsOpen)).modLink 3 fun L => { L with parkOut := some ⟨4, 4, false, false⟩ }

theorem witness_ParksAreNegotiated :
    ((parkIn.link 3).control 6 = some (parkMsg 6 4 4) ∧ parkIn.linkState 3 = lsOpen ∧ parkIn.mayPark 3 = true ∧
      (parkMsg 6 4 4).at 4 1 = 4 ∧ parkIn.epoch + 4 ≤ (parkMsg 6 4 4).at 8 8) ∧
    (((parkAnswered 7).link 3).control 7 = some (parkMsg 7 4 4) ∧ ((parkAnswered 7).link 3).parkOut = some ⟨4, 4, false, false⟩ ∧
      4 = (parkMsg 7 4 4).at 4 1 ∧ 4 = (parkMsg 7 4 4).at 8 8) ∧
    (((parkAnswered 8).link 3).control 8 = some (parkMsg 8 4 4) ∧ ((parkAnswered 8).link 3).parkOut = some ⟨4, 4, false, false⟩ ∧
      4 = (parkMsg 8 4 4).at 4 1 ∧ 4 = (parkMsg 8 4 4).at 8 8) ∧
    (((told 3 7 [] (linkIn 3 lsOpen)).link 3).parkMatch (parkMsg 7 0 0) = false ∧
      ((told 3 7 [] (linkIn 3 lsOpen)).link 3).control 7 = some (payload [(0, 1, 1), (1, 1, 7)])) := by decide +kernel

/-- Link 3 OPEN with an acknowledged PARK for this boundary. -/
def parkDue (target : Nat) : State := (linkIn 3 lsOpen).modLink 3 fun L => { L with parkIn := some ⟨target, 0, true, false⟩ }

/-- The same with a flit held. -/
def busyPark : State := (parkDue 4).modLink 3 fun L => { L with held := [⟨0, 5, 1, 0⟩] }

def idle3 : State :=
  (((linkIn 3 lsOpen).setF (F.LNK_PM_auto_doze 3) 1).setF (F.LNK_PM_doze_idle 3) 1).modLink 3 fun L => { L with idle := 2 }

theorem witness_LinksParkAndWake :
    ((parkDue 5).atBoundary = true ∧ (parkDue 5).linkState 3 = lsOpen ∧ (parkDue 5).mayPark 3 = true ∧
      ((parkDue 5).link 3).parkIn = some ⟨5, 0, true, false⟩ ∧ (parkDue 5).epoch = 0) ∧
    (((parkDue 4).link 3).parkIn = some ⟨4, 0, true, false⟩) ∧
    (busyPark.atBoundary = true ∧ busyPark.linkState 3 = lsOpen ∧ busyPark.mayPark 3 = false ∧
      (busyPark.link 3).parkIn = some ⟨4, 0, true, false⟩ ∧ busyPark.epoch = 0) ∧
    (idle3.linkState 3 = lsOpen ∧ idle3.fb (F.LNK_PM_auto_doze 3) = true ∧ idle3.fv (F.LNK_PM_doze_idle 3) ≠ 0 ∧
      idle3.fv (F.LNK_PM_doze_idle 3) < (idle3.link 3).idle ∧ idle3.mayPark 3 = true ∧ (idle3.link 3).parkOut = none ∧
      (idle3.link 3).parkIn = none ∧ idle3.epoch + 4 < (5 : BitVec 64).toNat) ∧
    ((linkIn 3 lsDoze).mode ≠ 4 ∧ (linkIn 3 lsDoze).linkState 3 = lsDoze) ∧
    ((linkIn 3 lsSleep).mode ≠ 4 ∧ (linkIn 3 lsSleep).linkState 3 = lsSleep) := by decide +kernel

/-- What a training step finds when nothing is wrong. -/
def goodObs : TrainObs := ⟨true, [], [], true, true, true, true, true⟩

/-- Link 7 in a training step. -/
def training (step : Nat) (short : Bool) : State :=
  ((linkIn 7 lsTraining).setF (F.LNK_STATUS_train_step 7) step).modLink 7 fun L => { L with short := short }

def trainable : State := up.setF F.CLK_STATUS_pll_lock 0xF

theorem witness_TrainingGoesForward :
    (trainable.linkState 7 = lsDown ∧ trainable.receiversOn = true ∧ trainable.halted = false ∧ trainable.linkBarred 7 = false ∧
      (trainable.link 7).backoff = false ∧ (trainable.fv F.CLK_STATUS_pll_lock).testBit (7 / 4) = true) ∧
    (∀ k, k < 6 → (training k false).linkState 7 = lsTraining ∧ ((training k false).link 7).short = false ∧
      (training k false).fv (F.LNK_STATUS_train_step 7) = k) ∧
    (goodObs.wellFormed = true ∧ goodObs.centred = true ∧ goodObs.aligned = true ∧ goodObs.d0 = true ∧ goodObs.d1 = true ∧ goodObs.gradeOk = true) ∧
    ((training 2 false).fuseLanes 7 false = [] ∧ (training 2 false).fuseLanes 7 true = [] ∧ ((training 2 false).link 7).weakIn = [] ∧
      (training 2 false).weakOf 7 goodObs.eyeOut = []) := by decide +kernel

theorem witness_TrainingFails :
    ((training 0 false).linkState 7 = lsTraining ∧ ((training 0 false).link 7).short = false ∧ (training 0 false).fv (F.LNK_STATUS_train_step 7) = 0) ∧
    ({ goodObs with wellFormed := false }.wellFormed = false) := by decide +kernel

theorem witness_OpenLinksRetrain :
    (linkIn 3 lsOpen).linkState 3 = lsOpen ∧ (linkIn 3 lsOpen).severityOf (Src.retrain 3) ≠ 5 ∧ (linkIn 3 lsTraining).linkState 3 = lsTraining := by
  decide +kernel

theorem witness_ShortRetrain :
    ∀ k, k = 0 ∨ k = 1 ∨ k = 5 → (training k true).linkState 7 = lsTraining ∧ ((training k true).link 7).short = true ∧
      (training k true).fv (F.LNK_STATUS_train_step 7) = k := by
  rintro k (rfl | rfl | rfl) <;> decide +kernel

/-- A repair of inbound lane 69 at epoch 8. -/
def repairX (mine acked : Bool) : RepairX := ⟨false, 0, 69, 8, acked, mine⟩

/-- Link 2 OPEN with lane 69 calling for a repair. -/
def laneCalls : State := (linkIn 2 lsOpen).modLink 2 fun L => { L with laneReq := [69] }

def repairTold (code : Nat) (xs : List RepairX) : State :=
  (told 2 code [(4, 1, 0), (5, 1, 0), (6, 1, 69), (8, 8, 8)] (linkIn 2 lsOpen)).modLink 2 fun L => { L with repairs := xs }

/-- A REPAIR of an outbound lane that this end acknowledged. -/
def hostRepair : RepairX := ⟨true, 1, 0, 9, true, false⟩

/-- Software asks for the repair of outbound lane 69. -/
def laneNamed : State := having laneCalls [(F.LNK_REPAIR_REQ_go 2, 1), (F.LNK_REPAIR_REQ_lane 2, 69), (F.LNK_REPAIR_REQ_dir 2, 1)]

theorem witness_LaneRepairsAreAgreed :
    (laneCalls.linkTalks 2 = true ∧ laneCalls.fb (F.LNK_REPAIR_REQ_go 2) = false ∧ 69 ∈ (laneCalls.link 2).laneReq ∧
      (laneCalls.link 2).repairs = [] ∧ laneCalls.epoch + 8 ≤ (8 : BitVec 64).toNat ∧ laneCalls.freeSpare 2 false = some 0) ∧
    (laneNamed.linkTalks 2 = true ∧ laneNamed.fb (F.LNK_REPAIR_REQ_go 2) = true ∧ laneNamed.fv (F.LNK_REPAIR_REQ_lane 2) = 69 ∧
      laneNamed.fb (F.LNK_REPAIR_REQ_dir 2) = true ∧ (laneNamed.link 2).repairs = [] ∧ laneNamed.freeSpare 2 true = some 0) ∧
    (((repairTold 3 [hostRepair]).link 2).control 3 = some (repairMsg 3 (repairX false false)) ∧
      (repairMsg 3 (repairX false false)).at 5 1 ≤ 1 ∧ (repairMsg 3 (repairX false false)).at 6 1 ≤ 69 ∧
      (repairTold 3 [hostRepair]).assigned 2 ((repairMsg 3 (repairX false false)).at 4 1 == 1) = [] ∧
      hostRepair.outbound ≠ ((repairMsg 3 (repairX false false)).at 4 1 == 1)) ∧
    (((repairTold 3 []).setSpare 2 false 0 69 2).assigned 2 ((repairMsg 3 (repairX false false)).at 4 1 == 1) = [(0, 69, 2)] ∧
      (((repairTold 3 []).setSpare 2 false 0 69 2).link 2).control 3 = some (repairMsg 3 (repairX false false)) ∧
      (repairMsg 3 (repairX false false)).at 5 1 = 0) ∧
    (((repairTold 4 [repairX true false]).link 2).control 4 = some (repairMsg 4 (repairX true false)) ∧
      (repairX true false).answers (repairMsg 4 (repairX true false)) = true ∧
      (repairTold 4 [repairX true false]).epoch + 2 < (repairX true false).epoch) ∧
    (((repairTold 5 [repairX true false]).link 2).control 5 = some (repairMsg 5 (repairX true false)) ∧
      (repairX true false).answers (repairMsg 5 (repairX true false)) = true) ∧
    ((repairX true false).mine = true ∧ (repairX true false).acked = false ∧
      (repairX true false).epoch ≤ { repairTold 5 [repairX true false] with epoch := 6 }.epoch + 2) := by decide +kernel

def repairDue : State := (linkIn 2 lsOpen).modLink 2 fun L => { L with repairs := [⟨true, 1, 69, 0, true, false⟩, repairX true false] }

theorem witness_LaneMovesToItsSpare : repairDue.atBoundary = true ∧
    (repairDue.link 2).repairs.filter (fun y => y.acked && y.epoch == repairDue.epoch) = [⟨true, 1, 69, 0, true, false⟩] ∧
    repairDue.severityOf (Src.laneRepair 2) ≠ 5 := by decide +kernel

def eventsOn : State := (((linkIn 0 lsOpen).setF F.LNK_EVTPORT_enable 1).setF (F.LNK_CTL_enable 0) 1)

theorem witness_QueriesAndEvents :
    (((told 4 1 [(6, 1, 16)] (linkIn 4 lsOpen)).link 4).control 1 = some (payload [(0, 1, 1), (1, 1, 1), (6, 1, 16)])) ∧
    (((linkIn 4 lsOpen).modLink 4 fun L => { L with frozenFrames := 64 }).linkState 4 = lsOpen ∧
      64 ≤ (((linkIn 4 lsOpen).modLink 4 fun L => { L with frozenFrames := 64 }).link 4).frozenFrames) ∧
    (eventsOn.linkState (eventsOn.fv F.LNK_EVTPORT_port / 4) = lsOpen ∧ eventsOn.fb F.LNK_EVTPORT_enable = true ∧
      eventsOn.fb (F.LNK_CTL_enable (eventsOn.fv F.LNK_EVTPORT_port / 4)) = true) := by decide +kernel

/-- A word that is the stored one of a register with a field set. -/
def withBits (s : State) (a : Nat) (f : Fld) (v : Nat) : Word := (s.live.val a).setField f.lo f.width v

def upOpen : State := up.setLinkState 6 lsOpen

theorem witness_LinkRegistersCommand :
    (WriteTaken upOpen 64 (R.LNK_CTL 6) (withBits upOpen (R.LNK_CTL 6) (F.LNK_CTL_retrain 6) 1) ∧ upOpen.linkState 6 = lsOpen ∧
      (withBits upOpen (R.LNK_CTL 6) (F.LNK_CTL_retrain 6) 1).field (F.LNK_CTL_retrain 6).lo 1 = 1 ∧
      (withBits upOpen (R.LNK_CTL 6) (F.LNK_CTL_retrain 6) 1).field (F.LNK_CTL_hold_down 6).lo 1 = 0 ∧ upOpen.severityOf (Src.retrain 6) ≠ 5) ∧
    (WriteTaken upOpen 64 (R.LNK_CTL 6) (withBits upOpen (R.LNK_CTL 6) (F.LNK_CTL_hold_down 6) 1) ∧ upOpen.linkState 6 ≠ lsDown ∧
      (withBits upOpen (R.LNK_CTL 6) (F.LNK_CTL_hold_down 6) 1).field (F.LNK_CTL_hold_down 6).lo 1 = 1 ∧
      (withBits upOpen (R.LNK_CTL 6) (F.LNK_CTL_hold_down 6) 1).field (F.LNK_CTL_retrain 6).lo 1 = 0) ∧
    (WriteTaken upOpen 64 (R.LNK_CNT_CLR 6) 0x100 ∧ (0x100 : Word).field 8 1 = 1) ∧ WriteTaken upOpen 64 R.LNK_EVT_LOST 0 ∧
    (WriteTaken upOpen 64 (R.LNK_REPAIR_REQ 6) (withBits upOpen (R.LNK_REPAIR_REQ 6) (F.LNK_REPAIR_REQ_go 6) 1) ∧
      (withBits upOpen (R.LNK_REPAIR_REQ 6) (F.LNK_REPAIR_REQ_go 6) 1).field (F.LNK_REPAIR_REQ_go 6).lo 1 = 1 ∧
      (upOpen.freeSpare 6 ((withBits upOpen (R.LNK_REPAIR_REQ 6) (F.LNK_REPAIR_REQ_go 6) 1).field (F.LNK_REPAIR_REQ_dir 6).lo 1 == 1)).isSome = true) := by
  unfold WriteTaken
  decide +kernel

/-! ### Witnesses: requests and counters -/

/-- A configuration: a scratchpad; DRAM regions of counters, policers and cached counters of 64 KiB from 0 on; policer profile 0. -/
def cfg1 : RegMap :=
  ((((((((((((State.reset.setF (F.LAR_CTL_preset 0) 1).setF (F.ENG_REG_BASE_kind 0 0) 1).setF (F.ENG_REG_SIZE_size 0 0) 1).setF
    (F.ENG_REG_BASE_kind 0 1) 3).setF (F.ENG_REG_BASE_base 0 1) 1).setF (F.ENG_REG_SIZE_size 0 1) 1).setF (F.ENG_REG_BASE_kind 0 2) 2).setF
    (F.ENG_REG_BASE_base 0 2) 2).setF (F.ENG_REG_SIZE_size 0 2) 1).setF (F.ENG_POLPROF_CTL_alg 0 0) 1).setF (F.ENG_POLPROF_CBS_cbs 0 0) 1000).setF
    (F.ENG_CTL_cache_en 0) 1).active

def rRd : Req := req cfg1 20 511 opRD 1 0 64 0 []
def rLrd : Req := req cfg1 20 511 opLRD 0 0 64 0 []

theorem clean_rRd : ∀ b, b ≤ rRd.len → ∀ w, w < 8 → CleanDram (asks rRd up) (dramLoc rRd.cfg (rRd.addr + 64 * b)) w 0 := by
  have h : ∀ b, b ≤ rRd.len → ∀ w, w < 8 → (asks rRd up).erasures (dramLoc rRd.cfg (rRd.addr + 64 * b)).ch w = [] ∧
      decodeWord ((asks rRd up).dramGet ((asks rRd up).physWord (dramLoc rRd.cfg (rRd.addr + 64 * b)) w)).toNat [] = .ok (0 : DWord).toNat [] false := by
    decide +kernel
  exact fun b hb w hw => ⟨inArray_plain _ rfl rfl rfl rfl rfl _, h b hb w hw⟩

theorem witness_ReadsReturnTheWords :
    (Runs (asks rRd up) opRD 20 511 rRd ∧ (asks rRd up).dramCheck rRd = none) ∧
    (Runs (asks rLrd up) opLRD 20 511 rLrd ∧ scratchCheck rLrd = none ∧ HostFree (asks rLrd up) rLrd (metUse rLrd (some 0) false) ∧
      ∀ b, b ≤ rLrd.len → ∀ w, w < 8 → CleanLarder (asks rLrd up) (scratchLine rLrd.cfg (rLrd.addr + 64 * b)) w 0) := by
  unfold Runs CleanLarder HostFree
  decide +kernel

def rWr : Req := req cfg1 20 511 opWR 1 0 64 0 [1, 2]
def rWrm : Req := req cfg1 20 511 opWRM 0 0 64 0xFF00 [3]
def rLwr : Req := req cfg1 20 511 opLWR 0 0 64 0 [1]
def rLwrm : Req := req cfg1 20 511 opLWRM 0 0 64 0xFF [1]

theorem witness_WritesStoreTheWords :
    (Runs (asks rWr up) opWR 20 511 rWr ∧ (asks rWr up).dramCheck rWr = none ∧ rWr.need = rWr.len + 1 ∧
      (asks rWr up).fb F.ECC_INJ_CTL_arm = false ∧ ∀ q ∈ (asks rWr up).reqs, meetsTable rWr q = false) ∧
    (Runs (asks rWrm up) opWRM 20 511 rWrm ∧ (asks rWrm up).dramCheck rWrm = none) ∧
    (Runs (asks rLwr up) opLWR 20 511 rLwr ∧ scratchCheck rLwr = none ∧ HostFree (asks rLwr up) rLwr (metUse rLwr (some 8) true) ∧ rLwr.need = rLwr.len + 1) ∧
    (Runs (asks rLwrm up) opLWRM 20 511 rLwrm ∧ scratchCheck rLwrm = none ∧ HostFree (asks rLwrm up) rLwrm (metUse rLwrm (some 1) true)) := by
  unfold Runs HostFree
  decide +kernel

theorem witness_writes_places : (∀ l, (asks rWr up).InArray l) ∧ (∀ l, (asks rWrm up).InArray l) ∧ LinesApart (asks rLwr up) rLwr :=
  ⟨inArray_plain _ rfl rfl rfl rfl rfl, inArray_plain _ rfl rfl rfl rfl rfl, fun b c hb hc _ => by simp [rLwr, req, State.newReq] at hb hc; omega⟩

/-- The sources of stored words are not fatal in any of these states. -/
theorem witness_mild_up (r : Req) : Mild (asks r up) 504 544 ∧ Mild (asks r up) 304 336 ∧ Mild (asks r up) 112 144 :=
  ⟨mild_default _ rfl _ _ (by omega), mild_default _ rfl _ _ (by omega), mild_default _ rfl _ _ (by omega)⟩

/-- The last word below 96 GiB, and the first at it (R93). -/
def rTop : Req := req cfg1 20 511 opRD 0 0 (dramTop - 64) 0 []
def rHole : Req := req cfg1 20 511 opRD 0 0 dramTop 0 []
def rOdd : Req := req cfg1 20 511 opWRM 0 0 64 0x01 [3]
/-- Another port reads the same line, and goes first. -/
def rFirst : Req := req cfg1 8 5 opLRD 0 0 64 0 []

/-- An engine has used a word of the line in this flit. -/
def engUsed : State := { asks rLwr up with lar := { up.lar with eng := lineUse (scratchLine cfg1 64) [7] true } }

def rLHole : Req := req cfg1 20 511 opLRD 0 0 (scratchSize cfg1) 0 []

theorem witness_UnperformedRequestsAreTold :
    (Runs (asks rHole up) opRD 20 511 rHole ∧ dramHole rHole.op rHole.len rHole.flags rHole.addr = true ∧
      dramHole rTop.op rTop.len rTop.flags rTop.addr = false) ∧
    (Runs (asks rOdd up) opWRM 20 511 rOdd ∧ misaligned rOdd.op rOdd.flags rOdd.addr rOdd.operand.toNat = true) ∧
    (Runs (asks rLHole up) opLRD 20 511 rLHole ∧ scratchHole rLHole.cfg rLHole.op rLHole.len rLHole.flags rLHole.addr = true) ∧
    (Runs { up with reqs := [rFirst, rLrd] } opLRD 20 511 rLrd ∧ scratchCheck rLrd = none ∧
      ∃ x ∈ hostUse rLrd, ∃ y ∈ { up with reqs := [rFirst, rLrd] }.hostAhead rLrd, x.at_ = y.at_) ∧
    (Runs engUsed opLWR 20 511 rLwr ∧ scratchCheck rLwr = none ∧ (∀ x ∈ hostUse rLwr, ∀ y ∈ engUsed.hostAhead rLwr, x.at_ ≠ y.at_) ∧
      ∃ x ∈ hostUse rLwr, ∃ y ∈ engUsed.lar.eng ++ metUse rLwr none false, x.meets y = true) ∧
    (∃ x ∈ hostUse rLrd, ∃ y ∈ metUse rLrd (some 7) true, x.meets y = true) := by
  unfold Runs
  decide +kernel

def rFence : Req := { req cfg1 20 511 opFENCE 0 0 0 0 [] with pos := 15 }
/-- A read in an earlier position of the frame. -/
def rFenced : Req := { req cfg1 20 1 opRD 0 0 64 0 [] with pos := 14 }
def rTq : Req := req cfg1 20 511 opTQUERY 0 0 0 3 []

theorem witness_FencesWaitAndTagsAreTold :
    Runs (asks rFence up) opFENCE 20 511 rFence ∧
    ({ up with reqs := [rFenced, rFence] }.reqs = [rFenced, rFence] ∧
      rFence.port = 20 ∧ rFence.tag = 511 ∧ rFence.op = opFENCE ∧
      ({ up with reqs := [rFenced, rFence] }.reqs.find? fun q => q.port == 20 && q.tag == 511) = some rFence ∧
      rFenced.port = 20 ∧ rFenced.before rFence = true ∧ rFenced.answer = none) ∧
    Runs (asks rTq up) opTQUERY 20 511 rTq := by
  unfold Runs
  decide +kernel

def rDone : Req := { rRd with answer := some ⟨0, 0, 0, 0, [1, 2]⟩ }

/-- The same, of a device in DETERMINISTIC. -/
def rFixed : Req := { rDone with mode := 2 }

theorem witness_ResponsesAreSent :
    (((asks rDone (serving 20)).reqs.find? fun r => r.port == 20 && r.tag == 511 && !r.tentative && r.data.length == r.need && !r.queued) =
        some rDone ∧ rDone.answer = some ⟨0, 0, 0, 0, [1, 2]⟩ ∧ (asks rDone (serving 20)).linkTalks rDone.link = true ∧
      (asks rDone (serving 20)).respWaits rDone = false ∧ (asks rDone (serving 20)).burstsLeft rDone = false ∧ rDone.mode ≠ 2 ∧
      ((asks rDone (serving 20)).link rDone.link).out = [] ∧ ((asks rDone (serving 20)).link rDone.link).replayQ = [] ∧
      ((asks rDone (serving 20)).link rDone.link).held.length < 255) ∧
    (((asks rFixed (serving 20)).reqs.find? fun r => r.port == 20 && r.tag == 511 && !r.tentative && r.data.length == r.need && !r.queued) =
        some rFixed ∧ rFixed.respFrame = some 56 ∧ rFixed.unfixed = false ∧ (asks rFixed (serving 20)).absFrame < 56) := by
  decide +kernel

/-- The response one frame late, with 255 flits held. -/
def lateResp : State :=
  { (asks rFixed (serving 20)).modLink 5 fun L => { L with held := List.replicate 255 ⟨0, 5, 1, 0⟩ } with epoch := 7, frame := 1 }

theorem witness_response_late :
    (lateResp.reqs.find? fun r => r.port == 20 && r.tag == 511 && !r.tentative && r.data.length == r.need && !r.queued) = some rFixed ∧
    lateResp.respWaits rFixed = false ∧ lateResp.burstsLeft rFixed = false ∧ rFixed.respFrame = some 56 ∧ 56 + rFixed.excess ≤ lateResp.absFrame ∧
    56 < lateResp.absFrame ∧ lateResp.severityOf (Src.larder 0 (rFixed.larQuad.getD (scratchLine rFixed.cfg rFixed.addr).q)) ≠ 5 ∧
    lateResp.severityOf (Src.sched 2 rFixed.lateAt) ≠ 5 ∧ 255 ≤ (lateResp.link 5).held.length ∧ lateResp.linkTalks 5 = true := by decide +kernel

def rAdd (op : Nat) : Req := req cfg1 20 511 op 0 0 64 5 []

/-- The word at 64 damaged beyond correction: three bits of the codeword of 0. -/
def badAt : State := up.dramPut (up.physWord (dramLoc cfg1 64) 0) 0x7

def poisonAt : State := up.dramPut (up.physWord (dramLoc cfg1 64) 0) (encodeWord 9 true)

theorem plain_up (r : Req) (l : Loc) : (asks r up).InArray l := inArray_plain _ rfl rfl rfl rfl rfl l
theorem plain_bad (r : Req) (l : Loc) : (asks r badAt).InArray l := inArray_plain _ rfl rfl rfl rfl rfl l
theorem plain_poison (r : Req) (l : Loc) : (asks r poisonAt).InArray l := inArray_plain _ rfl rfl rfl rfl rfl l

theorem witness_CountersCount :
    ∀ op, op = opCADD64 ∨ op = opCADDPB ∨ op = opCADDD32 →
      Runs (asks (rAdd op) up) op 20 511 (rAdd op) ∧ (asks (rAdd op) up).engCheck (rAdd op) = none ∧
      (asks (rAdd op) up).caches (rAdd op) (rAdd op).engTile = false ∧
      ((asks (rAdd op) up).fb F.ECC_INJ_CTL_arm = false ∧
        (asks (rAdd op) up).erasures (dramLoc (rAdd op).cfg ((rAdd op).addr + 0)).ch (((rAdd op).addr + 0) / 8 % 8) = []) ∧
      decodeWord ((asks (rAdd op) up).targetCode (rAdd op) 0).toNat [] = .ok (0 : DWord).toNat [] false ∧
      ((asks (rAdd op) up).spillOf ((rAdd op).engTile / 8)).staged.length + 2 ≤ 1024 := by
  rintro op (rfl | rfl | rfl) <;> (unfold Runs; decide +kernel)

theorem witness_counters_places (op : Nat) (h : op = opCADD64 ∨ op = opCADDPB ∨ op = opCADDD32) :
    (asks (rAdd op) up).targetPlain (rAdd op) 0 ∧ EngineFree (asks (rAdd op) up) (rAdd op) (rAdd op).engTile ((asks (rAdd op) up).engUse (rAdd op)) :=
  ⟨target_plain (plain_up _) (witness_CountersCount op h).2.2.2.1, engine_free _ _ _ _ rfl rfl rfl⟩

theorem witness_DamagedCountersStay :
    (Runs (asks (rAdd opCADD64) badAt) opCADD64 20 511 (rAdd opCADD64) ∧ (asks (rAdd opCADD64) badAt).engCheck (rAdd opCADD64) = none ∧
      (asks (rAdd opCADD64) badAt).caches (rAdd opCADD64) (rAdd opCADD64).engTile = false ∧
      decodeWord ((asks (rAdd opCADD64) badAt).targetCode (rAdd opCADD64) 0).toNat [] = .bad) ∧
    (Runs (asks (rAdd opCADD64) poisonAt) opCADD64 20 511 (rAdd opCADD64) ∧
      decodeWord ((asks (rAdd opCADD64) poisonAt).targetCode (rAdd opCADD64) 0).toNat [] = .ok ((9 : DWord).toNat + 2 ^ 64) [] false) := by
  unfold Runs
  decide +kernel

theorem witness_damaged_places : (asks (rAdd opCADD64) badAt).targetPlain (rAdd opCADD64) 0 ∧ (asks (rAdd opCADD64) poisonAt).targetPlain (rAdd opCADD64) 0 :=
  ⟨target_plain (plain_bad _) (by decide +kernel), target_plain (plain_poison _) (by decide +kernel)⟩

/-- A counter in the scratchpad, and another port's operation that has used its bank in this flit. -/
def cfgL : RegMap := conf cfg1 [(F.ENG_REG_BASE_kind 0 3, 1), (F.ENG_REG_BASE_l 0 3, 1), (F.ENG_REG_SIZE_size 0 3, 1)]
def rAddL : Req := req cfgL 20 511 opCADD64 0 8 64 5 []
def bankUsed : State := { asks rAddL up with lar := { up.lar with eng := lineUse (scratchLine cfgL 64) [3] false } }

theorem witness_EnginesWaitForTheirBanks :
    Runs bankUsed opCADD64 20 511 rAddL ∧ bankUsed.engCheck rAddL = none ∧
    (bankUsed.engineBusy rAddL rAddL.engTile (bankUsed.engUse rAddL)).isSome = true ∧ (rAddL.port, rAddL.tag) ∉ bankUsed.lar.counted := by
  unfold Runs
  decide +kernel

/-- Both fields of the packet and byte counter, and the one of the plain counter (R201). -/
theorem witness_CounterFieldsAddApart :
    (counterFields 0)[0]? = some (0, 64) ∧ (counterFields 1)[1]?.isSome = true ∧ (counterFields 2)[1]?.isSome = true := by decide +kernel

theorem witness_CountersAreRead :
    (asks (rAdd opCRD) up).engCheck (rAdd opCRD) = none ∧ (asks (rAdd opCRD) up).caches (rAdd opCRD) (rAdd opCRD).engTile = false ∧
    decodeWord ((asks (rAdd opCRD) up).targetCode (rAdd opCRD) 0).toNat [] = .ok ((0 : DWord).toNat + 0) [] false ∧
    Runs (asks (rAdd opCRD) up) opCRD 20 511 (rAdd opCRD) ∧
    (asks (rAdd opCRDCLR) up).engCheck (rAdd opCRDCLR) = none ∧ Runs (asks (rAdd opCRDCLR) up) opCRDCLR 20 511 (rAdd opCRDCLR) := by
  unfold Runs
  decide +kernel

theorem witness_read_places : (asks (rAdd opCRD) up).targetPlain (rAdd opCRD) 0 ∧ (asks (rAdd opCRDCLR) up).targetPlain (rAdd opCRDCLR) 0 ∧
    EngineFree (asks (rAdd opCRD) up) (rAdd opCRD) (rAdd opCRD).engTile ((asks (rAdd opCRD) up).engUse (rAdd opCRD)) :=
  ⟨target_plain (plain_up _) (by decide +kernel), target_plain (plain_up _) (by decide +kernel), engine_free _ _ _ _ rfl rfl rfl⟩

/-- A counter in the cached region, whose line tile 0's cache holds. -/
def rCached : Req := req cfg1 20 511 opCADD64 0 0 131072 5 []
def line0 (dirty : Bool) : CLine :=
  ⟨0, (dramLoc cfg1 131072).bank, (dramLoc cfg1 131072).row, (dramLoc cfg1 131072).col, dirty, List.replicate 8 0⟩
def caching (dirty : Bool) : State :=
  { up with active := cfg1, eng := { up.eng with cache := [(16384 * (dramLoc cfg1 131072).ch, [line0 dirty])] } }
def rFlush (all : Nat) : Req := req cfg1 20 511 opCFLUSH 0 all 131072 0 []

theorem witness_TheCacheHoldsAndFlushes :
    (Runs (asks rCached (caching false)) opCADD64 20 511 rCached ∧ (asks rCached (caching false)).engCheck rCached = none ∧
      (asks rCached (caching false)).caches rCached rCached.engTile = true ∧ Tab.wf (fun _ => []) (asks rCached (caching false)).eng.cache = true ∧
      (line0 false).words.length = 8 ∧
      (asks rCached (caching false)).cached (dramLoc rCached.cfg rCached.addr) = some (16384 * (dramLoc cfg1 131072).ch, line0 false) ∧
      decodeWord ((line0 false).words.getD (rCached.addr / 8 % 8) 0).toNat [] = .ok (0 : DWord).toNat [] false ∧
      (addCounter 0 (rCached.flags % 4) 0 rCached.operand).2 = []) ∧
    (Runs (asks (rFlush 0) (caching true)) opCFLUSH 20 511 (rFlush 0) ∧ (rFlush 0).flags.testBit 0 = false ∧
      (asks (rFlush 0) (caching true)).dramCheck (rFlush 0) = none ∧ (asks (rFlush 0) (caching true)).serves (dramLoc cfg1 131072).ch = true ∧
      (asks (rFlush 0) (caching true)).engineUp (dramLoc cfg1 131072).ch = true ∧ (asks (rFlush 0) (caching true)).fb F.ECC_INJ_CTL_arm = false ∧
      (asks (rFlush 0) (caching true)).dirtyLines (fun t l => decide (l.loc t = dramLoc (rFlush 0).cfg (rFlush 0).addr)) =
        [(16384 * (dramLoc cfg1 131072).ch, line0 true)] ∧
      (asks (rFlush 0) (caching true)).heldJob (dramLoc cfg1 131072) = none ∧
      (asks (rFlush 0) (caching true)).mirrorRow (dramLoc cfg1 131072).ch (dramLoc cfg1 131072).bank (dramLoc cfg1 131072).row
        (dramLoc cfg1 131072).col = none ∧
      (asks (rFlush 0) (caching true)).mirrorOf (dramLoc cfg1 131072).ch (dramLoc cfg1 131072).bank
        ((asks (rFlush 0) (caching true)).physRow (dramLoc cfg1 131072).ch (dramLoc cfg1 131072).bank (dramLoc cfg1 131072).row)
        (dramLoc cfg1 131072).col = none ∧ Tab.wf (fun _ => []) (asks (rFlush 0) (caching true)).eng.cache = true ∧
      ∀ w, w < 8 → decodeWord ((line0 true).words.getD w 0).toNat [] = .ok (0 : DWord).toNat [] false) ∧
    (Runs (asks (rFlush 1) (caching true)) opCFLUSH 20 511 (rFlush 1) ∧ (rFlush 1).flags.testBit 0 = true ∧
      ∀ e ∈ (asks (rFlush 1) (caching true)).eng.cache, e.1 < 32 * 16384) := by
  unfold Runs
  decide +kernel

theorem witness_cache_free : EngineFree (asks rCached (caching false)) rCached rCached.engTile ((asks rCached (caching false)).engUse rCached) :=
  engine_free _ _ _ _ rfl rfl rfl

theorem witness_mild_caching (r : Req) (d : Bool) : Mild (asks r (caching d)) 504 544 ∧ Mild (asks r (caching d)) 304 336 := by
  have h : ∀ k, k < 91 → cfg1.val (R.FLT_SEV k) = State.reset.active.val (R.FLT_SEV k) := by decide +kernel
  exact ⟨mild_sev _ h _ _ (by omega), mild_sev _ h _ _ (by omega)⟩

/-- A policer of profile 0, and one of profile 63, which has no algorithm (R222). -/
def rPol : Req := req cfg1 20 511 opPOL 0 0 65536 64 []

theorem witness_PolicersMark :
    (Runs (asks rPol up) opPOL 20 511 rPol ∧ (asks rPol up).engCheck rPol = none ∧
      decodeWord ((asks rPol up).targetCode rPol 0).toNat [] = .ok (0 : DWord).toNat [] false ∧
      decodeWord ((asks rPol up).targetCode rPol 8).toNat [] = .ok (0 : DWord).toNat [] false ∧
      badProfile (profileOf rPol.cfg (Policer.ofWords 0 0).profile) 0 = false) ∧
    badProfile (profileOf cfg1 63) 0 = true := by
  unfold Runs
  decide +kernel

theorem witness_policer_places : (asks rPol up).targetPlain rPol 0 ∧ (asks rPol up).targetPlain rPol 8 ∧
    EngineFree (asks rPol up) rPol rPol.engTile ((asks rPol up).engUse rPol) :=
  ⟨target_plain (plain_up _) (by decide +kernel), target_plain (plain_up _) (by decide +kernel), engine_free _ _ _ _ rfl rfl rfl⟩

theorem witness_BucketsHoldWhatTheyMay :
    (2 ^ 32 - 64 ≤ (0 % 2 ^ 32 + 2 ^ 32 - 64) % 2 ^ 32) ∧ ((0 : Nat) < 64) := by decide

/-! ### Witnesses: lookups, walks and queues -/

/-- Hash table 0: 16-byte entries, 8-byte keys, 32 buckets at 1 MiB. Prefix table 0: preset 1, its root at scratchpad offset 0 and DRAM
pools at 2 and 4 MiB. Prefix table 1: its root in the DRAM. The Cellar: cells at 16 MiB, links at 32 MiB, descriptors in quadrant 0. -/
def cfg2 : RegMap := conf cfg1
  [(F.ENG_HT_CTL_enable 0 0, 1), (F.ENG_HT_CTL_keylen 0 0, 8), (F.ENG_HT_BASE_base 0 0, 512), (F.ENG_TRIE_CTL_enable 0 0, 1),
   (F.ENG_TRIE_CTL_preset 0 0, 1), (F.ENG_TRIE_LVLA_base 0 0 1, 32768), (F.ENG_TRIE_LVLA_base 0 0 2, 65536), (F.ENG_TRIE_CTL_enable 0 1, 1),
   (F.ENG_TRIE_CTL_nlev 0 1, 2), (F.ENG_TRIE_LVLA_base 0 1 0, 32768), (F.ENG_TRIE_LVLA_base 0 1 1, 65536), (F.CEL_CTL_enable, 1),
   (F.CEL_CELL_SIZE_size, 1), (F.CEL_CELL_BASE_base, 16), (F.CEL_LINK_BASE_base, 32)]

def rHash (op : Nat) : Req := req cfg2 20 511 op 0 0 0 0 [5]

/-- The entry of key 5. -/
def entry5 (w : Nat) : DWord := if w = 0 then 5 else if w = 1 then 0x8000000000000000 else 0

/-- The entry of key 5 in slot 0 of its first candidate. -/
def holds5 : State :=
  let l := dramLoc cfg2 ((rHash opHLK).table.base + 64 * (rHash opHLK).keyBuckets.1)
  (up.dramPut (up.physWord l 0) (encodeWord 5 false)).dramPut (up.physWord l 1) (encodeWord 0x8000000000000000 false)

/-- What a reader of stored words needs of the memory itself, and what follows where every burst is in the array alone. -/
def WordIs (s : State) (l : Loc) (w : Nat) (x : DWord) : Prop :=
  s.erasures l.ch w = [] ∧ decodeWord (s.dramGet (s.physWord l w)).toNat [] = .ok x.toNat [] false

def BucketIs (s : State) (r : Req) (n : Nat) (y : Nat → DWord) : Prop :=
  s.serves (dramLoc r.cfg (r.table.base + 64 * n)).ch = true ∧ ∀ w, w < 8 → WordIs s (dramLoc r.cfg (r.table.base + 64 * n)) w (y w)

theorem bucket_reads {s : State} {r : Req} {n : Nat} {y : Nat → DWord} (h : ∀ l, s.InArray l) (b : BucketIs s r n y) : BucketReads s r n y :=
  ⟨b.1, fun w hw => ⟨h _, b.2 w hw⟩⟩

theorem plain_holds5 (r : Req) (l : Loc) : (asks r holds5).InArray l := inArray_plain _ rfl rfl rfl rfl rfl l

theorem witness_LookupsFindTheirKeyAndTablesAreMaintained :
    ∀ op, op = opHLK ∨ op = opHINS ∨ op = opHDEL →
      (Runs (asks (rHash op) up) op 20 511 (rHash op) ∧ (asks (rHash op) up).hashCheck (rHash op) = none ∧
        BucketIs (asks (rHash op) up) (rHash op) (rHash op).keyBuckets.1 (fun _ => 0) ∧
        BucketIs (asks (rHash op) up) (rHash op) (rHash op).keyBuckets.2 (fun _ => 0) ∧ (asks (rHash op) up).fb F.ECC_INJ_CTL_arm = false ∧
        findKey (rHash op).table ((rHash op).key (rHash op).table.keylen)
          [cleanBucket (rHash op).keyBuckets.1 (fun _ => 0), cleanBucket (rHash op).keyBuckets.2 (fun _ => 0)] = .absent ∧
        (([cleanBucket (rHash op).keyBuckets.1 (fun _ => 0), cleanBucket (rHash op).keyBuckets.2 (fun _ => 0)].flatMap
          (Bucket.entries (rHash op).table)).find? (Entry.empty (rHash op).table)).isSome = true) ∧
      (Runs (asks (rHash op) holds5) op 20 511 (rHash op) ∧ (asks (rHash op) holds5).hashCheck (rHash op) = none ∧
        BucketIs (asks (rHash op) holds5) (rHash op) (rHash op).keyBuckets.1 entry5 ∧
        BucketIs (asks (rHash op) holds5) (rHash op) (rHash op).keyBuckets.2 (fun _ => 0) ∧
        findKey (rHash op).table ((rHash op).key (rHash op).table.keylen)
          [cleanBucket (rHash op).keyBuckets.1 entry5, cleanBucket (rHash op).keyBuckets.2 (fun _ => 0)] =
        .hit ⟨(rHash op).keyBuckets.1, 0, [⟨5, false, false, false⟩, ⟨0x8000000000000000, false, false, false⟩],
          (List.range 8).map fun w => ⟨entry5 w, false, false, false⟩⟩) := by
  rintro op (rfl | rfl | rfl) <;> (unfold Runs BucketIs WordIs; decide +kernel)

theorem witness_table_places (op : Nat) (ho : op = opHLK ∨ op = opHINS ∨ op = opHDEL) :
    BucketReads (asks (rHash op) up) (rHash op) (rHash op).keyBuckets.1 (fun _ => 0) ∧
    BucketReads (asks (rHash op) up) (rHash op) (rHash op).keyBuckets.2 (fun _ => 0) ∧
    BucketReads (asks (rHash op) holds5) (rHash op) (rHash op).keyBuckets.1 entry5 ∧
    BucketReads (asks (rHash op) holds5) (rHash op) (rHash op).keyBuckets.2 (fun _ => 0) :=
  have w := witness_LookupsFindTheirKeyAndTablesAreMaintained op ho
  ⟨bucket_reads (plain_up _) w.1.2.2.1, bucket_reads (plain_up _) w.1.2.2.2.1, bucket_reads (plain_holds5 _) w.2.2.2.1,
    bucket_reads (plain_holds5 _) w.2.2.2.2.1⟩

theorem witness_NoClash (op : Nat) (ho : op = opHINS ∨ op = opHDEL) : NoClash (asks (rHash op) up) (rHash op) ∧
    ∀ k, k < (rHash op).table.size / 64 → (asks (rHash op) up).InArray (dramLoc (rHash op).cfg ((rHash op).table.base + 64 * k)) := by
  refine ⟨?_, fun k _ => plain_up _ _⟩
  obtain rfl | rfl := ho <;> (unfold NoClash; decide +kernel)

/-- The channel of the first candidate is out of service. -/
def noFirst : State := up.setF (F.SCH_STATUS_degraded (dramLoc cfg2 ((rHash opHLK).table.base + 64 * (rHash opHLK).keyBuckets.1)).ch) 1

theorem witness_unreached :
    Runs (asks (rHash opHLK) noFirst) opHLK 20 511 (rHash opHLK) ∧ (asks (rHash opHLK) noFirst).hashCheck (rHash opHLK) = none ∧
    (asks (rHash opHLK) noFirst).serves (dramLoc cfg2 ((rHash opHLK).table.base + 64 * (rHash opHLK).keyBuckets.1)).ch = false ∧
    BucketIs (asks (rHash opHLK) noFirst) (rHash opHLK) (rHash opHLK).keyBuckets.2 (fun _ => 0) ∧
    findKey (rHash opHLK).table ((rHash opHLK).key (rHash opHLK).table.keylen)
      [⟨(rHash opHLK).keyBuckets.1, none⟩, cleanBucket (rHash opHLK).keyBuckets.2 (fun _ => 0)] = .unreached := by
  unfold Runs BucketIs WordIs
  decide +kernel

theorem witness_unreached_places : BucketReads (asks (rHash opHLK) noFirst) (rHash opHLK) (rHash opHLK).keyBuckets.2 (fun _ => 0) :=
  bucket_reads (inArray_plain _ rfl rfl rfl rfl rfl) witness_unreached.2.2.2.1

def rLpm (t fam : Nat) : Req := req cfg2 20 511 opLPM 0 fam 0 (0x0A000001 * 2 ^ 32 + t) []
def walk1 : Walk := ⟨0, 0x200000, 0, 0x0A000001, none, false, 3⟩
def rWalk : Req := { rLpm 1 0 with walk := some walk1 }

/-- The entry the walk waits for is a node. -/
def node1 : State := up.dramPut (up.physWord (dramLoc cfg2 walk1.entry) (walk1.entry / 8 % 8)) (encodeWord 0x8000000000000000 false)

theorem witness_WalksGoLevelByLevel :
    (Runs (asks (rLpm 0 0) up) opLPM 20 511 (rLpm 0 0) ∧ (rLpm 0 0).walk = none ∧ (trieTab cfg2 0).enable = true ∧
      (trieTab cfg2 0).v6 = (rLpm 0 0).flags.testBit 0 ∧ (asks (rLpm 0 0) up).engineUp (homeTile 20) = true ∧ 0 < (trieTab cfg2 0).nlar ∧
      (trieTab cfg2 0).poolBase 0 + 8 * (trieTab cfg2 0).index ((rLpm 0 0).lpmKey false) 0 + 8 ≤ scratchSize cfg2 ∧
      CleanLarder (asks (rLpm 0 0) up) (scratchLine cfg2 ((trieTab cfg2 0).poolBase 0 + 8 * (trieTab cfg2 0).index ((rLpm 0 0).lpmKey false) 0))
        (((trieTab cfg2 0).poolBase 0 + 8 * (trieTab cfg2 0).index ((rLpm 0 0).lpmKey false) 0) / 8 % 8) 0 ∧
      (trieTab cfg2 0).follow ((rLpm 0 0).lpmKey false) 0 ((trieTab cfg2 0).dflt.map fun nh => (0, nh)) 0 = .stop none) ∧
    (Runs (asks (rLpm 1 0) up) opLPM 20 511 (rLpm 1 0) ∧ (trieTab cfg2 1).enable = true ∧ (trieTab cfg2 1).v6 = (rLpm 1 0).flags.testBit 0 ∧
      (asks (rLpm 1 0) up).engineUp (homeTile 20) = true ∧ (trieTab cfg2 1).nlar = 0 ∧
      (trieTab cfg2 1).poolBase 0 + 8 * (trieTab cfg2 1).index ((rLpm 1 0).lpmKey false) 0 + 8 ≤ dramTop ∧
      (asks (rLpm 1 0) up).serves (dramLoc cfg2 ((trieTab cfg2 1).poolBase 0 + 8 * (trieTab cfg2 1).index ((rLpm 1 0).lpmKey false) 0)).ch = true ∧
      (asks (rLpm 1 0) up).engineUp (dramLoc cfg2 ((trieTab cfg2 1).poolBase 0 + 8 * (trieTab cfg2 1).index ((rLpm 1 0).lpmKey false) 0)).ch = true ∧
      (rLpm 1 0).walk = none) ∧
    (Runs (asks (rLpm 2 0) up) opLPM 20 511 (rLpm 2 0) ∧ (trieTab cfg2 2).enable = false) ∧
    (Runs (asks (rLpm 1 1) up) opLPM 20 511 (rLpm 1 1) ∧ (trieTab cfg2 1).v6 ≠ (rLpm 1 1).flags.testBit 0) := by
  unfold Runs CleanLarder
  decide +kernel

theorem witness_WalksReturn :
    (((asks rWalk up).walking 20 511).isSome = true ∧ (asks rWalk up).walking 20 511 = some (rWalk, walk1) ∧ rWalk.discard = false ∧
      walk1.tile < 32 ∧ WordIs (asks rWalk up) (dramLoc cfg2 walk1.entry) (walk1.entry / 8 % 8) 0 ∧
      (trieTab cfg2 1).follow walk1.key walk1.level walk1.best 0 = .stop none) ∧
    ((asks rWalk node1).walking 20 511 = some (rWalk, walk1) ∧
      WordIs (asks rWalk node1) (dramLoc cfg2 walk1.entry) (walk1.entry / 8 % 8) 0x8000000000000000 ∧
      (trieTab cfg2 1).follow walk1.key walk1.level walk1.best 0x8000000000000000 =
        .go none ((trieTab cfg2 1).poolBase 1 + 8 * (trieTab cfg2 1).index walk1.key 1) ∧
      (trieTab cfg2 1).poolBase 1 + 8 * (trieTab cfg2 1).index walk1.key 1 + 8 ≤ dramTop ∧
      (asks rWalk node1).serves (dramLoc cfg2 ((trieTab cfg2 1).poolBase 1 + 8 * (trieTab cfg2 1).index walk1.key 1)).ch = true ∧
      (asks rWalk node1).engineUp (dramLoc cfg2 ((trieTab cfg2 1).poolBase 1 + 8 * (trieTab cfg2 1).index walk1.key 1)).ch = true) ∧
    ((asks rWalk { up with epoch := 65536 }).walking 20 511 = some (rWalk, walk1) ∧
      walk1.issued + max 1 (rWalk.cfg.fv (F.ENG_WALK_step_timer walk1.tile)) ≤ { up with epoch := 65536 }.epoch) := by
  unfold WordIs
  decide +kernel

theorem witness_walk_places : CleanDram (asks rWalk up) (dramLoc cfg2 walk1.entry) (walk1.entry / 8 % 8) 0 ∧
    CleanDram (asks rWalk node1) (dramLoc cfg2 walk1.entry) (walk1.entry / 8 % 8) 0x8000000000000000 ∧
    EngineFree (asks (rLpm 0 0) up) (rLpm 0 0) (homeTile 20)
      ((asks (rLpm 0 0) up).walkUse (rLpm 0 0) (trieTab cfg2 0) ((rLpm 0 0).lpmKey false) (min (trieTab cfg2 0).nlar (trieTab cfg2 0).levels.length) 0
        ((trieTab cfg2 0).poolBase 0 + 8 * (trieTab cfg2 0).index ((rLpm 0 0).lpmKey false) 0)) :=
  ⟨⟨plain_up _ _, witness_WalksReturn.1.2.2.2.2.1⟩, ⟨inArray_plain _ rfl rfl rfl rfl rfl _, witness_WalksReturn.2.1.2.1⟩,
    engine_free _ _ _ _ rfl rfl rfl⟩

/-! The Cellar: queue 5 empty; with two cells, 6 and 7; with one cell, 6. -/

def rQueue (op : Nat) : Req := req cfg2 20 511 op 0 0 0 5 [0, 0, 0, 0]

/-- The Cellar is ready and the descriptor of queue 5 is `d`. -/
def queueIs (d : Desc) : State := (up.setF F.CEL_STATUS_ready 1).writeDesc cfg2 5 d
def one6 : Desc := { Desc.empty with head := 6, tail := 6, len := 1 }
def two67 : Desc := { Desc.empty with head := 6, tail := 7, len := 2 }
def two7_12 : Desc := { Desc.empty with head := 7, tail := 12, len := 2 }

/-- Pairs 9 and 10 are free in the queue's quadrant. -/
def withFree (s : State) : State := s.setCache (queueQuad 5) [9, 10]

/-- A cell lies in the user's DRAM, in channels that serve. -/
def CellThere (s : State) (r : Req) (x : Nat) : Prop :=
  (celCfg r.cfg).cellAt x + 256 ≤ dramTop ∧ s.servesRange r.cfg ((celCfg r.cfg).cellAt x) 4 = true

theorem cell_plain {s : State} {r : Req} {x : Nat} (h : ∀ l, s.InArray l) (c : CellThere s r x) : CellPlain s r x :=
  ⟨c.1, c.2, fun _ _ => h _⟩

theorem witness_EnqueueAppends :
    (Runs (asks (rQueue opENQ) (queueIs one6)) opENQ 20 511 (rQueue opENQ) ∧ (asks (rQueue opENQ) (queueIs one6)).celCheck (rQueue opENQ) = none ∧
      DescReads (asks (rQueue opENQ) (queueIs one6)) (rQueue opENQ) one6.word0 one6.word1 ∧ Desc.ofWords one6.word0 one6.word1 = one6 ∧
      one6.broken = false ∧ one6.len < 2 ^ 24 - 1 ∧ (asks (rQueue opENQ) (queueIs one6)).fb F.ECC_INJ_CTL_arm = false ∧ one6.len ≠ 0 ∧
      one6.tail % 2 = 0 ∧ CellThere (asks (rQueue opENQ) (queueIs one6)) (rQueue opENQ) 7) ∧
    (∀ d, d = Desc.empty ∨ d = two67 → Runs (asks (rQueue opENQ) (withFree (queueIs d))) opENQ 20 511 (rQueue opENQ) ∧
      (asks (rQueue opENQ) (withFree (queueIs d))).celCheck (rQueue opENQ) = none ∧
      DescReads (asks (rQueue opENQ) (withFree (queueIs d))) (rQueue opENQ) d.word0 d.word1 ∧ Desc.ofWords d.word0 d.word1 = d ∧
      (d.len = 0 ∨ d.tail % 2 = 1) ∧ (asks (rQueue opENQ) (withFree (queueIs d))).cacheOf (queueQuad (rQueue opENQ).queue) = [9, 10] ∧
      (∀ j ∈ [9, 10], CellThere (asks (rQueue opENQ) (withFree (queueIs d))) (rQueue opENQ) (2 * j)) ∧
      (asks (rQueue opENQ) (withFree (queueIs d))).servesRange cfg2 ((celCfg cfg2).linkAt (d.tail / 2)) 1 = true ∧
      (asks (rQueue opENQ) (withFree (queueIs d))).cel.stack = 0) ∧
    (Runs (asks (rQueue opENQ) (queueIs two67)) opENQ 20 511 (rQueue opENQ) ∧
      DescReads (asks (rQueue opENQ) (queueIs two67)) (rQueue opENQ) two67.word0 two67.word1 ∧
      (asks (rQueue opENQ) (queueIs two67)).cacheOf (queueQuad (rQueue opENQ).queue) = [] ∧ (asks (rQueue opENQ) (queueIs two67)).cel.stack = 0 ∧
      (rQueue opENQ).waiting = false) := by
  refine ⟨?_, ?_, ?_⟩
  · unfold Runs DescReads CleanLarder CellThere; decide +kernel
  · rintro d (rfl | rfl) <;> (unfold Runs DescReads CleanLarder CellThere; decide +kernel)
  · unfold Runs DescReads CleanLarder; decide +kernel

/-- The same with blocks on the stack: the request waits for a refill. -/
def stacked : State := { queueIs two67 with cel := { (queueIs two67).cel with stack := 3 } }

theorem witness_enqueue_waits : Runs (asks (rQueue opENQ) stacked) opENQ 20 511 (rQueue opENQ) ∧
    (asks (rQueue opENQ) stacked).celCheck (rQueue opENQ) = none ∧ DescReads (asks (rQueue opENQ) stacked) (rQueue opENQ) two67.word0 two67.word1 ∧
    (asks (rQueue opENQ) stacked).cacheOf (queueQuad (rQueue opENQ).queue) = [] ∧ 0 < (asks (rQueue opENQ) stacked).cel.stack := by
  unfold Runs DescReads CleanLarder
  decide +kernel

theorem plain_queue (r : Req) (d : Desc) (l : Loc) : (asks r (queueIs d)).InArray l := inArray_plain _ rfl rfl rfl rfl rfl l
theorem plain_free (r : Req) (d : Desc) (l : Loc) : (asks r (withFree (queueIs d))).InArray l := inArray_plain _ rfl rfl rfl rfl rfl l

theorem witness_queue_places :
    CellPlain (asks (rQueue opENQ) (queueIs one6)) (rQueue opENQ) 7 ∧
    (∀ d, d = Desc.empty ∨ d = two67 → ∀ j ∈ [9, 10], CellPlain (asks (rQueue opENQ) (withFree (queueIs d))) (rQueue opENQ) (2 * j)) ∧
    (∀ op d, EngineFree (asks (rQueue op) (queueIs d)) (rQueue op) (queueTile 5) ((asks (rQueue op) (queueIs d)).celUse (rQueue op))) ∧
    (∀ d, EngineFree (asks (rQueue opENQ) (withFree (queueIs d))) (rQueue opENQ) (queueTile 5)
      ((asks (rQueue opENQ) (withFree (queueIs d))).celUse (rQueue opENQ))) :=
  ⟨cell_plain (plain_queue _ _) witness_EnqueueAppends.1.2.2.2.2.2.2.2.2.2,
    fun d h j hj => cell_plain (plain_free _ _) ((witness_EnqueueAppends.2.1 d h).2.2.2.2.2.2.1 j hj),
    fun _ _ => engine_free _ _ _ _ rfl rfl rfl, fun _ => engine_free _ _ _ _ rfl rfl rfl⟩

/-- The head cache holds cell 6 of queue 5. -/
def heldHead : HcEntry := ⟨0, 5, [⟨6, true, false, List.replicate 32 0⟩], none, 0⟩
def withHead (s : State) : State := { s with cel := { s.cel with heads := [heldHead] } }

theorem witness_DequeueTakesTheHead :
    (∀ d, d = Desc.empty ∨ d = one6 ∨ d = two67 ∨ d = two7_12 → Runs (asks (rQueue opDEQ) (queueIs d)) opDEQ 20 511 (rQueue opDEQ) ∧
      (asks (rQueue opDEQ) (queueIs d)).celCheck (rQueue opDEQ) = none ∧
      DescReads (asks (rQueue opDEQ) (queueIs d)) (rQueue opDEQ) d.word0 d.word1 ∧ Desc.ofWords d.word0 d.word1 = d ∧ d.broken = false ∧
      (asks (rQueue opDEQ) (queueIs d)).headOf (rQueue opDEQ).queue = none ∧ CellThere (asks (rQueue opDEQ) (queueIs d)) (rQueue opDEQ) d.head ∧
      (∀ i, i < 32 → WordIs (asks (rQueue opDEQ) (queueIs d)) (dramLoc cfg2 ((celCfg cfg2).cellAt d.head + 8 * i)) (i % 8) 0) ∧
      (asks (rQueue opDEQ) (queueIs d)).servesRange cfg2 ((celCfg cfg2).linkAt (d.head / 2)) 1 = true ∧
      WordIs (asks (rQueue opDEQ) (queueIs d)) (dramLoc cfg2 ((celCfg cfg2).linkAt (d.head / 2))) ((celCfg cfg2).linkAt (d.head / 2) / 8 % 8) 0) ∧
    (Runs (asks (rQueue opDEQ) (withHead (queueIs one6))) opDEQ 20 511 (rQueue opDEQ) ∧
      DescReads (asks (rQueue opDEQ) (withHead (queueIs one6))) (rQueue opDEQ) one6.word0 one6.word1 ∧
      (asks (rQueue opDEQ) (withHead (queueIs one6))).headOf (rQueue opDEQ).queue = some heldHead ∧
      (∀ i, i < 32 → decodeWord ((List.replicate 32 (0 : Codeword)).getD i 0).toNat [] = .ok (0 : DWord).toNat [] false)) ∧
    (Runs (asks (rQueue opQSTAT) (queueIs one6)) opQSTAT 20 511 (rQueue opQSTAT) ∧
      (asks (rQueue opQSTAT) (queueIs one6)).celCheck (rQueue opQSTAT) = none ∧
      DescReads (asks (rQueue opQSTAT) (queueIs one6)) (rQueue opQSTAT) one6.word0 one6.word1 ∧ bits one6.word1.toNat 32 24 ≠ 0) := by
  refine ⟨?_, ?_, ?_⟩
  · rintro d (rfl | rfl | rfl | rfl) <;> (unfold Runs DescReads CleanLarder CellThere WordIs; decide +kernel)
  · unfold Runs DescReads CleanLarder; decide +kernel
  · unfold Runs DescReads CleanLarder; decide +kernel

theorem witness_dequeue_places (d : Desc) (h : d = Desc.empty ∨ d = one6 ∨ d = two67 ∨ d = two7_12) :
    CellPlain (asks (rQueue opDEQ) (queueIs d)) (rQueue opDEQ) d.head ∧
    (∀ i, i < 32 → CleanDram (asks (rQueue opDEQ) (queueIs d)) (dramLoc cfg2 ((celCfg cfg2).cellAt d.head + 8 * i)) (i % 8) 0) ∧
    CleanDram (asks (rQueue opDEQ) (queueIs d)) (dramLoc cfg2 ((celCfg cfg2).linkAt (d.head / 2))) ((celCfg cfg2).linkAt (d.head / 2) / 8 % 8) 0 ∧
    EngineFree (asks (rQueue opDEQ) (withHead (queueIs one6))) (rQueue opDEQ) (queueTile 5)
      ((asks (rQueue opDEQ) (withHead (queueIs one6))).celUse (rQueue opDEQ)) :=
  have w := witness_DequeueTakesTheHead.1 d h
  ⟨cell_plain (plain_queue _ _) w.2.2.2.2.2.2.1, fun i hi => ⟨plain_queue _ _ _, w.2.2.2.2.2.2.2.1 i hi⟩,
    ⟨plain_queue _ _ _, w.2.2.2.2.2.2.2.2.2⟩, engine_free _ _ _ _ rfl rfl rfl⟩

theorem witness_mild_tables (r : Req) (s : State) (h : s.active = State.reset.active) :
    Mild (asks r s) 112 144 ∧ Mild (asks r s) 304 336 ∧ Mild (asks r s) 504 544 ∧ Mild (asks r s) 596 602 :=
  ⟨mild_default _ h _ _ (by omega), mild_default _ h _ _ (by omega), mild_default _ h _ _ (by omega), mild_default _ h _ _ (by omega)⟩

/-! ### Witnesses: registers and letterboxes -/

/-- A path holds the session. -/
def withSession (p : Nat) (s : State) : State := { s with session := some { owner := p } }

theorem witness_WritesEndByTheirCode :
    ((withSession 64 up).accessCode 64 (R.CEL_WARN) true 5000 false = accOK ∧
      (withSession 64 up).keepFault 64 (R.CEL_WARN) 5000 false = none ∧
      ((lookupReg (offsetOf (R.CEL_WARN))).map (·.row.act)) = some .plain) ∧
    (up.accessCode 64 0x18 true 0xFFFFFC false = accOK ∧ up.keepFault 64 0x18 0xFFFFFC false = none ∧
      ((lookupReg (offsetOf 0x18)).map (·.row.act)) = some .plain) ∧
    up.accessCode 64 (R.CEL_WARN) true 5000 false = accLOCKED ∧ up.accessCode 64 0x18 true 5000 true = accNOACCESS ∧
    up.accessCode 64 0x3EFFFC true 0 false = accNOREG := by decide +kernel

theorem witness_mild_reports (s : State) (h : s.active = State.reset.active) : Mild s 656 692 := mild_default s h _ _ (by omega)

/-- Port 20 has management rights and holds a session; its link has a message of one register. -/
def msgIn (kind addr data : Nat) : State :=
  (serving 20).modLink 5 fun L => { L with inbox := [(5, payload [(0, 1, kind), (1, 1, 0), (2, 1, 1), (4, 3, addr), (8, 4, data)])] }

theorem witness_MessagesAreAnswered :
    (∃ p, ((msgIn 2 0x18 0xFFFFFC).link 5).regMsg 2 = some p ∧ p.at 2 1 = 1 ∧ 4 * 5 + p.at 1 1 % 4 = 20 ∧ msgAddr p 0 = 0x18 ∧
      (msgIn 2 0x18 0xFFFFFC).accessCode 20 0x18 true (msgData p 0) false = accOK ∧
      (msgIn 2 0x18 0xFFFFFC).keepFault 20 0x18 (msgData p 0) false = none) ∧
    (∃ p a c, ((msgIn 2 0x3EFFFC 0).link 5).regMsg 2 = some p ∧ (msgIn 2 0x3EFFFC 0).refusedAt 20 p true false = some (a, c)) ∧
    (∃ p, ((msgIn 3 0x18 0).link 5).regMsg 3 = some p ∧ p.at 2 1 = 1 ∧
      (msgIn 3 0x18 0).accessCode (4 * 5 + p.at 1 1 % 4) (msgAddr p 0) false (msgData p 0) false = accOK ∧ offsetOf (msgAddr p 0) < 0x3F0000) := by
  have h := show
    (((msgIn 2 0x18 0xFFFFFC).link 5).regMsg 2 = some (payload [(0, 1, 2), (1, 1, 0), (2, 1, 1), (4, 3, 0x18), (8, 4, 0xFFFFFC)]) ∧
      ((msgIn 2 0x3EFFFC 0).link 5).regMsg 2 = some (payload [(0, 1, 2), (1, 1, 0), (2, 1, 1), (4, 3, 0x3EFFFC), (8, 4, 0)]) ∧
      (msgIn 2 0x3EFFFC 0).refusedAt 20 (payload [(0, 1, 2), (1, 1, 0), (2, 1, 1), (4, 3, 0x3EFFFC), (8, 4, 0)]) true false = some (0x3EFFFC, accNOREG) ∧
      ((msgIn 3 0x18 0).link 5).regMsg 3 = some (payload [(0, 1, 3), (1, 1, 0), (2, 1, 1), (4, 3, 0x18), (8, 4, 0)])) by decide +kernel
  exact ⟨⟨_, h.1, by decide +kernel⟩, ⟨_, _, _, h.2.1, h.2.2.1⟩, ⟨_, h.2.2.2, by decide +kernel⟩⟩

theorem witness_SidebandTransacts :
    State.reset.bootPhase = 0 ∧ up.bootPhase ≠ 0 ∧ up.accessCode 64 0x18 true 0xFFFFFC false = accOK ∧ up.keepFault 64 0x18 0xFFFFFC false = none ∧
    up.accessCode 64 0x18 false 0 false = accOK ∧ offsetOf 0x18 < 0x3F0000 ∧ up.accessCode 64 0x3EFFFC false 0 false ≠ accOK := by
  decide +kernel

/-- Letterbox `n`'s buffer holds INFO.ID with sequence number 7. -/
def buffered (n : Nat) : State := { (up.setF (F.MBX_CTL_enable n) 1) with live := (up.setF (F.MBX_CTL_enable n) 1).live.put (R.MBX_BUF n 0) 0x00070101 }

/-- Letterbox `n` runs a command with arguments, its owner being path `p`. -/
def running (n p code : Nat) (args : List Byte) (s : State) : State :=
  ((s.setF (F.MBX_OWNER_owned n) 1).setF (F.MBX_OWNER_owner n) p).setLb n { running := some (code, 7), args := args }

theorem witness_LetterboxesAreRung :
    (∀ n, n = 4 → WriteTaken up 64 (R.MBX_BUF n 63) 0xFFFFFFFF ∧ (up.lb n).running = none ∧
      (WriteTaken (buffered n) 64 (R.MBX_DOORBELL n) 1 ∧ ((buffered n).lb n).running = none ∧ (buffered n).fb (F.MBX_CTL_enable n) = true ∧
        (buffered n).isContained (.letterbox n) = false ∧ (buffered n).lbHeader n = (0x0101, 7, 0, 0) ∧
        ((buffered n).claim n 64).startStatus n 0x0101 0 = none)) ∧
    (WriteTaken (buffered 0) 64 (R.MBX_DOORBELL 0) 1 ∧ ((buffered 0).lb 0).running = none ∧ (buffered 0).fb (F.MBX_CTL_enable 0) = true ∧
      (buffered 0).isContained (.letterbox 0) = false ∧ (buffered 0).lbHeader 0 = (0x0101, 7, 0, 0) ∧
      ((buffered 0).claim 0 64).startStatus 0 0x0101 0 = some cplDENIED) ∧
    (WriteTaken (running 4 64 0x0E05 [] up) 64 (R.MBX_CTL 4) 5 ∧ ((5 : Word).field 2 1 = 1) ∧
      ((running 4 64 0x0E05 [] up).lb 4).committed = false ∧ ((running 4 64 0x0E05 [] up).lb 4).restarted = false) ∧
    (WriteTaken (running 4 64 0x0E05 [] up) 64 (R.MBX_OWNER 4) 0x100 ∧ (running 4 64 0x0E05 [] up).lbOwner 4 = some 64 ∧
      ((running 4 64 0x0E05 [] up).setLb 4 {}).lbOwner 4 = some 64 ∧ (((running 4 64 0x0E05 [] up).setLb 4 {}).lb 4).running = none ∧
      WriteTaken ((running 4 64 0x0E05 [] up).setLb 4 {}) 64 (R.MBX_OWNER 4) 0x100) := by
  unfold WriteTaken
  refine ⟨?_, by decide +kernel⟩
  rintro n rfl
  decide +kernel

theorem witness_LetterboxTimersExpire :
    (((running 4 64 0x0E05 [] up).setLb 4 {}).lbOwner 4).isSome = true ∧ (((running 4 64 0x0E05 [] up).setLb 4 {}).lb 4).running = none ∧
    ((running 4 64 0x0E05 [] up).lb 4).running.isSome = true ∧ ((running 4 64 0x0E05 [] up).lb 4).committed = false ∧
    ((running 4 64 0x0E05 [] up).lb 4).restarted = false := by decide +kernel

theorem witness_ClearRegistersClear :
    ∀ x ∈ [(R.LNK_CNT_CLR 15, 8), (R.PRT_CNT_CLR 63, 11), (R.SCH_CNT_CLR 31, 8), (R.ENG_CNT_CLR 32, 10), (R.ENG_LK_CNT_CLR 0, 12),
      (R.VRT_CNT_CLR 32, 7), (R.ECC_CNT_CLR 31, 18), (R.LAR_CNT_CLR 3, 4), (R.CEL_CNT_CLR, 9), (R.CLK_CNT_CLR, 2), (R.HKP_CNT_CLR, 3),
      (R.THM_CNT_CLR, 10), (R.BST_CNT_CLR, 6), (R.FLT_CNT_CLR, 3), (R.CST_CNT_CLR, 4), (R.SEC_CNT_CLR, 5), (R.PWR_CNT_CLR, 8)],
      WriteTaken up 64 x.1 (BitVec.ofNat 32 (2 ^ x.2 - 1)) := by
  unfold WriteTaken
  decide +kernel

/-- The Cellar runs in the active configuration, and queue 5 holds a cell. -/
def celActive : State := { queueIs one6 with active := cfg2 }

theorem witness_RegisterCommandsAct :
    WriteTaken up 64 (R.LAR_CONF_CLR 3) 1 ∧ WriteTaken up 64 (R.SCH_POOL_OVER 31) 0 ∧ WriteTaken up 64 R.ENG_RING_CONS_WR 0 ∧
    up.accessCode 64 (R.ENG_EPOCH_LO 31) false 0 false = accOK ∧ WriteTaken up 64 R.CFG_SNAP 1 ∧ WriteTaken up 64 R.ECC_INJ_CTL 1 ∧
    (WriteTaken celActive 64 R.CEL_QRESET 0x80000005 ∧ (0x80000005 : Word).field 31 1 = 1 ∧ celActive.fb F.CEL_STATUS_ready = true ∧
      (0x80000005 : Word).field 0 18 < (celCfg celActive.active).queues ∧
      CleanLarder celActive (descLine cfg2 5).1 (descLine cfg2 5).2 one6.word0 ∧
      CleanLarder celActive (descLine cfg2 5).1 ((descLine cfg2 5).2 + 1) one6.word1) := by
  unfold WriteTaken CleanLarder
  decide +kernel

/-! ### The registers of a tile's engine reset alike in every tile -/

/-- An address past every instance of a block is not in it. -/
theorem findReg_past (b : RegBlock) (bs : List RegBlock) (a : Nat)
    (h : ¬((b.n = 1 ∨ (a - b.base) / b.stride < b.n) ∧ (if b.n = 1 then a - b.base else (a - b.base) % b.stride) < b.size)) :
    findReg (b :: bs) a = findReg bs a := by
  rw [findReg]
  by_cases h1 : b.base ≤ a
  · rw [if_pos h1]
    exact if_neg h
  · rw [if_neg h1]

/-- A register of a block with many instances. -/
theorem findReg_at (b : RegBlock) (bs : List RegBlock) (t o i j : Nat) (r : RegRow) (hn : b.n ≠ 1) (ht : t < b.n) (ho : o < b.size)
    (hs : b.size ≤ b.stride) (hr : findRow b.rows o = some (r, i, j)) :
    findReg (b :: bs) (b.base + b.stride * t + o) = some ⟨b.base + b.stride * t + o, t, i + r.first, j, r, b.staged⟩ := by
  have h1 : b.base + b.stride * t + o - b.base = o + b.stride * t := by omega
  have h2 : (o + b.stride * t) / b.stride = t := by
    rw [Nat.add_mul_div_left _ _ (by omega), Nat.div_eq_of_lt (by omega), Nat.zero_add]
  have h3 : (o + b.stride * t) % b.stride = o := by
    rw [Nat.add_mul_mod_self_left, Nat.mod_eq_of_lt (by omega)]
  rw [findReg]
  simp only [h1, h2, h3, if_neg hn]
  rw [if_pos (by omega), if_pos ⟨Or.inr ht, ho⟩, hr]

/-- The registers of the tiles come after those of the blocks above. -/
theorem lookupReg_past (a : Nat) (h : 0x100000 ≤ a) :
    lookupReg a = findReg (blockSCH :: blockENG :: blockENG0 :: blockECC :: blockECC0 :: blockECCQ :: blockVRT :: blockVRTS :: blockSNAP ::
      blockVRTD :: [blockLEG]) a := by
  unfold lookupReg regBlocks
  rw [findReg_past blockCFG, findReg_past blockFLT, findReg_past blockPWR, findReg_past blockCLK, findReg_past blockSEC,
    findReg_past blockCST, findReg_past blockHKP, findReg_past blockTHM, findReg_past blockBST, findReg_past blockMAP,
    findReg_past blockCEL, findReg_past blockMBX, findReg_past blockLNK, findReg_past blockLNKC, findReg_past blockPRT,
    findReg_past blockLAR] <;>
  · simp only [blockCFG, blockFLT, blockPWR, blockCLK, blockSEC, blockCST, blockHKP, blockTHM, blockBST, blockMAP, blockCEL, blockMBX,
      blockLNK, blockLNKC, blockPRT, blockLAR]
    simp only [reduceIte, Nat.reduceEqDiff, true_or, false_or, true_and]
    omega

/-- What the reset values of a tile block's registers depend on. -/
def plainAct (r : RegRow) : Bool := r.act != .larScrMap

theorem reset_of_hit (h k : RegHit) (hr : h.row = k.row) (hi : h.idx = k.idx) (hp : plainAct k.row = true) : h.reset = k.reset := by
  unfold RegHit.reset
  rw [hr, hi]
  have : k.row.act ≠ .larScrMap := by simpa [plainAct] using hp
  split
  · rfl
  · exact absurd ‹_› this
  · rfl
  · rfl
  · rfl

theorem eng_reset (t o : Nat) (ht : t < 32) (ho : o < 0x1c00) (hr : ((findRow blockENG.rows o).map fun x => plainAct x.1) = some true) :
    regReset (0x102000 + 0x8000 * t + o) = regReset (0x102000 + o) := by
  obtain ⟨⟨r, i, j⟩, h1, h2⟩ := Option.map_eq_some_iff.mp hr
  have f : ∀ t, t < 32 → lookupReg (0x102000 + 0x8000 * t + o) = some ⟨0x102000 + 0x8000 * t + o, t, i + r.first, j, r, true⟩ := by
    intro t ht
    rw [lookupReg_past _ (by omega), findReg_past blockSCH]
    · exact findReg_at blockENG _ t o i j r (by decide) (by show t < 33; omega) ho (by decide) h1
    · simp only [blockSCH]
      simp only [reduceIte, Nat.reduceEqDiff, false_or]
      omega
  have h0 := f 0 (by omega)
  simp only [Nat.mul_zero, Nat.add_zero] at h0
  unfold regReset
  rw [f t ht, h0]
  exact reset_of_hit _ _ rfl rfl h2

theorem tiles_alike (r : Nat → Nat) (o : Nat) (h : ∀ t, r t = 0x102000 + 0x8000 * t + o) (ho : o < 0x1c00)
    (hr : ((findRow blockENG.rows o).map fun x => plainAct x.1) = some true) : tilesAlike [] r = true := by
  unfold tilesAlike
  rw [List.all_eq_true]
  intro t ht
  have h1 : RegMap.val [] (r t) = RegMap.val [] (r 0) := by
    show regReset (r t) = regReset (r 0)
    rw [h t, h 0, eng_reset t o (List.mem_range.mp ht) ho hr]
  simp only [h1, beq_self_eq_true]

theorem no_tile_enables (f : Nat → Fld) (o : Nat) (h : ∀ t, f t = ⟨0x102000 + 0x8000 * t + o, (f 0).lo, (f 0).width, true⟩) (ho : o < 0x1c00)
    (hr : ((findRow blockENG.rows o).map fun x => plainAct x.1) = some true) (h0 : RegMap.fv [] (f 0) = 0) : anyTileEnables [] f = false := by
  unfold anyTileEnables
  rw [List.any_eq_false]
  intro t ht
  have h1 : RegMap.fv [] (f t) = RegMap.fv [] (f 0) := by
    have e : RegMap.val [] (f t).addr = RegMap.val [] (f 0).addr := by
      show regReset (f t).addr = regReset (f 0).addr
      rw [h t, h 0]
      exact eng_reset t o (List.mem_range.mp ht) ho hr
    have l : (f t).lo = (f 0).lo ∧ (f t).width = (f 0).width := by rw [h t]; exact ⟨rfl, rfl⟩
    unfold RegMap.fv
    rw [e, l.1, l.2]
  simp [h1, h0]

theorem commitOk_reset : commitOk [] [] 1 [] = true := by
  have rows : (∀ i, i < 16 → ((findRow blockENG.rows (0x100 + 8 * i)).map fun x => plainAct x.1) = some true ∧
      ((findRow blockENG.rows (0x104 + 8 * i)).map fun x => plainAct x.1) = some true) ∧
    (∀ i, i < 64 → ∀ k, k < 5 → ((findRow blockENG.rows (0x800 + 0x20 * i + 4 * k)).map fun x => plainAct x.1) = some true) := by decide +kernel
  have hd : tilesAlike [] R.SCH_DET = true ∧ tilesAlike [] R.SCH_POOL = true ∧ aboveTop (ringArea []) = false ∧ cellarOk [] = true ∧
      larderOk [] [] [] = true := by decide +kernel
  have hreg : regionsOk [] = true := by
    unfold regionsOk
    have hrest : (!anyMeet ((((List.range 16).map (region [])).filter fun r => r.inLarder == false).map fun r => (r.base, r.size)) &&
        !anyMeet ((((List.range 16).map (region [])).filter fun r => r.inLarder == true).map fun r => (r.base, r.size)) &&
        !((((List.range 16).map (region [])).filter fun r => r.inLarder == false).map fun r => (r.base, r.size)).any aboveTop &&
        !(((List.range 16).map (region [])).any fun r => r.kind == 2 && r.inLarder && r.size != 0)) = true := by decide +kernel
    simp only [Bool.and_eq_true] at hrest ⊢
    refine ⟨⟨⟨⟨⟨?_, ?_⟩, hrest.1.1.1⟩, hrest.1.1.2⟩, hrest.1.2⟩, hrest.2⟩
    · rw [List.all_eq_true]
      intro i hi
      have hi := List.mem_range.mp hi
      rw [tiles_alike (fun t => R.ENG_REG_BASE t i) (0x100 + 8 * i) (by intro t; simp only [R.ENG_REG_BASE]; omega) (by omega) (rows.1 i hi).1,
        tiles_alike (fun t => R.ENG_REG_SIZE t i) (0x104 + 8 * i) (by intro t; simp only [R.ENG_REG_SIZE]; omega) (by omega) (rows.1 i hi).2]
      rfl
    · rw [List.all_eq_true]
      intro i hi
      have hi := List.mem_range.mp hi
      rw [tiles_alike (fun t => R.ENG_POLPROF_CTL t i) _ (by intro t; simp only [R.ENG_POLPROF_CTL]; omega) (by omega) (rows.2 i hi 0 (by omega)),
        tiles_alike (fun t => R.ENG_POLPROF_CIR t i) _ (by intro t; simp only [R.ENG_POLPROF_CIR]; omega) (by omega) (rows.2 i hi 1 (by omega)),
        tiles_alike (fun t => R.ENG_POLPROF_PIR t i) _ (by intro t; simp only [R.ENG_POLPROF_PIR]; omega) (by omega) (rows.2 i hi 2 (by omega)),
        tiles_alike (fun t => R.ENG_POLPROF_CBS t i) _ (by intro t; simp only [R.ENG_POLPROF_CBS]; omega) (by omega) (rows.2 i hi 3 (by omega)),
        tiles_alike (fun t => R.ENG_POLPROF_EBS t i) _ (by intro t; simp only [R.ENG_POLPROF_EBS]; omega) (by omega) (rows.2 i hi 4 (by omega))]
      rfl
  have rows2 : (∀ n, n < 64 → ((findRow blockENG.rows (0x1000 + 0x10 * n)).map fun x => plainAct x.1) = some true ∧
      RegMap.fv [] (F.ENG_HT_CTL_enable 0 n) = 0 ∧ (hashTab [] n).enable = false) ∧
    (∀ n, n < 16 → ((findRow blockENG.rows (0x1400 + 0x80 * n)).map fun x => plainAct x.1) = some true ∧
      RegMap.fv [] (F.ENG_TRIE_CTL_enable 0 n) = 0) := by decide +kernel
  have hhash : hashOk [] = true := by
    unfold hashOk
    rw [Bool.and_eq_true]
    constructor
    · rw [List.all_eq_true]
      intro n hn
      have hn := List.mem_range.mp hn
      rw [no_tile_enables (fun t => F.ENG_HT_CTL_enable t n) (0x1000 + 0x10 * n)
        (by intro t; simp only [F.ENG_HT_CTL_enable, Fld.mk.injEq, and_self, and_true]; omega) (by omega) (rows2.1 n hn).1 (rows2.1 n hn).2.1]
      rfl
    · have h : hashAreas [] = [] := by
        unfold hashAreas
        rw [List.filterMap_eq_nil_iff]
        intro n hn
        simp [(rows2.1 n (List.mem_range.mp hn)).2.2]
      rw [h]
      rfl
  have htrie : triesOk [] 1 = true := by
    unfold triesOk
    rw [List.all_eq_true]
    intro n hn
    have hn := List.mem_range.mp hn
    rw [no_tile_enables (fun t => F.ENG_TRIE_CTL_enable t n) (0x1400 + 0x80 * n)
      (by intro t; simp only [F.ENG_TRIE_CTL_enable, Fld.mk.injEq, and_self, and_true]; omega) (by omega) (rows2.2 n hn).1 (rows2.2 n hn).2]
    rfl
  unfold commitOk
  simp only [hd.1, hd.2.1, hd.2.2.1, hd.2.2.2.1, hd.2.2.2.2, hreg, hhash, htrie, Bool.not_false, Bool.and_self]

/-- A commit that adopts, of a configuration that passes the checks, is frozen (R113). -/
theorem adopts (s : State) (refs : List Word) (id : Option Nat) (h : commitOk s.active s.staged s.modeAfter s.bst.slots = true)
    (hv : s.commitVerdict ≠ some 2) : ∃ v, s.tryCommit true refs id = (true, v) := by
  have hf : ∀ (l : List Word), ((List.range 37).find? fun d => l.getD d 0 != l.getD d 0) = none := by
    intro l
    rw [List.find?_eq_none]
    intro d _
    simp
  unfold State.tryCommit
  simp only [h, if_true, Bool.not_true, Bool.false_or, beq_iff_eq, hv, if_false, hf]
  exact ⟨_, rfl⟩

/-! ### Witnesses: letterbox commands -/

/-- Letterbox 4, owned by the sideband, runs a command. -/
def rings (code : Nat) (args : List Byte) : State := running 4 64 code args up

theorem witness_QueriesTellTheDevice :
    (∀ code ∈ [0x0101, 0x0102, 0x0103, 0x0201, 0x0502, 0x0901, 0x0A02, 0x0E04, 0x0D03], LbRuns (rings code []) 4 code) ∧
    (LbRuns (rings 0x0304 [13, 0]) 4 0x0304 ∧ ((rings 0x0304 [13, 0]).lb 4).arg 0 2 < 14) ∧
    (LbRuns (rings 0x0402 [63]) 4 0x0402 ∧ ((planOf (rings 0x0402 [63]).active).ports[((rings 0x0402 [63]).lb 4).arg 0 1]?).isSome = true) ∧
    (LbRuns (rings 0x0502 [0xFF, 0xFF, 0xFF, 0xFF, 0x17]) 4 0x0502 ∧ ((rings 0x0502 [0xFF, 0xFF, 0xFF, 0xFF, 0x17]).lb 4).arg 0 5 < dramTop) ∧
    (LbRuns (rings 0x0802 [1, 127, 0, 0, 0, 0]) 4 0x0802 ∧ (testArgs ((rings 0x0802 [1, 127, 0, 0, 0, 0]).lb 4)).isSome = true) ∧
    (LbRuns (rings 0x0701 [0, 0, 0, 0, 7]) 4 0x0701 ∧ ((rings 0x0701 [0, 0, 0, 0, 7]).lb 4).arg 4 1 = 7 ∧
      ((rings 0x0701 [0, 0, 0, 0, 7]).lb 4).arg 0 4 = (rings 0x0701 [0, 0, 0, 0, 7]).oldestSeq) ∧
    (LbRuns (rings 0x0B01 [7, 0, 0, 0, 1]) 4 0x0B01 ∧ 0 < (regionRow 7).sections ∧ 0 + 1 ≤ (regionRow 7).data) ∧
    (LbRuns (rings 0x0C01 [1]) 4 0x0C01 ∧ ((rings 0x0C01 [1]).lb 4).arg 0 1 = 1) ∧ LbRuns (rings 0x0C01 [2]) 4 0x0C01 := by
  unfold LbRuns
  decide +kernel

/-- A device that has booted with an attestation key and its record. -/
def keyed : State := { rings 0x0C01 [2] with sec := { (rings 0x0C01 [2]).sec with key := some [1, 2, 3], body := some [4] } }

theorem witness_keyed : LbRuns keyed 4 0x0C01 ∧ keyed.sec.key = some [1, 2, 3] ∧ keyed.sec.body = some [4] := by
  unfold LbRuns
  decide +kernel

theorem witness_ShortArgumentsAreRefused :
    (∀ x ∈ ([(0x0202, 1), (0x0301, 8), (0x0302, 2), (0x0303, 148), (0x0304, 2), (0x0401, 14), (0x0402, 1), (0x0403, 1), (0x0501, 2), (0x0601, 5),
      (0x0602, 2), (0x0603, 2), (0x0604, 5), (0x0701, 5), (0x0801, 6), (0x0802, 6), (0x0803, 11), (0x0902, 10), (0x0A01, 3), (0x0B01, 5),
      (0x0B02, 8), (0x0B03, 2), (0x0C01, 1), (0x0C03, 6), (0x0C04, 174), (0x0D01, 8), (0x0D02, 2), (0x0E02, 148)] : List (Nat × Nat)),
      LbRuns (rings x.1 (List.replicate (x.2 - 1) 0)) 4 x.1 ∧ ((rings x.1 (List.replicate (x.2 - 1) 0)).lb 4).args.length < x.2 ∧
      up.runs 4 x.1 = false) ∧
    commitNeed ((rings 0x0E02 []).lb 4) = 148 := by
  unfold LbRuns
  decide +kernel

/-- A command with a flag set. -/
def flagged (s : State) : State := s.modLb 4 fun L => { L with flags := 1 }

theorem witness_SessionsStageAndFreeze :
    (LbRuns (rings 0x0E01 []) 4 0x0E01 ∧ (rings 0x0E01 []).session = none) ∧
    (LbRuns (withSession 64 (rings 0x0E03 [])) 4 0x0E03 ∧ (withSession 64 (rings 0x0E03 [])).session = some { owner := 64 } ∧
      (64 : Nat) = (withSession 64 (rings 0x0E03 [])).lbPath 4) ∧
    (LbRuns (rings 0x0401 [63, 7, 16, 0, 2, 0, 14, 255, 255, 1, 255, 255, 255, 255]) 4 0x0401 ∧
      (portArgs ((rings 0x0401 [63, 7, 16, 0, 2, 0, 14, 255, 255, 1, 255, 255, 255, 255]).lb 4)).isSome = true) ∧
    (LbRuns (rings 0x0501 [23, 3]) 4 0x0501 ∧ ((rings 0x0501 [23, 3]).lb 4).arg 0 1 = 23 ∧ ((rings 0x0501 [23, 3]).lb 4).arg 1 1 = 3) ∧
    (∀ w, w = 103 ∨ w = 255 → LbRuns (rings 0x0902 [110, 105, 85, 65, 255, 255, 15, 0, w, 1]) 4 0x0902 ∧
      thermArgsOk ((rings 0x0902 [110, 105, 85, 65, 255, 255, 15, 0, w, 1]).lb 4) = true) ∧
    (LbRuns (rings 0x0803 [127, 1, 0, 1, 0, 1, 1, 0, 0, 0, 0]) 4 0x0803 ∧ ((rings 0x0803 [127, 1, 0, 1, 0, 1, 1, 0, 0, 0, 0]).lb 4).arg 0 1 ≤ 127) ∧
    (LbRuns (rings 0x0301 ([0, 0, 1, 0, 240, 0, 0, 0] ++ List.replicate 240 7)) 4 0x0301 ∧
      ((rings 0x0301 ([0, 0, 1, 0, 240, 0, 0, 0] ++ List.replicate 240 7)).lb 4).arg 0 2 = 0 ∧
      ((rings 0x0301 ([0, 0, 1, 0, 240, 0, 0, 0] ++ List.replicate 240 7)).lb 4).arg 2 2 = 1 ∧
      ((rings 0x0301 ([0, 0, 1, 0, 240, 0, 0, 0] ++ List.replicate 240 7)).lb 4).arg 4 2 = 240) := by
  unfold LbRuns
  refine ⟨?_, ?_, ?_, ?_, ?_, ?_, ?_⟩ <;> first | (rintro w (rfl | rfl) <;> decide +kernel) | decide +kernel

/-- A commit that adopts, in a committed device whose staged copy is the active one. -/
def committing : State := flagged ((withSession 64 (rings 0x0E02 [])).setF F.CFG_STATUS_committed 1 |>.setF F.CFG_CTL_adopt_allow 1)

theorem witness_CommitsFreeze :
    LbRuns committing 4 0x0E02 ∧ commitNeed (committing.lb 4) ≤ (committing.lb 4).args.length ∧ committing.adoptDenied (committing.lb 4) = false ∧
    committing.sessionFor (committing.lbPath 4) = some committing ∧
    ∃ v, committing.tryCommit ((committing.lb 4).flags % 2 == 1) (argRefs (committing.lb 4).args) none = (true, v) := by
  have h1 : committing.active = [] ∧ committing.staged = [] ∧ committing.modeAfter = 1 ∧ committing.bst.slots = [] ∧
      ((committing.lb 4).flags % 2 == 1) = true ∧ committing.fb F.CFG_STATUS_committed = true := by decide +kernel
  have h2 : committing.commitVerdict = none := by
    unfold State.commitVerdict State.planChanged
    have hn : (cfgRegs.any fun _ => false) = false := by rw [List.any_eq_false]; simp
    simp only [h1.1, h1.2.1, h1.2.2.2.2.2, bne_self_eq_false, Bool.and_false, hn, Bool.not_true, Bool.or_self]
    rfl
  have h3 : (committing.runs 4 0x0E02 = true ∧ (committing.lb 4).restarted = false) ∧
      commitNeed (committing.lb 4) ≤ (committing.lb 4).args.length ∧ committing.adoptDenied (committing.lb 4) = false ∧
      committing.sessionFor (committing.lbPath 4) = some committing := by decide +kernel
  refine ⟨h3.1, h3.2.1, h3.2.2.1, h3.2.2.2, ?_⟩
  rw [h1.2.2.2.2.1]
  refine adopts _ _ _ ?_ (by rw [h2]; decide)
  rw [h1.1, h1.2.1, h1.2.2.1, h1.2.2.2.1]
  exact commitOk_reset

/-- The same with a slot pool that one tile alone has. -/
def uneven : State := { committing with staged := conf [] [(F.SCH_POOL_cel 5, 7)] }

theorem witness_commit_rejected :
    (uneven.runs 4 0x0E02 = true ∧ (uneven.lb 4).restarted = false) ∧ commitNeed (uneven.lb 4) ≤ (uneven.lb 4).args.length ∧
    uneven.adoptDenied (uneven.lb 4) = false ∧ uneven.sessionFor (uneven.lbPath 4) = some uneven ∧
    tilesAlike uneven.staged R.SCH_POOL = false := by decide +kernel

/-- An address of the map is one of configuration. -/
theorem config_register (a : Nat)
    (h : a ∈ (regBlocks.filter (·.staged)).flatMap fun b => (b.addrs fun r => decide (r.maskOf .rw ≠ 0)).map (·.1)) :
    cfgRegs.contains a = true := by
  unfold cfgRegs sortAddrs
  rw [List.contains_iff_mem, (List.mergeSort_perm _ _).mem_iff]
  exact h

/-- A configuration image with no registers. -/
def emptyImage : List Byte := leBytes 4 0x96164346 ++ leBytes 4 1 ++ List.replicate 156 0
def flashed : State :=
  { ({ up with pwr := { good := true, phase := 5, booted := true } } : State).setLinkState 0 lsVestibule with
    sec := { State.reset.sec with flash := flashPut [] cfgArea (emptyImage ++ leBytes 4 (crc32c emptyImage)) } }

/-- A LOG.SNAPSHOT has begun 8 flits before the boundary. -/
def snapping : State := { (rings 0x0703 []).modLb 4 fun L => { L with begun := true } with epoch := 1 }

set_option maxRecDepth 40000 in
theorem witness_CommitsTakeEffectWhole :
    ({ withSession 64 up with session := some { owner := 64, commitAt := some 0, refs := [5] } }.atBoundary = true ∧
      { withSession 64 up with session := some { owner := 64, commitAt := some 0, refs := [5] } }.epoch = 0) ∧
    (∀ d, d < 37 → up.severityOf (Src.mismatch d) ≠ 5) ∧
    (cfgRegs.contains (R.PRT_CTL 63) = true ∧ domainOf (R.PRT_CTL 63) < 37) ∧
    LbRuns (rings 0x0E05 []) 4 0x0E05 ∧
    (flashed.pwr.flashDone = false ∧ flashed.pwr.phase = 5 ∧ flashed.linkState 0 = lsVestibule ∧ (flashConfig flashed.sec.flash).isSome = true ∧
      flashed.session = none ∧ flashed.fb F.CFG_STATUS_committed = false ∧ flashed.severityOf (Src.letterbox 1 4) ≠ 5) ∧
    (flashConfig [] = none ∧ flashed.pwr.lb4Session = false) ∧
    (∀ m, m = 5 ∨ m = 0xFF → LbRuns (rings 0x0302 [1, m]) 4 0x0302 ∧ ((rings 0x0302 [1, m]).lb 4).arg 0 1 = 1 ∧
      (((rings 0x0302 [1, m]).lb 4).arg 1 1 = 5 ∨ ((rings 0x0302 [1, m]).lb 4).arg 1 1 = 0xFF)) ∧
    LbRuns (rings 0x0703 []) 4 0x0703 ∧
    ({ up with snapAt := some 0, epoch := 1 }.atBoundary = true ∧ { up with snapAt := some 0, epoch := 1 }.snapDue = true ∧
      ∀ n, n < 6 → { up with snapAt := some 0, epoch := 1 }.snapWaits n = false) ∧
    (snapping.atBoundary = true ∧ snapping.snapWaits 4 = true ∧ (∀ k, k < 6 → k ≠ 4 → snapping.snapWaits k = false) ∧
      (snapping.lb 4).restarted = false) := by
  unfold LbRuns
  refine ⟨?_, ?_, ⟨config_register _ (by decide +kernel), ?_⟩, ?_, ?_, ?_, ?_, ?_, ?_, ?_⟩ <;> first | (rintro m (rfl | rfl) <;> decide +kernel) | decide +kernel

/-- 64 rows of channel 31 are retired; row 0 of bank 0 of channel 31 is not. -/
def full31 (code : Nat) (args : List Byte) : State := (rings code args).modEcc 31 fun e => { e with rows := (List.range 64).map fun i => (31, i) }

/-- Bank 31 of channel 31 is retired, and engine 127 is out. -/
def retired31 (args : List Byte) : State :=
  ((rings 0x0603 args).modEcc 31 fun e => { e with banks := [31] }).setF (F.BST_ENG_OUT_out 3) 0x80000000

/-- Row 7 of bank 31 of channel 31 is on spare row 0. -/
def mapped31 : State := (rings 0x0604 [31, 31, 7, 0, 1]).modEcc 31 fun e => { e with remap := [(16 * 31, { valid := true, row := 7 })] }

theorem witness_unit_boundaries :
    ((full31 0x0601 []).eccOf 31).rows.length = 64 ∧
    ((retired31 [1, 31, 31]).runs 4 0x0603 = true ∧ ((retired31 [1, 31, 31]).lb 4).args.length = 3 ∧ 31 ∈ ((retired31 [1, 31, 31]).eccOf 31).banks ∧
      (retired31 [1, 31, 31]).scopeTaken tkRow 31 = false) ∧
    ((retired31 [2, 127]).runs 4 0x0603 = true ∧ (retired31 [2, 127]).engineOut 127 = true ∧ (retired31 [2, 127]).scopeTaken tkEngine 127 = false) ∧
    (mapped31.runs 4 0x0604 = true ∧ (mapped31.lb 4).arg 4 1 = 1 ∧ mapped31.spareOf 31 31 7 = some 0 ∧ mapped31.remapRuns = []) := by decide +kernel

theorem witness_UnitCommandsBegin :
    (LbRuns (rings 0x0601 [0xFF, 0xFF, 0xFF, 0xFF, 0x17]) 4 0x0601 ∧ ((rings 0x0601 [0xFF, 0xFF, 0xFF, 0xFF, 0x17]).lb 4).arg 0 5 < dramTop ∧
      ((rings 0x0601 [0xFF, 0xFF, 0xFF, 0xFF, 0x17]).eccOf
        (dramLoc (rings 0x0601 [0xFF, 0xFF, 0xFF, 0xFF, 0x17]).active ((rings 0x0601 [0xFF, 0xFF, 0xFF, 0xFF, 0x17]).lb 4 |>.arg 0 5)).ch).rows.length < 64) ∧
    (LbRuns (rings 0x0602 [31, 31]) 4 0x0602 ∧ ((rings 0x0602 [31, 31]).lb 4).arg 0 1 < 32 ∧ ((rings 0x0602 [31, 31]).lb 4).arg 1 1 < 32) ∧
    (LbRuns ((rings 0x0603 [0, 31, 31, 7, 0]).modEcc 31 fun e => { e with rows := [(31, 7)] }) 4 0x0603 ∧
      ((31, 7) ∈ (((rings 0x0603 [0, 31, 31, 7, 0]).modEcc 31 fun e => { e with rows := [(31, 7)] }).eccOf 31).rows) ∧
      ((rings 0x0603 [0, 31, 31, 7, 0]).modEcc 31 fun e => { e with rows := [(31, 7)] }).scopeTaken tkRow 31 = false ∧
      ((rings 0x0603 [0, 31, 31, 7, 0]).lb 4).arg 0 1 = 0 ∧ ((rings 0x0603 [0, 31, 31, 7, 0]).lb 4).arg 3 2 = 7) ∧
    (LbRuns (rings 0x0604 [31, 31, 7, 0, 0]) 4 0x0604 ∧ ((rings 0x0604 [31, 31, 7, 0, 0]).lb 4).arg 2 2 < userRows ∧
      (rings 0x0604 [31, 31, 7, 0, 0]).spareOf 31 31 7 = none ∧ (rings 0x0604 [31, 31, 7, 0, 0]).freeSpareRow 31 31 = some 0) ∧
    LbRuns (rings 0x0702 []) 4 0x0702 ∧
    (LbRuns (rings 0x0801 [tkEngine, 127, 0, 0, 0, 0]) 4 0x0801 ∧ testArgs ((rings 0x0801 [tkEngine, 127, 0, 0, 0, 0]).lb 4) = some (tkEngine, 127, 0, 0) ∧
      (rings 0x0801 [tkEngine, 127, 0, 0, 0, 0]).mode ≠ 4 ∧ tkEngine < 0x10 ∧ (rings 0x0801 [tkEngine, 127, 0, 0, 0, 0]).mayStart tkEngine 127 0 0 = .runs) ∧
    (LbRuns (rings 0x0202 [1]) 4 0x0202 ∧ (rings 0x0202 [1]).mode = 1) ∧
    (LbRuns (rings 0x0202 [5]) 4 0x0202 ∧ 5 ≠ (rings 0x0202 [5]).mode ∧ (rings 0x0202 [5]).maintBusy = false ∧ (rings 0x0202 [5]).pwr.change = none ∧
      configVerdict (rings 0x0202 [5]).active 5 ≠ 2 ∧ detAlike (rings 0x0202 [5]).active 5 = true) ∧
    (LbRuns (rings 0x0403 [63]) 4 0x0403 ∧ ((rings 0x0403 [63]).lb 4).arg 0 1 < 64 ∧ (rings 0x0403 [63]).pwr.resets = []) ∧
    ({ up with pwr := { up.pwr with resets := [⟨63, 4, false, false⟩] }, reqs := [rRd] }.atBoundary = true ∧
      ∀ r ∈ { up with pwr := { up.pwr with resets := [⟨63, 4, false, false⟩] }, reqs := [rRd] }.pwr.resets, r.lb < 6) := by
  unfold LbRuns
  decide +kernel

/-! ### Witnesses: trust

The owner of slot 0 has the neutral point for a key, for which one signature stands for every message. -/

def identKey : List Byte := [1] ++ List.replicate 56 0
theorem edDecode_ident : edDecode identKey = some edZero := by decide +kernel
theorem edAdd_zero : edAdd edZero edZero = edZero := by decide +kernel
theorem edMul_zero (k n : Nat) : edMul k edZero n = edZero := by
  induction n generalizing k with
  | zero => rfl
  | succ n ih => simp only [edMul, edAdd_zero, ih, ite_self]
theorem edMul_none (p : EdPoint) (n : Nat) : edMul 0 p n = edZero := by
  induction n generalizing p with
  | zero => rfl
  | succ n ih => simp [edMul, ih]
def identSig : List Byte := identKey ++ List.replicate 57 0
theorem edVerify_ident (ctx msg : List Byte) : edVerify identKey ctx msg identSig = true := by
  have h1 : identSig.take 57 = identKey := by decide +kernel
  have h2 : ofLeBytes (identSig.drop 57) = 0 := by decide +kernel
  have h3 : identSig.length = 114 := by decide +kernel
  have h4 : edEq edZero edZero = true ∧ 0 < edL := by decide +kernel
  unfold edVerify
  simp only [h1, h2, h3, edDecode_ident, edMul_none, edMul_zero, edAdd_zero, h4.1, h4.2, decide_true, beq_self_eq_true, Bool.and_self]

/-- The digest of that key. -/
def identDigest : List Byte :=
  [45, 1, 173, 90, 67, 33, 116, 220, 77, 45, 66, 76, 230, 145, 1, 4, 73, 144, 197, 182, 160, 208, 111, 173, 241, 31, 57, 76, 159, 152, 122, 189]

theorem digest_ident : digest identKey = identDigest := by decide +kernel

/-- A PROVISIONED device whose KEYS section names the owner of slot 0, and whose POLICY is readable. -/
def owned : State :=
  { having up [(F.SEC_STATUS_lifecycle, 1), (F.SEC_STATUS_level, 1), (F.CST_SECT_state 20, 2), (F.CST_SECT_state 16, 2), (F.CST_STATUS_sensed, 1)] with
    cst := { image := (1568, 1) :: (List.range 8).map fun j => (1569 + j, BitVec.ofNat 32 (ofLeBytes ((identDigest.drop (4 * j)).take 4))) } }

/-- The neutral signature stands in the owner's name wherever the keys are those of `owned`. -/
theorem signed_ident (s : State) (ctx msg : List Byte) (h1 : s.slotPresent 0 = true) (h2 : s.slotDigest 0 = identDigest)
    (h3 : s.revokedSlots.testBit 0 = false) : s.signedBy 1 identKey ctx msg identSig = .good := by
  unfold State.signedBy
  simp [h1, h2, h3, digest_ident, edVerify_ident]

theorem signed_stranger (s : State) (ctx msg : List Byte) (h : s.slotPresent 1 = false) : s.signedBy 2 identKey ctx msg identSig = .bad := by
  unfold State.signedBy
  simp [h]

def runs4 (code : Nat) (args : List Byte) (s : State) : State := running 4 64 code args s
def withNonce (s : State) : State := { s with sec := { s.sec with nonce := some ([1, 2, 3], 0) } }

/-! A blank store: nothing is in a spare's place, and every word reads 0. -/

theorem readFuse_blank (w : Nat) : readFuse [] w = (0, 0, 0) := rfl

theorem anyBits_blank : anyBits (0, 0, 0) = 0 := by decide

theorem pairOf_blank (r w : Nat) : pairOf [] r w = none := by
  have h : ∀ i, pairFree [] r i = true := by
    intro i
    unfold pairFree mapWord
    rw [readFuse_blank, anyBits_blank]
    rfl
  unfold pairOf
  rw [List.find?_eq_none]
  intro i _
  simp [h i]

theorem placeOf_blank (r w : Nat) : placeOf [] r w = (regionRow r).base + w := by
  unfold placeOf
  rw [pairOf_blank]

theorem readWord_blank (r w : Nat) : readWord [] r w = (0, 0, 0) := rfl

theorem burnedData_blank (r k : Nat) : burnedData [] r k = 0 := by
  have h : ∀ (l : List Nat) (n : Nat), l.foldl (fun n j =>
      if anyBits (readFuse [] ((regionRow r).base + sectAt r k + j)) != 0 || (pairOf [] r (sectAt r k + j)).isSome then j + 1 else n) n = n := by
    intro l
    induction l with
    | nil => intro n; rfl
    | cons j l ih =>
      intro n
      rw [List.foldl_cons, pairOf_blank, readFuse_blank, anyBits_blank]
      exact ih n
  exact h _ _

theorem sectStable_blank (r k : Nat) : sectStable [] r k = true := by
  unfold sectStable
  rw [List.all_eq_true]
  intro j _
  rw [readWord_blank, pairOf_blank, show (marginalBits (0, 0, 0) == 0) = true from by decide]
  rfl

theorem witness_FusesAreBurned :
    (LbRuns (runs4 0x0B02 [1, 0, 0, 0, 1, 0, 0, 0, 7, 0, 0, 0] owned) 4 0x0B02 ∧
      ((runs4 0x0B02 [1, 0, 0, 0, 1, 0, 0, 0, 7, 0, 0, 0] owned).lb 4).arg 5 3 = 0 ∧
      ((runs4 0x0B02 [1, 0, 0, 0, 1, 0, 0, 0, 7, 0, 0, 0] owned).lb 4).arg 8 4 = 7 ∧
      (runs4 0x0B02 [1, 0, 0, 0, 1, 0, 0, 0, 7, 0, 0, 0] owned).cst.fuse = [] ∧
      (runs4 0x0B02 [1, 0, 0, 0, 1, 0, 0, 0, 7, 0, 0, 0] owned).burnRefused 1 0 true = none ∧ 0 + 1 ≤ (regionRow 1).data ∧
      PlainBurn ⟨[], [], none, none⟩) ∧
    (LbRuns (runs4 0x0B03 [7, 0] owned) 4 0x0B03 ∧ (runs4 0x0B03 [7, 0] owned).cst.fuse = [] ∧
      (runs4 0x0B03 [7, 0] owned).burnRefused 7 0 false = none) ∧
    LbRuns (runs4 0x0B03 [6, 0] owned) 4 0x0B03 := by
  unfold LbRuns PlainBurn
  decide +kernel

theorem witness_blank_store :
    burnedData [] 1 0 = 0 ∧ sectStable [] 7 0 = true ∧ readWord [] 7 (countAt 7 0) = (0, 0, 0) ∧ (∀ x ∈ readDigest [] 7 0, anyBits x = 0) ∧
    (∀ j, j < 9 → placeOf [] 7 (countAt 7 0 + j) = (regionRow 7).base + countAt 7 0 + j) := by
  refine ⟨burnedData_blank 1 0, sectStable_blank 7 0, rfl, ?_, ?_⟩
  · intro x hx
    obtain ⟨j, _, rfl⟩ := List.mem_map.mp hx
    rw [readWord_blank, anyBits_blank]
  · intro j _
    rw [placeOf_blank, Nat.add_assoc]

/-- SEC.UNLOCK of level 2 in the name of a slot. -/
def unlocking (slot : Byte) : State := withNonce (runs4 0x0C03 ([2, slot, 60, 0, 0, 0] ++ identKey ++ identSig) owned)

theorem witness_LevelsAreUnlocked :
    (LbRuns (runs4 0x0C02 [] owned) 4 0x0C02 ∧ (runs4 0x0C02 [] owned).fv F.SEC_STATUS_unlock_fail < 8) ∧
    (LbRuns (runs4 0x0C02 [] (owned.setF F.SEC_STATUS_unlock_fail 8)) 4 0x0C02 ∧
      8 ≤ (runs4 0x0C02 [] (owned.setF F.SEC_STATUS_unlock_fail 8)).fv F.SEC_STATUS_unlock_fail) ∧
    (withNonce owned).sec.nonce = some ([1, 2, 3], 0) ∧
    (LbRuns (runs4 0x0C03 [1, 0, 0, 0, 0, 0] owned) 4 0x0C03 ∧ 1 ≤ (runs4 0x0C03 [1, 0, 0, 0, 0, 0] owned).openLevel ∧ owned.Quiet) ∧
    (LbRuns (unlocking 1) 4 0x0C03 ∧ ((unlocking 1).lb 4).args.length = 177 ∧ (unlocking 1).openLevel < 2 ∧
      (unlocking 1).unlockWay 2 = some ((1 : Nat) == 0) ∧ (unlocking 1).sec.nonce = some ([1, 2, 3], 0) ∧
      (((unlocking 1).lb 4).args.drop 6).take 57 = identKey ∧ (((unlocking 1).lb 4).args.drop 63).take 114 = identSig ∧ (unlocking 1).Quiet) ∧
    (LbRuns (unlocking 2) 4 0x0C03 ∧ (unlocking 2).slotPresent 1 = false) := by
  unfold LbRuns State.Quiet
  decide +kernel

theorem witness_times (n : Nat) : 0 + epochsOfSeconds n ≤ ({ withNonce owned with epoch := epochsOfSeconds n } : State).epoch := by
  rw [Nat.zero_add]

theorem witness_unlock_signature (ctx msg : List Byte) :
    (unlocking 1).signedBy 1 identKey ctx msg identSig = .good ∧ (unlocking 2).signedBy 2 identKey ctx msg identSig ≠ .good := by
  refine ⟨signed_ident _ _ _ (by decide +kernel) (by decide +kernel) (by decide +kernel), ?_⟩
  rw [signed_stranger _ _ _ (by decide +kernel)]
  decide

/-- SEC.LIFECYCLE in the name of slot 0. -/
def moving (op target : Byte) (s : State) : State := withNonce (runs4 0x0C04 ([op, target, 1] ++ identKey ++ identSig) s)

theorem life_signed (op target : Byte) (s : State) (nonce : List Byte) (ha : ((moving op target s).lb 4).args = [op, target, 1] ++ identKey ++ identSig)
    (h1 : (moving op target s).slotPresent 0 = true) (h2 : (moving op target s).slotDigest 0 = identDigest)
    (h3 : (moving op target s).revokedSlots.testBit 0 = false) :
    (moving op target s).lifeSigned ((moving op target s).lb 4) nonce = .good := by
  have e1 : ((([op, target, 1] ++ identKey ++ identSig : List Byte).drop 3).take 57) = identKey := by simp [identKey, identSig]
  have e2 : ((([op, target, 1] ++ identKey ++ identSig : List Byte).drop 60).take 114) = identSig := by simp [identKey, identSig]
  have e3 : ((moving op target s).lb 4).arg 2 1 = 1 := by unfold LbSt.arg; rw [ha]; rfl
  unfold State.lifeSigned
  rw [e3, ha, e1, e2]
  exact signed_ident _ _ _ h1 h2 h3

theorem witness_LifecycleMovesAreBurned :
    (∀ dst, dst = 2 ∨ dst = 3 → LbRuns (moving 1 dst owned) 4 0x0C04 ∧ ((moving 1 dst owned).lb 4).args.length = 174 ∧
      ((moving 1 dst owned).lb 4).arg 0 1 = 1 ∧ ((moving 1 dst owned).lb 4).arg 1 1 = dst.toNat ∧ ((moving 1 dst owned).lb 4).arg 2 1 = 1 ∧
      (moving 1 dst owned).sec.moving = false ∧ ((moveSigners (moving 1 dst owned).lifecycle dst.toNat).map (·.2)) = some true ∧
      (moving 1 dst owned).moveReady (moving 1 dst owned).lifecycle dst.toNat = true ∧ (moving 1 dst owned).burnBarred = false ∧
      (moving 1 dst owned).isLimited = false ∧ (moving 1 dst owned).lifeSigned ((moving 1 dst owned).lb 4) [1, 2, 3] = .good) ∧
    (LbRuns (moving 1 3 { owned with sec := { owned.sec with moving := true } }) 4 0x0C04 ∧
      (moving 1 3 { owned with sec := { owned.sec with moving := true } }).sec.shut = false ∧
      (moving 1 3 { owned with sec := { owned.sec with moving := true, shut := true } }).sec.shut = true ∧
      (moving 1 3 { owned with sec := { owned.sec with moving := true, shut := true } }).burnBarred = false ∧
      (moving 1 3 { owned with sec := { owned.sec with moving := true, shut := true } }).drained = true ∧
      (moving 1 3 ({ owned with sec := { owned.sec with moving := true } }.setLinkState 0 lsOpen)).drained = false) := by
  refine ⟨?_, by unfold LbRuns; decide +kernel⟩
  rintro dst (rfl | rfl) <;>
  · unfold LbRuns
    simp only [← and_assoc]
    exact ⟨by decide +kernel, life_signed _ _ _ _ (by decide +kernel) rfl (by decide +kernel) rfl⟩

/-- Lifecycle words burned, a move about to take effect. -/
def effecting (n : Nat) : State :=
  let s := runs4 0x0C04 [] owned
  { s with cst := { s.cst with fuse := (List.range n).map fun k => (1649 + k, 0xFFFFFFFF, 0xFFFFFFFF, 0xFFFFFFFF) }, sec := { s.sec with effect := some (0, 4) } }

theorem witness_LifecycleTakesEffect :
    ((effecting 2).atBoundary = true ∧ (effecting 2).lifeSteps = 2 ∧ ((effecting 2).lb 4).restarted = false ∧ (effecting 2).Quiet) ∧
    ((effecting 3).lifeSteps = 3 ∧ (effecting 3).Quiet) ∧
    (({ effecting 3 with sec := { (effecting 3).sec with wiping := some 4 } }.modLb 4 fun L => { L with committed := true }).Quiet ∧
      ∀ m, m < 6 → m ≠ 4 → ({ effecting 3 with sec := { (effecting 3).sec with wiping := some 4 } }.lb m).running = none) := by
  unfold State.Quiet
  decide +kernel

/-- An image of the owner of slot 0: three sections of four erased bytes each. -/
def sectDig : List Byte :=
  [140, 130, 203, 9, 38, 240, 39, 93, 199, 101, 12, 52, 142, 174, 70, 178, 123, 147, 135, 30, 201, 88, 139, 78, 121, 246, 22, 64, 0, 103, 228, 241]
def header : List Byte :=
  leBytes 4 0x96164657 ++ [1, 2, 0, 0] ++ leBytes 2 7 ++ leBytes 2 7 ++ leBytes 2 0 ++ leBytes 2 0 ++ leBytes 4 4 ++ leBytes 4 4 ++ leBytes 4 4 ++
  List.replicate 36 0 ++ sectDig ++ sectDig ++ sectDig ++ List.replicate 96 0 ++ List.replicate 171 0 ++ identKey ++ identSig ++ List.replicate 426 0
def cellsAt (base : Nat) (bs : List Byte) : List Host.Cell := (bs.zipIdx.map fun x => (base + x.2, x.1)).filter fun c => c.2 != 0xFF
def ownerImage (base : Nat) : List Host.Cell := cellsAt base header

/-- What makes an image of one owner's signature good (R464). -/
theorem verify_owner (s : State) (f : Img) (revoked : Nat) (h1 : imgFormatOk f = true) (h2 : imgFlag f 0 = false) (h3 : imgFlag f 1 = true)
    (h4 : imgNum f 6 1 = 0) (h5 : s.slotPresent 0 = true) (h6 : digest (imgBytes f 427 57) = s.slotDigest 0)
    (h8 : edVerify (imgBytes f 427 57) ctxImage (imgBytes f 0 256) (imgBytes f 484 114) = true) (h9 : revoked.testBit 0 = false)
    (h10 : s.sigMode revoked = 3) (h11 : imgNum f 12 2 = 0 ∧ imgNum f 14 2 = 0 ∧ s.burnedCount 0 = 0 ∧ s.burnedCount 1 = 0)
    (h12 : ∀ x ∈ imgSections, digest (imgBytes f x.1 (imgNum f x.2.1 4)) = imgBytes f x.2.2.1 32) (loaded : Option (Tab Nat))
    (h13 : ∀ m, loaded = some m → (((0, 1024) :: imgSections.map fun x => (x.1, imgNum f x.2.1 4)).all fun x => chunksCover m x.1 x.2) = true) :
    s.verifyImage f revoked loaded = 0 := by
  have h14 : (imgSections.any fun x => decide (digest (imgBytes f x.1 (imgNum f x.2.1 4)) ≠ imgBytes f x.2.2.1 32)) = false := by
    rw [List.any_eq_false]
    intro x hx
    simp [h12 x hx]
  unfold State.verifyImage
  dsimp only
  rw [h1, h2, h3, h4, h5, h8, h9, h10, h11.1, h11.2.1, h11.2.2.1, h11.2.2.2, h14, h6]
  cases loaded with
  | none => simp
  | some m => simp [h13 m rfl]

/-- Bytes stored at a base read as they are, and erased beside them. -/
theorem cells_read (base : Nat) : ∀ (bs : List Byte) (n a : Nat),
    Tab.get flashDefault (((bs.zipIdx n).map fun x => (base + x.2, x.1)).filter fun c => c.2 != 0xFF) (base + a) =
      if a < n then 0xFF else bs.getD (a - n) 0xFF := by
  intro bs
  induction bs with
  | nil => intro n a; simp [flashDefault]
  | cons b bs ih =>
    intro n a
    rw [List.zipIdx_cons, List.map_cons, List.filter_cons]
    have hi := ih (n + 1) a
    by_cases hb : b = 0xFF
    · rw [if_neg (by simp [hb]), hi]
      by_cases h1 : a < n
      · rw [if_pos (by omega), if_pos h1]
      · rw [if_neg h1]
        by_cases h2 : a = n
        · subst h2; simp [hb]
        · rw [if_neg (by omega), show a - n = (a - (n + 1)) + 1 by omega, List.getD_cons_succ]
    · rw [if_pos (by simpa using hb), Tab.get]
      by_cases h2 : a = n
      · subst h2; simp
      · rw [if_neg (by omega), hi]
        by_cases h1 : a < n
        · rw [if_pos (by omega), if_pos h1]
        · rw [if_neg h1, if_neg (by omega), show a - n = (a - (n + 1)) + 1 by omega, List.getD_cons_succ]

/-- The image of `header` as its bytes. -/
def hdrImg : Img := fun a => header.getD a 0xFF

theorem image_at (base a : Nat) : flashByte (ownerImage base) (base + a) = hdrImg a := by
  have h := cells_read base header 0 a
  rw [if_neg (by omega)] at h
  exact h

/-- The owner's image in slot `k` of the flash. -/
def inSlot (k : Nat) : State := { owned with sec := { owned.sec with flash := ownerImage (slotBase k) } }

theorem inSlot_img (k : Nat) : (inSlot k).slotImg k = hdrImg := funext fun a => image_at (slotBase k) a

theorem header_length : header.length = 1024 := by decide +kernel

theorem image_bytes (a n : Nat) (h : a + n ≤ 1024) : imgBytes hdrImg a n = (header.drop a).take n := by
  unfold imgBytes hdrImg
  have hl := header_length
  apply List.ext_getElem
  · simp; omega
  · intro i h1 h2
    have hi : i < n := by simpa using h1
    have hb : a + i < header.length := by omega
    rw [List.getElem_map, List.getElem_range, List.getElem_take, List.getElem_drop, List.getD_eq_getElem _ _ hb]

theorem image_good :
    imgFormatOk hdrImg = true ∧ imgFlag hdrImg 0 = false ∧ imgFlag hdrImg 1 = true ∧ imgNum hdrImg 6 1 = 0 ∧ imgBytes hdrImg 427 57 = identKey ∧
    imgBytes hdrImg 484 114 = identSig ∧ imgNum hdrImg 12 2 = 0 ∧ imgNum hdrImg 14 2 = 0 := by
  have hz : ∀ x ∈ imgReserved, x.1 + x.2 ≤ 1024 ∧ ((header.drop x.1).take x.2).all (· == 0) = true := by decide +kernel
  have hr : (imgReserved.all fun x => (imgBytes hdrImg x.1 x.2).all (· == 0)) = true := by
    rw [List.all_eq_true]
    intro x hx
    rw [image_bytes _ _ (hz x hx).1]
    exact (hz x hx).2
  have hf : (imgNum hdrImg 0 4 == 0x96164657 && imgNum hdrImg 4 1 == 1 && decide (imgNum hdrImg 5 1 < 8) &&
      imgSections.all fun x => let n := imgNum hdrImg x.2.1 4; decide (4 ≤ n) && decide (n ≤ x.2.2.2) && n % 4 == 0) = true := by decide +kernel
  have hx : (imgFlag hdrImg 0 = false ∧ imgFlag hdrImg 1 = true ∧ imgNum hdrImg 6 1 = 0) ∧ imgNum hdrImg 12 2 = 0 ∧ imgNum hdrImg 14 2 = 0 := by
    decide +kernel
  refine ⟨?_, hx.1.1, hx.1.2.1, hx.1.2.2, ?_, ?_, hx.2⟩
  · unfold imgFormatOk
    rw [hr, hf]
    rfl
  · rw [image_bytes _ _ (by omega)]; decide +kernel
  · rw [image_bytes _ _ (by omega)]; decide +kernel

theorem image_sections : ∀ x ∈ imgSections, digest (imgBytes hdrImg x.1 (imgNum hdrImg x.2.1 4)) = imgBytes hdrImg x.2.2.1 32 := by
  have hd : digest [255, 255, 255, 255] = sectDig := by decide +kernel
  have h : ∀ x ∈ imgSections, imgBytes hdrImg x.1 (imgNum hdrImg x.2.1 4) = [255, 255, 255, 255] ∧ imgBytes hdrImg x.2.2.1 32 = sectDig := by decide +kernel
  intro x hx
  rw [(h x hx).1, (h x hx).2, hd]

/-- The chunks that carry it. -/
def chunks : Tab Nat := [(0, 240), (1, 240), (2, 240), (3, 240), (4, 240), (17, 240), (290, 240), (9028, 240)]

set_option maxRecDepth 40000 in
theorem chunks_cover : (((0, 1024) :: imgSections.map fun x => (x.1, imgNum hdrImg x.2.1 4)).all fun x => chunksCover chunks x.1 x.2) = true := by
  decide +kernel

/-- The owner's image verifies where the owner's signature counts. -/
theorem verifies (s : State) (revoked : Nat) (h5 : s.slotPresent 0 = true) (h6 : identDigest = s.slotDigest 0) (h9 : revoked.testBit 0 = false)
    (h10 : s.sigMode revoked = 3) (h11 : s.burnedCount 0 = 0 ∧ s.burnedCount 1 = 0) (loaded : Option (Tab Nat))
    (hl : loaded = none ∨ loaded = some chunks) : s.verifyImage hdrImg revoked loaded = 0 := by
  obtain ⟨h1, h2, h3, h4, h7, h8, h12, h13⟩ := image_good
  refine verify_owner s hdrImg revoked h1 h2 h3 h4 h5 ?_ ?_ h9 h10 ⟨h12, h13, h11.1, h11.2⟩ image_sections loaded ?_
  · rw [h7, digest_ident, h6]
  · rw [h7, h8]
    exact edVerify_ident _ _
  · rintro m hm
    obtain rfl | rfl := hl
    · cases hm
    · cases hm
      exact chunks_cover

/-- A revocation of slot 1 while the owner's image is in the primary slot. -/
def revoking : State := moving 2 1 (inSlot 0)

theorem witness_SlotsAreRevoked :
    LbRuns revoking 4 0x0C04 ∧ (revoking.lb 4).args.length = 174 ∧ (revoking.lb 4).arg 0 1 = 2 ∧ (revoking.lb 4).arg 1 1 = 1 ∧
    (revoking.lb 4).arg 2 1 = 1 ∧ revoking.sec.nonce = some ([1, 2, 3], 0) ∧ revoking.usableSlots revoking.revokedSlots ≠ [1] ∧
    revoking.verifyImage (revoking.slotImg ((bootRecord revoking.sec.flash).2.2.1 % 2)) (revoking.revokedSlots ||| 2 ^ 1) none = 0 ∧
    revoking.burnBarred = false ∧ revoking.lifeSigned (revoking.lb 4) [1, 2, 3] = .good ∧ revoking.Quiet := by
  have hf : revoking.slotImg 0 = hdrImg := inSlot_img 0
  have hb : (bootRecord revoking.sec.flash).2.2.1 % 2 = 0 := by decide +kernel
  have hk : (revoking.slotPresent 0 = true ∧ identDigest = revoking.slotDigest 0 ∧ revoking.revokedSlots = 0) ∧
      revoking.sigMode (0 ||| 2 ^ 1) = 3 ∧ revoking.burnedCount 0 = 0 ∧ revoking.burnedCount 1 = 0 := by decide +kernel
  have hl : (revoking.lb 4).args = [2, 1, 1] ++ identKey ++ identSig := by decide +kernel
  have hd : (LbRuns revoking 4 0x0C04 ∧ (revoking.lb 4).args.length = 174 ∧ (revoking.lb 4).arg 0 1 = 2 ∧ (revoking.lb 4).arg 1 1 = 1 ∧
      (revoking.lb 4).arg 2 1 = 1 ∧ revoking.sec.nonce = some ([1, 2, 3], 0) ∧ revoking.usableSlots revoking.revokedSlots ≠ [1]) ∧
      revoking.burnBarred = false ∧ revoking.Quiet := by
    unfold LbRuns State.Quiet
    decide +kernel
  obtain ⟨⟨d1, d2, d3, d4, d5, d6, d7⟩, d8, d9⟩ := hd
  refine ⟨d1, d2, d3, d4, d5, d6, d7, ?_, d8, life_signed _ _ _ _ hl hk.1.1 hk.1.2.1.symm ?_, d9⟩
  · rw [hb, hf, hk.1.2.2]
    exact verifies revoking _ hk.1.1 hk.1.2.1 rfl hk.2.1 hk.2.2 none (.inl rfl)
  · have h := hk.1.2.2
    unfold revoking at h
    rw [h]
    rfl

/-- No image is accepted, and a device on trial. -/
def noImg (s : State) : State := { s with pwr := { s.pwr with phase := 0x0F } }.setF F.SEC_STATUS_halt_cause 1
def trial : State := (inSlot 0).setF F.SEC_STATUS_trial 1

theorem witness_ImagesAreLoaded :
    (∀ x, x = (0, owned) ∨ x = (1, noImg owned) → LbRuns (runs4 0x0D01 [255, 50, 0, 0, 240, 0, x.1, 0] x.2) 4 0x0D01 ∧ x.2.noImage = (x.1 == 1) ∧
      (runs4 0x0D01 [255, 50, 0, 0, 240, 0, x.1, 0] x.2).fwDenied 4 = false ∧ x.2.fb F.SEC_STATUS_trial = false) ∧
    240 * 13106 + 240 ≤ 0x300000 ∧
    (LbRuns (runs4 0x0D02 [1, 0] trial) 4 0x0D02 ∧ LbRuns (runs4 0x0D02 [2, 0] trial) 4 0x0D02 ∧ trial.fwDenied 4 = false ∧ trial.noImage = false ∧
      trial.fb F.SEC_STATUS_trial = true ∧ trial.burnBarred = false) := by
  unfold LbRuns
  rw [and_assoc.symm]
  refine ⟨⟨?_, by decide⟩, by decide +kernel⟩
  rintro x (rfl | rfl) <;> decide +kernel

/-- An image loaded into the other slot, and one pushed into the stores. -/
def loaded0 : State := { inSlot 1 with sec := { (inSlot 1).sec with load := some (0, chunks) } }
def loaded1 : State := { noImg owned with sec := { (noImg owned).sec with stores := ownerImage 0, load := some (1, chunks) } }

theorem witness_ImagesAreTried :
    (LbRuns (runs4 0x0D02 [0, 0] loaded0) 4 0x0D02 ∧ (runs4 0x0D02 [0, 0] loaded0).noImage = false ∧
      (runs4 0x0D02 [0, 0] loaded0).fwDenied 4 = false ∧ (runs4 0x0D02 [0, 0] loaded0).fb F.SEC_STATUS_trial = false ∧
      loaded0.verifyImage (loaded0.slotImg loaded0.otherSlot) loaded0.revokedSlots (some (loaded0.loadedFor 0)) = 0) ∧
    (LbRuns (runs4 0x0D02 [0, 1] loaded1) 4 0x0D02 ∧ (runs4 0x0D02 [0, 1] loaded1).noImage = true ∧
      (runs4 0x0D02 [0, 1] loaded1).fwDenied 4 = false ∧ (runs4 0x0D02 [0, 1] loaded1).fb F.SEC_STATUS_trial = false ∧
      loaded1.verifyImage loaded1.storeImg loaded1.revokedSlots (some (loaded1.loadedFor 1)) = 0) ∧
    (LbRuns (runs4 0x0D02 [0, 0] owned) 4 0x0D02 ∧ owned.verifyImage (owned.slotImg owned.otherSlot) owned.revokedSlots (some []) ≠ 0) := by
  have h0 : loaded0.otherSlot = 1 ∧ loaded0.loadedFor 0 = chunks := by decide +kernel
  have hf0 : loaded0.slotImg 1 = hdrImg := inSlot_img 1
  have hf1 : loaded1.storeImg = hdrImg := by
    funext a
    have h := image_at 0 a
    rwa [Nat.zero_add] at h
  have h1 : loaded1.loadedFor 1 = chunks := by decide +kernel
  have g : ∀ s, s = loaded0 ∨ s = loaded1 → (s.slotPresent 0 = true ∧ identDigest = s.slotDigest 0 ∧ s.revokedSlots.testBit 0 = false) ∧
      s.sigMode s.revokedSlots = 3 ∧ s.burnedCount 0 = 0 ∧ s.burnedCount 1 = 0 := by
    rintro s (rfl | rfl) <;> decide +kernel
  have r : ∀ c : Nat × State, c = (0, loaded0) ∨ c = (1, loaded1) → LbRuns (runs4 0x0D02 [0, BitVec.ofNat 8 c.1] c.2) 4 0x0D02 ∧
      (runs4 0x0D02 [0, BitVec.ofNat 8 c.1] c.2).noImage = (c.1 == 1) ∧ (runs4 0x0D02 [0, BitVec.ofNat 8 c.1] c.2).fwDenied 4 = false ∧
      (runs4 0x0D02 [0, BitVec.ofNat 8 c.1] c.2).fb F.SEC_STATUS_trial = false := by
    unfold LbRuns
    rintro c (rfl | rfl) <;> decide +kernel
  have r0 := r _ (.inl rfl)
  have r1 := r _ (.inr rfl)
  have g0 := g _ (.inl rfl)
  have g1 := g _ (.inr rfl)
  refine ⟨⟨r0.1, r0.2.1, r0.2.2.1, r0.2.2.2, ?_⟩, ⟨r1.1, r1.2.1, r1.2.2.1, r1.2.2.2, ?_⟩, by unfold LbRuns; decide +kernel, ?_⟩
  · rw [h0.1, h0.2, hf0]
    exact verifies loaded0 _ g0.1.1 g0.1.2.1 g0.1.2.2 g0.2.1 g0.2.2 _ (.inr rfl)
  · rw [h1, hf1]
    exact verifies loaded1 _ g1.1.1 g1.1.2.1 g1.1.2.2 g1.2.1 g1.2.2 _ (.inr rfl)
  · have h : imgFormatOk (owned.slotImg owned.otherSlot) = false := by decide +kernel
    unfold State.verifyImage
    rw [h]
    decide

/-- The Strongroom starts: the Cornerstone is sensed and the golden signatures are good. -/
def starting (s : State) : State := { s with pwr := { good := true, phase := 1 } }.setF (F.CST_SECT_state 28) 2

theorem witness_TheStrongroomStarts :
    ((starting (inSlot 0)).halted = false ∧ (starting (inSlot 0)).pwr.phase = 1 ∧ (starting (inSlot 0)).fb F.CST_STATUS_sensed = true ∧
      (starting (inSlot 0)).lifecycle ≠ 3 ∧ (starting (inSlot 0)).sigsGood = true ∧ (bootRecord (starting (inSlot 0)).sec.flash).2.2 = (0, 0xFF)) ∧
    (starting (inSlot 1)).sigsGood = true ∧ (bootRecord (starting (inSlot 1)).sec.flash).2.2 = (0, 0xFF) ∧
    (∀ k, k < 2 → imgFormatOk ((starting owned).slotImg k) = false) := by decide +kernel

theorem witness_signature : (∃ sig : BitVec 64, sig.toNat = (starting (inSlot 0)).goldOf 189) ∧
    ∃ sig : BitVec 64, sig.toNat ≠ (starting (inSlot 0)).goldOf 189 := by
  refine ⟨⟨_, rfl⟩, ?_⟩
  by_cases h : (starting (inSlot 0)).goldOf 189 = 0
  · exact ⟨1, by rw [h]; decide⟩
  · exact ⟨0, fun hc => h hc.symm⟩

/-- The image of slot `k` verifies, and what stands in the other slot does not. -/
theorem witness_slot_images (k : Nat) (hk : k = 0 ∨ k = 1) :
    (starting (inSlot k)).verifyImage ((starting (inSlot k)).slotImg k) (starting (inSlot k)).revokedSlots none = 0 ∧
    imgFormatOk ((starting (inSlot k)).slotImg (1 - k)) = false := by
  have hf : (starting (inSlot k)).slotImg k = hdrImg := inSlot_img k
  have g : ((starting (inSlot k)).slotPresent 0 = true ∧ identDigest = (starting (inSlot k)).slotDigest 0 ∧
      (starting (inSlot k)).revokedSlots.testBit 0 = false) ∧ (starting (inSlot k)).sigMode (starting (inSlot k)).revokedSlots = 3 ∧
      (starting (inSlot k)).burnedCount 0 = 0 ∧ (starting (inSlot k)).burnedCount 1 = 0 := by
    obtain rfl | rfl := hk <;> decide +kernel
  refine ⟨?_, by obtain rfl | rfl := hk <;> decide +kernel⟩
  rw [hf]
  exact verifies _ _ g.1.1 g.1.2.1 g.1.2.2 g.2.1 g.2.2 none (.inl rfl)

/-- The debug access of a PROVISIONED device unlocked to level 2. -/
def debugging : State := having owned [(F.SEC_STATUS_level, 2), (F.SEC_GATE_halt, 1), (F.SEC_GATE_dbgmem, 1), (F.SEC_GATE_raw, 1), (F.SEC_DBGMEM_ADDR_HI_raw, 1)]

/-- The mode of maintenance. -/
def maint (s : State) : State := s.setF F.PWR_MODE_mode 5

theorem witness_WatchdogsAndDebugAct :
    up.coreRuns 3 = true ∧ natGet up.sec.kickAt 3 = 0 ∧ up.severityOf (Src.trust 4) = 5 ∧
    ({ up with active := up.active.put (R.FLT_SEV 89) 0 }.severityOf (Src.trust 4) ≠ 5) ∧
    (WriteTaken debugging 65 R.SEC_DBGHALT 15) ∧
    (WriteTaken debugging 65 R.SEC_DBGMEM_CTL 1 ∧ debugging.fb F.SEC_DBGMEM_ADDR_HI_raw = true ∧ debugging.fb F.SEC_DBGMEM_ADDR_HI_l = false ∧
      8 * debugging.fv F.SEC_DBGMEM_ADDR_LO_addr + 2 ^ 32 * debugging.fv F.SEC_DBGMEM_ADDR_HI_addr + 8 ≤ dramTop) ∧
    (WriteTaken (maint debugging) 65 R.SEC_DBGMEM_CTL 0xABCD0003 ∧ (maint debugging).fb F.ECC_INJ_CTL_arm = false) ∧
    up.pwr.good = true ∧ up.pwr.inReset = false ∧ up.asleep = false := by
  unfold WriteTaken
  decide +kernel

theorem witness_debug_places (l : Loc) : (maint debugging).InArray l := inArray_plain _ rfl rfl rfl rfl rfl l

/-- The time of parlour core 3 has just passed. -/
def overdue : State := { up with epoch := epochsOfMs (up.fv F.SEC_WDOG_parlour_ms) }

theorem witness_overdue : overdue.coreRuns 3 = true ∧ natGet overdue.sec.kickAt 3 + epochsOfMs (overdue.fv F.SEC_WDOG_parlour_ms) ≤ overdue.epoch ∧
    overdue.epoch = natGet overdue.sec.kickAt 3 + epochsOfMs (overdue.fv F.SEC_WDOG_parlour_ms) := by
  have h : natGet overdue.sec.kickAt 3 + epochsOfMs (overdue.fv F.SEC_WDOG_parlour_ms) = overdue.epoch := Nat.zero_add _
  exact ⟨by decide +kernel, h.le, h.symm⟩

theorem witness_mild_trust (s : State) (h : s.active = State.reset.active) :
    Mild s 557 596 ∧ Mild s 656 692 ∧ Mild s 709 713 ∧ Mild s 714 718 :=
  ⟨mild_default _ h _ _ (by omega), mild_default _ h _ _ (by omega), mild_default _ h _ _ (by omega), mild_default _ h _ _ (by omega)⟩

/-! ### Witnesses: epochs, rows, the spill ring and the free pairs -/

/-- A row of tile 31 activated 1,024 times, 512 of them for port 63. -/
def hammered : State := up.modTile 31 fun T => { T with reached := [⟨31, 49183, 1024, [(63, 512), (0, 255)]⟩] }

theorem witness_EpochsBegin :
    (up.asleep = false ∧ up.pwr.good = true ∧ up.halted = false ∧ (up.frame ≠ 7 ∨ up.flit ≠ 7)) ∧
    ({ up with frame := 7, flit := 7 }.frame = 7 ∧ { up with frame := 7, flit := 7 }.flit = 7) ∧ (up.atBoundary = true ∧ up.epoch % 64 = 0) ∧
    ((({ up with epoch := 256 } : State).modTile 31 fun T => { T with shortPend := some 200, shortSent := some 0 }).tile 31).shortSent = some 0 := by
  decide +kernel

theorem witness_gentle_up : Gentle up := gentle_default up rfl

theorem witness_HammeredRowsAreMitigated :
    (hammered.tile 31).reached.find? (fun y => y.bank == 31 && y.row == 49183) = some ⟨31, 49183, 1024, [(63, 512), (0, 255)]⟩ ∧
    (1024 ≤ 4 * 512 ∧ ¬ 1024 ≤ 4 * 255) ∧ (∀ x ∈ (up.tile 31).reached, ¬ (x.bank = 31 ∧ x.row = 49183)) := by decide +kernel

theorem witness_mild_hammered : Mild hammered 144 304 := mild_default _ (by decide +kernel) _ _ (by omega)

/-- The ring at 8 MiB, with two records staged in quadrant 3, and a maintenance slot free in the channel of the producer's burst. -/
def ringBare (i : Nat) : State :=
  ({ up with active := conf [] [(F.ENG_RING_CTL_enable, 1), (F.ENG_RING_BASE_LO_base, 131072)] }.setF F.ENG_RING_PROD_index i).setSpill 3
    { staged := (⟨64, false, 0, 0, 1, 0⟩ : SpillRec) :: (if i % 4 = 3 then [⟨72, true, 1, 1, 2, 0⟩] else []) }
def ringing (i : Nat) : State :=
  ((ringBare i).setF (F.SCH_STATUS_running (ringBare i).ringTile) 1).modTile (ringBare i).ringTile fun T => { T with left := { T.left with maint := 1 } }

theorem witness_RingMovesOn (i : Nat) (h : i = 0 ∨ i = 3) :
    ringOn (ringing i).active = true ∧ ((ringing i).spillOf 3).staged = ⟨64, false, 0, 0, 1, 0⟩ :: ((ringing i).spillOf 3).staged.tail ∧
    (ringing i).fv F.ENG_RING_PROD_index = i ∧ (i % 4 = 3 ∨ ((ringing i).spillOf 3).staged.tail = []) ∧
    (ringing i).ringUsed < 2 ^ ringLog (ringing i).active ∧
    (if (ringing i).fv (F.SCH_CTL_maint (ringing i).ringTile) = 0 then (ringing i).openFree (ringing i).ringTile
      else (ringing i).maintFor 2 (ringing i).ringTile) = true ∧
    ringBase (ringing i).active + 16 * (i % 2 ^ ringLog (ringing i).active) + 16 ≤ dramTop ∧
    (ringing i).serves (dramLoc (ringing i).active (ringBase (ringing i).active + 16 * (i % 2 ^ ringLog (ringing i).active))).ch = true ∧
    (ringing i).fb F.ECC_INJ_CTL_arm = false := by
  obtain rfl | rfl := h <;> decide +kernel

theorem witness_ring_places (i : Nat) (l : Loc) : (ringing i).InArray l := inArray_plain _ rfl rfl rfl rfl rfl l

/-- A pair of queue 5's quadrant freed for epoch 0. -/
def freedPair : FreedPair := ⟨3, 6, 0, (20, 511, 0)⟩
def freeing : State := { up with cel := { up.cel with freeing := [⟨0, 5, 0, (0, 0, 0)⟩, freedPair] } }

theorem witness_PairsMoveOn :
    (∀ e, e = 255 ∨ e = 256 → (({ up with epoch := e } : State).setSpill 3 { lost := some (0, 5, 64) }).epoch = e ∧
      ((({ up with epoch := e } : State).setSpill 3 { lost := some (0, 5, 64) }).spillOf 3).lost = some (0, 5, 64)) ∧
    (∀ b : Bool, (up.setFlight 3 [⟨[1, 2], b, 0⟩]).flightOf 3 = [⟨[1, 2], b, 0⟩] ∧ (up.setFlight 3 [⟨[1, 2], b, 0⟩]).blockWaits 3 (some 0) = false ∧
      ((up.setFlight 3 [⟨[1, 2], b, 0⟩]).cacheOf 3).length + 2 ≤ 1792) ∧
    freeing.freeDue 3 = some freedPair ∧
    ({ up with cel := { up.cel with entering := [(3, 6)] } }.cel.entering = [(3, 6)] ∧
      ({ up with cel := { up.cel with entering := [(3, 6)] } }.cacheOf 3).length < 1792) := by
  refine ⟨?_, ?_, by decide +kernel⟩
  · rintro e (rfl | rfl) <;> decide +kernel
  · rintro (_ | _) <;> decide +kernel

theorem ring_mild (i : Nat) (hi : i = 0 ∨ i = 3) : Mild (ringing i) 304 336 ∧ Mild (ringing i) 504 544 := by
  have h : ∀ i, i = 0 ∨ i = 3 → ∀ k, k < 91 → (ringing i).active.val (R.FLT_SEV k) = State.reset.active.val (R.FLT_SEV k) := by
    rintro i (rfl | rfl) <;> decide +kernel
  exact ⟨mild_sev _ (h i hi) _ _ (by omega), mild_sev _ (h i hi) _ _ (by omega)⟩

/-- A head-cache entry of queue 5 that has been idle for its time, and the Cellar about to be initialised. -/
def idling : State := { withHead { queueIs one6 with active := cfg2 } with epoch := 2 ^ 20 }

def toInit : State := { up with active := cfg2, cel := { up.cel with initDue := some 0 } }

theorem witness_TheCellarMovesOn :
    (idling.headOf (5 : BitVec 18).toNat = some heldHead ∧ idling.fv F.CEL_HC_idle ≠ 0 ∧ heldHead.since + 256 * idling.fv F.CEL_HC_idle ≤ idling.epoch ∧
      CleanLarder idling (descLine idling.active 5).1 (descLine idling.active 5).2 one6.word0 ∧
      CleanLarder idling (descLine idling.active 5).1 ((descLine idling.active 5).2 + 1) one6.word1) ∧
    (toInit.fb F.CEL_STATUS_init_busy = false ∧ toInit.cel.initDue = some 0 ∧ toInit.celOld 0 = false ∧
      (celCfg toInit.active).enable = true ∧ (celCfg toInit.active).size ≠ 0) ∧
    ((up.setF F.CEL_STATUS_init_busy 1).fb F.CEL_STATUS_init_busy = true ∧ (up.setF F.CEL_STATUS_init_busy 1).blockWaits 5 none = false) := by
  unfold CleanLarder
  decide +kernel

/-! ### Witnesses: integrity, risers and clocks -/

def err0 : ErrInfo := ⟨0, 1, 1, 16, 31, 31, 49151, 31, 7, 3, 0, 0, 20, 0⟩
def rec0 : RecEntry := ⟨31, 49151, 31, 7, 2, 0, err0⟩
def job0 : ProbeJob := { bank := 31, row := 49151, col := 31, errs := [err0] }

/-- A device whose channel 31 runs, with a maintenance slot free, and with its integrity engine in some state. -/
def integ (e : EccSt → EccSt) : State :=
  ((up.setF (F.SCH_STATUS_running 31) 1).modTile 31 fun T => { T with left := { T.left with maint := 1 } }).modEcc 31 e

/-- The burst of job0, held as zeros with the last pattern slot past. -/
def ended : ProbeJob := { job0 with held := (List.range 8).map fun _ => encodeWord 0 false }
def aged : State := { integ (fun e => { e with recs := [rec0] }) with epoch := 2 ^ 40 }
def queued : State := integ fun e => { e with probeQ := [job0] }
def probed : State := integ fun e => { e with probe := some ended }
def dropped : State := integ fun e => { e with wb := [(31, 49151, 31), (0, 0, 0)] }

theorem witness_ErrorsAreProbedAndLogged :
    (rec0 ∈ (aged.eccOf 31).recs ∧ rec0.first + aged.maxAge 31 ≤ aged.epoch ∧ (aged.eccOf 31).recs = [rec0] ∧
      aged.fb (F.ECC_CTL_probe_en 31) = true ∧ aged.isRetired 31 rec0.bank rec0.row = false ∧ (aged.eccOf 31).probe = none ∧
      (aged.eccOf 31).probeQ = []) ∧
    ((queued.eccOf 31).probe = none ∧ queued.fb (F.ECC_CTL_probe_en 31) = true ∧ queued.maintFor 1 31 = true ∧
      (queued.eccOf 31).probeQ.find? (fun j => !queued.isRetired 31 j.bank j.row && !queued.isBorrowed 31 j.bank (queued.physRow 31 j.bank j.row)) =
        some job0) ∧
    ((probed.eccOf 31).probe = some ended ∧ ended.left = 0 ∧ probed.maintFor 1 31 = true ∧ ended.errs = [err0] ∧
      ended.held = (List.range 8).map (fun _ => encodeWord 0 false) ∧ (probed.eccOf 31).capture.length < 16 ∧
      probed.fb F.ECC_INJ_CTL_arm = false ∧ probed.mirrorRow 31 31 49151 31 = none ∧
      probed.mirrorOf 31 31 (probed.physRow 31 31 49151) 31 = none) ∧
    (classOf [] ((31, 49151), (31, 7)) [(7, true)] = 3 ∧ classOf [] ((31, 49151), (31, 7)) [] = 1 ∧
      classOf [((31, 49151), (31, 7))] ((31, 49151), (31, 7)) [] = 2) ∧
    ((dropped.eccOf 31).wb = [(31, 49151, 31), (0, 0, 0)] ∧ dropped.patrolMaint 31 = true ∧
      dropped.isBorrowed 31 31 (dropped.physRow 31 31 49151) = false ∧ dropped.probing 31 31 49151 31 = false ∧ dropped.fb F.ECC_INJ_CTL_arm = false) ∧
    (∀ p, p = 0 ∨ p = 262143 → natGet { up with log := { up.log with scrub := [(3, p)] } }.log.scrub 3 = p ∧ up.mode ≠ 4 ∧ 3 ≤ up.pwr.phase ∧
      up.lar.eng = [] ∧ up.lar.host = []) ∧
    (granule up.active 3 0 ≠ 0 ∧ granule ((up.setF (F.LAR_CTL_preset 3) 0).setF (F.LAR_PART_LO_kinds 3) 0).active 3 1 = 0) ∧
    (up.log.ring.length ≤ 4096 ∧ up.log.nextSeq < 2 ^ 32) := by
  refine ⟨?_, ?_, ?_, ?_, ?_, ?_, ?_⟩ <;> first | (rintro p (rfl | rfl) <;> decide +kernel) | decide +kernel

theorem witness_dropped_places (l : Loc) : dropped.InArray l := by
  refine inArray_of _ rfl (fun c => ?_) rfl rfl rfl l
  unfold State.eccOf dropped integ State.modEcc State.setEcc
  simp only [Tab.get_set]
  split <;> exact ⟨rfl, rfl⟩

theorem plain_integ (l : Loc) : (integ id).InArray l := inArray_plain _ rfl rfl rfl rfl rfl l

/-- The Polisher at burst 0: with an open slot while it keeps its pace, and one epoch behind it with a maintenance slot. -/
def polishing : State := (integ id).modTile 31 fun T => { T with unused := 1 }
def behind : State := { integ id with epoch := 1 }

theorem witness_ThePolisherReads :
    (∀ s, s = polishing ∨ s = behind → (s.patrolNext 31 2200 (s.patrolAt 31) = 0 ∧ s.patrolSkips 31 0 = false ∧
      s.fb (F.ECC_CTL_scrub_en 31) = true ∧ s.mode ≠ 4 ∧ s.planning 31 = true ∧ s.fb (F.SCH_STATUS_degraded 31) = false ∧ s.patrolAt 31 = 0 ∧
      (s.eccOf 31).passFrom = 0 ∧ (s.eccOf 31).recs = [] ∧ (s.eccOf 31).wb = [] ∧ s.patrolMaint 31 = true) ∧
      ∀ w, w < 8 → WordIs s ⟨31, 0 / 32 % 32, 0 / 1024, 0 % 32⟩ w 0) ∧
    0 < patrolLength ∧ polishing.openFree 31 = true := by
  refine ⟨?_, by decide, by decide +kernel⟩
  rintro s (rfl | rfl) <;> (unfold WordIs; decide +kernel)

theorem witness_pace : polishing.aheadBy 31 = 0 ∧ behind.aheadBy 31 < 0 ∧
    64 * polishing.aheadBy 31 ≤ (patrolLength : Int) * polishing.passEpochs 31 ∧ 64 * behind.aheadBy 31 ≤ (patrolLength : Int) * behind.passEpochs 31 := by
  have p (s : State) (h : s.patrolAt 31 = 0) (k : (s.eccOf 31).passFrom = 0) : s.aheadBy 31 = -((s.epoch : Int) * patrolLength) := by
    unfold State.aheadBy
    rw [h, k]
    simp
  have a := witness_ThePolisherReads.1 _ (.inl rfl)
  have b := witness_ThePolisherReads.1 _ (.inr rfl)
  have c := p polishing a.1.2.2.2.2.2.2.1 a.1.2.2.2.2.2.2.2.1
  have d := p behind b.1.2.2.2.2.2.2.1 b.1.2.2.2.2.2.2.2.1
  have e : polishing.epoch = 0 := rfl
  have f : behind.epoch = 1 := rfl
  rw [c, d, e, f]
  refine ⟨by simp, by decide, ?_, ?_⟩
  · simpa using Int.mul_nonneg (Int.natCast_nonneg _) (Int.natCast_nonneg _)
  · have g := Int.mul_nonneg (Int.natCast_nonneg patrolLength) (Int.natCast_nonneg (behind.passEpochs 31))
    have h : (0 : Int) ≤ patrolLength := Int.natCast_nonneg _
    simp only [Nat.cast_one, one_mul]
    omega

theorem witness_mild_integ (e : EccSt → EccSt) : Mild (integ e) 504 544 := mild_default _ rfl _ _ (by omega)

/-- A riser in some state. -/
def riserIn (r : Nat) (f : VrtSt → VrtSt) (s : State) : State := s.modRiser r f

/-- Every riser is trained, and the array is still to be filled. -/
def trained : State := (List.range 33).foldl (fun s r => riserIn r (fun V => { V with step := 6 }) s) { up with pwr := { up.pwr with phase := 4 } }

/-- Channel 31 is on the spare riser while its own is trained again. -/
def wayBack : State :=
  having (riserIn 31 (fun V => { V with step := 5, retrain := true }) up)
    [(F.VRT_SPARE_CARRY_busy, 1), (F.VRT_SPARE_CARRY_channel, 31), (F.VRT_SPARE_CARRY_reason, 1)]

theorem witness_LinesAreRepairedOrErased :
    (199 ∈ ((riserIn 32 (fun V => { V with calling := [199] }) up).riser 32).calling ∧
      199 ∉ ((riserIn 32 (fun V => { V with calling := [199] }) up).riser 32).failing ∧
      (riserIn 32 (fun V => { V with calling := [199] }) up).outOfService 32 = false ∧
      ((riserIn 32 (fun V => { V with calling := [199] }) up).riser 32).reps = [] ∧
      (riserIn 32 (fun V => { V with calling := [199] }) up).replaced 32 199 = false ∧
      (riserIn 32 (fun V => { V with calling := [199] }) up).fb (F.VRT_CTL_soft_repair_en 32) = true ∧
      (riserIn 32 (fun V => { V with calling := [199] }) up).spareFor 32 199 = some 6) ∧
    (159 ∈ ((riserIn 0 (fun V => { V with calling := [159] }) (up.setF (F.VRT_STATUS_spare_bad 0) 255)).riser 0).calling ∧
      (riserIn 0 (fun V => { V with calling := [159] }) (up.setF (F.VRT_STATUS_spare_bad 0) 255)).spareFor 0 159 = none ∧
      (((riserIn 0 (fun V => { V with calling := [159] }) (up.setF (F.VRT_STATUS_spare_bad 0) 255)).deadLines 0).filter (· ≠ 159)).length < 2) ∧
    (((riserIn 32 (fun V => { V with reps := [⟨199, 6, 0, none⟩] }) { up with epoch := 16 }).riser 32).reps.find? (fun x =>
      x.line == 199 && x.at_.isNone && decide (x.start + 16 ≤ 16)) = some ⟨199, 6, 0, none⟩) ∧
    ((riserIn 32 (fun V => { V with reps := [⟨199, 6, 0, some 0⟩] }) up).atBoundary = true ∧
      ((riserIn 32 (fun V => { V with reps := [⟨199, 6, 0, some 0⟩] }) up).riser 32).reps = [⟨199, 6, 0, some up.epoch⟩]) ∧
    (WriteTaken (withSession 64 up) 64 (R.VRT_REPAIR_REQ 32) 0x1C7 ∧ (0x1C7 : Word).field 8 1 = 1 ∧ (0x1C7 : Word).field 0 8 = 199 ∧ (0x1C7 : Word).field 0 8 < 200 ∧ up.spareFor 32 199 = some 6 ∧
      up.replaced 32 199 = false ∧ (up.riser 32).reps = []) ∧
    (((riserIn 31 (fun V => { V with move := some (5, 0) }) up).riser 31).move = some (5, 0) ∧ up.atBoundary = true ∧ up.halted = false ∧
      up.thm.cal = none ∧ up.thm.calQ = [] ∧ up.bst.runs = []) ∧
    (∀ k, k < 6 → ((riserIn 31 (fun V => { V with step := k, retrain := true }) up).riser 31).step = k ∧
      ((riserIn 31 (fun V => { V with step := k, retrain := true }) up).riser 31).retrain = true ∧
      ((riserIn 31 (fun V => { V with step := k, retrain := true }) up).riser 31).tries < 3) ∧
    (trained.pwr.phase = 4 ∧ trained.risersDone = true ∧ trained.mustFill = true) ∧
    (∀ k, k < 16 → 14 ≤ k → ((riserIn 32 (fun V => { V with step := 5, die := k, retrain := true }) up).riser 32).die = k ∧
      (riserIn 32 (fun V => { V with step := 5, die := k, retrain := true }) up).fb (F.VRT_DEAD_valid 32) = false) ∧
    (wayBack.carrier 31 = 32 ∧ (wayBack.riser 31).retrain = true ∧ (wayBack.riser 31).step = 5) := by
  unfold WriteTaken
  refine ⟨?_, ?_, ?_, ?_, ?_, ?_, ?_, ?_, ?_, ?_⟩ <;> decide +kernel

theorem witness_mild_risers (s : State) (h : s.active = State.reset.active) : Mild s 336 504 ∧ Mild s 692 698 ∧ Mild s 0 112 :=
  ⟨mild_default _ h _ _ (by omega), mild_default _ h _ _ (by omega), mild_default _ h _ _ (by omega)⟩

theorem witness_ClocksFallBack :
    ((up.setF F.CLK_STATUS_pll_lock 15).bit F.CLK_STATUS_pll_lock 3 = true ∧ (up.setF F.CLK_STATUS_pll_lock 15).severityOf (Src.pllLock 3) ≠ 5) ∧
    (({ up with clk := { up.clk with due := [3] } } : State).clk.due = [3] ∧ up.severityOf (Src.tuneFail 3) ≠ 5 ∧
      ({ up with clk := { up.clk with due := [3] } } : State).minMargin = up.minMargin ∧ min (0 : BitVec 16).toNat (0 : BitVec 16).toNat < up.minMargin ∧ up.minMargin ≤ min (0xFFFF : BitVec 16).toNat (0xFFFF : BitVec 16).toNat) ∧
    ({ up with clk := { up.clk with entryAt := some 0 } }.atBoundary = true ∧
      { up with clk := { up.clk with entryAt := some 0 } }.fb F.CLK_STATUS_fallback = false ∧ up.severityOf (Src.vertCommon 5) ≠ 5) ∧
    (having { up with clk := { up.clk with exitAt := some 0 } } [(F.CLK_STATUS_fallback, 1), (F.CLK_CTL_exit_allow, 1), (F.CLK_CTL_force_fallback, 0)]).fb
      F.CLK_STATUS_fallback = true ∧
    (having { up with clk := { up.clk with exitAt := some 0 } } [(F.CLK_STATUS_fallback, 1), (F.CLK_CTL_exit_allow, 1), (F.CLK_CTL_force_fallback, 0)]).fb
      F.CLK_CTL_exit_allow = true ∧
    (having { up with clk := { up.clk with exitAt := some 0 } } [(F.CLK_STATUS_fallback, 1), (F.CLK_CTL_exit_allow, 1), (F.CLK_CTL_force_fallback, 0)]).fb
      F.CLK_CTL_force_fallback = false := by decide +kernel

/-! ### Witnesses: the Chimney -/

/-- A calibration under way at a step. -/
def calAt (step : Nat) (takes chunks : Bool) (s : State) : State :=
  { s with thm := { s.thm with cal := some ⟨⟨31, 0, false, []⟩, step, false, false, takes, chunks, 0, [], []⟩ } }

/-- The dies' channels have a running schedule, and the group has been read its number of times. -/
def wvRead : State := { having up [(F.THM_CTL_wv_en, 1), (F.SCH_STATUS_running 31, 1)] with thm := { up.thm with wv := [(31, { reads := 256 })] } }

theorem witness_TheChimneyMeasures :
    (up.fb F.THM_CTL_wv_en = true ∧ up.mode ≠ 4 ∧ up.halted = false ∧ 5 ≤ up.pwr.phase ∧ up.planning 31 = false ∧
      (up.wvGroup 31).unreliable = false) ∧
    (wvRead.planning 31 = true ∧ 256 ≤ (wvRead.wvGroup 31).reads ∧ wvRead.mode ≠ 4 ∧ wvRead.fb F.THM_CTL_wv_en = true) ∧
    ({ up with thm := { up.thm with wv := [(31, { fresh := true })] } }.wvGroup 31).fresh = true ∧
    (up.wvOf 15 = [] ∧ 15 ∉ up.thm.staleRaised ∧ up.severityOf (Src.thermal 7) ≠ 5) ∧
    (up.pwr.good = true ∧ up.fb F.THM_SHUT_tripped = false ∧ up.thm.calQ = [] ∧
      ∀ g, g < 32 → -32768 ≤ (up.wvGroup g).est ∧ (up.wvGroup g).est < 32768) ∧
    (up.setF F.THM_SHUT_tripped 1).fb F.THM_SHUT_tripped = true := by decide +kernel

/-- A time that has run out. -/
theorem witness_freshness (n : Nat) : 0 + n ≤ ({ up with epoch := n } : State).epoch := by rw [Nat.zero_add]

/-- The spare riser is free and trained. -/
def spareFree (s : State) : State := having s [(F.VRT_SPARE_DIES_trained, 0xFFFF), (F.VRT_SPARE_CARRY_busy, 0)]

/-- The spare riser carries channel 31. -/
def carried31 (s : State) : State := having s [(F.VRT_SPARE_CARRY_busy, 1), (F.VRT_SPARE_CARRY_channel, 31)]

theorem witness_RisersAreCalibrated :
    (LbRuns (rings 0x0A01 [31, 0, 0]) 4 0x0A01 ∧ ((rings 0x0A01 [31, 0, 0]).lb 4).arg 0 1 = 31 ∧ ((rings 0x0A01 [31, 0, 0]).lb 4).arg 2 1 = 0 ∧
      3 ≤ ((rings 0x0A01 [31, 0, 0]).lb 4).args.length ∧
      (rings 0x0A01 [31, 0, 0]).thm.asks = [] ∧ (rings 0x0A01 [31, 0, 0]).thm.cal = none ∧ (rings 0x0A01 [31, 0, 0]).thm.calQ = []) ∧
    (LbRuns (calAt 0 true false (rings 0x0A01 [30, 0, 0])) 4 0x0A01 ∧ (calAt 0 true false (rings 0x0A01 [30, 0, 0])).thm.cal.isSome = true ∧
      ((rings 0x0A01 [30, 0, 0]).lb 4).arg 0 1 = 30 ∧ (calAt 0 true false (rings 0x0A01 [30, 0, 0])).thm.asks = []) ∧
    (LbRuns (spareFree (rings 0x0A01 [31, 0, 0])) 4 0x0A01 ∧ (spareFree (rings 0x0A01 [31, 0, 0])).calWay ⟨31, 0, false, [4]⟩ = .takeover) ∧
    (LbRuns ((rings 0x0A01 [31, 0, 0]).setF F.PWR_MODE_mode 4) 4 0x0A01 ∧ ((rings 0x0A01 [31, 0, 0]).setF F.PWR_MODE_mode 4).mode = 4) := by
  unfold LbRuns
  decide +kernel

theorem witness_calSteps :
    ((spareFree (calAt 0 true false up)).atBoundary = true ∧ (spareFree (calAt 0 true false up)).fb F.VRT_SPARE_CARRY_busy = false ∧
      (spareFree (calAt 0 true false up)).halted = false ∧ ∀ k, k < 5 → (calAt k true false up).thm.cal.map (·.step) = some k) ∧
    (carried31 (calAt 4 true false up)).carrier 31 = 32 ∧ (carried31 (calAt 4 true false up)).atBoundary = true ∧
    (carried31 (calAt 4 true false up)).epoch = 0 ∧
    (∀ k, k < 7 → (calAt k false true up).thm.cal = some ⟨⟨31, 0, false, []⟩, k, false, false, false, true, 0, [], []⟩) ∧
    (calAt 6 false true up).atBoundary = true ∧ (calAt 6 false true up).halted = false ∧ (calAt 6 false true up).thm.calQ = [] := by
  decide +kernel

theorem witness_mild_thermal (s : State) (h : s.active = State.reset.active) : Mild s 602 616 := mild_default _ h _ _ (by omega)

/-! ### Witnesses: self-test -/

/-- One test under way. -/
def testing (r : TestRun) (s : State) : State := { s with bst := { s.bst with runs := [r] } }
def run0 (kind a b c stage : Nat) : TestRun := ⟨kind, a, b, c, none, stage, 0, [], 0, 0, 0, false, false, false⟩

/-- Engine tests are enabled, and the golden signatures are readable. -/
def selfTest : State := having up [(F.BST_CTL_infield_en, 1), (F.BST_CTL_engine_en, 1), (F.CST_SECT_state 28, 2), (F.BST_CTL_rt_yield, 1)]

theorem witness_LogicIsTested :
    (selfTest.fb F.BST_CTL_infield_en = true ∧ selfTest.fb F.BST_CTL_engine_en = true ∧ selfTest.mode = 1 ∧ selfTest.halted = false ∧
      5 ≤ selfTest.pwr.phase ∧ selfTest.engineOut 127 = false ∧ selfTest.periodOver (tkEngine, 127) = true ∧
      selfTest.mayStart tkEngine 127 0 0 = .runs ∧ (testing (run0 tkEngine 126 0 0 0) selfTest).mayStart tkEngine 127 0 0 = .busy) ∧
    (∀ k, k < 3 → (testing (run0 tkEngine 127 0 0 k) selfTest).runOf tkEngine 127 = some (run0 tkEngine 127 0 0 k)) ∧
    selfTest.sigsGood = true ∧ selfTest.severityOf (Src.selftest 0 (127 / 32)) ≠ 5 ∧
    ∀ q, q < 4 → ({ selfTest with pwr := { selfTest.pwr with phase := 3 }, bst := { selfTest.bst with bootQuads := q } }).startupTurn tkQuad q = true ∧
      selfTest.runOf tkQuad q = none := by decide +kernel

theorem witness_RisersAreTested :
    (∀ k, k < 6 → (testing (run0 tkRiser 31 0 0 k) selfTest).bst.runs.find? (fun r => r.kind == tkRiser) = some (run0 tkRiser 31 0 0 k)) ∧
    selfTest.fb F.VRT_SPARE_CARRY_busy = false ∧ selfTest.thm.cal = none ∧ selfTest.thm.calQ = [] ∧ selfTest.atBoundary = true ∧
      selfTest.halted = false ∧ (run0 tkRiser 31 0 0 4).at_ ≤ selfTest.epoch := by decide +kernel

/-- Row tests are enabled, channel 31 has a running schedule with a maintenance slot left, and its row slot is the first of the
shadow granule of quadrant 3. -/
def rowSlot : Nat := 496 * (16 * 3 + 1)
def rowTests : State :=
  let s := having selfTest [(F.BST_CTL_row_en, 1), (F.SCH_STATUS_running 31, 1)]
  let s := s.modTile 31 fun T => { T with left := { T.left with maint := 1 } }
  { s with bst := { s.bst with slots := [(rowSlot, rowCode 31 + 1)] } }
def rowRun (stage sig : Nat) : TestRun := { run0 tkRow 31 31 49151 stage with sig := sig }

theorem witness_rowDue :
    rowTests.fb F.BST_CTL_infield_en = true ∧ rowTests.fb F.BST_CTL_row_en = true ∧ rowTests.mode = 1 ∧ rowTests.halted = false ∧
    5 ≤ rowTests.pwr.phase ∧ rowTests.planning 31 = true ∧ rowTests.periodOver (tkRow, 31) = true ∧
    rowTests.nextRow 31 4096 (natGet rowTests.bst.rowPtr 31) = 0 ∧ rowTests.mayStart tkRow 31 0 0 = .runs := by decide +kernel

theorem witness_RowsAreTested :
    (∀ k, k < 4 → (testing (rowRun k 31) rowTests).runOf tkRow 31 = some (rowRun k 31) ∧
      (testing (rowRun k 31) rowTests).slotOf (rowCode 31) = some rowSlot ∧ (testing (rowRun k 31) rowTests).maintFor 0 31 = true ∧
      (rowRun k 31).at_ ≤ (testing (rowRun k 31) rowTests).epoch) ∧
    (testing (rowRun 0 0) rowTests).copyOf 31 31 49151 = none ∧ (testing (rowRun 0 31) rowTests).copyOf 31 31 49151 = none ∧
    (testing (rowRun 0 31) rowTests).heldJob ⟨31, 31, ((testing (rowRun 0 31) rowTests).userRow 31 31 49151).getD 49151, 31⟩ = none ∧
    rowTests.severityOf (Src.selftest 5 3) ≠ 5 ∧ rowTests.slotOf (heldCode (31, 31, 49151)) = none ∧
    (∀ w, w < 8 → rowTests.erasures 31 w = []) ∧ (rowTests.userRow 31 31 49151).getD 49151 = 49151 := by decide +kernel

theorem witness_LarderBanksAreTested :
    (∀ q, q < 4 → selfTest.runOf tkBank q = none ∧ q ∉ selfTest.bst.marched) ∧
    ({ selfTest with pwr := { selfTest.pwr with phase := 3 } } : State).pwr.phase = 3 ∧
    (∀ k, k < 3 → (testing (run0 tkBank 3 127 0 k) selfTest).runOf tkBank 3 = some (run0 tkBank 3 127 0 k)) ∧
    selfTest.slotOf (bankCode 3) = none ∧ selfTest.atBoundary = true ∧ selfTest.severityOf (Src.selftest 6 3) ≠ 5 := by decide +kernel

theorem witness_TestsYield :
    ((testing (rowRun 1 5) rowTests).runOf tkRow 31 = some (rowRun 1 5) ∧ rowTests.mode ≠ 2 ∧ rowTests.fb F.BST_CTL_rt_yield = true ∧
      (rowRun 1 5).yielded = false) ∧
    (testing { rowRun 0 0 with yielded := true } selfTest).runOf tkRow 31 = some { rowRun 0 0 with yielded := true } ∧
    (testing { rowRun 0 0 with yielded := true } selfTest).mayStart tkRow 31 31 49151 = .runs := by decide +kernel

theorem witness_signatures (s : State) (slice : Nat) :
    (∃ sig : BitVec 64, sig.toNat = s.goldOf slice) ∧ ∃ sig : BitVec 64, sig.toNat ≠ s.goldOf slice := by
  refine ⟨⟨_, rfl⟩, ?_⟩
  by_cases h : s.goldOf slice = 0
  · exact ⟨1, by rw [h]; decide⟩
  · exact ⟨0, fun hc => h hc.symm⟩

theorem witness_mild_tests (s : State) (h : s.active = State.reset.active) : Mild s 504 544 ∧ Mild s 556 596 :=
  ⟨mild_default _ h _ _ (by omega), mild_default _ h _ _ (by omega)⟩

/-- A remap whose copies and probes have ended. -/
def remapped : State := { up with remapRuns := [⟨5, 31, 31, 49151, false, 15, 32, 0, 0⟩] }

theorem witness_UnitsReturnToService :
    ((testing { run0 tkEngine 127 0 0 2 with pos := toPass } up).runOf tkEngine 127 = some { run0 tkEngine 127 0 0 2 with pos := toPass } ∧
      up.atBoundary = true ∧ up.halted = false) ∧
    ((testing { run0 tkEngine 127 0 0 2 with restore := true, lb := some 5 } up).runOf tkEngine 127 =
      some { run0 tkEngine 127 0 0 2 with restore := true, lb := some 5 } ∧ (up.lb 5).restarted = false) ∧
    ((testing { run0 tkRiser 31 0 0 5 with pos := toPass } up).bst.runs.find? (fun r => r.kind == tkRiser && r.stage == 5) =
      some { run0 tkRiser 31 0 0 5 with pos := toPass } ∧ up.thm.cal = none ∧ up.thm.calQ = []) ∧
    (remapped.remapRuns.find? (fun r => !r.works && decide (r.at_ ≤ remapped.epoch)) = some ⟨5, 31, 31, 49151, false, 15, 32, 0, 0⟩ ∧
      49151 < userRows ∧ remapped.spareOf 31 31 49151 = none ∧ (remapped.lb 5).restarted = false) ∧
    (∀ k, k < 4 → (testing (rowRun k 0) up).runOf tkRow 31 = some (rowRun k 0)) ∧ up.severityOf (Src.selftest 8 (testQuad tkRow 31)) ≠ 5 ∧
    ((testing { run0 tkBank 3 127 0 4 with pos := toPass } up).runOf tkBank 3 = some { run0 tkBank 3 127 0 4 with pos := toPass } ∧
      up.slotOf (bankCode 3) = none) ∧
    (up.severityOf (Src.selftest 0 (127 / 32)) ≠ 5 ∧ (carried31 up).carrier 31 = 32 ∧
      (having up [(F.LAR_SPARE_perm 3, 1)]).permDue 3 = true ∧ up.fb (F.LAR_SPARE_STAT_active 3) = false) ∧
    ((having up [(F.LAR_SPARE_perm 3, 1), (F.LAR_SPARE_STAT_active 3, 1)]).fb (F.LAR_SPARE_STAT_active 3) = true ∧
      ({ having up [(F.LAR_SPARE_perm 3, 1), (F.LAR_SPARE_STAT_active 3, 1)] with bst := { up.bst with lheld := [(3, 0)] } }).permDue 3 = true ∧
      up.severityOf (Src.larder 1 3) ≠ 5) := by decide +kernel

/-! ### Witnesses: faults -/

/-- Containment is enabled, and source 27, of link 3, has a severity. -/
def severe (v : Nat) : State := { having up [(F.FLT_CTL_contain_en, 1)] with active := (having up [(F.FLT_CTL_contain_en, 1)]).active.put (R.FLT_SEV 3) (BitVec.ofNat 32 (v * 2 ^ 12)) }

theorem witness_SourcesAreRaised :
    (∀ v, v < 6 → (severe v).severityOf 27 = v) ∧ (severe 4).fb F.FLT_CTL_contain_en = true ∧ containUnit 27 0 = some (.link 3) ∧
    ((severe 4).latch 27).severity = 0 ∧ (((severe 4).raise 27 9).latch 27).severity ≠ 0 ∧ (severe 5).fb F.FLT_FATAL_SRC_valid = false ∧
    (having (severe 5) [(F.FLT_FATAL_SRC_valid, 1)]).fb F.FLT_FATAL_SRC_valid = true := by
  refine ⟨?_, ?_⟩ <;> decide +kernel

/-- Units wait for the next boundary. -/
def waits (us : List CUnit) (s : State) : State := { s with flt := { s.flt with pendContain := us } }

theorem witness_UnitsAreContainedAndReleased :
    (up.atBoundary = true ∧
      (waits [.link 15, .port 63, .tile 31, .engine 127, .core 3, .cellar, .letterbox 5] up).flt.pendContain =
        [.link 15, .port 63, .tile 31, .engine 127, .core 3, .cellar, .letterbox 5] ∧
      up.isContained (.link 15) = false ∧ up.isContained (.engine 127) = false ∧ up.isContained (.core 3) = false) ∧
    (WriteTaken up 64 R.FLT_CONTAIN_LINK 0x8000 ∧ (0x8000 : Word).toNat.testBit 15 = true ∧
      (having up [(F.FLT_CONTAIN_LINK_link, 0x8000)]).isContained (.link 15) = true ∧
      WriteTaken (having up [(F.FLT_CONTAIN_LINK_link, 0x8000)]) 64 R.FLT_CONTAIN_LINK 0x8000) ∧
    ((having up [(F.FLT_STATUS_quiet_running, 1)]).fb F.FLT_STATUS_quiet_running = true ∧ up.halted = false) ∧
    (WriteTaken up 64 R.FLT_DET_CLR 0x80000000 ∧ WriteTaken up 64 R.FLT_DET_CLR 0x01060000 ∧ WriteTaken up 64 R.FLT_DET_CLR 0x2D1) ∧
    ((0x80000000 : Word).field 31 1 = 1 ∧ (0x01060000 : Word).field 24 1 = 1 ∧ (0x01060000 : Word).field 31 1 = 0 ∧ (0x2D1 : Word).field 24 1 = 0 ∧
      (0x2D1 : Word).field 0 10 = 721 ∧ (0x2D1 : Word).field 31 1 = 0 ∧ summaryBit 721 ≠ (0x01060000 : Word).field 16 6) := by
  unfold WriteTaken
  decide +kernel

/-- The quiet period has passed, or not yet, whatever the grade. -/
theorem witness_quiet :
    (let s : State := { having up [(F.FLT_STATUS_quiet_running, 1)] with epoch := 2 ^ 30 }
     s.fb F.FLT_STATUS_quiet_running = true ∧ s.halted = false ∧ s.flt.quietAt + s.quietPeriod ≤ s.absFlit) ∧
    up.absFlit < up.flt.quietAt + up.quietPeriod := by
  refine ⟨⟨by decide +kernel, by decide +kernel, ?_⟩, ?_⟩ <;> unfold State.quietPeriod flitsOfMs <;> split <;> decide +kernel

/-- A source raised in this very cycle. -/
def justRaised : State := { up with flt := { up.flt with cycle := 0, raised := [(721, ⟨1, 0, 0, 1, 0⟩)] } }

theorem witness_sameCycle :
    WriteTaken justRaised 64 R.FLT_DET_CLR 0x2D1 ∧ justRaised.flt.cycle = justRaised.absFlit ∧
    (721, (⟨1, 0, 0, 1, 0⟩ : Latch)) ∈ justRaised.flt.raised ∧ (∀ y ∈ justRaised.flt.raised, y.1 = 721 → y.2 = ⟨1, 0, 0, 1, 0⟩) ∧
    up.flt.raised = [] := by
  unfold WriteTaken
  decide +kernel

/-! ### Witnesses: the test port -/

/-- The Cornerstone is checked and the device is at debug level 2, in a mode. -/
def atD2 (m : Nat) : State := having up [(F.CST_STATUS_sensed, 1), (F.SEC_STATUS_level, 2), (F.PWR_MODE_mode, m)]

/-- What the test port has selected. -/
def selecting (T : TapSt) (s : State) : State := { s with tap := T }

theorem witness_TheTestPortScans :
    (up.tapOn = true ∧ (atD2 1).tapOn = true ∧ (atD2 5).tapOn = true ∧ up.tap.wir = [] ∧ up.tapLevel 1 = false ∧ (atD2 1).tapLevel 1 = true ∧ (atD2 1).tapMaint = false ∧ (atD2 5).tapMaint = true ∧
      (atD2 5).anyOpen = false ∧ ((atD2 5).setLinkState 15 lsOpen).anyOpen = true) ∧
    ((selecting { tierSel := 2 ^ 17 } (atD2 1)).tapLevel 1 = true ∧ (selecting { tierSel := 2 ^ 17 } (atD2 1)).tap.tierSel.testBit (17 : Fin 18).val = true ∧
      (selecting { tierSel := 2 ^ 17 } (atD2 1)).tap.tierSel.testBit 16 = false) ∧
    (∀ code, code < 6 → (selecting { coreSel := 184 } (atD2 5)).wirServes 184 code = true ∧ (selecting { coreSel := 0 } (atD2 5)).wirServes 0 code = true) ∧
    ((17, 3) ∈ ([(17, 3)] : List (Fin 18 × BitVec 4)) ∧ ∀ x ∈ ([(17, 3)] : List (Fin 18 × BitVec 4)), x.1 = 17 → x.2 = 3) ∧
    ((selecting { coreSel := 184, wir := [(184, 5)] } (atD2 5)).wirOf 184 = 5 ∧ (5 : BitVec 3).toNat = 5) ∧
    ((atD2 5).mayStart (lbistOf 0).1 (lbistOf 0).2 0 0 = .runs ∧ (atD2 5).mayStart (lbistOf 180).1 (lbistOf 180).2 0 0 = .runs ∧
      (atD2 5).mayStart (lbistOf 160).1 (lbistOf 160).2 0 0 = .runs) ∧
    ((selecting { ir := 0x30 } (atD2 1)).regServed false (0xFFFFFF : BitVec 24).toNat = true ∧
      (selecting { ir := 0x30 } (atD2 1)).regServed true R.FLT_DET_CLR = true) := by decide +kernel

theorem witness_register_accesses :
    ((atD2 1).regServed true R.FLT_DET_CLR = true ∧ (atD2 1).accessCode 65 R.FLT_DET_CLR true 0x80000000 false = accOK ∧
      (atD2 1).keepFault 65 R.FLT_DET_CLR 0x80000000 false = none ∧
      (atD2 1).keepFault 65 R.FLT_DET_CLR 0xC0000000 false = some (.keepField R.FLT_DET_CLR) ∧
      up.regServed false R.FLT_DET_CLR = false) ∧
    ((atD2 4).mode = 4 ∧ (atD2 1).mode ≠ 4 ∧ up.mode ≠ 4 ∧ inLb 5 (offsetOf (R.MBX_BUF 5 0)) = true ∧ up.accessCode 65 (R.MBX_BUF 5 0) true 7 false = accOK ∧
      up.keepFault 65 (R.MBX_BUF 5 0) 7 false = none ∧ inLb 5 (offsetOf R.FLT_DET_CLR) = false ∧
      up.severityOf (Src.letterbox 5 (lbOfPath 65)) ≠ 5) := by decide +kernel

theorem witness_TiersAreScanned :
    ((atD2 1).tapOn = true ∧ up.tap.tierSel.testBit (17 : Fin 18).val = false) ∧
    (∀ k, k < 18 → (selecting { tierSel := 2 ^ 18 - 1 } (atD2 1)).tapLevel 1 = true ∧
      (selecting { tierSel := 2 ^ 18 - 1 } (atD2 1)).tap.tierSel.testBit k = true) ∧
    (inTier 1 (R.LAR_CNT_CLR 3) = true ∧ inTier 17 (R.VRT_DTRIM 15 0 0) = true ∧ 2 ≤ (atD2 1).level ∧
      (atD2 1).accessCode 65 (R.LAR_CNT_CLR 3) true 1 false = accOK ∧ (atD2 1).keepFault 65 (R.LAR_CNT_CLR 3) 1 false = none ∧
      (atD2 1).keepFault 65 (R.LAR_CNT_CLR 3) 0x80000000 false = some (.keepField (R.LAR_CNT_CLR 3))) ∧
    ((atD2 5).tapMaint = true ∧ (atD2 5).anyOpen = false ∧ (atD2 1).tapMaint = false ∧ ((atD2 5).setLinkState 15 lsOpen).anyOpen = true) := by
  decide +kernel

/-! ### Witnesses: modes, RETENTION, supplies and resets -/

/-- A change of mode to come. -/
def changing (m at_ cause : Nat) : State := { up with pwr := { up.pwr with change := some ⟨m, at_, some 5, false, cause⟩ } }

/-- Link 15 of a device in COOL is to be parked. -/
def cooling (e : Nat) : State :=
  { (having up [(F.PWR_MODE_mode, 3)]).setLinkState 15 lsVestibule with epoch := e, pwr := { up.pwr with coolFrom := 7, coolLinks := [13, 15] } }

theorem witness_quiet_up : up.Quiet := by unfold State.Quiet; decide +kernel

theorem witness_ModesChangeAtBoundaries :
    up.pwr.change = none ∧
    (∀ m, m < 6 → (changing m 0 2).pwr.change = some ⟨m, 0, some 5, false, 2⟩ ∧ (changing m 0 0).pwr.change = some ⟨m, 0, some 5, false, 0⟩) ∧
    (up.atBoundary = true ∧ (0 : Nat) ≤ up.epoch ∧ up.epoch < 1 ∧ (up.lb 5).restarted = false) ∧
    ((cooling 1031).mode = 3 ∧ 15 ∈ (cooling 1031).pwr.coolLinks ∧ (cooling 1031).linkState 15 = lsVestibule ∧ (cooling 1031).mayPark 15 = true ∧
      (cooling 1031).pwr.coolFrom + 1024 ≤ 1031 ∧ (cooling 1030).pwr.coolFrom + 1024 > 1030) := by decide +kernel

/-- A device that drains for RETENTION from boundary 0 on. -/
def draining : State := { up with pwr := { up.pwr with drain := some (0, 5) } }

/-- A device in RETENTION. -/
def sleeping (P : PwrSt) : State := { having up [(F.PWR_MODE_mode, 4), (F.PWR_RET_LAST_larder_kept, 1)] with pwr := P }

theorem witness_RetentionIsEnteredAndLeft :
    (draining.pwr.drain = some (0, 5) ∧ draining.reqs = [] ∧ (draining.lb 5).restarted = false ∧ up.severityOf (Src.power 0) ≠ 5 ∧
      (asks (req [] 63 511 4 128 0 0 0 []) draining).reqs ≠ [] ∧ draining.dirtyLines (fun _ _ => true) = [] ∧
      (∀ c, c < 32 → draining.fb (F.ENG_CTL_flush_busy c) = false ∧ (draining.eccOf c).probe = none)) ∧
    ({ draining with eng := { draining.eng with cache := [(16384 * 31, [⟨0, 31, 49151, 31, true, []⟩])] } }.dirtyLines (fun _ _ => true) ≠ [] ∧
      (draining.setF (F.ENG_CTL_flush_busy 31) 1).fb (F.ENG_CTL_flush_busy 31) = true) ∧
    (draining.setLinkState 15 lsVestibule).linkState 15 = lsVestibule ∧
    (WriteTaken (sleeping { good := true, phase := 7, booted := true }) 64 R.PWR_WAKE 1 ∧
      WriteTaken (sleeping { good := true, phase := 7, booted := true, sleepAt := some 4 }) 64 R.PWR_WAKE 1 ∧
      WriteTaken (sleeping { good := true, phase := 7, booted := true, drain := some (0, 5) }) 64 R.PWR_WAKE 1 ∧
      (1 : Word).field 0 1 = 1 ∧ (sleeping { good := true, phase := 7, booted := true }).mode = 4) ∧
    ((sleeping { good := true, phase := 7, booted := true, exiting := true }).asleep = true ∧
      (sleeping { good := true, phase := 7, booted := true, exiting := true }).halted = false ∧
      (sleeping { good := true, phase := 7, booted := true, exiting := true }).linkState 15 = lsDown ∧
      ((sleeping { good := true, phase := 7, booted := true, exiting := true }).setLinkState 15 lsSleep).linkState 15 = lsSleep) := by
  unfold WriteTaken
  decide +kernel

theorem witness_gentle_draining : Gentle draining := gentle_default _ rfl

theorem witness_drain_limit : (0 : Nat) < 0 + draining.drainLimit ∧
    ∃ s : State, s.pwr.drain = some (0, 5) ∧ 0 + s.drainLimit ≤ s.epoch ∧ s.severityOf (Src.power 0) ≠ 5 := by
  have h : max 1 (draining.fv F.PWR_RET_drain_limit) ≥ 1 := Nat.le_max_left _ _
  constructor
  · unfold State.drainLimit
    dsimp only
    split <;> omega
  · exact ⟨{ draining with epoch := draining.drainLimit }, rfl, by rw [Nat.zero_add]; exact Nat.le_refl _, by decide +kernel⟩

theorem witness_exit_mild (P : PwrSt) : Mild (sleeping P) 112 144 ∧ Mild (sleeping P) 718 720 :=
  ⟨mild_default _ rfl _ _ (by omega), mild_default _ rfl _ _ (by omega)⟩

/-- A device in a phase of its boot. -/
def inPhase (p : Nat) : State := { State.reset with pwr := { good := true, phase := p } }

theorem witness_PowerBootAndResets :
    (up.severityOf (Src.power 2) ≠ 5 ∧ up.severityOf (Src.power 2) ≠ 0) ∧
    (State.reset.pwr.good = false ∧ up.pwr.good = true ∧ up.pwr.inReset = false ∧ up.halted = false) ∧
    (∀ p, p < 8 → (inPhase p).pwr.phase = p ∧ (inPhase p).halted = false) ∧
    ((inPhase 4).mustFill = true ∧ (having (inPhase 4) [(F.PWR_STATUS_reset_cause, 1)]).mustFill = false ∧
      ({ inPhase 3 with bst := { up.bst with bootQuads := 4, marched := [3, 2, 1, 0] } }).bst.marched.length = 4) ∧
    ((inPhase 4).risersDone = false ∧
      ({ inPhase 4 with vrt := (List.range 33).map fun r => (r, { step := 6 }) } : State).risersDone = true ∧ (inPhase 4).isLimited = false) ∧
    (up.bst.held = [] ∧ up.fb F.CST_STATUS_sensed = false ∧ R.CFG_STATUS ∉ [R.CLK_STATUS, R.PWR_STATUS, R.PWR_CNT_WARM] ∧
      ∀ i, i < 6 → R.CFG_STATUS ≠ R.PWR_DOM i) ∧
    ({ up with pwr := { up.pwr with inReset := true } }.pwr.inReset = true) ∧
    (WriteTaken up 64 R.PWR_LRST 0x8000 ∧ (0x8000 : Word).toNat.testBit 15 = true) := by
  unfold WriteTaken
  decide +kernel

theorem witness_canonical_up : up.Canonical := by
  unfold State.Canonical
  decide +kernel

theorem witness_boot_time : 600 ≤ ({ inPhase 5 with epoch := 2 ^ 30 } : State).ms ∧ (inPhase 5).ms < 600 := by
  constructor <;> unfold State.ms <;> dsimp only [inPhase] <;> split <;> decide

/-! ### Witnesses: the gate's order, the replay timer and the block as a whole -/

/-- A header waits on link 15, for tag 511 of port 63. -/
def heads (op : Nat) : State :=
  (serving 63).modLink 15 fun L => { L with hdrs := [(3, op * 2 ^ 58 + 3 * 2 ^ 56 + 511 * 2 ^ 47)] }

theorem witness_BusyTagsAndFencesDefer :
    (∀ op, op = 2 ∨ op = opFENCE → (heads op).linkState 15 = lsOpen ∧ ((heads op).link 15).hdrs = [(3, op * 2 ^ 58 + 3 * 2 ^ 56 + 511 * 2 ^ 47)] ∧
      (Hdr.ofNat (op * 2 ^ 58 + 3 * 2 ^ 56 + 511 * 2 ^ 47)).op = op ∧ (Hdr.ofNat (op * 2 ^ 58 + 3 * 2 ^ 56 + 511 * 2 ^ 47)).sub = 3 ∧
      (Hdr.ofNat (op * 2 ^ 58 + 3 * 2 ^ 56 + 511 * 2 ^ 47)).tag = 511) ∧
    ((serving 63).severityOf (Src.port 1 (63 / 16)) ≠ 5) ∧
    ((asks (req [] 63 511 4 128 0 0 0 []) (heads 2)).tagBusy 63 511 = true ∧ (heads 2).tagBusy 63 511 = false) ∧
    63 ∈ (((heads 2).modLink 15 fun L => { L with fenced := [63] }).link 15).fenced := by
  refine ⟨?_, ?_⟩
  · rintro op (rfl | rfl) <;> decide +kernel
  · decide +kernel

/-- A flit is held on link 15 since its flit 0. -/
def held9 (now : Nat) : State := (serving 63).modLink 15 fun L => { L with held := [⟨9, 1, 0, 0⟩], clock := now }

theorem witness_AnAckBeatsTheReplayTimer :
    (held9 0).linkTalks 15 = true ∧ ((held9 0).link 15).held = [⟨9, 1, 0, 0⟩] ∧
    ((held9 0).link 15).clock < 0 + (held9 0).replayTimer 15 ∧ 0 + (held9 65535).replayTimer 15 ≤ ((held9 65535).link 15).clock := by decide +kernel

theorem witness_AStepRunsTheFrontCommand : ({ up with pending := [.idcode, .clamp] } : State).pending = .idcode :: [.clamp] := rfl

theorem witness_TimePassesWhileIdle :
    up.pending = [] ∧ up.asleep = false ∧ up.pwr.good = true ∧ State.reset.pwr.good = false ∧ State.reset.pending = [] ∧
    (sleeping { good := true }).asleep = true := by decide +kernel

theorem witness_EveryStepKeepsTheTimeBase : up.InTime ∧ (∃ t, step up = .next t) := by
  refine ⟨by unfold State.InTime; decide +kernel, ?_⟩
  exact ⟨_, rfl⟩

/-! ### The worked examples of the spec -/

/-- After R142: address 0x10_2345_6740 in zone 16, under FINE and under ROWLOCAL, and the next 64 B. -/
theorem test_map_orders : mapOrder 0 16 0x23456740 = ⟨29, 9, 33050, 12⟩ ∧ (mapOrder 3 16 0x23456740).ch = 4 ∧
    mapOrder 3 16 0x23456740 = ⟨4, 3, 33605, 29⟩ ∧ mapOrder 0 16 0x23456780 = ⟨30, 9, 33050, 12⟩ ∧
    mapOrder 3 16 0x23456780 = ⟨4, 3, 33605, 30⟩ := by decide

/-- After R70: the header of a WRM of port 37. -/
theorem test_header : Hdr.ofNat (0x0D51801023456740 + 0x0000FFFF000000FF * 2 ^ 64) = ⟨3, 1, 0x0A3, 0, 0, 0x1023456740, 0x0000FFFF000000FF⟩ ∧
    maskWords 0x0000FFFF000000FF = [0, 4, 5] := by decide +kernel

/-- The decision lanes of HL09 after a command. -/
def lanesAfter (c : Link → Instr) (s : State) : BitVec 16 :=
  match exec (c 9) s with
  | .next t => (t.link 9).lanes
  | _ => 0

/-- R5, R206, R248: the home tile of port 39, of quadrant 2 (log 83). -/
theorem test_home_tile : homeTile 39 = 23 := by decide

/-- After R27: the decision vector 0x0024 on the lanes of HL09, and its complement. -/
theorem test_decision_lanes :
    (lanesAfter .decisionVector { (up.setLinkState 9 lsOpen).modLink 9 fun L => { L with vec := 0x24 } with flit := 7 } = 0x24) ∧
    (lanesAfter .decisionComplement (up.modLink 9 fun L => { L with complement := some 0x24 }) = 0xFFDB) := by decide +kernel

/-- After R220: a packet and byte counter whose packets overflow, and the record at ring slot 0x42. -/
theorem test_counter_overflow : addCounter 1 2 0xFFFFFE0380000000 0x0000030000001194 = (0x0000010380001194, [1]) ∧
    spillWords (conf [] [(F.ENG_RING_CTL_log2size, 16)]) ⟨0x0800042A18, false, 1, 1, 1, 0x00513C07⟩ 0x42 =
      (0x00010A0800042A18, 0x8000004200513C07) := by decide +kernel

/-- After R227: two marks of a colour-blind trTCM policer. -/
def tr2 : Profile := ⟨2, false, 0x28000, 0x30000, 100000, 150000⟩

theorem test_policer :
    (((Policer.ofWords 0x053A100000000000 0x000004B0000003E8).refill tr2 0x3A100014).mark tr2 1500 0).2 = 0 ∧
    (((Policer.ofWords 0x053A100000000000 0x000004B0000003E8).refill tr2 0x3A100014).mark tr2 1500 0).1.words =
      (0x053A100014000000, 0x000002940000012C) ∧
    (((Policer.ofWords 0x053A100014000000 0x000002940000012C).refill tr2 0x3A100016).mark tr2 1500 0) = (⟨5, 0x3A100016, 0, 0, 756, 380⟩, 2) := by
  decide +kernel

/-- After R243: the channels of the two candidate buckets. -/
theorem test_hash_channels : (mapOrder 0 12 0x02A471C0).ch = 7 ∧ (mapOrder 0 12 0x02D35F40).ch = 29 ∧ 64 * 0xA91C7 = 0x02A471C0 := by decide

/-- After R253: the walk of 10.77.130.9 through table 2. -/
def ipv4 : TrieTab := { enable := true, v6 := false, nlar := 1, levels := [⟨16, 0x200000⟩, ⟨8, 0x0D00000000⟩, ⟨8, 0x0D40000000⟩], dflt := none }

theorem test_walk : ipv4.poolBase 0 + 8 * ipv4.index 0x0A4D8209 0 = 0x205268 ∧
    ipv4.follow 0x0A4D8209 0 none (BitVec.ofNat 64 (2 * 2 ^ 62 + 2 ^ 61 + 8 * 2 ^ 53 + 0x100 * 2 ^ 29 + 0x40)) = .go (some (8, 0x100)) 0x0D00001410 ∧
    ipv4.follow 0x0A4D8209 1 (some (8, 0x100)) (BitVec.ofNat 64 (2 * 2 ^ 62 + 2 ^ 61 + 17 * 2 ^ 53 + 0xD07 * 2 ^ 29 + 0x220)) =
      .go (some (17, 0xD07)) 0x0D40008848 ∧
    ipv4.follow 0x0A4D8209 2 (some (17, 0xD07)) 0x430003E840000000 = .stop (some (24, 0x1F42)) := by decide +kernel

/-- The strides of preset 1 are those of table 2 (R256). -/
theorem test_preset : triePreset 1 = some (false, [16, 8, 8], 1) := rfl

/-- After R302: the line card's partition of the Larder, and the entry at scratchpad offset 0x20_5268. -/
def cardLarder : RegMap :=
  (List.range 4).foldl (fun c q => ((c.put (R.LAR_PART_LO q) 0x2444435F).put (R.LAR_PART_HI q) 0x11111222).setF (F.LAR_CTL_preset q) 0) []

theorem test_scratch_line : scratchSize cardLarder = 20 * 2 ^ 20 ∧ scratchLine cardLarder 0x205268 = ⟨0, 105, 41⟩ ∧ 0x205268 / 8 % 8 = 5 ∧
    cacheSets cardLarder 31 * 32 = 7168 * 4 := by decide +kernel

/-- After R193: the line card's plan: its reserves and its verdicts in FULL and DETERMINISTIC. -/
def card : Plan where
  ports := (List.range 64).map fun p =>
    let k := p % 4
    let rt : Bool := k == 0 || k == 3 || (k == 2 && p / 4 % 2 == 0)
    { enable := rt || [5, 21, 37, 53].contains p, rt := rt, mgmt := [5, 21, 37, 53].contains p, weight := 1, limit := 256, budget := 32, ops := 0x1FF
      g := (List.range 32).map fun c => if (k == 2 && p / 4 % 2 == 0) || [5, 21, 37, 53].contains p then spread 32 p c else 0
      quotas := if k == 3 then [4, 4, 0, 0] else if k == 0 then [0, 0, 7, 7] else [0, 0, 0, 0] }
  lookup := 0
  walk := 0
  cel := 0
  oversub := false

/-- A configuration with one enabled prefix table of preset 2 with two DRAM levels. -/
def twoLevels : RegMap :=
  conf [] [(F.ENG_TRIE_CTL_enable 0 0, 1), (F.ENG_TRIE_CTL_nlev 0 0, 3), (F.ENG_TRIE_CTL_nlar 0 0, 1)]

theorem test_line_card : dMax twoLevels = 2 ∧
    ((card.autoReserves 0 2).lookup, (card.autoReserves 0 2).walk, (card.autoReserves 0 2).cel) = (4, 4, 35) ∧
    (card.autoReserves 0 2).failures twoLevels 0 = [] ∧
    ((card.autoReserves 2 2).lookup, (card.autoReserves 2 2).walk, (card.autoReserves 2 2).cel) = (64, 128, 448) ∧
    (((card.autoReserves 2 2).failures twoLevels 2).headD ⟨0, 0, 0, 0⟩).code = 3 := by decide +kernel

/-- After R191: tile 29 at a capacity of 52. -/
theorem test_shortfall :
    let h := honour (4, 4, 35) ([2, 10, 18, 26, 34, 42, 50, 58].map fun p => (p, 1)) ([5, 21, 37, 53].map fun p => (p, 1)) 52 0x1004
    h.left = 1 ∧ h.gs = ([2, 10, 18, 26, 34, 42, 50, 58].map fun p => (p, 1)) ++ ([5, 21, 37, 53].map fun p => (p, 0)) ∧
    h.short.b = 64 ∧ h.short.pools = 43 ∧ h.short.rtNeed = 8 ∧ h.short.beNeed = 4 ∧ h.short.rtCut = false ∧ h.short.poolCut = false := by decide +kernel

/-- After R331: bit 18 of the odd codewords crosses on line 37, and bit 3 of word 5 on line 7 in beat 3. -/
theorem test_lines : lineOf 5 18 = 37 ∧ beatOf 5 18 = 0 ∧ beatOf 7 18 = 1 ∧ beatOf 1 18 = 2 ∧ beatOf 3 18 = 3 ∧ lineOf 5 3 = 7 ∧ beatOf 5 3 = 3 := by
  decide

/-- The 32 addresses of a retired row are 0x10_2345_0740 + 0x800 c. -/
theorem test_retired_row : ∀ c, c < 32 → unmapOrder 0 ⟨29, 9, 33050, c⟩ = 0x1023450740 + 0x800 * c := by decide +kernel

/-- After R389: die 8 hot and throttled. -/
theorem test_throttle : guaranteeable [] 0 16 true false = 52 ∧
    (having up [(F.PWR_MODE_mode, 0), (F.THM_UNIT_hot 8, 1), (F.THM_UNIT_throttle 8, 1)]).throttledCap 16 = 36 ∧
    (having up [(F.PWR_MODE_mode, 0), (F.THM_UNIT_hot 8, 1), (F.THM_UNIT_throttle 8, 2)]).throttledCap 17 = 22 := by decide +kernel

/-- After R435: line 37 of riser 29 is erased: source 483, at severity 2, summary bit 19. -/
theorem test_fault_source : summaryBit 483 = 19 ∧ up.severityOf 483 = 2 ∧ R.FLT_SEV 60 + 0 = R.FLT_SEV (483 / 8) ∧ 483 % 8 * 4 = 12 ∧
    ((up.raise 483 37).latch 483).info = 37 ∧ (up.raise 483 37).fb F.FLT_STATUS_fault_state = true ∧ up.severityOf 534 = 1 ∧ summaryBit 534 = 23 := by
  decide +kernel

/-- After R454: section 1 of region 2 starts at region word 88; its data word 0 is word 792 of the store. -/
theorem test_section_words : sectAt 2 1 = 88 ∧ placeOf [] 2 88 = 792 ∧ sectAt 2 0 = 32 ∧ countAt 2 0 = 78 ∧ digestAt 2 0 = 79 ∧ lockAt 2 0 = 87 := by
  decide +kernel

/-- After R510: the IDCODE of a device of version 1. -/
theorem test_idcode : idcodeOf 1 0x9616 = 0x19616347 := by decide

/-- Chapter 3: INFO.ID over LB2 with sequence number 0x11 and 24 result bytes. -/
theorem test_completion_word : cplWord 0x11 cplOK true 24 = 0x11008018 ∧ cplWord 0x11 cplRUNNING false 0 = 0x11800000 := by decide

/-- After R283: the descriptor of queue 68,133 after three ENQs. -/
theorem test_descriptor : Desc.ofWords 0x0140002001234566 0xC0000003A00001A2 = ⟨0x01234566, 0x01400020, true, true, false, false, false, 3, true, 2, 0x1A2⟩ ∧
    queueTile 68133 = 5 ∧ queueQuad 68133 = 0 ∧ (0x16000 : Nat) * 2 ^ 20 + 8 * 0x91A2B3 = 0x16048D1598 := by decide +kernel

/-! ### A plan image that says what the registers hold after reset, and its commit -/

theorem prt_reset (p o : Nat) (hp : p < 64) (ho : o < 0x40) (hr : ((findRow blockPRT.rows o).map fun x => plainAct x.1) = some true) :
    regReset (0x30000 + 0x100 * p + o) = regReset (0x30000 + o) := by
  obtain ⟨⟨r, i, j⟩, h1, h2⟩ := Option.map_eq_some_iff.mp hr
  have f : ∀ p, p < 64 → lookupReg (0x30000 + 0x100 * p + o) = some ⟨0x30000 + 0x100 * p + o, p, i + r.first, j, r, true⟩ := by
    intro p hp
    unfold lookupReg regBlocks
    rw [findReg_past blockCFG, findReg_past blockFLT, findReg_past blockPWR, findReg_past blockCLK, findReg_past blockSEC,
      findReg_past blockCST, findReg_past blockHKP, findReg_past blockTHM, findReg_past blockBST, findReg_past blockMAP,
      findReg_past blockCEL, findReg_past blockMBX, findReg_past blockLNK, findReg_past blockLNKC]
    · exact findReg_at blockPRT _ p o i j r (by decide) (by show p < 64; omega) (by show o < 0xb0; omega) (by decide) h1
    all_goals
      simp only [blockCFG, blockFLT, blockPWR, blockCLK, blockSEC, blockCST, blockHKP, blockTHM, blockBST, blockMAP, blockCEL, blockMBX,
        blockLNK, blockLNKC]
      simp only [reduceIte, Nat.reduceEqDiff, true_or, false_or, true_and]
      omega
  have h0 := f 0 (by omega)
  simp only [Nat.mul_zero, Nat.add_zero] at h0
  unfold regReset
  rw [f p hp, h0]
  exact reset_of_hit _ _ rfl rfl h2

/-- Writing into an empty staged copy what it reads leaves it empty. -/
theorem staged_same (s : State) (f : Fld) (v : Nat) (hs : s.staged = []) (h : (regReset f.addr).setField f.lo f.width v = regReset f.addr) :
    s.setStagedF f v = s := by
  have h1 : s.staged.setF f v = s.staged := by
    rw [hs]
    unfold RegMap.setF RegMap.put RegMap.val Tab.set Tab.get
    rw [h, if_pos rfl]
    rfl
  unfold State.setStagedF
  rw [h1]

theorem staged_same' (s : State) (a lo w v : Nat) (x : Word) (hs : s.staged = []) (h : regReset a = x) (he : x.setField lo w v = x) :
    s.setStagedF ⟨a, lo, w, true⟩ v = s := staged_same s _ v hs (by simp only [h, he])

theorem staged_put (s : State) (a : Nat) (w : Word) (hs : s.staged = []) (h : w = regReset a) :
    ({ s with staged := s.staged.put a w } : State) = s := by
  have h1 : s.staged.put a w = s.staged := by
    rw [hs]
    unfold RegMap.put Tab.set
    rw [if_pos h]
    rfl
  rw [h1]

/-- The part of a plan that a port has after reset. -/
def port0 : PlanPort := ⟨false, false, false, 4, 256, 32, 0x1FF, (List.range 32).map fun _ => 0, [0, 0, 0, 0]⟩
def plan0 : Plan := ⟨(List.range 64).map fun _ => port0, 0, 0, 0, false⟩

theorem fold_same {α : Type} (f : State → α → State) (l : List α) (s : State) (h : ∀ x ∈ l, f s x = s) : l.foldl f s = s := by
  induction l with
  | nil => rfl
  | cons x xs ih =>
    rw [List.foldl_cons, h x List.mem_cons_self]
    exact ih fun y hy => h y (List.mem_cons_of_mem x hy)

theorem port_fields (p : Nat) (hp : p < 64) :
    (regReset (R.PRT_CTL p) = 0x300 ∧ regReset (R.PRT_OPS p) = 0x1FF ∧ regReset (R.PRT_LIMIT p) = 256 ∧ regReset (R.PRT_ACT p) = 32 ∧
      regReset (R.PRT_QUOTA p) = 0) ∧ ∀ i, i < 8 → regReset (R.PRT_GUAR p i) = 0 := by
  have rows : (∀ k, k < 5 → ((findRow blockPRT.rows (4 * k)).map fun x => plainAct x.1) = some true) ∧
      ∀ i, i < 8 → ((findRow blockPRT.rows (0x20 + 4 * i)).map fun x => plainAct x.1) = some true := by decide +kernel
  have v : (regReset (0x30000 + 4 * 0) = 0x300 ∧ regReset (0x30000 + 4 * 1) = 0x1FF ∧ regReset (0x30000 + 4 * 2) = 256 ∧
      regReset (0x30000 + 4 * 3) = 32 ∧ regReset (0x30000 + 4 * 4) = 0) ∧ ∀ i, i < 8 → regReset (0x30000 + (0x20 + 4 * i)) = 0 := by decide +kernel
  have e (k : Nat) (hk : k < 5) := prt_reset p (4 * k) hp (by omega) (rows.1 k hk)
  refine ⟨⟨?_, ?_, ?_, ?_, ?_⟩, fun i hi => ?_⟩
  · rw [← v.1.1, ← e 0 (by omega)]; unfold R.PRT_CTL; congr 1
  · rw [← v.1.2.1, ← e 1 (by omega)]; unfold R.PRT_OPS; congr 1; omega
  · rw [← v.1.2.2.1, ← e 2 (by omega)]; unfold R.PRT_LIMIT; congr 1; omega
  · rw [← v.1.2.2.2.1, ← e 3 (by omega)]; unfold R.PRT_ACT; congr 1; omega
  · rw [← v.1.2.2.2.2, ← e 4 (by omega)]; unfold R.PRT_QUOTA; congr 1; omega
  · rw [← v.2 i hi, ← prt_reset p (0x20 + 4 * i) hp (by omega) (rows.2 i hi)]; unfold R.PRT_GUAR; congr 1; omega

theorem stagePort_same (s : State) (p : Nat) (hp : p < 64) (hs : s.staged = []) : s.stagePort p port0 = s := by
  obtain ⟨⟨h0, h1, h2, h3, h4⟩, h5⟩ := port_fields p hp
  have a1 : s.setStagedF (F.PRT_CTL_enable p) 0 = s := staged_same' s _ _ _ _ _ hs h0 (by decide)
  have a2 : s.setStagedF (F.PRT_CTL_rt p) 0 = s := staged_same' s _ _ _ _ _ hs h0 (by decide)
  have a3 : s.setStagedF (F.PRT_CTL_mgmt p) 0 = s := staged_same' s _ _ _ _ _ hs h0 (by decide)
  have a4 : s.setStagedF (F.PRT_CTL_weight p) 3 = s := staged_same' s _ _ _ _ _ hs h0 (by decide)
  have a5 : s.setStagedF (F.PRT_LIMIT_limit p) 256 = s := staged_same' s _ _ _ _ _ hs h2 (by decide)
  have a6 : s.setStagedF (F.PRT_ACT_budget p) 32 = s := staged_same' s _ _ _ _ _ hs h3 (by decide)
  have a7 : s.setStagedF (F.PRT_OPS_ops p) 0x1FF = s := staged_same' s _ _ _ _ _ hs h1 (by decide)
  unfold State.stagePort
  simp only [port0, Bool.false_eq_true, if_false, a1, a2, a3, a4, a5, a6, a7]
  rw [fold_same _ (List.range 4) s, fold_same _ (List.range 8) s]
  · intro i hi
    refine staged_put s _ _ hs ?_
    have hi := List.mem_range.mp hi
    rw [h5 i hi]
    interval_cases i <;> decide
  · intro k hk
    have hk := List.mem_range.mp hk
    interval_cases k <;> exact staged_same' s _ _ _ _ _ hs h4 (by decide)

theorem stagePlan_same (s : State) (hs : s.staged = []) : s.stagePlan plan0 = s := by
  have v : ∀ t, t < 32 → regReset (R.SCH_POOL t) = 0 := by decide +kernel
  unfold State.stagePlan
  rw [fold_same _ plan0.ports.zipIdx s]
  · refine fold_same _ _ _ fun t ht => ?_
    have h := v t (List.mem_range.mp ht)
    have a1 : s.setStagedF (F.SCH_POOL_lookup t) 0 = s := staged_same' s _ _ _ _ _ hs h (by decide)
    have a2 : s.setStagedF (F.SCH_POOL_walk t) 0 = s := staged_same' s _ _ _ _ _ hs h (by decide)
    have a3 : s.setStagedF (F.SCH_POOL_cel t) 0 = s := staged_same' s _ _ _ _ _ hs h (by decide)
    have a4 : s.setStagedF (F.SCH_POOL_oversub_ok t) 0 = s := staged_same' s _ _ _ _ _ hs h (by decide)
    simp only [plan0, Nat.min_zero, Bool.false_eq_true, if_false, a1, a2, a3, a4]
  · rintro ⟨x, p⟩ hx
    have hx := List.mem_zipIdx' hx
    have hl : plan0.ports.length = 64 := by rw [show plan0.ports = (List.range 64).map fun _ => port0 from rfl, List.length_map, List.length_range]
    have hm : x ∈ plan0.ports := by rw [hx.2]; exact List.getElem_mem hx.1
    obtain ⟨_, _, hxe⟩ := List.mem_map.mp hm
    rw [← hxe]
    exact stagePort_same s p (by rw [← hl]; exact hx.1) hs

/-! The image of that plan. -/

def planHead : List Byte := [0x4C, 0x50, 0x16, 0x96, 1, 1, 0, 0, 0x44, 4] ++ List.replicate 54 0
def planRec : List Byte := [0, 4, 0, 1, 0, 0, 32, 0xFF, 1, 0, 0, 0, 0, 0, 0, 0]
def planBody : List Byte := planHead ++ (List.range 64).flatMap fun _ => planRec
def image0 : List Byte := planBody ++ leBytes 4 (crc32c planBody)

theorem body_length : planBody.length = 1088 := by decide +kernel

theorem byteNum_head (off len : Nat) (h : off + len ≤ 64) : byteNum planBody off len = byteNum planHead off len := by
  have hh : planHead.length = 64 := by decide
  unfold byteNum planBody
  rw [List.drop_append_of_le_length (by omega), List.take_append_of_le_length (by rw [List.length_drop]; omega)]

theorem head_fields : byteNum planHead 0 4 = 0x9616504C ∧ byteNum planHead 4 1 = 1 ∧ byteNum planHead 5 1 = 1 ∧ byteNum planHead 6 1 = 0 ∧
    byteNum planHead 8 2 = 1092 ∧ ∀ k, k < 64 → k = 7 ∨ 10 ≤ k → byteNum planHead k 1 = 0 := by decide +kernel

theorem byteNum_body (off len : Nat) (h : off + len ≤ 1088) : byteNum image0 off len = byteNum planBody off len := by
  unfold byteNum image0
  rw [List.drop_append_of_le_length (by rw [body_length]; omega), List.take_append_of_le_length (by rw [List.length_drop, body_length]; omega)]

/-- A number of the port records: the same for each port. -/
theorem byteNum_rec (p k len : Nat) (hp : p < 64) (hk : k + len ≤ 16) : byteNum planBody (64 + 16 * p + k) len = byteNum planRec k len := by
  have hh : planHead.length = 64 := by decide
  have hr : planRec.length = 16 := by decide
  have gen : ∀ n m, m < n → (((List.range n).flatMap fun _ => planRec).drop (16 * m + k)).take len = (planRec.drop k).take len := by
    have hrep : ∀ n, ((List.range n).flatMap fun _ => planRec) = (List.replicate n planRec).flatten := by
      intro n
      rw [List.flatMap_def, List.map_const', List.length_range]
    intro n
    rw [hrep]
    induction n with
    | zero => intro m hm; omega
    | succ n ih =>
      intro m hm
      rw [List.replicate_succ, List.flatten_cons]
      cases m with
      | zero =>
        rw [Nat.mul_zero, Nat.zero_add, List.drop_append_of_le_length (by omega), List.take_append_of_le_length (by rw [List.length_drop]; omega)]
      | succ m =>
        rw [show 16 * (m + 1) + k = planRec.length + (16 * m + k) by omega, List.drop_append]
        rw [List.drop_eq_nil_of_le (by omega), List.nil_append, Nat.add_sub_cancel_left]
        exact ih m (by omega)
  unfold byteNum planBody
  rw [show 64 + 16 * p + k = planHead.length + (16 * p + k) by omega, List.drop_append]
  have := gen 64 p hp
  simp only [List.drop_eq_nil_of_le (show planHead.length ≤ planHead.length + (16 * p + k) by omega), List.nil_append, Nat.add_sub_cancel_left, this]

theorem ofLe_le (v : Nat) : ofLeBytes (leBytes 4 v) = v % 2 ^ 32 := by
  have h : leBytes 4 v = [BitVec.ofNat 8 (v >>> 0), BitVec.ofNat 8 (v >>> 8), BitVec.ofNat 8 (v >>> 16), BitVec.ofNat 8 (v >>> 24)] := rfl
  rw [h]
  simp only [ofLeBytes, BitVec.toNat_ofNat, Nat.shiftRight_eq_div_pow]
  omega

theorem crc_bound (bs : List Byte) : crc32c bs < 2 ^ 32 := by
  have hbit : ∀ (l : List Nat) (r : Nat), r < 2 ^ 32 →
      l.foldl (fun r _ => if r.testBit 0 then (r >>> 1) ^^^ 0x82F63B78 else r >>> 1) r < 2 ^ 32 := by
    intro l
    induction l with
    | nil => intro r h; exact h
    | cons x xs ih =>
      intro r h
      rw [List.foldl_cons]
      apply ih
      have h1 : r >>> 1 < 2 ^ 32 := by rw [Nat.shiftRight_eq_div_pow]; omega
      split
      · exact Nat.xor_lt_two_pow h1 (by decide)
      · exact h1
  have hall : ∀ (bs : List Byte) (r : Nat), r < 2 ^ 32 → bs.foldl crc32cByte r < 2 ^ 32 := by
    intro bs
    induction bs with
    | nil => intro r h; exact h
    | cons b bs ih =>
      intro r h
      rw [List.foldl_cons]
      exact ih _ (hbit _ _ (Nat.xor_lt_two_pow h (by have := b.isLt; omega)))
  exact Nat.xor_lt_two_pow (hall bs _ (by decide)) (by decide)

theorem image_length : image0.length = 1092 := by
  unfold image0
  rw [List.length_append, body_length]
  rfl

theorem image_crc : byteNum image0 (image0.length - 4) 4 = crc32c (image0.take (image0.length - 4)) := by
  rw [image_length]
  have h1 : image0.take (1092 - 4) = planBody := by
    unfold image0
    rw [show 1092 - 4 = planBody.length by rw [body_length], List.take_left']
    rfl
  have h2 : image0.drop (1092 - 4) = leBytes 4 (crc32c planBody) := by
    unfold image0
    rw [show 1092 - 4 = planBody.length by rw [body_length], List.drop_left']
    rfl
  rw [h1]
  unfold byteNum
  rw [h2, List.take_of_length_le (by rfl), ofLe_le, Nat.mod_eq_of_lt (crc_bound _)]

theorem image_head (off len : Nat) (h : off + len ≤ 64) : byteNum image0 off len = byteNum planHead off len := by
  rw [byteNum_body _ _ (by omega), byteNum_head _ _ h]

/-- The numbers of an image's header and of its port records. -/
theorem image_rec (p k len : Nat) (hp : p < 64) (hk : k + len ≤ 16) : byteNum image0 (64 + 16 * p + k) len = byteNum planRec k len := by
  rw [byteNum_body _ _ (by omega), byteNum_rec p k len hp hk]

theorem rec_fields : byteNum planRec 0 1 = 0 ∧ byteNum planRec 1 1 = 4 ∧ byteNum planRec 2 2 = 256 ∧ byteNum planRec 4 2 = 0 ∧ byteNum planRec 6 1 = 32 ∧
    byteNum planRec 7 2 = 0x1FF ∧ (∀ k, k < 4 → byteNum planRec (9 + k) 1 = 0) ∧ ∀ k, k < 3 → byteNum planRec (13 + k) 1 = 0 := by decide +kernel

theorem image_flags : imageMatrix image0 = false ∧ imageAuto image0 = false := by
  unfold imageMatrix imageAuto
  rw [image_head _ _ (by omega), head_fields.2.2.2.1]
  decide

theorem image_reserved (k : Nat) (h : k ∈ imageReserved) : byteNum image0 k 1 = 0 := by
  unfold imageReserved at h
  simp only [List.mem_append, List.mem_cons, List.not_mem_nil, or_false, List.mem_map, List.mem_flatMap, List.mem_range] at h
  rcases h with ((rfl | ⟨i, hi, rfl⟩) | ⟨i, hi, rfl⟩) | ⟨p, hp, i, hi, rfl⟩
  · rw [image_head _ _ (by omega)]; exact head_fields.2.2.2.2.2 _ (by omega) (by omega)
  · rw [image_head _ _ (by omega)]; exact head_fields.2.2.2.2.2 _ (by omega) (by omega)
  · rw [image_head _ _ (by omega)]; exact head_fields.2.2.2.2.2 _ (by omega) (by omega)
  · rw [Nat.add_assoc (64 + 16 * p), image_rec p (13 + i) 1 hp (by omega)]; exact rec_fields.2.2.2.2.2.2.2 i hi

theorem fmt0 : (byteNum image0 0 4 != 0x9616504C) = false := by
  rw [image_head _ _ (by omega), head_fields.1]
  exact bne_self_eq_false _

theorem fmt1 : (byteNum image0 4 1 != 1) = false := by
  rw [image_head _ _ (by omega), head_fields.2.1]
  exact bne_self_eq_false _

theorem fmt2 : (byteNum image0 8 2 != 1092 || image0.length != 1092) = false := by
  rw [image_head _ _ (by omega), head_fields.2.2.2.2.1, image_length]
  rfl

theorem fmt3 : (byteNum image0 (image0.length - 4) 4 != crc32c (image0.take (image0.length - 4))) = false := by
  rw [image_crc]
  exact bne_self_eq_false _

theorem fmt4 : (imageReserved.flatMap fun k => if (byteNum image0 k 1 != 0) = true then [(⟨1, 0xFF, 0, 0⟩ : Failure)] else []) = [] := by
  rw [List.flatMap_eq_nil_iff]
  intro k hk
  rw [image_reserved k hk]
  exact if_neg (by decide)

theorem image_format : imageFormat image0 = [] := by
  unfold imageFormat
  simp only [image_flags.1, Bool.false_eq_true, if_false, fmt0, fmt1, fmt2, fmt3, fmt4, List.nil_append]

theorem image_plan : imagePlan image0 = plan0 := by
  have z := head_fields.2.2.2.2.2
  unfold imagePlan plan0
  rw [image_head 10 1 (by omega), image_head 11 1 (by omega), image_head 12 1 (by omega), image_head 6 1 (by omega), z 10 (by omega) (by omega),
    z 11 (by omega) (by omega), z 12 (by omega) (by omega), head_fields.2.2.2.1, image_flags.1]
  rw [Plan.mk.injEq]
  refine ⟨List.map_congr_left ?_, rfl, rfl, rfl, Nat.zero_testBit 0⟩
  intro p hp
  have hp := List.mem_range.mp hp
  have hs : ∀ c, spread 0 p c = 0 := by
    intro c
    unfold spread
    simp
  have hq : ((List.range 4).map fun k => byteNum image0 (64 + 16 * p + 9 + k) 1) = [0, 0, 0, 0] := by
    have : ∀ k, k < 4 → byteNum image0 (64 + 16 * p + 9 + k) 1 = 0 := fun k hk => by
      rw [Nat.add_assoc (64 + 16 * p), image_rec p (9 + k) 1 hp (by omega)]
      exact rec_fields.2.2.2.2.2.2.1 k hk
    show [byteNum image0 (64 + 16 * p + 9 + 0) 1, byteNum image0 (64 + 16 * p + 9 + 1) 1, byteNum image0 (64 + 16 * p + 9 + 2) 1,
      byteNum image0 (64 + 16 * p + 9 + 3) 1] = _
    rw [this 0 (by omega), this 1 (by omega), this 2 (by omega), this 3 (by omega)]
  have r0 := image_rec p 0 1 hp (by omega)
  rw [Nat.add_zero, rec_fields.1] at r0
  simp only [r0, image_rec p 1 1 hp (by omega), image_rec p 2 2 hp (by omega), image_rec p 4 2 hp (by omega), image_rec p 6 1 hp (by omega),
    image_rec p 7 2 hp (by omega), rec_fields, hq, Bool.false_eq_true, if_false, hs, Nat.zero_testBit, port0]

theorem image_range : imageRange image0 = [] := by
  unfold imageRange
  rw [List.filterMap_eq_nil_iff]
  rintro ⟨p, v, lo, hi⟩ hx
  unfold imageRanges at hx
  simp only [image_flags, Bool.false_eq_true, if_false, List.mem_append, List.mem_flatMap, List.mem_map, List.mem_range, List.mem_cons,
    List.not_mem_nil, or_false, Prod.mk.injEq] at hx
  have key : lo ≤ v ∧ v ≤ hi := by
    rcases hx with ((⟨_, rfl, rfl, rfl⟩ | ⟨_, rfl, rfl, rfl⟩) | ⟨k, hk, _, rfl, rfl, rfl⟩) | ⟨q, hq, hx⟩
    · rw [image_head 5 1 (by omega), head_fields.2.2.1]; omega
    · rw [image_head 6 1 (by omega), head_fields.2.2.2.1]; omega
    · rw [image_head (10 + k) 1 (by omega), head_fields.2.2.2.2.2 _ (by omega) (by omega)]; omega
    · have r0 := image_rec q 0 1 hq (by omega)
      rw [Nat.add_zero] at r0
      rw [r0, image_rec q 1 1 hq (by omega), image_rec q 2 2 hq (by omega), image_rec q 4 2 hq (by omega), image_rec q 6 1 hq (by omega),
        image_rec q 7 2 hq (by omega)] at hx
      obtain ⟨f0, f1, f2, f3, f4, f5, _⟩ := rec_fields
      rw [f0, f1, f2, f3, f4, f5] at hx
      omega
  show (if v < lo then _ else if hi < v then _ else none) = none
  rw [if_neg (by omega), if_neg (by omega)]

/-- The image in chunks of 240 bytes. -/
def inChunks (b : List Byte) : Tab (List Byte) :=
  [(0, b.take 240), (1, (b.drop 240).take 240), (2, (b.drop 480).take 240), (3, (b.drop 720).take 240), (4, b.drop 960)]

theorem inChunks_whole (b : List Byte) (hb : b.length = 1092) (s : State) (hn : s.planChunks = 5) (hp : s.plan = inChunks b) : s.planBytes = some b := by
  have hc : ((List.range 5).map fun i => Tab.get (fun _ => []) (inChunks b) i) =
      [b.take 240, (b.drop 240).take 240, (b.drop 480).take 240, (b.drop 720).take 240, b.drop 960] := rfl
  unfold State.planBytes
  rw [hn, hp, hc]
  have hj : [b.take 240, (b.drop 240).take 240, (b.drop 480).take 240, (b.drop 720).take 240, b.drop 960].flatten = b := by
    have h1 : ∀ k, (b.drop k).take 240 ++ b.drop (k + 240) = b.drop k := by
      intro k
      rw [← List.drop_drop]
      exact List.take_append_drop 240 (b.drop k)
    have h4 := h1 720
    have h3 := h1 480
    have h2 := h1 240
    simp only [Nat.reduceAdd] at h2 h3 h4
    simp only [List.flatten_cons, List.flatten_nil, List.append_nil, h4, h3, h2, List.take_append_drop]
  have ne : ∀ l : List Byte, 0 < l.length → l.isEmpty = false := by
    intro l h
    cases l with
    | nil => exact absurd h (by decide)
    | cons _ _ => rfl
  have l1 : (b.take 240).length = 240 := by rw [List.length_take]; omega
  have l2 : ((b.drop 240).take 240).length = 240 := by rw [List.length_take, List.length_drop]; omega
  have l3 : ((b.drop 480).take 240).length = 240 := by rw [List.length_take, List.length_drop]; omega
  have l4 : ((b.drop 720).take 240).length = 240 := by rw [List.length_take, List.length_drop]; omega
  have l5 : (b.drop 960).length = 132 := by rw [List.length_drop]; omega
  have hcond : (decide ((5 : Nat) = 0) ||
      [b.take 240, (b.drop 240).take 240, (b.drop 480).take 240, (b.drop 720).take 240, b.drop 960].any List.isEmpty ||
      [b.take 240, (b.drop 240).take 240, (b.drop 480).take 240, (b.drop 720).take 240, b.drop 960].dropLast.any fun c => c.length != 240) = false := by
    simp only [List.any_cons, List.any_nil, List.dropLast_cons_cons, List.dropLast_singleton, ne _ (by omega : 0 < (b.take 240).length),
      ne _ (by omega : 0 < ((b.drop 240).take 240).length), ne _ (by omega : 0 < ((b.drop 480).take 240).length),
      ne _ (by omega : 0 < ((b.drop 720).take 240).length), ne _ (by omega : 0 < (b.drop 960).length), l1, l2, l3, l4]
    decide
  dsimp only
  rw [hcond, hj]
  rfl

/-- PLAN.COMMIT of the image, adopting, in a committed device whose staged copy is the active one. -/
def planning : State :=
  { (flagged ((withSession 64 (rings 0x0303 [])).setF F.CFG_STATUS_committed 1 |>.setF F.CFG_CTL_adopt_allow 1)) with
    plan := inChunks image0, planChunks := 5 }

theorem planning_passes : verdict false (plan0.failures [] 1) ≠ 2 := by decide +kernel

theorem witness_PlansFreeze :
    LbRuns planning 4 0x0303 ∧ commitNeed (planning.lb 4) ≤ (planning.lb 4).args.length ∧ planning.adoptDenied (planning.lb 4) = false ∧
    planning.planBytes = some image0 ∧ verdict ((byteNum image0 6 1).testBit 0) (imageFailures image0 planning.active planning.modeAfter) ≠ 2 ∧
    planning.sessionFor (planning.lbPath 4) = some planning ∧
    ∃ v, (planning.stagePlan (planFor image0 planning.active planning.modeAfter)).tryCommit ((planning.lb 4).flags % 2 == 1)
      (argRefs (planning.lb 4).args) (some (byteNum image0 16 4)) = (true, v) := by
  have h1 : planning.active = [] ∧ planning.staged = [] ∧ planning.modeAfter = 1 ∧ planning.bst.slots = [] ∧
      ((planning.lb 4).flags % 2 == 1) = true ∧ planning.fb F.CFG_STATUS_committed = true := by decide +kernel
  have hp : planFor image0 [] 1 = plan0 := by
    unfold planFor
    rw [image_flags.2, if_neg (by decide), image_plan]
  have h2 : planning.commitVerdict = none := by
    unfold State.commitVerdict State.planChanged
    have hn : (cfgRegs.any fun _ => false) = false := by rw [List.any_eq_false]; simp
    simp only [h1.1, h1.2.1, h1.2.2.2.2.2, bne_self_eq_false, Bool.and_false, hn, Bool.not_true, Bool.or_self]
    rfl
  have h0 : LbRuns planning 4 0x0303 ∧ commitNeed (planning.lb 4) ≤ (planning.lb 4).args.length ∧ planning.adoptDenied (planning.lb 4) = false := by
    unfold LbRuns
    decide +kernel
  refine ⟨h0.1, h0.2.1, h0.2.2, inChunks_whole image0 image_length planning rfl rfl, ?_, ?_, ?_⟩
  · rw [h1.1, h1.2.2.1]
    unfold imageFailures
    simp only [image_format, List.isEmpty_nil, if_true, image_range, List.nil_append, hp]
    rw [image_head 6 1 (by omega), head_fields.2.2.2.1, Nat.zero_testBit]
    exact planning_passes
  · have hs : planning.session = some { owner := 64 } ∧ planning.lbPath 4 = 64 := by decide +kernel
    unfold State.sessionFor
    rw [hs.1, hs.2]
    rfl
  · rw [h1.1, h1.2.2.1, hp, stagePlan_same _ h1.2.1, h1.2.2.2.2.1]
    refine adopts _ _ _ ?_ (by rw [h2]; decide)
    rw [h1.1, h1.2.1, h1.2.2.1, h1.2.2.2.1]
    exact commitOk_reset

end Sys2Proof.Tests
end

namespace Sys2Proof.Machine

/-! ## The time base under every operation

R7 gives the block one time base: epoch, frame and flit. Of all the operations of the model only the flit that passes, the epoch
boundary, the exit from RETENTION, the rise of PWROK and the cold reset set it; every other one leaves the instant as it is. That is
said once for each operation, in the order of the model's files; a proof cites the rules of the operations that it is made of. -/

/-- The instant that the time base shows (R7): epoch, frame in the epoch, flit in the frame. -/
def State.instant (s : State) : Nat × Nat × Nat := (s.epoch, s.frame, s.flit)

/-- If the command goes on, then at the instant of `s`. -/
def State.KeepsInstant (s : State) (o : Host.Outcome State Fault Refusal) : Prop := ∀ t, o = .next t → t.instant = s.instant

/-! ### Ways of putting operations together -/

/-- An update that takes its time base from `s` is at the instant of `s`. (The proof is no bare `rfl`, so that `simp` rewrites with
the equation and leaves the kernel nothing to unfold.) -/
@[simp] theorem State.instant_mk (s : State)
    (pending : List Instr) (free : Nat) (dram larder : List Host.Cell) (staged active live : RegMap) (links : Tab LinkSt)
    (evq : List Payload) (evLost : Option EvLost) (reqs : List Req) (sentTags : List (Nat × Nat × Nat)) (gate : GateSt)
    (tiles : Tab TileSt) (lbs : Tab LbSt) (session : Option Session) (votes : List Vote) (cfgBad : List Nat) (planId : Nat)
    (flt : FltSt) (detFrom : Option Nat) (halted : Bool) (cst : CstSt) (pwr : PwrSt) (ecc : Tab EccSt) (log : LogSt)
    (eng : EngSt) (larGen dramGen : Tab Nat) (lar : LarSt) (cel : CelSt) (sec : SecSt) (snapAt : Option Nat)
    (sbOut : List Byte) (plan : Tab (List Byte)) (planChunks : Nat) (vrt : Tab VrtSt) (clk : ClkSt) (thm : ThmSt)
    (bst : BstSt) (remapRuns : List RemapRun) (tap : TapSt) :
    (⟨pending, s.epoch, s.frame, s.flit, free, dram, larder, staged, active, live, links, evq, evLost, reqs, sentTags, gate,
      tiles, lbs, session, votes, cfgBad, planId, flt, detFrom, halted, cst, pwr, ecc, log, eng, larGen, dramGen, lar, cel,
      sec, snapAt, sbOut, plan, planChunks, vrt, clk, thm, bst, remapRuns, tap⟩ : State).instant = s.instant := (rfl)

@[simp] theorem State.instant_ite (c : Prop) [Decidable c] (s t : State) :
    (if c then s else t).instant = if c then s.instant else t.instant := apply_ite _ _ _ _

@[simp] theorem State.instant_foldl {α : Type} (l : List α) (f : State → α → State) (s : State)
    (h : ∀ u a, (f u a).instant = u.instant) : (l.foldl f s).instant = s.instant := by
  induction l generalizing s with
  | nil => rfl
  | cons a l ih => rw [List.foldl_cons, ih, h]

/-- A fold that carries the state second, as the reads of several words do. -/
@[simp] theorem State.instant_foldl_snd {α β : Type} (l : List α) (f : β × State → α → β × State) (p : β × State)
    (h : ∀ b u a, (f (b, u) a).2.instant = u.instant) : (l.foldl f p).2.instant = p.2.instant := by
  induction l generalizing p with
  | nil => rfl
  | cons a l ih => rw [List.foldl_cons, ih]; exact h _ _ _

/-- A fold that carries the state first. -/
@[simp] theorem State.instant_foldl_fst {α β : Type} (l : List α) (f : State × β → α → State × β) (p : State × β)
    (h : ∀ u b a, (f (u, b) a).1.instant = u.instant) : (l.foldl f p).1.instant = p.1.instant := by
  induction l generalizing p with
  | nil => rfl
  | cons a l ih => rw [List.foldl_cons, ih]; exact h _ _ _

@[simp] theorem State.instant_when (s : State) (c : Bool) (f : State → State) (h : ∀ u, (f u).instant = u.instant) :
    (s.when c f).instant = s.instant := by
  simp [State.when, h]

/-- An operation that may have nothing to do, with what is done instead. -/
theorem State.instant_getD {o : Option State} {s d : State} (h : ∀ u, o = some u → u.instant = s.instant)
    (hd : d.instant = s.instant) : (o.getD d).instant = s.instant := by
  cases o with
  | none => exact hd
  | some u => exact h u rfl

/-- The state that a read hands back, once its result has been told apart. -/
theorem State.instant_snd {α : Type} {p : α × State} {a : α} {s t : State} (e : p = (a, t)) (h : p.2.instant = s.instant) :
    t.instant = s.instant := by
  rw [← h, e]

@[simp] theorem State.keepsInstant_next (s t : State) : s.KeepsInstant (.next t) ↔ t.instant = s.instant := by
  simp [State.KeepsInstant]

@[simp] theorem State.keepsInstant_fault (s : State) (f : Fault) : s.KeepsInstant (.fault f) := by simp [State.KeepsInstant]

@[simp] theorem State.keepsInstant_ite (s : State) (c : Prop) [Decidable c] (o p : Host.Outcome State Fault Refusal) :
    s.KeepsInstant (if c then o else p) ↔ if c then s.KeepsInstant o else s.KeepsInstant p := by
  split <;> rfl

/-! ### Operations of Machine/Ops.lean -/

@[simp] theorem State.setF_instant (s : State) (f : Fld) (v : Nat) : (s.setF f v).instant = s.instant := by simp [State.setF]
@[simp] theorem State.setStagedF_instant (s : State) (f : Fld) (v : Nat) : (s.setStagedF f v).instant = s.instant := by
  simp [State.setStagedF]
@[simp] theorem State.addF_instant (s : State) (f : Fld) (n : Nat) : (s.addF f n).instant = s.instant := by simp [State.addF]
@[simp] theorem State.inc_instant (s : State) (f : Fld) : (s.inc f).instant = s.instant := by simp [State.inc]
@[simp] theorem State.clearCounters_instant (s : State) (base n data : Nat) :
    (s.clearCounters base n data).instant = s.instant := by
  simp [State.clearCounters]
@[simp] theorem State.setLink_instant (s : State) (n : Nat) (v : LinkSt) :
    (s.setLink n v).instant = s.instant := by simp [State.setLink]
@[simp] theorem State.modLink_instant (s : State) (n : Nat) (f : LinkSt → LinkSt) : (s.modLink n f).instant = s.instant := by
  simp [State.modLink]
@[simp] theorem State.setTile_instant (s : State) (n : Nat) (v : TileSt) :
    (s.setTile n v).instant = s.instant := by simp [State.setTile]
@[simp] theorem State.modTile_instant (s : State) (n : Nat) (f : TileSt → TileSt) : (s.modTile n f).instant = s.instant := by
  simp [State.modTile]
@[simp] theorem State.setLb_instant (s : State) (n : Nat) (v : LbSt) : (s.setLb n v).instant = s.instant := by simp [State.setLb]
@[simp] theorem State.modLb_instant (s : State) (n : Nat) (f : LbSt → LbSt) :
    (s.modLb n f).instant = s.instant := by simp [State.modLb]
@[simp] theorem State.modRiser_instant (s : State) (n : Nat) (f : VrtSt → VrtSt) : (s.modRiser n f).instant = s.instant := by
  simp [State.modRiser]
@[simp] theorem State.takeFree_instant (s : State) : s.takeFree.2.instant = s.instant := by simp [State.takeFree]
@[simp] theorem State.setLinkState_instant (s : State) (n v : Nat) : (s.setLinkState n v).instant = s.instant := by
  simp [State.setLinkState]
@[simp] theorem State.freeTag_instant (s : State) (k : Nat × Nat) : (s.freeTag k).instant = s.instant := by simp [State.freeTag]
@[simp] theorem State.pump_instant (s : State) (n : Nat) : (s.pump n).instant = s.instant := by simp [State.pump]
@[simp] theorem State.queueFlit_instant (s : State) (n : Nat) (f : OutFlit) : (s.queueFlit n f).instant = s.instant := by
  simp [State.queueFlit]
@[simp] theorem State.sendFlit_instant (s : State) (n typ : Nat) (p : Payload) : (s.sendFlit n typ p).instant = s.instant := by
  simp [State.sendFlit]
@[simp] theorem State.sendMgmt_instant (s : State) (n : Nat) (p : Payload) : (s.sendMgmt n p).instant = s.instant := by
  simp [State.sendMgmt]
@[simp] theorem State.undoBursts_instant (s : State) (r : Req) (c : Charge) : (s.undoBursts r c).instant = s.instant := by
  unfold State.undoBursts
  split <;> simp
@[simp] theorem State.dropTentative_instant (s : State) (n : Nat) :
    (s.dropTentative n).instant = s.instant := by simp [State.dropTentative]
@[simp] theorem State.leaveLink_instant (s : State) (n dst : Nat) :
    (s.leaveLink n dst).instant = s.instant := by simp [State.leaveLink]
@[simp] theorem State.linkDown_instant (s : State) (n : Nat) : (s.linkDown n).instant = s.instant := by simp [State.linkDown]
@[simp] theorem State.startRetrain_instant (s : State) (n : Nat) :
    (s.startRetrain n).instant = s.instant := by simp [State.startRetrain]
@[simp] theorem State.sendEvent_instant (s : State) (code severity : Nat) (detail : List (Nat × Nat × Nat)) :
    (s.sendEvent code severity detail).instant = s.instant := by
  simp only [State.sendEvent]
  repeat' split
  all_goals simp
@[simp] theorem State.event_instant (s : State) (code : Nat) (detail : List (Nat × Nat × Nat)) :
    (s.event code detail).instant = s.instant := by
  simp [State.event]
@[simp] theorem State.setLatch_instant (s : State) (src : Nat) (l : Latch) : (s.setLatch src l).instant = s.instant := by
  simp [State.setLatch]
@[simp] theorem State.setWindows_instant (s : State) : s.setWindows.instant = s.instant := by simp [State.setWindows]
@[simp] theorem State.stopDevice_instant (s : State) : s.stopDevice.instant = s.instant := by simp [State.stopDevice]
@[simp] theorem State.restartQuiet_instant (s : State) : s.restartQuiet.instant = s.instant := by simp [State.restartQuiet]
@[simp] theorem State.holdUnit_instant (s : State) (u : Option CUnit) : (s.holdUnit u).instant = s.instant := by
  unfold State.holdUnit
  split <;> simp
@[simp] theorem State.faultEvent_instant (s : State) (src sev : Nat) (l : Latch) (unit : Option CUnit) :
    (s.faultEvent src sev l unit).instant = s.instant := by simp [State.faultEvent]
@[simp] theorem State.keepFatal_instant (s : State) (src : Nat) :
    (s.keepFatal src).instant = s.instant := by simp [State.keepFatal]
@[simp] theorem State.noteRaised_instant (s : State) (src : Nat) (l : Latch) : (s.noteRaised src l).instant = s.instant := by
  simp [State.noteRaised]
@[simp] theorem State.raise_instant (s : State) (src info : Nat) : (s.raise src info).instant = s.instant := by simp [State.raise]

/-! ### Operations of Machine/Domains.lean -/

@[simp] theorem State.setDomain_instant (s : State) (d v : Nat) :
    (s.setDomain d v).instant = s.instant := by simp [State.setDomain]
@[simp] theorem State.wake_instant (s : State) : s.wake.instant = s.instant := by simp [State.wake]
@[simp] theorem State.coolPhy_instant (s : State) (n : Nat) : (s.coolPhy n).instant = s.instant := by simp [State.coolPhy]

/-! ### Operations of Machine/Links.lean -/

@[simp] theorem State.laneFail_instant (s : State) (n lane : Nat) :
    (s.laneFail n lane).instant = s.instant := by simp [State.laneFail]
@[simp] theorem State.failedReq_instant (s : State) (n typ : Nat) :
    (s.failedReq n typ).instant = s.instant := by simp [State.failedReq]
@[simp] theorem State.crcFail_instant (s : State) (n typ : Nat) (lane : Option Lane) :
    (s.crcFail n typ lane).instant = s.instant := by
  unfold State.crcFail
  split <;> simp
@[simp] theorem State.sideIn_instant (s : State) (n : Nat) (side : BitVec 48) : (s.sideIn n side).instant = s.instant := by
  simp [State.sideIn]
@[simp] theorem execReqFlit_keepsInstant (l : Link) (side : BitVec 48) (data : Payload) (badLane : Option Lane) (s : State) :
    s.KeepsInstant (execReqFlit l side data badLane s) := by simp [execReqFlit]
@[simp] theorem State.countAccepted_instant (s : State) (r : Req) : (s.countAccepted r).instant = s.instant := by
  unfold State.countAccepted
  split <;> simp
@[simp] theorem State.driveDecision_instant (s : State) (n : Nat) :
    (s.driveDecision n).instant = s.instant := by simp [State.driveDecision]
@[simp] theorem execDecisionVector_keepsInstant (l : Link) (s : State) : s.KeepsInstant (execDecisionVector l s) := by
  simp [execDecisionVector]
@[simp] theorem execDecisionComplement_keepsInstant (l : Link) (s : State) : s.KeepsInstant (execDecisionComplement l s) := by
  unfold execDecisionComplement
  split <;> simp
@[simp] theorem execCreditReturn_keepsInstant (l : Link) (n : Fin 15) (s : State) : s.KeepsInstant (execCreditReturn l n s) := by
  simp [execCreditReturn]
@[simp] theorem State.reservedType_instant (s : State) (n : Nat) :
    (s.reservedType n).instant = s.instant := by simp [State.reservedType]
@[simp] theorem State.acceptFlit_instant (s : State) (n typ : Nat) (p : Payload) :
    (s.acceptFlit n typ p).instant = s.instant := by
  simp [State.acceptFlit]
@[simp] theorem execSequencedFlit_keepsInstant (l : Link) (side : BitVec 48) (data : Payload) (badLane : Option Lane)
    (s : State) :
    s.KeepsInstant (execSequencedFlit l side data badLane s) := by simp [execSequencedFlit]
@[simp] theorem execIdleFlit_keepsInstant (l : Link) (side : BitVec 48) (badLane : Option Lane) (s : State) :
    s.KeepsInstant (execIdleFlit l side badLane s) := by simp [execIdleFlit]
@[simp] theorem State.replay_instant (s : State) (n : Nat) (flits : List HeldFlit) : (s.replay n flits).instant = s.instant := by
  unfold State.replay
  split <;> simp
@[simp] theorem execRetry_keepsInstant (l : Link) (s : State) : s.KeepsInstant (execRetry l s) := by
  simp only [execRetry]
  split <;> simp
@[simp] theorem execReplayTimeout_keepsInstant (l : Link) (tie : Bool) (s : State) :
    s.KeepsInstant (execReplayTimeout l tie s) := by
  simp only [execReplayTimeout]
  split <;> simp
@[simp] theorem State.linkFlit_instant (s : State) (n : Nat) : (s.linkFlit n).instant = s.instant := by simp [State.linkFlit]
@[simp] theorem State.enterOpen_instant (s : State) (n : Nat) : (s.enterOpen n).instant = s.instant := by simp [State.enterOpen]
@[simp] theorem execLinkOpen_keepsInstant (l : Link) (s : State) : s.KeepsInstant (execLinkOpen l s) := by simp [execLinkOpen]
@[simp] theorem execLinkToVestibule_keepsInstant (l : Link) (s : State) : s.KeepsInstant (execLinkToVestibule l s) := by
  simp [execLinkToVestibule]
@[simp] theorem State.retrainFromOpen_instant (s : State) (n : Nat) : (s.retrainFromOpen n).instant = s.instant := by
  simp [State.retrainFromOpen]
@[simp] theorem execClockDrift_keepsInstant (l : Link) (s : State) : s.KeepsInstant
    (execClockDrift l s) := by simp [execClockDrift]
@[simp] theorem State.retrainAny_instant (s : State) (n : Nat) :
    (s.retrainAny n).instant = s.instant := by simp [State.retrainAny]
@[simp] theorem State.popInbox_instant (s : State) (n : Nat) : (s.popInbox n).instant = s.instant := by simp [State.popInbox]
@[simp] theorem State.answerControl_instant (s : State) (n code : Nat) (p : Payload) :
    (s.answerControl n code p).instant = s.instant := by
  simp [State.answerControl]
@[simp] theorem execPark_keepsInstant (l : Link) (s : State) : s.KeepsInstant (execPark l s) := by
  simp only [execPark]
  split <;> simp
@[simp] theorem execParkAck_keepsInstant (l : Link) (s : State) : s.KeepsInstant (execParkAck l s) := by
  simp only [execParkAck]
  split <;> simp
@[simp] theorem execParkNak_keepsInstant (l : Link) (s : State) : s.KeepsInstant (execParkNak l s) := by
  simp only [execParkNak]
  split <;> simp
@[simp] theorem execParkEntry_keepsInstant (l : Link) (s : State) : s.KeepsInstant (execParkEntry l s) := by
  simp only [execParkEntry]
  split <;> simp
@[simp] theorem execAutoDoze_keepsInstant (l : Link) (e : BitVec 64) (s : State) : s.KeepsInstant (execAutoDoze l e s) := by
  simp [execAutoDoze]
@[simp] theorem State.shortRetrain_instant (s : State) (n : Nat) :
    (s.shortRetrain n).instant = s.instant := by simp [State.shortRetrain]
@[simp] theorem execLinkWake_keepsInstant (l : Link) (s : State) : s.KeepsInstant (execLinkWake l s) := by simp [execLinkWake]
@[simp] theorem execTrainingStart_keepsInstant (l : Link) (s : State) : s.KeepsInstant (execTrainingStart l s) := by
  simp [execTrainingStart]
@[simp] theorem execForwardedClockStop_keepsInstant (l : Link) (s : State) : s.KeepsInstant (execForwardedClockStop l s) := by
  simp [execForwardedClockStop]
@[simp] theorem State.trainFail_instant (s : State) (n cause : Nat) :
    (s.trainFail n cause).instant = s.instant := by simp [State.trainFail]
@[simp] theorem State.setSpare_instant (s : State) (n : Nat) (outbound : Bool) (spare lane src : Nat) :
    (s.setSpare n outbound spare lane src).instant = s.instant := by simp [State.setSpare]
@[simp] theorem State.assignLanes_instant (n : Nat) (outbound : Bool) (src : Nat) (ks : List Nat) (s : State) :
    (State.assignLanes n outbound src ks s).1.instant = s.instant := by
  induction ks generalizing s with
  | nil => rfl
  | cons k ks ih =>
    simp only [State.assignLanes]
    split
    · exact ih _
    · split <;> simp [ih]
@[simp] theorem State.assignDir_instant (s : State) (n : Nat) (outbound : Bool) (weak : List Nat) :
    (s.assignDir n outbound weak).1.instant = s.instant := by simp [State.assignDir]
@[simp] theorem State.setDecision_instant (s : State) (n : Nat) (d0 d1 : Bool) : (s.setDecision n d0 d1).instant = s.instant := by
  simp [State.setDecision]
@[simp] theorem State.trained_instant (s : State) (n : Nat) : (s.trained n).instant = s.instant := by simp [State.trained]
@[simp] theorem State.setTrainStep_instant (s : State) (n k : Nat) : (s.setTrainStep n k).instant = s.instant := by
  simp [State.setTrainStep]
@[simp] theorem execTrainStepDone_keepsInstant (l : Link) (obs : TrainObs) (tie : Bool) (s : State) :
    s.KeepsInstant (execTrainStepDone l obs tie s) := by
  simp only [execTrainStepDone]
  repeat' split
  all_goals simp
@[simp] theorem execTrainStepTimeout_keepsInstant (l : Link) (s : State) : s.KeepsInstant (execTrainStepTimeout l s) := by
  simp only [execTrainStepTimeout]
  repeat' split
  all_goals simp
@[simp] theorem execTrainTotalTimeout_keepsInstant (l : Link) (s : State) : s.KeepsInstant (execTrainTotalTimeout l s) := by
  simp [execTrainTotalTimeout]
@[simp] theorem execTrainBackoffExpiry_keepsInstant (l : Link) (s : State) : s.KeepsInstant (execTrainBackoffExpiry l s) := by
  simp [execTrainBackoffExpiry]
@[simp] theorem State.shortToFull_instant (s : State) (n : Nat) :
    (s.shortToFull n).instant = s.instant := by simp [State.shortToFull]
@[simp] theorem execShortRetrainStepDone_keepsInstant (l : Link) (obs : TrainObs) (tie : Bool) (s : State) :
    s.KeepsInstant (execShortRetrainStepDone l obs tie s) := by
  simp only [execShortRetrainStepDone]
  repeat' split
  all_goals simp
@[simp] theorem execShortRetrainTimeout_keepsInstant (l : Link) (s : State) : s.KeepsInstant (execShortRetrainTimeout l s) := by
  simp [execShortRetrainTimeout]
@[simp] theorem execLaneRepairRequest_keepsInstant (l : Link) (lane : Lane) (e : BitVec 64) (s : State) :
    s.KeepsInstant (execLaneRepairRequest l lane e s) := by
  simp only [execLaneRepairRequest]
  repeat' split
  all_goals simp
@[simp] theorem State.showPending_instant (s : State) (n : Nat) :
    (s.showPending n).instant = s.instant := by simp [State.showPending]
@[simp] theorem execRepair_keepsInstant (l : Link) (s : State) : s.KeepsInstant (execRepair l s) := by
  simp only [execRepair]
  split <;> simp
@[simp] theorem execRepairAck_keepsInstant (l : Link) (s : State) : s.KeepsInstant (execRepairAck l s) := by
  simp only [execRepairAck]
  split <;> simp
@[simp] theorem execRepairNak_keepsInstant (l : Link) (s : State) : s.KeepsInstant (execRepairNak l s) := by
  simp only [execRepairNak]
  split <;> simp
@[simp] theorem execLaneRepairSwitch_keepsInstant (l : Link) (s : State) : s.KeepsInstant (execLaneRepairSwitch l s) := by
  simp [execLaneRepairSwitch]
@[simp] theorem execRepairAckTimeout_keepsInstant (l : Link) (s : State) : s.KeepsInstant (execRepairAckTimeout l s) := by
  simp [execRepairAckTimeout]
@[simp] theorem State.laneMonitor_instant (s : State) (n m : Nat) :
    (s.laneMonitor n m).instant = s.instant := by simp [State.laneMonitor]
@[simp] theorem execDquery_keepsInstant (l : Link) (s : State) : s.KeepsInstant (execDquery l s) := by
  simp only [execDquery]
  split <;> simp
@[simp] theorem execHistoryDiscard_keepsInstant (l : Link) (s : State) : s.KeepsInstant (execHistoryDiscard l s) := by
  simp [execHistoryDiscard]
@[simp] theorem execEventDelivery_keepsInstant (s : State) : s.KeepsInstant (execEventDelivery s) := by simp [execEventDelivery]
@[simp] theorem State.markLate_instant (s : State) (r : Req) : (s.markLate r).instant = s.instant := by simp [State.markLate]
@[simp] theorem execWdata_keepsInstant (l : Link) (s : State) : s.KeepsInstant (execWdata l s) := by
  simp only [execWdata]
  repeat' split
  all_goals simp
@[simp] theorem execWdataLate_keepsInstant (p : Port) (tag : BitVec 9) (s : State) : s.KeepsInstant (execWdataLate p tag s) := by
  unfold execWdataLate
  split <;> simp

/-! ### Operations of Machine/Ecc.lean -/

@[simp] theorem State.setEcc_instant (s : State) (t : Nat) (v : EccSt) :
    (s.setEcc t v).instant = s.instant := by simp [State.setEcc]
@[simp] theorem State.modEcc_instant (s : State) (t : Nat) (f : EccSt → EccSt) : (s.modEcc t f).instant = s.instant := by
  simp [State.modEcc]
@[simp] theorem State.eccStatus_instant (s : State) (t : Nat) : (s.eccStatus t).instant = s.instant := by simp [State.eccStatus]
@[simp] theorem State.capture_instant (s : State) (t cls : Nat) (i : ErrInfo) : (s.capture t cls i).instant = s.instant := by
  simp [State.capture]
@[simp] theorem State.queueBurst_instant (s : State) (t bank row col : Nat) (errs : List ErrInfo) :
    (s.queueBurst t bank row col errs).instant = s.instant := by simp [State.queueBurst]
@[simp] theorem State.queueProbe_instant (s : State) (t bank row col : Nat) (i : ErrInfo) :
    (s.queueProbe t bank row col i).instant = s.instant := by
  simp [State.queueProbe]
@[simp] theorem State.leaves_instant (s : State) (t : Nat) (r : RecEntry) :
    (s.leaves t r).instant = s.instant := by simp [State.leaves]
@[simp] theorem State.recur_instant (s : State) (t bank row col word : Nat) (i : ErrInfo) :
    (s.recur t bank row col word i).instant = s.instant := by
  simp only [State.recur]
  repeat' split
  all_goals simp
@[simp] theorem State.leaveRecs_instant (s : State) (t bank row col word : Nat) :
    (s.leaveRecs t bank row col word).instant = s.instant := by
  unfold State.leaveRecs
  split <;> simp
@[simp] theorem State.dropUnit_instant (s : State) (t : Nat) : (s.dropUnit t).instant = s.instant := by simp [State.dropUnit]
@[simp] theorem State.overLines_instant (s : State) (c : Nat) (is : List Nat) :
    (State.overLines s c is).2.instant = s.instant := by
  induction is generalizing s c with
  | nil => rfl
  | cons i is ih => simp [State.overLines, ih]
@[simp] theorem State.attribute_instant (s : State) (c w : Nat) (bits : List Nat) :
    (s.attribute c w bits).instant = s.instant := by
  simp [State.attribute]
@[simp] theorem State.dramPut_instant (s : State) (i : Nat) (c : Codeword) :
    (s.dramPut i c).instant = s.instant := by simp [State.dramPut]
@[simp] theorem State.loseDram_instant (s : State) (c : Nat) : (s.loseDram c).instant = s.instant := by simp [State.loseDram]
@[simp] theorem State.fillDram_instant (s : State) : s.fillDram.instant = s.instant := by simp [State.fillDram]
@[simp] theorem State.loseGranule_instant (s : State) (k : Nat) :
    (s.loseGranule k).instant = s.instant := by simp [State.loseGranule]
@[simp] theorem State.fillLarder_instant (s : State) : s.fillLarder.instant = s.instant := by simp [State.fillLarder]
@[simp] theorem State.larderPut_instant (s : State) (q bank line w : Nat) (c : Codeword) :
    (s.larderPut q bank line w c).instant = s.instant := by
  simp [State.larderPut]
@[simp] theorem State.putLarder_instant (s : State) (l : LLine) (w : Nat) (c : Codeword) :
    (s.putLarder l w c).instant = s.instant := by
  simp [State.putLarder]
@[simp] theorem State.writeLarder_instant (s : State) (l : LLine) (w : Nat) (data : DWord) (poison : Bool) :
    (s.writeLarder l w data poison).instant = s.instant := by simp [State.writeLarder]
@[simp] theorem State.readPhys_instant (s : State) (x l : LLine) (w : Nat) (ctx : ReadCtx) (scr : Option Nat) :
    (s.readPhys x l w ctx scr).2.instant = s.instant := by
  simp only [State.readPhys]
  repeat' split
  all_goals simp
@[simp] theorem State.readLarder_instant (s : State) (l : LLine) (w : Nat) (ctx : ReadCtx) (scr : Option Nat) :
    (s.readLarder l w ctx scr).2.instant = s.instant := by simp [State.readLarder]
@[simp] theorem State.readLine_instant (s : State) (l : LLine) (ctx : ReadCtx) (scr : Nat → Option Nat) :
    (s.readLine l ctx scr).2.instant = s.instant := by simp [State.readLine]
@[simp] theorem State.putSlot_instant (s : State) (n k : Nat) (c : Codeword) (mark : Bool) :
    (s.putSlot n k c mark).instant = s.instant := by
  simp [State.putSlot]
@[simp] theorem State.clearRecord_instant (s : State) (n : Nat) :
    (s.clearRecord n).instant = s.instant := by simp [State.clearRecord]
@[simp] theorem State.readArray_instant (s : State) (l : Loc) (w : Nat) (ctx : ReadCtx) :
    (s.readArray l w ctx).2.instant = s.instant := by
  simp only [State.readArray]
  repeat' split
  all_goals simp
@[simp] theorem State.putHeld_instant (s : State) (l : Loc) (w : Nat) (c : Codeword) : (s.putHeld l w c).instant = s.instant := by
  simp [State.putHeld]
@[simp] theorem State.readBuffer_instant (s : State) (t w : Nat) (stored : Codeword) (ctx : ReadCtx)
    (put : State → Codeword → State) (h : ∀ u c, (put u c).instant = u.instant) :
    (s.readBuffer t w stored ctx put).2.instant = s.instant := by
  simp only [State.readBuffer]
  split
  · split <;> simp [h]
  · simp
@[simp] theorem State.readHeld_instant (s : State) (l : Loc) (j : ProbeJob) (w : Nat) (ctx : ReadCtx) :
    (s.readHeld l j w ctx).2.instant = s.instant := by simp [State.readHeld]
@[simp] theorem State.readDram_instant (s : State) (l : Loc) (w : Nat) (ctx : ReadCtx) :
    (s.readDram l w ctx).2.instant = s.instant := by
  simp only [State.readDram]
  repeat' split
  all_goals simp
@[simp] theorem State.inject_instant (s : State) (l : Loc) (w : Nat) (c : Codeword) : (s.inject l w c).2.instant = s.instant := by
  simp only [State.inject]
  split <;> simp
@[simp] theorem State.putDram_instant (s : State) (l : Loc) (w : Nat) (c : Codeword) : (s.putDram l w c).instant = s.instant := by
  simp only [State.putDram]
  repeat' split
  all_goals simp
@[simp] theorem State.writeDram_instant (s : State) (l : Loc) (w : Nat) (data : DWord) (poison : Bool) :
    (s.writeDram l w data poison).instant = s.instant := by simp [State.writeDram]
@[simp] theorem State.readBurst_instant (s : State) (l : Loc) (ctx : ReadCtx) : (s.readBurst l ctx).2.instant = s.instant := by
  simp [State.readBurst]
@[simp] theorem State.copyArray_instant (s : State) (t bank row col w source : Nat) :
    (s.copyArray t bank row col w source).2.instant = s.instant := by
  simp only [State.copyArray]
  split <;> simp
@[simp] theorem State.copyWord_instant (s : State) (t bank row col w source : Nat) :
    (s.copyWord t bank row col w source).2.instant = s.instant := by
  simp only [State.copyWord]
  split <;> simp
@[simp] theorem State.copyBurst_instant (s : State) (t bank src dst col source : Nat) :
    (s.copyBurst t bank src dst col source).instant = s.instant := by simp [State.copyBurst]
@[simp] theorem State.deliverPoison_instant (s : State) (t n : Nat) : (s.deliverPoison t n).instant = s.instant := by
  simp [State.deliverPoison]

/-! ### Operations of Machine/Risers.lean -/

@[simp] theorem State.helperRun_instant (s : State) (r : Nat) (pattern : Option LinePattern) (rows : Bool)
    (lines bad swept : List Nat) :
    (s.helperRun r pattern rows lines bad swept).instant = s.instant := by simp [State.helperRun]
@[simp] theorem State.putBit_instant (s : State) (f : Fld) (i : Nat) (b : Bool) : (s.putBit f i b).instant = s.instant := by
  simp [State.putBit]
@[simp] theorem State.assignSpare_instant (s : State) (r sp line src : Nat) :
    (s.assignSpare r sp line src).instant = s.instant := by
  simp [State.assignSpare]
@[simp] theorem State.spareIsBad_instant (s : State) (r sp : Nat) (src : Nat) : (s.spareIsBad r sp src).instant = s.instant := by
  simp [State.spareIsBad]
@[simp] theorem State.showErased_instant (s : State) (c : Nat) :
    (s.showErased c).instant = s.instant := by simp [State.showErased]
@[simp] theorem State.showVstate_instant (s : State) (r : Nat) :
    (s.showVstate r).instant = s.instant := by simp [State.showVstate]
@[simp] theorem State.showRiser_instant (s : State) (r : Nat) : (s.showRiser r).instant = s.instant := by
  simp only [State.showRiser]
  split <;> simp
@[simp] theorem State.degrade_instant (s : State) (c line cause : Nat) : (s.degrade c line cause).instant = s.instant := by
  simp [State.degrade]
@[simp] theorem State.thirdDead_instant (s : State) (r line : Nat) : (s.thirdDead r line).instant = s.instant := by
  simp only [State.thirdDead]
  repeat' split
  all_goals simp
@[simp] theorem State.lineDead_instant (s : State) (r line : Nat) :
    (s.lineDead r line).instant = s.instant := by simp [State.lineDead]
@[simp] theorem State.startRepair_instant (s : State) (r line : Nat) : (s.startRepair r line).instant = s.instant := by
  unfold State.startRepair
  split <;> simp
@[simp] theorem State.declareFailing_instant (s : State) (r line : Nat) : (s.declareFailing r line).instant = s.instant := by
  simp [State.declareFailing]
@[simp] theorem execLineFailing_keepsInstant (r : Tile) (line : BitVec 8) (tie : Bool) (s : State) :
    s.KeepsInstant (execLineFailing r line tie s) := by
  simp [execLineFailing]
@[simp] theorem execSoftRepairVerifyDone_keepsInstant (r : Tile) (line : BitVec 8) (mismatch : Bool) (s : State) :
    s.KeepsInstant (execSoftRepairVerifyDone r line mismatch s) := by
  simp only [execSoftRepairVerifyDone]
  repeat' split
  all_goals simp
@[simp] theorem execSoftRepairSwitch_keepsInstant (r : Tile) (s : State) : s.KeepsInstant (execSoftRepairSwitch r s) := by
  simp [execSoftRepairSwitch]
@[simp] theorem State.markErased_instant (s : State) (r : Nat) : (s.markErased r).instant = s.instant := by
  simp only [State.markErased, State.showRiser_instant]
  refine (State.instant_foldl _ _ _ fun u line => ?_).trans (by simp)
  repeat' split
  all_goals simp
@[simp] theorem State.monitorRiser_instant (s : State) (r e m : Nat) : (s.monitorRiser r e m).instant = s.instant := by
  simp [State.monitorRiser]
@[simp] theorem State.applyDegrade_instant (s : State) (c : Nat) :
    (s.applyDegrade c).instant = s.instant := by simp [State.applyDegrade]
@[simp] theorem State.takeSpare_instant (s : State) (c reason : Nat) : (s.takeSpare c reason).instant = s.instant := by
  simp [State.takeSpare]
@[simp] theorem State.leaveSpare_instant (s : State) : s.leaveSpare.instant = s.instant := by simp [State.leaveSpare]
@[simp] theorem State.moveToSpare_instant (s : State) (c line : Nat) (displaced : Nat) :
    (s.moveToSpare c line displaced).instant = s.instant := by
  simp [State.moveToSpare]
@[simp] theorem State.assignLines_instant (r src : Nat) (ls : List Nat) (s : State) :
    (State.assignLines r src ls s).1.instant = s.instant := by
  induction ls generalizing s with
  | nil => rfl
  | cons l ls ih =>
    simp only [State.assignLines]
    split
    · exact ih _
    · split <;> simp [ih]
@[simp] theorem State.fuseRiser_instant (s : State) (r : Nat) : (s.fuseRiser r).instant = s.instant := by simp [State.fuseRiser]
@[simp] theorem State.riserUntrained_instant (s : State) (r : Nat) : (s.riserUntrained r).instant = s.instant := by
  simp [State.riserUntrained]
@[simp] theorem State.v5Spare_instant (s : State) (r sp : Nat) : (s.v5Spare r sp).1.instant = s.instant := by simp [State.v5Spare]
@[simp] theorem State.v5Lines_instant (s : State) (r : Nat) (fails : List Nat) : (s.v5Lines r fails).instant = s.instant := by
  simp [State.v5Lines]
@[simp] theorem State.putTrims_instant (s : State) (ts : List (Nat × Word)) : (s.putTrims ts).instant = s.instant := by
  simp [State.putTrims]
@[simp] theorem State.stepHelper_instant (s : State) (r step : Nat) (bad swept : List Nat) :
    (s.stepHelper r step bad swept).instant = s.instant := by
  unfold State.stepHelper
  split <;> simp
@[simp] theorem execRiserTrainStepDone_keepsInstant (r : Tile) (ok : Bool) (fails : List (BitVec 8)) (trims : List TrimObs)
    (s : State) :
    s.KeepsInstant (execRiserTrainStepDone r ok fails trims s) := by simp [execRiserTrainStepDone]
@[simp] theorem State.goHome_instant (s : State) (r : Nat) : (s.goHome r).instant = s.instant := by
  unfold State.goHome
  split <;> simp
@[simp] theorem execArrayFillDone_keepsInstant (s : State) : s.KeepsInstant (execArrayFillDone s) := by simp [execArrayFillDone]

/-! ### Operations of Machine/Clocks.lean -/

@[simp] theorem execPllLockLoss_keepsInstant (q : Quad) (s : State) : s.KeepsInstant
    (execPllLockLoss q s) := by simp [execPllLockLoss]
@[simp] theorem execPllLock_keepsInstant (q : Quad) (s : State) : s.KeepsInstant (execPllLock q s) := by simp [execPllLock]
@[simp] theorem State.showFallback_instant (s : State) (b : Nat) :
    (s.showFallback b).instant = s.instant := by simp [State.showFallback]
@[simp] theorem State.enterFallback_instant (s : State) : s.enterFallback.instant = s.instant := by simp [State.enterFallback]
@[simp] theorem State.startRetune_instant (s : State) (qs : List Nat) : (s.startRetune qs).instant = s.instant := by
  simp [State.startRetune]
@[simp] theorem State.applyTunings_instant (s : State) : s.applyTunings.instant = s.instant := by simp [State.applyTunings]
@[simp] theorem execCrossingTuneDone_keepsInstant (q : Quad) (setup hold : BitVec 16) (s : State) :
    s.KeepsInstant (execCrossingTuneDone q setup hold s) := by simp [execCrossingTuneDone]
@[simp] theorem execClockFallbackEntry_keepsInstant (s : State) : s.KeepsInstant (execClockFallbackEntry s) := by
  simp [execClockFallbackEntry]
@[simp] theorem execClockFallbackExit_keepsInstant (s : State) : s.KeepsInstant
    (execClockFallbackExit s) := by simp [execClockFallbackExit]

/-! ### Operations of Machine/Letterbox.lean -/

@[simp] theorem State.putBuf_instant (s : State) (n off : Nat) (bs : List Byte) : (s.putBuf n off bs).instant = s.instant := by
  exact State.instant_foldl _ _ _ fun _ _ => rfl
@[simp] theorem State.releaseLb_instant (s : State) (n : Nat) : (s.releaseLb n).instant = s.instant := by simp [State.releaseLb]
@[simp] theorem State.cplNote_instant (s : State) (n word : Nat) : (s.cplNote n word).instant = s.instant := by
  unfold State.cplNote
  split <;> simp
@[simp] theorem State.complete_instant (s : State) (n status : Nat) (committed : Bool) (result : List Byte) :
    (s.complete n status committed result).instant = s.instant := by
  simp only [State.complete]
  repeat' split
  all_goals simp
@[simp] theorem State.fail_instant (s : State) (n status : Nat) : (s.fail n status).instant = s.instant := by simp [State.fail]
@[simp] theorem State.done_instant (s : State) (n : Nat) (result : List Byte) : (s.done n result).instant = s.instant := by
  simp [State.done]
@[simp] theorem State.startCommand_instant (s : State) (n : Nat) : (s.startCommand n).instant = s.instant := by
  simp only [State.startCommand]
  split <;> simp
@[simp] theorem State.ring_instant (s : State) (n : Nat) : (s.ring n).instant = s.instant := by simp [State.ring]
@[simp] theorem State.dropWork_instant (s : State) (n : Nat) : (s.dropWork n).instant = s.instant := by simp [State.dropWork]
@[simp] theorem State.endEarly_instant (s : State) (n status : Nat) :
    (s.endEarly n status).instant = s.instant := by simp [State.endEarly]
@[simp] theorem State.restartCore_instant (s : State) (c : Nat) :
    (s.restartCore c).instant = s.instant := by simp [State.restartCore]
@[simp] theorem State.command_keepsInstant (s : State) (n code need : Nat) (f : LbSt → State → State) (h : ∀ L u,
    (f L u).instant = u.instant) :
    s.KeepsInstant (s.command n code need f) := by simp [State.command, h]
@[simp] theorem State.begin_instant (s : State) (n : Nat) (committed : Bool) (epoch : Nat) :
    (s.begin n committed epoch).instant = s.instant := by
  simp [State.begin]

/-! ### Operations of Machine/Faults.lean -/

@[simp] theorem State.setEngineOut_instant (s : State) (e : Nat) (out : Bool) : (s.setEngineOut e out).instant = s.instant := by
  simp [State.setEngineOut]
@[simp] theorem State.holdCore_instant (s : State) (c : Nat) : (s.holdCore c).instant = s.instant := by simp [State.holdCore]
@[simp] theorem State.setContained_instant (s : State) (b : Bool) (u : CUnit) : (s.setContained b u).instant = s.instant := by
  cases u with
  | ports q => simp [State.setContained]
  | port p => simp only [State.setContained]; split <;> simp
  | _ => simp [State.setContained]
@[simp] theorem State.containNow_instant (s : State) (u : CUnit) : (s.containNow u).instant = s.instant := by
  simp only [State.containNow]
  repeat' split
  all_goals simp
@[simp] theorem execContainUnit_keepsInstant (s : State) : s.KeepsInstant (execContainUnit s) := by simp [execContainUnit]
@[simp] theorem State.applyReleases_instant (s : State) : s.applyReleases.instant = s.instant := by simp [State.applyReleases]
@[simp] theorem execQuietPeriodExpiry_keepsInstant (s : State) : s.KeepsInstant
    (execQuietPeriodExpiry s) := by simp [execQuietPeriodExpiry]

/-! ### Operations of Machine/Mem.lean -/

@[simp] theorem State.showFlush_instant (s : State) (t : Nat) : (s.showFlush t).instant = s.instant := by simp [State.showFlush]
@[simp] theorem State.queueWork_instant (s : State) (rank : Nat) (id : WorkFor) (loc : Loc) (wr : Bool) :
    (s.queueWork rank id loc wr).instant = s.instant := by simp [State.queueWork]
@[simp] theorem State.readScratch_instant (s : State) (cfg : RegMap) (o : Nat) (ctx : ReadCtx) :
    (s.readScratch cfg o ctx).2.instant = s.instant := by
  simp [State.readScratch]
@[simp] theorem State.writeScratch_instant (s : State) (cfg : RegMap) (o : Nat) (data : DWord) (poison : Bool) :
    (s.writeScratch cfg o data poison).instant = s.instant := by simp [State.writeScratch]
@[simp] theorem State.larderFlit_instant (s : State) : s.larderFlit.instant = s.instant := by simp [State.larderFlit]
@[simp] theorem State.powerDown_instant (s : State) : s.powerDown.instant = s.instant := by simp [State.powerDown]
@[simp] theorem State.setCacheSet_instant (s : State) (k : Nat) (ls : List CLine) : (s.setCacheSet k ls).instant = s.instant := by
  simp [State.setCacheSet]
@[simp] theorem State.touchLine_instant (s : State) (k : Nat) (l : CLine) : (s.touchLine k l).instant = s.instant := by
  simp [State.touchLine]
@[simp] theorem State.putLine_instant (s : State) (k : Nat) (l : CLine) (w : Nat) (c : Codeword) (dirty : Bool) :
    (s.putLine k l w c dirty).instant = s.instant := by simp [State.putLine]
@[simp] theorem State.readCached_instant (s : State) (t k : Nat) (l : CLine) (w : Nat) (ctx : ReadCtx) :
    (s.readCached t k l w ctx).2.instant = s.instant := by simp [State.readCached]
@[simp] theorem State.readMem_instant (s : State) (cfg : RegMap) (a : Nat) (ctx : ReadCtx) :
    (s.readMem cfg a ctx).2.instant = s.instant := by
  simp only [State.readMem]
  split <;> simp
@[simp] theorem State.writeMem_instant (s : State) (cfg : RegMap) (a : Nat) (data : DWord) (poison : Bool) :
    (s.writeMem cfg a data poison).instant = s.instant := by
  simp only [State.writeMem]
  split <;> simp
@[simp] theorem State.readMems_instant (s : State) (cfg : RegMap) (a n : Nat) (ctx : ReadCtx) :
    (s.readMems cfg a n ctx).2.instant = s.instant := by
  simp [State.readMems]
@[simp] theorem State.writeMems_instant (s : State) (cfg : RegMap) (a : Nat) (ws : List (DWord × Bool)) :
    (s.writeMems cfg a ws).instant = s.instant := by simp [State.writeMems]
@[simp] theorem State.writeBack_instant (s : State) (t : Nat) (l : CLine) : (s.writeBack t l).instant = s.instant := by
  simp only [State.writeBack, State.inc_instant]
  refine State.instant_foldl _ _ _ fun u w => ?_
  split <;> simp
@[simp] theorem State.cleanLines_instant (s : State) (id : WorkFor) (p : Nat → CLine → Bool) :
    (s.cleanLines id p).instant = s.instant := by
  simp [State.cleanLines]
@[simp] theorem State.dropLines_instant (s : State) (p : Nat → CLine → Bool) : (s.dropLines p).instant = s.instant := by
  simp [State.dropLines]
@[simp] theorem State.fillLine_instant (s : State) (loc : Loc) (burst : Nat) (ctx : ReadCtx) :
    (s.fillLine loc burst ctx).2.instant = s.instant := by
  simp [State.fillLine]

/-! ### Operations of Machine/Requests.lean -/

@[simp] theorem State.modReq_instant (s : State) (r : Req) (f : Req → Req) :
    (s.modReq r f).instant = s.instant := by simp [State.modReq]
@[simp] theorem State.release_instant (s : State) (r : Req) (p : Burst → Bool) : (s.release r p).instant = s.instant := by
  simp [State.release]
@[simp] theorem State.finishResets_instant (s : State) : s.finishResets.instant = s.instant := by simp [State.finishResets]
@[simp] theorem State.answer_instant (s : State) (r : Req) (a : Answer) :
    (s.answer r a).instant = s.instant := by simp [State.answer]
@[simp] theorem State.readBursts_instant (s : State) (r : Req) :
    (s.readBursts r).2.instant = s.instant := by simp [State.readBursts]
@[simp] theorem State.refuse_instant (s : State) (r : Req) (status : Nat) : (s.refuse r status).instant = s.instant := by
  simp [State.refuse]
@[simp] theorem execRd_keepsInstant (p : Port) (tag : BitVec 9) (s : State) : s.KeepsInstant (execRd p tag s) := by
  simp only [execRd]
  repeat' split
  all_goals simp
@[simp] theorem State.scramble_instant (s : State) (cfg : RegMap) (a : Nat) : (s.scramble cfg a).instant = s.instant := by
  simp [State.scramble]
@[simp] theorem State.clashTables_instant (s : State) (wr : Req) :
    (s.clashTables wr).instant = s.instant := by simp [State.clashTables]
@[simp] theorem execWr_keepsInstant (p : Port) (tag : BitVec 9) (s : State) : s.KeepsInstant (execWr p tag s) := by
  simp only [execWr]
  repeat' split
  all_goals simp
@[simp] theorem execWrm_keepsInstant (p : Port) (tag : BitVec 9) (s : State) : s.KeepsInstant (execWrm p tag s) := by
  simp only [execWrm]
  repeat' split
  all_goals simp
@[simp] theorem State.larWaits_instant (s : State) (r : Req) (counter : Fld) (q : Nat) :
    (s.larWaits r counter q).instant = s.instant := by
  simp [State.larWaits]
@[simp] theorem State.hostPath_instant (s : State) (r : Req) (more : List LAcc) (go : State → State) (h : ∀ u,
    (go u).instant = u.instant) :
    (s.hostPath r more go).instant = s.instant := by
  simp only [State.hostPath]
  split
  · simp
  · split <;> simp [h]
@[simp] theorem State.enginePath_instant (s : State) (r : Req) (t e : Nat) (use : List LAcc) (go : State → State) (h : ∀ u,
    (go u).instant = u.instant) :
    (s.enginePath r t e use go).instant = s.instant := by
  simp only [State.enginePath]
  split <;> simp [h]
@[simp] theorem execLrd_keepsInstant (p : Port) (tag : BitVec 9) (met : Option (Fin 64)) (wrote : Bool) (s : State) :
    s.KeepsInstant (execLrd p tag met wrote s) := by
  simp only [execLrd]
  repeat' split
  all_goals simp
@[simp] theorem execLwr_keepsInstant (p : Port) (tag : BitVec 9) (met : Option (Fin 64)) (wrote : Bool) (s : State) :
    s.KeepsInstant (execLwr p tag met wrote s) := by
  unfold execLwr
  split
  · simp
  split
  · simp
  refine (State.keepsInstant_next _ _).2 (State.hostPath_instant _ _ _ _ fun u => ?_)
  simp
@[simp] theorem execLwrm_keepsInstant (p : Port) (tag : BitVec 9) (met : Option (Fin 64)) (wrote : Bool) (s : State) :
    s.KeepsInstant (execLwrm p tag met wrote s) := by
  simp only [execLwrm]
  repeat' split
  all_goals simp
@[simp] theorem execFence_keepsInstant (p : Port) (tag : BitVec 9) (s : State) : s.KeepsInstant (execFence p tag s) := by
  unfold execFence
  split <;> simp
@[simp] theorem execTquery_keepsInstant (p : Port) (tag : BitVec 9) (s : State) : s.KeepsInstant (execTquery p tag s) := by
  unfold execTquery
  split <;> simp
@[simp] theorem State.countLate_instant (s : State) (r : Req) : (s.countLate r).instant = s.instant := by simp [State.countLate]
@[simp] theorem execResponseSend_keepsInstant (p : Port) (tag : BitVec 9) (s : State) :
    s.KeepsInstant (execResponseSend p tag s) := by
  simp only [execResponseSend]
  repeat' split
  all_goals simp

/-! ### Operations of Machine/Slots.lean -/

@[simp] theorem State.modOf_instant (s : State) (b : Burst) (f : Req → Req) :
    (s.modOf b f).instant = s.instant := by simp [State.modOf]
@[simp] theorem State.noteBurst_instant (s : State) (t : Nat) (u : OpenUse) : (s.noteBurst t u).instant = s.instant := by
  simp only [State.noteBurst]
  split <;> simp
@[simp] theorem State.runBurst_instant (s : State) (t : Nat) (b : Burst) :
    (s.runBurst t b).instant = s.instant := by simp [State.runBurst]
@[simp] theorem State.runOpen_instant (s : State) (t : Nat) (u : OpenUse) :
    (s.runOpen t u).instant = s.instant := by simp [State.runOpen]
@[simp] theorem State.openSlot_instant (s : State) (t : Nat) (margin : Bool) : (s.openSlot t margin).instant = s.instant := by
  simp only [State.openSlot]
  repeat' split
  all_goals simp
@[simp] theorem State.setWv_instant (s : State) (g : Nat) (v : WvGroup) :
    (s.setWv g v).instant = s.instant := by simp [State.setWv]
theorem State.wvNext_instant {s u : State} {t : Nat} (h : s.wvNext t = some u) : u.instant = s.instant := by
  simp only [State.wvNext] at h
  split at h
  · cases h
  · obtain ⟨w, -, rfl⟩ := Option.map_eq_some_iff.mp h
    simp
theorem State.refreshNow_instant {s u : State} {t : Nat} (h : s.refreshNow t = some u) : u.instant = s.instant := by
  simp only [State.refreshNow] at h
  split at h
  · cases h
  split at h
  · cases h; simp
  split at h
  · next hv => cases h; exact State.wvNext_instant hv
  split at h
  · cases h
  · obtain ⟨b, -, rfl⟩ := Option.map_eq_some_iff.mp h
    simp
theorem State.mitigateNow_instant {s u : State} {t : Nat} (h : s.mitigateNow t = some u) : u.instant = s.instant := by
  simp only [State.mitigateNow] at h
  split at h
  · cases h
  · cases h; simp
@[simp] theorem State.takeMaint_instant (s : State) (t n : Nat) :
    (s.takeMaint t n).instant = s.instant := by simp [State.takeMaint]
@[simp] theorem State.remapStep_instant (s : State) (r : RemapRun) :
    (s.remapStep r).instant = s.instant := by simp [State.remapStep]
theorem State.maintNow_instant {s u : State} {t : Nat} (h : s.maintNow t = some u) : u.instant = s.instant := by
  simp only [State.maintNow] at h
  split at h
  · cases h; simp
  split at h
  · cases h
  split at h
  · cases h; simp
  · cases h; simp
  · cases h
@[simp] theorem State.quiet_instant (s : State) (t : Nat) : (s.quiet t).instant = s.instant := by simp [State.quiet]
@[simp] theorem State.setLeft_instant (s : State) (t : Nat) (l : SlotsLeft) :
    (s.setLeft t l).instant = s.instant := by simp [State.setLeft]
@[simp] theorem State.turnSlot_instant (s : State) (t : Nat) : (s.turnSlot t).instant = s.instant := by
  simp only [State.turnSlot]
  split
  · exact (State.instant_getD (fun _ h => State.refreshNow_instant h) (by simp)).trans (by simp)
  split
  · exact (State.instant_getD (fun _ h => State.mitigateNow_instant h) (by simp)).trans (by simp)
  split <;> simp
@[simp] theorem State.restSlot_instant (s : State) (t : Nat) : (s.restSlot t).instant = s.instant := by
  simp only [State.restSlot]
  split
  · simp
  split
  · simp
  split
  · exact (State.instant_getD (fun _ h => State.maintNow_instant h) (by simp)).trans (by simp)
  split
  · exact (State.instant_getD (fun _ h => State.mitigateNow_instant h) (by simp)).trans (by simp)
  split
  · exact (State.instant_getD (fun _ h => State.refreshNow_instant h) (by simp)).trans (by simp)
  · simp
@[simp] theorem State.plannedSlot_instant (s : State) (t : Nat) (b : Burst) (rest : List Burst) :
    (s.plannedSlot t b rest).instant = s.instant := by
  simp [State.plannedSlot]
@[simp] theorem State.runSlot_instant (s : State) (t : Nat) : (s.runSlot t).instant = s.instant := by
  simp only [State.runSlot]
  split <;> simp
@[simp] theorem State.slotsPass_instant (s : State) : s.slotsPass.instant = s.instant := by simp [State.slotsPass]
@[simp] theorem State.showPace_instant (s : State) (t : Nat) : (s.showPace t).instant = s.instant := by simp [State.showPace]
@[simp] theorem State.planEpoch_instant (s : State) (t : Nat) : (s.planEpoch t).instant = s.instant := by simp [State.planEpoch]
@[simp] theorem State.showOcc_instant (s : State) (t : Nat) : (s.showOcc t).instant = s.instant := by simp [State.showOcc]
@[simp] theorem State.takeOpen_instant (s : State) (t : Nat) : (s.takeOpen t).instant = s.instant := by simp [State.takeOpen]

/-! ### Operations of Machine/Counters.lean -/

@[simp] theorem State.evictLine_instant (s : State) (t k : Nat) (l : CLine) : (s.evictLine t k l).instant = s.instant := by
  simp [State.evictLine]
@[simp] theorem State.cacheStep_instant (s : State) (r : Req) (t : Nat) : (s.cacheStep r t).2.instant = s.instant := by
  simp only [State.cacheStep]
  repeat' split
  all_goals simp
@[simp] theorem State.readTarget_instant (s : State) (r : Req) (off : Nat) (rmw : Bool) :
    (s.readTarget r off rmw).2.instant = s.instant := by
  unfold State.readTarget
  split <;> simp
@[simp] theorem State.writeTarget_instant (s : State) (r : Req) (off : Nat) (data : DWord) (poison : Bool) :
    (s.writeTarget r off data poison).instant = s.instant := by simp [State.writeTarget]
@[simp] theorem State.countDamage_instant (s : State) (t e : Nat) (refused : Bool) :
    (s.countDamage t e refused).instant = s.instant := by
  simp [State.countDamage]
@[simp] theorem State.setSpill_instant (s : State) (q : Nat) (v : SpillSt) : (s.setSpill q v).instant = s.instant := by
  simp [State.setSpill]
@[simp] theorem State.spillLost_instant (s : State) (t addr : Nat) : (s.spillLost t addr).instant = s.instant := by
  simp only [State.spillLost]
  split <;> simp
@[simp] theorem State.spill_instant (s : State) (r : Req) (field format : Nat) :
    (s.spill r field format).2.instant = s.instant := by
  simp only [State.spill]
  repeat' split
  all_goals simp
@[simp] theorem State.spillAll_instant (r : Req) (format : Nat) (fs : List Nat) (s : State) :
    (State.spillAll r format fs s).2.instant = s.instant := by
  induction fs generalizing s with
  | nil => rfl
  | cons f fs ih => simp [State.spillAll, ih]
@[simp] theorem State.ringLevel_instant (s : State) : s.ringLevel.instant = s.instant := by simp [State.ringLevel]
@[simp] theorem State.ringPut_instant (s : State) (x : SpillRec) : (s.ringPut x).instant = s.instant := by simp [State.ringPut]
@[simp] theorem execSpillRecordWrite_keepsInstant (q : Quad) (s : State) : s.KeepsInstant (execSpillRecordWrite q s) := by
  simp [execSpillRecordWrite]
@[simp] theorem execSpillLostMergeExpiry_keepsInstant (q : Quad) (s : State) : s.KeepsInstant (execSpillLostMergeExpiry q s) := by
  simp only [execSpillLostMergeExpiry]
  split <;> simp
@[simp] theorem State.cadd_instant (s : State) (r : Req) (k format : Nat) : (s.cadd r k format).instant = s.instant := by
  simp only [State.cadd]
  repeat' split
  all_goals simp
@[simp] theorem execCadd64_keepsInstant (p : Port) (tag : BitVec 9) (k : Fin 4) (s : State) :
    s.KeepsInstant (execCadd64 p tag k s) := by
  unfold execCadd64
  split <;> simp
@[simp] theorem execCaddpb_keepsInstant (p : Port) (tag : BitVec 9) (k : Fin 4) (s : State) :
    s.KeepsInstant (execCaddpb p tag k s) := by
  unfold execCaddpb
  split <;> simp
@[simp] theorem execCaddd32_keepsInstant (p : Port) (tag : BitVec 9) (k : Fin 4) (s : State) :
    s.KeepsInstant (execCaddd32 p tag k s) := by
  unfold execCaddd32
  split <;> simp
@[simp] theorem State.crd_instant (s : State) (r : Req) (k : Nat) (clear : Bool) : (s.crd r k clear).instant = s.instant := by
  unfold State.crd
  split <;> simp
@[simp] theorem execCrd_keepsInstant (p : Port) (tag : BitVec 9) (k : Fin 4) (s : State) :
    s.KeepsInstant (execCrd p tag k s) := by
  unfold execCrd
  split <;> simp
@[simp] theorem execCrdclr_keepsInstant (p : Port) (tag : BitVec 9) (k : Fin 4) (s : State) :
    s.KeepsInstant (execCrdclr p tag k s) := by
  unfold execCrdclr
  split <;> simp
@[simp] theorem execCflush_keepsInstant (p : Port) (tag : BitVec 9) (s : State) : s.KeepsInstant (execCflush p tag s) := by
  simp only [execCflush]
  repeat' split
  all_goals simp
@[simp] theorem execPol_keepsInstant (p : Port) (tag : BitVec 9) (k : Fin 4) (s : State) :
    s.KeepsInstant (execPol p tag k s) := by
  simp only [execPol]
  repeat' split
  all_goals simp

/-! ### Operations of Machine/Lookups.lean -/

@[simp] theorem State.poolTake_instant (s : State) (r : Req) (loc : Loc) (x pool : Nat) (wr : Bool) :
    (s.poolTake r loc x pool wr).instant = s.instant := by simp [State.poolTake]
@[simp] theorem State.readBucket_instant (s : State) (r : Req) (h : HashTab) (b : Nat) :
    (s.readBucket r h b).2.instant = s.instant := by
  simp only [State.readBucket]
  split <;> simp
@[simp] theorem State.writeEntry_instant (s : State) (r : Req) (h : HashTab) (bucket slot : Nat) (ws : List (DWord × Bool))
    (old : List WordRead) (since : List (Nat × Nat)) :
    (s.writeEntry r h bucket slot ws old since).instant = s.instant := by simp [State.writeEntry]
@[simp] theorem State.lkDamage_instant (s : State) (t : Nat) : (s.lkDamage t).instant = s.instant := by simp [State.lkDamage]
@[simp] theorem State.lookupSlots_instant (s : State) (r : Req) (bs : List Bucket) :
    (s.lookupSlots r bs).instant = s.instant := by
  simp [State.lookupSlots]
@[simp] theorem State.candidates_instant (s : State) (r : Req) :
    (s.candidates r).2.instant = s.instant := by simp [State.candidates]
@[simp] theorem State.touched_instant (s : State) (r : Req) (bs : List Nat) : (s.touched r bs).instant = s.instant := by
  simp [State.touched]
@[simp] theorem State.deliverEntry_instant (s : State) (e : Entry) :
    (s.deliverEntry e).instant = s.instant := by simp [State.deliverEntry]
@[simp] theorem execHlk_keepsInstant (p : Port) (tag : BitVec 9) (s : State) : s.KeepsInstant (execHlk p tag s) := by
  simp only [execHlk]
  repeat' split
  all_goals simp
@[simp] theorem execHdel_keepsInstant (p : Port) (tag : BitVec 9) (s : State) : s.KeepsInstant (execHdel p tag s) := by
  simp only [execHdel]
  repeat' split
  all_goals simp
@[simp] theorem State.findPath_instant (r : Req) (h : HashTab) (rot n j : Nat) (b : Bucket) (path : List Move) (s : State) :
    (State.findPath r h rot n j b path s).2.instant = s.instant := by
  induction n generalizing j b path s with
  | zero => rfl
  | succ n ih =>
    simp only [State.findPath]
    split
    · rfl
    · split <;> simp [ih]
@[simp] theorem State.writePath_instant (r : Req) (h : HashTab) (new : List (DWord × Bool)) (path : List Move)
    (bucket slot : Nat) (old : List WordRead)
    (since : List (Nat × Nat)) (s : State) : (State.writePath r h new path bucket slot old since s).instant = s.instant := by
  induction path generalizing bucket slot old since s with
  | nil => simp [State.writePath]
  | cons e rest ih => simp [State.writePath, ih]
@[simp] theorem State.place_instant (s : State) (r : Req) (h : HashTab) (bs : List Bucket) :
    (s.place r h bs).instant = s.instant := by
  simp only [State.place]
  split
  · simp
  split
  · next heq => simpa using State.instant_snd heq (State.findPath_instant ..)
  · next heq => simpa using State.instant_snd heq (State.findPath_instant ..)
@[simp] theorem execHins_keepsInstant (p : Port) (tag : BitVec 9) (s : State) : s.KeepsInstant (execHins p tag s) := by
  simp only [execHins]
  repeat' split
  all_goals simp
@[simp] theorem State.walkEnd_instant (s : State) (r : Req) (best : Option (Nat × Nat)) (corr : Bool) :
    (s.walkEnd r best corr).instant = s.instant := by
  unfold State.walkEnd
  split <;> simp
@[simp] theorem State.walkPoison_instant (s : State) (r : Req) (best : Option (Nat × Nat)) (corr : Bool) :
    (s.walkPoison r best corr).instant = s.instant := by simp [State.walkPoison]
@[simp] theorem State.badNode_instant (s : State) (t : Nat) (e : DWord) :
    (s.badNode t e).instant = s.instant := by simp [State.badNode]
@[simp] theorem State.walkStop_instant (s : State) (r : Req) (status : Nat) (corr : Bool) :
    (s.walkStop r status corr).instant = s.instant := by
  simp [State.walkStop]
@[simp] theorem State.walkFetch_instant (s : State) (r : Req) (t : TrieTab) (w : Walk) :
    (s.walkFetch r t w).instant = s.instant := by
  simp [State.walkFetch]
@[simp] theorem State.walkLarder_instant (r : Req) (t : TrieTab) (key n i entry : Nat) (best : Option (Nat × Nat)) (corr : Bool)
    (s : State) :
    (State.walkLarder r t key n i entry best corr s).instant = s.instant := by
  induction n generalizing i entry best corr s with
  | zero => simp [State.walkLarder]
  | succ n ih =>
    simp only [State.walkLarder]
    split
    · simp
    split
    · simp
    · split <;> simp [ih]
@[simp] theorem execLpm_keepsInstant (p : Port) (tag : BitVec 9) (s : State) : s.KeepsInstant (execLpm p tag s) := by
  unfold execLpm
  split <;> simp
@[simp] theorem execWalkNodeReturn_keepsInstant (p : Port) (tag : BitVec 9) (tie : Bool) (s : State) :
    s.KeepsInstant (execWalkNodeReturn p tag tie s) := by
  simp only [execWalkNodeReturn]
  repeat' split
  all_goals simp
@[simp] theorem execWalkStepTimeout_keepsInstant (p : Port) (tag : BitVec 9) (s : State) :
    s.KeepsInstant (execWalkStepTimeout p tag s) := by
  unfold execWalkStepTimeout
  split <;> simp

/-! ### Operations of Machine/Cellar.lean -/

@[simp] theorem State.readDesc_instant (s : State) (cfg : RegMap) (qn port : Nat) :
    (s.readDesc cfg qn port).2.instant = s.instant := by
  simp [State.readDesc]
@[simp] theorem State.writeDesc_instant (s : State) (cfg : RegMap) (qn : Nat) (d : Desc) :
    (s.writeDesc cfg qn d).instant = s.instant := by
  simp [State.writeDesc]
@[simp] theorem State.countFree_instant (s : State) : s.countFree.instant = s.instant := by simp [State.countFree]
@[simp] theorem State.setCache_instant (s : State) (q : Nat) (l : List Nat) : (s.setCache q l).instant = s.instant := by
  simp [State.setCache]
@[simp] theorem State.setFlight_instant (s : State) (q : Nat) (l : List FreeBlock) : (s.setFlight q l).instant = s.instant := by
  simp [State.setFlight]
@[simp] theorem State.blockWork_instant (s : State) (k a : Nat) (wr : Bool) : (s.blockWork k a wr).instant = s.instant := by
  simp [State.blockWork]
@[simp] theorem State.readBlock_instant (s : State) (q k : Nat) :
    (s.readBlock q k).2.instant = s.instant := by simp [State.readBlock]
@[simp] theorem State.refillStart_instant (s : State) (q : Nat) :
    (s.refillStart q).instant = s.instant := by simp [State.refillStart]
@[simp] theorem State.spillBlock_instant (s : State) (q : Nat) :
    (s.spillBlock q).instant = s.instant := by simp [State.spillBlock]
@[simp] theorem execFreeRefillLand_keepsInstant (q : Quad) (s : State) : s.KeepsInstant (execFreeRefillLand q s) := by
  unfold execFreeRefillLand
  split <;> simp
@[simp] theorem execPairFree_keepsInstant (q : Quad) (s : State) : s.KeepsInstant (execPairFree q s) := by
  unfold execPairFree
  split <;> simp
@[simp] theorem State.pairsEnter_instant (s : State) : s.pairsEnter.instant = s.instant := by simp [State.pairsEnter]
@[simp] theorem State.alloc_instant (s : State) (q : Nat) (waiting : Bool) : (s.alloc q waiting).2.instant = s.instant := by
  simp only [State.alloc]
  repeat' split
  all_goals simp
@[simp] theorem State.takePair_instant (s : State) (q j : Nat) : (s.takePair q j).instant = s.instant := by simp [State.takePair]
@[simp] theorem State.logReady_instant (s : State) : s.logReady.instant = s.instant := by simp [State.logReady]
@[simp] theorem State.breakQueue_instant (s : State) (qn cause ptr : Nat) : (s.breakQueue qn cause ptr).instant = s.instant := by
  simp [State.breakQueue]
@[simp] theorem State.breakDesc_instant (s : State) (cfg : RegMap) (qn : Nat) (a b : WordRead) :
    (s.breakDesc cfg qn a b).instant = s.instant := by
  simp [State.breakDesc]
@[simp] theorem State.breakLink_instant (s : State) (r : Req) (d : Desc) (ptr : Nat) :
    (s.breakLink r d ptr).instant = s.instant := by
  simp [State.breakLink]
@[simp] theorem State.celSlots_instant (s : State) (r : Req) (x a n : Nat) (wr : Bool) :
    (s.celSlots r x a n wr).instant = s.instant := by
  simp [State.celSlots]
@[simp] theorem State.setHead_instant (s : State) (e : HcEntry) : (s.setHead e).instant = s.instant := by simp [State.setHead]
@[simp] theorem State.countHeads_instant (s : State) : s.countHeads.instant = s.instant := by simp [State.countHeads]
@[simp] theorem State.dropHead_instant (s : State) (qn : Nat) : (s.dropHead qn).instant = s.instant := by simp [State.dropHead]
@[simp] theorem State.newHead_instant (s : State) (cfg : RegMap) (qn : Nat) : (s.newHead cfg qn).instant = s.instant := by
  simp [State.newHead]
@[simp] theorem execHeadCacheIdleRelease_keepsInstant (queue : BitVec 18) (tie : Bool) (s : State) :
    s.KeepsInstant (execHeadCacheIdleRelease queue tie s) := by
  unfold execHeadCacheIdleRelease
  split <;> simp
@[simp] theorem State.headEnq_instant (s : State) (r : Req) (cell : Nat) (eop short : Bool) (ws : List DWord) :
    (s.headEnq r cell eop short ws).instant = s.instant := by
  unfold State.headEnq
  split <;> simp
@[simp] theorem State.enqFinish_instant (s : State) (r : Req) (d : Desc) (cell : Nat) :
    (s.enqFinish r d cell).instant = s.instant := by
  simp [State.enqFinish]
@[simp] theorem State.enq_instant (s : State) (r : Req) : (s.enq r).instant = s.instant := by
  simp only [State.enq]
  split
  · simp
  split
  · simp
  split
  · simp
  split
  · split
    · next heq => simpa using State.instant_snd heq (State.alloc_instant ..)
    · next heq => simpa using State.instant_snd heq (State.alloc_instant ..)
    · next heq =>
      have h := State.instant_snd heq (State.alloc_instant ..)
      split <;> simp [h]
  · split <;> simp
@[simp] theorem execEnq_keepsInstant (p : Port) (tag : BitVec 9) (s : State) : s.KeepsInstant (execEnq p tag s) := by
  simp only [execEnq]
  repeat' split
  all_goals simp
@[simp] theorem State.cellInfo_instant (s : State) (r : Req) (d : Desc) (c left : Nat) (entry : Bool) :
    (s.cellInfo r d c left entry).2.instant = s.instant := by
  simp only [State.cellInfo]
  repeat' split
  all_goals simp
@[simp] theorem State.readCell_instant (s : State) (r : Req) (c : Nat) :
    (s.readCell r c).2.instant = s.instant := by simp [State.readCell]
@[simp] theorem State.readHead_instant (s : State) (r : Req) (h : HcCell) : (s.readHead r h).2.instant = s.instant := by
  refine State.instant_foldl_snd _ _ _ fun rs u w => ?_
  dsimp only
  split
  · split <;> simp
  · simp
@[simp] theorem State.refillHead_instant (s : State) (r : Req) (d : Desc) (e : HcEntry) (left : Nat) :
    (s.refillHead r d e left).2.instant = s.instant := by
  simp only [State.refillHead]
  split
  · rfl
  split
  · next heq => exact State.instant_snd heq (State.cellInfo_instant ..)
  · next heq => simpa using State.instant_snd heq (State.cellInfo_instant ..)
@[simp] theorem State.deqFinish_instant (s : State) (r : Req) (d : Desc) (i : CellInfo) (ws : List WordRead) (cached : Bool) :
    (s.deqFinish r d i ws cached).instant = s.instant := by simp [State.deqFinish]
@[simp] theorem State.deq_instant (s : State) (r : Req) : (s.deq r).instant = s.instant := by
  simp only [State.deq]
  split
  · simp
  split
  · simp
  split
  · simp
  split
  · split
    · simp
    split
    · next heq => simpa using State.instant_snd heq (State.refillHead_instant ..)
    · next heq => simpa using State.instant_snd heq (State.refillHead_instant ..)
  · split
    · simp
    split
    · next heq => simpa using State.instant_snd heq (State.cellInfo_instant ..)
    · next heq => simpa using State.instant_snd heq (State.cellInfo_instant ..)
@[simp] theorem execDeq_keepsInstant (p : Port) (tag : BitVec 9) (s : State) : s.KeepsInstant (execDeq p tag s) := by
  simp only [execDeq]
  repeat' split
  all_goals simp
@[simp] theorem State.qstat_instant (s : State) (r : Req) : (s.qstat r).instant = s.instant := by
  simp only [State.qstat]
  split <;> simp
@[simp] theorem execQstat_keepsInstant (p : Port) (tag : BitVec 9) (s : State) : s.KeepsInstant (execQstat p tag s) := by
  simp only [execQstat]
  repeat' split
  all_goals simp
@[simp] theorem State.writeStack_instant (s : State) (c : CelCfg) :
    (s.writeStack c).instant = s.instant := by simp [State.writeStack]
@[simp] theorem execCellarInit_keepsInstant (s : State) : s.KeepsInstant (execCellarInit s) := by
  unfold execCellarInit
  split <;> simp
@[simp] theorem execCellarInitDone_keepsInstant (s : State) : s.KeepsInstant
    (execCellarInitDone s) := by simp [execCellarInitDone]
@[simp] theorem State.askReset_instant (s : State) (w : Word) : (s.askReset w).instant = s.instant := by simp [State.askReset]
@[simp] theorem State.queueReset_instant (s : State) (qn : Nat) : (s.queueReset qn).instant = s.instant := by
  simp only [State.queueReset]
  split
  · rfl
  · simp
    split <;> simp
@[simp] theorem State.countWaits_instant (s : State) : s.countWaits.instant = s.instant := by simp [State.countWaits]
@[simp] theorem State.cellarFlit_instant (s : State) : s.cellarFlit.instant = s.instant := by simp [State.cellarFlit]

/-! ### Operations of Machine/Gate.lean -/

@[simp] theorem State.chargeSlot_instant (s : State) (p tag : Nat) (a : Slot) : (s.chargeSlot p tag a).1.instant = s.instant := by
  simp [State.chargeSlot]
@[simp] theorem State.chargeSlots_instant (s : State) (p tag : Nat) (as : List Slot) (cs : List Charge) :
    (s.chargeSlots p tag as cs).1.instant = s.instant := by
  induction as generalizing s cs with
  | nil => rfl
  | cons a as ih => simp [State.chargeSlots, ih]
theorem State.gateCheck_instant {s t : State} {l : Nat} {h : Hdr} {cs : List Charge} (hg : s.gateCheck l h = .accept t cs) :
    t.instant = s.instant := by
  simp only [State.gateCheck] at hg
  repeat' split at hg
  all_goals cases hg
  all_goals simp
@[simp] theorem State.decideHeader_instant (s : State) (n pos w : Nat) : (s.decideHeader n pos w).instant = s.instant := by
  simp only [State.decideHeader]
  split
  · simp
  · next hg => simpa using State.gateCheck_instant hg
@[simp] theorem execRequestHeader_keepsInstant (l : Link) (s : State) : s.KeepsInstant (execRequestHeader l s) := by
  unfold execRequestHeader
  split <;> simp
@[simp] theorem State.decideAll_instant (s : State) (n : Nat) : (s.decideAll n).instant = s.instant := by simp [State.decideAll]
@[simp] theorem State.closeFrame_instant (s : State) (n : Nat) :
    (s.closeFrame n).instant = s.instant := by simp [State.closeFrame]
@[simp] theorem State.lanesLow_instant (s : State) (n : Nat) : (s.lanesLow n).instant = s.instant := by simp [State.lanesLow]
@[simp] theorem State.endFlit_instant (s : State) (n : Nat) : (s.endFlit n).instant = s.instant := by simp [State.endFlit]
@[simp] theorem State.flitEnds_instant (s : State) : s.flitEnds.instant = s.instant := by simp [State.flitEnds]
@[simp] theorem State.flitBegins_instant (s : State) : s.flitBegins.instant = s.instant := by simp [State.flitBegins]

/-! ### Operations of Machine/Access.lean -/

@[simp] theorem State.readReg_instant (s : State) (addr : Nat) : (s.readReg addr).2.instant = s.instant := by
  simp only [State.readReg]
  repeat' split
  all_goals simp
@[simp] theorem State.resetLink_instant (s : State) (n : Nat) : (s.resetLink n).instant = s.instant := by simp [State.resetLink]
@[simp] theorem State.askRelease_instant (s : State) (u : CUnit) :
    (s.askRelease u).instant = s.instant := by simp [State.askRelease]
@[simp] theorem State.askReleases_instant (s : State) (data : Word) (unit : Nat → CUnit) :
    (s.askReleases data unit).instant = s.instant := by
  simp [State.askReleases]
@[simp] theorem State.raiseWins_instant (s : State) (src : Nat) (l : Latch) (sent : Bool) :
    (s.raiseWins src l sent).instant = s.instant := by
  simp [State.raiseWins]
@[simp] theorem State.clearLatches_instant (s : State) (p : Nat → Bool) : (s.clearLatches p).instant = s.instant := by
  simp [State.clearLatches]
@[simp] theorem State.detClear_instant (s : State) (w : Word) : (s.detClear w).instant = s.instant := by simp [State.detClear]
@[simp] theorem State.setConsumer_instant (s : State) (w : Nat) :
    (s.setConsumer w).instant = s.instant := by simp [State.setConsumer]
@[simp] theorem State.putRaw_instant (s : State) (l : Bool) (a : Nat) (c : Codeword) : (s.putRaw l a c).instant = s.instant := by
  simp only [State.putRaw]
  repeat' split
  all_goals simp
@[simp] theorem State.dbgmem_instant (s : State) : s.dbgmem.instant = s.instant := by
  simp only [State.dbgmem]
  repeat' split
  all_goals simp
@[simp] theorem State.claim_instant (s : State) (n path : Nat) : (s.claim n path).instant = s.instant := by simp [State.claim]
@[simp] theorem State.writeEffect_instant (s : State) (path view : Nat) (h : RegHit) (data : Word) :
    (s.writeEffect path view h data).instant = s.instant := by
  unfold State.writeEffect
  split
  all_goals simp
@[simp] theorem State.storeFields_instant (s : State) (view : Nat) (h : RegHit) (data : Word) :
    (s.storeFields view h data).instant = s.instant := by
  simp [State.storeFields]
@[simp] theorem State.writeReg_instant (s : State) (path addr : Nat) (data : Word) :
    (s.writeReg path addr data).instant = s.instant := by
  unfold State.writeReg
  split <;> simp
@[simp] theorem State.accessFault_instant (s : State) (path addr code : Nat) :
    (s.accessFault path addr code).instant = s.instant := by
  simp only [State.accessFault]
  repeat' split
  all_goals simp
@[simp] theorem State.doRead_instant (s : State) (path addr : Nat) (late : Bool) :
    (s.doRead path addr late).2.2.instant = s.instant := by
  simp only [State.doRead]
  split <;> simp
@[simp] theorem State.doWrite_instant (s : State) (path addr : Nat) (data : Word) (late : Bool) :
    (s.doWrite path addr data late).2.instant = s.instant := by
  simp only [State.doWrite]
  split <;> simp
@[simp] theorem State.regCommand_keepsInstant (s : State) (path addr : Nat) (data : Word) :
    s.KeepsInstant (s.regCommand path addr data) := by
  unfold State.regCommand
  split <;> simp

/-! ### Operations of Machine/Admission.lean -/

@[simp] theorem State.stagePort_instant (s : State) (p : Nat) (x : PlanPort) : (s.stagePort p x).instant = s.instant := by
  simp [State.stagePort]
@[simp] theorem State.stagePlan_instant (s : State) (x : Plan) : (s.stagePlan x).instant = s.instant := by simp [State.stagePlan]

/-! ### Operations of Machine/Figures.lean -/

@[simp] theorem State.noteShort_instant (s : State) (t : Nat) (new : Short) : (s.noteShort t new).instant = s.instant := by
  simp only [State.noteShort]
  repeat' split
  all_goals simp
@[simp] theorem State.fixTile_instant (s : State) (t : Nat) : (s.fixTile t).1.instant = s.instant := by simp [State.fixTile]
@[simp] theorem State.showScale_instant (s : State) (p : Nat) : (s.showScale p).instant = s.instant := by simp [State.showScale]
@[simp] theorem State.pruneBudgets_instant (s : State) : s.pruneBudgets.instant = s.instant := by simp [State.pruneBudgets]
@[simp] theorem State.fixFigures_instant (s : State) : s.fixFigures.instant = s.instant := by
  simp only [State.fixFigures, State.pruneBudgets_instant]
  rw [State.instant_foldl _ _ _ fun u t => State.showScale_instant u t, State.instant_mk]
  refine State.instant_foldl_fst _ _ _ fun u f t => ?_
  dsimp only
  split <;> simp

/-! ### Operations of Machine/Modes.lean -/

@[simp] theorem State.showGates_instant (s : State) : s.showGates.instant = s.instant := by simp [State.showGates]
@[simp] theorem State.endGrants_instant (s : State) : s.endGrants.instant = s.instant := by simp [State.endGrants]
@[simp] theorem State.setLevel_instant (s : State) (l signer seconds : Nat) :
    (s.setLevel l signer seconds).instant = s.instant := by
  simp [State.setLevel]
@[simp] theorem State.levelToOpen_instant (s : State) : s.levelToOpen.instant = s.instant := by simp [State.levelToOpen]
@[simp] theorem State.showDoze_instant (s : State) : s.showDoze.instant = s.instant := by simp [State.showDoze]
@[simp] theorem State.enterCool_instant (s : State) : s.enterCool.instant = s.instant := by simp [State.enterCool]
@[simp] theorem State.leaveCool_instant (s : State) : s.leaveCool.instant = s.instant := by simp [State.leaveCool]
@[simp] theorem State.setMode_instant (s : State) (new cause : Nat) :
    (s.setMode new cause).instant = s.instant := by simp [State.setMode]
@[simp] theorem State.showOversub_instant (s : State) (v : Nat) :
    (s.showOversub v).instant = s.instant := by simp [State.showOversub]
@[simp] theorem State.retainDomains_instant (s : State) : s.retainDomains.instant = s.instant := by simp [State.retainDomains]
@[simp] theorem State.fallAsleep_instant (s : State) : s.fallAsleep.instant = s.instant := by
  unfold State.fallAsleep
  extract_lets s1 revert back p s2 keep s3 s4 s5 s6
  have h1 : s1.instant = s.instant := by simp [s1]
  have h2 : s2.instant = s.instant := by simp [s2, h1]
  have h5 : s5.instant = s.instant := by simp [s5, s4, s3, h2]
  split
  · simp [h2]
  · split
    · exact h5
    · simp [s6, h5]
@[simp] theorem State.setPhase_instant (s : State) (p : Nat) : (s.setPhase p).instant = s.instant := by simp [State.setPhase]
@[simp] theorem State.showReady_instant (s : State) : s.showReady.instant = s.instant := by simp [State.showReady]

/-! ### Operations of Machine/Tick.lean -/

@[simp] theorem State.flitOver_instant (s : State) : s.flitOver.instant = s.instant := by simp [State.flitOver]

/-! ### Operations of Machine/Schedule.lean -/

@[simp] theorem State.showPenalties_instant (s : State) : s.showPenalties.instant = s.instant := by simp [State.showPenalties]
@[simp] theorem State.penalise_instant (s : State) (t bank port : Nat) : (s.penalise t bank port).instant = s.instant := by
  simp [State.penalise]
@[simp] theorem execHammerTrigger_keepsInstant (c : Channel) (bank : Fin 32) (row : BitVec 16) (s : State) :
    s.KeepsInstant (execHammerTrigger c bank row s) := by
  simp only [execHammerTrigger]
  split <;> simp
@[simp] theorem execPenaltyExpiry_keepsInstant (s : State) : s.KeepsInstant (execPenaltyExpiry s) := by simp [execPenaltyExpiry]
@[simp] theorem execActBudgetPeriod_keepsInstant (s : State) : s.KeepsInstant
    (execActBudgetPeriod s) := by simp [execActBudgetPeriod]
@[simp] theorem execShortfallMergeExpiry_keepsInstant (s : State) : s.KeepsInstant (execShortfallMergeExpiry s) := by
  refine (State.keepsInstant_next _ _).2 (State.instant_foldl _ _ _ fun u t => ?_)
  dsimp only
  repeat' split
  all_goals simp
@[simp] theorem State.reportDemand_instant (s : State) : s.reportDemand.instant = s.instant := by simp [State.reportDemand]
@[simp] theorem execDemandReport_keepsInstant (s : State) : s.KeepsInstant (execDemandReport s) := by simp [execDemandReport]
@[simp] theorem State.gatesAtBoundary_instant
    (s : State) : s.gatesAtBoundary.instant = s.instant := by simp [State.gatesAtBoundary]
@[simp] theorem State.tickUnlock_instant (s : State) : s.tickUnlock.instant = s.instant := by
  unfold State.tickUnlock
  split <;> simp

/-! ### Operations of Machine/Commit.lean -/

@[simp] theorem State.openSession_instant (s : State) (path : Nat) :
    (s.openSession path).instant = s.instant := by simp [State.openSession]
@[simp] theorem State.closeSession_instant (s : State) : s.closeSession.instant = s.instant := by simp [State.closeSession]
theorem State.sessionFor_instant {s u : State} {path : Nat} (h : s.sessionFor path = some u) : u.instant = s.instant := by
  simp only [State.sessionFor] at h
  split at h
  · cases h; simp
  split at h
  · cases h; rfl
  · cases h
@[simp] theorem State.abortSession_instant (s : State) : s.abortSession.instant = s.instant := by simp [State.abortSession]
@[simp] theorem State.tryCommit_instant (s : State) (adopt : Bool) (refs : List Word) (planId : Option Nat) :
    (s.tryCommit adopt refs planId).2.instant = s.instant := by
  simp only [State.tryCommit]
  repeat' split
  all_goals simp
@[simp] theorem State.runCommit_instant (s : State) (n : Nat) (L : LbSt) (planId : Option Nat) :
    (s.runCommit n L planId).instant = s.instant := by
  simp [State.runCommit]
@[simp] theorem execCfgBegin_keepsInstant (n : Lb) (s : State) : s.KeepsInstant (execCfgBegin n s) := by simp [execCfgBegin]
@[simp] theorem execCfgCommit_keepsInstant (n : Lb) (s : State) : s.KeepsInstant (execCfgCommit n s) := by
  refine State.command_keepsInstant _ _ _ _ _ fun L u => ?_
  split
  · simp
  split
  · simp
  · next hu => simp [State.sessionFor_instant hu]
@[simp] theorem execCfgAbort_keepsInstant (n : Lb) (s : State) : s.KeepsInstant (execCfgAbort n s) := by
  refine State.command_keepsInstant _ _ _ _ _ fun L u => ?_
  split <;> simp
@[simp] theorem execCfgRef_keepsInstant (n : Lb) (s : State) : s.KeepsInstant (execCfgRef n s) := by simp [execCfgRef]
@[simp] theorem execCfgSessionIdle_keepsInstant (tie : Bool) (s : State) : s.KeepsInstant (execCfgSessionIdle tie s) := by
  unfold execCfgSessionIdle
  split <;> simp
@[simp] theorem State.noteQuotas_instant (s : State) (old : RegMap) :
    (s.noteQuotas old).instant = s.instant := by simp [State.noteQuotas]
@[simp] theorem State.powerGranules_instant (s : State) (old : RegMap) : (s.powerGranules old).instant = s.instant := by
  simp [State.powerGranules]
@[simp] theorem State.mirrorPerm_instant (s : State) (old : RegMap) :
    (s.mirrorPerm old).instant = s.instant := by simp [State.mirrorPerm]
@[simp] theorem State.afterCommit_instant (s : State) (old : RegMap) : (s.afterCommit old).instant = s.instant := by
  simp [State.afterCommit]
@[simp] theorem State.answerCommit_instant (s : State) : s.answerCommit.instant = s.instant := by
  refine State.instant_foldl _ _ _ fun u n => ?_
  dsimp only
  repeat' split
  all_goals simp
@[simp] theorem execConfigCommitBoundary_keepsInstant (s : State) : s.KeepsInstant (execConfigCommitBoundary s) := by
  simp only [execConfigCommitBoundary]
  repeat' split
  all_goals simp
@[simp] theorem execCfgCrcPass_keepsInstant (d : Fin 37) (flip : Option (BitVec 24 × Word)) (overlap : Bool) (s : State) :
    s.KeepsInstant (execCfgCrcPass d flip overlap s) := by
  unfold execCfgCrcPass
  split <;> simp
@[simp] theorem execVoteDisagreement_keepsInstant (field : Fin 90) (quad : Quad) (lost : Bool) (s : State) :
    s.KeepsInstant (execVoteDisagreement field quad lost s) := by simp [execVoteDisagreement]
@[simp] theorem State.copyCounters_instant (s : State) : s.copyCounters.instant = s.instant := by simp [State.copyCounters]
@[simp] theorem execSnapshotTake_keepsInstant (s : State) : s.KeepsInstant (execSnapshotTake s) := by simp [execSnapshotTake]
@[simp] theorem execLogSnapshot_keepsInstant (n : Lb) (s : State) : s.KeepsInstant
    (execLogSnapshot n s) := by simp [execLogSnapshot]
@[simp] theorem execCfgSave_keepsInstant (n : Lb) (s : State) : s.KeepsInstant (execCfgSave n s) := by simp [execCfgSave]
@[simp] theorem State.applyRetired_instant (s : State) : s.applyRetired.instant = s.instant := by
  unfold State.applyRetired
  split <;> simp
@[simp] theorem execBootFlashConfigApply_keepsInstant (s : State) : s.KeepsInstant (execBootFlashConfigApply s) := by
  simp only [execBootFlashConfigApply]
  repeat' split
  all_goals simp

/-! ### Operations of Machine/Plans.lean -/

@[simp] theorem execInfoId_keepsInstant (n : Lb) (s : State) : s.KeepsInstant (execInfoId n s) := by simp [execInfoId]
@[simp] theorem execInfoStatus_keepsInstant (n : Lb) (s : State) : s.KeepsInstant (execInfoStatus n s) := by simp [execInfoStatus]
@[simp] theorem execInfoCaps_keepsInstant (n : Lb) (s : State) : s.KeepsInstant (execInfoCaps n s) := by simp [execInfoCaps]
@[simp] theorem execPlanLoad_keepsInstant (n : Lb) (s : State) : s.KeepsInstant (execPlanLoad n s) := by simp [execPlanLoad]
@[simp] theorem State.answerCheck_instant (s : State) (n : Nat) (oversub : Bool) (fs : List Failure) :
    (s.answerCheck n oversub fs).instant = s.instant := by simp [State.answerCheck]
@[simp] theorem execPlanCheck_keepsInstant (n : Lb) (s : State) : s.KeepsInstant (execPlanCheck n s) := by
  refine State.command_keepsInstant _ _ _ _ _ fun L u => ?_
  split <;> simp
@[simp] theorem execPlanCommit_keepsInstant (n : Lb) (s : State) : s.KeepsInstant (execPlanCommit n s) := by
  refine State.command_keepsInstant _ _ _ _ _ fun L u => ?_
  dsimp only
  split
  · simp
  split
  · simp
  split
  · simp
  split
  · simp
  · next hu => simp [State.sessionFor_instant hu]
@[simp] theorem execPlanGet_keepsInstant (n : Lb) (s : State) : s.KeepsInstant (execPlanGet n s) := by simp [execPlanGet]
@[simp] theorem execPortSet_keepsInstant (n : Lb) (s : State) : s.KeepsInstant (execPortSet n s) := by
  refine State.command_keepsInstant _ _ _ _ _ fun L u => ?_
  split
  · simp
  split
  · simp
  · next hu => simp [State.sessionFor_instant hu]
@[simp] theorem execPortGet_keepsInstant (n : Lb) (s : State) : s.KeepsInstant (execPortGet n s) := by
  refine State.command_keepsInstant _ _ _ _ _ fun L u => ?_
  dsimp only
  split <;> simp
@[simp] theorem execPortReset_keepsInstant (n : Lb) (s : State) : s.KeepsInstant (execPortReset n s) := by simp [execPortReset]
@[simp] theorem State.resetPort_instant (s : State) (r : PortReset) :
    (s.resetPort r).instant = s.instant := by simp [State.resetPort]
@[simp] theorem execPortResetCommit_keepsInstant (s : State) : s.KeepsInstant
    (execPortResetCommit s) := by simp [execPortResetCommit]
@[simp] theorem execZoneSet_keepsInstant (n : Lb) (s : State) : s.KeepsInstant (execZoneSet n s) := by
  refine State.command_keepsInstant _ _ _ _ _ fun L u => ?_
  dsimp only
  split
  · simp
  split
  · simp
  · next hu => simp [State.sessionFor_instant hu]
@[simp] theorem execZoneGet_keepsInstant (n : Lb) (s : State) : s.KeepsInstant (execZoneGet n s) := by simp [execZoneGet]

/-! ### Operations of Machine/Thermal.lean -/

@[simp] theorem State.showWv_instant (s : State) (d : Nat) : (s.showWv d).instant = s.instant := by
  simp only [State.showWv]
  split <;> simp
@[simp] theorem execWeathervaneRead_keepsInstant (g : Fin 32) (reading : Option (BitVec 16)) (tie : Bool) (s : State) :
    s.KeepsInstant (execWeathervaneRead g reading tie s) := by simp [execWeathervaneRead]
@[simp] theorem execWeathervaneFreshnessExpiry_keepsInstant (g : Fin 32) (s : State) :
    s.KeepsInstant (execWeathervaneFreshnessExpiry g s) := by
  simp [execWeathervaneFreshnessExpiry]
@[simp] theorem execWeathervaneStale_keepsInstant (d : Fin 16) (s : State) : s.KeepsInstant (execWeathervaneStale d s) := by
  simp [execWeathervaneStale]
@[simp] theorem State.publishVolt_instant (s : State) (j mv : Nat) :
    (s.publishVolt j mv).instant = s.instant := by simp [State.publishVolt]
@[simp] theorem State.publishConverters_instant (s : State) (a b : Bool) : (s.publishConverters a b).instant = s.instant := by
  simp [State.publishConverters]
@[simp] theorem State.publishClips_instant (s : State) (n : Nat) :
    (s.publishClips n).instant = s.instant := by simp [State.publishClips]
@[simp] theorem State.publishDraw_instant (s : State) : s.publishDraw.instant = s.instant := by simp [State.publishDraw]
@[simp] theorem State.noteDiode_instant (s : State) (i : Nat) (j : Judged) : (s.noteDiode i j).instant = s.instant := by
  simp [State.noteDiode]
@[simp] theorem State.governUnit_instant (s : State) (u : Nat) :
    (s.governUnit u).instant = s.instant := by simp [State.governUnit]
@[simp] theorem State.compensate_instant (s : State) : s.compensate.instant = s.instant := by simp [State.compensate]
@[simp] theorem State.publishRound_instant (s : State) (o : RoundObs) : (s.publishRound o).instant = s.instant := by
  simp [State.publishRound]
@[simp] theorem State.judgeRound_instant (s : State) : s.judgeRound.instant = s.instant := by simp [State.judgeRound]
@[simp] theorem execThermalShutdown_keepsInstant (tier : Fin 18) (s : State) : s.KeepsInstant (execThermalShutdown tier s) := by
  simp [execThermalShutdown]
@[simp] theorem execThermGet_keepsInstant (n : Lb) (s : State) : s.KeepsInstant (execThermGet n s) := by simp [execThermGet]
@[simp] theorem execThermSet_keepsInstant (n : Lb) (s : State) : s.KeepsInstant (execThermSet n s) := by
  refine State.command_keepsInstant _ _ _ _ _ fun L u => ?_
  dsimp only
  split
  · simp
  split
  · simp
  · next hu => simp [State.sessionFor_instant hu]

/-! ### Operations of Machine/Calibrate.lean -/

@[simp] theorem State.recordTemp_instant (s : State) (r d : Nat) :
    (s.recordTemp r d).instant = s.instant := by simp [State.recordTemp]
@[simp] theorem State.showCal_instant (s : State) : s.showCal.instant = s.instant := by
  simp only [State.showCal]
  split <;> simp
@[simp] theorem State.answerAsk_instant (s : State) (job : CalJob) (outcome n : Nat) :
    (s.answerAsk job outcome n).instant = s.instant := by
  unfold State.answerAsk
  split <;> simp
@[simp] theorem State.calEnded_instant (s : State) (job : CalJob) (outcome : Nat) :
    (s.calEnded job outcome).instant = s.instant := by
  simp [State.calEnded]
@[simp] theorem State.queueCal_instant (s : State) (job : CalJob) : (s.queueCal job).instant = s.instant := by
  simp only [State.queueCal]
  split <;> simp
@[simp] theorem calNextLoop_instant (n : Nat) (s : State) : (calNextLoop n s).instant = s.instant := by
  induction n generalizing s with
  | zero => rfl
  | succ n ih =>
    simp only [calNextLoop]
    split
    · split <;> simp [ih]
    · rfl
@[simp] theorem State.calNext_instant (s : State) : s.calNext.instant = s.instant := by simp [State.calNext]
@[simp] theorem State.calFinish_instant (s : State) (r : CalRun) (outcome : Nat) :
    (s.calFinish r outcome).instant = s.instant := by
  simp [State.calFinish]
@[simp] theorem State.calLines_instant (s : State) (r : CalRun) : (s.calLines r).instant = s.instant := by simp [State.calLines]
@[simp] theorem State.setCal_instant (s : State) (r : CalRun) : (s.setCal r).instant = s.instant := by simp [State.setCal]
@[simp] theorem State.calHelper_instant (s : State) (r : CalRun) (bad : List (BitVec 8)) (trims : List TrimObs) :
    (s.calHelper r bad trims).instant = s.instant := by
  unfold State.calHelper
  split <;> simp
@[simp] theorem execCalStepDone_keepsInstant (bad : List (BitVec 8)) (trims : List TrimObs) (s : State) :
    s.KeepsInstant (execCalStepDone bad trims s) := by
  simp only [execCalStepDone]
  repeat' split
  all_goals simp
@[simp] theorem State.chunkTrims_instant (s : State) (r : CalRun) (ts : List TrimObs) :
    (s.chunkTrims r ts).instant = s.instant := by
  simp [State.chunkTrims]
@[simp] theorem execReducedCalChunk_keepsInstant (bad : List (BitVec 8)) (trims : List TrimObs) (s : State) :
    s.KeepsInstant (execReducedCalChunk bad trims s) := by
  simp only [execReducedCalChunk]
  split <;> simp
@[simp] theorem State.abandonCal_instant (s : State) (requeue : Bool) : (s.abandonCal requeue).instant = s.instant := by
  unfold State.abandonCal
  split <;> simp
@[simp] theorem State.calTrigger_instant (s : State) (r d : Nat) : (s.calTrigger r d).instant = s.instant := by
  unfold State.calTrigger
  split <;> simp
@[simp] theorem State.tuneTriggers_instant (s : State) : s.tuneTriggers.instant = s.instant := by simp [State.tuneTriggers]
@[simp] theorem execHousekeepingRoundEnd_keepsInstant (obs : RoundObs) (s : State) :
    s.KeepsInstant (execHousekeepingRoundEnd obs s) := by
  simp [execHousekeepingRoundEnd]
@[simp] theorem execCalRun_keepsInstant (n : Lb) (s : State) : s.KeepsInstant (execCalRun n s) := by simp [execCalRun]
@[simp] theorem execCalStatus_keepsInstant (n : Lb) (s : State) : s.KeepsInstant (execCalStatus n s) := by simp [execCalStatus]

/-! ### Operations of Machine/Cornerstone.lean -/

@[simp] theorem State.senseStore_instant (s : State) (f : Fuses) :
    (s.senseStore f).instant = s.instant := by simp [State.senseStore]
@[simp] theorem State.applyTrim_instant (s : State) : s.applyTrim.instant = s.instant := by simp [State.applyTrim]
@[simp] theorem State.applyFuseRemaps_instant
    (s : State) : s.applyFuseRemaps.instant = s.instant := by simp [State.applyFuseRemaps]
@[simp] theorem State.noteBurn_instant (s : State) (b : Burn) (info : Nat) : (s.noteBurn b info).instant = s.instant := by
  simp [State.noteBurn]
@[simp] theorem State.burnCut_instant (s : State) (n : Nat) : (s.burnCut n).instant = s.instant := by simp [State.burnCut]
@[simp] theorem execOtpRead_keepsInstant (n : Lb) (s : State) : s.KeepsInstant (execOtpRead n s) := by simp [execOtpRead]
@[simp] theorem execOtpBurn_keepsInstant (n : Lb) (obs : BurnObs) (s : State) : s.KeepsInstant (execOtpBurn n obs s) := by
  refine State.command_keepsInstant _ _ _ _ _ fun L u => ?_
  dsimp only
  repeat' split
  all_goals simp
@[simp] theorem execOtpFinalise_keepsInstant (n : Lb) (obs : BurnObs) (s : State) : s.KeepsInstant (execOtpFinalise n obs s) := by
  refine State.command_keepsInstant _ _ _ _ _ fun L u => ?_
  extract_lets r k f count d word b reject b' again c good s1
  have hr : ∀ v x, (reject v x).instant = v.instant := fun v x => by simp only [reject]; split <;> simp
  split
  · simp
  split
  · simp
  split
  · simp [hr]
  split
  · simp [hr, s1]
  · simp [hr]

/-! ### Operations of Machine/Polisher.lean -/

@[simp] theorem State.logEvent_instant (s : State) (t : Nat) (e : LogEntry) : (s.logEvent t e).instant = s.instant := by
  simp only [State.logEvent]
  split <;> simp
@[simp] theorem State.logPut_instant (s : State) (t : Nat) (e : LogEntry) :
    (s.logPut t e).instant = s.instant := by simp [State.logPut]
@[simp] theorem execLogMove_keepsInstant (s : State) : s.KeepsInstant (execLogMove s) := by simp [execLogMove]
@[simp] theorem execLogRead_keepsInstant (n : Lb) (s : State) : s.KeepsInstant (execLogRead n s) := by simp [execLogRead]
@[simp] theorem execLogClear_keepsInstant (n : Lb) (s : State) : s.KeepsInstant (execLogClear n s) := by simp [execLogClear]
@[simp] theorem execRecurrenceAgeExpiry_keepsInstant (c : Channel) (tie : Bool) (s : State) :
    s.KeepsInstant (execRecurrenceAgeExpiry c tie s) := by
  simp [execRecurrenceAgeExpiry]
@[simp] theorem State.noteProbe_instant (s : State) (t : Nat) (i : ErrInfo) : (s.noteProbe t i).instant = s.instant := by
  simp [State.noteProbe]
@[simp] theorem State.holdWord_instant (s : State) (t : Nat) (loc : Loc) (w : Nat) :
    (s.holdWord t loc w).instant = s.instant := by
  simp only [State.holdWord]
  split <;> simp
@[simp] theorem execProbeStart_keepsInstant (c : Channel) (s : State) : s.KeepsInstant (execProbeStart c s) := by
  simp only [execProbeStart]
  split <;> simp
@[simp] theorem State.classify_instant (s : State) (t : Nat) (key : (Nat × Nat) × (Nat × Nat)) (i : ErrInfo) (obs : List
    (Fin 8 × Bool)) :
    (s.classify t key i obs).instant = s.instant := by
  simp only [State.classify]
  split <;> simp
@[simp] theorem execProbeComplete_keepsInstant (c : Channel) (obs : List (Fin 8 × Bool)) (s : State) :
    s.KeepsInstant (execProbeComplete c obs s) := by
  simp only [execProbeComplete]
  split <;> simp
@[simp] theorem State.setPatrol_instant (s : State) (t p : Nat) :
    (s.setPatrol t p).instant = s.instant := by simp [State.setPatrol]
@[simp] theorem State.poisonWord_instant (s : State) (t : Nat) (loc : Loc) (w : Nat) :
    (s.poisonWord t loc w).instant = s.instant := by
  simp [State.poisonWord]
@[simp] theorem execPolisherRead_keepsInstant (c : Channel) (s : State) : s.KeepsInstant (execPolisherRead c s) := by
  simp [execPolisherRead]
@[simp] theorem execPolisherWriteback_keepsInstant (c : Channel) (s : State) : s.KeepsInstant (execPolisherWriteback c s) := by
  simp only [execPolisherWriteback]
  split
  · simp
  split
  · simp
  split
  · simp
  refine (State.keepsInstant_next _ _).2 ((State.instant_foldl _ _ _ fun u w => ?_).trans (by simp))
  split <;> simp
@[simp] theorem execLarderScrub_keepsInstant (q : Quad) (obs : List (Fin 8 × Bool)) (s : State) :
    s.KeepsInstant (execLarderScrub q obs s) := by
  simp only [execLarderScrub]
  split
  · simp
  split
  · simp
  refine (State.keepsInstant_next _ _).2 ((State.instant_foldl _ _ _ fun u w => ?_).trans (by simp))
  split <;> simp
@[simp] theorem State.logUnit_instant (s : State) (t kind bank row : Nat) : (s.logUnit t kind bank row).instant = s.instant := by
  simp [State.logUnit]
@[simp] theorem State.showRetired_instant (s : State) (t : Nat) :
    (s.showRetired t).instant = s.instant := by simp [State.showRetired]
@[simp] theorem execRetireRow_keepsInstant (n : Lb) (s : State) : s.KeepsInstant (execRetireRow n s) := by simp [execRetireRow]
@[simp] theorem execRetireBank_keepsInstant (n : Lb) (s : State) : s.KeepsInstant (execRetireBank n s) := by simp [execRetireBank]
@[simp] theorem execRetireRemap_keepsInstant (n : Lb) (s : State) : s.KeepsInstant (execRetireRemap n s) := by
  refine State.command_keepsInstant _ _ _ _ _ fun L u => ?_
  dsimp only
  repeat' split
  all_goals simp

/-! ### Operations of Machine/Selftest.lean -/

@[simp] theorem State.showBst_instant (s : State) : s.showBst.instant = s.instant := by simp [State.showBst]
@[simp] theorem State.setRuns_instant (s : State) (rs : List TestRun) :
    (s.setRuns rs).instant = s.instant := by simp [State.setRuns]
@[simp] theorem State.putRun_instant (s : State) (r : TestRun) : (s.putRun r).instant = s.instant := by simp [State.putRun]
@[simp] theorem State.dropRun_instant (s : State) (r : TestRun) : (s.dropRun r).instant = s.instant := by simp [State.dropRun]
@[simp] theorem State.keepResult_instant (s : State) (x : TestRes) :
    (s.keepResult x).instant = s.instant := by simp [State.keepResult]
@[simp] theorem State.noteOutcome_instant (s : State) (r : TestRun) (outcome : Nat) :
    (s.noteOutcome r outcome).instant = s.instant := by
  simp [State.noteOutcome]
@[simp] theorem State.endTest_instant (s : State) (r : TestRun) (outcome : Nat) (keep : Bool) :
    (s.endTest r outcome keep).instant = s.instant := by
  simp only [State.endTest]
  split <;> simp
@[simp] theorem State.showShadow_instant (s : State) : s.showShadow.instant = s.instant := by simp [State.showShadow]
theorem State.takeSlots_instant {s u : State} {q n code : Nat} (h : s.takeSlots q n code = some u) : u.instant = s.instant := by
  obtain ⟨b, -, rfl⟩ := Option.map_eq_some_iff.mp h
  simp
@[simp] theorem State.freeSlots_instant (s : State) (code : Nat) :
    (s.freeSlots code).instant = s.instant := by simp [State.freeSlots]
@[simp] theorem State.takeSlots_getD_instant (s : State) (q n code : Nat) : ((s.takeSlots q n code).getD s).instant = s.instant :=
  State.instant_getD (fun _ h => State.takeSlots_instant h) rfl
@[simp] theorem State.launch_instant (s : State) (kind a b c : Nat) (lb : Option Nat) (restore whole : Bool) :
    (s.launch kind a b c lb restore whole).instant = s.instant := by
  unfold State.launch
  extract_lets s1 r s2 s3 s4 s5 s6
  have h3 : s3.instant = s.instant := by simp [s3, s2, s1]
  have h4 : s4.instant = s.instant := by simp only [s4]; split <;> simp [h3]
  have h6 : s6.instant = s.instant := by simp [s6, s5, h4]
  simp [h6]
@[simp] theorem State.noteFull_instant (s : State) (kind a : Nat) :
    (s.noteFull kind a).instant = s.instant := by simp [State.noteFull]
@[simp] theorem State.startTest_instant (s : State) (kind a b c : Nat) (lb : Option Nat) (whole : Bool) :
    (s.startTest kind a b c lb whole).1.instant = s.instant := by
  unfold State.startTest
  split <;> simp
@[simp] theorem State.noteUnjudged_instant (s : State) (q : Nat) :
    (s.noteUnjudged q).instant = s.instant := by simp [State.noteUnjudged]
@[simp] theorem State.failEngine_instant (s : State) (e : Nat) :
    (s.failEngine e).instant = s.instant := by simp [State.failEngine]
@[simp] theorem State.failCore_instant (s : State) (c : Nat) : (s.failCore c).instant = s.instant := by simp [State.failCore]
@[simp] theorem State.barLink_instant (s : State) (n : Nat) : (s.barLink n).instant = s.instant := by simp [State.barLink]
@[simp] theorem State.failUnit_instant (s : State) (sel : Nat) : (s.failUnit sel).instant = s.instant := by simp [State.failUnit]
@[simp] theorem State.failServed_instant (s : State) (sels : List Nat) : (s.failServed sels).instant = s.instant := by
  simp [State.failServed]
@[simp] theorem State.sliceEnded_instant (s : State) (r : TestRun) (sig : Option Nat) (fails : List Nat) :
    (s.sliceEnded r sig fails).instant = s.instant := by simp [State.sliceEnded]
@[simp] theorem State.startupEnded_instant (s : State) (q : Nat) (sig : Option Nat) (fails : List Nat) :
    (s.startupEnded q sig fails).instant = s.instant := by
  unfold State.startupEnded
  split <;> simp
@[simp] theorem execLogicTestDone_keepsInstant (u : TestUnit) (sig : BitVec 64) (fails : List (Fin 185)) (tie : Bool)
    (s : State) :
    s.KeepsInstant (execLogicTestDone u sig fails tie s) := by
  simp only [execLogicTestDone]
  repeat' split
  all_goals simp
@[simp] theorem execLogicTestTimeout_keepsInstant (u : TestUnit) (s : State) : s.KeepsInstant (execLogicTestTimeout u s) := by
  simp only [execLogicTestTimeout]
  repeat' split
  all_goals simp
@[simp] theorem execEngineDrainDone_keepsInstant (e : Fin 128) (s : State) : s.KeepsInstant (execEngineDrainDone e s) := by
  unfold execEngineDrainDone
  split <;> simp
@[simp] theorem State.riserEnded_instant (s : State) (r : TestRun) (outcome : Nat) :
    (s.riserEnded r outcome).instant = s.instant := by
  simp [State.riserEnded]
@[simp] theorem execRiserTestStepDone_keepsInstant (bad : List (BitVec 8)) (s : State) :
    s.KeepsInstant (execRiserTestStepDone bad s) := by
  simp only [execRiserTestStepDone]
  split
  · simp
  split
  · simp
  · split <;> simp
@[simp] theorem State.copyToSlot_instant (s : State) (t bank row col n : Nat) :
    (s.copyToSlot t bank row col n).instant = s.instant := by
  simp [State.copyToSlot]
@[simp] theorem State.restoreBurst_instant (s : State) (t bank row col n : Nat) :
    (s.restoreBurst t bank row col n).instant = s.instant := by
  simp [State.restoreBurst]
@[simp] theorem State.spoilBurst_instant (s : State) (t bank row col : Nat) :
    (s.spoilBurst t bank row col).instant = s.instant := by
  simp [State.spoilBurst]
@[simp] theorem State.probeFails_instant (s : State) (r : TestRun) : (s.probeFails r).instant = s.instant := by
  unfold State.probeFails
  split <;> simp
@[simp] theorem State.holdRow_instant (s : State) (r : TestRun) : (s.holdRow r).instant = s.instant := by simp [State.holdRow]
@[simp] theorem State.restoreStep_instant (s : State) (r : TestRun) :
    (s.restoreStep r).instant = s.instant := by simp [State.restoreStep]
@[simp] theorem execRowTestStep_keepsInstant (c : Channel) (differs lost : Bool) (s : State) :
    s.KeepsInstant (execRowTestStep c differs lost s) := by
  simp only [execRowTestStep]
  repeat' split
  all_goals simp
@[simp] theorem State.copyLines_instant (s : State) (l : Nat → LLine) (src dst : Nat → LLine) :
    (s.copyLines l src dst).instant = s.instant := by
  simp [State.copyLines]
@[simp] theorem State.copyBank_instant (s : State) (q src dst : Nat) : (s.copyBank q src dst).instant = s.instant := by
  simp [State.copyBank]
@[simp] theorem State.parkBank_instant (s : State) (q b n : Nat) :
    (s.parkBank q b n).instant = s.instant := by simp [State.parkBank]
@[simp] theorem State.unparkBank_instant (s : State) (q b n : Nat) :
    (s.unparkBank q b n).instant = s.instant := by simp [State.unparkBank]
@[simp] theorem State.setSpareBank_instant (s : State) (q : Nat) (b : Option Nat) : (s.setSpareBank q b).instant = s.instant := by
  simp [State.setSpareBank]
@[simp] theorem State.toStandIn_instant (s : State) (r : TestRun) : (s.toStandIn r).instant = s.instant := by
  unfold State.toStandIn
  split <;> simp
@[simp] theorem State.fromStandIn_instant (s : State) (r : TestRun) : (s.fromStandIn r).instant = s.instant := by
  unfold State.fromStandIn
  split <;> simp
@[simp] theorem State.holdBank_instant (s : State) (r : TestRun) : (s.holdBank r).instant = s.instant := by simp [State.holdBank]
@[simp] theorem State.marchEnded_instant (s : State) (q : Nat) (bad : List Nat) : (s.marchEnded q bad).instant = s.instant := by
  simp [State.marchEnded]
@[simp] theorem execLarderBankTestStep_keepsInstant (q : Quad) (lines : List (Fin 2048)) (banks : List (Fin 129)) (s : State) :
    s.KeepsInstant (execLarderBankTestStep q lines banks s) := by
  simp only [execLarderBankTestStep]
  repeat' split
  all_goals simp
@[simp] theorem execTestYield_keepsInstant (u : TestUnit) (s : State) : s.KeepsInstant (execTestYield u s) := by
  simp only [execTestYield]
  repeat' split
  all_goals simp
@[simp] theorem execYieldRetryExpiry_keepsInstant (u : TestUnit) (delay : Bool) (s : State) :
    s.KeepsInstant (execYieldRetryExpiry u delay s) := by
  simp only [execYieldRetryExpiry]
  repeat' split
  all_goals simp
@[simp] theorem State.returnEngine_instant (s : State) (r : TestRun) : (s.returnEngine r).instant = s.instant := by
  simp [State.returnEngine]
@[simp] theorem State.returnRow_instant (s : State) (r : TestRun) :
    (s.returnRow r).instant = s.instant := by simp [State.returnRow]
@[simp] theorem State.returnBank_instant (s : State) (r : TestRun) :
    (s.returnBank r).instant = s.instant := by simp [State.returnBank]
@[simp] theorem State.releaseRow_instant (s : State) (h : Nat × Nat × Nat) : (s.releaseRow h).instant = s.instant := by
  simp [State.releaseRow]
@[simp] theorem State.switchRemap_instant (s : State) (r : RemapRun) (ok : Bool) : (s.switchRemap r ok).instant = s.instant := by
  simp [State.switchRemap]
@[simp] theorem State.switchPerm_instant (s : State) (q : Nat) :
    (s.switchPerm q).instant = s.instant := by simp [State.switchPerm]
@[simp] theorem State.reloadFails_instant (s : State) (r : TestRun) :
    (s.reloadFails r).instant = s.instant := by simp [State.reloadFails]
@[simp] theorem execUnitReturnSwitch_keepsInstant (u : TestUnit) (ok : Bool) (bad : List (BitVec 8)) (s : State) :
    s.KeepsInstant (execUnitReturnSwitch u ok bad s) := by
  simp only [execUnitReturnSwitch]
  repeat' split
  all_goals simp
@[simp] theorem State.noteStart_instant (s : State) (k : Nat × Nat) (went : Bool) : (s.noteStart k went).instant = s.instant := by
  simp [State.noteStart]
@[simp] theorem execInfieldTestDue_keepsInstant (u : TestUnit) (s : State) : s.KeepsInstant (execInfieldTestDue u s) := by
  simp only [execInfieldTestDue]
  repeat' split
  all_goals simp
@[simp] theorem execTestRun_keepsInstant (n : Lb) (s : State) : s.KeepsInstant (execTestRun n s) := by
  refine State.command_keepsInstant _ _ _ _ _ fun L u => ?_
  split
  · simp
  split
  · simp
  split <;> simp
@[simp] theorem execTestResult_keepsInstant (n : Lb) (s : State) : s.KeepsInstant (execTestResult n s) := by
  refine State.command_keepsInstant _ _ _ _ _ fun L u => ?_
  split
  · simp
  split <;> simp
@[simp] theorem execTestSchedule_keepsInstant (n : Lb) (s : State) : s.KeepsInstant (execTestSchedule n s) := by
  refine State.command_keepsInstant _ _ _ _ _ fun L u => ?_
  split
  · simp
  split
  · simp
  · next hu => simp [State.sessionFor_instant hu]
@[simp] theorem execRetireRestore_keepsInstant (n : Lb) (s : State) : s.KeepsInstant (execRetireRestore n s) := by
  refine State.command_keepsInstant _ _ _ _ _ fun L u => ?_
  dsimp only
  repeat' split
  all_goals simp
@[simp] theorem State.abandonTest_instant (s : State) (r : TestRun) :
    (s.abandonTest r).instant = s.instant := by simp [State.abandonTest]
@[simp] theorem State.abandonTests_instant (s : State) : s.abandonTests.instant = s.instant := by simp [State.abandonTests]
@[simp] theorem State.displace_instant (s : State) : (s.displace).1.instant = s.instant := by
  simp only [State.displace]
  split <;> simp
@[simp] theorem execSpareRiserMove_keepsInstant (c : Channel) (s : State) : s.KeepsInstant (execSpareRiserMove c s) := by
  unfold execSpareRiserMove
  split <;> simp

/-! ### Operations of Machine/Strongroom.lean -/

@[simp] theorem State.showMeas_instant (s : State) : s.showMeas.instant = s.instant := by simp [State.showMeas]
@[simp] theorem State.rejectImage_instant (s : State) (code : Nat) :
    (s.rejectImage code).instant = s.instant := by simp [State.rejectImage]
@[simp] theorem State.copyStores_instant (s : State) (slot lo hi : Nat) : (s.copyStores slot lo hi).instant = s.instant := by
  simp [State.copyStores]
@[simp] theorem State.fwState_instant (s : State) (event code : Nat) :
    (s.fwState event code).instant = s.instant := by simp [State.fwState]
@[simp] theorem State.deriveIdentity_instant (s : State) : s.deriveIdentity.instant = s.instant := by simp [State.deriveIdentity]
@[simp] theorem State.startTrust_instant (s : State) : s.startTrust.instant = s.instant := by simp [State.startTrust]
@[simp] theorem State.coldSense_instant (s : State) (fuses : List (Fin 2048 × Word × Word × Word)) :
    (s.coldSense fuses).instant = s.instant := by
  simp [State.coldSense]
@[simp] theorem State.runImage_instant (s : State) (slot : Nat) :
    (s.runImage slot).instant = s.instant := by simp [State.runImage]
@[simp] theorem State.strongScan_instant (s : State) (sig : Option (BitVec 64)) : (s.strongScan sig).2.instant = s.instant := by
  simp only [State.strongScan]
  repeat' split
  all_goals simp
@[simp] theorem State.trySlots_instant (ks : List Nat) (s : State) : (State.trySlots ks s).2.2.instant = s.instant := by
  induction ks generalizing s with
  | nil => rfl
  | cons k ks ih =>
    simp only [State.trySlots]
    split <;> simp [ih]
@[simp] theorem execStrongroomBoot_keepsInstant (fuses : List (Fin 2048 × Word × Word × Word)) (sig : Option (BitVec 64))
    (s : State) :
    s.KeepsInstant (execStrongroomBoot fuses sig s) := by
  simp [execStrongroomBoot]
  repeat' split
  all_goals simp_all
@[simp] theorem execSecAttest_keepsInstant (n : Lb) (s : State) : s.KeepsInstant (execSecAttest n s) := by
  refine State.command_keepsInstant _ _ _ _ _ fun L u => ?_
  dsimp only
  repeat' split
  all_goals simp
@[simp] theorem State.dropNonce_instant (s : State) : s.dropNonce.instant = s.instant := by simp [State.dropNonce]
@[simp] theorem execSecChallenge_keepsInstant (n : Lb) (s : State) : s.KeepsInstant
    (execSecChallenge n s) := by simp [execSecChallenge]
@[simp] theorem execNonceLapse_keepsInstant (s : State) : s.KeepsInstant (execNonceLapse s) := by
  unfold execNonceLapse
  split <;> simp
@[simp] theorem State.signFailed_instant (s : State) (by_ : Signer) :
    (s.signFailed by_).instant = s.instant := by simp [State.signFailed]
@[simp] theorem execSecUnlock_keepsInstant (n : Lb) (tie : Bool) (s : State) : s.KeepsInstant (execSecUnlock n tie s) := by
  refine State.command_keepsInstant _ _ _ _ _ fun L u => ?_
  dsimp only
  repeat' split
  all_goals simp
@[simp] theorem execUnlockExpiry_keepsInstant (s : State) : s.KeepsInstant (execUnlockExpiry s) := by
  unfold execUnlockExpiry
  split <;> simp
@[simp] theorem State.burnMove_instant (s : State) (n dst : Nat) (obs : BurnObs) :
    (s.burnMove n dst obs).instant = s.instant := by
  simp [State.burnMove]
@[simp] theorem execSecLifecycleMove_keepsInstant (n : Lb) (obs : BurnObs) (tie : Bool) (s : State) :
    s.KeepsInstant (execSecLifecycleMove n obs tie s) := by
  refine State.command_keepsInstant _ _ _ _ _ fun L u => ?_
  dsimp only
  repeat' split
  all_goals simp
@[simp] theorem execLifecycleEffect_keepsInstant (s : State) : s.KeepsInstant (execLifecycleEffect s) := by
  simp only [execLifecycleEffect]
  split
  · simp
  · simp
@[simp] theorem State.restartBut_instant (s : State) (n c : Nat) :
    (s.restartBut n c).instant = s.instant := by simp [State.restartBut]
@[simp] theorem execReturnedWipeDone_keepsInstant (s : State) : s.KeepsInstant (execReturnedWipeDone s) := by
  unfold execReturnedWipeDone
  split <;> simp
@[simp] theorem execSecLifecycleRevoke_keepsInstant (n : Lb) (obs : BurnObs) (tie : Bool) (s : State) :
    s.KeepsInstant (execSecLifecycleRevoke n obs tie s) := by
  refine State.command_keepsInstant _ _ _ _ _ fun L u => ?_
  dsimp only
  repeat' split
  all_goals simp
@[simp] theorem execSecWdKick_keepsInstant (c : Quad) (tie : Bool) (s : State) : s.KeepsInstant (execSecWdKick c tie s) := by
  simp [execSecWdKick]
@[simp] theorem State.checkStore_instant (s : State) : s.checkStore.instant = s.instant := by simp [State.checkStore]
@[simp] theorem execParlourWatchdogExpiry_keepsInstant (c : Quad) (upsets : List (BitVec 21 × BitVec 8)) (s : State) :
    s.KeepsInstant (execParlourWatchdogExpiry c upsets s) := by simp [execParlourWatchdogExpiry]
@[simp] theorem execStrongroomWatchdogExpiry_keepsInstant (kick : Bool) (s : State) :
    s.KeepsInstant (execStrongroomWatchdogExpiry kick s) := by
  simp [execStrongroomWatchdogExpiry]
@[simp] theorem State.programSlot_instant (s : State) (have_ : Tab Nat) (off : Nat) (bs : List Byte) :
    (s.programSlot have_ off bs).instant = s.instant := by simp [State.programSlot]
@[simp] theorem execFwLoad_keepsInstant (n : Lb) (s : State) : s.KeepsInstant (execFwLoad n s) := by simp [execFwLoad]
@[simp] theorem State.rollOver_instant (s : State) (n slot : Nat) (late : Bool) :
    (s.rollOver n slot late).instant = s.instant := by
  simp [State.rollOver]
@[simp] theorem execFwActivateTry_keepsInstant (n : Lb) (s : State) : s.KeepsInstant
    (execFwActivateTry n s) := by simp [execFwActivateTry]
@[simp] theorem execFwActivateCommit_keepsInstant (n : Lb) (obs : BurnObs) (s : State) :
    s.KeepsInstant (execFwActivateCommit n obs s) := by
  refine State.command_keepsInstant _ _ _ _ _ fun L u => ?_
  dsimp only
  repeat' split
  all_goals simp
@[simp] theorem execFwActivateRevert_keepsInstant (n : Lb) (s : State) : s.KeepsInstant (execFwActivateRevert n s) := by
  simp [execFwActivateRevert]
@[simp] theorem execFwStatus_keepsInstant (n : Lb) (s : State) : s.KeepsInstant (execFwStatus n s) := by simp [execFwStatus]

/-! ### Operations of Machine/Power.lean -/

@[simp] theorem execModeGet_keepsInstant (n : Lb) (s : State) : s.KeepsInstant (execModeGet n s) := by simp [execModeGet]
@[simp] theorem State.planChange_instant (s : State) (c : ModeChange) :
    (s.planChange c).instant = s.instant := by simp [State.planChange]
@[simp] theorem execModeSet_keepsInstant (n : Lb) (s : State) : s.KeepsInstant (execModeSet n s) := by simp [execModeSet]
@[simp] theorem State.startDrain_instant (s : State) (b n : Nat) :
    (s.startDrain b n).instant = s.instant := by simp [State.startDrain]
@[simp] theorem execModeChangeBoundary_keepsInstant (s : State) : s.KeepsInstant (execModeChangeBoundary s) := by
  simp only [execModeChangeBoundary]
  repeat' split
  all_goals simp
@[simp] theorem State.forcePark_instant (s : State) (n : Nat) : (s.forcePark n).instant = s.instant := by simp [State.forcePark]
@[simp] theorem execCoolPark_keepsInstant (l : Link) (s : State) : s.KeepsInstant (execCoolPark l s) := by simp [execCoolPark]
@[simp] theorem execCoolParkTimeout_keepsInstant (l : Link) (s : State) : s.KeepsInstant (execCoolParkTimeout l s) := by
  simp [execCoolParkTimeout]
@[simp] theorem State.flushSpill_instant (s : State) (q : Nat) :
    (s.flushSpill q).instant = s.instant := by simp [State.flushSpill]
@[simp] theorem execRetentionDrainDone_keepsInstant (tie : Bool) (s : State) : s.KeepsInstant (execRetentionDrainDone tie s) := by
  unfold execRetentionDrainDone
  split <;> simp
@[simp] theorem execRetentionDrainTimeout_keepsInstant (s : State) : s.KeepsInstant (execRetentionDrainTimeout s) := by
  unfold execRetentionDrainTimeout
  split <;> simp
@[simp] theorem State.exitRiser_instant (s : State) (r : Nat) : (s.exitRiser r).instant = s.instant := by simp [State.exitRiser]
@[simp] theorem State.takePointers_instant (s : State) (t : Nat) :
    (s.takePointers t).instant = s.instant := by simp [State.takePointers]
@[simp] theorem State.zeroGranules_instant (s : State) : s.zeroGranules.instant = s.instant := by simp [State.zeroGranules]
@[simp] theorem execBrownOut_keepsInstant (rail : Fin 6) (s : State) : s.KeepsInstant
    (execBrownOut rail s) := by simp [execBrownOut]
@[simp] theorem State.failDomain_instant (s : State) (d : Nat) :
    (s.failDomain d).instant = s.instant := by simp [State.failDomain]
@[simp] theorem execDomainFault_keepsInstant (d : Fin 96) (s : State) : s.KeepsInstant
    (execDomainFault d s) := by simp [execDomainFault]
@[simp] theorem State.startTraining_instant (s : State) : s.startTraining.instant = s.instant := by simp [State.startTraining]
@[simp] theorem State.enterLinks_instant (s : State) : s.enterLinks.instant = s.instant := by simp [State.enterLinks]
@[simp] theorem execBootPhaseAdvance_keepsInstant (fuses : List (Fin 2048 × Word × Word × Word)) (s : State) :
    s.KeepsInstant (execBootPhaseAdvance fuses s) := by
  simp only [execBootPhaseAdvance]
  repeat' split
  all_goals simp
@[simp] theorem execBootTimeout_keepsInstant (s : State) : s.KeepsInstant (execBootTimeout s) := by simp [execBootTimeout]
@[simp] theorem State.keepFaults_instant (s old : State) : (s.keepFaults old).instant = s.instant := by simp [State.keepFaults]
@[simp] theorem State.warm_instant (s : State) : s.warm.instant = s.instant := by simp [State.warm]
@[simp] theorem execWarmReset_keepsInstant (s : State) : s.KeepsInstant (execWarmReset s) := by simp [execWarmReset]
@[simp] theorem execWarmResetRelease_keepsInstant (s : State) : s.KeepsInstant
    (execWarmResetRelease s) := by simp [execWarmResetRelease]

/-! ### Operations of Machine/RegRows.lean -/

@[simp] theorem execRegwr_keepsInstant (l : Link) (late : Bool) (s : State) : s.KeepsInstant (execRegwr l late s) := by
  simp only [execRegwr]
  repeat' split
  all_goals simp
@[simp] theorem execRegrd_keepsInstant (l : Link) (late : Bool) (s : State) : s.KeepsInstant (execRegrd l late s) := by
  simp only [execRegrd]
  repeat' split
  all_goals simp
@[simp] theorem execSbStatus_keepsInstant (s : State) : s.KeepsInstant (execSbStatus s) := by simp [execSbStatus]
@[simp] theorem execSbRead_keepsInstant (addr : BitVec 24) (late : Bool) (s : State) :
    s.KeepsInstant (execSbRead addr late s) := by
  simp [execSbRead]
@[simp] theorem execSbWrite_keepsInstant (addr : BitVec 24) (data : Word) (late : Bool) (s : State) :
    s.KeepsInstant (execSbWrite addr data late s) := by
  simp only [execSbWrite]
  repeat' split
  all_goals simp
@[simp] theorem execSbUnknownOpcode_keepsInstant (_op : BitVec 8) (s : State) : s.KeepsInstant (execSbUnknownOpcode _op s) := by
  simp [execSbUnknownOpcode]
@[simp] theorem execSbCsRise_keepsInstant (received : Option (BitVec 24 × Word)) (late : Bool) (s : State) :
    s.KeepsInstant (execSbCsRise received late s) := by
  unfold execSbCsRise
  repeat' split
  all_goals simp
@[simp] theorem execMbxClaimTimeout_keepsInstant (n : Lb) (tie : Bool) (s : State) :
    s.KeepsInstant (execMbxClaimTimeout n tie s) := by
  simp [execMbxClaimTimeout]
@[simp] theorem execMbxDeadlineExpiry_keepsInstant (n : Lb) (tie : Bool) (s : State) :
    s.KeepsInstant (execMbxDeadlineExpiry n tie s) := by
  simp [execMbxDeadlineExpiry]
@[simp] theorem execRegisterWrite_keepsInstant (path : Path) (addr : BitVec 24) (data : Word) (late : Bool) (s : State) :
    s.KeepsInstant (execRegisterWrite path addr data late s) := by
  unfold execRegisterWrite
  repeat' split
  all_goals simp
@[simp] theorem execEngEpochLoRead_keepsInstant (t : Tile) (path : Path) (s : State) :
    s.KeepsInstant (execEngEpochLoRead t path s) := by
  simp [execEngEpochLoRead]
@[simp] theorem execLnkRetrain_keepsInstant (l : Link) (path : Path) (data : Word) (s : State) :
    s.KeepsInstant (execLnkRetrain l path data s) := by
  simp [execLnkRetrain]
@[simp] theorem execLnkHoldDown_keepsInstant (l : Link) (path : Path) (data : Word) (s : State) :
    s.KeepsInstant (execLnkHoldDown l path data s) := by
  simp [execLnkHoldDown]
@[simp] theorem execLnkRepairReq_keepsInstant (l : Link) (path : Path) (data : Word) (s : State) :
    s.KeepsInstant (execLnkRepairReq l path data s) := by
  simp [execLnkRepairReq]
@[simp] theorem execLnkCntClear_keepsInstant (l : Link) (path : Path) (data : Word) (s : State) :
    s.KeepsInstant (execLnkCntClear l path data s) := by
  simp [execLnkCntClear]
@[simp] theorem execLnkLaneErrClear_keepsInstant (l : Link) (path : Path) (data : Word) (s : State) :
    s.KeepsInstant (execLnkLaneErrClear l path data s) := by simp [execLnkLaneErrClear]
@[simp] theorem execLnkEvtLostClear_keepsInstant (path : Path) (data : Word) (s : State) :
    s.KeepsInstant (execLnkEvtLostClear path data s) := by
  simp [execLnkEvtLostClear]
@[simp] theorem execMbxBufWrite_keepsInstant (n : Lb) (i : Fin 64) (path : Path) (data : Word) (s : State) :
    s.KeepsInstant (execMbxBufWrite n i path data s) := by simp [execMbxBufWrite]
@[simp] theorem execMbxDoorbell_keepsInstant (n : Lb) (path : Path) (data : Word) (s : State) :
    s.KeepsInstant (execMbxDoorbell n path data s) := by
  simp [execMbxDoorbell]
@[simp] theorem execMbxAbort_keepsInstant (n : Lb) (path : Path) (data : Word) (s : State) :
    s.KeepsInstant (execMbxAbort n path data s) := by
  simp [execMbxAbort]
@[simp] theorem execMbxRelease_keepsInstant (n : Lb) (path : Path) (data : Word) (s : State) :
    s.KeepsInstant (execMbxRelease n path data s) := by
  simp [execMbxRelease]
@[simp] theorem execSnapshotRequest_keepsInstant (path : Path) (data : Word) (s : State) :
    s.KeepsInstant (execSnapshotRequest path data s) := by
  simp [execSnapshotRequest]
@[simp] theorem execPrtCntClear_keepsInstant (p : Port) (path : Path) (data : Word) (s : State) :
    s.KeepsInstant (execPrtCntClear p path data s) := by
  simp [execPrtCntClear]
@[simp] theorem execSchPoolOverClear_keepsInstant (t : Tile) (path : Path) (data : Word) (s : State) :
    s.KeepsInstant (execSchPoolOverClear t path data s) := by simp [execSchPoolOverClear]
@[simp] theorem execSchCntClear_keepsInstant (t : Tile) (path : Path) (data : Word) (s : State) :
    s.KeepsInstant (execSchCntClear t path data s) := by
  simp [execSchCntClear]
@[simp] theorem execEngRingConsWr_keepsInstant (path : Path) (data : Word) (s : State) :
    s.KeepsInstant (execEngRingConsWr path data s) := by
  simp [execEngRingConsWr]
@[simp] theorem execEngCntClear_keepsInstant (t : Tile) (path : Path) (data : Word) (s : State) :
    s.KeepsInstant (execEngCntClear t path data s) := by
  simp [execEngCntClear]
@[simp] theorem execEngLkCntClear_keepsInstant (t : Tile) (path : Path) (data : Word) (s : State) :
    s.KeepsInstant (execEngLkCntClear t path data s) := by simp [execEngLkCntClear]
@[simp] theorem execCelQreset_keepsInstant (path : Path) (data : Word) (s : State) :
    s.KeepsInstant (execCelQreset path data s) := by
  simp [execCelQreset]
@[simp] theorem execCelCntClear_keepsInstant (path : Path) (data : Word) (s : State) :
    s.KeepsInstant (execCelCntClear path data s) := by
  simp [execCelCntClear]
@[simp] theorem execLarCntClear_keepsInstant (q : Quad) (path : Path) (data : Word) (s : State) :
    s.KeepsInstant (execLarCntClear q path data s) := by
  simp [execLarCntClear]
@[simp] theorem execLarConfClear_keepsInstant (q : Quad) (path : Path) (data : Word) (s : State) :
    s.KeepsInstant (execLarConfClear q path data s) := by
  simp [execLarConfClear]
@[simp] theorem execEccInjArm_keepsInstant (path : Path) (data : Word) (s : State) :
    s.KeepsInstant (execEccInjArm path data s) := by
  simp [execEccInjArm]
@[simp] theorem execEccCntClear_keepsInstant (c : Channel) (path : Path) (data : Word) (s : State) :
    s.KeepsInstant (execEccCntClear c path data s) := by simp [execEccCntClear]
@[simp] theorem execVrtRepairReq_keepsInstant (r : Tile) (path : Path) (data : Word) (s : State) :
    s.KeepsInstant (execVrtRepairReq r path data s) := by
  simp [execVrtRepairReq]
@[simp] theorem execVrtCntClear_keepsInstant (r : Tile) (path : Path) (data : Word) (s : State) :
    s.KeepsInstant (execVrtCntClear r path data s) := by
  simp [execVrtCntClear]
@[simp] theorem execClkCntClear_keepsInstant (path : Path) (data : Word) (s : State) :
    s.KeepsInstant (execClkCntClear path data s) := by
  simp [execClkCntClear]
@[simp] theorem execHkpCntClear_keepsInstant (path : Path) (data : Word) (s : State) :
    s.KeepsInstant (execHkpCntClear path data s) := by
  simp [execHkpCntClear]
@[simp] theorem execThmCntClear_keepsInstant (path : Path) (data : Word) (s : State) :
    s.KeepsInstant (execThmCntClear path data s) := by
  simp [execThmCntClear]
@[simp] theorem execBstCntClear_keepsInstant (path : Path) (data : Word) (s : State) :
    s.KeepsInstant (execBstCntClear path data s) := by
  simp [execBstCntClear]
@[simp] theorem execContainRelease_keepsInstant (reg : ContainReg) (path : Path) (data : Word) (s : State) :
    s.KeepsInstant (execContainRelease reg path data s) := by simp [execContainRelease]
@[simp] theorem execFltDetClr_keepsInstant (path : Path) (data : Word) (s : State) :
    s.KeepsInstant (execFltDetClr path data s) := by
  simp [execFltDetClr]
@[simp] theorem execFltCntClear_keepsInstant (path : Path) (data : Word) (s : State) :
    s.KeepsInstant (execFltCntClear path data s) := by
  simp [execFltCntClear]
@[simp] theorem execCstCntClear_keepsInstant (path : Path) (data : Word) (s : State) :
    s.KeepsInstant (execCstCntClear path data s) := by
  simp [execCstCntClear]
@[simp] theorem execSecDbghalt_keepsInstant (path : Path) (data : Word) (s : State) :
    s.KeepsInstant (execSecDbghalt path data s) := by
  simp [execSecDbghalt]
@[simp] theorem execSecDbgmemAccess_keepsInstant (path : Path) (data : Word) (s : State) :
    s.KeepsInstant (execSecDbgmemAccess path data s) := by
  simp [execSecDbgmemAccess]
@[simp] theorem execSecCntClear_keepsInstant (path : Path) (data : Word) (s : State) :
    s.KeepsInstant (execSecCntClear path data s) := by
  simp [execSecCntClear]
@[simp] theorem execPwrWake_keepsInstant (path : Path) (data : Word) (s : State) : s.KeepsInstant (execPwrWake path data s) := by
  simp [execPwrWake]
@[simp] theorem execLinkReset_keepsInstant (path : Path) (data : Word) (s : State) :
    s.KeepsInstant (execLinkReset path data s) := by
  simp [execLinkReset]
@[simp] theorem execPwrCntClear_keepsInstant (path : Path) (data : Word) (s : State) :
    s.KeepsInstant (execPwrCntClear path data s) := by
  simp [execPwrCntClear]

/-! ### Operations of Machine/Tap.lean -/

@[simp] theorem State.modTap_instant (s : State) (f : TapSt → TapSt) : (s.modTap f).instant = s.instant := by simp [State.modTap]
@[simp] theorem State.tapRun_keepsInstant (s : State) (code : Nat) (f : State → State) (h : ∀ u, (f u).instant = u.instant) :
    s.KeepsInstant (s.tapRun code f) := by simp [State.tapRun, h]
@[simp] theorem execIdcode_keepsInstant (s : State) : s.KeepsInstant (execIdcode s) := by simp [execIdcode]
@[simp] theorem execSamplePreload_keepsInstant (pins data : BitVec 2452) (s : State) :
    s.KeepsInstant (execSamplePreload pins data s) := by
  simp [execSamplePreload]
@[simp] theorem execExtest_keepsInstant (pins data : BitVec 2452) (s : State) : s.KeepsInstant (execExtest pins data s) := by
  simp [execExtest]
@[simp] theorem execClamp_keepsInstant (s : State) : s.KeepsInstant (execClamp s) := by simp [execClamp]
@[simp] theorem execHighz_keepsInstant (s : State) : s.KeepsInstant (execHighz s) := by simp [execHighz]
@[simp] theorem execBypass_keepsInstant (s : State) : s.KeepsInstant (execBypass s) := by simp [execBypass]
@[simp] theorem execTierSel_keepsInstant (sel : BitVec 18) (s : State) : s.KeepsInstant
    (execTierSel sel s) := by simp [execTierSel]
@[simp] theorem State.setDieIr_instant (s : State) (k code : Nat) :
    (s.setDieIr k code).instant = s.instant := by simp [State.setDieIr]
@[simp] theorem execTierScan_keepsInstant (codes : List (Fin 18 × BitVec 4)) (s : State) :
    s.KeepsInstant (execTierScan codes s) := by
  simp [execTierScan]
@[simp] theorem State.dieRun_keepsInstant (s : State) (tier code : Nat) (served : Bool) (f : State → State) (h : ∀ u,
    (f u).instant = u.instant) :
    s.KeepsInstant (s.dieRun tier code served f) := by
  refine State.tapRun_keepsInstant _ _ _ fun u => ?_
  simp [h]
@[simp] theorem execDieIdcode_keepsInstant (tier : Fin 18) (s : State) : s.KeepsInstant
    (execDieIdcode tier s) := by simp [execDieIdcode]
@[simp] theorem execDwrSample_keepsInstant (tier : Fin 18) (lines : BitVec 6864) (s : State) :
    s.KeepsInstant (execDwrSample tier lines s) := by
  simp [execDwrSample]
@[simp] theorem execDwrExtest_keepsInstant (tier : Fin 18) (lines data : BitVec 6864) (s : State) :
    s.KeepsInstant (execDwrExtest tier lines data s) := by simp [execDwrExtest]
@[simp] theorem execDieReg_keepsInstant (tier : Fin 18) (write : Bool) (addr : BitVec 23) (data : Word) (late : Bool)
    (s : State) :
    s.KeepsInstant (execDieReg tier write addr data late s) := by
  simp only [execDieReg]
  repeat' split
  all_goals simp
@[simp] theorem execDieBypass_keepsInstant (tier : Fin 18) (s : State) : s.KeepsInstant
    (execDieBypass tier s) := by simp [execDieBypass]
@[simp] theorem execCoreSel_keepsInstant (sel : BitVec 8) (s : State) : s.KeepsInstant
    (execCoreSel sel s) := by simp [execCoreSel]
@[simp] theorem State.loadWir_instant (s : State) (code : Nat) : (s.loadWir code).instant = s.instant := by simp [State.loadWir]
@[simp] theorem State.scanWdr_instant (s : State) (pins data : Nat) : (s.scanWdr pins data).instant = s.instant := by
  simp only [State.scanWdr]
  repeat' split
  all_goals simp
@[simp] theorem execWirScan_keepsInstant (code : BitVec 3) (s : State) : s.KeepsInstant
    (execWirScan code s) := by simp [execWirScan]
@[simp] theorem execWdrScan_keepsInstant (pins data : Nat) (s : State) : s.KeepsInstant
    (execWdrScan pins data s) := by simp [execWdrScan]
@[simp] theorem State.wsRun_keepsInstant (s : State) (code pins data : Nat) : s.KeepsInstant (s.wsRun code pins data) := by
  simp [State.wsRun]
@[simp] theorem execWsBypass_keepsInstant (s : State) : s.KeepsInstant (execWsBypass s) := by simp [execWsBypass]
@[simp] theorem execWsExtest_keepsInstant (pins data : Nat) (s : State) : s.KeepsInstant (execWsExtest pins data s) := by
  simp [execWsExtest]
@[simp] theorem execWsIntest_keepsInstant (pins data : Nat) (s : State) : s.KeepsInstant (execWsIntest pins data s) := by
  simp [execWsIntest]
@[simp] theorem execWsPreload_keepsInstant (pins data : Nat) (s : State) : s.KeepsInstant (execWsPreload pins data s) := by
  simp [execWsPreload]
@[simp] theorem execWsLbist_keepsInstant (s : State) : s.KeepsInstant (execWsLbist s) := by simp [execWsLbist]
@[simp] theorem execWsClamp_keepsInstant (pins data : Nat) (s : State) : s.KeepsInstant
    (execWsClamp pins data s) := by simp [execWsClamp]
@[simp] theorem State.tapAccess_instant (s : State) (write : Bool) (addr : Nat) (data : Word) (late : Bool) :
    (s.tapAccess write addr data late).instant = s.instant := by simp [State.tapAccess]
@[simp] theorem execRegAccess_keepsInstant (write : Bool) (addr : BitVec 24) (data : Word) (late : Bool) (s : State) :
    s.KeepsInstant (execRegAccess write addr data late s) := by
  simp only [execRegAccess]
  repeat' split
  all_goals simp
@[simp] theorem State.secAccess_instant (s : State) (write : Bool) (addr : Nat) (data : Word) (late : Bool) :
    (s.secAccess write addr data late).instant = s.instant := by simp [State.secAccess]
@[simp] theorem execSec_keepsInstant (write : Bool) (addr : BitVec 24) (data : Word) (late : Bool) (s : State) :
    s.KeepsInstant (execSec write addr data late s) := by
  simp only [execSec]
  repeat' split
  all_goals simp
@[simp] theorem State.tapReset_instant (s : State) : s.tapReset.instant = s.instant := by simp [State.tapReset]
@[simp] theorem execTestReset_keepsInstant (access : Option TapAccess) (s : State) : s.KeepsInstant (execTestReset access s) := by
  unfold execTestReset
  repeat' split
  all_goals simp

/-! ### The operations that set the time base -/

theorem State.instant_eq_iff {s t : State} : t.instant = s.instant ↔ t.epoch = s.epoch ∧ t.frame = s.frame ∧ t.flit = s.flit := by
  simp [State.instant]

/-- R7: the flit that passes. -/
theorem State.tick_instant (s : State) :
    s.tick.instant = s.instant ∨ (s.flit < 7 ∧ s.tick.instant = (s.epoch, s.frame, s.flit + 1)) ∨
      (s.frame < 7 ∧ s.tick.instant = (s.epoch, s.frame + 1, 0)) := by
  obtain ⟨he, hf, -⟩ := State.instant_eq_iff.mp (State.flitOver_instant s)
  unfold State.tick
  split
  · exact .inl rfl
  split
  · next h =>
    refine .inr (.inl ⟨h, ?_⟩)
    rw [State.flitBegins_instant, State.instant, he, hf]
  split
  · next h =>
    refine .inr (.inr ⟨h, ?_⟩)
    rw [State.flitBegins_instant, State.instant, he]
  · exact .inl rfl

/-- R7, R145: the epoch boundary. -/
theorem execEpochBoundary_instant {lanes : List (Link × Nat)} {lines : List (Tile × Nat)} {s t : State}
    (e : execEpochBoundary lanes lines s = .next t) : t.instant = s.instant ∨ t.instant = ((s.epoch + 1) % 2 ^ 64, 0, 0) := by
  unfold execEpochBoundary at e
  split at e
  · cases e; exact .inl rfl
  extract_lets e₀ s1 s2 s3 s4 sec s5 s6 s7 s8 s9 s10 pwr s11 s12 s13 at e
  have h4 : s4.instant = ((s.epoch + 1) % 2 ^ 64, 0, 0) := State.flitBegins_instant _
  have h8 : s8.instant = s4.instant := by simp [s8, s7, s6, s5]
  have h11 : s11.instant = s4.instant := by simp [s11, s10, s9, h8]
  have h13 : s13.instant = s4.instant := by simp [s13, s12, h11]
  refine .inr (Eq.trans ?_ h4)
  split at e
  · rw [← Host.Outcome.next.inj e]
  · rw [← Host.Outcome.next.inj e]
    simp [h13]

/-- R502: the exit from RETENTION. -/
theorem execRetentionExitDone_instant {elapsed us : Nat} {bad : List Tile} {s t : State}
    (e : execRetentionExitDone elapsed us bad s = .next t) :
    t.instant = s.instant ∨ t.instant = ((s.epoch + elapsed) % 2 ^ 64, 0, 0) := by
  unfold execRetentionExitDone at e
  split at e
  · cases e; exact .inl rfl
  · extract_lets pwr s1 s2 s3 s4 thm s5 s6 s7 s8 s9 at e
    have h1 : s1.instant = ((s.epoch + elapsed) % 2 ^ 64, 0, 0) := rfl
    have h5 : s5.instant = s1.instant := by simp [s5, s4, s3, s2]
    have h9 : s9.instant = s1.instant := by simp [s9, s8, s7, s6, h5]
    refine .inr (Eq.trans ?_ h1)
    simp only [Host.Outcome.next.injEq] at e
    rw [← e]
    simp [h9]

/-- R507: PWROK rises. -/
theorem execPowerGood_instant {s t : State} (e : execPowerGood s = .next t) : t.instant = s.instant ∨ t.instant = (0, 0, 0) := by
  unfold execPowerGood at e
  split at e
  · cases e; exact .inl rfl
  · cases e; exact .inr rfl

/-- R511: the cold reset. -/
theorem execColdReset_instant {s t : State} (e : execColdReset s = .next t) : t.instant = (0, 0, 0) := by
  unfold execColdReset at e
  cases e
  rw [State.instant_foldl _ _ _ State.loseGranule_instant, State.instant_foldl _ _ _ State.loseDram_instant]
  rfl

/-- The commands that set the time base. -/
def setsTime : Instr → Bool
  | .epochBoundary .. | .retentionExitDone .. | .powerGood | .coldReset => true
  | _ => false

/-- Every other command leaves the instant as it is. -/
theorem exec_keepsInstant (i : Instr) (hi : setsTime i = false) (s : State) : s.KeepsInstant (exec i s) := by
  cases i with
  | epochBoundary | retentionExitDone | powerGood | coldReset => cases hi
  | _ => simp [exec]

/-! ### The time base stays within its epoch -/

theorem State.inTime_of_instant {s t : State} (e : t.instant = s.instant) (h : s.InTime) : t.InTime := by
  obtain ⟨-, hframe, hflit⟩ := State.instant_eq_iff.mp e
  obtain ⟨h1, h2⟩ := h
  exact ⟨hflit.trans_lt h1, hframe.trans_lt h2⟩

theorem State.inTime_of_eq {t : State} {e f x : Nat} (h : t.instant = (e, f, x)) (hf : f < 8) (hx : x < 8) : t.InTime := by
  simp only [State.instant, Prod.mk.injEq] at h
  obtain ⟨-, rfl, rfl⟩ := h
  exact ⟨hx, hf⟩

theorem State.tick_inTime {s : State} (h : s.InTime) : s.tick.InTime := by
  obtain ⟨hx, hf⟩ := id h
  rcases State.tick_instant s with e | ⟨h7, e⟩ | ⟨h7, e⟩
  · exact State.inTime_of_instant e h
  · exact State.inTime_of_eq e hf (by omega)
  · exact State.inTime_of_eq e (by omega) (by omega)

/-- A command whose end is the instant of its start or the start of an epoch. -/
theorem State.inTime_of_boundary {s t : State} {e : Nat} (ht : t.instant = s.instant ∨ t.instant = (e, 0, 0)) (h : s.InTime) :
    t.InTime :=
  ht.elim (State.inTime_of_instant · h) (State.inTime_of_eq · (by omega) (by omega))

theorem exec_inTime (i : Instr) {s t : State} (h : s.InTime) (e : exec i s = .next t) : t.InTime := by
  cases hi : setsTime i with
  | false => exact State.inTime_of_instant (exec_keepsInstant i hi s t e) h
  | true =>
    cases i with
    | epochBoundary => exact State.inTime_of_boundary (execEpochBoundary_instant e) h
    | retentionExitDone => exact State.inTime_of_boundary (execRetentionExitDone_instant e) h
    | powerGood => exact State.inTime_of_boundary (execPowerGood_instant e) h
    | coldReset => exact State.inTime_of_boundary (.inr (execColdReset_instant e)) h
    | _ => cases hi

/-- Settles O60: a command leaves the instant as it is or puts it at the start of an epoch; on an empty queue a flit passes. -/
theorem everyStepKeepsTheTimeBase : Obligations.EveryStepKeepsTheTimeBase := by
  intro s t h e
  unfold step at e
  split at e
  · cases e; exact State.tick_inTime h
  · next c rest _ => exact exec_inTime c (s := { s with pending := rest }) h e

/-! ### A merged shortfall counts its event -/

/-- Epoch 256, with a merged shortfall of tile 31 since epoch 200 whose last event went out in epoch 0: it is due (R191). -/
def shortfallDue : State :=
  { State.reset with
    pwr := { good := true, phase := 7, booted := true }
    epoch := 256
    tiles := [(31, { shortPend := some 200, shortSent := some 0 })] }

/-- The event is one of those that the collector has queued in this cycle (R431). -/
theorem shortfallMergeExpiry_queued {t : State} (e : exec .shortfallMergeExpiry shortfallDue = .next t) : t.flt.queued = 1 := by
  rw [← Host.Outcome.next.inj e]
  decide +kernel

/-- Refutes O39: its frame of the merged shortfall leaves the collector's state as it was, but the event that is sent is counted
there among those of the cycle (R61, R431). -/
theorem not_epochsBegin : ¬ Obligations.EpochsBegin := by
  rintro ⟨-, -, -, h⟩
  obtain ⟨t, ht, hframe, -⟩ := h shortfallDue
  have hflt : t.flt = shortfallDue.flt := by rw [hframe]
  have hone : t.flt.queued = 1 := shortfallMergeExpiry_queued ht
  rw [hflt] at hone
  exact absurd hone (by decide)

/-! ### A header decided after a fatal fault -/

/-- The header of a TQUERY of sub-port 0 with a tag (R64, R97). -/
def tqueryHeader (tag : Nat) : Nat := opTQUERY * 2 ^ 58 + tag * 2 ^ 47

/-- Link 0 is OPEN in the last flit of a frame with two headers of port 0 undecided. Tag 0 of the first is busy, and a busy tag is a
source of severity fatal here (R422, R432). -/
def fatalDuplicate : State :=
  let s := ((State.reset.setF (F.PRT_CTL_enable 0) 1).setF (F.FLT_SEV_sev1 14) 5).setLinkState 0 lsOpen
  { s with
    pwr := { good := true, phase := 7, booted := true }
    flit := 7
    links := [(0, { hdrs := [(0, tqueryHeader 0), (1, tqueryHeader 1)] })]
    reqs := [{ s.newReq 0 0 (Hdr.ofNat (tqueryHeader 0)) [] with tentative := false }] }

/-- The first header stops the device, and with it every link and request (R428); the second is accepted all the same, and no
decision is driven on a link that is DOWN. -/
theorem fatalDuplicate_tentative : ∃ r ∈ fatalDuplicate.tick.reqs, r.link = 0 ∧ r.tentative = true := by decide +kernel

/-- Refutes O57: without the hypothesis that no source stops the device, a header that follows the fatal one in its frame leaves a
request that stays tentative as the next frame begins. -/
theorem not_timePassesWhileIdle : ¬ Obligations.TimePassesWhileIdle := by
  intro h
  obtain ⟨t, ht, -, -, -, -, -, -, -, -, -, -, -, -, -, hdecided, -⟩ := (h fatalDuplicate rfl).2 (by decide +kernel) rfl
  have hstep : t = fatalDuplicate.tick := (Host.Outcome.next.inj ht).symm
  obtain ⟨r, hr, hlink, htent⟩ := fatalDuplicate_tentative
  obtain ⟨-, hall⟩ := hdecided rfl (by decide) 0 (by decide) (by decide +kernel)
  have hfalse := hall rfl rfl r (hstep ▸ hr) hlink
  rw [htent] at hfalse
  cases hfalse

end Sys2Proof.Machine

namespace Sys2Proof.Machine

/-! ## Host links

The rules of the operations that the commands of a link are made of, and the statements about those commands. -/

/-! ### Fields -/

@[simp] theorem State.fv_modLink (s : State) (n : Nat) (f : LinkSt → LinkSt) (g : Fld) : (s.modLink n f).fv g = s.fv g := rfl
@[simp] theorem State.fb_modLink (s : State) (n : Nat) (f : LinkSt → LinkSt) (g : Fld) : (s.modLink n f).fb g = s.fb g := rfl

theorem State.linkTalks_of_open {s : State} {n : Nat} (h : s.linkState n = lsOpen) : s.linkTalks n = true := by
  simp [State.linkTalks, h]

theorem Fld.apart_symm {f g : Fld} (h : f.apart g) : g.apart f := h.imp Ne.symm Or.symm

/-- A field of one bit that has been set tells so. -/
theorem State.fb_setF_self (s : State) (f : Fld) (v : Nat) (hv : v < 2) (hl : f.lo < 32) (hw : f.width = 1) :
    (s.setF f v).fb f = decide (v = 1) := by
  have h : (s.setF f v).fv f = v := by
    rw [State.fv_setF_self _ _ _ (by omega), hw]
    omega
  unfold State.fb
  rw [h]
  interval_cases v <;> rfl

theorem State.fb_setF_ne (s : State) {f g : Fld} (v : Nat) (h : f.apart g) : (s.setF f v).fb g = s.fb g := by
  unfold State.fb
  rw [State.fv_setF_ne s v h]

/-- Both copies of a field's register read as before, so the field does. -/
theorem State.fv_congr {s t : State} {f : Fld} (hl : t.live.val f.addr = s.live.val f.addr) (ha : t.active = s.active) :
    t.fv f = s.fv f := by
  unfold State.fv RegMap.fv
  rw [hl, ha]

theorem State.inc_live (s : State) (f : Fld) (h : f.cfg = false) :
    s.inc f = { s with live := s.live.setF f (satAdd f.width (s.fv f) 1) } := State.setF_live s f _ h

/-- The severities are configuration (R432). -/
theorem State.severityOf_congr {s t : State} (h : t.active = s.active) (src : Nat) : t.severityOf src = s.severityOf src := by
  unfold State.severityOf
  rw [h]

/-! ### What a command of a link leaves alone -/

/-- `t` is `s` but for link `n` and the live registers `as`. -/
def LinkOnly (n : Nat) (as : List Nat) (s t : State) : Prop :=
  t = { s with links := t.links, live := t.live } ∧ LinksBut n s t ∧ LiveBut as s t

namespace LinkOnly

variable {n : Nat} {as : List Nat} {s t u : State}

theorem refl (n : Nat) (as : List Nat) (s : State) : LinkOnly n as s s := ⟨rfl, LinksBut.refl n s, LiveBut.refl as s⟩

theorem trans (h : LinkOnly n as s t) (h' : LinkOnly n as t u) : LinkOnly n as s u := by
  refine ⟨?_, h.2.1.trans h'.2.1, h.2.2.trans h'.2.2 (List.Subset.refl _) (List.Subset.refl _)⟩
  rw [h'.1, h.1]

theorem modLink (h : LinkOnly n as s t) (f : LinkSt → LinkSt) : LinkOnly n as s (t.modLink n f) :=
  h.trans ⟨rfl, fun _ hk => t.link_modLink_ne f hk, LiveBut.refl as t⟩

theorem setF (h : LinkOnly n as s t) (f : Fld) (v : Nat) (hc : f.cfg = false) (ha : f.addr ∈ as) : LinkOnly n as s (t.setF f v) := by
  refine h.trans ?_
  rw [State.setF_live _ _ _ hc]
  exact ⟨rfl, LinksBut.refl n t, fun a hm => RegMap.val_setF_ne _ _ _ fun e => hm (e ▸ ha)⟩

theorem inc (h : LinkOnly n as s t) (f : Fld) (hc : f.cfg = false) (ha : f.addr ∈ as) : LinkOnly n as s (t.inc f) :=
  h.setF f _ hc ha

theorem live_put (h : LinkOnly n as s t) (a : Nat) (w : Word) (ha : a ∈ as) : LinkOnly n as s { t with live := t.live.put a w } :=
  h.trans ⟨rfl, LinksBut.refl n t, fun _ hm => RegMap.val_put_ne _ _ fun e => hm (e ▸ ha)⟩

end LinkOnly

/-- A single update of link `n`. -/
theorem State.modLink_only (s : State) (n : Nat) (f : LinkSt → LinkSt) :
    s.modLink n f = { s with links := (s.modLink n f).links } ∧ LinksBut n s (s.modLink n f) :=
  ⟨rfl, fun _ h => s.link_modLink_ne f h⟩

/-! ### Sending -/

/-- Of the states only the responses that wait on the link, the requests, the sent tags and the frame matter. -/
theorem FreedBy.congr {n : Nat} {s s' t t' : State} (h : FreedBy n s' t')
    (ho : ∀ f ∈ (s'.link n).out, f ∈ (s.link n).out ∨ f.resp = none) (hr : s'.reqs = s.reqs) (ht : s'.sentTags = s.sentTags)
    (hf : s'.absFrame = s.absFrame) (hr' : t.reqs = t'.reqs) (ht' : t.sentTags = t'.sentTags) : FreedBy n s t := by
  obtain ⟨ks, hks, hreqs, htags⟩ := h
  refine ⟨ks, fun k hk => ?_, by rw [hr', hreqs, hr], fun x hx => ?_⟩
  · obtain ⟨f, hm, htyp, hresp⟩ := hks k hk
    refine ⟨f, (ho f hm).resolve_right ?_, htyp, hresp⟩
    simp [hresp]
  · have := htags x (ht' ▸ hx)
    rwa [ht, hf] at this

theorem FreedBy.of_eq {n : Nat} {s t : State} (hr : t.reqs = s.reqs) (ht : t.sentTags = s.sentTags) : FreedBy n s t :=
  ⟨[], by simp, by simp [hr], fun x hx => .inl (ht ▸ hx)⟩

/-- An update of the link that queues no response, and then sending. -/
theorem LinkSends.of_modLink {n : Nat} {s t : State} {f : LinkSt → LinkSt}
    (ho : ∀ x ∈ (f (s.link n)).out, x ∈ (s.link n).out ∨ x.resp = none) (h : LinkSends n (s.modLink n f) t) : LinkSends n s t := by
  obtain ⟨he, hl, hf⟩ := h
  refine ⟨he, fun k hk => (hl k hk).trans (s.link_modLink_ne f hk), hf.congr ?_ rfl rfl rfl rfl rfl⟩
  rwa [State.link_modLink_self]

/-- Sending, and then an update of the link. -/
theorem LinkSends.modLink {n : Nat} {s t : State} (h : LinkSends n s t) (f : LinkSt → LinkSt) : LinkSends n s (t.modLink n f) := by
  obtain ⟨he, hl, hf⟩ := h
  refine ⟨?_, fun k hk => (t.link_modLink_ne f hk).trans (hl k hk), hf⟩
  conv_lhs => rw [he]
  rfl

theorem LinkSends.live {n : Nat} {s t : State} (h : LinkSends n s t) : t.live = s.live := by rw [h.1]

theorem LinkSends.fv {n : Nat} {s t : State} (h : LinkSends n s t) (f : Fld) : t.fv f = s.fv f :=
  State.fv_congr (by rw [h.live]) (by rw [h.1])

theorem LinkSends.linkState {n : Nat} {s t : State} (h : LinkSends n s t) (k : Nat) : t.linkState k = s.linkState k := h.fv _

theorem State.sendFlit_sends (s : State) (n typ : Nat) (p : Payload) : LinkSends n s (s.sendFlit n typ p) :=
  .of_modLink (fun x hx => (List.mem_append.mp hx).imp_right fun h => by rw [List.mem_singleton.mp h]) (State.pump_sends _ n).1

theorem State.sendMgmt_sends (s : State) (n : Nat) (p : Payload) : LinkSends n s (s.sendMgmt n p) :=
  .of_modLink (fun _ => .inl) (State.sendFlit_sends _ n 5 p)

theorem State.sideIn_sends (s : State) (n : Nat) (side : BitVec 48) : LinkSends n s (s.sideIn n side) :=
  .of_modLink (fun _ => .inl) (State.pump_sends _ n).1

/-- Sending with nothing else done. -/
theorem LinkSends.moves {n : Nat} {s t : State} (h : LinkSends n s t) (as : List Nat) : LinkMoves n as s t := by
  obtain ⟨hs, hl, hb⟩ := h.step as
  exact ⟨hs, hl, hb, h.2.2⟩

/-- A step of the link that leaves the flits waiting, and then sending. -/
theorem LinkOnly.moves {n : Nat} {as : List Nat} {s t u : State} (h : LinkOnly n as s t)
    (ho : (t.link n).out = (s.link n).out) (h' : LinkMoves n as t u) : LinkMoves n as s u := by
  obtain ⟨he, hl, hb⟩ := h
  obtain ⟨he', hl', hb', hf'⟩ := h'
  have hreqs : t.reqs = s.reqs := by rw [he]
  have htags : t.sentTags = s.sentTags := by rw [he]
  have hframe : t.absFrame = s.absFrame := by rw [he]; rfl
  refine ⟨?_, hl.trans hl', hb.trans hb' (List.Subset.refl _) (List.Subset.refl _),
    hf'.congr (fun _ hm => .inl (ho ▸ hm)) hreqs htags hframe rfl rfl⟩
  rw [he', he]

/-- A step that sends nothing. -/
theorem LinkOnly.still {n : Nat} {as : List Nat} {s t : State} (h : LinkOnly n as s t) : LinkMoves n as s t := by
  obtain ⟨he, hl, hb⟩ := h
  refine ⟨?_, hl, hb, .of_eq ?_ ?_⟩ <;> rw [he]

/-- Sending, and then the count of it. -/
theorem LinkMoves.inc {n : Nat} {as : List Nat} {s t : State} (h : LinkMoves n as s t) (f : Fld) (hc : f.cfg = false)
    (ha : f.addr ∈ as) : LinkMoves n as s (t.inc f) := by
  obtain ⟨he, hl, hb, hf⟩ := h
  obtain ⟨he', hl', hb'⟩ := LinkStep.inc n as t f hc ha
  refine ⟨?_, hl.trans hl', hb.trans hb' (List.Subset.refl _) (List.Subset.refl _),
    hf.congr (fun _ => .inl) rfl rfl rfl (State.inc_reqs t f) (State.inc_sentTags t f)⟩
  rw [he', he]

/-- What goes out next waits behind nothing that it did not wait behind before: a pump moves flits from the queue to the replay
buffer, in order (R36). -/
theorem pumpLoop_flits (k : Nat) (L : LinkSt) : (pumpLoop k L).1.flits = L.flits := by
  induction k generalizing L with
  | zero => rfl
  | succ k ih =>
    unfold pumpLoop
    split
    · rfl
    · next f rest ho =>
      split
      · exact (ih _).trans (by simp [LinkSt.flits, LinkSt.sendNew, LinkSt.transmit, ho])
      · rfl

@[simp] theorem State.pump_flits (s : State) (n : Nat) : ((s.pump n).link n).flits = (s.link n).flits := by
  rw [(s.pump_sends n).2]
  split
  · exact pumpLoop_flits _ _
  · rfl

@[simp] theorem State.sendFlit_flits (s : State) (n typ : Nat) (p : Payload) :
    ((s.sendFlit n typ p).link n).flits = (s.link n).flits ++ [(typ, p)] := by
  rw [State.sendFlit, State.queueFlit, State.pump_flits, State.link_modLink_self]
  simp [LinkSt.flits]

@[simp] theorem State.sendMgmt_flits (s : State) (n : Nat) (p : Payload) :
    ((s.sendMgmt n p).link n).flits = (s.link n).flits ++ [(5, p)] := by
  rw [State.sendMgmt, State.sendFlit_flits, State.link_modLink_self]
  rfl

/-- A MGMT flit leaves all of a link alone but what sending moves, and the count of idle epochs. -/
theorem State.sendMgmt_keeps (s : State) (n : Nat) (p : Payload) {α : Type} (f : LinkSt → α) (hf : Unsent f)
    (hi : ∀ L : LinkSt, f { L with idle := 0 } = f L) : f ((s.sendMgmt n p).link n) = f (s.link n) := by
  unfold State.sendMgmt
  rw [State.sendFlit_keeps _ _ _ _ f hf, State.link_modLink_self, hi]

end Sys2Proof.Machine

namespace Sys2Proof.Machine

/-- What receiving a flit with a good CRC leaves alone in a link: all but what sending and acknowledgement move, a RETRY that is noted,
and the count of idle epochs. -/
def Unreceived {α : Type} (f : LinkSt → α) : Prop :=
  ∀ (L : LinkSt) o h t w r q a x i, f { L with out := o, held := h, txSeq := t, wire := w, retryOwed := r, replayQ := q, replayAck := a
                                               retryRx := x, idle := i } = f L

/-! ### A REQ flit -/

section
variable {l : Link} {side : BitVec 48} {data : Payload} {s : State} (hopen : s.linkState l.val = lsOpen)
  (htype : sideType side = 1) (hflit : s.flit < 4)

/-- A REQ flit with a good CRC (R22), in flits 0-3 of an OPEN link, once its side field has been taken. -/
def State.reqFlitIn (s : State) (n : Nat) (side : BitVec 48) : State := (s.sideIn n side).modLink n fun L => { L with idle := 0 }

theorem State.reqFlitIn_sends (s : State) (n : Nat) (side : BitVec 48) : LinkSends n s (s.reqFlitIn n side) :=
  (s.sideIn_sends n side).modLink _

theorem State.reqFlitIn_keeps (s : State) (n : Nat) (side : BitVec 48) {α : Type} (f : LinkSt → α) (hf : Unreceived f) :
    f ((s.reqFlitIn n side).link n) = f (s.link n) := by
  have hsent : Unsent f := fun L o h t w r => hf L o h t w r L.replayQ L.replayAck L.retryRx L.idle
  have hidle : ∀ L : LinkSt, f { L with idle := 0 } = f L :=
    fun L => hf L L.out L.held L.txSeq L.wire L.retryOwed L.replayQ L.replayAck L.retryRx 0
  unfold State.reqFlitIn State.sideIn
  extract_lets t
  rw [State.link_modLink_self, hidle, State.pump_keeps t n f hsent, State.link_modLink_self]
  exact hf (s.link n) (s.link n).out _ (s.link n).txSeq (s.link n).wire (s.link n).retryOwed _ _ _ (s.link n).idle

include hopen htype hflit in
/-- R22, R32: its headers wait, but those of flits 2 and 3 in single-decision mode only give up their credits (R33). -/
theorem execReqFlit_good (hseq : sideSeq side = s.frame12 % 256) (hcrc : crc24 (s.frame12 / 256) side data = sideCrc side)
    (lane : Option Lane) :
    execReqFlit l side data lane s = .next
      (if (s.link l.val).single && decide (2 ≤ s.flit) then
        (s.reqFlitIn l.val side).modLink l.val fun L => { L with credOwed := L.credOwed + (reqSlots s.flit data).length }
      else (s.reqFlitIn l.val side).modLink l.val fun L => { L with hdrs := L.hdrs ++ reqSlots s.flit data }) := by
  have htalks := State.linkTalks_of_open hopen
  have hin : (s.reqFlitIn l.val side).flit = s.flit := by rw [(s.reqFlitIn_sends l.val side).1]
  have hsingle : ((s.reqFlitIn l.val side).link l.val).single = (s.link l.val).single :=
    s.reqFlitIn_keeps l.val side _ fun _ _ _ _ _ _ _ _ _ _ => rfl
  unfold execReqFlit
  simp only [htalks, htype, hopen, hseq, hcrc]
  rw [← State.reqFlitIn]
  simp only [hin, hsingle, Nat.not_le.mpr hflit]
  simp
  split <;> rfl

include hopen htype in
/-- R27, R38: it fails its CRC. -/
theorem execReqFlit_bad (hcrc : crc24 (s.frame12 / 256) side data ≠ sideCrc side) (lane : Option Lane) :
    execReqFlit l side data lane s = .next (s.crcFail l.val 1 lane) := by
  unfold execReqFlit
  simp [State.linkTalks_of_open hopen, htype, hcrc]

include hopen hflit in
/-- R27, R33: its four positions are deferred, where the mode reports them, and four credits owed. -/
theorem State.crcFail_eq : s.crcFail l.val 1 none =
    (((s.inc (F.LNK_CNT_CRC_count l.val)).modLink l.val fun L => { L with retryOwed := true, rxDiscard := true }).inc
      (F.LNK_CNT_REQCRC_count l.val)).modLink l.val fun L =>
        { L with credOwed := L.credOwed + 4
                 vec := if s.flit < 2 ∨ L.single = false then L.vec ||| flitBits s.flit else L.vec } := by
  have hstate : ((s.inc (F.LNK_CNT_CRC_count l.val)).linkState l.val) = lsOpen :=
    (State.fv_inc_ne s (.inl (by simp [F.LNK_CNT_CRC_count, F.LNK_STATUS_state]))).trans hopen
  simp [State.crcFail, State.failedReq, hstate, hflit]

end

/-- Settles O1: the side field moves only what sending and acknowledgement move; what the flit brings is added after it. -/
theorem reqFlitTakenOrDeferredWhole : Obligations.ReqFlitTakenOrDeferredWhole := by
  intro l side data s hopen htype hflit
  have hhdrs := s.reqFlitIn_keeps l.val side (·.hdrs) fun _ _ _ _ _ _ _ _ _ _ => rfl
  have hvec := s.reqFlitIn_keeps l.val side (·.vec) fun _ _ _ _ _ _ _ _ _ _ => rfl
  have hcred := s.reqFlitIn_keeps l.val side (·.credOwed) fun _ _ _ _ _ _ _ _ _ _ => rfl
  refine ⟨fun hseq hcrc hsingle lane => ?_, fun hseq hcrc hsingle hlate lane => ?_, fun hcrc => ?_⟩
  · refine ⟨_, (execReqFlit_good hopen htype hflit hseq hcrc lane).trans (congrArg _ (if_neg (by simp [hsingle]))), ?_, ?_, ?_,
      (s.reqFlitIn_sends l.val side).modLink _⟩
    · rw [State.link_modLink_self, hhdrs]
    · rw [State.link_modLink_self, hvec]
    · rw [State.link_modLink_self, hcred]
  · refine ⟨_, (execReqFlit_good hopen htype hflit hseq hcrc lane).trans (congrArg _ (if_pos (by simp [hsingle, hlate]))), ?_, ?_,
      (s.reqFlitIn_sends l.val side).modLink _⟩
    · rw [State.link_modLink_self, hhdrs]
    · rw [State.link_modLink_self, hcred]
  · obtain ⟨heq, hlinks, hlive⟩ := ((((LinkOnly.refl l.val [R.LNK_CNT_CRC l.val, R.LNK_CNT_REQCRC l.val] s).inc
      (F.LNK_CNT_CRC_count l.val) rfl (by simp [F.LNK_CNT_CRC_count, R.LNK_CNT_CRC])).modLink _).inc
      (F.LNK_CNT_REQCRC_count l.val) rfl (by simp [F.LNK_CNT_REQCRC_count, R.LNK_CNT_REQCRC])).modLink _
    have hapart : (F.LNK_CNT_CRC_count l.val).apart (F.LNK_CNT_REQCRC_count l.val) :=
      .inl (by simp [F.LNK_CNT_CRC_count, F.LNK_CNT_REQCRC_count])
    refine ⟨_, (execReqFlit_bad hopen htype hcrc none).trans (congrArg _ (State.crcFail_eq hopen hflit)), ?_, ?_, ?_, ?_,
      ?_, ?_, heq, hlinks, hlive⟩
    · simp
    · simp [LinkSt.single]
    · simp
    · simp
    · rw [Counted, State.fv_modLink, State.fv_inc_ne _ (Fld.apart_symm hapart), State.fv_modLink, State.fv_inc_self]
      simp [F.LNK_CNT_CRC_count]
    · rw [Counted, State.fv_modLink, State.fv_inc_self, State.fv_modLink, State.fv_inc_ne s hapart]
      simp [F.LNK_CNT_REQCRC_count]

end Sys2Proof.Machine

namespace Sys2Proof.Machine

/-! ### Leaving a state -/

/-- R46: leaving OPEN, VESTIBULE or DOZE for `dst` cuts the frame in progress off. -/
def cutsFrame (dst : Nat) : Bool := dst == lsTraining || dst == lsDown || dst == lsSleep

/-- What `State.leaveLink` does to the record of the link: `cut`, the frame in progress has no effect; `opened`, the history
freezes. -/
def LinkSt.leave (L : LinkSt) (cut opened : Bool) : LinkSt :=
  let L := if cut then { L with hdrs := [], vec := 0, fenced := [], complement := none } else L
  let L := if opened then { L with frozen := some L.hist, frozenFrames := 0, hist := [] } else L
  { L with credOwed := 0, parkOut := none, parkIn := none, idle := 0, wire := [] }

@[simp] theorem LinkSt.leave_held (L : LinkSt) (c o : Bool) : (L.leave c o).held = L.held := by cases c <;> cases o <;> rfl
@[simp] theorem LinkSt.leave_lanes (L : LinkSt) (c o : Bool) : (L.leave c o).lanes = L.lanes := by cases c <;> cases o <;> rfl
@[simp] theorem LinkSt.leave_backoff (L : LinkSt) (c o : Bool) : (L.leave c o).backoff = L.backoff := by
  cases c <;> cases o <;> rfl
@[simp] theorem LinkSt.leave_credOwed (L : LinkSt) (c o : Bool) : (L.leave c o).credOwed = 0 := rfl
@[simp] theorem LinkSt.leave_parkIn (L : LinkSt) (c o : Bool) : (L.leave c o).parkIn = none := rfl
@[simp] theorem LinkSt.leave_parkOut (L : LinkSt) (c o : Bool) : (L.leave c o).parkOut = none := rfl
@[simp] theorem LinkSt.leave_frozen (L : LinkSt) (c : Bool) : (L.leave c true).frozen = some L.hist := by cases c <;> rfl

/-- Operations that change nothing but the tiles, one after the other. -/
theorem State.foldl_tiles {α : Type} (f : State → α → State) (h : ∀ s a, f s a = { s with tiles := (f s a).tiles }) (l : List α)
    (s : State) : l.foldl f s = { s with tiles := (l.foldl f s).tiles } := by
  induction l generalizing s with
  | nil => rfl
  | cons a l ih =>
    rw [List.foldl_cons, ih, h s a]

theorem State.undoBursts_eq (s : State) (r : Req) (c : Charge) : s.undoBursts r c = { s with tiles := (s.undoBursts r c).tiles } := by
  cases c <;> rfl

theorem State.dropTentative_eq (s : State) (n : Nat) :
    s.dropTentative n = { s with
      tiles := (s.dropTentative n).tiles
      gate := (s.dropTentative n).gate
      reqs := s.reqs.filter fun r => !(r.tentative && r.link == n) } := by
  have h := State.foldl_tiles (fun s (r : Req) => r.charges.foldl (fun s c => s.undoBursts r c) s)
    (fun s r => State.foldl_tiles _ (fun s c => s.undoBursts_eq r c) r.charges s) (s.reqs.filter fun r => r.tentative && r.link == n) s
  unfold State.dropTentative
  extract_lets gone t
  have ht : t = { s with tiles := t.tiles } := h
  rw [ht]

/-- What is left of the requests when link `n` leaves its state for `dst`. -/
def leftReqs (n dst : Nat) (rs : List Req) : List Req :=
  if cutsFrame dst then rs.filter fun r => !(r.tentative && r.link == n) else rs

/-- `t` is `s` but for link `n`, the requests, and the charges of the gates. -/
def LinkLeaves (n : Nat) (s t : State) : Prop :=
  t = { s with links := t.links, tiles := t.tiles, gate := t.gate, reqs := t.reqs } ∧ LinksBut n s t

theorem LinkLeaves.trans {n : Nat} {s t u : State} (h : LinkLeaves n s t) (h' : LinkLeaves n t u) : LinkLeaves n s u := by
  refine ⟨?_, h.2.trans h'.2⟩
  rw [h'.1, h.1]

theorem State.modLink_leaves (s : State) (n : Nat) (f : LinkSt → LinkSt) : LinkLeaves n s (s.modLink n f) :=
  ⟨rfl, fun _ hk => s.link_modLink_ne f hk⟩

theorem State.dropTentative_leaves (s : State) (n : Nat) : LinkLeaves n s (s.dropTentative n) := by
  refine ⟨?_, fun k _ => ?_⟩
  · conv_lhs => rw [s.dropTentative_eq n]
    rw [s.dropTentative_eq n]
  · unfold State.link
    rw [s.dropTentative_eq n]

@[simp] theorem State.dropTentative_link (s : State) (n k : Nat) : (s.dropTentative n).link k = s.link k := by
  unfold State.link
  rw [s.dropTentative_eq n]

@[simp] theorem State.dropTentative_reqs (s : State) (n : Nat) :
    (s.dropTentative n).reqs = s.reqs.filter fun r => !(r.tentative && r.link == n) := by
  rw [s.dropTentative_eq n]

/-- Everything that leaving a state does beside the state code, to the requests and to the link. -/
theorem State.leaveLink_leaves (s : State) (n dst : Nat) :
    LinkLeaves n s (s.leaveLink n dst) ∧ (s.leaveLink n dst).reqs = leftReqs n dst s.reqs ∧
      (s.leaveLink n dst).link n = (s.link n).leave (cutsFrame dst) (s.linkState n == lsOpen && dst != lsDoze) := by
  have hcut := (s.dropTentative_leaves n).trans (State.modLink_leaves _ n fun L =>
    { L with hdrs := [], vec := 0, fenced := [], complement := none })
  unfold State.leaveLink leftReqs
  rw [← cutsFrame]
  cases cutsFrame dst <;> cases ho : (s.linkState n == lsOpen && dst != lsDoze) <;> simp only [ho, Bool.false_eq_true, if_true, if_false]
  · exact ⟨State.modLink_leaves s n _, by simp, by simp [LinkSt.leave]⟩
  · exact ⟨(State.modLink_leaves s n _).trans (State.modLink_leaves _ n _), by simp, by simp [LinkSt.leave]⟩
  · exact ⟨hcut.trans (State.modLink_leaves _ n _), by simp, by simp [LinkSt.leave]⟩
  · exact ⟨(hcut.trans (State.modLink_leaves _ n _)).trans (State.modLink_leaves _ n _), by simp, by simp [LinkSt.leave]⟩

/-- With no request of the link in the way, no charge is taken back. -/
theorem State.dropTentative_of_none {s : State} {n : Nat} (h : ∀ r ∈ s.reqs, r.link ≠ n) : s.dropTentative n = s := by
  have hgone : (s.reqs.filter fun r => r.tentative && r.link == n) = [] := by
    rw [List.filter_eq_nil_iff]
    intro r hr
    simp [h r hr]
  have hkept : (s.reqs.filter fun r => !(r.tentative && r.link == n)) = s.reqs := by
    rw [List.filter_eq_self]
    intro r hr
    simp [h r hr]
  simp only [State.dropTentative, hgone, List.foldl_nil, hkept]
  rfl

/-- Leaving a state without cutting off a request moves the link alone. -/
theorem State.leaveLink_only {s : State} {n dst : Nat} (h : cutsFrame dst = true → ∀ r ∈ s.reqs, r.link ≠ n) (as : List Nat) :
    LinkOnly n as s (s.leaveLink n dst) := by
  unfold State.leaveLink
  extract_lets st cut froze
  have hcut : LinkOnly n as s cut := by
    unfold cut
    split
    · next hc =>
      rw [State.dropTentative_of_none (h hc)]
      exact (LinkOnly.refl n as s).modLink _
    · exact LinkOnly.refl n as s
  have hfroze : LinkOnly n as s froze := by
    unfold froze
    split
    · exact hcut.modLink _
    · exact hcut
  exact hfroze.modLink _

theorem LinkLeaves.fv {n : Nat} {s t : State} (h : LinkLeaves n s t) (f : Fld) : t.fv f = s.fv f :=
  State.fv_congr (by rw [h.1]) (by rw [h.1])

/-! ### Reports of a link -/

namespace LinkReports

variable {n : Nat} {as : List Nat} {s t u : State}

theorem trans (h : LinkReports n as s t) (h' : LinkReports n as t u) : LinkReports n as s u := by
  refine ⟨?_, h.2.1.trans h'.2.1, h.2.2.trans h'.2.2 (List.Subset.refl _) (List.Subset.refl _)⟩
  rw [h'.1, h.1]

theorem of_leaves (h : LinkLeaves n s t) : LinkReports n as s t := by
  obtain ⟨he, hl⟩ := h
  have hlive : t.live = s.live := by rw [he]
  refine ⟨?_, hl, fun a _ => by rw [hlive]⟩
  conv_lhs => rw [he]
  rw [he]

theorem of_only (h : LinkOnly n as s t) : LinkReports n as s t := by
  obtain ⟨he, hl, hb⟩ := h
  refine ⟨?_, hl, fun a ha => hb a fun hm => ha (List.mem_append_left _ hm)⟩
  conv_lhs => rw [he]
  rw [he]

theorem of_reported (h : Reported s t) : LinkReports n as s t := by
  obtain ⟨he, hb⟩ := id h
  refine ⟨?_, fun k _ => h.link k, fun a ha => hb a fun hm => ha (List.mem_append_right _ hm)⟩
  conv_lhs => rw [he]
  rw [he]

end LinkReports

/-- The registers of a link are none of those of reports. -/
theorem linkReg_not_report (l : Link) {o : Nat} (h : o < 0x400) : 0x20000 + o + 0x400 * l.val ∉ reportRegs := by
  simp only [reportRegs, R.FLT_STATUS, R.FLT_CNT_RAISE, R.FLT_CNT_EVENT, R.FLT_CNT_QUIETRESTART, R.LNK_EVT_LOST, List.mem_cons,
    List.not_mem_nil, or_false]
  omega

theorem Reported.linkState {s t : State} (h : Reported s t) (l : Link) : t.linkState l.val = s.linkState l.val :=
  h.fv _ (linkReg_not_report l (o := 4) (by decide))

/-! ### DOWN -/

/-- What going to DOWN does to a link beside leaving its state: sequence numbers and buffers are cleared (R19, R75). -/
def LinkSt.down (L : LinkSt) : LinkSt :=
  { L with rxE := 0, rxAny := false, rxDiscard := false, retryOwed := false, retryRx := none, txSeq := 0, held := [], out := []
           replayAck := none, replayQ := [], replayHeld := false, replayRun := (0, 0), inbox := [], short := false, fresh := true
           repairs := [], waking := false, woken := false }

/-- The state of a link that goes to DOWN, before its registers tell. -/
def State.cleared (s : State) (n : Nat) : State :=
  let s := s.leaveLink n lsDown
  ({ s with reqs := downReqs n s.reqs, sentTags := s.sentTags.filter fun t => t.1 / 4 != n }).modLink n LinkSt.down

theorem State.linkDown_eq (s : State) (n : Nat) :
    s.linkDown n = ((s.cleared n).setF (F.LNK_STATUS_repair_pending n) 0).setLinkState n lsDown := rfl

theorem State.cleared_fv (s : State) (n : Nat) (f : Fld) : (s.cleared n).fv f = s.fv f :=
  (s.leaveLink_leaves n lsDown).1.fv f

theorem State.linkDown_link (s : State) (n : Nat) :
    (s.linkDown n).link n = ((s.link n).leave true (s.linkState n == lsOpen)).down := by
  obtain ⟨-, -, h⟩ := s.leaveLink_leaves n lsDown
  have hc : (s.cleared n).link n = ((s.leaveLink n lsDown).link n).down := State.link_modLink_self _ _ _
  simp only [State.linkDown_eq, State.setLinkState, State.link_setF, hc, h]
  simp [cutsFrame, lsDown, lsDoze]

theorem State.linkDown_reqs (s : State) (n : Nat) :
    (s.linkDown n).reqs = downReqs n (s.reqs.filter fun r => !(r.tentative && r.link == n)) := by
  have h : (s.cleared n).reqs = downReqs n (s.leaveLink n lsDown).reqs := rfl
  rw [State.linkDown_eq, State.setLinkState_reqs, State.setF_reqs, h, (s.leaveLink_leaves n lsDown).2.1]
  rfl

theorem State.linkDown_linkState (s : State) (n : Nat) : (s.linkDown n).linkState n = lsDown :=
  State.linkState_setLinkState _ n lsDown (by decide)

/-- A field that going to DOWN does not write. -/
theorem State.linkDown_fv (s : State) (n : Nat) {f : Fld} (hp : (F.LNK_STATUS_repair_pending n).apart f)
    (hs : (F.LNK_STATUS_state n).apart f) : (s.linkDown n).fv f = s.fv f := by
  rw [State.linkDown_eq, State.setLinkState, State.fv_setF_ne _ _ hs, State.fv_setF_ne _ _ hp, State.cleared_fv]

theorem State.linkDown_reports (s : State) (n : Nat) : LinkReports n [R.LNK_STATUS n] s (s.linkDown n) := by
  obtain ⟨hleave, -, -⟩ := s.leaveLink_leaves n lsDown
  have hreqs : LinkReports n [R.LNK_STATUS n] (s.leaveLink n lsDown)
      { s.leaveLink n lsDown with
        reqs := downReqs n (s.leaveLink n lsDown).reqs
        sentTags := (s.leaveLink n lsDown).sentTags.filter fun t => t.1 / 4 != n } :=
    ⟨rfl, LinksBut.refl n _, LiveBut.refl _ _⟩
  exact ((LinkReports.of_leaves hleave).trans hreqs).trans (.of_only (((LinkOnly.refl n _ _).modLink LinkSt.down).setF
    (F.LNK_STATUS_repair_pending n) 0 rfl (by simp [F.LNK_STATUS_repair_pending, R.LNK_STATUS]) |>.setF
    (F.LNK_STATUS_state n) lsDown rfl (by simp [F.LNK_STATUS_state, R.LNK_STATUS])))

/-- R75: a request that is left when a link has gone to DOWN was there before, and is discarded when it is the link's. -/
theorem mem_downReqs {n : Nat} {rs : List Req} {q : Req} (h : q ∈ downReqs n rs) :
    (q.link = n → q.discard = true) ∧ ∃ r ∈ rs, q.link = r.link ∧ q.tentative = r.tentative := by
  obtain ⟨r, hr, rfl⟩ := List.mem_map.mp h
  refine ⟨?_, r, List.mem_of_mem_filter hr, ?_⟩ <;> split <;> simp_all

/-- R75: the requests of the other links stay. -/
theorem mem_downReqs_of_ne {n : Nat} {rs : List Req} {q : Req} (h : q.link ≠ n) : q ∈ downReqs n rs ↔ q ∈ rs := by
  unfold downReqs
  rw [List.mem_map]
  constructor
  · rintro ⟨r, hr, rfl⟩
    split at h
    · next hn => simp_all
    · next hn => simpa [hn] using List.mem_of_mem_filter hr
  · exact fun hq => ⟨q, List.mem_filter.mpr ⟨hq, by simp [h]⟩, by simp [h]⟩

theorem State.linkDown_discards (s : State) (n : Nat) : ∀ q ∈ (s.linkDown n).reqs, q.link = n → q.discard = true := by
  rw [State.linkDown_reqs]
  exact fun q hq => (mem_downReqs hq).1

theorem State.linkDown_othersStay (s : State) (n : Nat) : OthersStay n s (s.linkDown n) := by
  intro q hq
  rw [State.linkDown_reqs, mem_downReqs_of_ne hq, List.mem_filter]
  simp [hq]

/-! ### A stop of the device

A report whose source is fatal stops the device (R428): every link that is not in DOWN goes there. What a statement says of it anyway
is what stays. -/

/-- What stays of `s` in `t` whatever the severity of the sources that have been raised between them. -/
structure Survives (s t : State) : Prop where
  dram : t.dram = s.dram
  larder : t.larder = s.larder
  staged : t.staged = s.staged
  active : t.active = s.active
  free : t.free = s.free
  lanes : ∀ k, (t.link k).lanes = (s.link k).lanes
  backoff : ∀ k, (t.link k).backoff = (s.link k).backoff
  lastFail : ∀ l : Link, t.fv (F.LNK_STATUS_last_fail l.val) = s.fv (F.LNK_STATUS_last_fail l.val)
  down : ∀ l : Link, s.linkState l.val = lsDown → t.linkState l.val = lsDown
  reqs : ∀ r ∈ t.reqs, ∃ q ∈ s.reqs, r.link = q.link ∧ r.tentative = q.tentative

namespace Survives

variable {s t u : State}

theorem refl (s : State) : Survives s s :=
  ⟨rfl, rfl, rfl, rfl, rfl, fun _ => rfl, fun _ => rfl, fun _ => rfl, fun _ h => h, fun r h => ⟨r, h, rfl, rfl⟩⟩

theorem trans (h : Survives s t) (h' : Survives t u) : Survives s u where
  dram := h'.dram.trans h.dram
  larder := h'.larder.trans h.larder
  staged := h'.staged.trans h.staged
  active := h'.active.trans h.active
  free := h'.free.trans h.free
  lanes k := (h'.lanes k).trans (h.lanes k)
  backoff k := (h'.backoff k).trans (h.backoff k)
  lastFail l := (h'.lastFail l).trans (h.lastFail l)
  down l hl := h'.down l (h.down l hl)
  reqs r hr := by
    obtain ⟨q, hq, hlink, htent⟩ := h'.reqs r hr
    obtain ⟨p, hp, hlink', htent'⟩ := h.reqs q hq
    exact ⟨p, hp, hlink.trans hlink', htent.trans htent'⟩

theorem foldl {α : Type} {f : State → α → State} (hf : ∀ s a, Survives s (f s a)) (xs : List α) (s : State) :
    Survives s (xs.foldl f s) := by
  induction xs generalizing s with
  | nil => exact refl s
  | cons a xs ih => exact (hf s a).trans (ih _)

/-- A step that moves no link, no request and no register of a link. -/
theorem of_eq (he : t = { s with live := t.live, evq := t.evq, evLost := t.evLost, flt := t.flt, halted := t.halted, thm := t.thm })
    (hl : ∀ l : Link, t.live.val (R.LNK_STATUS l.val) = s.live.val (R.LNK_STATUS l.val)) : Survives s t := by
  have hlink : ∀ k, t.link k = s.link k := fun k => by unfold State.link; rw [he]
  have hact : t.active = s.active := by rw [he]
  have hreqs : t.reqs = s.reqs := by rw [he]
  exact {
    dram := by rw [he]
    larder := by rw [he]
    staged := by rw [he]
    active := hact
    free := by rw [he]
    lanes k := by rw [hlink]
    backoff k := by rw [hlink]
    lastFail l := State.fv_congr (hl l) hact
    down l h := (State.fv_congr (hl l) hact).trans h
    reqs r hr := ⟨r, hreqs ▸ hr, rfl, rfl⟩ }

theorem of_reported (h : Reported s t) : Survives s t := by
  obtain ⟨he, hb⟩ := h
  refine of_eq ?_ fun l => hb _ (linkReg_not_report l (o := 4) (by decide))
  conv_lhs => rw [he]
  rw [he]

/-- A register that is no LNK_STATUS is written. -/
theorem setF (h : Survives s t) (f : Fld) (v : Nat) (hc : f.cfg = false) (ha : ∀ l : Link, R.LNK_STATUS l.val ≠ f.addr) :
    Survives s (t.setF f v) := by
  refine h.trans ?_
  rw [State.setF_live _ _ _ hc]
  exact of_eq rfl fun l => RegMap.val_setF_ne _ _ _ (ha l)

theorem inc (h : Survives s t) (f : Fld) (hc : f.cfg = false) (ha : ∀ l : Link, R.LNK_STATUS l.val ≠ f.addr) :
    Survives s (t.inc f) := h.setF f _ hc ha

/-- The requests are dropped. -/
theorem dropReqs (s : State) (thm : ThmSt) : Survives s { s with halted := true, reqs := [], sentTags := [], thm := thm } :=
  ⟨rfl, rfl, rfl, rfl, rfl, fun _ => rfl, fun _ => rfl, fun _ => rfl, fun _ h => h, fun _ hr => nomatch hr⟩

theorem linkDown (s : State) (n : Nat) : Survives s (s.linkDown n) := by
  obtain ⟨he, hl, -⟩ := s.linkDown_reports n
  have hself := s.linkDown_link n
  exact {
    dram := by rw [he]
    larder := by rw [he]
    staged := by rw [he]
    active := by rw [he]
    free := by rw [he]
    lanes k := by
      by_cases hk : k = n
      · rw [hk, hself]; simp [LinkSt.down]
      · rw [hl k hk]
    backoff k := by
      by_cases hk : k = n
      · rw [hk, hself]; simp [LinkSt.down]
      · rw [hl k hk]
    lastFail l := by
      refine State.linkDown_fv s n ?_ ?_ <;>
        simp [Fld.apart, F.LNK_STATUS_repair_pending, F.LNK_STATUS_state, F.LNK_STATUS_last_fail]
    down l h := by
      by_cases hk : l.val = n
      · rw [hk]; exact s.linkDown_linkState n
      · refine (State.linkDown_fv s n ?_ ?_).trans h <;>
          simp [Fld.apart, F.LNK_STATUS_repair_pending, F.LNK_STATUS_state, hk]
    reqs r hr := by
      rw [State.linkDown_reqs] at hr
      obtain ⟨-, q, hq, hlink⟩ := mem_downReqs hr
      exact ⟨q, List.mem_of_mem_filter hq, hlink⟩ }

end Survives

/-- R428: what a stop of the device leaves. -/
theorem State.stopDevice_survives (s : State) : Survives s s.stopDevice := by
  have hwindows : ∀ u : State, Survives u u.setWindows := fun u => .of_eq rfl fun _ => rfl
  unfold State.stopDevice
  extract_lets a relaxed
  have hdown : Survives s a := Survives.foldl (fun u n => by
    split
    · exact Survives.refl u
    · exact Survives.linkDown u n) _ s
  exact ((hdown.trans (Survives.dropReqs a _)).trans (hwindows _)).setF _ _ rfl (by decide)

theorem State.keepFatal_survives (s : State) (src : Nat) : Survives s (s.keepFatal src) := by
  unfold State.keepFatal
  split
  · exact Survives.refl s
  · extract_lets _ u
    have hu : Survives s u := .of_eq rfl fun _ => rfl
    exact (hu.setF _ _ rfl (by decide)).setF _ _ rfl (by decide)

/-- Raising a source of any severity. -/
theorem State.raise_survives (s : State) (src info : Nat) : Survives s (s.raise src info) := by
  by_cases h : s.severityOf src = 5
  · have hnote : ∀ l m, Survives s ((s.noteRaised src l).setLatch src m) := fun l m => .of_eq rfl fun _ => rfl
    have hraise : ∃ l m, s.raise src info =
        ((((s.noteRaised src l).setLatch src m).inc F.FLT_CNT_RAISE_count).keepFatal src).stopDevice := by
      unfold State.raise
      simp only [h]
      exact ⟨_, _, rfl⟩
    obtain ⟨l, m, hraise⟩ := hraise
    rw [hraise]
    exact (((hnote l m).inc _ rfl (by decide)).trans (State.keepFatal_survives _ src)).trans (State.stopDevice_survives _)
  · exact .of_reported (s.raise_reported src info h)

end Sys2Proof.Machine

namespace Sys2Proof.Machine

/-! ### Write data -/

/-- R23: the flit goes to the first request of the link that waits for data. -/
theorem giveData_append {n frame : Nat} {p : Payload} {before after : List Req} {r : Req}
    (hb : ∀ q ∈ before, ¬(q.link = n ∧ q.data.length < q.need)) (hr : r.link = n) (hn : r.data.length < r.need) :
    giveData n frame p (before ++ r :: after) = before ++ { r with data := r.data ++ [p], ready := frame } :: after := by
  induction before with
  | nil => simp [giveData, hr, hn]
  | cons q before ih =>
    have hq : ¬(q.link = n ∧ q.data.length < q.need) := hb q List.mem_cons_self
    rw [List.cons_append, giveData, if_neg (by simpa using hq), ih fun q hm => hb q (List.mem_cons_of_mem _ hm), List.cons_append]

theorem State.awaiting_eq {s : State} {n : Nat} {before after : List Req} {r : Req} (hs : s.reqs = before ++ r :: after)
    (hb : ∀ q ∈ before, ¬(q.link = n ∧ q.data.length < q.need)) (hr : r.link = n) (hn : r.data.length < r.need) :
    s.awaiting n = some r := by
  unfold State.awaiting
  rw [hs, List.find?_append, List.find?_eq_none.mpr (by simpa using hb)]
  simp [hr, hn]

/-- Settles O3: the first request that waits is found and gets the flit; a write that is late is marked and counted. -/
theorem writeDataIsMatched : Obligations.WriteDataIsMatched := by
  refine ⟨fun l s p more before after r hin hs hb hr hn hframe => ?_, fun p tag s r hfind hlate => ?_⟩
  · have hfound : (s.popInbox l.val).awaiting l.val = some r := State.awaiting_eq (s := s.popInbox l.val) hs hb hr hn
    have hreqs : (s.popInbox l.val).reqs = before ++ r :: after := hs
    have hin_time : ¬ r.frame + 16 < (s.popInbox l.val).absFrame := Nat.not_lt.mpr hframe
    refine ⟨{ s.popInbox l.val with reqs := giveData l.val s.absFrame p (before ++ r :: after) }, ?_, ?_,
      giveData_append hb hr hn, rfl, fun k hk => s.link_modLink_ne (fun L => { L with inbox := L.inbox.tail }) hk⟩
    · show execWdata l s = _
      unfold execWdata
      simp only [hin, hfound, State.when, hin_time]
      simp [hreqs]
      rfl
    · show ((s.popInbox l.val).link l.val).inbox = more
      simp [State.popInbox, hin]
  · obtain ⟨hp, htag⟩ : r.port = p.val ∧ r.tag = tag.toNat := by
      have := List.find?_some hfind
      simp only [Bool.and_eq_true, beq_iff_eq] at this
      exact this.1.1
    refine ⟨s.markLate r, ?_, ?_⟩
    · show execWdataLate p tag s = _
      simp only [execWdataLate, hfind]
    · have hmark : s.markLate r =
          State.inc { s with reqs := s.reqs.map fun q => if q.port = p.val ∧ q.tag = tag.toNat then { q with late := true } else q }
            (F.LNK_CNT_WDLATE_count r.link) := by
        simp [State.markLate, hlate, hp, htag]
      rw [hmark]
      refine ⟨State.fv_inc_self _ _ (by simp [F.LNK_CNT_WDLATE_count]), by simp, ?_, ?_⟩
      · rw [State.inc_live _ _ rfl]
      · rw [State.inc_live _ _ rfl]
        exact fun a ha => RegMap.val_setF_ne _ _ _ (by simpa [F.LNK_CNT_WDLATE_count, R.LNK_CNT_WDLATE] using ha)

/-! ### Opening and closing -/

/-- R33, R44: a link enters OPEN with a grant, and sends what has waited. -/
theorem State.enterOpen_moves (s : State) (n : Nat) : LinkMoves n [R.LNK_STATUS n] s (s.enterOpen n) :=
  (((LinkOnly.refl n _ s).setF (F.LNK_STATUS_state n) lsOpen rfl (by simp [F.LNK_STATUS_state, R.LNK_STATUS])).modLink _).moves
    (by simp) ((State.pump_sends _ n).1.moves _)

/-- Settles O5: entering OPEN is a grant and a pump; closing is leaving OPEN with the frame in progress kept. -/
theorem linksOpenAndCloseAtBoundaries : Obligations.LinksOpenAndCloseAtBoundaries := by
  refine ⟨fun l s hb hst hmay hrun => ?_, fun l s hb hst hmay => ?_⟩
  · refine ⟨s.enterOpen l.val, ?_, ?_, ?_, ?_, s.enterOpen_moves l.val⟩
    · show execLinkOpen l s = _
      simp [execLinkOpen, hb, hst, hmay, hrun]
    · rw [State.enterOpen, (State.pump_sends _ _).1.linkState, State.linkState_modLink]
      exact State.linkState_setLinkState s l.val lsOpen (by decide)
    · rw [State.enterOpen, State.pump_keeps _ _ (·.granted) fun _ _ _ _ _ _ => rfl, State.link_modLink_self]
    · rw [State.enterOpen, State.pump_keeps _ _ (·.credOwed) fun _ _ _ _ _ _ => rfl, State.link_modLink_self]
  · obtain ⟨-, -, hlink⟩ := s.leaveLink_leaves l.val lsVestibule
    rw [hst] at hlink
    refine ⟨(s.leaveLink l.val lsVestibule).setLinkState l.val lsVestibule, ?_, State.linkState_setLinkState _ l.val lsVestibule (by decide),
      ?_, ?_, (State.leaveLink_only (fun h => absurd h (by decide)) _).setF _ _ rfl (by simp [F.LNK_STATUS_state, R.LNK_STATUS])⟩
    · show execLinkToVestibule l s = _
      simp [execLinkToVestibule, hb, hst, hmay]
    · rw [State.setLinkState, State.link_setF, hlink, LinkSt.leave_credOwed]
    · rw [State.setLinkState, State.link_setF, hlink]
      exact LinkSt.leave_frozen _ _

end Sys2Proof.Machine

namespace Sys2Proof.Machine

/-! ### The replay timer -/

/-- Settles O55: the ack takes the oldest held flit out of the replay buffer and of the replay, and the pump that follows keeps the
order of the flits. -/
theorem anAckBeatsTheReplayTimer : Obligations.AnAckBeatsTheReplayTimer := by
  intro l s h hs htalks hheld
  refine ⟨fun hearly tie => ?_, fun hdue => ?_⟩
  · show execReplayTimeout l tie s = _
    simp [execReplayTimeout, hheld, hearly]
  · have hmoves : LinkMoves l.val [R.LNK_CNT_NEARMISS l.val] s
        (((s.inc (F.LNK_CNT_NEARMISS_count l.val)).modLink l.val fun L =>
          { L with held := hs, replayQ := L.replayQ.filter fun x => x.seq != h.seq }).pump l.val) :=
      (((LinkOnly.refl l.val _ s).inc (F.LNK_CNT_NEARMISS_count l.val) rfl
        (by simp [F.LNK_CNT_NEARMISS_count, R.LNK_CNT_NEARMISS])).modLink _).moves (by simp) ((State.pump_sends _ _).1.moves _)
    refine ⟨_, ?_, ?_, ?_, ?_, ?_, ?_, hmoves⟩
    · show execReplayTimeout l true s = _
      simp [execReplayTimeout, hheld, htalks, Nat.not_lt.mpr hdue]
    · rw [Counted, (State.pump_sends _ _).1.fv, State.fv_modLink, State.fv_inc_self]
      simp [F.LNK_CNT_NEARMISS_count]
    · rw [State.pump_flits, State.link_modLink_self, State.link_inc]
      rfl
    · rw [State.pump_keeps _ _ (·.replayQ) fun _ _ _ _ _ _ => rfl, State.link_modLink_self, State.link_inc]
    · rw [State.pump_keeps _ _ (·.replayRun) fun _ _ _ _ _ _ => rfl, State.link_modLink_self, State.link_inc]
    · rw [(State.pump_sends _ _).1.linkState, State.linkState_modLink]
      exact State.fv_inc_ne s (.inl (by simp [F.LNK_CNT_NEARMISS_count, F.LNK_STATUS_state]))

/-! ### Messages -/

/-- Taking a message out of the inbox leaves the flits alone. -/
@[simp] theorem State.popInbox_link (s : State) (n : Nat) :
    (s.popInbox n).link n = { s.link n with inbox := (s.link n).inbox.tail } := s.link_modLink_self n _

theorem LinkSends.of_popInbox {n : Nat} {s t : State} (h : LinkSends n (s.popInbox n) t) : LinkSends n s t :=
  .of_modLink (fun _ => .inl) h

theorem State.answerControl_sends (s : State) (n code : Nat) (p : Payload) : LinkSends n s (s.answerControl n code p) :=
  State.sendMgmt_sends s n _

/-! ### Queries and events -/

/-- Of two runs of sending the second frees no tag whose response did not wait before the first. -/
theorem LinkSends.trans {n : Nat} {s t u : State} (h : LinkSends n s t) (h' : LinkSends n t u)
    (ho : ∀ f ∈ (t.link n).out, f ∈ (s.link n).out ∨ f.resp = none) : LinkSends n s u := by
  obtain ⟨he, hl, ks, hks, hreqs, htags⟩ := h
  obtain ⟨he', hl', ks', hks', hreqs', htags'⟩ := h'
  have hframe : t.absFrame = s.absFrame := by rw [he]; rfl
  refine ⟨?_, hl.trans hl', ks ++ ks', fun k hk => ?_, ?_, fun x hx => ?_⟩
  · rw [he', he]
  · rcases List.mem_append.mp hk with hk | hk
    · exact hks k hk
    · obtain ⟨f, hf, htyp, hresp⟩ := hks' k hk
      exact ⟨f, (ho f hf).resolve_right (by simp [hresp]), htyp, hresp⟩
  · rw [hreqs', hreqs, List.filter_filter]
    refine List.filter_congr fun q _ => ?_
    rw [← Bool.not_or, List.contains_eq_mem, List.contains_eq_mem, List.contains_eq_mem, Bool.or_comm]
    simp
  · rcases htags' x hx with hx | ⟨hk, hf⟩
    · exact (htags x hx).imp_right fun ⟨hk, hf⟩ => ⟨List.mem_append_left _ hk, hf⟩
    · exact .inr ⟨List.mem_append_right _ hk, hf.trans hframe⟩

/-- What waits after a flit has been sent that is no response waited before, or is no response. -/
theorem pumpLoop_out (k : Nat) (L : LinkSt) : ∀ f ∈ (pumpLoop k L).1.out, f ∈ L.out := by
  induction k generalizing L with
  | zero => exact fun f hf => hf
  | succ k ih =>
    intro f hf
    unfold pumpLoop at hf
    split at hf
    · exact hf
    · next g rest ho =>
      split at hf
      · rw [ho]
        exact List.mem_cons_of_mem _ (ih _ f hf)
      · exact hf

theorem State.sendFlit_out (s : State) (n typ : Nat) (p : Payload) :
    ∀ f ∈ ((s.sendFlit n typ p).link n).out, f ∈ (s.link n).out ∨ f.resp = none := by
  intro f hf
  have hwaits : f ∈ ((s.modLink n fun L => { L with out := L.out ++ [⟨typ, p, none⟩] }).link n).out := by
    unfold State.sendFlit State.queueFlit at hf
    rw [(State.pump_sends _ n).2] at hf
    split at hf
    · exact pumpLoop_out _ _ f hf
    · exact hf
  rw [State.link_modLink_self] at hwaits
  exact (List.mem_append.mp hwaits).imp_right fun h => by rw [List.mem_singleton.mp h]

/-- Flits of one type are sent one after the other. -/
theorem State.sendFlits_sends (n typ : Nat) (ps : List Payload) (s : State) :
    LinkSends n s (ps.foldl (fun s p => s.sendFlit n typ p) s) ∧
      ((ps.foldl (fun s p => s.sendFlit n typ p) s).link n).flits = (s.link n).flits ++ ps.map fun p => (typ, p) := by
  induction ps generalizing s with
  | nil => exact ⟨⟨rfl, LinksBut.refl n s, .of_eq rfl rfl⟩, by simp⟩
  | cons p ps ih =>
    obtain ⟨hsends, hflits⟩ := ih (s.sendFlit n typ p)
    refine ⟨(s.sendFlit_sends n typ p).trans hsends (s.sendFlit_out n typ p), ?_⟩
    rw [List.foldl_cons, hflits, State.sendFlit_flits]
    simp

/-- Settles O10: a DQUERY is one message more in order, and the queue of events a run of flits. -/
theorem queriesAndEvents : Obligations.QueriesAndEvents := by
  refine ⟨fun l s p hp => ?_, fun l s hst hframes => ?_, fun s hst hport hlink => ?_⟩
  · have hsends := (State.sendMgmt_sends (s.popInbox l.val) l.val
      (dreply (s.link l.val) (p.at 4 2 % 4096) (max 1 (min 16 (p.at 6 1))))).of_popInbox
    refine ⟨_, ?_, ?_, ?_, ?_, (hsends.moves _).inc (F.LNK_CNT_DQUERY_count l.val) rfl (by simp [F.LNK_CNT_DQUERY_count, R.LNK_CNT_DQUERY])⟩
    · show execDquery l s = _
      simp only [execDquery, hp]
    · rw [Counted, State.fv_inc_self _ _ (by simp [F.LNK_CNT_DQUERY_count]), hsends.fv]
    · rw [State.link_inc, State.sendMgmt_keeps _ _ _ (·.inbox) (fun _ _ _ _ _ _ => rfl) fun _ => rfl, State.popInbox_link]
    · rw [State.link_inc, State.sendMgmt_flits, State.popInbox_link]
      rfl
  · refine ⟨s.modLink l.val fun L => { L with frozen := none, frozenFrames := 0 }, ?_, by simp, by simp, s.modLink_only l.val _⟩
    show execHistoryDiscard l s = _
    simp [execHistoryDiscard, hst, hframes]
  · obtain ⟨hsends, hflits⟩ := State.sendFlits_sends (s.fv F.LNK_EVTPORT_port / 4) 6
      ((eventOrder s.evq s.evLost).map fun p => p ||| payload [(2, 1, s.fv F.LNK_EVTPORT_port % 4)])
      { s with evq := [], evLost := none, flt := { s.flt with queued := 0 } }
    refine ⟨_, ?_, ?_, ?_, hflits.trans (by simp [State.link]), ?_⟩
    · show execEventDelivery s = _
      simp only [execEventDelivery, hst, hport, hlink]
      rfl
    · rw [hsends.1]
    · rw [hsends.1]
    · rw [hsends.1]
      rw [hsends.1] at hsends
      exact hsends

end Sys2Proof.Machine

namespace Sys2Proof.Machine

/-! ### Parking -/

/-- R499: the registers that the power of a link's PHY writes when the device is in COOL. -/
def phyRegs (s : State) (n : Nat) : List Nat := if s.mode = 3 then [R.PWR_DOM ((65 + n) / 16)] else []

theorem State.coolPhy_only (s : State) (n : Nat) (as : List Nat) : LinkOnly n (as ++ phyRegs s n) s (s.coolPhy n) := by
  unfold State.coolPhy phyRegs
  by_cases h : s.mode = 3 ∧ n % 2 = 1
  · rw [if_pos h, if_pos h.1]
    exact (LinkOnly.refl n _ s).live_put _ _ (by simp)
  · rw [if_neg h]
    exact LinkOnly.refl n _ s

@[simp] theorem State.coolPhy_link (s : State) (n k : Nat) : (s.coolPhy n).link k = s.link k := by
  unfold State.coolPhy
  split <;> rfl

/-- The power of a PHY is no register of a link. -/
theorem State.coolPhy_fv (s : State) (l : Link) {f : Fld} (h : 0x20000 ≤ f.addr) : (s.coolPhy l.val).fv f = s.fv f := by
  unfold State.coolPhy
  split
  · exact State.fv_congr (RegMap.val_put_ne _ _ (by simp only [R.PWR_DOM]; omega)) rfl
  · rfl

/-- The registers of a link are none of those of its PHY's power. -/
theorem phyRegs_setF (s : State) (n : Nat) (f : Fld) (v : Nat) (h : 0x20000 ≤ f.addr) : phyRegs (s.setF f v) n = phyRegs s n := by
  have hmode : (s.setF f v).mode = s.mode := State.fv_setF_ne s v (.inl (by simp only [F.PWR_MODE_mode]; omega))
  unfold phyRegs
  rw [hmode]

@[simp] theorem phyRegs_modLink (s : State) (n k : Nat) (f : LinkSt → LinkSt) : phyRegs (s.modLink k f) n = phyRegs s n := rfl

theorem LinkOnly.mono {n : Nat} {as bs : List Nat} {s t : State} (h : LinkOnly n as s t) (hs : as ⊆ bs) : LinkOnly n bs s t :=
  ⟨h.1, h.2.1, fun a ha => h.2.2 a fun hm => ha (hs hm)⟩

/-- A step of the link, and then the power of its PHY. -/
theorem LinkOnly.coolPhy {n : Nat} {as : List Nat} {s t : State} (h : LinkOnly n as s t) (hp : phyRegs t n = phyRegs s n) :
    LinkOnly n (as ++ phyRegs s n) s (t.coolPhy n) :=
  (h.mono (List.subset_append_left _ _)).trans (hp ▸ t.coolPhy_only n as)

theorem State.not_linked_of_mayPark {s : State} {n : Nat} (h : s.mayPark n = true) : ∀ r ∈ s.reqs, r.link ≠ n := by
  simp only [State.mayPark, Bool.and_eq_true, Bool.not_eq_true', List.any_eq_false, beq_iff_eq] at h
  exact h.2

/-- Taking a message and an update of the link that it asks for. -/
theorem State.popInbox_modLink_only (s : State) (n : Nat) (f : LinkSt → LinkSt) :
    (s.popInbox n).modLink n f = { s with links := ((s.popInbox n).modLink n f).links } ∧ LinksBut n s ((s.popInbox n).modLink n f) :=
  ⟨rfl, ((LinkOnly.refl n [] s).modLink _ |>.modLink f).2.1⟩

/-- R47: the park that this end has agreed to is due. -/
theorem LinkSt.parkDue_of_parkIn {L : LinkSt} {k : ParkX} (hin : L.parkIn = some k) (hack : k.acked = true) :
    L.parkDue k.epoch = some k := by simp [LinkSt.parkDue, hin, hack, Option.filter]

/-- R47: a PARK is agreed to when nothing of the five stands in its way. -/
theorem exec_park_eq {l : Link} {s : State} {p : Payload} (hp : (s.link l.val).control 6 = some p) :
    exec (.park l) s = .next
      (if s.linkState l.val = lsOpen ∧ s.mayPark l.val = true ∧ (p.at 4 1 = 4 ∨ p.at 4 1 = 5) ∧ s.epoch + 4 ≤ p.at 8 8 ∧
          (p.at 4 1 = 4 ∨ s.fb (F.LNK_PM_sleep_allow l.val) = true) then
        ((s.popInbox l.val).modLink l.val fun L => { L with parkIn := some ⟨p.at 4 1, p.at 8 8, true, false⟩ }).answerControl l.val 7 p
      else (s.popInbox l.val).answerControl l.val 8 p) := by
  have hmay : (s.popInbox l.val).mayPark l.val = s.mayPark l.val := by
    simp only [State.mayPark, State.popInbox_link]
    rfl
  show execPark l s = _
  have hepoch : (s.popInbox l.val).epoch = s.epoch := rfl
  simp only [execPark, hp, hmay, hepoch, and_assoc, Bool.and_eq_true, Bool.or_eq_true, beq_iff_eq, decide_eq_true_eq]
  exact (apply_ite _ _ _ _).symm

/-- R59: the flit that answers a message goes behind the others. -/
theorem State.answerControl_flits (s : State) (n code : Nat) (p : Payload) :
    ((s.answerControl n code p).link n).flits = (s.link n).flits ++ [(5, payload [(0, 1, 1), (1, 1, code), (4, 12, p.at 4 12)])] :=
  State.sendMgmt_flits s n _

theorem State.answerControl_keeps (s : State) (n code : Nat) (p : Payload) {α : Type} (f : LinkSt → α) (hf : Unsent f)
    (hi : ∀ L : LinkSt, f { L with idle := 0 } = f L) : f ((s.answerControl n code p).link n) = f (s.link n) :=
  State.sendMgmt_keeps s n _ f hf hi

/-- R53: a woken SLEEP link begins its short retrain at S0, which counts as a retraining. -/
theorem State.shortRetrain_spec (s : State) (l : Link) :
    (s.shortRetrain l.val).linkState l.val = lsTraining ∧ (s.shortRetrain l.val).fv (F.LNK_STATUS_train_step l.val) = 0 ∧
      Counted (F.LNK_CNT_RETRAIN_count l.val) s (s.shortRetrain l.val) ∧ ((s.shortRetrain l.val).link l.val).short = true ∧
      ((s.shortRetrain l.val).link l.val).woken = true ∧
      LinkOnly l.val ([R.LNK_STATUS l.val, R.LNK_CNT_RETRAIN l.val] ++ phyRegs s l.val) s (s.shortRetrain l.val) := by
  have hregs := ((LinkOnly.refl l.val [R.LNK_STATUS l.val, R.LNK_CNT_RETRAIN l.val] s).inc (F.LNK_CNT_RETRAIN_count l.val) rfl
      (by simp [F.LNK_CNT_RETRAIN_count, R.LNK_CNT_RETRAIN])).setF (F.LNK_STATUS_train_step l.val) 0 rfl
      (by simp [F.LNK_STATUS_train_step, R.LNK_STATUS]) |>.setF (F.LNK_STATUS_state l.val) lsTraining rfl
      (by simp [F.LNK_STATUS_state, R.LNK_STATUS])
  unfold State.shortRetrain
  refine ⟨?_, ?_, ?_, ?_, ?_, (hregs.modLink _).coolPhy ?_⟩
  · rw [State.linkState, State.coolPhy_fv _ _ (by simp only [F.LNK_STATUS_state]; omega), State.fv_modLink]
    exact State.linkState_setLinkState _ _ _ (by decide)
  · rw [State.coolPhy_fv _ _ (by simp only [F.LNK_STATUS_train_step]; omega), State.fv_modLink, State.setLinkState,
      State.fv_setF_ne _ _ (by simp [Fld.apart, F.LNK_STATUS_state, F.LNK_STATUS_train_step]),
      State.fv_setF_self _ _ _ (by simp [F.LNK_STATUS_train_step]), Nat.zero_mod]
  · rw [Counted, State.coolPhy_fv _ _ (by simp only [F.LNK_CNT_RETRAIN_count]; omega), State.fv_modLink, State.setLinkState,
      State.fv_setF_ne _ _ (.inl (by simp [F.LNK_STATUS_state, F.LNK_CNT_RETRAIN_count])),
      State.fv_setF_ne _ _ (.inl (by simp [F.LNK_STATUS_train_step, F.LNK_CNT_RETRAIN_count])),
      State.fv_inc_self _ _ (by simp [F.LNK_CNT_RETRAIN_count])]
  · simp
  · simp
  · rw [phyRegs_modLink, phyRegs_setF _ _ _ _ (by simp only [F.LNK_STATUS_state]; omega),
      phyRegs_setF _ _ _ _ (by simp only [F.LNK_STATUS_train_step]; omega), State.inc, State.addF,
      phyRegs_setF _ _ _ _ (by simp only [F.LNK_CNT_RETRAIN_count]; omega)]

/-- Settles O6: a park that may be entered has no request of the link in its way, so that leaving OPEN moves the link alone. -/
theorem linksParkAndWakeByAgreement : Obligations.LinksParkAndWakeByAgreement := by
  refine ⟨⟨fun l s p hp => ?_, fun l s p k hp hk ht he => ?_, fun l s p k hp hk ht he => ?_, fun l s p hm => ⟨fun hp => ?_, fun hp => ?_⟩⟩,
    fun l s k hb hst hmay hin hack he ht => ?_, fun l s k hb hst hmay hin hack he hforced => ?_,
    fun l e s hst hauto hlim hidle hmay hout hin he => ?_, fun l s hmode hst => ?_, fun l s hmode hst => ?_, fun l s hmode hst => ?_⟩
  · by_cases hok : s.linkState l.val = lsOpen ∧ s.mayPark l.val = true ∧ (p.at 4 1 = 4 ∨ p.at 4 1 = 5) ∧ s.epoch + 4 ≤ p.at 8 8 ∧
      (p.at 4 1 = 4 ∨ s.fb (F.LNK_PM_sleep_allow l.val) = true)
    · rw [if_pos hok]
      have hsends := (LinkSends.of_modLink (fun _ => .inl) (State.answerControl_sends
        ((s.popInbox l.val).modLink l.val fun L => { L with parkIn := some ⟨p.at 4 1, p.at 8 8, true, false⟩ }) l.val 7 p)).of_popInbox
      refine ⟨_, ?_, ?_, ?_, ?_, hsends⟩
      · rw [exec_park_eq hp, if_pos hok]
      · rw [State.answerControl_keeps _ _ _ _ (·.inbox) (fun _ _ _ _ _ _ => rfl) fun _ => rfl, State.link_modLink_self,
          State.popInbox_link]
      · rw [State.answerControl_keeps _ _ _ _ (·.parkIn) (fun _ _ _ _ _ _ => rfl) fun _ => rfl, State.link_modLink_self]
      · rw [State.answerControl_flits, State.link_modLink_self, State.popInbox_link, if_pos hok]
        rfl
    · rw [if_neg hok]
      have hsends := (State.answerControl_sends (s.popInbox l.val) l.val 8 p).of_popInbox
      refine ⟨_, ?_, ?_, ?_, ?_, hsends⟩
      · rw [exec_park_eq hp, if_neg hok]
      · rw [State.answerControl_keeps _ _ _ _ (·.inbox) (fun _ _ _ _ _ _ => rfl) fun _ => rfl, State.popInbox_link]
      · rw [State.answerControl_keeps _ _ _ _ (·.parkIn) (fun _ _ _ _ _ _ => rfl) fun _ => rfl, State.popInbox_link]
      · rw [State.answerControl_flits, State.popInbox_link, if_neg hok]
        rfl
  · refine ⟨_, ?_, ?_, ?_, s.popInbox_modLink_only l.val fun L => { L with parkOut := L.parkOut.map fun k => { k with acked := true } }⟩
    · show execParkAck l s = _
      simp [execParkAck, hp, LinkSt.parkMatch, hk, ht, he]
    · simp [hk]
    · simp
  · refine ⟨_, ?_, ?_, ?_, s.popInbox_modLink_only l.val fun L => { L with parkOut := L.parkOut.filter (·.forced) }⟩
    · show execParkNak l s = _
      simp [execParkNak, hp, LinkSt.parkMatch, hk, ht, he]
    · simp [hk, Option.filter]
    · simp
  · show execParkAck l s = _
    simp [execParkAck, hp, hm]
  · show execParkNak l s = _
    simp [execParkNak, hp, hm]
  · have hlt : k.target < 8 := by omega
    obtain ⟨hleave, hreqs, hlink⟩ := s.leaveLink_leaves l.val k.target
    have honly := ((State.leaveLink_only (dst := k.target) (fun _ => State.not_linked_of_mayPark hmay) [R.LNK_STATUS l.val]).setF
      (F.LNK_STATUS_state l.val) k.target rfl (by simp [F.LNK_STATUS_state, R.LNK_STATUS])).coolPhy (by
        rw [phyRegs_setF _ _ _ _ (by simp only [F.LNK_STATUS_state]; omega)]
        unfold phyRegs State.mode
        rw [hleave.fv])
    refine ⟨((s.leaveLink l.val k.target).setLinkState l.val k.target).coolPhy l.val, ?_, ?_, ?_, ?_, ?_, honly.still⟩
    · show execParkEntry l s = _
      simp [execParkEntry, ← he, LinkSt.parkDue_of_parkIn hin hack, hb, hst, hmay]
    · rw [State.linkState, State.coolPhy_fv _ _ (by simp only [F.LNK_STATUS_state]; omega)]
      exact State.linkState_setLinkState _ _ _ hlt
    · rw [State.coolPhy_link, State.setLinkState, State.link_setF, hlink, LinkSt.leave_parkIn]
    · rw [State.coolPhy_link, State.setLinkState, State.link_setF, hlink, LinkSt.leave_parkOut]
    · rw [State.setLinkState, honly.1]
  · refine ⟨_, ?_, ?_, ?_, ?_, s.modLink_only l.val fun L => { L with parkOut := none, parkIn := none }⟩
    · show execParkEntry l s = _
      simp [execParkEntry, ← he, LinkSt.parkDue_of_parkIn hin hack, hb, hforced, hmay]
    · simp [hst]
    · simp
    · simp
  · have hsends := LinkSends.of_modLink (s := s) (fun _ => .inl) (State.sendMgmt_sends
      (s.modLink l.val fun L => { L with parkOut := some ⟨4, e.toNat, false, false⟩ }) l.val
      (payload [(0, 1, 1), (1, 1, 6), (4, 1, 4), (8, 8, e.toNat)]))
    refine ⟨_, ?_, ?_, ?_, hsends⟩
    · show execAutoDoze l e s = _
      simp [execAutoDoze, hst, hauto, hlim, hidle, hmay, hout, hin, he]
    · rw [State.sendMgmt_keeps _ _ _ (·.parkOut) (fun _ _ _ _ _ _ => rfl) fun _ => rfl, State.link_modLink_self]
    · rw [State.sendMgmt_flits, State.link_modLink_self]
      rfl
  · refine ⟨_, ?_, ?_, s.modLink_only l.val fun L => { L with waking := true }⟩
    · show execLinkWake l s = _
      simp [execLinkWake, hmode, hst]
    · simp
  · obtain ⟨hstate, hstep, hcount, hshort, hwoken, honly⟩ := s.shortRetrain_spec l
    obtain ⟨heq, hlinks, hlive⟩ := honly
    refine ⟨s.shortRetrain l.val, ?_, hstate, hstep, hshort, hwoken, hcount, heq, hlinks, hlive⟩
    show execLinkWake l s = _
    have hdrains : s.mode = 4 → s.pwr.drain.isSome = true := fun h => hmode.resolve_left (not_not_intro h)
    have hwait : (s.mode == 4 && !(s.pwr.drain.isSome && true)) = false := by simpa using hdrains
    simp only [execLinkWake, hst, beq_self_eq_true, Bool.true_or, hwait]
    simp [lsSleep, lsDoze]
  · refine ⟨_, ?_, ?_, ?_, ?_, s.modLink_only l.val fun L => { L with
      parkIn := L.parkIn.filter (fun k => k.epoch != s.epoch + 1), parkOut := L.parkOut.filter fun k => k.epoch != s.epoch + 1 }⟩
    · show execLinkWake l s = _
      simp [execLinkWake, hmode, hst, lsOpen, lsDoze, lsSleep]
    · simp [hst]
    · intro k
      simp
    · intro k
      simp

end Sys2Proof.Machine

namespace Sys2Proof.Machine

/-! ### Steps of training -/

@[simp] theorem State.linkState_setTrainStep (s : State) (n k m : Nat) : (s.setTrainStep n k).linkState m = s.linkState m :=
  State.fv_setF_ne s k (by simp only [Fld.apart, F.LNK_STATUS_train_step, F.LNK_STATUS_state]; omega)

theorem State.trainStep_setTrainStep (s : State) (n : Nat) {k : Nat} (h : k < 16) :
    (s.setTrainStep n k).fv (F.LNK_STATUS_train_step n) = k := by
  rw [State.setTrainStep, State.fv_setF_self _ _ _ (by simp [F.LNK_STATUS_train_step])]
  exact Nat.mod_eq_of_lt h

@[simp] theorem State.link_setTrainStep (s : State) (n k m : Nat) : (s.setTrainStep n k).link m = s.link m := State.link_setF _ _ _ _

theorem LinkOnly.setTrainStep {n : Nat} {as : List Nat} {s t : State} (h : LinkOnly n as s t) (k : Nat) (ha : R.LNK_STATUS n ∈ as) :
    LinkOnly n as s (t.setTrainStep n k) := h.setF _ k rfl ha

/-- The state code and the step of training are different fields. -/
theorem State.trainStep_setLinkState (s : State) (n v : Nat) :
    (s.setLinkState n v).fv (F.LNK_STATUS_train_step n) = s.fv (F.LNK_STATUS_train_step n) :=
  State.fv_setF_ne s v (by simp [Fld.apart, F.LNK_STATUS_state, F.LNK_STATUS_train_step])

/-- R32: both decision lanes are usable: nothing to report. -/
theorem State.setDecision_both (s : State) (n : Nat) : s.setDecision n true true =
    (s.modLink n fun L => { L with d0 := true, d1 := true }).setF (F.LNK_STATUS_decide_single n) 0 := rfl

/-- R51, R53: T4 and S2 find both decision lanes usable. -/
theorem State.setDecision_both_spec (s : State) (n : Nat) :
    ((s.setDecision n true true).setTrainStep n 5).linkState n = s.linkState n ∧
      ((s.setDecision n true true).setTrainStep n 5).fb (F.LNK_STATUS_decide_single n) = false ∧
      (((s.setDecision n true true).setTrainStep n 5).link n).d0 = true ∧
      (((s.setDecision n true true).setTrainStep n 5).link n).d1 = true ∧
      LinkOnly n [R.LNK_STATUS n] s ((s.setDecision n true true).setTrainStep n 5) := by
  rw [State.setDecision_both]
  refine ⟨?_, ?_, by simp, by simp, (((LinkOnly.refl n _ s).modLink _).setF (F.LNK_STATUS_decide_single n) 0 rfl
    (by simp [F.LNK_STATUS_decide_single, R.LNK_STATUS])).setTrainStep 5 (by simp)⟩
  · rw [State.linkState_setTrainStep]
    exact State.fv_setF_ne _ _ (by simp [Fld.apart, F.LNK_STATUS_decide_single, F.LNK_STATUS_state])
  · rw [State.setTrainStep, State.fb_setF_ne _ _ (by simp [Fld.apart, F.LNK_STATUS_decide_single, F.LNK_STATUS_train_step])]
    exact State.fb_setF_self _ _ _ (by decide) (by simp [F.LNK_STATUS_decide_single]) rfl

/-- R52, R53: training ends in the vestibule state, and what has waited is sent. -/
theorem State.trained_spec (s : State) (n : Nat) :
    (s.trained n).linkState n = lsVestibule ∧ ((s.link n).fresh = true → ((s.trained n).link n).rxE = 0) ∧
      ((s.trained n).link n).short = false ∧ LinkMoves n [R.LNK_STATUS n] s (s.trained n) := by
  unfold State.trained
  extract_lets t
  have hlink : t.link n = if (s.link n).fresh then { s.link n with
      rxE := 0, rxAny := false, rxDiscard := false, txSeq := 0, held := [], replayQ := [], fresh := false, short := false }
      else { s.link n with short := false } := s.link_modLink_self n _
  have honly : LinkOnly n [R.LNK_STATUS n] s (t.setLinkState n lsVestibule) :=
    ((LinkOnly.refl n _ s).modLink _).setF _ _ rfl (by simp [F.LNK_STATUS_state, R.LNK_STATUS])
  refine ⟨?_, fun hf => ?_, ?_, honly.moves ?_ ((State.pump_sends _ n).1.moves _)⟩
  · rw [(State.pump_sends _ n).1.linkState]
    exact State.linkState_setLinkState _ _ _ (by decide)
  · rw [State.pump_keeps _ _ (·.rxE) fun _ _ _ _ _ _ => rfl, State.setLinkState, State.link_setF, hlink, if_pos hf]
  · rw [State.pump_keeps _ _ (·.short) fun _ _ _ _ _ _ => rfl, State.setLinkState, State.link_setF, hlink]
    split <;> rfl
  · rw [State.setLinkState, State.link_setF, hlink]
    split <;> rfl

/-- R53: a short retrain goes on as a full training, and a training begins again, at T0. -/
theorem State.shortToFull_spec (s : State) (n : Nat) :
    (s.shortToFull n).linkState n = s.linkState n ∧ (s.shortToFull n).fv (F.LNK_STATUS_train_step n) = 0 ∧
      ((s.shortToFull n).link n).short = false ∧ LinkOnly n [R.LNK_STATUS n] s (s.shortToFull n) := by
  refine ⟨s.linkState_setTrainStep n 0 n, s.trainStep_setTrainStep n (by decide), ?_,
    ((LinkOnly.refl n _ s).setTrainStep 0 (by simp)).modLink _⟩
  simp [State.shortToFull]

/-! ### Failing -/

/-- R51, R54: the failure of a training before it is reported. -/
def State.trainingDown (s : State) (n cause : Nat) : State :=
  ((s.linkDown n).setF (F.LNK_STATUS_last_fail n) cause).modLink n fun L => { L with backoff := true }

theorem State.trainFail_eq (s : State) (n cause : Nat) :
    s.trainFail n cause = (s.trainingDown n cause).raise (Src.trainFail n) n := rfl

theorem State.trainingDown_only (s : State) (n cause : Nat) :
    LinkOnly n [R.LNK_STATUS n] (s.linkDown n) (s.trainingDown n cause) :=
  ((LinkOnly.refl n _ _).setF (F.LNK_STATUS_last_fail n) cause rfl (by simp [F.LNK_STATUS_last_fail, R.LNK_STATUS])).modLink _

theorem State.trainingDown_linkState (s : State) (n cause : Nat) : (s.trainingDown n cause).linkState n = lsDown := by
  rw [State.trainingDown, State.linkState_modLink, State.linkState,
    State.fv_setF_ne _ _ (by simp [Fld.apart, F.LNK_STATUS_last_fail, F.LNK_STATUS_state])]
  exact s.linkDown_linkState n

theorem State.trainingDown_lastFail (s : State) (n : Nat) {cause : Nat} (h : cause < 256) :
    (s.trainingDown n cause).fv (F.LNK_STATUS_last_fail n) = cause := by
  rw [State.trainingDown, State.fv_modLink, State.fv_setF_self _ _ _ (by simp [F.LNK_STATUS_last_fail])]
  exact Nat.mod_eq_of_lt h

/-- What stands whatever the severity of the report: the link is DOWN, with the back-off. -/
theorem State.trainFail_ends (s : State) (l : Link) (cause : Nat) :
    (s.trainFail l.val cause).linkState l.val = lsDown ∧ ((s.trainFail l.val cause).link l.val).backoff = true ∧
      SameMemory s (s.trainFail l.val cause) ∧ SameConfig s (s.trainFail l.val cause) ∧ (s.trainFail l.val cause).free = s.free := by
  have hdown := Survives.linkDown s l.val
  have hraise := State.raise_survives (s.trainingDown l.val cause) (Src.trainFail l.val) l.val
  obtain ⟨hlive, -, -⟩ := s.trainingDown_only l.val cause
  rw [← State.trainFail_eq] at hraise
  refine ⟨hraise.down l (s.trainingDown_linkState l.val cause), (hraise.backoff _).trans ?_, ⟨fun a => ?_, fun a => ?_⟩, ⟨?_, ?_⟩, ?_⟩
  · simp [State.trainingDown]
  · rw [hraise.dram, hlive, hdown.dram]
  · rw [hraise.larder, hlive, hdown.larder]
  · rw [hraise.staged, hlive, hdown.staged]
  · rw [hraise.active, hlive, hdown.active]
  · rw [hraise.free, hlive, hdown.free]

/-- R54: the cause of the failure, of 8 bits. -/
theorem State.trainFail_lastFail (s : State) (l : Link) {cause : Nat} (h : cause < 256) :
    (s.trainFail l.val cause).fv (F.LNK_STATUS_last_fail l.val) = cause :=
  ((State.raise_survives _ _ _).lastFail l).trans (s.trainingDown_lastFail l.val h)

/-- R75: the failure is reported, and the device goes on. -/
theorem State.trainFail_givenUp (s : State) (n cause : Nat) (h : s.severityOf (Src.trainFail n) ≠ 5) :
    TrainingGivenUp n s (s.trainFail n cause) := by
  have hsev : (s.trainingDown n cause).severityOf (Src.trainFail n) = s.severityOf (Src.trainFail n) := by
    refine State.severityOf_congr ?_ _
    rw [(s.trainingDown_only n cause).1]
    exact (Survives.linkDown s n).active
  have hrep := State.raise_reported (s.trainingDown n cause) (Src.trainFail n) n (hsev ▸ h)
  rw [← State.trainFail_eq] at hrep
  have hreqs : (s.trainFail n cause).reqs = (s.linkDown n).reqs := by
    rw [hrep.1, (s.trainingDown_only n cause).1]
  refine ⟨?_, ?_, ?_, ?_⟩
  · rw [hrep.link, State.trainingDown, State.link_modLink_self, State.link_setF, State.linkDown_link]
    rfl
  · rw [hreqs]
    exact s.linkDown_discards n
  · intro q hq
    rw [hreqs]
    exact s.linkDown_othersStay n q hq
  · exact ((s.linkDown_reports n).trans (.of_only (s.trainingDown_only n cause))).trans (.of_reported hrep)

end Sys2Proof.Machine

namespace Sys2Proof.Machine

/-- R453: at the first training of a link the lanes beyond its spares are counted, none here. -/
def State.skipNone (s : State) (n : Nat) : State := if (s.link n).fuseCounted then s else s.addF F.CST_CNT_SKIPPED_count 0

/-- R55, step T2: with no lane to repair no spare is given. -/
theorem State.assignDir_none {s : State} {n : Nat} {outbound : Bool} (h : s.fuseLanes n outbound = []) :
    s.assignDir n outbound [] = (s.skipNone n, []) := by
  simp [State.assignDir, h, State.assignLanes, State.skipNone]

@[simp] theorem State.skipNone_link (s : State) (n k : Nat) : (s.skipNone n).link k = s.link k := by
  unfold State.skipNone State.addF
  split <;> simp

theorem State.skipNone_linkState (s : State) (n k : Nat) : (s.skipNone n).linkState k = s.linkState k := by
  unfold State.skipNone
  split
  · rfl
  · exact State.fv_addF_ne _ _ (.inl (by simp only [F.CST_CNT_SKIPPED_count, F.LNK_STATUS_state]; omega))

theorem LinkOnly.skipNone {n : Nat} {as : List Nat} {s t : State} (h : LinkOnly n as s t) (ha : R.CST_CNT_SKIPPED ∈ as) :
    LinkOnly n as s (t.skipNone n) := by
  unfold State.skipNone
  split
  · exact h
  · exact h.setF F.CST_CNT_SKIPPED_count _ rfl ha

theorem LinkOnly.fuseLanes {n : Nat} {as : List Nat} {s t : State} (h : LinkOnly n as s t) (k : Nat) (outbound : Bool) :
    t.fuseLanes k outbound = s.fuseLanes k outbound := by
  unfold State.fuseLanes
  rw [h.1]

/-- Settles O7: a step that finds nothing wrong writes train_step alone; a failure is a link that goes DOWN, with a cause, and a
report. -/
theorem trainingEndsOrFails : Obligations.TrainingEndsOrFails := by
  refine ⟨⟨fun l s hst hrecv hhalt hbar hback hpll => ?_, fun l obs s k hst hshort hk hks hform hcent hal => ?_,
    fun l obs s hst hshort hk hform hin hout hweak hweak' => ?_, fun l obs s hst hshort hk hform h0 h1 => ?_,
    fun l obs s hst hshort hk hform hgrade => ?_, fun l s => ?_⟩,
    fun l s k cause hst hshort hk hcause => ?_, fun l s k hst hshort hk hks => ?_, fun l s hst => ?_, fun l obs s hst hshort hform => ?_⟩
  · have honly := (((LinkOnly.refl l.val [R.LNK_STATUS l.val] s).setTrainStep 0 (by simp)).setF (F.LNK_STATUS_state l.val) lsTraining rfl
      (by simp [F.LNK_STATUS_state, R.LNK_STATUS])).modLink fun L =>
        { L with short := false, fresh := true, eyeMin := s.fv (F.LNK_TRAIN_eye_min l.val) }
    refine ⟨_, ?_, ?_, ?_, ?_, honly⟩
    · show execTrainingStart l s = _
      simp [execTrainingStart, hst, hrecv, hhalt, hbar, hback, hpll]
      rfl
    · rw [State.linkState_modLink]
      exact State.linkState_setLinkState _ _ _ (by decide)
    · rw [State.fv_modLink]
      exact (State.trainStep_setLinkState _ _ _).trans (s.trainStep_setTrainStep _ (by decide))
    · simp
  · rcases hks with rfl | rfl | rfl
    · refine ⟨s.setTrainStep l.val 1, ?_, (s.linkState_setTrainStep _ _ _).trans hst, s.trainStep_setTrainStep _ (by decide),
        (LinkOnly.refl l.val _ s).setTrainStep 1 (by simp)⟩
      show execTrainStepDone l obs false s = _
      simp [execTrainStepDone, State.when, hst, hshort, hform, hk]
    · refine ⟨_, ?_, ?_, ?_, ((LinkOnly.refl l.val _ s).setTrainStep 2 (by simp)).modLink fun L => { L with weakIn := s.weakOf l.val obs.eyeIn }⟩
      · show execTrainStepDone l obs false s = _
        simp [execTrainStepDone, State.when, hst, hshort, hform, hk, hcent]
      · rw [State.linkState_modLink, State.linkState_setTrainStep, hst]
      · rw [State.fv_modLink]
        exact s.trainStep_setTrainStep _ (by decide)
    · refine ⟨s.setTrainStep l.val 4, ?_, (s.linkState_setTrainStep _ _ _).trans hst, s.trainStep_setTrainStep _ (by decide),
        (LinkOnly.refl l.val _ s).setTrainStep 4 (by simp)⟩
      show execTrainStepDone l obs false s = _
      simp [execTrainStepDone, State.when, hst, hshort, hform, hk, hal]
  · have hskip := (LinkOnly.refl l.val [R.LNK_STATUS l.val, R.CST_CNT_SKIPPED] s).skipNone (by simp)
    have honly := ((hskip.skipNone (by simp)).modLink fun L => { L with fuseCounted := true }).setTrainStep 3 (by simp)
    have hdirIn := State.assignDir_none hin
    have hdirOut := State.assignDir_none ((hskip.fuseLanes l.val true).trans hout)
    have hweakOut : (s.skipNone l.val).weakOf l.val obs.eyeOut = [] := by
      rw [← hweak', State.weakOf, State.skipNone_link]
      rfl
    refine ⟨_, ?_, ?_, State.trainStep_setTrainStep _ _ (by decide), honly⟩
    · show execTrainStepDone l obs false s = _
      simp [execTrainStepDone, State.when, hst, hshort, hform, hk, hweak, hdirIn, hweakOut, hdirOut]
    · rw [State.linkState_setTrainStep, State.linkState_modLink, State.skipNone_linkState, State.skipNone_linkState, hst]
  · obtain ⟨hstate, hsingle, hd0, hd1, honly⟩ := s.setDecision_both_spec l.val
    refine ⟨_, ?_, hstate.trans hst, State.trainStep_setTrainStep _ _ (by decide), hsingle, hd0, hd1, honly⟩
    show execTrainStepDone l obs false s = _
    simp [execTrainStepDone, State.when, hst, hshort, hform, hk, h0, h1]
  · obtain ⟨hstate, hrx, -, hmoves⟩ := s.trained_spec l.val
    refine ⟨s.trained l.val, ?_, hstate, hrx, hmoves⟩
    show execTrainStepDone l obs false s = _
    simp [execTrainStepDone, State.when, hst, hshort, hform, hk, hgrade]
  · exact ⟨_, rfl, by simp, s.modLink_only l.val _⟩
  · obtain ⟨hdown, hback, hmem, hcfg, -⟩ := s.trainFail_ends l cause
    refine ⟨s.trainFail l.val cause, ?_, hdown, s.trainFail_lastFail l (by omega), hback, hmem, hcfg, s.trainFail_givenUp l.val cause⟩
    show execTrainStepTimeout l s = _
    rcases hcause with ⟨rfl, rfl⟩ | ⟨rfl, rfl⟩ | ⟨rfl, rfl⟩ <;> simp [execTrainStepTimeout, hst, hshort, hk]
  · obtain ⟨hdown, hback, -, -, hfree⟩ := State.trainFail_ends { s with free := s.free + 1 } l (Config.freeValue s.free).toNat
    refine ⟨State.trainFail { s with free := s.free + 1 } l.val (Config.freeValue s.free).toNat, ?_, hdown, hback, hfree,
      State.trainFail_givenUp { s with free := s.free + 1 } l.val _⟩
    show execTrainStepTimeout l s = _
    rcases hks with rfl | rfl | rfl <;> simp [execTrainStepTimeout, hst, hshort, hk, State.takeFree]
  · obtain ⟨hdown, hback, hmem, hcfg, -⟩ := s.trainFail_ends l 6
    refine ⟨s.trainFail l.val 6, ?_, hdown, s.trainFail_lastFail l (by decide), hback, hmem, hcfg, s.trainFail_givenUp l.val 6⟩
    show execTrainTotalTimeout l s = _
    simp [execTrainTotalTimeout, hst]
  · obtain ⟨hdown, hback, hmem, hcfg, -⟩ := s.trainFail_ends l 7
    refine ⟨s.trainFail l.val 7, ?_, hdown, s.trainFail_lastFail l (by decide), hback, hmem, hcfg, s.trainFail_givenUp l.val 7⟩
    show execTrainStepDone l obs false s = _
    simp [execTrainStepDone, State.when, hst, hshort, hform]

end Sys2Proof.Machine

namespace Sys2Proof.Machine

/-! ### Retraining -/

theorem Reported.reqs {s t : State} (h : Reported s t) : t.reqs = s.reqs := by rw [h.1]
theorem Reported.sentTags {s t : State} (h : Reported s t) : t.sentTags = s.sentTags := by rw [h.1]

/-- The record of a link whose training begins again from OPEN, VESTIBULE or DOZE (R50): what is held stays. -/
def LinkSt.retrain (L : LinkSt) (eyeMin : Nat) : LinkSt :=
  { L with short := false, fresh := false, replayAck := none, replayHeld := L.replayHeld || !L.replayQ.isEmpty, eyeMin := eyeMin }

/-- A link that has left its state for TRAINING, before its registers tell. -/
def State.retraining (s : State) (n : Nat) : State :=
  (s.leaveLink n lsTraining).modLink n fun L => L.retrain ((s.leaveLink n lsTraining).fv (F.LNK_TRAIN_eye_min n))

theorem State.startRetrain_eq (s : State) (n : Nat) : s.startRetrain n =
    ((((s.retraining n).inc (F.LNK_CNT_RETRAIN_count n)).setF (F.LNK_STATUS_train_step n) 0).setF (F.LNK_CTL_retrain n) 0).setLinkState n
      lsTraining := rfl

theorem State.retraining_leaves (s : State) (n : Nat) : LinkLeaves n s (s.retraining n) :=
  (s.leaveLink_leaves n lsTraining).1.trans (State.modLink_leaves _ n _)

/-- The registers that a retraining writes. -/
theorem State.startRetrain_only (s : State) (n : Nat) :
    LinkOnly n [R.LNK_STATUS n, R.LNK_CNT_RETRAIN n, R.LNK_CTL n] (s.retraining n) (s.startRetrain n) :=
  ((((LinkOnly.refl n _ (s.retraining n)).inc (F.LNK_CNT_RETRAIN_count n) rfl
    (by simp [F.LNK_CNT_RETRAIN_count, R.LNK_CNT_RETRAIN])).setF (F.LNK_STATUS_train_step n) 0 rfl
    (by simp [F.LNK_STATUS_train_step, R.LNK_STATUS])).setF (F.LNK_CTL_retrain n) 0 rfl
    (by simp [F.LNK_CTL_retrain, R.LNK_CTL])).setF (F.LNK_STATUS_state n) lsTraining rfl (by simp [F.LNK_STATUS_state, R.LNK_STATUS])

theorem State.startRetrain_link (s : State) (n : Nat) : (s.startRetrain n).link n =
    ((s.link n).leave true (s.linkState n == lsOpen)).retrain (s.fv (F.LNK_TRAIN_eye_min n)) := by
  obtain ⟨hleave, -, hlink⟩ := s.leaveLink_leaves n lsTraining
  rw [State.startRetrain_eq, State.setLinkState, State.link_setF, State.link_setF, State.link_setF, State.link_inc, State.retraining,
    State.link_modLink_self, hlink, hleave.fv]
  congr 2
  simp [lsTraining, lsDoze]

theorem State.startRetrain_linkState (s : State) (n : Nat) : (s.startRetrain n).linkState n = lsTraining :=
  State.linkState_setLinkState _ _ _ (by decide)

theorem State.startRetrain_step (s : State) (n : Nat) : (s.startRetrain n).fv (F.LNK_STATUS_train_step n) = 0 := by
  rw [State.startRetrain_eq, State.trainStep_setLinkState,
    State.fv_setF_ne _ _ (.inl (by simp only [F.LNK_CTL_retrain, F.LNK_STATUS_train_step]; omega))]
  exact State.trainStep_setTrainStep _ _ (by decide)

theorem State.startRetrain_counted (s : State) (n : Nat) : Counted (F.LNK_CNT_RETRAIN_count n) s (s.startRetrain n) := by
  rw [Counted, State.startRetrain_eq, State.setLinkState,
    State.fv_setF_ne _ _ (.inl (by simp only [F.LNK_STATUS_state, F.LNK_CNT_RETRAIN_count]; omega)),
    State.fv_setF_ne _ _ (.inl (by simp only [F.LNK_CTL_retrain, F.LNK_CNT_RETRAIN_count]; omega)),
    State.fv_setF_ne _ _ (.inl (by simp only [F.LNK_STATUS_train_step, F.LNK_CNT_RETRAIN_count]; omega)),
    State.fv_inc_self _ _ (by simp [F.LNK_CNT_RETRAIN_count]), (s.retraining_leaves n).fv]

theorem State.startRetrain_severityOf (s : State) (n src : Nat) : (s.startRetrain n).severityOf src = s.severityOf src := by
  refine State.severityOf_congr ?_ src
  rw [(s.startRetrain_only n).1, (s.retraining_leaves n).1]

theorem State.startRetrain_reqs (s : State) (n : Nat) :
    (s.startRetrain n).reqs = s.reqs.filter fun r => !(r.tentative && r.link == n) := by
  rw [(s.startRetrain_only n).1]
  exact (s.leaveLink_leaves n lsTraining).2.1

theorem State.startRetrain_sentTags (s : State) (n : Nat) : (s.startRetrain n).sentTags = s.sentTags := by
  rw [(s.startRetrain_only n).1, (s.retraining_leaves n).1]

/-- R14, R50: an OPEN link whose report is not fatal goes to TRAINING at T0, which counts as a retraining. -/
theorem State.retrainFromOpen_spec (s : State) (l : Link) (hst : s.linkState l.val = lsOpen)
    (hsev : s.severityOf (Src.retrain l.val) ≠ 5) :
    (s.retrainFromOpen l.val).linkState l.val = lsTraining ∧
      (s.retrainFromOpen l.val).fv (F.LNK_STATUS_train_step l.val) = 0 ∧
      Counted (F.LNK_CNT_RETRAIN_count l.val) s (s.retrainFromOpen l.val) ∧
      ((s.retrainFromOpen l.val).link l.val).frozen = some (s.link l.val).hist ∧
      Retrained l.val s (s.retrainFromOpen l.val) := by
  have hrep : Reported (s.startRetrain l.val) (s.retrainFromOpen l.val) :=
    State.raise_reported _ (Src.retrain l.val) l.val (by rwa [State.startRetrain_severityOf])
  have hlink := s.startRetrain_link l.val
  rw [hst] at hlink
  refine ⟨?_, ?_, ?_, ?_, ?_, ?_, ?_, ?_⟩
  · rw [hrep.linkState, State.startRetrain_linkState]
  · rw [hrep.fv _ (linkReg_not_report l (o := 4) (by decide)), State.startRetrain_step]
  · rw [Counted, hrep.fv _ (linkReg_not_report l (o := 0x50) (by decide))]
    exact s.startRetrain_counted l.val
  · rw [hrep.link, hlink]
    exact LinkSt.leave_frozen _ true
  · rw [hrep.link, hlink]
    exact LinkSt.leave_held _ _ _
  · exact hrep.reqs.trans (s.startRetrain_reqs l.val)
  · exact hrep.sentTags.trans (s.startRetrain_sentTags l.val)
  · exact ((LinkReports.of_leaves (s.retraining_leaves l.val)).trans (.of_only (s.startRetrain_only l.val))).trans (.of_reported hrep)

/-- Settles O8: an OPEN link leaves its state and writes its registers; the steps of a training that goes on write train_step. -/
theorem linksRetrain : Obligations.LinksRetrain := by
  refine ⟨⟨fun l s hst hsev => ?_, fun l s hst hsev => ?_, fun l s hst => ?_⟩, fun l obs s k next hst hshort hk hks hform hcent => ?_,
    fun l obs s hst hshort hk hform h0 h1 => ?_, fun l obs s hst hshort hk hform hgrade => ?_, fun l s hst hshort => ?_⟩
  · obtain ⟨hstate, hstep, hcount, hfrozen, hret⟩ := s.retrainFromOpen_spec l hst hsev
    refine ⟨s.retrainFromOpen l.val, ?_, hstate, hstep, hcount, hfrozen, hret⟩
    show execClockDrift l s = _
    simp [execClockDrift, hst]
  · obtain ⟨hstate, hstep, hcount, -, hret⟩ := s.retrainFromOpen_spec l hst hsev
    refine ⟨s.retrainFromOpen l.val, ?_, hstate, hstep, hcount, hret⟩
    show execForwardedClockStop l s = _
    simp [execForwardedClockStop, State.retrainAny, hst, lsOpen, lsTraining]
  · obtain ⟨hstate, hstep, hshort, honly⟩ := s.shortToFull_spec l.val
    refine ⟨s.shortToFull l.val, ?_, hstate.trans hst, hstep, hshort, honly⟩
    show execForwardedClockStop l s = _
    simp [execForwardedClockStop, hst]
    rfl
  · have hnext : exec (.shortRetrainStepDone l obs false) s = .next (s.setTrainStep l.val next) := by
      show execShortRetrainStepDone l obs false s = _
      rcases hks with ⟨rfl, rfl⟩ | ⟨rfl, rfl⟩ <;> simp [execShortRetrainStepDone, State.when, hst, hshort, hform, hk, hcent]
    obtain ⟨he, -, hlive⟩ := (LinkOnly.refl l.val [R.LNK_STATUS l.val] s).setTrainStep next (by simp)
    refine ⟨_, hnext, (s.linkState_setTrainStep _ _ _).trans hst, s.trainStep_setTrainStep _ (by omega), ?_, State.setF_live _ _ _ rfl, hlive⟩
    rw [State.link_setTrainStep, hshort]
  · obtain ⟨hstate, -, hd0, hd1, honly⟩ := s.setDecision_both_spec l.val
    refine ⟨_, ?_, hstate.trans hst, State.trainStep_setTrainStep _ _ (by decide), hd0, hd1, honly⟩
    show execShortRetrainStepDone l obs false s = _
    simp [execShortRetrainStepDone, State.when, hst, hshort, hform, hk, h0, h1]
  · obtain ⟨hstate, -, hshort', hmoves⟩ := s.trained_spec l.val
    refine ⟨s.trained l.val, ?_, hstate, hshort', hmoves⟩
    show execShortRetrainStepDone l obs false s = _
    simp [execShortRetrainStepDone, State.when, hst, hshort, hform, hk, hgrade]
  · obtain ⟨hstate, hstep, hshort', honly⟩ := s.shortToFull_spec l.val
    refine ⟨s.shortToFull l.val, ?_, hstate.trans hst, hstep, hshort', honly⟩
    show execShortRetrainTimeout l s = _
    simp [execShortRetrainTimeout, hst, hshort]

end Sys2Proof.Machine

namespace Sys2Proof.Machine

/-! ### Spares of a direction -/

/-- The register of R62 that tells the spares of a direction. -/
def spareReg (n : Nat) (outbound : Bool) : Nat := if outbound then R.LNK_REPAIR_OUT n else R.LNK_REPAIR_IN n

/-- The spares that such a register tells: (spare, lane, source). -/
def sparesOf (w : Word) : List (Nat × Nat × Nat) :=
  (if w.field 7 1 = 1 then [(0, w.field 0 7, w.field 8 2)] else []) ++ if w.field 17 1 = 1 then [(1, w.field 10 7, w.field 18 2)] else []

theorem State.assigned_eq (s : State) (n : Nat) (outbound : Bool) :
    s.assigned n outbound = sparesOf (s.live.val (spareReg n outbound)) := by
  cases outbound <;> rfl

theorem State.assigned_congr {s t : State} {n : Nat} {outbound : Bool}
    (h : t.live.val (spareReg n outbound) = s.live.val (spareReg n outbound)) : t.assigned n outbound = s.assigned n outbound := by
  rw [State.assigned_eq, State.assigned_eq, h]

theorem State.freeSpare_congr {s t : State} {n : Nat} {outbound : Bool}
    (h : t.live.val (spareReg n outbound) = s.live.val (spareReg n outbound)) : t.freeSpare n outbound = s.freeSpare n outbound := by
  unfold State.freeSpare
  rw [State.assigned_congr h]

/-- A register of spares with the entry at bit `o` written: the lane, that the spare is assigned, and the source. -/
def spareSet (w : Word) (o lane src : Nat) : Word := ((w.setField o 7 lane).setField (o + 7) 1 1).setField (o + 8) 2 src

theorem spareSet_lane (w : Word) {o lane src : Nat} (ho : o + 10 ≤ 32) (h : lane < 128) : (spareSet w o lane src).field o 7 = lane := by
  rw [spareSet, Word.field_setField_ne _ _ (by omega), Word.field_setField_ne _ _ (by omega),
    Word.field_setField_self _ _ _ _ (by omega)]
  omega

theorem spareSet_assigned (w : Word) {o lane src : Nat} (ho : o + 10 ≤ 32) : (spareSet w o lane src).field (o + 7) 1 = 1 := by
  rw [spareSet, Word.field_setField_ne _ _ (by omega), Word.field_setField_self _ _ _ _ (by omega)]
  rfl

theorem spareSet_source (w : Word) {o lane src : Nat} (ho : o + 10 ≤ 32) (h : src < 4) :
    (spareSet w o lane src).field (o + 8) 2 = src := by
  rw [spareSet, Word.field_setField_self _ _ _ _ (by omega)]
  omega

/-- The bit of a direction's register at which the entry of a spare begins. -/
def spareBit (spare : Nat) : Nat := if spare = 0 then 0 else 10

theorem mem_sparesOf_spareSet (w : Word) {spare lane src : Nat} (hs : spare ≤ 1) (hl : lane < 128) (hc : src < 4) :
    (spare, lane, src) ∈ sparesOf (spareSet w (spareBit spare) lane src) := by
  rcases (by omega : spare = 0 ∨ spare = 1) with rfl | rfl
  · have hset : (spareSet w 0 lane src).field 7 1 = 1 := spareSet_assigned w (by decide)
    have hlane : (spareSet w 0 lane src).field 0 7 = lane := spareSet_lane w (by decide) hl
    have hsrc : (spareSet w 0 lane src).field 8 2 = src := spareSet_source w (by decide) hc
    simp [spareBit, sparesOf, hset, hlane, hsrc]
  · have hset : (spareSet w 10 lane src).field 17 1 = 1 := spareSet_assigned w (by decide)
    have hlane : (spareSet w 10 lane src).field 10 7 = lane := spareSet_lane w (by decide) hl
    have hsrc : (spareSet w 10 lane src).field 18 2 = src := spareSet_source w (by decide) hc
    simp [spareBit, sparesOf, hset, hlane, hsrc]

/-- The entry of a spare has been written, and nothing has been said of the spares that are left. -/
def State.putSpare (s : State) (n : Nat) (outbound : Bool) (spare lane src : Nat) : State :=
  { s with live := s.live.put (spareReg n outbound) (spareSet (s.live.val (spareReg n outbound)) (spareBit spare) lane src) }

/-- The flag of R62 that both spares of a direction are assigned. -/
def exhaustedFld (n : Nat) (outbound : Bool) : Fld :=
  if outbound then F.LNK_STATUS_spares_out_exhausted n else F.LNK_STATUS_spares_in_exhausted n

theorem State.setSpare_eq (s : State) (n : Nat) (outbound : Bool) (spare lane src : Nat) :
    s.setSpare n outbound spare lane src =
      if ((s.putSpare n outbound spare lane src).assigned n outbound).length = 2 then
        (s.putSpare n outbound spare lane src).setF (exhaustedFld n outbound) 1
      else s.putSpare n outbound spare lane src := by
  cases outbound <;> rfl

theorem exhaustedFld_addr (n : Nat) (outbound : Bool) : (exhaustedFld n outbound).addr = R.LNK_STATUS n := by cases outbound <;> rfl

theorem State.setSpare_only (s : State) (n : Nat) (outbound : Bool) (spare lane src : Nat) :
    LinkOnly n [R.LNK_STATUS n, R.LNK_REPAIR_IN n, R.LNK_REPAIR_OUT n] s (s.setSpare n outbound spare lane src) := by
  have hput : LinkOnly n [R.LNK_STATUS n, R.LNK_REPAIR_IN n, R.LNK_REPAIR_OUT n] s (s.putSpare n outbound spare lane src) :=
    (LinkOnly.refl n _ s).live_put _ _ (by cases outbound <;> simp [spareReg])
  rw [State.setSpare_eq]
  split
  · exact hput.setF _ 1 (by cases outbound <;> rfl) (by simp [exhaustedFld_addr])
  · exact hput

@[simp] theorem State.setSpare_link (s : State) (n : Nat) (outbound : Bool) (spare lane src k : Nat) :
    (s.setSpare n outbound spare lane src).link k = s.link k := by
  rw [State.setSpare_eq]
  split
  · exact State.link_setF _ _ _ _
  · rfl

/-- LNK_STATUS is none of the registers of spares. -/
theorem State.setSpare_val (s : State) (n : Nat) (outbound : Bool) (spare lane src : Nat) {a : Nat} (ha : a ≠ R.LNK_STATUS n) :
    (s.setSpare n outbound spare lane src).live.val a = (s.putSpare n outbound spare lane src).live.val a := by
  rw [State.setSpare_eq]
  split
  · rw [State.setF_live _ _ _ (by cases outbound <;> rfl)]
    exact RegMap.val_setF_ne _ _ _ (by rwa [exhaustedFld_addr])
  · rfl

theorem spareReg_ne_status (n : Nat) (outbound : Bool) : spareReg n outbound ≠ R.LNK_STATUS n := by
  cases outbound <;> simp [spareReg, R.LNK_STATUS, R.LNK_REPAIR_IN, R.LNK_REPAIR_OUT]

/-- R62: the register of the direction names the lane under the spare, with the source. -/
theorem State.mem_assigned_setSpare (s : State) (n : Nat) (outbound : Bool) {spare lane src : Nat} (hs : spare ≤ 1) (hl : lane < 128)
    (hc : src < 4) : (spare, lane, src) ∈ (s.setSpare n outbound spare lane src).assigned n outbound := by
  rw [State.assigned_eq, State.setSpare_val _ _ _ _ _ _ (spareReg_ne_status n outbound), State.putSpare, RegMap.val_put_self]
  exact mem_sparesOf_spareSet _ hs hl hc

theorem State.assigned_setSpare_not (s : State) (n : Nat) (outbound : Bool) (spare lane src : Nat) :
    (s.setSpare n outbound spare lane src).assigned n (!outbound) = s.assigned n (!outbound) := by
  refine State.assigned_congr ?_
  rw [State.setSpare_val _ _ _ _ _ _ (spareReg_ne_status n _), State.putSpare]
  exact RegMap.val_put_ne _ _ (by cases outbound <;> simp [spareReg, R.LNK_REPAIR_IN, R.LNK_REPAIR_OUT])

theorem State.setSpare_pending (s : State) (n : Nat) (outbound : Bool) (spare lane src : Nat) :
    (s.setSpare n outbound spare lane src).fb (F.LNK_STATUS_repair_pending n) = s.fb (F.LNK_STATUS_repair_pending n) := by
  have hput : (s.putSpare n outbound spare lane src).fb (F.LNK_STATUS_repair_pending n) = s.fb (F.LNK_STATUS_repair_pending n) := by
    have hval : (s.putSpare n outbound spare lane src).live.val (R.LNK_STATUS n) = s.live.val (R.LNK_STATUS n) :=
      RegMap.val_put_ne _ _ (spareReg_ne_status n outbound).symm
    have hfv : (s.putSpare n outbound spare lane src).fv (F.LNK_STATUS_repair_pending n) = s.fv (F.LNK_STATUS_repair_pending n) :=
      State.fv_congr hval rfl
    unfold State.fb
    rw [hfv]
  rw [State.setSpare_eq]
  split
  · rw [State.fb_setF_ne, hput]
    cases outbound <;> simp [Fld.apart, exhaustedFld, F.LNK_STATUS_repair_pending, F.LNK_STATUS_spares_out_exhausted,
      F.LNK_STATUS_spares_in_exhausted]
  · exact hput

/-! ### Repairs that are pending -/

/-- R62: repair_pending tells whether an exchange is acknowledged. -/
theorem State.showPending_fb (s : State) (n : Nat) :
    (s.showPending n).fb (F.LNK_STATUS_repair_pending n) = (s.link n).repairs.any (·.acked) := by
  rw [State.showPending, State.fb_setF_self _ _ _ (by split <;> decide) (by simp [F.LNK_STATUS_repair_pending]) rfl]
  split <;> simp_all

@[simp] theorem State.showPending_link (s : State) (n k : Nat) : (s.showPending n).link k = s.link k := State.link_setF _ _ _ _

theorem LinkOnly.showPending {n : Nat} {as : List Nat} {s t : State} (h : LinkOnly n as s t) (ha : R.LNK_STATUS n ∈ as) :
    LinkOnly n as s (t.showPending n) := h.setF _ _ rfl ha

end Sys2Proof.Machine

namespace Sys2Proof.Machine

/-! ### The repair exchange -/

/-- A step of the link, and then reports. -/
theorem LinkOnly.reported {n : Nat} {as : List Nat} {s t u : State} (h : LinkOnly n as s t) (h' : Reported t u) :
    u = { s with links := u.links, live := u.live, evq := u.evq, evLost := u.evLost, flt := u.flt } ∧ LinksBut n s u ∧
      LiveBut (as ++ reportRegs) s u := by
  have hlinks : u.links = t.links := by rw [h'.1]
  refine ⟨?_, fun k hk => (h'.link k).trans (h.2.1 k hk), h.2.2.trans h'.2 (List.subset_append_left _ _) (List.subset_append_right _ _)⟩
  rw [hlinks, h'.1, h.1]

theorem LinkSends.fb {n : Nat} {s t : State} (h : LinkSends n s t) (f : Fld) : t.fb f = s.fb f := by
  unfold State.fb
  rw [h.fv]

theorem Reported.fb {s t : State} (h : Reported s t) (f : Fld) (hf : f.addr ∉ reportRegs) : t.fb f = s.fb f := by
  unfold State.fb
  rw [h.fv f hf]

theorem LinkOnly.severityOf {n : Nat} {as : List Nat} {s t : State} (h : LinkOnly n as s t) (src : Nat) :
    t.severityOf src = s.severityOf src :=
  State.severityOf_congr (by rw [h.1]) src

/-- An exchange begins. -/
def LinkSt.addRepair (x : RepairX) (L : LinkSt) : LinkSt := { L with repairs := L.repairs ++ [x] }

/-- The exchange that a REPAIR of the other end names, as this end acknowledges it (R57, R59). -/
def repairOf (p : Payload) : RepairX := ⟨p.at 4 1 == 1, p.at 5 1, p.at 6 1, p.at 8 8, true, false⟩

@[simp] theorem LinkSt.addRepair_repairs (x : RepairX) (L : LinkSt) : (L.addRepair x).repairs = L.repairs ++ [x] := rfl
@[simp] theorem LinkSt.addRepair_out (x : RepairX) (L : LinkSt) : (L.addRepair x).out = L.out := rfl
@[simp] theorem LinkSt.addRepair_flits (x : RepairX) (L : LinkSt) : (L.addRepair x).flits = L.flits := rfl

/-- R57: the lane that software named is about to be asked for. -/
def State.askNamed (s : State) (n : Nat) (x : RepairX) : State := (s.setF (F.LNK_REPAIR_REQ_go n) 0).modLink n (LinkSt.addRepair x)

@[simp] theorem State.askNamed_link (s : State) (n : Nat) (x : RepairX) : (s.askNamed n x).link n = (s.link n).addRepair x := by
  rw [State.askNamed, State.link_modLink_self, State.link_setF]

/-- R57: the REPAIR of the other end is agreed to. -/
def State.promise (s : State) (n : Nat) (p : Payload) : State :=
  ((s.popInbox n).modLink n (LinkSt.addRepair (repairOf p))).showPending n

@[simp] theorem State.promise_link (s : State) (n : Nat) (p : Payload) :
    (s.promise n p).link n = LinkSt.addRepair (repairOf p) { s.link n with inbox := (s.link n).inbox.tail } := by
  rw [State.promise, State.showPending_link, State.link_modLink_self, State.popInbox_link]

/-- R57: a REPAIR is refused when its spare or its lane is none, or when the spare is assigned or promised. -/
theorem execRepair_eq {l : Link} {s : State} {p : Payload} (hp : (s.link l.val).control 3 = some p) :
    execRepair l s = .next
      (if decide (1 < p.at 5 1) || decide (69 < p.at 6 1) || (s.assigned l.val (p.at 4 1 == 1)).any (fun a => a.1 == p.at 5 1) ||
          (s.link l.val).repairs.any (fun y => y.acked && y.outbound == (p.at 4 1 == 1) && y.spare == p.at 5 1) then
        (s.popInbox l.val).answerControl l.val 5 p
      else (s.promise l.val p).answerControl l.val 4 p) := by
  have hassigned : ∀ o, (s.popInbox l.val).assigned l.val o = s.assigned l.val o := fun _ => rfl
  simp only [execRepair, hp, State.popInbox_link, hassigned]
  exact (apply_ite _ _ _ _).symm

/-- Settles O9: a message is taken, answered or sent; at the boundary the entry of the spare is written and the repair reported. -/
theorem lanesAreRepairedInService : Obligations.LanesAreRepairedInService := by
  refine ⟨⟨fun l lane e s sp htalks hgo hlane hrep he hfree => ?_, fun l lane e s dir sp htalks hgo hlane hdir hrep he hfree => ?_,
    fun l s p hp hsp hla hassigned hrep => ?_, fun l s p hp hassigned => ?_, fun l s p hp => ?_, fun l s p hp => ?_, fun l s => ?_⟩,
    fun l s x hb hx hsp hla hsev => ?_⟩
  · have hsends := LinkSends.of_modLink (s := s) (fun _ => .inl) (State.sendMgmt_sends
      (s.modLink l.val fun L => { L with
        repairs := L.repairs ++ [⟨false, sp, lane.val, e.toNat, false, true⟩], laneReq := L.laneReq.filter (· ≠ lane.val) }) l.val
      (repairMsg 3 ⟨false, sp, lane.val, e.toNat, false, true⟩))
    refine ⟨_, ?_, ?_, ?_, ?_, hsends⟩
    · show execLaneRepairRequest l lane e s = _
      have hnone : ((s.link l.val).repairs.any fun x => x.outbound == false) = false := by simpa using hrep
      simp only [execLaneRepairRequest, hgo, hnone, htalks, List.contains_eq_mem, hlane, he, Bool.false_and, Bool.false_or, Bool.not_false,
        Bool.and_self, decide_true, if_true, State.when, Bool.false_eq_true, if_false, hfree]
    · rw [State.sendMgmt_keeps _ _ _ (·.repairs) (fun _ _ _ _ _ _ => rfl) fun _ => rfl, State.link_modLink_self]
    · rw [State.sendMgmt_keeps _ _ _ (·.laneReq) (fun _ _ _ _ _ _ => rfl) fun _ => rfl, State.link_modLink_self]
      simp
    · rw [State.sendMgmt_flits, State.link_modLink_self]
      rfl
  · have hreq : LinkOnly l.val [R.LNK_REPAIR_REQ l.val] s (s.askNamed l.val ⟨dir, sp, lane.val, e.toNat, false, true⟩) :=
      ((LinkOnly.refl l.val _ s).setF (F.LNK_REPAIR_REQ_go l.val) 0 rfl (by simp [F.LNK_REPAIR_REQ_go, R.LNK_REPAIR_REQ])).modLink _
    have hsends := State.sendMgmt_sends (s.askNamed l.val ⟨dir, sp, lane.val, e.toNat, false, true⟩) l.val
      (repairMsg 3 ⟨dir, sp, lane.val, e.toNat, false, true⟩)
    refine ⟨_, ?_, ?_, ?_, ?_, hreq.moves ?_ (hsends.moves _)⟩
    · show execLaneRepairRequest l lane e s = _
      have hnone : ((s.link l.val).repairs.any fun x => x.outbound == dir) = false := by simpa using hrep
      have hfree' : (s.setF (F.LNK_REPAIR_REQ_go l.val) 0).freeSpare l.val dir = some sp := by
        rw [← hfree, State.setF_live _ _ _ rfl]
        exact State.freeSpare_congr (RegMap.val_setF_ne _ _ _ (by
          cases dir <;> simp [spareReg, F.LNK_REPAIR_REQ_go, R.LNK_REPAIR_IN, R.LNK_REPAIR_OUT]))
      simp only [execLaneRepairRequest, hgo, hlane, hdir, hnone, htalks, he, beq_self_eq_true, Bool.true_and, Bool.true_or, Bool.not_false,
        Bool.and_self, decide_true, if_true, State.when, hfree']
      rfl
    · rw [State.sendMgmt_keeps _ _ _ (·.repairs) (fun _ _ _ _ _ _ => rfl) fun _ => rfl, State.askNamed_link, LinkSt.addRepair_repairs]
    · rw [hsends.fb, State.askNamed, State.fb_modLink]
      exact State.fb_setF_self _ _ _ (by decide) (by simp [F.LNK_REPAIR_REQ_go]) rfl
    · rw [State.sendMgmt_flits, State.askNamed_link, LinkSt.addRepair_flits]
    · simp
  · have honly : LinkOnly l.val [R.LNK_STATUS l.val] s (s.promise l.val p) :=
      (((LinkOnly.refl l.val _ s).modLink _).modLink _).showPending (by simp)
    have hsends := State.answerControl_sends (s.promise l.val p) l.val 4 p
    refine ⟨_, ?_, ?_, ?_, ?_, honly.moves ?_ (hsends.moves _)⟩
    · show execRepair l s = _
      have hfree : ((s.assigned l.val (p.at 4 1 == 1)).any fun a => a.1 == p.at 5 1) = false := by simpa using hassigned
      have hunnamed : ((s.link l.val).repairs.any fun y =>
          y.acked && y.outbound == (p.at 4 1 == 1) && y.spare == p.at 5 1) = false := by
        simp only [List.any_eq_false, Bool.and_eq_true, beq_iff_eq, not_and]
        exact fun y hy h => hrep y hy h.1 h.2
      rw [execRepair_eq hp, hfree, hunnamed]
      simp [Nat.not_lt.mpr hsp, Nat.not_lt.mpr hla]
    · rw [State.answerControl_keeps _ _ _ _ (·.repairs) (fun _ _ _ _ _ _ => rfl) fun _ => rfl, State.promise_link]
      rfl
    · rw [hsends.fb, State.promise, State.showPending_fb, State.link_modLink_self]
      simp [repairOf]
    · rw [State.answerControl_flits, State.promise_link]
      rfl
    · simp
  · have hsends := (State.answerControl_sends (s.popInbox l.val) l.val 5 p).of_popInbox
    refine ⟨_, ?_, ?_, ?_, hsends⟩
    · show execRepair l s = _
      have htaken : ((s.assigned l.val (p.at 4 1 == 1)).any fun a => a.1 == p.at 5 1) = true := by simpa using hassigned
      rw [execRepair_eq hp, htaken]
      simp
    · rw [State.answerControl_keeps _ _ _ _ (·.repairs) (fun _ _ _ _ _ _ => rfl) fun _ => rfl, State.popInbox_link]
    · rw [State.answerControl_flits, State.popInbox_link]
      rfl
  · refine ⟨_, ?_, ?_, ?_, ?_, (((LinkOnly.refl l.val [R.LNK_STATUS l.val] s).modLink fun L => { L with inbox := L.inbox.tail }).modLink fun L =>
      { L with repairs := L.repairs.map fun x => if x.answers p && decide (s.epoch + 2 < x.epoch) then { x with acked := true } else x }).showPending
        (by simp)⟩
    · show execRepairAck l s = _
      simp only [execRepairAck, hp]
      rfl
    · simp
    · simp
    · rw [State.showPending_fb, State.showPending_link]
  · refine ⟨_, ?_, ?_, ?_, s.popInbox_modLink_only l.val fun L => { L with repairs := L.repairs.filter fun x => !x.answers p }⟩
    · show execRepairNak l s = _
      simp only [execRepairNak, hp]
    · simp
    · simp
  · refine ⟨_, rfl, fun x => ?_, s.modLink_only l.val _⟩
    simp only [State.link_modLink_self, List.mem_filter]
    cases x.mine <;> cases x.acked <;> simp
  · have hpop := ((LinkOnly.refl l.val [R.LNK_STATUS l.val, R.LNK_REPAIR_IN l.val, R.LNK_REPAIR_OUT l.val] s).modLink
      fun L => { L with repairs := L.repairs.filter fun y => !(y.acked && y.epoch == s.epoch) }).showPending (by simp)
    have hspare := hpop.trans (State.setSpare_only _ l.val x.outbound x.spare x.lane 2)
    have hsev' := hspare.severityOf (Src.laneRepair l.val)
    have hrep := State.raise_reported _ (Src.laneRepair l.val) l.val (hsev' ▸ hsev)
    have hval : ∀ outbound, spareReg l.val outbound ∉ reportRegs := fun outbound => by
      cases outbound
      · exact linkReg_not_report l (o := 0xc) (by decide)
      · exact linkReg_not_report l (o := 0x10) (by decide)
    refine ⟨_, ?_, ?_, ?_, ?_, ?_, hspare.reported hrep⟩
    · show execLaneRepairSwitch l s = _
      have hdue : ((s.link l.val).repairs.any fun y => y.acked && y.epoch == s.epoch) = true := by
        rw [List.any_eq_true]
        exact ⟨x, List.mem_filter.mp (by rw [hx]; exact List.mem_singleton_self x)⟩
      simp only [execLaneRepairSwitch, hb, hdue, hx, Bool.and_self, if_true, List.foldl_cons, List.foldl_nil]
    · rw [State.assigned_congr (hrep.2 _ (hval _))]
      exact State.mem_assigned_setSpare _ _ _ hsp (by omega) (by decide)
    · rw [hrep.link]
      simp
    · rw [hrep.fb _ (linkReg_not_report l (o := 4) (by decide)), State.setSpare_pending, State.showPending_fb, hrep.link, State.setSpare_link,
        State.showPending_link]
    · rw [State.assigned_congr (hrep.2 _ (hval _)), State.assigned_setSpare_not]
      exact State.assigned_congr (RegMap.val_setF_ne _ _ _ (spareReg_ne_status _ _))

end Sys2Proof.Machine

namespace Sys2Proof.Machine

/-! ### The gate -/

/-- The counters of R174's checks, in their order. -/
def deferFlds (p : Nat) : List Fld :=
  [F.PRT_CNT_DEF_RIGHTS_count p, F.PRT_CNT_DEF_TAG_count p, F.PRT_CNT_DEF_FENCE_count p, F.PRT_CNT_DEF_OUTST_count p,
    F.PRT_CNT_DEF_ACT_count p, F.PRT_CNT_DEF_SLOT_count p, F.PRT_CNT_DEF_QUOTA_count p]

theorem deferFlds_live {p : Nat} {f : Fld} (h : f ∈ deferFlds p) : f.cfg = false ∧ f.addr ∈ deferRegs p := by
  simp only [deferFlds, List.mem_cons, List.not_mem_nil, or_false] at h
  rcases h with rfl | rfl | rfl | rfl | rfl | rfl | rfl <;>
    exact ⟨rfl, by simp [deferRegs, F.PRT_CNT_DEF_RIGHTS_count, F.PRT_CNT_DEF_TAG_count, F.PRT_CNT_DEF_FENCE_count,
      F.PRT_CNT_DEF_OUTST_count, F.PRT_CNT_DEF_ACT_count, F.PRT_CNT_DEF_SLOT_count, F.PRT_CNT_DEF_QUOTA_count, R.PRT_CNT_DEF_RIGHTS,
      R.PRT_CNT_DEF_TAG, R.PRT_CNT_DEF_FENCE, R.PRT_CNT_DEF_OUTST, R.PRT_CNT_DEF_ACT, R.PRT_CNT_DEF_SLOT, R.PRT_CNT_DEF_QUOTA]⟩

/-- `t` is `s` but for the charges of the gates and the plans of the tiles. -/
def ChargesOnly (s t : State) : Prop := t = { s with gate := t.gate, tiles := t.tiles }

theorem ChargesOnly.trans {s t u : State} (h : ChargesOnly s t) (h' : ChargesOnly t u) : ChargesOnly s u := by
  unfold ChargesOnly at *
  rw [h', h]

/-- Charging slots touches the budgets and the plans of the tiles (R177). -/
theorem State.chargeSlots_charges (s : State) (p tag : Nat) (as : List Slot) (cs : List Charge) :
    ChargesOnly s (s.chargeSlots p tag as cs).1 := by
  induction as generalizing s cs with
  | nil => rfl
  | cons a as ih =>
    have hslot : ChargesOnly s (s.chargeSlot p tag a).1 := rfl
    exact hslot.trans (ih _ _)

/-- A header that is deferred is counted in a counter of its port. -/
theorem State.gateCheck_defer {s : State} {l : Nat} {h : Hdr} {c : Fld} {tiles : List Nat} (hg : s.gateCheck l h = .defer c tiles) :
    c ∈ deferFlds (4 * l + h.sub) := by
  simp only [State.gateCheck] at hg
  repeat' split at hg
  all_goals cases hg
  all_goals simp [deferFlds]

/-- A header that is accepted has memory rights, and nothing but its charges is made. -/
theorem State.gateCheck_accept {s t : State} {l : Nat} {h : Hdr} {cs : List Charge} (hg : s.gateCheck l h = .accept t cs) :
    s.memRights (4 * l + h.sub) = true ∧ ChargesOnly s t := by
  simp only [State.gateCheck] at hg
  split at hg
  · cases hg
  · next hr =>
    refine ⟨by simpa using hr, ?_⟩
    repeat' split at hg
    all_goals cases hg
    · rfl
    · rfl
    · next g acts _ _ _ _ => exact ChargesOnly.trans (rfl : ChargesOnly s { s with gate := g }) (State.chargeSlots_charges _ _ _ _ _)

theorem State.gateCheck_rights {s : State} {l : Nat} {h : Hdr} (hr : s.memRights (4 * l + h.sub) = false) :
    s.gateCheck l h = .defer (F.PRT_CNT_DEF_RIGHTS_count (4 * l + h.sub)) [] := by
  simp [State.gateCheck, hr]

end Sys2Proof.Machine

namespace Sys2Proof.Machine

/-! ### A header is decided -/

/-- What charging leaves alone of the state that a request is made from. -/
theorem ChargesOnly.keeps {s t : State} (h : ChargesOnly s t) :
    t.reqs = s.reqs ∧ t.sentTags = s.sentTags ∧ (∀ k, t.link k = s.link k) ∧ t.absFrame = s.absFrame ∧ t.active = s.active ∧
      t.mode = s.mode := by
  have hlive : t.live = s.live := by rw [h]
  have hactive : t.active = s.active := by rw [h]
  refine ⟨by rw [h], by rw [h], fun k => ?_, ?_, hactive, State.fv_congr (by rw [hlive]) hactive⟩
  · unfold State.link
    rw [h]
  · unfold State.absFrame
    rw [h]

theorem LinkLeaves.of_charges {n : Nat} {s t : State} (h : ChargesOnly s t) : LinkLeaves n s t := by
  obtain ⟨-, -, hlink, -, -, -⟩ := h.keeps
  refine ⟨?_, fun k _ => hlink k⟩
  conv_lhs => rw [h]
  rw [h]

/-- The registers of a port are none of those of reports. -/
theorem portReg_not_report {a : Nat} (h : 0x30000 ≤ a) : a ∉ reportRegs := by
  simp only [reportRegs, R.FLT_STATUS, R.FLT_CNT_RAISE, R.FLT_CNT_EVENT, R.FLT_CNT_QUIETRESTART, R.LNK_EVT_LOST, List.mem_cons,
    List.not_mem_nil, or_false]
  omega

/-- The first header of a link is taken, and its credit is owed (R33). -/
def State.takeHeader (s : State) (n : Nat) : State := s.modLink n fun L => { L with hdrs := L.hdrs.tail, credOwed := L.credOwed + 1 }

theorem State.takeHeader_link (s : State) (n : Nat) : (s.takeHeader n).link n =
    { s.link n with hdrs := (s.link n).hdrs.tail, credOwed := (s.link n).credOwed + 1 } := s.link_modLink_self n _

/-- R177: the demand of the tiles at which the slots of a header did not fit. -/
def State.noteDemand (s : State) (p : Nat) (h : Hdr) (tiles : List Nat) : State :=
  let slots := slotsOf s.active h.op h.len h.flags h.addr
  let g := s.gate
  { s with gate := { g with demand := tiles.foldl (fun d t =>
      natAdd d (64 * t + p) (slots.filter fun (a : Slot) => a.loc.ch == t).length) g.demand } }

/-- R174: the header is deferred: it is counted, its bit set, and the demand of the tiles that are short noted. -/
def State.deferHeader (s : State) (n pos : Nat) (h : Hdr) (counter : Fld) (tiles : List Nat) : State :=
  ((s.inc counter).modLink n fun L =>
    { L with
      vec := L.vec ||| BitVec.ofNat 16 (1 <<< pos)
      fenced := if h.op == opFENCE then L.fenced ++ [4 * n + h.sub] else L.fenced }).noteDemand (4 * n + h.sub) h tiles

theorem State.decideHeader_defer {s : State} {n : Nat} (pos : Nat) {w : Nat} {c : Fld} {tiles : List Nat}
    (hg : (s.takeHeader n).gateCheck n (Hdr.ofNat w) = .defer c tiles) :
    s.decideHeader n pos w = ((s.takeHeader n).deferHeader n pos (Hdr.ofNat w) c tiles).when
      (decide (c = F.PRT_CNT_DEF_TAG_count (4 * n + (Hdr.ofNat w).sub)))
      fun s => s.raise (Src.port 1 ((4 * n + (Hdr.ofNat w).sub) / 16)) (4 * n + (Hdr.ofNat w).sub) := by
  unfold State.decideHeader
  rw [← State.takeHeader]
  simp only [hg]
  rfl

theorem State.decideHeader_accept {s t : State} {n : Nat} (pos : Nat) {w : Nat} {cs : List Charge}
    (hg : (s.takeHeader n).gateCheck n (Hdr.ofNat w) = .accept t cs) :
    s.decideHeader n pos w = { t with reqs := t.reqs ++ [t.newReq n pos (Hdr.ofNat w) cs] } := by
  unfold State.decideHeader
  rw [← State.takeHeader]
  simp only [hg]

theorem State.deferHeader_reports (s : State) (n pos : Nat) (h : Hdr) {c : Fld} (tiles : List Nat) {as : List Nat} (hc : c.cfg = false)
    (ha : c.addr ∈ as) : LinkReports n as s (s.deferHeader n pos h c tiles) := by
  have honly : LinkReports n as s ((s.inc c).modLink n fun L => { L with
      vec := L.vec ||| BitVec.ofNat 16 (1 <<< pos)
      fenced := if h.op == opFENCE then L.fenced ++ [4 * n + h.sub] else L.fenced }) :=
    .of_only (((LinkOnly.refl n as s).inc c hc ha).modLink _)
  exact honly.trans ⟨rfl, LinksBut.refl n _, LiveBut.refl _ _⟩

theorem LinkReports.severityOf {n : Nat} {as : List Nat} {s t : State} (h : LinkReports n as s t) (src : Nat) :
    t.severityOf src = s.severityOf src :=
  State.severityOf_congr (by rw [h.1]) src

@[simp] theorem State.deferHeader_reqs (s : State) (n pos : Nat) (h : Hdr) (c : Fld) (tiles : List Nat) :
    (s.deferHeader n pos h c tiles).reqs = s.reqs := State.inc_reqs s c
@[simp] theorem State.deferHeader_sentTags (s : State) (n pos : Nat) (h : Hdr) (c : Fld) (tiles : List Nat) :
    (s.deferHeader n pos h c tiles).sentTags = s.sentTags := State.inc_sentTags s c
@[simp] theorem State.deferHeader_fv (s : State) (n pos : Nat) (h : Hdr) (c : Fld) (tiles : List Nat) (f : Fld) :
    (s.deferHeader n pos h c tiles).fv f = (s.inc c).fv f := rfl

theorem State.deferHeader_link (s : State) (n pos : Nat) (h : Hdr) (c : Fld) (tiles : List Nat) :
    (s.deferHeader n pos h c tiles).link n = { s.link n with
      vec := (s.link n).vec ||| BitVec.ofNat 16 (1 <<< pos)
      fenced := if h.op == opFENCE then (s.link n).fenced ++ [4 * n + h.sub] else (s.link n).fenced } := by
  have hinc : (s.deferHeader n pos h c tiles).link n = ((s.inc c).modLink n fun L => { L with
      vec := L.vec ||| BitVec.ofNat 16 (1 <<< pos)
      fenced := if h.op == opFENCE then L.fenced ++ [4 * n + h.sub] else L.fenced }).link n := rfl
  rw [hinc, State.link_modLink_self, State.link_inc]

/-- A deferral is reported only when its tag was busy. -/
theorem State.decideHeader_reported {s : State} {n : Nat} (pos : Nat) {w : Nat} {c : Fld} {tiles : List Nat}
    (hg : (s.takeHeader n).gateCheck n (Hdr.ofNat w) = .defer c tiles)
    (hsev : s.severityOf (Src.port 1 ((4 * n + (Hdr.ofNat w).sub) / 16)) ≠ 5) :
    Reported ((s.takeHeader n).deferHeader n pos (Hdr.ofNat w) c tiles) (s.decideHeader n pos w) := by
  obtain ⟨hlive, haddr⟩ := deferFlds_live (State.gateCheck_defer hg)
  rw [State.decideHeader_defer pos hg]
  unfold State.when
  split
  · refine State.raise_reported _ _ _ ?_
    rwa [((LinkReports.of_leaves (s.modLink_leaves n _)).trans
      (State.deferHeader_reports (s.takeHeader n) n pos (Hdr.ofNat w) tiles hlive haddr)).severityOf]
  · exact Reported.refl _

/-! ### The decisions are driven -/

/-- R25, R30: V is driven, and recorded while the link is OPEN or keeps no frozen history. -/
def State.showVector (s : State) (n : Nat) : State :=
  let L := s.link n
  let isOpen := s.linkState n == lsOpen
  let keep := isOpen || L.frozen.isNone
  s.modLink n fun L =>
    { L with
      lanes := L.onLanes L.vec
      complement := some L.vec
      hist := if keep then ((s.frame12, L.vec) :: L.hist).take 64 else L.hist
      frozenFrames := if isOpen && L.frozen.isSome then L.frozenFrames + 1 else L.frozenFrames
      vec := 0
      fenced := [] }

/-- The requests of the frame stand, before they are counted. -/
def State.driven (s : State) (n : Nat) : State :=
  { s.showVector n with reqs := s.reqs.map fun r => if r.link == n then { r with tentative := false } else r }

theorem State.driveDecision_eq (s : State) (n : Nat) :
    s.driveDecision n = (s.reqs.filter fun r => r.tentative && r.link == n).foldl State.countAccepted (s.driven n) := rfl

theorem State.driven_leaves (s : State) (n : Nat) : LinkLeaves n s (s.driven n) :=
  (s.modLink_leaves n _).trans ⟨rfl, LinksBut.refl n _⟩

theorem State.driven_reqs (s : State) (n : Nat) :
    (s.driven n).reqs = s.reqs.map fun r => if r.link = n then { r with tentative := false } else r := by
  unfold State.driven
  simp only [beq_iff_eq]

theorem State.driven_link (s : State) (n k : Nat) : (s.driven n).link k = (s.showVector n).link k := rfl

theorem State.driven_lanes (s : State) (n : Nat) : ((s.driven n).link n).lanes = (s.link n).onLanes (s.link n).vec := by
  rw [State.driven_link, State.showVector, State.link_modLink_self]
theorem State.driven_complement (s : State) (n : Nat) : ((s.driven n).link n).complement = some (s.link n).vec := by
  rw [State.driven_link, State.showVector, State.link_modLink_self]
theorem State.driven_vec (s : State) (n : Nat) : ((s.driven n).link n).vec = 0 := by
  rw [State.driven_link, State.showVector, State.link_modLink_self]

/-- Counting an accepted header reports a malformed one. -/
theorem State.countAccepted_survives (s : State) (r : Req) : Survives s (s.countAccepted r) := by
  unfold State.countAccepted
  extract_lets kind t
  have ht : Survives s t :=
    (((Survives.refl s).setF (F.PRT_CNT_ACC_count r.port) _ rfl fun l => by simp only [F.PRT_CNT_ACC_count, R.LNK_STATUS]; omega).setF
      (F.PRT_CNT_CARRY_count r.port) _ rfl fun l => by simp only [F.PRT_CNT_CARRY_count, R.LNK_STATUS]; omega).setF
      (F.PRT_CNT_SHARED_count r.port) _ rfl fun l => by simp only [F.PRT_CNT_SHARED_count, R.LNK_STATUS]; omega
  split
  · exact ht.trans (State.raise_survives _ _ _)
  · exact ht.inc (F.PRT_CNT_DENIED_count r.port) rfl fun l => by simp only [F.PRT_CNT_DENIED_count, R.LNK_STATUS]; omega
  · exact ht

/-- The counters of accepted headers. -/
def acceptRegs : List Nat := (List.range 64).flatMap fun p => [R.PRT_CNT_ACC p, R.PRT_CNT_CARRY p, R.PRT_CNT_SHARED p, R.PRT_CNT_DENIED p]

theorem mem_acceptRegs {p a : Nat} (hp : p < 64) (ha : a ∈ [R.PRT_CNT_ACC p, R.PRT_CNT_CARRY p, R.PRT_CNT_SHARED p, R.PRT_CNT_DENIED p]) :
    a ∈ acceptRegs := List.mem_flatMap.mpr ⟨p, List.mem_range.mpr hp, ha⟩

/-- `t` is `s` but for counters of accepted headers, and reports. -/
def AcceptCounts (s t : State) : Prop :=
  t = { s with live := t.live, evq := t.evq, evLost := t.evLost, flt := t.flt } ∧ LiveBut (acceptRegs ++ reportRegs) s t

namespace AcceptCounts

variable {s t u : State}

theorem refl (s : State) : AcceptCounts s s := ⟨rfl, LiveBut.refl _ s⟩

theorem trans (h : AcceptCounts s t) (h' : AcceptCounts t u) : AcceptCounts s u := by
  refine ⟨?_, h.2.trans h'.2 (List.Subset.refl _) (List.Subset.refl _)⟩
  rw [h'.1, h.1]

theorem setF (h : AcceptCounts s t) (f : Fld) (v : Nat) (hc : f.cfg = false) (ha : f.addr ∈ acceptRegs) : AcceptCounts s (t.setF f v) := by
  refine h.trans ?_
  rw [State.setF_live _ _ _ hc]
  exact ⟨rfl, fun a hm => RegMap.val_setF_ne _ _ _ fun e => hm (List.mem_append_left _ (e ▸ ha))⟩

theorem of_reported (h : Reported s t) : AcceptCounts s t := ⟨h.1, fun a hm => h.2 a fun hr => hm (List.mem_append_right _ hr)⟩

theorem severityOf (h : AcceptCounts s t) (src : Nat) : t.severityOf src = s.severityOf src :=
  State.severityOf_congr (by rw [h.1]) src

theorem link (h : AcceptCounts s t) (k : Nat) : t.link k = s.link k := by
  unfold State.link
  rw [h.1]

end AcceptCounts

theorem LinkReports.of_accepts {n : Nat} {s t : State} (h : AcceptCounts s t) : LinkReports n acceptRegs s t := by
  refine ⟨?_, fun k _ => h.link k, h.2⟩
  conv_lhs => rw [h.1]
  rw [h.1]

theorem State.countAccepted_counts {s : State} {r : Req} (hp : r.port < 64) (hsev : ∀ k, k < 4 → s.severityOf (Src.port 0 k) ≠ 5) :
    AcceptCounts s (s.countAccepted r) := by
  have hmem : ∀ a ∈ [R.PRT_CNT_ACC r.port, R.PRT_CNT_CARRY r.port, R.PRT_CNT_SHARED r.port, R.PRT_CNT_DENIED r.port], a ∈ acceptRegs :=
    fun _ => mem_acceptRegs hp
  unfold State.countAccepted
  extract_lets kind t
  have ht : AcceptCounts s t :=
    (((AcceptCounts.refl s).setF (F.PRT_CNT_ACC_count r.port) _ rfl (hmem _ (by simp [F.PRT_CNT_ACC_count, R.PRT_CNT_ACC]))).setF
      (F.PRT_CNT_CARRY_count r.port) _ rfl (hmem _ (by simp [F.PRT_CNT_CARRY_count, R.PRT_CNT_CARRY]))).setF
      (F.PRT_CNT_SHARED_count r.port) _ rfl (hmem _ (by simp [F.PRT_CNT_SHARED_count, R.PRT_CNT_SHARED]))
  split
  · refine ht.trans (.of_reported (State.raise_reported _ _ _ ?_))
    rw [ht.severityOf]
    exact hsev _ (by omega)
  · exact ht.setF (F.PRT_CNT_DENIED_count r.port) _ rfl (hmem _ (by simp [F.PRT_CNT_DENIED_count, R.PRT_CNT_DENIED]))
  · exact ht

theorem State.countAll_counts {rs : List Req} (hp : ∀ r ∈ rs, r.port < 64) {s : State}
    (hsev : ∀ k, k < 4 → s.severityOf (Src.port 0 k) ≠ 5) : AcceptCounts s (rs.foldl State.countAccepted s) := by
  induction rs generalizing s with
  | nil => exact .refl s
  | cons r rs ih =>
    have hfirst := State.countAccepted_counts (hp r List.mem_cons_self) hsev
    exact hfirst.trans (ih (fun q hq => hp q (List.mem_cons_of_mem _ hq)) fun k hk => hfirst.severityOf _ ▸ hsev k hk)

/-- The credits that a flit carries are taken off before it is sent. -/
theorem LinkSt.sendCredits_credOwed (L : LinkSt) (n : Nat) : (L.sendCredits n).credOwed = L.credOwed := by
  unfold LinkSt.sendCredits
  split <;> rfl

/-- Settles O2: a header is deferred, counted and perhaps reported, or its charges are made and its request added; the vector is
driven, and then the frame's requests counted, each of which may report. -/
theorem headersAreDecidedAndDecisionsDriven : Obligations.HeadersAreDecidedAndDecisionsDriven := by
  refine ⟨fun l s pos w rest hst hhdrs hsev => ?_, fun l s htalks hflit hhdrs hcomp hwoken => ?_, fun l s v hflit hcomp => ?_,
    fun l n s hst hn => ?_⟩
  · refine ⟨s.decideHeader l.val pos w, ?_, ?_⟩
    · show execRequestHeader l s = _
      simp [execRequestHeader, hhdrs, hst]
    have hrights : (s.takeHeader l.val).memRights (4 * l.val + (Hdr.ofNat w).sub) = s.memRights (4 * l.val + (Hdr.ofNat w).sub) := rfl
    cases hg : (s.takeHeader l.val).gateCheck l.val (Hdr.ofNat w) with
    | defer c tiles =>
      obtain ⟨hlive, haddr⟩ := deferFlds_live (State.gateCheck_defer hg)
      have hreports := (LinkReports.of_leaves (s.modLink_leaves l.val _)).trans
        (State.deferHeader_reports (s.takeHeader l.val) l.val pos (Hdr.ofNat w) tiles hlive haddr)
      have hrep := State.decideHeader_reported pos hg hsev
      have hlink := (hrep.link l.val).trans (State.deferHeader_link _ _ _ _ _ _)
      have hreqs : (s.decideHeader l.val pos w).reqs = s.reqs := hrep.reqs.trans (State.deferHeader_reqs _ _ _ _ _ _)
      refine ⟨?_, ?_, hrep.sentTags.trans (State.deferHeader_sentTags _ _ _ _ _ _), hreports.trans (.of_reported hrep), .inl ⟨hreqs, ?_⟩,
        fun hr => ⟨hreqs, ?_⟩⟩
      · rw [hlink, s.takeHeader_link, hhdrs]
        rfl
      · rw [hlink, s.takeHeader_link]
      · rw [hlink, s.takeHeader_link]
      · obtain ⟨rfl, -⟩ : F.PRT_CNT_DEF_RIGHTS_count _ = c ∧ _ := by simpa [State.gateCheck_rights (hrights.trans hr)] using hg
        rw [Counted, hrep.fv, State.deferHeader_fv, State.fv_inc_self]
        · rfl
        · simp [F.PRT_CNT_DEF_RIGHTS_count]
        · exact portReg_not_report (by simp only [F.PRT_CNT_DEF_RIGHTS_count]; omega)
    | accept t cs =>
      obtain ⟨hmem, hcharges⟩ := State.gateCheck_accept hg
      obtain ⟨hreqs, htags, hlink, hframe, hactive, hmode⟩ := hcharges.keeps
      have hleaves : LinkLeaves l.val s { t with reqs := t.reqs ++ [t.newReq l.val pos (Hdr.ofNat w) cs] } :=
        (s.modLink_leaves l.val _).trans ((LinkLeaves.of_charges hcharges).trans ⟨rfl, LinksBut.refl _ _⟩)
      rw [State.decideHeader_accept pos hg]
      refine ⟨?_, ?_, htags, .of_leaves hleaves, .inr ⟨t.newReq l.val pos (Hdr.ofNat w) cs, ?_, rfl, rfl, rfl, hframe, hactive, hmode, rfl, ?_⟩,
        fun hr => absurd (hrights.symm.trans hmem) (by simp [hr])⟩
      · show (t.link l.val).hdrs = rest
        rw [hlink, s.takeHeader_link, hhdrs]
        rfl
      · show (t.link l.val).credOwed = _
        rw [hlink, s.takeHeader_link]
      · rw [hreqs]
        rfl
      · show (t.link l.val).vec = _
        rw [hlink, s.takeHeader_link]
  · have hcount : Survives (s.driven l.val) (s.driveDecision l.val) :=
      s.driveDecision_eq l.val ▸ Survives.foldl (fun s r => s.countAccepted_survives r) _ _
    refine ⟨s.driveDecision l.val, ?_, ?_, ?_, ⟨fun a => ?_, fun a => ?_⟩, ⟨hcount.staged, hcount.active⟩, fun hsev hports => ?_⟩
    · show execDecisionVector l s = _
      simp [execDecisionVector, State.drivesDecision, htalks, hflit, hhdrs, hcomp, hwoken]
    · rw [hcount.lanes, State.driven_lanes]
    · intro r hr hlink
      obtain ⟨q, hq, hlink', htent⟩ := hcount.reqs r hr
      rw [State.driven_reqs, List.mem_map] at hq
      obtain ⟨q, -, rfl⟩ := hq
      rw [htent]
      split
      · rfl
      · next hne => exact absurd (hlink'.symm.trans hlink) (by simp [hne])
    · rw [hcount.dram]
      rfl
    · rw [hcount.larder]
      rfl
    · have hcounts : AcceptCounts (s.driven l.val) (s.driveDecision l.val) :=
        State.countAll_counts (fun r hr => hports r (List.mem_of_mem_filter hr)) hsev
      have he := hcounts.1
      refine ⟨?_, ?_, ?_, ?_, ?_, ?_, ?_⟩
      · rw [hcounts.link, State.driven_complement]
      · rw [hcounts.link, State.driven_vec]
      · rw [← State.driven_reqs, he]
      · rw [he]
        rfl
      · rw [he]
        rfl
      · rw [he]
        rfl
      · exact (LinkReports.of_leaves (s.driven_leaves l.val)).trans (.of_accepts hcounts)
  · refine ⟨_, ?_, ?_, ?_, s.modLink_only l.val fun L => { L with lanes := L.onLanes (~~~v), complement := none }⟩
    · show execDecisionComplement l s = _
      simp [execDecisionComplement, hcomp, hflit]
    · simp
    · simp
  · refine ⟨_, ?_, ?_, s.modLink_only l.val fun L => { L with credOwed := L.credOwed - n.val }.sendCredits n.val⟩
    · show execCreditReturn l n s = _
      simp [execCreditReturn, hst, hn]
    · rw [State.link_modLink_self, LinkSt.sendCredits_credOwed]
      exact Nat.sub_add_cancel hn

end Sys2Proof.Machine

namespace Sys2Proof.Machine

/-! ### A write of hold_down -/

/-- A request of link 1. -/
def otherLinkReq : Req := State.reset.newReq 1 0 (Hdr.ofNat (tqueryHeader 0)) []

/-- Link 0 is OPEN, its `retrain` reads 1 before the write, and the source of its retraining is fatal; link 1 has a request. -/
def staleRetrain : State :=
  { ((State.reset.setLinkState 0 lsOpen).setF (F.LNK_CTL_retrain 0) 1).setF (F.FLT_SEV_sev4 0) 5 with
    pwr := { good := true, phase := 7, booted := true }
    reqs := [otherLinkReq] }

/-- A write of LNK_CTL of link 0 that sets `hold_down` and not `retrain`. -/
def holdDownWrite : Word := (State.reset.live.val (R.LNK_CTL 0)).setField 2 1 1

theorem staleRetrain_taken : WriteTaken staleRetrain 64 (R.LNK_CTL 0) holdDownWrite := by
  unfold WriteTaken
  decide +kernel

/-- R428: the retraining that the write still asks for stops the device, and with it every request. -/
theorem staleRetrain_stops : ((staleRetrain.doWrite 64 (R.LNK_CTL 0) holdDownWrite false).2).reqs = [] := by decide +kernel

/-- Refutes O11: the clause of `hold_down` has no hypothesis on the severity of the retraining's source. Of a state in
which `retrain` reads 1 already (none that a write of LNK_CTL leaves, but the clause speaks of all), a write that sets `hold_down` alone
retrains the link first; a fatal source then stops the device, and the requests of the other links are gone. -/
theorem not_linkRegistersCommand : ¬ Obligations.LinkRegistersCommand := by
  intro h
  obtain ⟨-, hdown, -⟩ := h
  obtain ⟨t, ht, -, -, -, -, -, hothers, -⟩ :=
    hdown 0 64 holdDownWrite staleRetrain staleRetrain_taken (by decide +kernel) (by decide +kernel) (by decide +kernel)
  have hstep : exec (.lnkHoldDown 0 64 holdDownWrite) staleRetrain = .next (staleRetrain.doWrite 64 (R.LNK_CTL 0) holdDownWrite false).2 := by
    show staleRetrain.regCommand 64 (R.LNK_CTL 0) holdDownWrite = _
    rw [State.regCommand, staleRetrain_taken.2]
  have hreqs : t.reqs = [] := by
    rw [Host.Outcome.next.inj (ht.symm.trans hstep), staleRetrain_stops]
  have hstays : otherLinkReq ∈ t.reqs := (hothers otherLinkReq (by decide)).mpr (List.mem_singleton_self otherLinkReq)
  rw [hreqs] at hstays
  cases hstays

end Sys2Proof.Machine

namespace Sys2Proof.Machine

/-! ## Requests

The rules of the operations that the commands of a request are made of, and the statements about those commands. -/

/-! ### Headers that the gate defers (R73, R89, R174) -/

/-- R174: with memory rights a busy tag defers a header before anything else. -/
theorem State.gateCheck_busy {s : State} {l : Nat} {h : Hdr} (hr : s.memRights (4 * l + h.sub) = true)
    (hb : s.tagBusy (4 * l + h.sub) h.tag = true) : s.gateCheck l h = .defer (F.PRT_CNT_DEF_TAG_count (4 * l + h.sub)) [] := by
  simp [State.gateCheck, hr, hb]

/-- R89: a port that is marked in the frame has its headers deferred, unless their tag is busy. -/
theorem State.gateCheck_fenced {s : State} {l : Nat} {h : Hdr} (hr : s.memRights (4 * l + h.sub) = true)
    (hb : s.tagBusy (4 * l + h.sub) h.tag = false) (hf : 4 * l + h.sub ∈ (s.link l).fenced) :
    s.gateCheck l h = .defer (F.PRT_CNT_DEF_FENCE_count (4 * l + h.sub)) [] := by
  simp [State.gateCheck, hr, hb, hf]

/-- A header whose tag is busy, or whose port is marked, is deferred, and no tile is short for it. -/
theorem State.gateCheck_blocked {s : State} {l : Nat} {h : Hdr}
    (hblock : s.tagBusy (4 * l + h.sub) h.tag = true ∨ 4 * l + h.sub ∈ (s.link l).fenced) : ∃ c, s.gateCheck l h = .defer c [] := by
  cases hr : s.memRights (4 * l + h.sub) with
  | false => exact ⟨_, State.gateCheck_rights hr⟩
  | true =>
    cases hb : s.tagBusy (4 * l + h.sub) h.tag with
    | true => exact ⟨_, State.gateCheck_busy hr hb⟩
    | false => exact ⟨_, State.gateCheck_fenced hr hb (hblock.resolve_left (by simp [hb]))⟩

/-- A deferral for which no tile is short moves the link, the counters and what reports leave. -/
theorem State.deferHeader_eq (s : State) (n pos : Nat) (h : Hdr) {c : Fld} (hc : c.cfg = false) :
    s.deferHeader n pos h c [] = { s with links := (s.deferHeader n pos h c []).links, live := (s.deferHeader n pos h c []).live } := by
  simp only [State.deferHeader, State.noteDemand, State.inc_live s c hc, List.foldl_nil]
  rfl

/-- What a deferral leaves of the requests and of the link, whatever it reports. -/
theorem State.decideHeader_deferred {s : State} {n : Nat} (pos : Nat) {w : Nat} {c : Fld} {tiles : List Nat}
    (hg : (s.takeHeader n).gateCheck n (Hdr.ofNat w) = .defer c tiles)
    (hsev : s.severityOf (Src.port 1 ((4 * n + (Hdr.ofNat w).sub) / 16)) ≠ 5) :
    (s.decideHeader n pos w).reqs = s.reqs ∧
      ((s.decideHeader n pos w).link n).vec = (s.link n).vec ||| BitVec.ofNat 16 (1 <<< pos) ∧
      ((s.decideHeader n pos w).link n).fenced =
        if (Hdr.ofNat w).op == opFENCE then (s.link n).fenced ++ [4 * n + (Hdr.ofNat w).sub] else (s.link n).fenced := by
  have hrep := State.decideHeader_reported pos hg hsev
  have hlink := (hrep.link n).trans (State.deferHeader_link _ _ _ _ _ _)
  refine ⟨hrep.reqs.trans (State.deferHeader_reqs _ _ _ _ _ _), ?_, ?_⟩
  · rw [hlink, s.takeHeader_link]
  · rw [hlink, s.takeHeader_link]

/-- A deferral is counted once in the counter of its check. -/
theorem State.decideHeader_counted {s : State} {n : Nat} (pos : Nat) {w : Nat} {c : Fld} {tiles : List Nat}
    (hg : (s.takeHeader n).gateCheck n (Hdr.ofNat w) = .defer c tiles)
    (hsev : s.severityOf (Src.port 1 ((4 * n + (Hdr.ofNat w).sub) / 16)) ≠ 5) (hw : c.lo + c.width ≤ 32) (ha : 0x30000 ≤ c.addr) :
    Counted c s (s.decideHeader n pos w) := by
  rw [Counted, (State.decideHeader_reported pos hg hsev).fv c (portReg_not_report ha), State.deferHeader_fv, State.fv_inc_self _ _ hw]
  rfl

/-- Settles O54: the gate's check defers the header, and only an acceptance adds a request. -/
theorem busyTagsAndFencesDefer : Obligations.BusyTagsAndFencesDefer := by
  rintro l s pos w p rest hst hhdrs rfl hsev
  have hexec : exec (.requestHeader l) s = .next (s.decideHeader l.val pos w) := by
    show execRequestHeader l s = _
    simp [execRequestHeader, hhdrs, hst]
  have hfenced : ((s.takeHeader l.val).link l.val).fenced = (s.link l.val).fenced := by rw [s.takeHeader_link]
  refine ⟨_, hexec, fun k hk => ?_, fun hbusy => ?_, fun hop hreqs => ?_, fun hmem => ?_⟩
  · cases hg : (s.takeHeader l.val).gateCheck l.val (Hdr.ofNat w) with
    | defer c tiles =>
      obtain ⟨-, -, hf⟩ := State.decideHeader_deferred pos hg hsev
      rw [hf]
      split <;> simp [hk]
    | accept t cs =>
      obtain ⟨-, -, hlink, -, -, -⟩ := (State.gateCheck_accept hg).2.keeps
      rw [State.decideHeader_accept pos hg]
      show k ∈ (t.link l.val).fenced
      rwa [hlink, hfenced]
  · obtain ⟨c, hg⟩ := State.gateCheck_blocked (s := s.takeHeader l.val) (.inl hbusy)
    obtain ⟨hreqs, hvec, -⟩ := State.decideHeader_deferred pos hg hsev
    refine ⟨hreqs, hvec, ?_, fun hr => ?_⟩
    · obtain ⟨hrep, -⟩ := State.decideHeader_reported pos hg hsev
      conv_lhs => rw [hrep, State.deferHeader_eq _ _ _ _ (deferFlds_live (State.gateCheck_defer hg)).1]
      rw [hrep, State.deferHeader_eq _ _ _ _ (deferFlds_live (State.gateCheck_defer hg)).1]
      rfl
    · exact State.decideHeader_counted pos (State.gateCheck_busy (s := s.takeHeader l.val) hr hbusy) hsev
        (by simp [F.PRT_CNT_DEF_TAG_count]) (by simp only [F.PRT_CNT_DEF_TAG_count]; omega)
  · cases hg : (s.takeHeader l.val).gateCheck l.val (Hdr.ofNat w) with
    | defer c tiles =>
      obtain ⟨-, -, hf⟩ := State.decideHeader_deferred pos hg hsev
      simp [hf, hop]
    | accept t cs =>
      obtain ⟨hkept, -⟩ := (State.gateCheck_accept hg).2.keeps
      rw [State.decideHeader_accept pos hg] at hreqs
      have hlen := congrArg List.length hreqs
      simp [hkept, State.takeHeader, State.modLink, State.setLink] at hlen
  · have hmem' : 4 * l.val + (Hdr.ofNat w).sub ∈ ((s.takeHeader l.val).link l.val).fenced := hfenced ▸ hmem
    obtain ⟨c, hg⟩ := State.gateCheck_blocked (s := s.takeHeader l.val) (.inr hmem')
    obtain ⟨hreqs, hvec, -⟩ := State.decideHeader_deferred pos hg hsev
    exact ⟨hreqs, hvec, fun hr hbusy => State.decideHeader_counted pos
      (State.gateCheck_fenced (s := s.takeHeader l.val) hr hbusy hmem') hsev
      (by simp [F.PRT_CNT_DEF_FENCE_count]) (by simp only [F.PRT_CNT_DEF_FENCE_count]; omega)⟩

end Sys2Proof.Machine

namespace Sys2Proof.Machine

/-! ### The request of a command, and its answer -/

/-- The request that a command runs is the port's, with the command's opcode and all of its data. -/
theorem Runs.request {s : State} {op : Nat} {p : Port} {tag : BitVec 9} {r : Req} (h : Runs s op p tag r) :
    r.op = op ∧ r.port = p.val ∧ r.tag = tag.toNat ∧ r.data.length = r.need := by
  obtain ⟨hfind, hrun⟩ := Option.filter_eq_some_iff.mp h.1
  have hkey := List.find?_some hfind
  simp only [State.ready, Bool.and_eq_true, beq_iff_eq] at hkey hrun
  exact ⟨hrun.1, hkey.1, hkey.2, hrun.2.1.2⟩

/-- The requests once `r` is answered with `a`: one that has waited for late data of `r` has no fixed latency any more (R162). -/
def answered (r : Req) (a : Answer) (qs : List Req) : List Req :=
  (qs.map fun (q : Req) => if q.waitedFor r = true then { q with unfixed := true } else q).map fun (q : Req) =>
    if q.port = r.port ∧ q.tag = r.tag then { q with answer := some a } else q

theorem answers_iff {s t : State} {r : Req} {a : Answer} : Answers s t r a ↔ t.reqs = answered r a s.reqs := Iff.rfl

/-- An answer that is wanted, neither a HOLE nor a TIMEOUT, is a change of the requests alone. -/
theorem State.answer_eq (s : State) {r : Req} {a : Answer} (hd : r.discard = false) (hhole : a.status ≠ 6) (htime : a.status ≠ 0xB) :
    s.answer r a = { s with reqs := answered r a s.reqs } := by
  simp [State.answer, State.modReq, State.when, answered, hd, hhole, htime]

/-- R170: a HOLE is counted. -/
theorem State.answer_hole (s : State) {r : Req} {a : Answer} (hd : r.discard = false) (hhole : a.status = 6) :
    s.answer r a = { s.inc F.MAP_CNT_HOLE_count with reqs := answered r a s.reqs } := by
  simp [State.answer, State.modReq, State.when, answered, hd, hhole]

/-- What an answer that is wanted, and no TIMEOUT, does. -/
theorem State.answer_told (s : State) {r : Req} {a : Answer} (hd : r.discard = false) (htime : a.status ≠ 0xB) :
    Answers s (s.answer r a) r a ∧ s.answer r a = { s with reqs := (s.answer r a).reqs, live := (s.answer r a).live } ∧
      LiveBut [R.MAP_CNT_HOLE] s (s.answer r a) ∧ (a.status = 6 → Counted F.MAP_CNT_HOLE_count s (s.answer r a)) := by
  by_cases hhole : a.status = 6
  · have hlive := s.inc_live F.MAP_CNT_HOLE_count rfl
    rw [s.answer_hole hd hhole]
    refine ⟨rfl, by rw [hlive], fun x hx => ?_, fun _ => State.fv_inc_self s _ (by decide)⟩
    rw [hlive]
    exact RegMap.val_setF_ne _ _ _ fun e => hx (by rw [e]; exact List.mem_singleton_self _)
  · rw [s.answer_eq hd hhole htime]
    exact ⟨rfl, rfl, LiveBut.refl _ s, fun h => absurd h hhole⟩

/-! ### Requests that are not performed -/

/-- The commands of array requests, with their opcodes. -/
def arrayCommands : List ((Port → BitVec 9 → Instr) × Nat) := [(Instr.rd, opRD), (Instr.wr, opWR), (Instr.wrm, opWRM)]

/-- The commands of scratchpad requests, with their opcodes. -/
def scratchCommands : List ((Port → BitVec 9 → Option (Fin 64) → Bool → Instr) × Nat) :=
  [(Instr.lrd, opLRD), (Instr.lwr, opLWR), (Instr.lwrm, opLWRM)]

section
variable {s : State} {op : Nat} {p : Port} {tag : BitVec 9} {r : Req} (hrun : Runs s op p tag r)
include hrun

/-- R175: an array request that its checks stop is refused. -/
theorem exec_array_refused {c : Port → BitVec 9 → Instr} {st : Nat} (hc : (c, op) ∈ arrayCommands) (hst : s.dramCheck r = some st) :
    exec (c p tag) s = .next (s.refuse r st) := by
  simp only [arrayCommands, List.mem_cons, Prod.mk.injEq, List.not_mem_nil, or_false] at hc
  obtain ⟨rfl, rfl⟩ | ⟨rfl, rfl⟩ | ⟨rfl, rfl⟩ := hc
  · show execRd p tag s = _
    simp only [execRd, hrun.1, hst]
  · show execWr p tag s = _
    simp only [execWr, hrun.1, hst]
  · show execWrm p tag s = _
    simp only [execWrm, hrun.1, hst]

variable {c : Port → BitVec 9 → Option (Fin 64) → Bool → Instr} (hc : (c, op) ∈ scratchCommands) (met : Option (Fin 64)) (wrote : Bool)
include hc

/-- R82: a scratchpad request that its checks stop is answered at once. -/
theorem exec_scratch_refused {st : Nat} (hst : scratchCheck r = some st) :
    exec (c p tag met wrote) s = .next (s.answer r { status := st }) := by
  simp only [scratchCommands, List.mem_cons, Prod.mk.injEq, List.not_mem_nil, or_false] at hc
  obtain ⟨rfl, rfl⟩ | ⟨rfl, rfl⟩ | ⟨rfl, rfl⟩ := hc
  · show execLrd p tag met wrote s = _
    simp only [execLrd, hrun.1, hst]
  · show execLwr p tag met wrote s = _
    simp only [execLwr, hrun.1, hst]
  · show execLwrm p tag met wrote s = _
    simp only [execLwrm, hrun.1, hst]

/-- R293: every other one goes to the host path of the Larder. -/
theorem exec_scratch_path (hst : scratchCheck r = none) :
    ∃ go, exec (c p tag met wrote) s = .next (s.hostPath r (metUse r met wrote) go) := by
  simp only [scratchCommands, List.mem_cons, Prod.mk.injEq, List.not_mem_nil, or_false] at hc
  obtain ⟨rfl, rfl⟩ | ⟨rfl, rfl⟩ | ⟨rfl, rfl⟩ := hc
  · show ∃ go, execLrd p tag met wrote s = .next (s.hostPath r (metUse r met wrote) go)
    simp only [execLrd, hrun.1, hst]
    exact ⟨_, rfl⟩
  · show ∃ go, execLwr p tag met wrote s = .next (s.hostPath r (metUse r met wrote) go)
    simp only [execLwr, hrun.1, hst]
    exact ⟨_, rfl⟩
  · show ∃ go, execLwrm p tag met wrote s = .next (s.hostPath r (metUse r met wrote) go)
    simp only [execLwrm, hrun.1, hst]
    exact ⟨_, rfl⟩

end

/-- The status of an array request that is not performed, in the order of R82. -/
def arrayStatus (r : Req) : Nat :=
  if misaligned r.op r.flags r.addr r.operand.toNat then 7 else if dramHole r.op r.len r.flags r.addr then 6 else 0xA

theorem arrayStatus_ne_timeout (r : Req) : arrayStatus r ≠ 0xB := by
  unfold arrayStatus
  split
  · decide
  · split <;> decide

theorem State.dramCheck_some {s : State} {r : Req}
    (h : misaligned r.op r.flags r.addr r.operand.toNat = true ∨ dramHole r.op r.len r.flags r.addr = true ∨
      ∃ x ∈ slotsOf r.cfg r.op r.len r.flags r.addr, s.serves x.loc.ch = false) :
    s.dramCheck r = some (arrayStatus r) := by
  unfold State.dramCheck arrayStatus
  split
  · rfl
  · next hm =>
    split
    · rfl
    · next hh =>
      obtain ⟨x, hx, hserve⟩ := (h.resolve_left hm).resolve_left hh
      exact if_pos (List.any_eq_true.mpr ⟨x.loc.ch, List.mem_map.mpr ⟨x, hx, rfl⟩, by simp [hserve]⟩)

theorem scratchCheck_some {r : Req}
    (h : misaligned r.op r.flags r.addr r.operand.toNat = true ∨ scratchHole r.cfg r.op r.len r.flags r.addr = true) :
    scratchCheck r = some (if misaligned r.op r.flags r.addr r.operand.toNat then 7 else 6) := by
  unfold scratchCheck
  split
  · rfl
  · next hm => exact if_pos (h.resolve_left hm)

/-- Bursts that will not run leave their tiles and nothing else. -/
theorem State.release_eq (s : State) (r : Req) (f : Burst → Bool) : s.release r f = { s with tiles := (s.release r f).tiles } :=
  State.foldl_tiles _ (fun _ _ => rfl) _ _

/-- Bursts leave their tiles, and then an answer. -/
theorem tiles_then_answer {s t u : State} (h : t = { s with tiles := t.tiles }) (h' : u = { t with reqs := u.reqs, live := u.live }) :
    u = { s with reqs := u.reqs, live := u.live, tiles := u.tiles } := by
  rw [h', h]

/-- R296: a request one of whose banks an earlier access uses waits for that bank. -/
theorem State.hostPath_waits {s : State} {r : Req} (more : List LAcc) (go : State → State)
    (h : ∃ x ∈ hostUse r, ∃ y ∈ s.hostAhead r, x.at_ = y.at_) :
    ∃ x ∈ hostUse r, s.hostPath r more go = s.larWaits r (F.LAR_CNT_PCONF_count (r.port / 16) (r.port % 16)) x.q := by
  obtain ⟨x, hx, y, hy, heq⟩ := h
  obtain ⟨z, hz⟩ := Option.isSome_iff_exists.mp
    (List.find?_isSome.mpr ⟨x, hx, List.any_eq_true.mpr ⟨y, hy, beq_iff_eq.mpr heq⟩⟩ :
      ((hostUse r).find? fun x => (s.hostAhead r).any fun y => x.at_ == y.at_).isSome = true)
  exact ⟨z, List.mem_of_find?_eq_some hz, by simp only [State.hostPath, hz]⟩

/-- R297: a request that has its banks, and meets an engine's access on a word, collides. -/
theorem State.hostPath_collides {s : State} {r : Req} (more : List LAcc) (go : State → State)
    (hfree : ∀ x ∈ hostUse r, ∀ y ∈ s.hostAhead r, x.at_ ≠ y.at_) (h : ∃ x ∈ hostUse r, ∃ y ∈ s.lar.eng ++ more, x.meets y = true) :
    ∃ x ∈ hostUse r, s.hostPath r more go = (s.inc (F.LAR_CNT_COLLIDE_count x.q)).answer r { status := 5 } := by
  obtain ⟨x, hx, y, hy, hmeet⟩ := h
  have hnone : ((hostUse r).find? fun x => (s.hostAhead r).any fun y => x.at_ == y.at_) = none :=
    List.find?_eq_none.mpr fun x hx => by simpa using hfree x hx
  obtain ⟨z, hz⟩ := Option.isSome_iff_exists.mp
    (List.find?_isSome.mpr ⟨x, hx, List.any_eq_true.mpr ⟨y, hy, hmeet⟩⟩ :
      ((hostUse r).find? fun x => (s.lar.eng ++ more).any x.meets).isSome = true)
  exact ⟨z, List.mem_of_find?_eq_some hz, by simp only [State.hostPath, hnone, hz]⟩

/-- The requests once `r` waits for a bank of quadrant `q`. -/
def bankNoted (r : Req) (q : Nat) (qs : List Req) : List Req :=
  qs.map fun (x : Req) => if x.port = r.port ∧ x.tag = r.tag then { x with larQuad := some q } else x

/-- R296: the counter of a request that waits rises once in a flit. -/
theorem State.larWaits_eq (s : State) (r : Req) (f : Fld) (q : Nat) :
    s.larWaits r f q = if (r.port, r.tag) ∈ s.lar.counted then { s with reqs := bankNoted r q s.reqs }
      else { s.inc f with reqs := bankNoted r q s.reqs, lar := { s.lar with counted := s.lar.counted ++ [(r.port, r.tag)] } } := by
  have hmod : s.modReq r (fun x => { x with larQuad := some q }) = { s with reqs := bankNoted r q s.reqs } := by
    simp [State.modReq, bankNoted]
  unfold State.larWaits
  simp only [hmod, List.contains_iff_mem]
  cases hc : f.cfg <;> simp only [State.inc, State.addF, State.setF, hc] <;> rfl

/-- What a request that waits leaves behind. -/
theorem State.larWaits_moves (s : State) (r : Req) {f : Fld} (q : Nat) (hc : f.cfg = false) (hw : f.lo + f.width ≤ 32) :
    (s.larWaits r f q).reqs = bankNoted r q s.reqs ∧
      s.larWaits r f q = { s with
        reqs := (s.larWaits r f q).reqs
        live := (s.larWaits r f q).live
        lar := { s.lar with counted := (s.larWaits r f q).lar.counted } } ∧
      LiveBut [f.addr] s (s.larWaits r f q) ∧ ((r.port, r.tag) ∉ s.lar.counted → Counted f s (s.larWaits r f q)) := by
  rw [State.larWaits_eq]
  split
  · next hin => exact ⟨rfl, rfl, LiveBut.refl _ s, fun hout => absurd hin hout⟩
  · refine ⟨rfl, by rw [s.inc_live f hc], fun x hx => ?_, fun _ => State.fv_inc_self s f hw⟩
    rw [s.inc_live f hc]
    exact RegMap.val_setF_ne _ _ _ fun e => hx (List.mem_singleton.mpr e)

/-- Settles O14: each check that stops a request, and each way in which the host path does, has its own answer. -/
theorem unperformedRequestsAreTold : Obligations.UnperformedRequestsAreTold := by
  refine ⟨fun c op p tag s r hc hrun hstop => ?_, fun c op p tag met wrote s r hc hrun => ⟨fun hstop => ?_, fun hst hahead => ?_,
    fun hst hfree hmeet => ?_⟩⟩
  · obtain ⟨hans, heq, hlive, hcount⟩ :=
      (s.release r fun _ => true).answer_told (a := { status := arrayStatus r }) hrun.2 (arrayStatus_ne_timeout r)
    have hrel := s.release_eq r fun _ => true
    have hlives : (s.release r fun _ => true).live = s.live := by rw [hrel]
    have hreqs : (s.release r fun _ => true).reqs = s.reqs := by rw [hrel]
    refine ⟨s.refuse r (arrayStatus r), exec_array_refused hrun hc (State.dramCheck_some hstop), ?_, ?_, ?_, fun hm hh => ?_⟩
    · exact (answers_iff.mp hans).trans (congrArg _ hreqs)
    · exact tiles_then_answer hrel heq
    · exact fun a ha => (hlive a ha).trans (by rw [hlives])
    · have hfv : (s.release r fun _ => true).fv F.MAP_CNT_HOLE_count = s.fv F.MAP_CNT_HOLE_count := by rw [hrel]; rfl
      have := hcount (by simp [arrayStatus, hm, hh])
      rwa [Counted, hfv] at this
  · obtain ⟨hans, heq, hlive, -⟩ := s.answer_told (r := r)
      (a := { status := if misaligned r.op r.flags r.addr r.operand.toNat then 7 else 6 }) hrun.2 (by dsimp only; split <;> decide)
    exact ⟨_, exec_scratch_refused hrun hc met wrote (scratchCheck_some hstop), hans, heq, hlive⟩
  · obtain ⟨go, hexec⟩ := exec_scratch_path hrun hc met wrote hst
    obtain ⟨x, hx, hwaits⟩ := State.hostPath_waits (metUse r met wrote) go hahead
    obtain ⟨-, hport, -, -⟩ := hrun.request
    obtain ⟨hreqs, heq, hlive, hcount⟩ :=
      s.larWaits_moves r (f := F.LAR_CNT_PCONF_count (r.port / 16) (r.port % 16)) x.q rfl (by simp [F.LAR_CNT_PCONF_count])
    rw [hwaits] at hexec
    exact ⟨_, x.q, hexec, List.mem_map_of_mem hx, hreqs, heq, hport ▸ hlive, hport ▸ hcount⟩
  · obtain ⟨go, hexec⟩ := exec_scratch_path hrun hc met wrote hst
    obtain ⟨x, hx, hcollides⟩ := State.hostPath_collides (metUse r met wrote) go hfree hmeet
    rw [hcollides, State.answer_eq _ hrun.2 (by decide) (by decide)] at hexec
    refine ⟨_, x.q, hexec, List.mem_map_of_mem hx, ?_, ?_, ?_, fun a ha => ?_⟩
    · rw [answers_iff, State.inc_reqs]
    · exact State.fv_inc_self s _ (by simp [F.LAR_CNT_COLLIDE_count])
    · rw [State.inc_live _ _ rfl]
    · rw [State.inc_live _ _ rfl]
      exact RegMap.val_setF_ne _ _ _ fun e => ha (by rw [e]; exact List.mem_singleton_self _)

end Sys2Proof.Machine

namespace Sys2Proof.Machine

/-! ### A read of a cached burst (R209, R315) -/

/-- R91: a read that its checks let through reads its bursts and is answered with them. -/
theorem exec_rd_performed {s : State} {p : Port} {tag : BitVec 9} {r : Req} (hrun : Runs s opRD p tag r) (hst : s.dramCheck r = none) :
    exec (.rd p tag) s = .next ((s.readBursts r).2.answer r (readAnswer (s.readBursts r).1)) := by
  show execRd p tag s = _
  simp only [execRd, hrun.1, hst]

/-- The status of a read is OK or POISON. -/
theorem readAnswer_status (bs : List (List WordRead)) : (readAnswer bs).status = 0 ∨ (readAnswer bs).status = 1 := by
  unfold readAnswer
  extract_lets mask
  by_cases h : mask = 0
  · exact .inl (if_pos h)
  · exact .inr (if_neg h)

/-- An RD of the burst at 64, accepted from port 0. -/
def burstRead : Req := { State.reset.newReq 0 0 (Hdr.ofNat (opRD * 2 ^ 58 + 64)) [] with answer := none, tentative := false }

/-- A line of the counter cache that holds the burst at 64, its word 0 the codeword of 0 with one bit wrong. -/
def wornLine : CLine :=
  { burst := 1, bank := (dramLoc [] 64).bank, row := (dramLoc [] 64).row, col := (dramLoc [] 64).col, dirty := true
    words := 1 :: List.replicate 7 0 }

/-- A device that is asked for the burst, and caches it in that line. -/
def wornRead : State :=
  { State.reset with
    pwr := { good := true, phase := 7, booted := true }
    reqs := [burstRead]
    eng := { State.reset.eng with cache := [(16384 * (dramLoc [] 64).ch + 1, [wornLine])] } }

theorem wornRead_runs : Runs wornRead opRD 0 0 burstRead ∧ wornRead.dramCheck burstRead = none := by
  unfold Runs
  decide +kernel

/-- After reset no source of the integrity blocks is fatal (R422). -/
theorem wornRead_mild : Mild wornRead 504 544 := by
  have hreset : ∀ k, k < 40 → State.reset.severityOf (504 + k) ≠ 5 := by decide +kernel
  intro src hlo hhi
  obtain ⟨k, rfl⟩ := Nat.exists_eq_add_of_le hlo
  rw [State.severityOf_congr (show wornRead.active = State.reset.active from rfl)]
  exact hreset k (by omega)

/-- The read writes the word back to the line, corrected. -/
theorem wornRead_cleans : (wornRead.readBursts burstRead).2.eng ≠ wornRead.eng := by decide +kernel

/-- Refutes O12: its second clause has no hypothesis on the counter cache, and says that an RD changes nothing of the
engines. A burst that is cached is read from its line (R209), a Larder word, and a word of it with one bit wrong is written
back to the line at once (R315). -/
theorem not_readsReturnTheWords : ¬ Obligations.ReadsReturnTheWords := by
  intro h
  obtain ⟨-, hread, -⟩ := h
  obtain ⟨hrun, hst⟩ := wornRead_runs
  obtain ⟨t, a, hexec, -, -, -, ⟨heq, -⟩, -, -⟩ := hread 0 0 wornRead burstRead hrun hst wornRead_mild
  have hnext := Host.Outcome.next.inj (hexec.symm.trans (exec_rd_performed hrun hst))
  have hstatus := readAnswer_status (wornRead.readBursts burstRead).1
  have heng : t.eng = (wornRead.readBursts burstRead).2.eng := by
    rw [hnext, State.answer_eq _ hrun.2 (by omega) (by omega)]
  exact wornRead_cleans (heng.symm.trans (by rw [heq]))

end Sys2Proof.Machine

namespace Sys2Proof.Machine

/-! ### A late response of a link that the device does not have -/

/-- The step goes on, and leaves a request of port 0 with tag 0. -/
def keepsRequest : Host.Outcome State Fault Refusal → Bool
  | .next t => t.reqs.any fun q => q.port == 0 && q.tag == 0
  | _ => false

/-- The RD in DETERMINISTIC, answered, that names link 16 as its own. -/
def strayReq : Req := { burstRead with mode := 2, link := 16, answer := some { status := 0 } }

/-- One frame after its fixed latency. The queue of events is full, three more are counted as lost, and the count lies where the
state of a link 16 would. -/
def strayLate : State :=
  { State.reset.setF F.LNK_EVT_LOST_count 3 with
    pwr := { good := true, phase := 7, booted := true }
    epoch := 7
    frame := 1
    reqs := [strayReq]
    evq := List.replicate 64 0 }

theorem strayLate_found : (strayLate.reqs.find? fun r =>
    r.port == (0 : Port).val && r.tag == (0 : BitVec 9).toNat && !r.tentative && r.data.length == r.need && !r.queued) = some strayReq := by
  decide +kernel

theorem strayLate_due : strayReq.respFrame = some 56 ∧ 56 + strayReq.excess ≤ strayLate.absFrame ∧ strayLate.linkTalks 16 = true ∧
    strayLate.respWaits strayReq = false ∧ strayLate.burstsLeft strayReq = false := by decide +kernel

theorem strayLate_mild : strayLate.severityOf (Src.larder 0 (strayReq.larQuad.getD (scratchLine strayReq.cfg strayReq.addr).q)) ≠ 5 ∧
    strayLate.severityOf (Src.sched 2 strayReq.lateAt) ≠ 5 := by decide +kernel

/-- The report of the late response is the fourth event lost, and the link talks no more. -/
theorem strayLate_stays : keepsRequest (exec (.responseSend 0 0) strayLate) = true := by decide +kernel

/-- Refutes O15: its clause of `responseSend` bounds the link of the request nowhere, and says that a link that talks and holds
fewer than 255 flits transmits the response. The state of a link 16, of which there is none, would be read from LNK_EVT_LOST, and a late
response that is reported while the queue of events is full counts there (R61): the link's state moves from 3, OPEN, to 4, and the response stays. -/
theorem not_fencesTagsAndResponses : ¬ Obligations.FencesTagsAndResponses := by
  intro h
  obtain ⟨-, hsend, -⟩ := h
  obtain ⟨hdue, hpast, htalks, hwaits, hbursts⟩ := strayLate_due
  obtain ⟨t, hexec, -, -, -, hgone, -⟩ := hsend 0 0 strayLate strayReq { status := 0 } strayLate_found rfl htalks hwaits hbursts
    (fun _ _ f hf => by rwa [Option.some.inj (hf.symm.trans hdue)]) fun _ _ _ _ _ => strayLate_mild
  have hkeeps := strayLate_stays
  rw [hexec, keepsRequest, List.any_eq_true] at hkeeps
  obtain ⟨q, hq, hkey⟩ := hkeeps
  obtain ⟨hport, htag⟩ : q.port = 0 ∧ q.tag = 0 := by simpa using hkey
  exact hgone rfl rfl (by decide) q hq ⟨hport.trans (by decide +kernel), htag.trans (by decide +kernel)⟩

end Sys2Proof.Machine

namespace Sys2Proof.Machine

/-! ### Runs of stored codewords -/

/-- A memory after codewords have been put at word indices, one after the other. -/
def storeWords (m : List Host.Cell) (ws : List (Nat × Codeword)) : List Host.Cell := ws.foldl (fun m x => memPut m x.1 x.2) m

@[simp] theorem storeWords_nil (m : List Host.Cell) : storeWords m [] = m := rfl

theorem storeWords_append (m : List Host.Cell) (ws vs : List (Nat × Codeword)) :
    storeWords m (ws ++ vs) = storeWords (storeWords m ws) vs := List.foldl_append

/-- A byte of no codeword that has been put is as before. -/
theorem memByte_storeWords_ne {ws : List (Nat × Codeword)} {a : Nat} (h : ∀ x ∈ ws, x.1 ≠ a / 10) (m : List Host.Cell) :
    memByte (storeWords m ws) a = memByte m a := by
  induction ws generalizing m with
  | nil => rfl
  | cons x ws ih =>
    have hx := h x List.mem_cons_self
    exact (ih (fun y hy => h y (List.mem_cons_of_mem _ hy)) _).trans (memByte_memPut_ne m x.1 x.2 (by omega))

theorem memWord_storeWords_ne {ws : List (Nat × Codeword)} {i : Nat} (h : ∀ x ∈ ws, x.1 ≠ i) (m : List Host.Cell) :
    memWord (storeWords m ws) i = memWord m i := by
  induction ws generalizing m with
  | nil => rfl
  | cons x ws ih =>
    exact (ih (fun y hy => h y (List.mem_cons_of_mem _ hy)) _).trans (memWord_memPut_ne m x.2 (h x List.mem_cons_self).symm)

/-- A codeword is read back when every put at its index was of that codeword, and there was one. -/
theorem memWord_storeWords {ws : List (Nat × Codeword)} {i : Nat} {c : Codeword} (hin : ∃ x ∈ ws, x.1 = i)
    (hall : ∀ x ∈ ws, x.1 = i → x.2 = c) (m : List Host.Cell) : memWord (storeWords m ws) i = c := by
  induction ws generalizing m with
  | nil => obtain ⟨x, hx, -⟩ := hin; cases hx
  | cons x ws ih =>
    by_cases hlater : ∃ y ∈ ws, y.1 = i
    · exact ih hlater (fun y hy => hall y (List.mem_cons_of_mem _ hy)) _
    · have hx : x.1 = i := by
        obtain ⟨y, hy, hi⟩ := hin
        rcases List.mem_cons.mp hy with rfl | hy
        · exact hi
        · exact absurd ⟨y, hy, hi⟩ hlater
      refine (memWord_storeWords_ne (fun y hy hi => hlater ⟨y, hy, hi⟩) (memPut m x.1 x.2)).trans ?_
      rw [← hall x List.mem_cons_self hx, ← hx]
      exact memWord_memPut_self m x.1 x.2

/-! ### Places of the array (R136, R142) -/

/-- A place of the array that an order gives: bank and column in range, and the row in its zone. -/
theorem mapOrder_range (order z o : Nat) : (mapOrder order z o).ch < 32 ∧ (mapOrder order z o).bank < 32 ∧
    (mapOrder order z o).col < 32 ∧ (mapOrder order z o).row / 2048 = z := by
  unfold mapOrder bits
  split <;> refine ⟨?_, ?_, ?_, ?_⟩ <;> dsimp only <;> omega

/-- A number above bit `lo` is its bits below `hi` and the number above `hi`. -/
theorem bits_split (o : Nat) {lo n hi : Nat} (h : hi = lo + n) : o / 2 ^ lo = 2 ^ n * (o / 2 ^ hi) + o / 2 ^ lo % 2 ^ n := by
  rw [h, pow_add, ← Nat.div_div_eq_div_mul]
  exact (Nat.div_add_mod _ _).symm

/-- A bank is its group and its number in the group; a row is its zone and its number in the zone. -/
theorem bank_split (g b : Nat) : (8 * g + b % 2 ^ 3) / 8 = g ∧ (8 * g + b % 2 ^ 3) % 8 = b % 2 ^ 3 := by omega
theorem row_split (z r : Nat) : (2048 * z + r % 2 ^ 11) / 2048 = z ∧ (2048 * z + r % 2 ^ 11) % 2048 = r % 2 ^ 11 := by omega

/-- R142 turns back: a place gives the address of its burst. -/
theorem unmapOrder_mapOrder (order z o : Nat) (ho : o < 2 ^ 32) : unmapOrder order (mapOrder order z o) = 2 ^ 32 * z + 64 * (o / 64) := by
  unfold unmapOrder mapOrder bits
  obtain _ | _ | _ | n := order <;> simp only [Nat.shiftRight_eq_div_pow, bank_split, row_split]
  · have h6 := bits_split o (lo := 6) (n := 5) rfl
    have h11 := bits_split o (lo := 11) (n := 5) rfl
    have h16 := bits_split o (lo := 16) (n := 2) rfl
    have h18 := bits_split o (lo := 18) (n := 3) rfl
    omega
  · have h6 := bits_split o (lo := 6) (n := 2) rfl
    have h8 := bits_split o (lo := 8) (n := 5) rfl
    have h13 := bits_split o (lo := 13) (n := 3) rfl
    have h16 := bits_split o (lo := 16) (n := 2) rfl
    have h18 := bits_split o (lo := 18) (n := 3) rfl
    omega
  · have h6 := bits_split o (lo := 6) (n := 2) rfl
    have h8 := bits_split o (lo := 8) (n := 3) rfl
    have h11 := bits_split o (lo := 11) (n := 5) rfl
    have h16 := bits_split o (lo := 16) (n := 5) rfl
    omega
  · have h6 := bits_split o (lo := 6) (n := 5) rfl
    have h11 := bits_split o (lo := 11) (n := 2) rfl
    have h13 := bits_split o (lo := 13) (n := 3) rfl
    have h16 := bits_split o (lo := 16) (n := 11) rfl
    omega

theorem dramAddr_dramLoc (cfg : RegMap) (a : Nat) : dramAddr cfg (dramLoc cfg a) = 64 * (a / 64) := by
  obtain ⟨-, -, -, hrow⟩ := mapOrder_range (cfg.fv (F.MAP_ZONE_order (a >>> 32))) (a >>> 32) (a % 2 ^ 32)
  unfold dramAddr dramLoc
  rw [hrow, unmapOrder_mapOrder _ _ _ (Nat.mod_lt _ (by decide)), Nat.shiftRight_eq_div_pow]
  omega

/-- Addresses in one place lie in one burst. -/
theorem block_eq_of_dramLoc {cfg : RegMap} {a b : Nat} (h : dramLoc cfg a = dramLoc cfg b) : a / 64 = b / 64 := by
  have := (dramAddr_dramLoc cfg a).symm.trans ((congrArg (dramAddr cfg) h).trans (dramAddr_dramLoc cfg b))
  omega

theorem mapOrder_block (order z : Nat) {o u : Nat} (h : o / 64 = u / 64) : mapOrder order z o = mapOrder order z u := by
  unfold mapOrder bits
  simp only [Nat.shiftRight_eq_div_pow]
  split <;> simp only [Loc.mk.injEq] <;> omega

/-- Addresses in one burst have one place. -/
theorem dramLoc_block (cfg : RegMap) {a b : Nat} (h : a / 64 = b / 64) : dramLoc cfg a = dramLoc cfg b := by
  have hzone : a >>> 32 = b >>> 32 := by simp only [Nat.shiftRight_eq_div_pow]; omega
  unfold dramLoc
  rw [hzone]
  exact mapOrder_block _ _ (by omega)

/-- Word `w` of a burst at an aligned address: its place, and its number there. -/
theorem dramLoc_word (cfg : RegMap) {a w : Nat} (ha : a % 64 = 0) (hw : w < 8) :
    dramLoc cfg (a + 8 * w) = dramLoc cfg a ∧ (a + 8 * w) / 8 % 8 = w :=
  ⟨dramLoc_block cfg (by omega), by omega⟩

/-- R329: the row that serves a user row, or a spare entry whose row it is. -/
theorem State.physRow_cases (s : State) (ch bank row : Nat) :
    s.physRow ch bank row = row ∨ ∃ k, k < 16 ∧ s.physRow ch bank row = 49152 + k ∧ (s.spareAt ch bank k).row = row := by
  unfold State.physRow State.rowBy
  split
  · next k hk =>
    have hrow := List.find?_some hk
    simp only [Bool.and_eq_true, beq_iff_eq] at hrow
    exact .inr ⟨k, List.mem_range.mp (List.mem_of_find?_eq_some hk), rfl, hrow.2⟩
  · exact .inl rfl

/-- No two user rows of a bank are served by one row. -/
theorem State.physRow_inj {s : State} {ch bank row row' : Nat} (h : row < 49152) (h' : row' < 49152)
    (heq : s.physRow ch bank row = s.physRow ch bank row') : row = row' := by
  rcases s.physRow_cases ch bank row with hr | ⟨k, hk, hr, hrow⟩ <;> rcases s.physRow_cases ch bank row' with hr' | ⟨k', hk', hr', hrow'⟩
  · omega
  · omega
  · omega
  · obtain rfl : k = k' := by omega
    exact hrow.symm.trans hrow'

theorem State.physRow_lt (s : State) {ch bank row : Nat} (h : row < 49152) : s.physRow ch bank row < rowsPerBank := by
  unfold rowsPerBank
  rcases s.physRow_cases ch bank row with hr | ⟨k, hk, hr, -⟩ <;> omega

/-- Two words of one burst have one index only when they are the same. -/
theorem State.physWord_word_inj {s : State} {l : Loc} {w v : Nat} (h : s.physWord l w = s.physWord l v) : w = v := by
  unfold State.physWord Loc.word at h
  omega

/-- R93, R142, R329: two words of user addresses have one index only when they are the same word of the same burst. -/
theorem State.physWord_inj {s : State} {cfg : RegMap} {a b w v : Nat} (ha : a < dramTop) (hb : b < dramTop) (hw : w < 8) (hv : v < 8)
    (h : s.physWord (dramLoc cfg a) w = s.physWord (dramLoc cfg b) v) : a / 64 = b / 64 ∧ w = v := by
  have hzone : ∀ x, x < dramTop → x >>> 32 < 24 := fun x hx => by
    rw [Nat.shiftRight_eq_div_pow]
    unfold dramTop at hx
    omega
  have hrange : ∀ x, x < dramTop → (dramLoc cfg x).bank < 32 ∧ (dramLoc cfg x).col < 32 ∧ (dramLoc cfg x).row < 49152 := fun x hx => by
    obtain ⟨-, hbank, hcol, hrow⟩ := mapOrder_range (cfg.fv (F.MAP_ZONE_order (x >>> 32))) (x >>> 32) (x % 2 ^ 32)
    have := hzone x hx
    exact ⟨hbank, hcol, show (mapOrder _ _ _).row < 49152 by omega⟩
  obtain ⟨hbank, hcol, hrow⟩ := hrange a ha
  obtain ⟨hbank', hcol', hrow'⟩ := hrange b hb
  generalize hla : dramLoc cfg a = l at *
  generalize hlb : dramLoc cfg b = l' at *
  have hphys := s.physRow_lt (ch := l.ch) (bank := l.bank) hrow
  have hphys' := s.physRow_lt (ch := l'.ch) (bank := l'.bank) hrow'
  unfold State.physWord State.physLoc State.physRowAt Loc.word at h
  unfold rowsPerBank at h hphys hphys'
  dsimp only at h
  obtain ⟨hch, hbk, hrw, hcl, hww⟩ : l.ch = l'.ch ∧ l.bank = l'.bank ∧
      s.physRow l.ch l.bank l.row = s.physRow l'.ch l'.bank l'.row ∧ l.col = l'.col ∧ w = v := by omega
  refine ⟨block_eq_of_dramLoc (cfg := cfg) ?_, hww⟩
  rw [← hch, ← hbk] at hrw
  rw [hla, hlb, Loc.mk.injEq]
  exact ⟨hch, hbk, State.physRow_inj hrow hrow' hrw, hcl⟩

end Sys2Proof.Machine

namespace Sys2Proof.Machine

/-- A run of steps, each of which stores what it says wherever those before it have led. -/
theorem foldl_stores {α : Type} {R : List (Nat × Codeword) → State → State → Prop} (hrefl : ∀ s, R [] s s)
    (htrans : ∀ {ws vs s t u}, R ws s t → R vs t u → R (ws ++ vs) s u) {f : State → α → State} {g : α → List (Nat × Codeword)}
    {s : State} (xs : List α) (hf : ∀ ws t a, a ∈ xs → R ws s t → R (g a) t (f t a)) : R (xs.flatMap g) s (xs.foldl f s) := by
  have go : ∀ (ys : List α) ws t, (∀ a ∈ ys, a ∈ xs) → R ws s t → R (ws ++ ys.flatMap g) s (ys.foldl f t) := by
    intro ys
    induction ys with
    | nil => intro ws t _ ht; simpa using ht
    | cons a ys ih =>
      intro ws t hys ht
      have := ih _ _ (fun b hb => hys b (List.mem_cons_of_mem _ hb)) (htrans ht (hf ws t a (hys a List.mem_cons_self) ht))
      rwa [List.append_assoc, ← List.flatMap_cons] at this
  exact go xs [] s (fun _ h => h) (hrefl s)

/-! ### Stores to the array (R92, R304, R316)

A store puts a codeword into the array, and its word leaves the recurrence table, which may queue its burst for a probe, log it and
report. None of that moves the place of a burst. -/

/-- The registers of the integrity block of tile `t` that wordRegs lists. -/
def eccWordRegs (t : Nat) : List Nat :=
  [R.ECC_STATUS t, R.ECC_CNT_CE t, R.ECC_CNT_UE t, R.ECC_CNT_ERASE t, R.ECC_CNT_POISON_RD t, R.ECC_CNT_SCRUB_CE t, R.ECC_CNT_SCRUB_UE t,
    R.ECC_CNT_PROBEDROP t, R.ECC_CNT_RECEVICT t, R.ECC_CNT_RETIRED t, R.ECC_CNT_LOGLOST t]

theorem mem_wordRegs {t a : Nat} (ht : t < 32) (ha : a ∈ eccWordRegs t) : a ∈ wordRegs := by
  unfold wordRegs
  simp only [List.append_assoc]
  exact List.mem_append_left _ (List.mem_flatMap.mpr ⟨t, List.mem_range.mpr ht, ha⟩)

theorem reportRegs_subset_wordRegs : reportRegs ⊆ wordRegs := fun _ h => List.mem_append_right _ h

/-- `t` is `s` but for the codewords `ws`, put at their indices of the array, and for what keeping track of errors leaves behind: no
row is remapped, and the bursts under probe stay. -/
structure DramStores (ws : List (Nat × Codeword)) (s t : State) : Prop where
  rest : t = { s with live := t.live, dram := t.dram, ecc := t.ecc, evq := t.evq, evLost := t.evLost, flt := t.flt }
  live : LiveBut wordRegs s t
  dram : t.dram = storeWords s.dram ws
  remap : ∀ c, (t.eccOf c).remap = (s.eccOf c).remap
  probe : ∀ c, (t.eccOf c).probe.map ProbeJob.burst = (s.eccOf c).probe.map ProbeJob.burst

namespace DramStores

variable {ws vs : List (Nat × Codeword)} {s t u : State}

theorem refl (s : State) : DramStores [] s s := ⟨rfl, LiveBut.refl _ s, rfl, fun _ => rfl, fun _ => rfl⟩

theorem trans (h : DramStores ws s t) (h' : DramStores vs t u) : DramStores (ws ++ vs) s u where
  rest := by rw [h'.rest, h.rest]
  live := h.live.trans h'.live (List.Subset.refl _) (List.Subset.refl _)
  dram := by rw [h'.dram, h.dram, storeWords_append]
  remap c := (h'.remap c).trans (h.remap c)
  probe c := (h'.probe c).trans (h.probe c)

/-- A step that stores nothing. -/
theorem keep (h : DramStores ws s t) (h' : DramStores [] t u) : DramStores ws s u := List.append_nil ws ▸ h.trans h'

theorem of_reported (h : Reported s t) : DramStores [] s t := by
  have hecc : t.ecc = s.ecc := by rw [h.1]
  have hof : ∀ c, t.eccOf c = s.eccOf c := fun c => by unfold State.eccOf; rw [hecc]
  refine ⟨?_, fun a ha => h.2 a fun hm => ha (reportRegs_subset_wordRegs hm), by rw [h.1]; rfl, fun c => by rw [hof], fun c => by rw [hof]⟩
  conv_lhs => rw [h.1]
  rw [h.1]

theorem setF (s : State) (f : Fld) (v : Nat) (hc : f.cfg = false) (ha : f.addr ∈ wordRegs) : DramStores [] s (s.setF f v) := by
  rw [State.setF_live _ _ _ hc]
  exact ⟨rfl, fun a hm => RegMap.val_setF_ne _ _ _ fun e => hm (e ▸ ha), rfl, fun _ => rfl, fun _ => rfl⟩

theorem inc (s : State) (f : Fld) (hc : f.cfg = false) (ha : f.addr ∈ wordRegs) : DramStores [] s (s.inc f) := setF s f _ hc ha

/-- What is kept of a tile's errors changes. -/
theorem modEcc (s : State) (n : Nat) {f : EccSt → EccSt} (hr : ∀ e, (f e).remap = e.remap)
    (hp : ∀ e, (f e).probe.map ProbeJob.burst = e.probe.map ProbeJob.burst) : DramStores [] s (s.modEcc n f) := by
  have hof : ∀ c, (s.modEcc n f).eccOf c = if c = n then f (s.eccOf n) else s.eccOf c := fun c => Tab.get_set _ _ _ _ _
  refine ⟨rfl, LiveBut.refl _ s, rfl, fun c => ?_, fun c => ?_⟩ <;> rw [hof] <;> split
  · next h => rw [h, hr]
  · rfl
  · next h => rw [h, hp]
  · rfl

theorem dramPut (s : State) (i : Nat) (c : Codeword) : DramStores [(i, c ^^^ s.lostMask i)] s (s.dramPut i c) :=
  ⟨rfl, LiveBut.refl _ s, rfl, fun _ => rfl, fun _ => rfl⟩

theorem mild (h : DramStores ws s t) {lo hi : Nat} (hm : Mild s lo hi) : Mild t lo hi := fun src hlo hhi => by
  rw [State.severityOf_congr (show t.active = s.active by rw [h.rest])]
  exact hm src hlo hhi

theorem foldl {α : Type} {f : State → α → State} {g : α → List (Nat × Codeword)} (xs : List α)
    (hf : ∀ ws t a, a ∈ xs → DramStores ws s t → DramStores (g a) t (f t a)) : DramStores (xs.flatMap g) s (xs.foldl f s) :=
  foldl_stores refl trans xs hf

end DramStores

/-! ### What keeping track of an error leaves alone -/

section
variable {s : State} {t : Nat} (ht : t < 32) (hmild : Mild s 504 544)
include ht hmild

/-- A source of an integrity block is reported. -/
theorem DramStores.raise {k : Nat} (hk : k < 10) (info : Nat) : DramStores [] s (s.raise (Src.integrity k (t / 8)) info) :=
  .of_reported (State.raise_reported _ _ _ (hmild _ (by unfold Src.integrity; omega) (by unfold Src.integrity; omega)))

/-- R325: a log entry is captured, or lost. -/
theorem State.capture_keeps (cls : Nat) (i : ErrInfo) : DramStores [] s (s.capture t cls i) := by
  unfold State.capture
  split
  · exact .modEcc s t (fun _ => rfl) fun _ => rfl
  · have hinc : DramStores [] s (s.inc (F.ECC_CNT_LOGLOST_count t)) :=
      .inc s _ rfl (mem_wordRegs ht (by simp [eccWordRegs, F.ECC_CNT_LOGLOST_count, R.ECC_CNT_LOGLOST]))
    exact hinc.keep (.raise ht (hinc.mild hmild) (by decide) t)

theorem State.captures_keep (cls : Nat) (f : ErrInfo → ErrInfo) (is : List ErrInfo) :
    DramStores [] s (is.foldl (fun s i => s.capture t cls (f i)) s) := by
  have := DramStores.foldl (s := s) (f := fun s i => s.capture t cls (f i)) (g := fun _ => []) is
    fun ws u i _ hu => State.capture_keeps ht (hu.mild hmild) cls (f i)
  rwa [List.flatMap_eq_nil_iff.mpr fun _ _ => rfl] at this

end

/-- R333: the status fields of a tile are written. -/
theorem DramStores.eccStatus {ws : List (Nat × Codeword)} {s u : State} {t : Nat} (ht : t < 32) (h : DramStores ws s u) :
    DramStores ws s (u.eccStatus t) := by
  have hmem : R.ECC_STATUS t ∈ wordRegs := mem_wordRegs ht (by simp [eccWordRegs])
  exact (h.keep (.setF u (F.ECC_STATUS_probe_q t) _ rfl hmem)).keep (.setF _ (F.ECC_STATUS_rec_used t) _ rfl hmem)

/-- A job that takes up errors is still the job of its burst. -/
theorem ProbeJob.burst_adds (errs : List ErrInfo) (j : ProbeJob) : (errs.foldl ProbeJob.add j).burst = j.burst := by
  induction errs generalizing j with
  | nil => rfl
  | cons i errs ih => exact ih (j.add i)

/-- R316, R320: a burst is queued for a probe, or its errors are logged. -/
theorem State.queueBurst_keeps {s : State} {t : Nat} (ht : t < 32) (hmild : Mild s 504 544) (bank row col : Nat) (errs : List ErrInfo) :
    DramStores [] s (s.queueBurst t bank row col errs) := by
  unfold State.queueBurst
  extract_lets e b add u1 u2 wb
  have hadd : ∀ j, (add j).burst = j.burst := fun j => by
    unfold add
    split
    · exact ProbeJob.burst_adds errs j
    · rfl
  split
  · refine DramStores.eccStatus ht (.modEcc s t (fun _ => rfl) fun e => ?_)
    cases e.probe with
    | none => rfl
    | some j => exact congrArg some (hadd j)
  · split
    · exact State.captures_keep ht hmild 4 _ errs
    · generalize (s.fb (F.ECC_CTL_probe_en t) && _) = room
      cases room with
      | true =>
        simp only [if_true]
        exact DramStores.eccStatus ht (.modEcc s t (fun _ => rfl) fun _ => rfl)
      | false =>
        simp only [Bool.false_eq_true, if_false]
        have hinc : DramStores [] s (s.inc (F.ECC_CNT_PROBEDROP_count t)) :=
          .inc s _ rfl (mem_wordRegs ht (by simp [eccWordRegs, F.ECC_CNT_PROBEDROP_count, R.ECC_CNT_PROBEDROP]))
        have hraise : DramStores [] s u1 := hinc.keep (.raise ht (hinc.mild hmild) (by decide) t)
        have hlog : DramStores [] s u2 := hraise.keep (State.captures_keep ht (hraise.mild hmild) 4 _ errs)
        refine DramStores.eccStatus ht ?_
        unfold State.when
        split
        · exact hlog.keep (.modEcc _ t (fun _ => rfl) fun _ => rfl)
        · exact hlog

/-- R316: a word whose codeword is replaced leaves the recurrence table. -/
theorem State.leaveRecs_keeps {s : State} {t : Nat} (ht : t < 32) (hmild : Mild s 504 544) (bank row col word : Nat) :
    DramStores [] s (s.leaveRecs t bank row col word) := by
  unfold State.leaveRecs
  split
  · exact DramStores.refl s
  · next r _ =>
    have hgone : DramStores [] s (s.modEcc t fun e => { e with recs := e.recs.filter fun x => decide (x ≠ r) }) :=
      .modEcc s t (fun _ => rfl) fun _ => rfl
    exact hgone.keep (State.queueBurst_keeps ht (hgone.mild hmild) _ _ _ _)

end Sys2Proof.Machine

namespace Sys2Proof.Machine

/-! ### A burst that is in the array alone -/

namespace DramStores

variable {ws : List (Nat × Codeword)} {s t : State} (h : DramStores ws s t)
include h

theorem spareAt (ch bank k : Nat) : t.spareAt ch bank k = s.spareAt ch bank k := by
  unfold State.spareAt
  rw [h.remap]

theorem rowBy (maps : Remap → Bool) (ch bank row : Nat) : t.rowBy maps ch bank row = s.rowBy maps ch bank row := by
  unfold State.rowBy
  simp only [h.spareAt]

theorem physRow (ch bank row : Nat) : t.physRow ch bank row = s.physRow ch bank row := h.rowBy _ ch bank row

theorem physWord (l : Loc) (w : Nat) : t.physWord l w = s.physWord l w := by
  unfold State.physWord State.physLoc State.physRowAt
  simp only [h.physRow]

theorem lostMask (i : Nat) : t.lostMask i = s.lostMask i := by
  unfold State.lostMask
  rw [h.rest]

theorem unarmed (ha : s.fb F.ECC_INJ_CTL_arm = false) : t.fb F.ECC_INJ_CTL_arm = false := by
  have hfv : t.fv F.ECC_INJ_CTL_arm = s.fv F.ECC_INJ_CTL_arm := State.fv_congr (h.live _ (by decide +kernel)) (by rw [h.rest])
  rwa [State.fb, hfv]

/-- A burst in the array alone stays there. -/
theorem inArray {l : Loc} (hin : s.InArray l) : t.InArray l := by
  obtain ⟨hcached, hheld, hmirror, hcopy, hmirrorOf, hrow⟩ := hin
  have hreqs : t.reqs = s.reqs := by rw [h.rest]
  have hbst : t.bst = s.bst := by rw [h.rest]
  have hslot : ∀ code, t.slotOf code = s.slotOf code := fun code => by unfold State.slotOf; rw [hbst]
  have hcopyOf : ∀ row, t.copyOf l.ch l.bank row = s.copyOf l.ch l.bank row := fun row => by
    unfold State.copyOf State.isBorrowed
    rw [hbst, hslot, hslot, show t.epoch = s.epoch by rw [h.rest]]
  refine ⟨?_, ?_, ?_, ?_, ?_, fun e => ?_⟩
  · unfold State.cached
    rw [show t.eng = s.eng by rw [h.rest]]
    exact hcached
  · have hp := h.probe l.ch
    unfold State.heldJob at hheld ⊢
    cases hs : (s.eccOf l.ch).probe <;> cases ht : (t.eccOf l.ch).probe <;> simp_all
  · unfold State.mirrorRow State.outlived at *
    simp only [h.spareAt, hreqs, show t.remapRuns = s.remapRuns by rw [h.rest]]
    exact hmirror
  · rw [h.physRow, hcopyOf]
    exact hcopy
  · unfold State.mirrorOf at *
    rw [h.physRow, hcopyOf, hslot, hbst]
    exact hmirrorOf
  · rw [h.physRow, ← hrow e]
    cases e with
    | none => exact h.physRow _ _ _
    | some e =>
      unfold State.physRowAt
      exact h.rowBy _ _ _ _

end DramStores

/-- The codeword that a clean word `x` puts into the array, and its index. -/
def State.dramCell (s : State) (l : Loc) (w : Nat) (x : DWord) : Nat × Codeword :=
  (s.physWord l w, encodeWord x false ^^^ s.lostMask (s.physWord l w))

theorem DramStores.dramCell {ws : List (Nat × Codeword)} {s t : State} (h : DramStores ws s t) (l : Loc) (w : Nat) (x : DWord) :
    t.dramCell l w x = s.dramCell l w x := by
  unfold State.dramCell
  rw [h.physWord, h.lostMask]

/-- R333: with no injection armed, a codeword is stored as it is. -/
theorem State.inject_unarmed {s : State} (ha : s.fb F.ECC_INJ_CTL_arm = false) (l : Loc) (w : Nat) (c : Codeword) :
    s.inject l w c = (c, s) := by
  simp [State.inject, ha]

/-- A word of a burst that is in the array alone is stored there, and nowhere else. -/
theorem State.putDram_inArray {s : State} {l : Loc} (hin : s.InArray l) (ha : s.fb F.ECC_INJ_CTL_arm = false) (w : Nat) (c : Codeword) :
    s.putDram l w c =
      (s.modEcc l.ch fun e => { e with wb := e.wb.filter (· ≠ (l.bank, l.row, l.col)) }).dramPut (s.physWord l w) c := by
  have hwb : DramStores [] s (s.modEcc l.ch fun e => { e with wb := e.wb.filter (· ≠ (l.bank, l.row, l.col)) }) :=
    .modEcc s l.ch (fun _ => rfl) fun _ => rfl
  obtain ⟨-, -, hmirror, -, hmirrorOf, -⟩ := (hwb.trans (.dramPut _ (s.physWord l w) c)).inArray hin
  simp only [State.putDram, State.inject_unarmed ha, hin.2.1, hwb.physWord, hmirror, hmirrorOf]

/-- R304, R316: a clean word of a burst that is in the array alone is stored. -/
theorem State.writeMem_stores {s : State} {cfg : RegMap} {a : Nat} (hin : s.InArray (dramLoc cfg a))
    (ha : s.fb F.ECC_INJ_CTL_arm = false) (hm : Mild s 504 544) (x : DWord) :
    DramStores [s.dramCell (dramLoc cfg a) (a / 8 % 8) x] s (s.writeMem cfg a x false) := by
  have hwb : DramStores [] s (s.modEcc (dramLoc cfg a).ch fun e =>
      { e with wb := e.wb.filter (· ≠ ((dramLoc cfg a).bank, (dramLoc cfg a).row, (dramLoc cfg a).col)) }) :=
    .modEcc s _ (fun _ => rfl) fun _ => rfl
  have hput := hwb.trans (.dramPut _ (s.physWord (dramLoc cfg a) (a / 8 % 8)) (encodeWord x false))
  rw [hwb.lostMask] at hput
  have hch : (dramLoc cfg a).ch < 32 := (mapOrder_range _ _ _).1
  simp only [State.writeMem, hin.1, State.writeDram, State.putDram_inArray hin ha]
  exact hput.keep (State.leaveRecs_keeps hch (hput.mild hm) _ _ _ _)

/-- The words of a burst at an aligned address. -/
theorem State.writeMems_stores {s : State} {cfg : RegMap} {a : Nat} (hal : a % 64 = 0) (hin : s.InArray (dramLoc cfg a))
    (ha : s.fb F.ECC_INJ_CTL_arm = false) (hm : Mild s 504 544) (x : Nat → DWord) {ks : List Nat} (hks : ∀ w ∈ ks, w < 8) :
    DramStores (ks.map fun w => s.dramCell (dramLoc cfg a) w (x w)) s
      (ks.foldl (fun s w => s.writeMem cfg (a + 8 * w) (x w) false) s) := by
  have := DramStores.foldl (s := s) (f := fun s w => s.writeMem cfg (a + 8 * w) (x w) false)
    (g := fun w => [s.dramCell (dramLoc cfg a) w (x w)]) ks fun ws u w hw hu => by
      obtain ⟨hloc, hword⟩ := dramLoc_word cfg hal (hks w hw)
      have := State.writeMem_stores (s := u) (cfg := cfg) (a := a + 8 * w) (hloc ▸ hu.inArray hin) (hu.unarmed ha) (hu.mild hm) (x w)
      rwa [hloc, hword, hu.dramCell] at this
  rwa [← List.map_eq_flatMap] at this

end Sys2Proof.Machine

namespace Sys2Proof.Machine

/-! ### What a run of stores leaves in the array -/

namespace DramStores

variable {ws : List (Nat × Codeword)} {s t : State} (h : DramStores ws s t)
include h

theorem wordsMove (qs : List Req) : WordsMove s { t with reqs := qs } := by
  refine ⟨?_, h.live⟩
  conv_lhs => rw [h.rest]
  rw [h.rest]

theorem storesDram {p : Nat → Prop} (hp : ∀ x ∈ ws, p x.1) (qs : List Req) : StoresDram p s { t with reqs := qs } := by
  refine ⟨fun i hi => ?_, fun i => ?_⟩
  · show memByte t.dram i = _
    rw [h.dram]
    exact memByte_storeWords_ne (fun x hx hxi => hi (hxi ▸ hp x hx)) _
  · show memByte t.larder i = _
    rw [h.rest]

/-- A codeword that has been stored is read back, when nothing else has been stored at its index. -/
theorem dramGet {i : Nat} {c : Codeword} (hin : ∃ x ∈ ws, x.1 = i) (hall : ∀ x ∈ ws, x.1 = i → x.2 = c ^^^ s.lostMask i) :
    t.dramGet i = c := by
  unfold State.dramGet
  rw [h.dram, h.lostMask, memWord_storeWords hin hall, BitVec.xor_assoc, BitVec.xor_self, BitVec.xor_zero]

end DramStores

/-! ### The words of a request's bursts -/

/-- A request on whole bursts that is not misaligned starts at a burst. -/
theorem aligned_of_burstOp {op flags addr operand : Nat} (hop : op ∈ [opRD, opWR, opWRM, opLRD, opLWR, opLWRM])
    (h : misaligned op flags addr operand = false) : addr % 64 = 0 := by
  have halign : alignOf op flags = 64 := if_pos (by simpa using hop)
  simp only [misaligned, halign, Bool.or_eq_false_iff, bne_eq_false_iff_eq] at h
  exact h.1

theorem State.dramCheck_none {s : State} {r : Req} (h : s.dramCheck r = none) :
    misaligned r.op r.flags r.addr r.operand.toNat = false ∧ dramHole r.op r.len r.flags r.addr = false := by
  unfold State.dramCheck at h
  extract_lets ch at h
  repeat' split at h
  all_goals simp_all

/-- What each burst of a write brings, word by word. -/
def payloadCells {α : Type} (ds : List Payload) (cell : Nat → Nat → DWord → α) : List α :=
  ds.zipIdx.flatMap fun d => (List.range 8).map fun w => cell d.2 w (d.1.word w)

theorem mem_payloadCells {α : Type} {ds : List Payload} {cell : Nat → Nat → DWord → α} {x : α} :
    x ∈ payloadCells ds cell ↔ ∃ b w, b < ds.length ∧ w < 8 ∧ x = cell b w ((ds.getD b 0).word w) := by
  simp only [payloadCells, List.mem_flatMap, List.mem_map, List.mem_range, Prod.exists, List.mem_zipIdx_iff_getElem?]
  constructor
  · rintro ⟨d, b, hd, w, hw, rfl⟩
    obtain ⟨hb, rfl⟩ := List.getElem?_eq_some_iff.mp hd
    exact ⟨b, w, hb, hw, by rw [List.getD_eq_getElem _ _ hb]⟩
  · rintro ⟨b, w, hb, hw, rfl⟩
    exact ⟨ds.getD b 0, b, by rw [List.getD_eq_getElem _ _ hb, List.getElem?_eq_getElem hb], w, hw, rfl⟩

/-! ### WR and WRM -/

/-- The writes of a WR, burst by burst. -/
theorem State.writeMems_burst (s : State) (cfg : RegMap) (a : Nat) (x : Nat → DWord) :
    s.writeMems cfg a ((List.range 8).map fun w => (x w, false)) =
      (List.range 8).foldl (fun s w => s.writeMem cfg (a + 8 * w) (x w) false) s := rfl

/-- R242: no HINS or HDEL is disturbed by a WR that meets no table. -/
theorem State.clashTables_none {s : State} {r : Req} (h : ∀ q ∈ s.reqs, meetsTable r q = false) : s.clashTables r = s := by
  have hmap : (s.reqs.map fun (q : Req) => if meetsTable r q then { q with clash := true } else q) = s.reqs :=
    (List.map_congr_left fun q hq => if_neg (by simp [h q hq])).trans (List.map_id _)
  have hhit : (s.reqs.filter fun q => meetsTable r q) = [] := List.filter_eq_nil_iff.mpr fun q hq => by simp [h q hq]
  unfold State.clashTables
  simp only [hhit, hmap, List.foldl_nil]

/-- R92: a WR that its checks let through stores its bursts. -/
theorem exec_wr_stores {s : State} {p : Port} {tag : BitVec 9} {r : Req} (hrun : Runs s opWR p tag r) (hst : s.dramCheck r = none)
    (hneed : r.need = r.len + 1) (hin : ∀ b, b ≤ r.len → s.InArray (dramLoc r.cfg (r.addr + 64 * b)))
    (harm : s.fb F.ECC_INJ_CTL_arm = false) (htab : ∀ q ∈ s.reqs, meetsTable r q = false) (hmild : Mild s 504 544) :
    ∃ u, DramStores (payloadCells r.data fun b => s.dramCell (dramLoc r.cfg (r.addr + 64 * b))) s u ∧
      exec (.wr p tag) s = .next { u with reqs := answered r { status := 0 } s.reqs } := by
  obtain ⟨hop, -, -, hlen⟩ := hrun.request
  have halign := aligned_of_burstOp (by simp [hop]) (State.dramCheck_none hst).1
  have hstores := DramStores.foldl (s := s)
    (f := fun s d => s.writeMems r.cfg (r.addr + 64 * d.2) ((List.range 8).map fun w => (d.1.word w, false)))
    (g := fun d => (List.range 8).map fun w => s.dramCell (dramLoc r.cfg (r.addr + 64 * d.2)) w (d.1.word w)) r.data.zipIdx
    fun ws u d hd hu => by
      have hb : d.2 ≤ r.len := by
        have := List.snd_lt_of_mem_zipIdx hd
        omega
      have := State.writeMems_stores (a := r.addr + 64 * d.2) (by omega) (hu.inArray (hin _ hb)) (hu.unarmed harm) (hu.mild hmild)
        d.1.word (ks := List.range 8) fun w hw => List.mem_range.mp hw
      rw [State.writeMems_burst]
      simpa only [hu.dramCell] using this
  refine ⟨_, hstores, ?_⟩
  have hreqs := congrArg State.reqs hstores.rest
  show execWr p tag s = _
  simp only [execWr, hrun.1, hst]
  rw [State.clashTables_none (by rw [hreqs]; exact htab), State.answer_eq _ hrun.2 (by decide) (by decide), hreqs]

/-- R71, R92: a WRM that its checks let through stores the words that its mask covers. -/
theorem exec_wrm_stores {s : State} {p : Port} {tag : BitVec 9} {r : Req} (hrun : Runs s opWRM p tag r) (hst : s.dramCheck r = none)
    (hin : s.InArray (dramLoc r.cfg r.addr)) (harm : s.fb F.ECC_INJ_CTL_arm = false) (hmild : Mild s 504 544) :
    ∃ u, DramStores ((maskWords r.operand.toNat).map fun w => s.dramCell (dramLoc r.cfg r.addr) w ((r.data.headD 0).word w)) s u ∧
      exec (.wrm p tag) s = .next { u with reqs := answered r { status := 0 } s.reqs } := by
  obtain ⟨hop, -, -, -⟩ := hrun.request
  have halign := aligned_of_burstOp (by simp [hop]) (State.dramCheck_none hst).1
  have hstores := State.writeMems_stores halign hin harm hmild (r.data.headD 0).word (ks := maskWords r.operand.toNat)
    fun w hw => List.mem_range.mp (List.mem_of_mem_filter hw)
  refine ⟨_, hstores, ?_⟩
  have hreqs := congrArg State.reqs hstores.rest
  show execWrm p tag s = _
  simp only [execWrm, hrun.1, hst]
  rw [State.answer_eq _ hrun.2 (by decide) (by decide), hreqs]

end Sys2Proof.Machine

namespace Sys2Proof.Machine

/-! ### Places of the Larder (R289, R292, R299, R407) -/

/-- The bank of a line is one of its quadrant, the spare bank among them, and the line one of the bank. -/
def LLine.InRange (l : LLine) : Prop := l.bank < 129 ∧ l.line < 2048

/-- The line of a scratchpad offset lies in one of the four quadrants. -/
theorem scratchLine_range (cfg : RegMap) (o : Nat) : (scratchLine cfg o).q < 4 ∧ (scratchLine cfg o).InRange := by
  have hgranule : ∀ i, ((scratchGranules cfg).getD i (0, 0)).1 < 4 ∧ ((scratchGranules cfg).getD i (0, 0)).2 < 16 := by
    intro i
    rw [List.getD_eq_getElem?_getD]
    cases hi : (scratchGranules cfg)[i]? with
    | none => exact ⟨by decide, by decide⟩
    | some e =>
      have hmem := List.mem_of_getElem? hi
      simp only [scratchGranules, List.mem_flatMap, List.mem_map, List.mem_filter, List.mem_range] at hmem
      obtain ⟨q, hq, g, ⟨hg, -⟩, rfl⟩ := hmem
      exact ⟨hq, hg⟩
  obtain ⟨hq, hg⟩ := hgranule (o / 2 ^ 20)
  unfold scratchLine LLine.InRange
  dsimp only
  exact ⟨hq, by omega, by omega⟩

/-- Word `w` of a line at an aligned offset: the line, and the word's number there. -/
theorem scratchLine_word (cfg : RegMap) {a w : Nat} (ha : a % 64 = 0) (hw : w < 8) :
    scratchLine cfg (a + 8 * w) = scratchLine cfg a ∧ (a + 8 * w) / 8 % 8 = w := by
  have hgranule : (a + 8 * w) / 2 ^ 20 = a / 2 ^ 20 := by omega
  have hline : (a + 8 * w) % 2 ^ 20 / 64 = a % 2 ^ 20 / 64 := by omega
  unfold scratchLine
  rw [hgranule, hline]
  exact ⟨rfl, by omega⟩

theorem slotLine_range (n l : Nat) (hl : l < 32) : (slotLine n l).InRange := by
  unfold slotLine LLine.InRange
  dsimp only
  omega

theorem State.spareLine_range (s : State) {l : LLine} (h : l.InRange) : (s.spareLine l).InRange := by
  unfold State.spareLine
  split
  · exact ⟨Nat.lt_succ_self 128, h.2⟩
  · exact h

theorem State.serving_range (s : State) {l : LLine} (h : l.InRange) : (s.serving l).InRange := by
  unfold State.serving
  extract_lets x
  split
  · exact s.spareLine_range (slotLine_range _ _ (Nat.mod_lt _ (by decide)))
  · exact s.spareLine_range h

/-- Two words of the Larder have one index only when they are the same word of one line. -/
theorem State.larderPlace_inj {s : State} {l l' : LLine} {w v : Nat} (h : l.InRange) (h' : l'.InRange) (hw : w < 8) (hv : v < 8)
    (heq : s.larderPlace l w = s.larderPlace l' v) : s.serving l = s.serving l' ∧ w = v := by
  obtain ⟨hbank, hline⟩ := s.serving_range h
  obtain ⟨hbank', hline'⟩ := s.serving_range h'
  unfold State.larderPlace larderIndex at heq
  generalize s.serving l = x at *
  generalize s.serving l' = y at *
  obtain ⟨q, bank, line⟩ := x
  obtain ⟨q', bank', line'⟩ := y
  simp only [LLine.mk.injEq] at *
  omega

/-! ### Stores to the Larder (R293, R304) -/

/-- The counters of the host's writes. -/
def hostWriteRegs : List Nat := (List.range 4).map R.LAR_CNT_HWR

/-- `t` is `s` but for the codewords `ws`, put at their indices of the Larder, and the counters of the host's writes. -/
structure LarderStores (ws : List (Nat × Codeword)) (s t : State) : Prop where
  rest : t = { s with live := t.live, larder := t.larder }
  live : LiveBut hostWriteRegs s t
  larder : t.larder = storeWords s.larder ws

/-- The codeword that a clean word `x` puts into the Larder, and its index. -/
def State.larderCell (s : State) (l : LLine) (w : Nat) (x : DWord) : Nat × Codeword :=
  (s.larderPlace l w, encodeWord x false ^^^ s.powerMask (s.serving l).q (s.serving l).bank (s.larderPlace l w))

theorem storeWords_one (m : List Host.Cell) (x : Nat × Codeword) : storeWords m [x] = memPut m x.1 x.2 := rfl

theorem State.writeScratch_eq (s : State) (cfg : RegMap) (o : Nat) (x : DWord) :
    s.writeScratch cfg o x false = { s with larder := storeWords s.larder [s.larderCell (scratchLine cfg o) (o / 8 % 8) x] } := by
  rw [storeWords_one]
  unfold State.writeScratch State.writeLarder State.putLarder State.larderPut State.larderCell State.larderPlace
  with_reducible rfl

namespace LarderStores

variable {ws vs : List (Nat × Codeword)} {s t u : State}

theorem refl (s : State) : LarderStores [] s s := ⟨rfl, LiveBut.refl _ s, rfl⟩

theorem trans (h : LarderStores ws s t) (h' : LarderStores vs t u) : LarderStores (ws ++ vs) s u where
  rest := by rw [h'.rest, h.rest]
  live := h.live.trans h'.live (List.Subset.refl _) (List.Subset.refl _)
  larder := by rw [h'.larder, h.larder, storeWords_append]

/-- A write of the host is counted. -/
theorem counted (s : State) {q : Nat} (hq : q < 4) : LarderStores [] s (s.inc (F.LAR_CNT_HWR_count q)) := by
  rw [State.inc_live _ _ rfl]
  exact ⟨rfl, fun a ha => RegMap.val_setF_ne _ _ _ fun e => ha (e ▸ List.mem_map_of_mem (f := R.LAR_CNT_HWR) (List.mem_range.mpr hq)), rfl⟩

theorem of_larder (s : State) (ws : List (Nat × Codeword)) : LarderStores ws s { s with larder := storeWords s.larder ws } :=
  ⟨rfl, LiveBut.refl _ s, rfl⟩

theorem writeScratch (s : State) (cfg : RegMap) (o : Nat) (x : DWord) :
    LarderStores [s.larderCell (scratchLine cfg o) (o / 8 % 8) x] s (s.writeScratch cfg o x false) := by
  rw [State.writeScratch_eq]
  exact of_larder s _

section
variable (h : LarderStores ws s t)
include h

theorem reqs : t.reqs = s.reqs := by rw [h.rest]

theorem serving (l : LLine) : t.serving l = s.serving l := by
  have hactive : t.active = s.active := by rw [h.rest]
  have hfv : ∀ q f, f ∈ [F.LAR_SPARE_STAT_active q, F.LAR_SPARE_STAT_bank q] → t.fv f = s.fv f := fun q f hf =>
    State.fv_congr (h.live _ (by
      simp only [hostWriteRegs, List.mem_map, R.LAR_CNT_HWR, not_exists, not_and]
      intro k _
      simp only [List.mem_cons, List.not_mem_nil, or_false] at hf
      rcases hf with rfl | rfl <;> simp only [F.LAR_SPARE_STAT_active, F.LAR_SPARE_STAT_bank] <;> omega)) hactive
  have hspare : ∀ l, t.spareLine l = s.spareLine l := fun l => by
    unfold State.spareLine State.fb
    rw [hfv l.q (F.LAR_SPARE_STAT_active l.q) (by simp), hfv l.q (F.LAR_SPARE_STAT_bank l.q) (by simp)]
  have hparked : ∀ q b, t.parkedAt q b = s.parkedAt q b := fun q b => by
    unfold State.parkedAt State.slotOf
    rw [show t.bst = s.bst by rw [h.rest]]
  unfold State.serving
  simp only [hspare, hparked]

theorem larderPlace (l : LLine) (w : Nat) : t.larderPlace l w = s.larderPlace l w := by
  unfold State.larderPlace
  rw [h.serving]

theorem powerMask (q b i : Nat) : t.powerMask q b i = s.powerMask q b i := by
  unfold State.powerMask
  rw [h.rest]

theorem larderCell (l : LLine) (w : Nat) (x : DWord) : t.larderCell l w x = s.larderCell l w x := by
  unfold State.larderCell
  rw [h.serving, h.larderPlace, h.powerMask]

theorem storesLarder {p : Nat → Prop} (hp : ∀ x ∈ ws, p x.1) : StoresLarder p s t := by
  refine ⟨fun i hi => ?_, fun i => ?_⟩
  · rw [h.larder]
    exact memByte_storeWords_ne (fun x hx hxi => hi (hxi ▸ hp x hx)) _
  · rw [h.rest]

/-- A word that has been stored is read back, when no other has been stored at its place. -/
theorem larderWord {l : LLine} {w : Nat} {x : DWord} (hin : s.larderCell l w x ∈ ws)
    (hall : ∀ y ∈ ws, y.1 = s.larderPlace l w → y = s.larderCell l w x) : t.larderWord l w = encodeWord x false := by
  have hword : memWord t.larder (s.larderPlace l w) = (s.larderCell l w x).2 := by
    rw [h.larder]
    exact memWord_storeWords ⟨_, hin, rfl⟩ (fun y hy hi => congrArg Prod.snd (hall y hy hi)) _
  have hplace := h.larderPlace l w
  unfold State.larderWord State.larderGet
  unfold State.larderPlace at hplace hword
  rw [h.serving] at hplace ⊢
  dsimp only
  rw [hword, h.powerMask]
  unfold State.larderCell State.larderPlace
  rw [BitVec.xor_assoc, BitVec.xor_self, BitVec.xor_zero]

end

/-- The words of a line at an aligned offset. -/
theorem line (s : State) (cfg : RegMap) {a : Nat} (ha : a % 64 = 0) (x : Nat → DWord) {ks : List Nat} (hks : ∀ w ∈ ks, w < 8) :
    LarderStores (ks.map fun w => s.larderCell (scratchLine cfg a) w (x w)) s
      (ks.foldl (fun s w => s.writeScratch cfg (a + 8 * w) (x w) false) s) := by
  have := foldl_stores refl trans (s := s) (f := fun s w => s.writeScratch cfg (a + 8 * w) (x w) false)
    (g := fun w => [s.larderCell (scratchLine cfg a) w (x w)]) ks fun ws u w hw hu => by
      obtain ⟨hline, hword⟩ := scratchLine_word cfg ha (hks w hw)
      have := writeScratch u cfg (a + 8 * w) (x w)
      rwa [hline, hword, hu.larderCell] at this
  rwa [← List.map_eq_flatMap] at this

end LarderStores

/-! ### LWR and LWRM -/

/-- The state in which a request of the host path performs its lines. -/
def State.hostTaken (s : State) (r : Req) : State := { s with lar := { s.lar with host := s.lar.host ++ hostUse r } }

theorem State.hostPath_taken {s : State} {r : Req} {more : List LAcc} (h : HostFree s r more) (go : State → State) :
    s.hostPath r more go = go (s.hostTaken r) := s.hostPath_free r more go h

theorem scratchCheck_none {r : Req} (h : scratchCheck r = none) : misaligned r.op r.flags r.addr r.operand.toNat = false := by
  unfold scratchCheck at h
  split at h
  · cases h
  · next hm => simpa using hm

theorem LarderStores.rest_answered {ws : List (Nat × Codeword)} {s u : State} {r : Req} (h : LarderStores ws (s.hostTaken r) u)
    (qs : List Req) : { u with reqs := qs } = { s with reqs := qs, live := u.live, larder := u.larder, lar := (s.hostTaken r).lar } := by
  conv_lhs => rw [h.rest]
  rfl

theorem LarderStores.stores_answered {ws : List (Nat × Codeword)} {s u : State} {r : Req} (h : LarderStores ws (s.hostTaken r) u)
    {p : Nat → Prop} (hp : ∀ x ∈ ws, p x.1) (qs : List Req) : StoresLarder p s { u with reqs := qs } := by
  obtain ⟨hlarder, hdram⟩ := h.storesLarder hp
  exact ⟨hlarder, hdram⟩

section
variable {s : State} {p : Port} {tag : BitVec 9} {met : Option (Fin 64)} {wrote : Bool} {r : Req} (hst : scratchCheck r = none)
  (hfree : HostFree s r (metUse r met wrote))
include hst hfree

/-- R293: a LWR whose lines are free stores them. -/
theorem exec_lwr_stores (hrun : Runs s opLWR p tag r) :
    ∃ u, LarderStores (payloadCells r.data fun b => (s.hostTaken r).larderCell (scratchLine r.cfg (r.addr + 64 * b))) (s.hostTaken r) u ∧
      exec (.lwr p tag met wrote) s = .next { u with reqs := answered r { status := 0 } s.reqs } := by
  obtain ⟨hop, -, -, -⟩ := hrun.request
  have halign := aligned_of_burstOp (by simp [hop]) (scratchCheck_none hst)
  have hstores := foldl_stores LarderStores.refl LarderStores.trans (s := s.hostTaken r)
    (f := fun s d => (List.range 8).foldl (fun s w => s.writeScratch r.cfg (r.addr + 64 * d.2 + 8 * w) (d.1.word w) false)
      (s.inc (F.LAR_CNT_HWR_count (scratchLine r.cfg (r.addr + 64 * d.2)).q)))
    (g := fun d => (List.range 8).map fun w => (s.hostTaken r).larderCell (scratchLine r.cfg (r.addr + 64 * d.2)) w (d.1.word w)) r.data.zipIdx
    fun ws u d _ hu => by
      have hcount := LarderStores.counted u (scratchLine_range r.cfg (r.addr + 64 * d.2)).1
      have := hcount.trans (.line _ r.cfg (a := r.addr + 64 * d.2) (by omega) d.1.word (ks := List.range 8) fun w hw => List.mem_range.mp hw)
      simpa only [List.nil_append, hcount.larderCell, hu.larderCell] using this
  refine ⟨_, hstores, ?_⟩
  have hreqs : State.reqs _ = s.reqs := hstores.reqs
  show execLwr p tag met wrote s = _
  simp only [execLwr, hrun.1, hst, State.hostPath_taken hfree]
  rw [State.answer_eq _ hrun.2 (by decide) (by decide), hreqs]

/-- R71, R293: a LWRM whose line is free stores the words that its mask covers. -/
theorem exec_lwrm_stores (hrun : Runs s opLWRM p tag r) :
    ∃ u, LarderStores ((maskWords r.operand.toNat).map fun w => (s.hostTaken r).larderCell (scratchLine r.cfg r.addr) w ((r.data.headD 0).word w))
        (s.hostTaken r) u ∧
      exec (.lwrm p tag met wrote) s = .next { u with reqs := answered r { status := 0 } s.reqs } := by
  obtain ⟨hop, -, -, -⟩ := hrun.request
  have halign := aligned_of_burstOp (by simp [hop]) (scratchCheck_none hst)
  have hcount : LarderStores [] (s.hostTaken r) ((s.hostTaken r).when (!(maskWords r.operand.toNat).isEmpty) fun s =>
      s.inc (F.LAR_CNT_HWR_count (scratchLine r.cfg r.addr).q)) := by
    unfold State.when
    split
    · exact .counted _ (scratchLine_range r.cfg r.addr).1
    · exact .refl _
  have hstores := hcount.trans (.line _ r.cfg halign (r.data.headD 0).word (ks := maskWords r.operand.toNat)
    fun w hw => List.mem_range.mp (List.mem_of_mem_filter hw))
  simp only [hcount.larderCell] at hstores
  refine ⟨_, hstores, ?_⟩
  have hreqs : State.reqs _ = s.reqs := hstores.reqs
  show execLwrm p tag met wrote s = _
  simp only [execLwrm, hrun.1, hst, State.hostPath_taken hfree]
  rw [State.answer_eq _ hrun.2 (by decide) (by decide), hreqs]

end

end Sys2Proof.Machine

namespace Sys2Proof.Machine

/-! ### Writes store their words -/

/-- The range of a WR that its checks let through lies below 96 GiB (R93). -/
theorem wr_below_top {s : State} {r : Req} (hop : r.op = opWR) (hst : s.dramCheck r = none) {b : Nat} (hb : b ≤ r.len) :
    r.addr + 64 * b < dramTop := by
  have hhole := (State.dramCheck_none hst).2
  have hbytes : targetBytes r.op r.len = 64 * (r.len + 1) := by rw [hop]; rfl
  have hdram : toDram r.op r.flags = true := by rw [hop]; rfl
  rw [dramHole, hdram, hbytes, Bool.true_and, decide_eq_false_iff_not] at hhole
  omega

/-- Settles O13: a WR or WRM is a run of stores at indices that are those of its words alone, an LWR or LWRM one in the Larder. -/
theorem writesStoreTheWords : Obligations.WritesStoreTheWords := by
  refine ⟨fun p tag s r hrun hst hneed hin harm htab hmild => ?_, fun p tag s r hrun hst hin harm hmild => ?_,
    fun p tag met wrote s r hrun hst hfree hapart hneed => ?_, fun p tag met wrote s r hrun hst hfree => ?_⟩
  · obtain ⟨hop, -, -, hlen⟩ := hrun.request
    have halign := aligned_of_burstOp (by simp [hop]) (State.dramCheck_none hst).1
    obtain ⟨u, hu, hexec⟩ := exec_wr_stores hrun hst hneed hin harm htab hmild
    refine ⟨_, hexec, rfl, fun b w hb hw => hu.dramGet ⟨_, mem_payloadCells.mpr ⟨b, w, by omega, hw, rfl⟩, rfl⟩ fun x hx hi => ?_,
      hu.storesDram (fun x hx => ?_) _, hu.wordsMove _⟩
    · obtain ⟨b', w', hb', hw', rfl⟩ := mem_payloadCells.mp hx
      obtain ⟨hblock, rfl⟩ := State.physWord_inj (wr_below_top hop hst (by omega)) (wr_below_top hop hst hb) hw' hw hi
      obtain rfl : b' = b := by omega
      rfl
    · obtain ⟨b, w, hb, hw, rfl⟩ := mem_payloadCells.mp hx
      exact ⟨b, w, by omega, hw, rfl⟩
  · obtain ⟨u, hu, hexec⟩ := exec_wrm_stores hrun hst hin harm hmild
    refine ⟨_, hexec, rfl, fun w hw => hu.dramGet ⟨_, List.mem_map_of_mem hw, rfl⟩ fun x hx hi => ?_, hu.storesDram (fun x hx => ?_) _,
      hu.wordsMove _⟩
    · obtain ⟨w', -, rfl⟩ := List.mem_map.mp hx
      obtain rfl := State.physWord_word_inj hi
      rfl
    · obtain ⟨w, hw, rfl⟩ := List.mem_map.mp hx
      exact ⟨w, hw, rfl⟩
  · obtain ⟨-, -, -, hlen⟩ := hrun.request
    obtain ⟨u, hu, hexec⟩ := exec_lwr_stores hst hfree hrun
    refine ⟨_, hexec, rfl, fun b w hb hw => hu.larderWord (mem_payloadCells.mpr ⟨b, w, by omega, hw, rfl⟩) fun x hx hi => ?_,
      hu.stores_answered (fun x hx => ?_) _, ?_, hu.live⟩
    · obtain ⟨b', w', hb', hw', rfl⟩ := mem_payloadCells.mp hx
      obtain ⟨hserving, rfl⟩ := State.larderPlace_inj (scratchLine_range _ _).2 (scratchLine_range _ _).2 hw' hw hi
      obtain rfl := hapart b' b (by omega) hb hserving
      rfl
    · obtain ⟨b, w, hb, hw, rfl⟩ := mem_payloadCells.mp hx
      exact ⟨b, w, by omega, hw, rfl⟩
    · exact hu.rest_answered _
  · obtain ⟨u, hu, hexec⟩ := exec_lwrm_stores hst hfree hrun
    refine ⟨_, hexec, rfl, fun w hw => hu.larderWord (List.mem_map_of_mem hw) fun x hx hi => ?_,
      hu.stores_answered (fun x hx => ?_) _, ?_, hu.live⟩
    · obtain ⟨w', hw', rfl⟩ := List.mem_map.mp hx
      have hlt : ∀ v ∈ maskWords r.operand.toNat, v < 8 := fun v hv => List.mem_range.mp (List.mem_of_mem_filter hv)
      obtain ⟨-, rfl⟩ := State.larderPlace_inj (scratchLine_range _ _).2 (scratchLine_range _ _).2 (hlt _ hw') (hlt _ hw) hi
      rfl
    · obtain ⟨w, hw, rfl⟩ := List.mem_map.mp hx
      exact ⟨w, hw, rfl⟩
    · exact hu.rest_answered _

end Sys2Proof.Machine

namespace Sys2Proof.Machine

/-! ## The state stays canonical under every operation

Canonical are the two memories and the three register maps (log 1, log 2). Nearly every operation writes a register, so none leaves the
maps as they are; but each leaves them canonical, for it puts them together from writes, and a write keeps a canonical table canonical.
That is said once for each operation, in the order of the model's files; a proof cites the rules of the operations that it is made of. -/

/-- `p` holds if `s` is canonical. -/
def State.Ensures (s : State) (p : Prop) : Prop := s.Canonical → p

/-- The same, where no rule goes on. A rule that goes back from `q` to a condition `p` for it is an implication; with this as the other
way to `q` it is an equivalence, with which `simp` goes back through any number of operations. -/
def State.Settles (s : State) (q : Prop) : Prop := s.Canonical → q

theorem State.ensures_iff {s : State} {p q : Prop} (h : p → q) : s.Ensures q ↔ s.Ensures p ∨ s.Settles q :=
  ⟨.inr, Or.rec (fun hp hs => h (hp hs)) id⟩

/-- An operation that leads from `u` to `t` keeps the state canonical: `t` is canonical where `u` is. -/
abbrev State.Keeps (u t : State) : Prop := ∀ s : State, s.Ensures t.Canonical ↔ s.Ensures u.Canonical ∨ s.Settles t.Canonical

theorem State.Keeps.of {u t : State} (h : u.Ensures t.Canonical) : u.Keeps t := fun _ => State.ensures_iff h

theorem State.Keeps.after {s u t : State} (h : u.Keeps t) (hu : s.Ensures u.Canonical) : s.Ensures t.Canonical := (h s).2 (.inl hu)

/-! ### Ways of putting operations together -/

@[simp] theorem State.ensures_self (s : State) : s.Ensures s.Canonical := id

/-- An update is canonical if its memories and maps are. -/
@[simp] theorem State.canonical_mk (s : State) (dram larder : List Host.Cell) (staged active live : RegMap)
    (pending : List Instr) (epoch frame flit free : Nat) (links : Tab LinkSt)
    (evq : List Payload) (evLost : Option EvLost) (reqs : List Req) (sentTags : List (Nat × Nat × Nat)) (gate : GateSt)
    (tiles : Tab TileSt) (lbs : Tab LbSt) (session : Option Session) (votes : List Vote) (cfgBad : List Nat) (planId : Nat)
    (flt : FltSt) (detFrom : Option Nat) (halted : Bool) (cst : CstSt) (pwr : PwrSt) (ecc : Tab EccSt) (log : LogSt)
    (eng : EngSt) (larGen dramGen : Tab Nat) (lar : LarSt) (cel : CelSt) (sec : SecSt) (snapAt : Option Nat)
    (sbOut : List Byte) (plan : Tab (List Byte)) (planChunks : Nat) (vrt : Tab VrtSt) (clk : ClkSt) (thm : ThmSt)
    (bst : BstSt) (remapRuns : List RemapRun) (tap : TapSt) :
    s.Ensures (⟨pending, epoch, frame, flit, free, dram, larder, staged, active, live, links, evq, evLost, reqs, sentTags, gate,
      tiles, lbs, session, votes, cfgBad, planId, flt, detFrom, halted, cst, pwr, ecc, log, eng, larGen, dramGen, lar, cel,
      sec, snapAt, sbOut, plan, planChunks, vrt, clk, thm, bst, remapRuns, tap⟩ : State).Canonical ↔
    s.Ensures (Memory.wf dram) ∧ s.Ensures (Memory.wf larder) ∧ s.Ensures (Tab.wf regReset staged) ∧ s.Ensures (Tab.wf regReset active) ∧
      s.Ensures (Tab.wf regReset live) := by
  simp only [State.Ensures, State.Canonical, ← imp_and]

@[simp] theorem State.canonical_dram (u s : State) : s.Ensures (Memory.wf u.dram) ↔ s.Ensures u.Canonical ∨ s.Settles (Memory.wf u.dram) :=
  State.ensures_iff fun h => h.1
@[simp] theorem State.canonical_larder (u s : State) :
    s.Ensures (Memory.wf u.larder) ↔ s.Ensures u.Canonical ∨ s.Settles (Memory.wf u.larder) :=
  State.ensures_iff fun h => h.2.1
@[simp] theorem State.canonical_staged (u s : State) :
    s.Ensures (Tab.wf regReset u.staged) ↔ s.Ensures u.Canonical ∨ s.Settles (Tab.wf regReset u.staged) :=
  State.ensures_iff fun h => h.2.2.1
@[simp] theorem State.canonical_active (u s : State) :
    s.Ensures (Tab.wf regReset u.active) ↔ s.Ensures u.Canonical ∨ s.Settles (Tab.wf regReset u.active) :=
  State.ensures_iff fun h => h.2.2.2.1
@[simp] theorem State.canonical_live (u s : State) :
    s.Ensures (Tab.wf regReset u.live) ↔ s.Ensures u.Canonical ∨ s.Settles (Tab.wf regReset u.live) :=
  State.ensures_iff fun h => h.2.2.2.2

@[simp] theorem State.canonical_put (s : State) (m : RegMap) (a : Nat) (w : Word) :
    s.Ensures (Tab.wf regReset (m.put a w)) ↔ s.Ensures (Tab.wf regReset m) ∨ s.Settles (Tab.wf regReset (m.put a w)) :=
  State.ensures_iff (RegMap.wf_put m a w)

@[simp] theorem RegMap.canonical_setF (s : State) (m : RegMap) (f : Fld) (v : Nat) :
    s.Ensures (Tab.wf regReset (m.setF f v)) ↔ s.Ensures (Tab.wf regReset m) ∨ s.Settles (Tab.wf regReset (m.setF f v)) :=
  State.ensures_iff (RegMap.wf_setF m f v)

@[simp] theorem RegMap.canonical_ite (s : State) (c : Prop) [Decidable c] (m n : RegMap) :
    s.Ensures (Tab.wf regReset (if c then m else n)) ↔
      if c then s.Ensures (Tab.wf regReset m) else s.Ensures (Tab.wf regReset n) := by
  split <;> rfl

@[simp] theorem RegMap.canonical_nil (s : State) : s.Ensures (Tab.wf regReset []) := fun _ => rfl

@[simp] theorem Memory.canonical_memPut (s : State) (m : List Host.Cell) (w : Nat) (c : Codeword) :
    s.Ensures (Memory.wf (memPut m w c)) ↔ s.Ensures (Memory.wf m) ∨ s.Settles (Memory.wf (memPut m w c)) :=
  State.ensures_iff (Memory.wf_memPut m w c)

@[simp] theorem Memory.canonical_filter (s : State) (m : List Host.Cell) (p : Host.Cell → Bool) :
    s.Ensures (Memory.wf (m.filter p)) ↔ s.Ensures (Memory.wf m) ∨ s.Settles (Memory.wf (m.filter p)) :=
  State.ensures_iff (Memory.wf_filter p m)

@[simp] theorem Memory.canonical_nil (s : State) : s.Ensures (Memory.wf []) := fun _ => rfl

@[simp] theorem State.canonical_ite (c : Prop) [Decidable c] (r s t : State) :
    r.Ensures (if c then s else t).Canonical ↔ if c then r.Ensures s.Canonical else r.Ensures t.Canonical := by
  split <;> rfl

@[simp] theorem State.canonical_foldl {α : Type} (l : List α) (f : State → α → State) (s : State)
    (h : ∀ (u : State) a, u.Ensures (f u a).Canonical) : s.Keeps (l.foldl f s) := by
  refine .of ?_
  induction l generalizing s with
  | nil => exact id
  | cons a l ih => exact fun hs => ih _ (h _ _ hs)

/-- A fold that carries the state second, as the reads of several words do. -/
@[simp] theorem State.canonical_foldl_snd {α β : Type} (l : List α) (f : β × State → α → β × State) (p : β × State)
    (h : ∀ b (u : State) a, u.Ensures (f (b, u) a).2.Canonical) : p.2.Keeps (l.foldl f p).2 := by
  refine .of ?_
  induction l generalizing p with
  | nil => exact id
  | cons a l ih => exact fun hs => ih _ (h _ _ _ hs)

/-- A fold that carries the state first. -/
@[simp] theorem State.canonical_foldl_fst {α β : Type} (l : List α) (f : State × β → α → State × β) (p : State × β)
    (h : ∀ (u : State) b a, u.Ensures (f (u, b) a).1.Canonical) : p.1.Keeps (l.foldl f p).1 := by
  refine .of ?_
  induction l generalizing p with
  | nil => exact id
  | cons a l ih => exact fun hs => ih _ (h _ _ _ hs)

@[simp] theorem State.canonical_when (s : State) (c : Bool) (f : State → State) (h : ∀ u : State, u.Ensures (f u).Canonical) :
    s.Keeps (s.when c f) := by
  refine .of ?_
  cases c
  · exact id
  · exact h s

/-- A fold over a register map. -/
@[simp] theorem RegMap.canonical_foldl {α : Type} (s : State) (l : List α) (f : RegMap → α → RegMap) (m : RegMap)
    (h : ∀ m a, Tab.wf regReset m = true → Tab.wf regReset (f m a) = true) :
    s.Ensures (Tab.wf regReset (l.foldl f m)) ↔ s.Ensures (Tab.wf regReset m) ∨ s.Settles (Tab.wf regReset (l.foldl f m)) := by
  refine State.ensures_iff fun hm => ?_
  induction l generalizing m with
  | nil => exact hm
  | cons a l ih => exact ih _ (h _ _ hm)

@[simp] theorem State.canonical_reset (s : State) : s.Ensures State.reset.Canonical := fun _ => ⟨rfl, rfl, rfl, rfl, rfl⟩

/-- If the command goes on, then with a canonical state if `s` is canonical. -/
def State.KeepsCanonical (s : State) (o : Host.Outcome State Fault Refusal) : Prop := ∀ t, o = .next t → s.Ensures t.Canonical

/-- An operation that may have nothing to do, with what is done instead. -/
theorem State.canonical_getD {o : Option State} {s d : State} (h : ∀ u, o = some u → s.Keeps u) (hd : s.Ensures d.Canonical) :
    s.Keeps (o.getD d) := by
  cases o with
  | none => exact .of hd
  | some u => exact h u rfl

/-- The state that a read hands back, once its result has been told apart. -/
theorem State.canonical_snd {α : Type} {p : α × State} {a : α} {s t : State} (e : p = (a, t)) (h : s.Keeps p.2) :
    s.Keeps t := by
  rwa [e] at h

@[simp] theorem State.keepsCanonical_next (s t : State) : s.KeepsCanonical (.next t) ↔ s.Ensures t.Canonical := by
  simp [State.KeepsCanonical]

@[simp] theorem State.keepsCanonical_fault (s : State) (f : Fault) : s.KeepsCanonical (.fault f) := by simp [State.KeepsCanonical]

@[simp] theorem State.keepsCanonical_ite (s : State) (c : Prop) [Decidable c] (o p : Host.Outcome State Fault Refusal) :
    s.KeepsCanonical (if c then o else p) ↔ if c then s.KeepsCanonical o else s.KeepsCanonical p := by
  split <;> rfl

/-! ### Operations of Machine/Ops.lean -/

@[simp] theorem State.setF_canonical (s : State) (f : Fld) (v : Nat) : s.Keeps (s.setF f v) := .of (by simp [State.setF])
@[simp] theorem State.setStagedF_canonical (s : State) (f : Fld) (v : Nat) :
    s.Keeps (s.setStagedF f v) := .of (by simp [State.setStagedF])
@[simp] theorem State.addF_canonical (s : State) (f : Fld) (n : Nat) : s.Keeps (s.addF f n) := .of (by simp [State.addF])
@[simp] theorem State.inc_canonical (s : State) (f : Fld) : s.Keeps (s.inc f) := .of (by simp [State.inc])
@[simp] theorem State.clearCounters_canonical (s : State) (base n data : Nat) :
    s.Keeps (s.clearCounters base n data) := .of (by simp [State.clearCounters])
@[simp] theorem State.setLink_canonical (s : State) (n : Nat) (v : LinkSt) : s.Keeps (s.setLink n v) := .of (by simp [State.setLink])
@[simp] theorem State.modLink_canonical (s : State) (n : Nat) (f : LinkSt → LinkSt) :
    s.Keeps (s.modLink n f) := .of (by simp [State.modLink])
@[simp] theorem State.setTile_canonical (s : State) (n : Nat) (v : TileSt) : s.Keeps (s.setTile n v) := .of (by simp [State.setTile])
@[simp] theorem State.modTile_canonical (s : State) (n : Nat) (f : TileSt → TileSt) :
    s.Keeps (s.modTile n f) := .of (by simp [State.modTile])
@[simp] theorem State.setLb_canonical (s : State) (n : Nat) (v : LbSt) : s.Keeps (s.setLb n v) := .of (by simp [State.setLb])
@[simp] theorem State.modLb_canonical (s : State) (n : Nat) (f : LbSt → LbSt) : s.Keeps (s.modLb n f) := .of (by simp [State.modLb])
@[simp] theorem State.modRiser_canonical (s : State) (n : Nat) (f : VrtSt → VrtSt) :
    s.Keeps (s.modRiser n f) := .of (by simp [State.modRiser])
@[simp] theorem State.takeFree_canonical (s : State) : s.Keeps s.takeFree.2 := .of (by simp [State.takeFree])
@[simp] theorem State.setLinkState_canonical (s : State) (n v : Nat) : s.Keeps (s.setLinkState n v) := .of (by simp [State.setLinkState])
@[simp] theorem State.freeTag_canonical (s : State) (k : Nat × Nat) : s.Keeps (s.freeTag k) := .of (by simp [State.freeTag])
@[simp] theorem State.pump_canonical (s : State) (n : Nat) : s.Keeps (s.pump n) := .of (by simp [State.pump])
@[simp] theorem State.queueFlit_canonical (s : State) (n : Nat) (f : OutFlit) :
    s.Keeps (s.queueFlit n f) := .of (by simp [State.queueFlit])
@[simp] theorem State.sendFlit_canonical (s : State) (n typ : Nat) (p : Payload) :
    s.Keeps (s.sendFlit n typ p) := .of (by simp [State.sendFlit])
@[simp] theorem State.sendMgmt_canonical (s : State) (n : Nat) (p : Payload) : s.Keeps (s.sendMgmt n p) := .of (by simp [State.sendMgmt])
@[simp] theorem State.undoBursts_canonical (s : State) (r : Req) (c : Charge) : s.Keeps (s.undoBursts r c) := by
  refine .of ?_
  unfold State.undoBursts
  split <;> simp
@[simp] theorem State.dropTentative_canonical (s : State) (n : Nat) : s.Keeps (s.dropTentative n) := .of (by simp [State.dropTentative])
@[simp] theorem State.leaveLink_canonical (s : State) (n dst : Nat) : s.Keeps (s.leaveLink n dst) := .of (by simp [State.leaveLink])
@[simp] theorem State.linkDown_canonical (s : State) (n : Nat) : s.Keeps (s.linkDown n) := .of (by simp [State.linkDown])
@[simp] theorem State.startRetrain_canonical (s : State) (n : Nat) : s.Keeps (s.startRetrain n) := .of (by simp [State.startRetrain])
@[simp] theorem State.sendEvent_canonical (s : State) (code severity : Nat) (detail : List (Nat × Nat × Nat)) :
    s.Keeps (s.sendEvent code severity detail) := by
  refine .of ?_
  simp only [State.sendEvent]
  repeat' split
  all_goals simp
@[simp] theorem State.event_canonical (s : State) (code : Nat) (detail : List (Nat × Nat × Nat)) :
    s.Keeps (s.event code detail) := .of (by simp [State.event])
@[simp] theorem State.setLatch_canonical (s : State) (src : Nat) (l : Latch) :
    s.Keeps (s.setLatch src l) := .of (by simp [State.setLatch])
@[simp] theorem State.setWindows_canonical (s : State) : s.Keeps s.setWindows := .of (by simp [State.setWindows])
@[simp] theorem State.stopDevice_canonical (s : State) : s.Keeps s.stopDevice := .of (by simp [State.stopDevice])
@[simp] theorem State.restartQuiet_canonical (s : State) : s.Keeps s.restartQuiet := .of (by simp [State.restartQuiet])
@[simp] theorem State.holdUnit_canonical (s : State) (u : Option CUnit) : s.Keeps (s.holdUnit u) := by
  refine .of ?_
  unfold State.holdUnit
  split <;> simp
@[simp] theorem State.faultEvent_canonical (s : State) (src sev : Nat) (l : Latch) (unit : Option CUnit) :
    s.Keeps (s.faultEvent src sev l unit) := .of (by simp [State.faultEvent])
@[simp] theorem State.keepFatal_canonical (s : State) (src : Nat) : s.Keeps (s.keepFatal src) := .of (by simp [State.keepFatal])
@[simp] theorem State.noteRaised_canonical (s : State) (src : Nat) (l : Latch) :
    s.Keeps (s.noteRaised src l) := .of (by simp [State.noteRaised])
@[simp] theorem State.raise_canonical (s : State) (src info : Nat) : s.Keeps (s.raise src info) := .of (by simp [State.raise])
/-! ### Operations of Machine/Domains.lean -/

@[simp] theorem State.setDomain_canonical (s : State) (d v : Nat) : s.Keeps (s.setDomain d v) := .of (by simp [State.setDomain])
@[simp] theorem State.wake_canonical (s : State) : s.Keeps s.wake := .of (by simp [State.wake])
@[simp] theorem State.coolPhy_canonical (s : State) (n : Nat) : s.Keeps (s.coolPhy n) := .of (by simp [State.coolPhy])
/-! ### Operations of Machine/Links.lean -/

@[simp] theorem State.laneFail_canonical (s : State) (n lane : Nat) : s.Keeps (s.laneFail n lane) := .of (by simp [State.laneFail])
@[simp] theorem State.failedReq_canonical (s : State) (n typ : Nat) : s.Keeps (s.failedReq n typ) := .of (by simp [State.failedReq])
@[simp] theorem State.crcFail_canonical (s : State) (n typ : Nat) (lane : Option Lane) : s.Keeps (s.crcFail n typ lane) := by
  refine .of ?_
  unfold State.crcFail
  split <;> simp
@[simp] theorem State.sideIn_canonical (s : State) (n : Nat) (side : BitVec 48) :
    s.Keeps (s.sideIn n side) := .of (by simp [State.sideIn])
@[simp] theorem execReqFlit_keepsCanonical (l : Link) (side : BitVec 48) (data : Payload) (badLane : Option Lane) (s : State) :
    s.KeepsCanonical (execReqFlit l side data badLane s) := by simp [execReqFlit]
@[simp] theorem State.countAccepted_canonical (s : State) (r : Req) : s.Keeps (s.countAccepted r) := by
  refine .of ?_
  unfold State.countAccepted
  split <;> simp
@[simp] theorem State.driveDecision_canonical (s : State) (n : Nat) : s.Keeps (s.driveDecision n) := .of (by simp [State.driveDecision])
@[simp] theorem execDecisionVector_keepsCanonical (l : Link) (s : State) : s.KeepsCanonical (execDecisionVector l s) := by
  simp [execDecisionVector]
@[simp] theorem execDecisionComplement_keepsCanonical (l : Link) (s : State) : s.KeepsCanonical (execDecisionComplement l s) := by
  unfold execDecisionComplement
  split <;> simp
@[simp] theorem execCreditReturn_keepsCanonical (l : Link) (n : Fin 15) (s : State) : s.KeepsCanonical (execCreditReturn l n s) := by
  simp [execCreditReturn]
@[simp] theorem State.reservedType_canonical (s : State) (n : Nat) : s.Keeps (s.reservedType n) := .of (by simp [State.reservedType])
@[simp] theorem State.acceptFlit_canonical (s : State) (n typ : Nat) (p : Payload) :
    s.Keeps (s.acceptFlit n typ p) := .of (by simp [State.acceptFlit])
@[simp] theorem execSequencedFlit_keepsCanonical (l : Link) (side : BitVec 48) (data : Payload) (badLane : Option Lane)
    (s : State) :
    s.KeepsCanonical (execSequencedFlit l side data badLane s) := by simp [execSequencedFlit]
@[simp] theorem execIdleFlit_keepsCanonical (l : Link) (side : BitVec 48) (badLane : Option Lane) (s : State) :
    s.KeepsCanonical (execIdleFlit l side badLane s) := by simp [execIdleFlit]
@[simp] theorem State.replay_canonical (s : State) (n : Nat) (flits : List HeldFlit) : s.Keeps (s.replay n flits) := by
  refine .of ?_
  unfold State.replay
  split <;> simp
@[simp] theorem execRetry_keepsCanonical (l : Link) (s : State) : s.KeepsCanonical (execRetry l s) := by
  simp only [execRetry]
  split <;> simp
@[simp] theorem execReplayTimeout_keepsCanonical (l : Link) (tie : Bool) (s : State) :
    s.KeepsCanonical (execReplayTimeout l tie s) := by
  simp only [execReplayTimeout]
  split <;> simp
@[simp] theorem State.linkFlit_canonical (s : State) (n : Nat) : s.Keeps (s.linkFlit n) := .of (by simp [State.linkFlit])
@[simp] theorem State.enterOpen_canonical (s : State) (n : Nat) : s.Keeps (s.enterOpen n) := .of (by simp [State.enterOpen])
@[simp] theorem execLinkOpen_keepsCanonical (l : Link) (s : State) : s.KeepsCanonical (execLinkOpen l s) := by simp [execLinkOpen]
@[simp] theorem execLinkToVestibule_keepsCanonical (l : Link) (s : State) : s.KeepsCanonical (execLinkToVestibule l s) := by
  simp [execLinkToVestibule]
@[simp] theorem State.retrainFromOpen_canonical (s : State) (n : Nat) :
    s.Keeps (s.retrainFromOpen n) := .of (by simp [State.retrainFromOpen])
@[simp] theorem execClockDrift_keepsCanonical (l : Link) (s : State) : s.KeepsCanonical
    (execClockDrift l s) := by simp [execClockDrift]
@[simp] theorem State.retrainAny_canonical (s : State) (n : Nat) : s.Keeps (s.retrainAny n) := .of (by simp [State.retrainAny])
@[simp] theorem State.popInbox_canonical (s : State) (n : Nat) : s.Keeps (s.popInbox n) := .of (by simp [State.popInbox])
@[simp] theorem State.answerControl_canonical (s : State) (n code : Nat) (p : Payload) :
    s.Keeps (s.answerControl n code p) := .of (by simp [State.answerControl])
@[simp] theorem execPark_keepsCanonical (l : Link) (s : State) : s.KeepsCanonical (execPark l s) := by
  simp only [execPark]
  split <;> simp
@[simp] theorem execParkAck_keepsCanonical (l : Link) (s : State) : s.KeepsCanonical (execParkAck l s) := by
  simp only [execParkAck]
  split <;> simp
@[simp] theorem execParkNak_keepsCanonical (l : Link) (s : State) : s.KeepsCanonical (execParkNak l s) := by
  simp only [execParkNak]
  split <;> simp
@[simp] theorem execParkEntry_keepsCanonical (l : Link) (s : State) : s.KeepsCanonical (execParkEntry l s) := by
  simp only [execParkEntry]
  split <;> simp
@[simp] theorem execAutoDoze_keepsCanonical (l : Link) (e : BitVec 64) (s : State) : s.KeepsCanonical (execAutoDoze l e s) := by
  simp [execAutoDoze]
@[simp] theorem State.shortRetrain_canonical (s : State) (n : Nat) : s.Keeps (s.shortRetrain n) := .of (by simp [State.shortRetrain])
@[simp] theorem execLinkWake_keepsCanonical (l : Link) (s : State) : s.KeepsCanonical (execLinkWake l s) := by simp [execLinkWake]
@[simp] theorem execTrainingStart_keepsCanonical (l : Link) (s : State) : s.KeepsCanonical (execTrainingStart l s) := by
  simp [execTrainingStart]
@[simp] theorem execForwardedClockStop_keepsCanonical (l : Link) (s : State) : s.KeepsCanonical (execForwardedClockStop l s) := by
  simp [execForwardedClockStop]
@[simp] theorem State.trainFail_canonical (s : State) (n cause : Nat) : s.Keeps (s.trainFail n cause) := .of (by simp [State.trainFail])
@[simp] theorem State.setSpare_canonical (s : State) (n : Nat) (outbound : Bool) (spare lane src : Nat) :
    s.Keeps (s.setSpare n outbound spare lane src) := .of (by simp [State.setSpare])
@[simp] theorem State.assignLanes_canonical (n : Nat) (outbound : Bool) (src : Nat) (ks : List Nat) (s : State) :
    s.Keeps (State.assignLanes n outbound src ks s).1 := by
  induction ks generalizing s with
  | nil => exact .of id
  | cons k ks ih =>
    refine .of ?_
    simp only [State.assignLanes]
    split
    · simp [ih]
    · split <;> simp [ih]
@[simp] theorem State.assignDir_canonical (s : State) (n : Nat) (outbound : Bool) (weak : List Nat) :
    s.Keeps (s.assignDir n outbound weak).1 := .of (by simp [State.assignDir])
@[simp] theorem State.setDecision_canonical (s : State) (n : Nat) (d0 d1 : Bool) :
    s.Keeps (s.setDecision n d0 d1) := .of (by simp [State.setDecision])
@[simp] theorem State.trained_canonical (s : State) (n : Nat) : s.Keeps (s.trained n) := .of (by simp [State.trained])
@[simp] theorem State.setTrainStep_canonical (s : State) (n k : Nat) : s.Keeps (s.setTrainStep n k) := .of (by simp [State.setTrainStep])
@[simp] theorem execTrainStepDone_keepsCanonical (l : Link) (obs : TrainObs) (tie : Bool) (s : State) :
    s.KeepsCanonical (execTrainStepDone l obs tie s) := by
  simp only [execTrainStepDone]
  repeat' split
  all_goals simp
@[simp] theorem execTrainStepTimeout_keepsCanonical (l : Link) (s : State) : s.KeepsCanonical (execTrainStepTimeout l s) := by
  simp only [execTrainStepTimeout]
  repeat' split
  all_goals simp
@[simp] theorem execTrainTotalTimeout_keepsCanonical (l : Link) (s : State) : s.KeepsCanonical (execTrainTotalTimeout l s) := by
  simp [execTrainTotalTimeout]
@[simp] theorem execTrainBackoffExpiry_keepsCanonical (l : Link) (s : State) : s.KeepsCanonical (execTrainBackoffExpiry l s) := by
  simp [execTrainBackoffExpiry]
@[simp] theorem State.shortToFull_canonical (s : State) (n : Nat) : s.Keeps (s.shortToFull n) := .of (by simp [State.shortToFull])
@[simp] theorem execShortRetrainStepDone_keepsCanonical (l : Link) (obs : TrainObs) (tie : Bool) (s : State) :
    s.KeepsCanonical (execShortRetrainStepDone l obs tie s) := by
  simp only [execShortRetrainStepDone]
  repeat' split
  all_goals simp
@[simp] theorem execShortRetrainTimeout_keepsCanonical (l : Link) (s : State) : s.KeepsCanonical (execShortRetrainTimeout l s) := by
  simp [execShortRetrainTimeout]
@[simp] theorem execLaneRepairRequest_keepsCanonical (l : Link) (lane : Lane) (e : BitVec 64) (s : State) :
    s.KeepsCanonical (execLaneRepairRequest l lane e s) := by
  simp only [execLaneRepairRequest]
  repeat' split
  all_goals simp
@[simp] theorem State.showPending_canonical (s : State) (n : Nat) : s.Keeps (s.showPending n) := .of (by simp [State.showPending])
@[simp] theorem execRepair_keepsCanonical (l : Link) (s : State) : s.KeepsCanonical (execRepair l s) := by
  simp only [execRepair]
  split <;> simp
@[simp] theorem execRepairAck_keepsCanonical (l : Link) (s : State) : s.KeepsCanonical (execRepairAck l s) := by
  simp only [execRepairAck]
  split <;> simp
@[simp] theorem execRepairNak_keepsCanonical (l : Link) (s : State) : s.KeepsCanonical (execRepairNak l s) := by
  simp only [execRepairNak]
  split <;> simp
@[simp] theorem execLaneRepairSwitch_keepsCanonical (l : Link) (s : State) : s.KeepsCanonical (execLaneRepairSwitch l s) := by
  simp [execLaneRepairSwitch]
@[simp] theorem execRepairAckTimeout_keepsCanonical (l : Link) (s : State) : s.KeepsCanonical (execRepairAckTimeout l s) := by
  simp [execRepairAckTimeout]
@[simp] theorem State.laneMonitor_canonical (s : State) (n m : Nat) : s.Keeps (s.laneMonitor n m) := .of (by simp [State.laneMonitor])
@[simp] theorem execDquery_keepsCanonical (l : Link) (s : State) : s.KeepsCanonical (execDquery l s) := by
  simp only [execDquery]
  split <;> simp
@[simp] theorem execHistoryDiscard_keepsCanonical (l : Link) (s : State) : s.KeepsCanonical (execHistoryDiscard l s) := by
  simp [execHistoryDiscard]
@[simp] theorem execEventDelivery_keepsCanonical (s : State) : s.KeepsCanonical (execEventDelivery s) := by simp [execEventDelivery]
@[simp] theorem State.markLate_canonical (s : State) (r : Req) : s.Keeps (s.markLate r) := .of (by simp [State.markLate])
@[simp] theorem execWdata_keepsCanonical (l : Link) (s : State) : s.KeepsCanonical (execWdata l s) := by
  simp only [execWdata]
  repeat' split
  all_goals simp
@[simp] theorem execWdataLate_keepsCanonical (p : Port) (tag : BitVec 9) (s : State) : s.KeepsCanonical (execWdataLate p tag s) := by
  unfold execWdataLate
  split <;> simp

/-! ### Operations of Machine/Ecc.lean -/

@[simp] theorem State.setEcc_canonical (s : State) (t : Nat) (v : EccSt) : s.Keeps (s.setEcc t v) := .of (by simp [State.setEcc])
@[simp] theorem State.modEcc_canonical (s : State) (t : Nat) (f : EccSt → EccSt) : s.Keeps (s.modEcc t f) := .of (by simp [State.modEcc])
@[simp] theorem State.eccStatus_canonical (s : State) (t : Nat) : s.Keeps (s.eccStatus t) := .of (by simp [State.eccStatus])
@[simp] theorem State.capture_canonical (s : State) (t cls : Nat) (i : ErrInfo) :
    s.Keeps (s.capture t cls i) := .of (by simp [State.capture])
@[simp] theorem State.queueBurst_canonical (s : State) (t bank row col : Nat) (errs : List ErrInfo) :
    s.Keeps (s.queueBurst t bank row col errs) := .of (by simp [State.queueBurst])
@[simp] theorem State.queueProbe_canonical (s : State) (t bank row col : Nat) (i : ErrInfo) :
    s.Keeps (s.queueProbe t bank row col i) := .of (by simp [State.queueProbe])
@[simp] theorem State.leaves_canonical (s : State) (t : Nat) (r : RecEntry) : s.Keeps (s.leaves t r) := .of (by simp [State.leaves])
@[simp] theorem State.recur_canonical (s : State) (t bank row col word : Nat) (i : ErrInfo) :
    s.Keeps (s.recur t bank row col word i) := by
  refine .of ?_
  simp only [State.recur]
  repeat' split
  all_goals simp
@[simp] theorem State.leaveRecs_canonical (s : State) (t bank row col word : Nat) : s.Keeps (s.leaveRecs t bank row col word) := by
  refine .of ?_
  unfold State.leaveRecs
  split <;> simp
@[simp] theorem State.dropUnit_canonical (s : State) (t : Nat) : s.Keeps (s.dropUnit t) := .of (by simp [State.dropUnit])
@[simp] theorem State.overLines_canonical (s : State) (c : Nat) (is : List Nat) : s.Keeps (State.overLines s c is).2 := by
  induction is generalizing s c with
  | nil => exact .of id
  | cons i is ih => exact .of (by simp [State.overLines, ih])
@[simp] theorem State.attribute_canonical (s : State) (c w : Nat) (bits : List Nat) :
    s.Keeps (s.attribute c w bits) := .of (by simp [State.attribute])
@[simp] theorem State.dramPut_canonical (s : State) (i : Nat) (c : Codeword) : s.Keeps (s.dramPut i c) := .of (by simp [State.dramPut])
@[simp] theorem State.loseDram_canonical (s : State) (c : Nat) : s.Keeps (s.loseDram c) := .of (by simp [State.loseDram])
@[simp] theorem State.fillDram_canonical (s : State) : s.Keeps s.fillDram := .of (by simp [State.fillDram])
@[simp] theorem State.loseGranule_canonical (s : State) (k : Nat) : s.Keeps (s.loseGranule k) := .of (by simp [State.loseGranule])
@[simp] theorem State.fillLarder_canonical (s : State) : s.Keeps s.fillLarder := .of (by simp [State.fillLarder])
@[simp] theorem State.larderPut_canonical (s : State) (q bank line w : Nat) (c : Codeword) :
    s.Keeps (s.larderPut q bank line w c) := .of (by simp [State.larderPut])
@[simp] theorem State.putLarder_canonical (s : State) (l : LLine) (w : Nat) (c : Codeword) :
    s.Keeps (s.putLarder l w c) := .of (by simp [State.putLarder])
@[simp] theorem State.writeLarder_canonical (s : State) (l : LLine) (w : Nat) (data : DWord) (poison : Bool) :
    s.Keeps (s.writeLarder l w data poison) := .of (by simp [State.writeLarder])
@[simp] theorem State.readPhys_canonical (s : State) (x l : LLine) (w : Nat) (ctx : ReadCtx) (scr : Option Nat) :
    s.Keeps (s.readPhys x l w ctx scr).2 := by
  refine .of ?_
  simp only [State.readPhys]
  repeat' split
  all_goals simp
@[simp] theorem State.readLarder_canonical (s : State) (l : LLine) (w : Nat) (ctx : ReadCtx) (scr : Option Nat) :
    s.Keeps (s.readLarder l w ctx scr).2 := .of (by simp [State.readLarder])
@[simp] theorem State.readLine_canonical (s : State) (l : LLine) (ctx : ReadCtx) (scr : Nat → Option Nat) :
    s.Keeps (s.readLine l ctx scr).2 := .of (by simp [State.readLine])
@[simp] theorem State.putSlot_canonical (s : State) (n k : Nat) (c : Codeword) (mark : Bool) :
    s.Keeps (s.putSlot n k c mark) := .of (by simp [State.putSlot])
@[simp] theorem State.clearRecord_canonical (s : State) (n : Nat) : s.Keeps (s.clearRecord n) := .of (by simp [State.clearRecord])
@[simp] theorem State.readArray_canonical (s : State) (l : Loc) (w : Nat) (ctx : ReadCtx) : s.Keeps (s.readArray l w ctx).2 := by
  refine .of ?_
  simp only [State.readArray]
  repeat' split
  all_goals simp
@[simp] theorem State.putHeld_canonical (s : State) (l : Loc) (w : Nat) (c : Codeword) :
    s.Keeps (s.putHeld l w c) := .of (by simp [State.putHeld])
@[simp] theorem State.readBuffer_canonical (s : State) (t w : Nat) (stored : Codeword) (ctx : ReadCtx)
    (put : State → Codeword → State) (h : ∀ (u : State) c, u.Ensures (put u c).Canonical) :
    s.Keeps (s.readBuffer t w stored ctx put).2 := by
  refine .of ?_
  have h := fun u c => State.Keeps.of (h u c)
  simp only [State.readBuffer]
  split
  · split <;> simp [h]
  · simp
@[simp] theorem State.readHeld_canonical (s : State) (l : Loc) (j : ProbeJob) (w : Nat) (ctx : ReadCtx) :
    s.Keeps (s.readHeld l j w ctx).2 := .of (by simp [State.readHeld])
@[simp] theorem State.readDram_canonical (s : State) (l : Loc) (w : Nat) (ctx : ReadCtx) : s.Keeps (s.readDram l w ctx).2 := by
  refine .of ?_
  simp only [State.readDram]
  repeat' split
  all_goals simp
@[simp] theorem State.inject_canonical (s : State) (l : Loc) (w : Nat) (c : Codeword) : s.Keeps (s.inject l w c).2 := by
  refine .of ?_
  simp only [State.inject]
  split <;> simp
@[simp] theorem State.putDram_canonical (s : State) (l : Loc) (w : Nat) (c : Codeword) : s.Keeps (s.putDram l w c) := by
  refine .of ?_
  simp only [State.putDram]
  repeat' split
  all_goals simp
@[simp] theorem State.writeDram_canonical (s : State) (l : Loc) (w : Nat) (data : DWord) (poison : Bool) :
    s.Keeps (s.writeDram l w data poison) := .of (by simp [State.writeDram])
@[simp] theorem State.readBurst_canonical (s : State) (l : Loc) (ctx : ReadCtx) :
    s.Keeps (s.readBurst l ctx).2 := .of (by simp [State.readBurst])
@[simp] theorem State.copyArray_canonical (s : State) (t bank row col w source : Nat) :
    s.Keeps (s.copyArray t bank row col w source).2 := by
  refine .of ?_
  simp only [State.copyArray]
  split <;> simp
@[simp] theorem State.copyWord_canonical (s : State) (t bank row col w source : Nat) :
    s.Keeps (s.copyWord t bank row col w source).2 := by
  refine .of ?_
  simp only [State.copyWord]
  split <;> simp
@[simp] theorem State.copyBurst_canonical (s : State) (t bank src dst col source : Nat) :
    s.Keeps (s.copyBurst t bank src dst col source) := .of (by simp [State.copyBurst])
@[simp] theorem State.deliverPoison_canonical (s : State) (t n : Nat) :
    s.Keeps (s.deliverPoison t n) := .of (by simp [State.deliverPoison])
/-! ### Operations of Machine/Risers.lean -/

@[simp] theorem State.helperRun_canonical (s : State) (r : Nat) (pattern : Option LinePattern) (rows : Bool)
    (lines bad swept : List Nat) : s.Keeps (s.helperRun r pattern rows lines bad swept) := .of (by simp [State.helperRun])
@[simp] theorem State.putBit_canonical (s : State) (f : Fld) (i : Nat) (b : Bool) :
    s.Keeps (s.putBit f i b) := .of (by simp [State.putBit])
@[simp] theorem State.assignSpare_canonical (s : State) (r sp line src : Nat) :
    s.Keeps (s.assignSpare r sp line src) := .of (by simp [State.assignSpare])
@[simp] theorem State.spareIsBad_canonical (s : State) (r sp : Nat) (src : Nat) :
    s.Keeps (s.spareIsBad r sp src) := .of (by simp [State.spareIsBad])
@[simp] theorem State.showErased_canonical (s : State) (c : Nat) : s.Keeps (s.showErased c) := .of (by simp [State.showErased])
@[simp] theorem State.showVstate_canonical (s : State) (r : Nat) : s.Keeps (s.showVstate r) := .of (by simp [State.showVstate])
@[simp] theorem State.showRiser_canonical (s : State) (r : Nat) : s.Keeps (s.showRiser r) := by
  refine .of ?_
  simp only [State.showRiser]
  split <;> simp
@[simp] theorem State.degrade_canonical (s : State) (c line cause : Nat) :
    s.Keeps (s.degrade c line cause) := .of (by simp [State.degrade])
@[simp] theorem State.thirdDead_canonical (s : State) (r line : Nat) : s.Keeps (s.thirdDead r line) := by
  refine .of ?_
  simp only [State.thirdDead]
  repeat' split
  all_goals simp
@[simp] theorem State.lineDead_canonical (s : State) (r line : Nat) : s.Keeps (s.lineDead r line) := .of (by simp [State.lineDead])
@[simp] theorem State.startRepair_canonical (s : State) (r line : Nat) : s.Keeps (s.startRepair r line) := by
  refine .of ?_
  unfold State.startRepair
  split <;> simp
@[simp] theorem State.declareFailing_canonical (s : State) (r line : Nat) :
    s.Keeps (s.declareFailing r line) := .of (by simp [State.declareFailing])
@[simp] theorem execLineFailing_keepsCanonical (r : Tile) (line : BitVec 8) (tie : Bool) (s : State) :
    s.KeepsCanonical (execLineFailing r line tie s) := by
  simp [execLineFailing]
@[simp] theorem execSoftRepairVerifyDone_keepsCanonical (r : Tile) (line : BitVec 8) (mismatch : Bool) (s : State) :
    s.KeepsCanonical (execSoftRepairVerifyDone r line mismatch s) := by
  simp only [execSoftRepairVerifyDone]
  repeat' split
  all_goals simp
@[simp] theorem execSoftRepairSwitch_keepsCanonical (r : Tile) (s : State) : s.KeepsCanonical (execSoftRepairSwitch r s) := by
  simp [execSoftRepairSwitch]
@[simp] theorem State.markErased_canonical (s : State) (r : Nat) : s.Keeps (s.markErased r) := by
  refine .of ((State.showRiser_canonical _ _).after ((State.canonical_foldl _ _ _ fun u line => ?_).after (by simp)))
  split
  · dsimp only
    split <;> simp
  · simp
@[simp] theorem State.monitorRiser_canonical (s : State) (r e m : Nat) :
    s.Keeps (s.monitorRiser r e m) := .of (by simp [State.monitorRiser])
@[simp] theorem State.applyDegrade_canonical (s : State) (c : Nat) : s.Keeps (s.applyDegrade c) := .of (by simp [State.applyDegrade])
@[simp] theorem State.takeSpare_canonical (s : State) (c reason : Nat) : s.Keeps (s.takeSpare c reason) := .of (by simp [State.takeSpare])
@[simp] theorem State.leaveSpare_canonical (s : State) : s.Keeps s.leaveSpare := .of (by simp [State.leaveSpare])
@[simp] theorem State.moveToSpare_canonical (s : State) (c line : Nat) (displaced : Nat) :
    s.Keeps (s.moveToSpare c line displaced) := .of (by simp [State.moveToSpare])
@[simp] theorem State.assignLines_canonical (r src : Nat) (ls : List Nat) (s : State) : s.Keeps (State.assignLines r src ls s).1 := by
  induction ls generalizing s with
  | nil => exact .of id
  | cons l ls ih =>
    refine .of ?_
    simp only [State.assignLines]
    split
    · simp [ih]
    · split <;> simp [ih]
@[simp] theorem State.fuseRiser_canonical (s : State) (r : Nat) : s.Keeps (s.fuseRiser r) := .of (by simp [State.fuseRiser])
@[simp] theorem State.riserUntrained_canonical (s : State) (r : Nat) :
    s.Keeps (s.riserUntrained r) := .of (by simp [State.riserUntrained])
@[simp] theorem State.v5Spare_canonical (s : State) (r sp : Nat) : s.Keeps (s.v5Spare r sp).1 := .of (by simp [State.v5Spare])
@[simp] theorem State.v5Lines_canonical (s : State) (r : Nat) (fails : List Nat) :
    s.Keeps (s.v5Lines r fails) := .of (by simp [State.v5Lines])
@[simp] theorem State.putTrims_canonical (s : State) (ts : List (Nat × Word)) : s.Keeps (s.putTrims ts) := .of (by
  simp only [State.putTrims, State.canonical_mk, RegMap.canonical_foldl _ _ _ _ fun m a h => RegMap.wf_put m _ _ h]
  simp)
@[simp] theorem State.stepHelper_canonical (s : State) (r step : Nat) (bad swept : List Nat) :
    s.Keeps (s.stepHelper r step bad swept) := by
  refine .of ?_
  unfold State.stepHelper
  split <;> simp
@[simp] theorem execRiserTrainStepDone_keepsCanonical (r : Tile) (ok : Bool) (fails : List (BitVec 8)) (trims : List TrimObs)
    (s : State) :
    s.KeepsCanonical (execRiserTrainStepDone r ok fails trims s) := by simp [execRiserTrainStepDone]
@[simp] theorem State.goHome_canonical (s : State) (r : Nat) : s.Keeps (s.goHome r) := by
  refine .of ?_
  unfold State.goHome
  split <;> simp
@[simp] theorem execArrayFillDone_keepsCanonical (s : State) : s.KeepsCanonical (execArrayFillDone s) := by simp [execArrayFillDone]

/-! ### Operations of Machine/Clocks.lean -/

@[simp] theorem execPllLockLoss_keepsCanonical (q : Quad) (s : State) : s.KeepsCanonical
    (execPllLockLoss q s) := by simp [execPllLockLoss]
@[simp] theorem execPllLock_keepsCanonical (q : Quad) (s : State) : s.KeepsCanonical (execPllLock q s) := by simp [execPllLock]
@[simp] theorem State.showFallback_canonical (s : State) (b : Nat) : s.Keeps (s.showFallback b) := .of (by simp [State.showFallback])
@[simp] theorem State.enterFallback_canonical (s : State) : s.Keeps s.enterFallback := .of (by simp [State.enterFallback])
@[simp] theorem State.startRetune_canonical (s : State) (qs : List Nat) : s.Keeps (s.startRetune qs) := .of (by simp [State.startRetune])
@[simp] theorem State.applyTunings_canonical (s : State) : s.Keeps s.applyTunings := .of (by simp [State.applyTunings])
@[simp] theorem execCrossingTuneDone_keepsCanonical (q : Quad) (setup hold : BitVec 16) (s : State) :
    s.KeepsCanonical (execCrossingTuneDone q setup hold s) := by simp [execCrossingTuneDone]
@[simp] theorem execClockFallbackEntry_keepsCanonical (s : State) : s.KeepsCanonical (execClockFallbackEntry s) := by
  simp [execClockFallbackEntry]
@[simp] theorem execClockFallbackExit_keepsCanonical (s : State) : s.KeepsCanonical
    (execClockFallbackExit s) := by simp [execClockFallbackExit]

/-! ### Operations of Machine/Letterbox.lean -/

@[simp] theorem State.putBuf_canonical (s : State) (n off : Nat) (bs : List Byte) :
    s.Keeps (s.putBuf n off bs) := State.canonical_foldl _ _ _ fun _ _ => by simp
@[simp] theorem State.releaseLb_canonical (s : State) (n : Nat) : s.Keeps (s.releaseLb n) := .of (by simp [State.releaseLb])
@[simp] theorem State.cplNote_canonical (s : State) (n word : Nat) : s.Keeps (s.cplNote n word) := by
  refine .of ?_
  unfold State.cplNote
  split <;> simp
@[simp] theorem State.complete_canonical (s : State) (n status : Nat) (committed : Bool) (result : List Byte) :
    s.Keeps (s.complete n status committed result) := by
  refine .of ?_
  simp only [State.complete]
  repeat' split
  all_goals simp
@[simp] theorem State.fail_canonical (s : State) (n status : Nat) : s.Keeps (s.fail n status) := .of (by simp [State.fail])
@[simp] theorem State.done_canonical (s : State) (n : Nat) (result : List Byte) : s.Keeps (s.done n result) := .of (by simp [State.done])
@[simp] theorem State.startCommand_canonical (s : State) (n : Nat) : s.Keeps (s.startCommand n) := by
  refine .of ?_
  simp only [State.startCommand]
  split <;> simp
@[simp] theorem State.ring_canonical (s : State) (n : Nat) : s.Keeps (s.ring n) := .of (by simp [State.ring])
@[simp] theorem State.dropWork_canonical (s : State) (n : Nat) : s.Keeps (s.dropWork n) := .of (by simp [State.dropWork])
@[simp] theorem State.endEarly_canonical (s : State) (n status : Nat) : s.Keeps (s.endEarly n status) := .of (by simp [State.endEarly])
@[simp] theorem State.restartCore_canonical (s : State) (c : Nat) : s.Keeps (s.restartCore c) := .of (by simp [State.restartCore])
@[simp] theorem State.command_keepsCanonical (s : State) (n code need : Nat) (f : LbSt → State → State)
    (h : ∀ L (u : State), u.Ensures (f L u).Canonical) :
    s.KeepsCanonical (s.command n code need f) := by
  have h := fun L u => State.Keeps.of (h L u)
  simp [State.command, h]
@[simp] theorem State.begin_canonical (s : State) (n : Nat) (committed : Bool) (epoch : Nat) :
    s.Keeps (s.begin n committed epoch) := .of (by simp [State.begin])
/-! ### Operations of Machine/Faults.lean -/

@[simp] theorem State.setEngineOut_canonical (s : State) (e : Nat) (out : Bool) :
    s.Keeps (s.setEngineOut e out) := .of (by simp [State.setEngineOut])
@[simp] theorem State.holdCore_canonical (s : State) (c : Nat) : s.Keeps (s.holdCore c) := .of (by simp [State.holdCore])
@[simp] theorem State.setContained_canonical (s : State) (b : Bool) (u : CUnit) : s.Keeps (s.setContained b u) := by
  refine .of ?_
  cases u with
  | ports q => simp [State.setContained]
  | port p => simp only [State.setContained]; split <;> simp
  | _ => simp [State.setContained]
@[simp] theorem State.containNow_canonical (s : State) (u : CUnit) : s.Keeps (s.containNow u) := by
  refine .of ?_
  simp only [State.containNow]
  repeat' split
  all_goals simp
@[simp] theorem execContainUnit_keepsCanonical (s : State) : s.KeepsCanonical (execContainUnit s) := by simp [execContainUnit]
@[simp] theorem State.applyReleases_canonical (s : State) : s.Keeps s.applyReleases := .of (by simp [State.applyReleases])
@[simp] theorem execQuietPeriodExpiry_keepsCanonical (s : State) : s.KeepsCanonical
    (execQuietPeriodExpiry s) := by simp [execQuietPeriodExpiry]

/-! ### Operations of Machine/Mem.lean -/

@[simp] theorem State.showFlush_canonical (s : State) (t : Nat) : s.Keeps (s.showFlush t) := .of (by simp [State.showFlush])
@[simp] theorem State.queueWork_canonical (s : State) (rank : Nat) (id : WorkFor) (loc : Loc) (wr : Bool) :
    s.Keeps (s.queueWork rank id loc wr) := .of (by simp [State.queueWork])
@[simp] theorem State.readScratch_canonical (s : State) (cfg : RegMap) (o : Nat) (ctx : ReadCtx) :
    s.Keeps (s.readScratch cfg o ctx).2 := .of (by simp [State.readScratch])
@[simp] theorem State.writeScratch_canonical (s : State) (cfg : RegMap) (o : Nat) (data : DWord) (poison : Bool) :
    s.Keeps (s.writeScratch cfg o data poison) := .of (by simp [State.writeScratch])
@[simp] theorem State.larderFlit_canonical (s : State) : s.Keeps s.larderFlit := .of (by simp [State.larderFlit])
@[simp] theorem State.powerDown_canonical (s : State) : s.Keeps s.powerDown := .of (by simp [State.powerDown])
@[simp] theorem State.setCacheSet_canonical (s : State) (k : Nat) (ls : List CLine) :
    s.Keeps (s.setCacheSet k ls) := .of (by simp [State.setCacheSet])
@[simp] theorem State.touchLine_canonical (s : State) (k : Nat) (l : CLine) : s.Keeps (s.touchLine k l) := .of (by simp [State.touchLine])
@[simp] theorem State.putLine_canonical (s : State) (k : Nat) (l : CLine) (w : Nat) (c : Codeword) (dirty : Bool) :
    s.Keeps (s.putLine k l w c dirty) := .of (by simp [State.putLine])
@[simp] theorem State.readCached_canonical (s : State) (t k : Nat) (l : CLine) (w : Nat) (ctx : ReadCtx) :
    s.Keeps (s.readCached t k l w ctx).2 := .of (by simp [State.readCached])
@[simp] theorem State.readMem_canonical (s : State) (cfg : RegMap) (a : Nat) (ctx : ReadCtx) : s.Keeps (s.readMem cfg a ctx).2 := by
  refine .of ?_
  simp only [State.readMem]
  split <;> simp
@[simp] theorem State.writeMem_canonical (s : State) (cfg : RegMap) (a : Nat) (data : DWord) (poison : Bool) :
    s.Keeps (s.writeMem cfg a data poison) := by
  refine .of ?_
  simp only [State.writeMem]
  split <;> simp
@[simp] theorem State.readMems_canonical (s : State) (cfg : RegMap) (a n : Nat) (ctx : ReadCtx) :
    s.Keeps (s.readMems cfg a n ctx).2 := .of (by simp [State.readMems])
@[simp] theorem State.writeMems_canonical (s : State) (cfg : RegMap) (a : Nat) (ws : List (DWord × Bool)) :
    s.Keeps (s.writeMems cfg a ws) := .of (by simp [State.writeMems])
@[simp] theorem State.writeBack_canonical (s : State) (t : Nat) (l : CLine) : s.Keeps (s.writeBack t l) := by
  refine .of ((State.inc_canonical _ _).after ((State.canonical_foldl _ _ _ fun u w => ?_).after (by simp)))
  split <;> simp
@[simp] theorem State.cleanLines_canonical (s : State) (id : WorkFor) (p : Nat → CLine → Bool) :
    s.Keeps (s.cleanLines id p) := .of (by simp [State.cleanLines])
@[simp] theorem State.dropLines_canonical (s : State) (p : Nat → CLine → Bool) :
    s.Keeps (s.dropLines p) := .of (by simp [State.dropLines])
@[simp] theorem State.fillLine_canonical (s : State) (loc : Loc) (burst : Nat) (ctx : ReadCtx) :
    s.Keeps (s.fillLine loc burst ctx).2 := .of (by simp [State.fillLine])
/-! ### Operations of Machine/Requests.lean -/

@[simp] theorem State.modReq_canonical (s : State) (r : Req) (f : Req → Req) : s.Keeps (s.modReq r f) := .of (by simp [State.modReq])
@[simp] theorem State.release_canonical (s : State) (r : Req) (p : Burst → Bool) :
    s.Keeps (s.release r p) := .of (by simp [State.release])
@[simp] theorem State.finishResets_canonical (s : State) : s.Keeps s.finishResets := .of (by simp [State.finishResets])
@[simp] theorem State.answer_canonical (s : State) (r : Req) (a : Answer) : s.Keeps (s.answer r a) := .of (by simp [State.answer])
@[simp] theorem State.readBursts_canonical (s : State) (r : Req) : s.Keeps (s.readBursts r).2 := .of (by simp [State.readBursts])
@[simp] theorem State.refuse_canonical (s : State) (r : Req) (status : Nat) : s.Keeps (s.refuse r status) := .of (by simp [State.refuse])
@[simp] theorem execRd_keepsCanonical (p : Port) (tag : BitVec 9) (s : State) : s.KeepsCanonical (execRd p tag s) := by
  simp only [execRd]
  repeat' split
  all_goals simp
@[simp] theorem State.scramble_canonical (s : State) (cfg : RegMap) (a : Nat) :
    s.Keeps (s.scramble cfg a) := .of (by simp [State.scramble])
@[simp] theorem State.clashTables_canonical (s : State) (wr : Req) : s.Keeps (s.clashTables wr) := .of (by simp [State.clashTables])
@[simp] theorem execWr_keepsCanonical (p : Port) (tag : BitVec 9) (s : State) : s.KeepsCanonical (execWr p tag s) := by
  simp only [execWr]
  repeat' split
  all_goals simp
@[simp] theorem execWrm_keepsCanonical (p : Port) (tag : BitVec 9) (s : State) : s.KeepsCanonical (execWrm p tag s) := by
  simp only [execWrm]
  repeat' split
  all_goals simp
@[simp] theorem State.larWaits_canonical (s : State) (r : Req) (counter : Fld) (q : Nat) :
    s.Keeps (s.larWaits r counter q) := .of (by simp [State.larWaits])
@[simp] theorem State.hostPath_canonical (s : State) (r : Req) (more : List LAcc) (go : State → State) (h : ∀ u : State, u.Ensures
    (go u).Canonical) :
    s.Keeps (s.hostPath r more go) := by
  refine .of ?_
  have h := fun u => State.Keeps.of (h u)
  simp only [State.hostPath]
  split
  · simp
  · split <;> simp [h]
@[simp] theorem State.enginePath_canonical (s : State) (r : Req) (t e : Nat) (use : List LAcc) (go : State → State)
    (h : ∀ u : State, u.Ensures (go u).Canonical) :
    s.Keeps (s.enginePath r t e use go) := by
  refine .of ?_
  have h := fun u => State.Keeps.of (h u)
  simp only [State.enginePath]
  split <;> simp [h]
@[simp] theorem execLrd_keepsCanonical (p : Port) (tag : BitVec 9) (met : Option (Fin 64)) (wrote : Bool) (s : State) :
    s.KeepsCanonical (execLrd p tag met wrote s) := by
  simp only [execLrd]
  repeat' split
  all_goals simp
@[simp] theorem execLwr_keepsCanonical (p : Port) (tag : BitVec 9) (met : Option (Fin 64)) (wrote : Bool) (s : State) :
    s.KeepsCanonical (execLwr p tag met wrote s) := by
  unfold execLwr
  split
  · simp
  split
  · simp
  refine (State.keepsCanonical_next _ _).2 ((State.hostPath_canonical _ _ _ _ fun u => ?_).after (by simp))
  simp
@[simp] theorem execLwrm_keepsCanonical (p : Port) (tag : BitVec 9) (met : Option (Fin 64)) (wrote : Bool) (s : State) :
    s.KeepsCanonical (execLwrm p tag met wrote s) := by
  simp only [execLwrm]
  repeat' split
  all_goals simp
@[simp] theorem execFence_keepsCanonical (p : Port) (tag : BitVec 9) (s : State) : s.KeepsCanonical (execFence p tag s) := by
  unfold execFence
  split <;> simp
@[simp] theorem execTquery_keepsCanonical (p : Port) (tag : BitVec 9) (s : State) : s.KeepsCanonical (execTquery p tag s) := by
  unfold execTquery
  split <;> simp
@[simp] theorem State.countLate_canonical (s : State) (r : Req) : s.Keeps (s.countLate r) := .of (by simp [State.countLate])
@[simp] theorem execResponseSend_keepsCanonical (p : Port) (tag : BitVec 9) (s : State) :
    s.KeepsCanonical (execResponseSend p tag s) := by
  simp only [execResponseSend]
  repeat' split
  all_goals simp

/-! ### Operations of Machine/Slots.lean -/

@[simp] theorem State.modOf_canonical (s : State) (b : Burst) (f : Req → Req) : s.Keeps (s.modOf b f) := .of (by simp [State.modOf])
@[simp] theorem State.noteBurst_canonical (s : State) (t : Nat) (u : OpenUse) : s.Keeps (s.noteBurst t u) := by
  refine .of ?_
  simp only [State.noteBurst]
  split <;> simp
@[simp] theorem State.runBurst_canonical (s : State) (t : Nat) (b : Burst) : s.Keeps (s.runBurst t b) := .of (by simp [State.runBurst])
@[simp] theorem State.runOpen_canonical (s : State) (t : Nat) (u : OpenUse) : s.Keeps (s.runOpen t u) := .of (by simp [State.runOpen])
@[simp] theorem State.openSlot_canonical (s : State) (t : Nat) (margin : Bool) : s.Keeps (s.openSlot t margin) := by
  refine .of ?_
  simp only [State.openSlot]
  repeat' split
  all_goals simp
@[simp] theorem State.setWv_canonical (s : State) (g : Nat) (v : WvGroup) : s.Keeps (s.setWv g v) := .of (by simp [State.setWv])
theorem State.wvNext_canonical {s u : State} {t : Nat} (h : s.wvNext t = some u) : s.Keeps u := by
  refine .of ?_
  simp only [State.wvNext] at h
  split at h
  · cases h
  · obtain ⟨w, -, rfl⟩ := Option.map_eq_some_iff.mp h
    simp
theorem State.refreshNow_canonical {s u : State} {t : Nat} (h : s.refreshNow t = some u) : s.Keeps u := by
  simp only [State.refreshNow] at h
  split at h
  · cases h
  split at h
  · cases h; exact .of (by simp)
  split at h
  · next hv => cases h; exact State.wvNext_canonical hv
  split at h
  · cases h
  · obtain ⟨b, -, rfl⟩ := Option.map_eq_some_iff.mp h
    exact .of (by simp)
theorem State.mitigateNow_canonical {s u : State} {t : Nat} (h : s.mitigateNow t = some u) : s.Keeps u := by
  refine .of ?_
  simp only [State.mitigateNow] at h
  split at h
  · cases h
  · cases h; simp
@[simp] theorem State.takeMaint_canonical (s : State) (t n : Nat) : s.Keeps (s.takeMaint t n) := .of (by simp [State.takeMaint])
@[simp] theorem State.remapStep_canonical (s : State) (r : RemapRun) : s.Keeps (s.remapStep r) := .of (by simp [State.remapStep])
theorem State.maintNow_canonical {s u : State} {t : Nat} (h : s.maintNow t = some u) : s.Keeps u := by
  refine .of ?_
  simp only [State.maintNow] at h
  split at h
  · cases h; simp
  split at h
  · cases h
  split at h
  · cases h; simp
  · cases h; simp
  · cases h
@[simp] theorem State.quiet_canonical (s : State) (t : Nat) : s.Keeps (s.quiet t) := .of (by simp [State.quiet])
@[simp] theorem State.setLeft_canonical (s : State) (t : Nat) (l : SlotsLeft) : s.Keeps (s.setLeft t l) := .of (by simp [State.setLeft])
@[simp] theorem State.turnSlot_canonical (s : State) (t : Nat) : s.Keeps (s.turnSlot t) := by
  refine .of ?_
  simp only [State.turnSlot]
  split
  · exact (State.canonical_getD (fun _ h => State.refreshNow_canonical h) (by simp)).after (by simp)
  split
  · exact (State.canonical_getD (fun _ h => State.mitigateNow_canonical h) (by simp)).after (by simp)
  split <;> simp
@[simp] theorem State.restSlot_canonical (s : State) (t : Nat) : s.Keeps (s.restSlot t) := by
  refine .of ?_
  simp only [State.restSlot]
  split
  · simp
  split
  · simp
  split
  · exact (State.canonical_getD (fun _ h => State.maintNow_canonical h) (by simp)).after (by simp)
  split
  · exact (State.canonical_getD (fun _ h => State.mitigateNow_canonical h) (by simp)).after (by simp)
  split
  · exact (State.canonical_getD (fun _ h => State.refreshNow_canonical h) (by simp)).after (by simp)
  · simp
@[simp] theorem State.plannedSlot_canonical (s : State) (t : Nat) (b : Burst) (rest : List Burst) :
    s.Keeps (s.plannedSlot t b rest) := .of (by simp [State.plannedSlot])
@[simp] theorem State.runSlot_canonical (s : State) (t : Nat) : s.Keeps (s.runSlot t) := by
  refine .of ?_
  simp only [State.runSlot]
  split <;> simp
@[simp] theorem State.slotsPass_canonical (s : State) : s.Keeps s.slotsPass := .of (by simp [State.slotsPass])
@[simp] theorem State.showPace_canonical (s : State) (t : Nat) : s.Keeps (s.showPace t) := .of (by simp [State.showPace])
@[simp] theorem State.planEpoch_canonical (s : State) (t : Nat) : s.Keeps (s.planEpoch t) := .of (by simp [State.planEpoch])
@[simp] theorem State.showOcc_canonical (s : State) (t : Nat) : s.Keeps (s.showOcc t) := .of (by simp [State.showOcc])
@[simp] theorem State.takeOpen_canonical (s : State) (t : Nat) : s.Keeps (s.takeOpen t) := .of (by simp [State.takeOpen])
/-! ### Operations of Machine/Counters.lean -/

@[simp] theorem State.evictLine_canonical (s : State) (t k : Nat) (l : CLine) :
    s.Keeps (s.evictLine t k l) := .of (by simp [State.evictLine])
@[simp] theorem State.cacheStep_canonical (s : State) (r : Req) (t : Nat) : s.Keeps (s.cacheStep r t).2 := by
  refine .of ?_
  simp only [State.cacheStep]
  repeat' split
  all_goals simp
@[simp] theorem State.readTarget_canonical (s : State) (r : Req) (off : Nat) (rmw : Bool) : s.Keeps (s.readTarget r off rmw).2 := by
  refine .of ?_
  unfold State.readTarget
  split <;> simp
@[simp] theorem State.writeTarget_canonical (s : State) (r : Req) (off : Nat) (data : DWord) (poison : Bool) :
    s.Keeps (s.writeTarget r off data poison) := .of (by simp [State.writeTarget])
@[simp] theorem State.countDamage_canonical (s : State) (t e : Nat) (refused : Bool) :
    s.Keeps (s.countDamage t e refused) := .of (by simp [State.countDamage])
@[simp] theorem State.setSpill_canonical (s : State) (q : Nat) (v : SpillSt) : s.Keeps (s.setSpill q v) := .of (by simp [State.setSpill])
@[simp] theorem State.spillLost_canonical (s : State) (t addr : Nat) : s.Keeps (s.spillLost t addr) := by
  refine .of ?_
  simp only [State.spillLost]
  split <;> simp
@[simp] theorem State.spill_canonical (s : State) (r : Req) (field format : Nat) : s.Keeps (s.spill r field format).2 := by
  refine .of ?_
  simp only [State.spill]
  repeat' split
  all_goals simp
@[simp] theorem State.spillAll_canonical (r : Req) (format : Nat) (fs : List Nat) (s : State) :
    s.Keeps (State.spillAll r format fs s).2 := by
  induction fs generalizing s with
  | nil => exact .of id
  | cons f fs ih => exact .of (by simp [State.spillAll, ih])
@[simp] theorem State.ringLevel_canonical (s : State) : s.Keeps s.ringLevel := .of (by simp [State.ringLevel])
@[simp] theorem State.ringPut_canonical (s : State) (x : SpillRec) : s.Keeps (s.ringPut x) := .of (by simp [State.ringPut])
@[simp] theorem execSpillRecordWrite_keepsCanonical (q : Quad) (s : State) : s.KeepsCanonical (execSpillRecordWrite q s) := by
  simp [execSpillRecordWrite]
@[simp] theorem execSpillLostMergeExpiry_keepsCanonical (q : Quad) (s : State) : s.KeepsCanonical (execSpillLostMergeExpiry q s) := by
  simp only [execSpillLostMergeExpiry]
  split <;> simp
@[simp] theorem State.cadd_canonical (s : State) (r : Req) (k format : Nat) : s.Keeps (s.cadd r k format) := by
  refine .of ?_
  simp only [State.cadd]
  repeat' split
  all_goals simp
@[simp] theorem execCadd64_keepsCanonical (p : Port) (tag : BitVec 9) (k : Fin 4) (s : State) :
    s.KeepsCanonical (execCadd64 p tag k s) := by
  unfold execCadd64
  split <;> simp
@[simp] theorem execCaddpb_keepsCanonical (p : Port) (tag : BitVec 9) (k : Fin 4) (s : State) :
    s.KeepsCanonical (execCaddpb p tag k s) := by
  unfold execCaddpb
  split <;> simp
@[simp] theorem execCaddd32_keepsCanonical (p : Port) (tag : BitVec 9) (k : Fin 4) (s : State) :
    s.KeepsCanonical (execCaddd32 p tag k s) := by
  unfold execCaddd32
  split <;> simp
@[simp] theorem State.crd_canonical (s : State) (r : Req) (k : Nat) (clear : Bool) : s.Keeps (s.crd r k clear) := by
  refine .of ?_
  unfold State.crd
  split <;> simp
@[simp] theorem execCrd_keepsCanonical (p : Port) (tag : BitVec 9) (k : Fin 4) (s : State) :
    s.KeepsCanonical (execCrd p tag k s) := by
  unfold execCrd
  split <;> simp
@[simp] theorem execCrdclr_keepsCanonical (p : Port) (tag : BitVec 9) (k : Fin 4) (s : State) :
    s.KeepsCanonical (execCrdclr p tag k s) := by
  unfold execCrdclr
  split <;> simp
@[simp] theorem execCflush_keepsCanonical (p : Port) (tag : BitVec 9) (s : State) : s.KeepsCanonical (execCflush p tag s) := by
  simp only [execCflush]
  repeat' split
  all_goals simp
@[simp] theorem execPol_keepsCanonical (p : Port) (tag : BitVec 9) (k : Fin 4) (s : State) :
    s.KeepsCanonical (execPol p tag k s) := by
  simp only [execPol]
  repeat' split
  all_goals simp

/-! ### Operations of Machine/Lookups.lean -/

@[simp] theorem State.poolTake_canonical (s : State) (r : Req) (loc : Loc) (x pool : Nat) (wr : Bool) :
    s.Keeps (s.poolTake r loc x pool wr) := .of (by simp [State.poolTake])
@[simp] theorem State.readBucket_canonical (s : State) (r : Req) (h : HashTab) (b : Nat) : s.Keeps (s.readBucket r h b).2 := by
  refine .of ?_
  simp only [State.readBucket]
  split <;> simp
@[simp] theorem State.writeEntry_canonical (s : State) (r : Req) (h : HashTab) (bucket slot : Nat) (ws : List (DWord × Bool))
    (old : List WordRead) (since : List (Nat × Nat)) :
    s.Keeps (s.writeEntry r h bucket slot ws old since) := .of (by simp [State.writeEntry])
@[simp] theorem State.lkDamage_canonical (s : State) (t : Nat) : s.Keeps (s.lkDamage t) := .of (by simp [State.lkDamage])
@[simp] theorem State.lookupSlots_canonical (s : State) (r : Req) (bs : List Bucket) :
    s.Keeps (s.lookupSlots r bs) := .of (by simp [State.lookupSlots])
@[simp] theorem State.candidates_canonical (s : State) (r : Req) : s.Keeps (s.candidates r).2 := .of (by simp [State.candidates])
@[simp] theorem State.touched_canonical (s : State) (r : Req) (bs : List Nat) : s.Keeps (s.touched r bs) := .of (by simp [State.touched])
@[simp] theorem State.deliverEntry_canonical (s : State) (e : Entry) : s.Keeps (s.deliverEntry e) := .of (by simp [State.deliverEntry])
@[simp] theorem execHlk_keepsCanonical (p : Port) (tag : BitVec 9) (s : State) : s.KeepsCanonical (execHlk p tag s) := by
  simp only [execHlk]
  repeat' split
  all_goals simp
@[simp] theorem execHdel_keepsCanonical (p : Port) (tag : BitVec 9) (s : State) : s.KeepsCanonical (execHdel p tag s) := by
  simp only [execHdel]
  repeat' split
  all_goals simp
@[simp] theorem State.findPath_canonical (r : Req) (h : HashTab) (rot n j : Nat) (b : Bucket) (path : List Move) (s : State) :
    s.Keeps (State.findPath r h rot n j b path s).2 := by
  induction n generalizing j b path s with
  | zero => exact .of id
  | succ n ih =>
    refine .of ?_
    simp only [State.findPath]
    split
    · simp
    · split <;> simp [ih]
@[simp] theorem State.writePath_canonical (r : Req) (h : HashTab) (new : List (DWord × Bool)) (path : List Move)
    (bucket slot : Nat) (old : List WordRead)
    (since : List (Nat × Nat)) (s : State) : s.Keeps (State.writePath r h new path bucket slot old since s) := by
  induction path generalizing bucket slot old since s with
  | nil => exact .of (by simp [State.writePath])
  | cons e rest ih => exact .of (by simp [State.writePath, ih])
@[simp] theorem State.place_canonical (s : State) (r : Req) (h : HashTab) (bs : List Bucket) : s.Keeps (s.place r h bs) := by
  refine .of ?_
  simp only [State.place]
  split
  · simp
  split
  · next heq => simp [State.canonical_snd heq (State.findPath_canonical _ _ _ _ _ _ _ _)]
  · next heq => simp [State.canonical_snd heq (State.findPath_canonical _ _ _ _ _ _ _ _)]
@[simp] theorem execHins_keepsCanonical (p : Port) (tag : BitVec 9) (s : State) : s.KeepsCanonical (execHins p tag s) := by
  simp only [execHins]
  repeat' split
  all_goals simp
@[simp] theorem State.walkEnd_canonical (s : State) (r : Req) (best : Option (Nat × Nat)) (corr : Bool) :
    s.Keeps (s.walkEnd r best corr) := by
  refine .of ?_
  unfold State.walkEnd
  split <;> simp
@[simp] theorem State.walkPoison_canonical (s : State) (r : Req) (best : Option (Nat × Nat)) (corr : Bool) :
    s.Keeps (s.walkPoison r best corr) := .of (by simp [State.walkPoison])
@[simp] theorem State.badNode_canonical (s : State) (t : Nat) (e : DWord) : s.Keeps (s.badNode t e) := .of (by simp [State.badNode])
@[simp] theorem State.walkStop_canonical (s : State) (r : Req) (status : Nat) (corr : Bool) :
    s.Keeps (s.walkStop r status corr) := .of (by simp [State.walkStop])
@[simp] theorem State.walkFetch_canonical (s : State) (r : Req) (t : TrieTab) (w : Walk) :
    s.Keeps (s.walkFetch r t w) := .of (by simp [State.walkFetch])
@[simp] theorem State.walkLarder_canonical (r : Req) (t : TrieTab) (key n i entry : Nat) (best : Option (Nat × Nat)) (corr : Bool)
    (s : State) : s.Keeps (State.walkLarder r t key n i entry best corr s) := by
  induction n generalizing i entry best corr s with
  | zero => exact .of (by simp [State.walkLarder])
  | succ n ih =>
    refine .of ?_
    simp only [State.walkLarder]
    split
    · simp
    split
    · simp
    · split <;> simp [ih]
@[simp] theorem execLpm_keepsCanonical (p : Port) (tag : BitVec 9) (s : State) : s.KeepsCanonical (execLpm p tag s) := by
  unfold execLpm
  split <;> simp
@[simp] theorem execWalkNodeReturn_keepsCanonical (p : Port) (tag : BitVec 9) (tie : Bool) (s : State) :
    s.KeepsCanonical (execWalkNodeReturn p tag tie s) := by
  simp only [execWalkNodeReturn]
  repeat' split
  all_goals simp
@[simp] theorem execWalkStepTimeout_keepsCanonical (p : Port) (tag : BitVec 9) (s : State) :
    s.KeepsCanonical (execWalkStepTimeout p tag s) := by
  unfold execWalkStepTimeout
  split <;> simp

/-! ### Operations of Machine/Cellar.lean -/

@[simp] theorem State.readDesc_canonical (s : State) (cfg : RegMap) (qn port : Nat) :
    s.Keeps (s.readDesc cfg qn port).2 := .of (by simp [State.readDesc])
@[simp] theorem State.writeDesc_canonical (s : State) (cfg : RegMap) (qn : Nat) (d : Desc) :
    s.Keeps (s.writeDesc cfg qn d) := .of (by simp [State.writeDesc])
@[simp] theorem State.countFree_canonical (s : State) : s.Keeps s.countFree := .of (by simp [State.countFree])
@[simp] theorem State.setCache_canonical (s : State) (q : Nat) (l : List Nat) : s.Keeps (s.setCache q l) := .of (by simp [State.setCache])
@[simp] theorem State.setFlight_canonical (s : State) (q : Nat) (l : List FreeBlock) :
    s.Keeps (s.setFlight q l) := .of (by simp [State.setFlight])
@[simp] theorem State.blockWork_canonical (s : State) (k a : Nat) (wr : Bool) :
    s.Keeps (s.blockWork k a wr) := .of (by simp [State.blockWork])
@[simp] theorem State.readBlock_canonical (s : State) (q k : Nat) : s.Keeps (s.readBlock q k).2 := .of (by simp [State.readBlock])
@[simp] theorem State.refillStart_canonical (s : State) (q : Nat) : s.Keeps (s.refillStart q) := .of (by simp [State.refillStart])
@[simp] theorem State.spillBlock_canonical (s : State) (q : Nat) : s.Keeps (s.spillBlock q) := .of (by simp [State.spillBlock])
@[simp] theorem execFreeRefillLand_keepsCanonical (q : Quad) (s : State) : s.KeepsCanonical (execFreeRefillLand q s) := by
  unfold execFreeRefillLand
  split <;> simp
@[simp] theorem execPairFree_keepsCanonical (q : Quad) (s : State) : s.KeepsCanonical (execPairFree q s) := by
  unfold execPairFree
  split <;> simp
@[simp] theorem State.pairsEnter_canonical (s : State) : s.Keeps s.pairsEnter := .of (by simp [State.pairsEnter])
@[simp] theorem State.alloc_canonical (s : State) (q : Nat) (waiting : Bool) : s.Keeps (s.alloc q waiting).2 := by
  refine .of ?_
  simp only [State.alloc]
  repeat' split
  all_goals simp
@[simp] theorem State.takePair_canonical (s : State) (q j : Nat) : s.Keeps (s.takePair q j) := .of (by simp [State.takePair])
@[simp] theorem State.logReady_canonical (s : State) : s.Keeps s.logReady := .of (by simp [State.logReady])
@[simp] theorem State.breakQueue_canonical (s : State) (qn cause ptr : Nat) :
    s.Keeps (s.breakQueue qn cause ptr) := .of (by simp [State.breakQueue])
@[simp] theorem State.breakDesc_canonical (s : State) (cfg : RegMap) (qn : Nat) (a b : WordRead) :
    s.Keeps (s.breakDesc cfg qn a b) := .of (by simp [State.breakDesc])
@[simp] theorem State.breakLink_canonical (s : State) (r : Req) (d : Desc) (ptr : Nat) :
    s.Keeps (s.breakLink r d ptr) := .of (by simp [State.breakLink])
@[simp] theorem State.celSlots_canonical (s : State) (r : Req) (x a n : Nat) (wr : Bool) :
    s.Keeps (s.celSlots r x a n wr) := .of (by simp [State.celSlots])
@[simp] theorem State.setHead_canonical (s : State) (e : HcEntry) : s.Keeps (s.setHead e) := .of (by simp [State.setHead])
@[simp] theorem State.countHeads_canonical (s : State) : s.Keeps s.countHeads := .of (by simp [State.countHeads])
@[simp] theorem State.dropHead_canonical (s : State) (qn : Nat) : s.Keeps (s.dropHead qn) := .of (by simp [State.dropHead])
@[simp] theorem State.newHead_canonical (s : State) (cfg : RegMap) (qn : Nat) :
    s.Keeps (s.newHead cfg qn) := .of (by simp [State.newHead])
@[simp] theorem execHeadCacheIdleRelease_keepsCanonical (queue : BitVec 18) (tie : Bool) (s : State) :
    s.KeepsCanonical (execHeadCacheIdleRelease queue tie s) := by
  unfold execHeadCacheIdleRelease
  split <;> simp
@[simp] theorem State.headEnq_canonical (s : State) (r : Req) (cell : Nat) (eop short : Bool) (ws : List DWord) :
    s.Keeps (s.headEnq r cell eop short ws) := by
  refine .of ?_
  unfold State.headEnq
  split <;> simp
@[simp] theorem State.enqFinish_canonical (s : State) (r : Req) (d : Desc) (cell : Nat) :
    s.Keeps (s.enqFinish r d cell) := .of (by simp [State.enqFinish])
@[simp] theorem State.enq_canonical (s : State) (r : Req) : s.Keeps (s.enq r) := by
  refine .of ?_
  simp only [State.enq]
  split
  · simp
  split
  · simp
  split
  · simp
  split
  · split
    · next heq => simp [State.canonical_snd heq (State.alloc_canonical _ _ _)]
    · next heq => simp [State.canonical_snd heq (State.alloc_canonical _ _ _)]
    · next heq =>
      have h := State.canonical_snd heq (State.alloc_canonical _ _ _)
      split <;> simp [h]
  · split <;> simp
@[simp] theorem execEnq_keepsCanonical (p : Port) (tag : BitVec 9) (s : State) : s.KeepsCanonical (execEnq p tag s) := by
  simp only [execEnq]
  repeat' split
  all_goals simp
@[simp] theorem State.cellInfo_canonical (s : State) (r : Req) (d : Desc) (c left : Nat) (entry : Bool) :
    s.Keeps (s.cellInfo r d c left entry).2 := by
  refine .of ?_
  simp only [State.cellInfo]
  repeat' split
  all_goals simp
@[simp] theorem State.readCell_canonical (s : State) (r : Req) (c : Nat) : s.Keeps (s.readCell r c).2 := .of (by simp [State.readCell])
@[simp] theorem State.readHead_canonical (s : State) (r : Req) (h : HcCell) : s.Keeps (s.readHead r h).2 := by
  refine .of ((State.canonical_foldl_snd _ _ _ fun rs u w => ?_).after (by simp))
  dsimp only
  split
  · split <;> simp
  · simp
@[simp] theorem State.refillHead_canonical (s : State) (r : Req) (d : Desc) (e : HcEntry) (left : Nat) :
    s.Keeps (s.refillHead r d e left).2 := by
  refine .of ?_
  simp only [State.refillHead]
  split
  · simp
  split
  · next heq => simp [State.canonical_snd heq (State.cellInfo_canonical _ _ _ _ _ _)]
  · next heq => simp [State.canonical_snd heq (State.cellInfo_canonical _ _ _ _ _ _)]
@[simp] theorem State.deqFinish_canonical (s : State) (r : Req) (d : Desc) (i : CellInfo) (ws : List WordRead) (cached : Bool) :
    s.Keeps (s.deqFinish r d i ws cached) := .of (by simp [State.deqFinish])
@[simp] theorem State.deq_canonical (s : State) (r : Req) : s.Keeps (s.deq r) := by
  refine .of ?_
  simp only [State.deq]
  split
  · simp
  split
  · simp
  split
  · simp
  split
  · split
    · simp
    split
    · next heq => simp [State.canonical_snd heq (State.refillHead_canonical _ _ _ _ _)]
    · next heq => simp [State.canonical_snd heq (State.refillHead_canonical _ _ _ _ _)]
  · split
    · simp
    split
    · next heq => simp [State.canonical_snd heq (State.cellInfo_canonical _ _ _ _ _ _)]
    · next heq => simp [State.canonical_snd heq (State.cellInfo_canonical _ _ _ _ _ _)]
@[simp] theorem execDeq_keepsCanonical (p : Port) (tag : BitVec 9) (s : State) : s.KeepsCanonical (execDeq p tag s) := by
  simp only [execDeq]
  repeat' split
  all_goals simp
@[simp] theorem State.qstat_canonical (s : State) (r : Req) : s.Keeps (s.qstat r) := by
  refine .of ?_
  simp only [State.qstat]
  split <;> simp
@[simp] theorem execQstat_keepsCanonical (p : Port) (tag : BitVec 9) (s : State) : s.KeepsCanonical (execQstat p tag s) := by
  simp only [execQstat]
  repeat' split
  all_goals simp
@[simp] theorem State.writeStack_canonical (s : State) (c : CelCfg) : s.Keeps (s.writeStack c) := .of (by simp [State.writeStack])
@[simp] theorem execCellarInit_keepsCanonical (s : State) : s.KeepsCanonical (execCellarInit s) := by
  unfold execCellarInit
  split <;> simp
@[simp] theorem execCellarInitDone_keepsCanonical (s : State) : s.KeepsCanonical
    (execCellarInitDone s) := by simp [execCellarInitDone]
@[simp] theorem State.askReset_canonical (s : State) (w : Word) : s.Keeps (s.askReset w) := .of (by simp [State.askReset])
@[simp] theorem State.queueReset_canonical (s : State) (qn : Nat) : s.Keeps (s.queueReset qn) := by
  refine .of ?_
  simp only [State.queueReset]
  split
  · simp
  · simp
    split <;> simp
@[simp] theorem State.countWaits_canonical (s : State) : s.Keeps s.countWaits := .of (by simp [State.countWaits])
@[simp] theorem State.cellarFlit_canonical (s : State) : s.Keeps s.cellarFlit := .of (by simp [State.cellarFlit])
/-! ### Operations of Machine/Gate.lean -/

@[simp] theorem State.chargeSlot_canonical (s : State) (p tag : Nat) (a : Slot) :
    s.Keeps (s.chargeSlot p tag a).1 := .of (by simp [State.chargeSlot])
@[simp] theorem State.chargeSlots_canonical (s : State) (p tag : Nat) (as : List Slot) (cs : List Charge) :
    s.Keeps (s.chargeSlots p tag as cs).1 := by
  induction as generalizing s cs with
  | nil => exact .of id
  | cons a as ih => exact .of (by simp [State.chargeSlots, ih])
theorem State.gateCheck_canonical {s t : State} {l : Nat} {h : Hdr} {cs : List Charge} (hg : s.gateCheck l h = .accept t cs) :
    s.Keeps t := by
  refine .of ?_
  simp only [State.gateCheck] at hg
  repeat' split at hg
  all_goals cases hg
  all_goals simp
@[simp] theorem State.decideHeader_canonical (s : State) (n pos w : Nat) : s.Keeps (s.decideHeader n pos w) := by
  refine .of ?_
  simp only [State.decideHeader]
  split
  · simp
  · next hg => simp [State.gateCheck_canonical hg]
@[simp] theorem execRequestHeader_keepsCanonical (l : Link) (s : State) : s.KeepsCanonical (execRequestHeader l s) := by
  unfold execRequestHeader
  split <;> simp
@[simp] theorem State.decideAll_canonical (s : State) (n : Nat) : s.Keeps (s.decideAll n) := .of (by simp [State.decideAll])
@[simp] theorem State.closeFrame_canonical (s : State) (n : Nat) : s.Keeps (s.closeFrame n) := .of (by simp [State.closeFrame])
@[simp] theorem State.lanesLow_canonical (s : State) (n : Nat) : s.Keeps (s.lanesLow n) := .of (by simp [State.lanesLow])
@[simp] theorem State.endFlit_canonical (s : State) (n : Nat) : s.Keeps (s.endFlit n) := .of (by simp [State.endFlit])
@[simp] theorem State.flitEnds_canonical (s : State) : s.Keeps s.flitEnds := .of (by simp [State.flitEnds])
@[simp] theorem State.flitBegins_canonical (s : State) : s.Keeps s.flitBegins := .of (by simp [State.flitBegins])
/-! ### Operations of Machine/Access.lean -/

@[simp] theorem State.readReg_canonical (s : State) (addr : Nat) : s.Keeps (s.readReg addr).2 := by
  refine .of ?_
  simp only [State.readReg]
  repeat' split
  all_goals simp
@[simp] theorem State.resetLink_canonical (s : State) (n : Nat) : s.Keeps (s.resetLink n) := .of (by simp [State.resetLink])
@[simp] theorem State.askRelease_canonical (s : State) (u : CUnit) : s.Keeps (s.askRelease u) := .of (by simp [State.askRelease])
@[simp] theorem State.askReleases_canonical (s : State) (data : Word) (unit : Nat → CUnit) :
    s.Keeps (s.askReleases data unit) := .of (by simp [State.askReleases])
@[simp] theorem State.raiseWins_canonical (s : State) (src : Nat) (l : Latch) (sent : Bool) :
    s.Keeps (s.raiseWins src l sent) := .of (by simp [State.raiseWins])
@[simp] theorem State.clearLatches_canonical (s : State) (p : Nat → Bool) :
    s.Keeps (s.clearLatches p) := .of (by simp [State.clearLatches])
@[simp] theorem State.detClear_canonical (s : State) (w : Word) : s.Keeps (s.detClear w) := .of (by simp [State.detClear])
@[simp] theorem State.setConsumer_canonical (s : State) (w : Nat) : s.Keeps (s.setConsumer w) := .of (by simp [State.setConsumer])
@[simp] theorem State.putRaw_canonical (s : State) (l : Bool) (a : Nat) (c : Codeword) : s.Keeps (s.putRaw l a c) := by
  refine .of ?_
  simp only [State.putRaw]
  repeat' split
  all_goals simp
@[simp] theorem State.dbgmem_canonical (s : State) : s.Keeps s.dbgmem := by
  refine .of ?_
  simp only [State.dbgmem]
  repeat' split
  all_goals simp
@[simp] theorem State.claim_canonical (s : State) (n path : Nat) : s.Keeps (s.claim n path) := .of (by simp [State.claim])
@[simp] theorem State.writeEffect_canonical (s : State) (path view : Nat) (h : RegHit) (data : Word) :
    s.Keeps (s.writeEffect path view h data) := by
  refine .of ?_
  unfold State.writeEffect
  split
  all_goals simp
@[simp] theorem State.storeFields_canonical (s : State) (view : Nat) (h : RegHit) (data : Word) :
    s.Keeps (s.storeFields view h data) := .of (by simp [State.storeFields])
@[simp] theorem State.writeReg_canonical (s : State) (path addr : Nat) (data : Word) : s.Keeps (s.writeReg path addr data) := by
  refine .of ?_
  unfold State.writeReg
  split <;> simp
@[simp] theorem State.accessFault_canonical (s : State) (path addr code : Nat) : s.Keeps (s.accessFault path addr code) := by
  refine .of ?_
  simp only [State.accessFault]
  repeat' split
  all_goals simp
@[simp] theorem State.doRead_canonical (s : State) (path addr : Nat) (late : Bool) : s.Keeps (s.doRead path addr late).2.2 := by
  refine .of ?_
  simp only [State.doRead]
  split <;> simp
@[simp] theorem State.doWrite_canonical (s : State) (path addr : Nat) (data : Word) (late : Bool) :
    s.Keeps (s.doWrite path addr data late).2 := by
  refine .of ?_
  simp only [State.doWrite]
  split <;> simp
@[simp] theorem State.regCommand_keepsCanonical (s : State) (path addr : Nat) (data : Word) :
    s.KeepsCanonical (s.regCommand path addr data) := by
  unfold State.regCommand
  split <;> simp

/-! ### Operations of Machine/Admission.lean -/

@[simp] theorem State.stagePort_canonical (s : State) (p : Nat) (x : PlanPort) :
    s.Keeps (s.stagePort p x) := .of (by simp [State.stagePort])
@[simp] theorem State.stagePlan_canonical (s : State) (x : Plan) : s.Keeps (s.stagePlan x) := .of (by simp [State.stagePlan])
/-! ### Operations of Machine/Figures.lean -/

@[simp] theorem State.noteShort_canonical (s : State) (t : Nat) (new : Short) : s.Keeps (s.noteShort t new) := by
  refine .of ?_
  simp only [State.noteShort]
  repeat' split
  all_goals simp
@[simp] theorem State.fixTile_canonical (s : State) (t : Nat) : s.Keeps (s.fixTile t).1 := .of (by simp [State.fixTile])
@[simp] theorem State.showScale_canonical (s : State) (p : Nat) : s.Keeps (s.showScale p) := .of (by simp [State.showScale])
@[simp] theorem State.pruneBudgets_canonical (s : State) : s.Keeps s.pruneBudgets := .of (by simp [State.pruneBudgets])
/-- The gates' counts are in no memory and no map. -/
theorem State.canonical_gate (s u : State) (g : GateSt) : s.Ensures { u with gate := g }.Canonical ↔ s.Ensures u.Canonical := Iff.rfl

@[simp] theorem State.fixFigures_canonical (s : State) : s.Keeps s.fixFigures := by
  refine .of ?_
  simp only [State.fixFigures]
  refine (State.pruneBudgets_canonical _).after
    ((State.canonical_foldl _ State.showScale _ fun u t => by simp).after ((State.canonical_gate _ _ _).2 ?_))
  refine (State.canonical_foldl_fst _ _ _ fun u f t => ?_).after s.ensures_self
  dsimp only
  split <;> simp
/-! ### Operations of Machine/Modes.lean -/

@[simp] theorem State.showGates_canonical (s : State) : s.Keeps s.showGates := .of (by simp [State.showGates])
@[simp] theorem State.endGrants_canonical (s : State) : s.Keeps s.endGrants := .of (by simp [State.endGrants])
@[simp] theorem State.setLevel_canonical (s : State) (l signer seconds : Nat) :
    s.Keeps (s.setLevel l signer seconds) := .of (by simp [State.setLevel])
@[simp] theorem State.levelToOpen_canonical (s : State) : s.Keeps s.levelToOpen := .of (by simp [State.levelToOpen])
@[simp] theorem State.showDoze_canonical (s : State) : s.Keeps s.showDoze := .of (by simp [State.showDoze])
@[simp] theorem State.enterCool_canonical (s : State) : s.Keeps s.enterCool := .of (by simp [State.enterCool])
@[simp] theorem State.leaveCool_canonical (s : State) : s.Keeps s.leaveCool := .of (by simp [State.leaveCool])
@[simp] theorem State.setMode_canonical (s : State) (new cause : Nat) : s.Keeps (s.setMode new cause) := .of (by simp [State.setMode])
@[simp] theorem State.showOversub_canonical (s : State) (v : Nat) : s.Keeps (s.showOversub v) := .of (by simp [State.showOversub])
@[simp] theorem State.retainDomains_canonical (s : State) : s.Keeps s.retainDomains := .of (by simp [State.retainDomains])
@[simp] theorem State.fallAsleep_canonical (s : State) : s.Keeps s.fallAsleep := by
  refine .of ?_
  unfold State.fallAsleep
  extract_lets s1 revert back p s2 keep s3 s4 s5 s6
  have h1 : s.Keeps s1 := .of (by simp [s1])
  have h2 : s.Keeps s2 := .of (by simp [s2, h1])
  have h5 : s.Keeps s5 := .of (by simp [s5, s4, s3, h2])
  split
  · simp [h2]
  · split
    · simp [h5]
    · simp [s6, h5]
@[simp] theorem State.setPhase_canonical (s : State) (p : Nat) : s.Keeps (s.setPhase p) := .of (by simp [State.setPhase])
@[simp] theorem State.showReady_canonical (s : State) : s.Keeps s.showReady := .of (by simp [State.showReady])
/-! ### Operations of Machine/Tick.lean -/

@[simp] theorem State.flitOver_canonical (s : State) : s.Keeps s.flitOver := .of (by simp [State.flitOver])
/-! ### Operations of Machine/Schedule.lean -/

@[simp] theorem State.showPenalties_canonical (s : State) : s.Keeps s.showPenalties := .of (by simp [State.showPenalties])
@[simp] theorem State.penalise_canonical (s : State) (t bank port : Nat) :
    s.Keeps (s.penalise t bank port) := .of (by simp [State.penalise])
@[simp] theorem execHammerTrigger_keepsCanonical (c : Channel) (bank : Fin 32) (row : BitVec 16) (s : State) :
    s.KeepsCanonical (execHammerTrigger c bank row s) := by
  simp only [execHammerTrigger]
  split <;> simp
@[simp] theorem execPenaltyExpiry_keepsCanonical (s : State) : s.KeepsCanonical (execPenaltyExpiry s) := by simp [execPenaltyExpiry]
@[simp] theorem execActBudgetPeriod_keepsCanonical (s : State) : s.KeepsCanonical
    (execActBudgetPeriod s) := by simp [execActBudgetPeriod]
@[simp] theorem execShortfallMergeExpiry_keepsCanonical (s : State) : s.KeepsCanonical (execShortfallMergeExpiry s) := by
  refine (State.keepsCanonical_next _ _).2 ((State.canonical_foldl _ _ _ fun u t => ?_).after (by simp))
  dsimp only
  repeat' split
  all_goals simp
@[simp] theorem State.reportDemand_canonical (s : State) : s.Keeps s.reportDemand := .of (by simp [State.reportDemand])
@[simp] theorem execDemandReport_keepsCanonical (s : State) : s.KeepsCanonical (execDemandReport s) := by simp [execDemandReport]
@[simp] theorem State.gatesAtBoundary_canonical
    (s : State) : s.Keeps s.gatesAtBoundary := .of (by simp [State.gatesAtBoundary])
@[simp] theorem State.tickUnlock_canonical (s : State) : s.Keeps s.tickUnlock := by
  refine .of ?_
  unfold State.tickUnlock
  split <;> simp
/-! ### Operations of Machine/Commit.lean -/

@[simp] theorem State.openSession_canonical (s : State) (path : Nat) : s.Keeps (s.openSession path) := .of (by simp [State.openSession])
@[simp] theorem State.closeSession_canonical (s : State) : s.Keeps s.closeSession := .of (by simp [State.closeSession])
theorem State.sessionFor_canonical {s u : State} {path : Nat} (h : s.sessionFor path = some u) : s.Keeps u := by
  simp only [State.sessionFor] at h
  split at h
  · cases h; exact .of (by simp)
  split at h
  · cases h; exact .of id
  · cases h
@[simp] theorem State.abortSession_canonical (s : State) : s.Keeps s.abortSession := .of (by simp [State.abortSession])
@[simp] theorem State.tryCommit_canonical (s : State) (adopt : Bool) (refs : List Word) (planId : Option Nat) :
    s.Keeps (s.tryCommit adopt refs planId).2 := by
  refine .of ?_
  simp only [State.tryCommit]
  repeat' split
  all_goals simp
@[simp] theorem State.runCommit_canonical (s : State) (n : Nat) (L : LbSt) (planId : Option Nat) :
    s.Keeps (s.runCommit n L planId) := .of (by simp [State.runCommit])
@[simp] theorem execCfgBegin_keepsCanonical (n : Lb) (s : State) : s.KeepsCanonical (execCfgBegin n s) := by simp [execCfgBegin]
@[simp] theorem execCfgCommit_keepsCanonical (n : Lb) (s : State) : s.KeepsCanonical (execCfgCommit n s) := by
  refine State.command_keepsCanonical _ _ _ _ _ fun L u => ?_
  split
  · simp
  split
  · simp
  · next hu => simp [State.sessionFor_canonical hu]
@[simp] theorem execCfgAbort_keepsCanonical (n : Lb) (s : State) : s.KeepsCanonical (execCfgAbort n s) := by
  refine State.command_keepsCanonical _ _ _ _ _ fun L u => ?_
  split <;> simp
@[simp] theorem execCfgRef_keepsCanonical (n : Lb) (s : State) : s.KeepsCanonical (execCfgRef n s) := by simp [execCfgRef]
@[simp] theorem execCfgSessionIdle_keepsCanonical (tie : Bool) (s : State) : s.KeepsCanonical (execCfgSessionIdle tie s) := by
  unfold execCfgSessionIdle
  split <;> simp
@[simp] theorem State.noteQuotas_canonical (s : State) (old : RegMap) : s.Keeps (s.noteQuotas old) := .of (by simp [State.noteQuotas])
@[simp] theorem State.powerGranules_canonical (s : State) (old : RegMap) :
    s.Keeps (s.powerGranules old) := .of (by simp [State.powerGranules])
@[simp] theorem State.mirrorPerm_canonical (s : State) (old : RegMap) : s.Keeps (s.mirrorPerm old) := .of (by simp [State.mirrorPerm])
@[simp] theorem State.afterCommit_canonical (s : State) (old : RegMap) : s.Keeps (s.afterCommit old) := .of (by simp [State.afterCommit])
@[simp] theorem State.answerCommit_canonical (s : State) : s.Keeps s.answerCommit := by
  refine State.canonical_foldl _ _ _ fun u n => ?_
  dsimp only
  repeat' split
  all_goals simp
@[simp] theorem execConfigCommitBoundary_keepsCanonical (s : State) : s.KeepsCanonical (execConfigCommitBoundary s) := by
  simp only [execConfigCommitBoundary]
  repeat' split
  all_goals simp
@[simp] theorem execCfgCrcPass_keepsCanonical (d : Fin 37) (flip : Option (BitVec 24 × Word)) (overlap : Bool) (s : State) :
    s.KeepsCanonical (execCfgCrcPass d flip overlap s) := by
  unfold execCfgCrcPass
  split <;> simp
@[simp] theorem execVoteDisagreement_keepsCanonical (field : Fin 90) (quad : Quad) (lost : Bool) (s : State) :
    s.KeepsCanonical (execVoteDisagreement field quad lost s) := by simp [execVoteDisagreement]
@[simp] theorem State.copyCounters_canonical (s : State) : s.Keeps s.copyCounters := .of (by simp [State.copyCounters])
@[simp] theorem execSnapshotTake_keepsCanonical (s : State) : s.KeepsCanonical (execSnapshotTake s) := by simp [execSnapshotTake]
@[simp] theorem execLogSnapshot_keepsCanonical (n : Lb) (s : State) : s.KeepsCanonical
    (execLogSnapshot n s) := by simp [execLogSnapshot]
@[simp] theorem execCfgSave_keepsCanonical (n : Lb) (s : State) : s.KeepsCanonical (execCfgSave n s) := by simp [execCfgSave]
@[simp] theorem State.applyRetired_canonical (s : State) : s.Keeps s.applyRetired := by
  refine .of ?_
  unfold State.applyRetired
  split <;> simp
@[simp] theorem execBootFlashConfigApply_keepsCanonical (s : State) : s.KeepsCanonical (execBootFlashConfigApply s) := by
  simp only [execBootFlashConfigApply]
  repeat' split
  all_goals simp

/-! ### Operations of Machine/Plans.lean -/

@[simp] theorem execInfoId_keepsCanonical (n : Lb) (s : State) : s.KeepsCanonical (execInfoId n s) := by simp [execInfoId]
@[simp] theorem execInfoStatus_keepsCanonical (n : Lb) (s : State) : s.KeepsCanonical (execInfoStatus n s) := by simp [execInfoStatus]
@[simp] theorem execInfoCaps_keepsCanonical (n : Lb) (s : State) : s.KeepsCanonical (execInfoCaps n s) := by simp [execInfoCaps]
@[simp] theorem execPlanLoad_keepsCanonical (n : Lb) (s : State) : s.KeepsCanonical (execPlanLoad n s) := by simp [execPlanLoad]
@[simp] theorem State.answerCheck_canonical (s : State) (n : Nat) (oversub : Bool) (fs : List Failure) :
    s.Keeps (s.answerCheck n oversub fs) := .of (by simp [State.answerCheck])
@[simp] theorem execPlanCheck_keepsCanonical (n : Lb) (s : State) : s.KeepsCanonical (execPlanCheck n s) := by
  refine State.command_keepsCanonical _ _ _ _ _ fun L u => ?_
  split <;> simp
@[simp] theorem execPlanCommit_keepsCanonical (n : Lb) (s : State) : s.KeepsCanonical (execPlanCommit n s) := by
  refine State.command_keepsCanonical _ _ _ _ _ fun L u => ?_
  dsimp only
  split
  · simp
  split
  · simp
  split
  · simp
  split
  · simp
  · next hu => simp [State.sessionFor_canonical hu]
@[simp] theorem execPlanGet_keepsCanonical (n : Lb) (s : State) : s.KeepsCanonical (execPlanGet n s) := by simp [execPlanGet]
@[simp] theorem execPortSet_keepsCanonical (n : Lb) (s : State) : s.KeepsCanonical (execPortSet n s) := by
  refine State.command_keepsCanonical _ _ _ _ _ fun L u => ?_
  split
  · simp
  split
  · simp
  · next hu => simp [State.sessionFor_canonical hu]
@[simp] theorem execPortGet_keepsCanonical (n : Lb) (s : State) : s.KeepsCanonical (execPortGet n s) := by
  refine State.command_keepsCanonical _ _ _ _ _ fun L u => ?_
  dsimp only
  split <;> simp
@[simp] theorem execPortReset_keepsCanonical (n : Lb) (s : State) : s.KeepsCanonical (execPortReset n s) := by simp [execPortReset]
@[simp] theorem State.resetPort_canonical (s : State) (r : PortReset) : s.Keeps (s.resetPort r) := .of (by simp [State.resetPort])
@[simp] theorem execPortResetCommit_keepsCanonical (s : State) : s.KeepsCanonical
    (execPortResetCommit s) := by simp [execPortResetCommit]
@[simp] theorem execZoneSet_keepsCanonical (n : Lb) (s : State) : s.KeepsCanonical (execZoneSet n s) := by
  refine State.command_keepsCanonical _ _ _ _ _ fun L u => ?_
  dsimp only
  split
  · simp
  split
  · simp
  · next hu => simp [State.sessionFor_canonical hu]
@[simp] theorem execZoneGet_keepsCanonical (n : Lb) (s : State) : s.KeepsCanonical (execZoneGet n s) := by simp [execZoneGet]

/-! ### Operations of Machine/Thermal.lean -/

@[simp] theorem State.showWv_canonical (s : State) (d : Nat) : s.Keeps (s.showWv d) := by
  refine .of ?_
  simp only [State.showWv]
  split <;> simp
@[simp] theorem execWeathervaneRead_keepsCanonical (g : Fin 32) (reading : Option (BitVec 16)) (tie : Bool) (s : State) :
    s.KeepsCanonical (execWeathervaneRead g reading tie s) := by simp [execWeathervaneRead]
@[simp] theorem execWeathervaneFreshnessExpiry_keepsCanonical (g : Fin 32) (s : State) :
    s.KeepsCanonical (execWeathervaneFreshnessExpiry g s) := by
  simp [execWeathervaneFreshnessExpiry]
@[simp] theorem execWeathervaneStale_keepsCanonical (d : Fin 16) (s : State) : s.KeepsCanonical (execWeathervaneStale d s) := by
  simp [execWeathervaneStale]
@[simp] theorem State.publishVolt_canonical (s : State) (j mv : Nat) : s.Keeps (s.publishVolt j mv) := .of (by simp [State.publishVolt])
@[simp] theorem State.publishConverters_canonical (s : State) (a b : Bool) :
    s.Keeps (s.publishConverters a b) := .of (by simp [State.publishConverters])
@[simp] theorem State.publishClips_canonical (s : State) (n : Nat) : s.Keeps (s.publishClips n) := .of (by simp [State.publishClips])
@[simp] theorem State.publishDraw_canonical (s : State) : s.Keeps s.publishDraw := .of (by simp [State.publishDraw])
@[simp] theorem State.noteDiode_canonical (s : State) (i : Nat) (j : Judged) :
    s.Keeps (s.noteDiode i j) := .of (by simp [State.noteDiode])
@[simp] theorem State.governUnit_canonical (s : State) (u : Nat) : s.Keeps (s.governUnit u) := .of (by simp [State.governUnit])
@[simp] theorem State.compensate_canonical (s : State) : s.Keeps s.compensate := .of (by simp [State.compensate])
@[simp] theorem State.publishRound_canonical (s : State) (o : RoundObs) : s.Keeps (s.publishRound o) := .of (by simp [State.publishRound])
@[simp] theorem State.judgeRound_canonical (s : State) : s.Keeps s.judgeRound := .of (by simp [State.judgeRound])
@[simp] theorem execThermalShutdown_keepsCanonical (tier : Fin 18) (s : State) : s.KeepsCanonical (execThermalShutdown tier s) := by
  simp [execThermalShutdown]
@[simp] theorem execThermGet_keepsCanonical (n : Lb) (s : State) : s.KeepsCanonical (execThermGet n s) := by simp [execThermGet]
@[simp] theorem execThermSet_keepsCanonical (n : Lb) (s : State) : s.KeepsCanonical (execThermSet n s) := by
  refine State.command_keepsCanonical _ _ _ _ _ fun L u => ?_
  dsimp only
  split
  · simp
  split
  · simp
  · next hu => simp [State.sessionFor_canonical hu]

/-! ### Operations of Machine/Calibrate.lean -/

@[simp] theorem State.recordTemp_canonical (s : State) (r d : Nat) : s.Keeps (s.recordTemp r d) := .of (by simp [State.recordTemp])
@[simp] theorem State.showCal_canonical (s : State) : s.Keeps s.showCal := by
  refine .of ?_
  simp only [State.showCal]
  split <;> simp
@[simp] theorem State.answerAsk_canonical (s : State) (job : CalJob) (outcome n : Nat) : s.Keeps (s.answerAsk job outcome n) := by
  refine .of ?_
  unfold State.answerAsk
  split <;> simp
@[simp] theorem State.calEnded_canonical (s : State) (job : CalJob) (outcome : Nat) :
    s.Keeps (s.calEnded job outcome) := .of (by simp [State.calEnded])
@[simp] theorem State.queueCal_canonical (s : State) (job : CalJob) : s.Keeps (s.queueCal job) := by
  refine .of ?_
  simp only [State.queueCal]
  split <;> simp
@[simp] theorem calNextLoop_canonical (n : Nat) (s : State) : s.Keeps (calNextLoop n s) := by
  induction n generalizing s with
  | zero => exact .of id
  | succ n ih =>
    refine .of ?_
    simp only [calNextLoop]
    split
    · split <;> simp [ih]
    · simp
@[simp] theorem State.calNext_canonical (s : State) : s.Keeps s.calNext := .of (by simp [State.calNext])
@[simp] theorem State.calFinish_canonical (s : State) (r : CalRun) (outcome : Nat) :
    s.Keeps (s.calFinish r outcome) := .of (by simp [State.calFinish])
@[simp] theorem State.calLines_canonical (s : State) (r : CalRun) : s.Keeps (s.calLines r) := .of (by simp [State.calLines])
@[simp] theorem State.setCal_canonical (s : State) (r : CalRun) : s.Keeps (s.setCal r) := .of (by simp [State.setCal])
@[simp] theorem State.calHelper_canonical (s : State) (r : CalRun) (bad : List (BitVec 8)) (trims : List TrimObs) :
    s.Keeps (s.calHelper r bad trims) := by
  refine .of ?_
  unfold State.calHelper
  split <;> simp
@[simp] theorem execCalStepDone_keepsCanonical (bad : List (BitVec 8)) (trims : List TrimObs) (s : State) :
    s.KeepsCanonical (execCalStepDone bad trims s) := by
  simp only [execCalStepDone]
  repeat' split
  all_goals simp
@[simp] theorem State.chunkTrims_canonical (s : State) (r : CalRun) (ts : List TrimObs) :
    s.Keeps (s.chunkTrims r ts) := .of (by simp [State.chunkTrims])
@[simp] theorem execReducedCalChunk_keepsCanonical (bad : List (BitVec 8)) (trims : List TrimObs) (s : State) :
    s.KeepsCanonical (execReducedCalChunk bad trims s) := by
  simp only [execReducedCalChunk]
  split <;> simp
@[simp] theorem State.abandonCal_canonical (s : State) (requeue : Bool) : s.Keeps (s.abandonCal requeue) := by
  refine .of ?_
  unfold State.abandonCal
  split <;> simp
@[simp] theorem State.calTrigger_canonical (s : State) (r d : Nat) : s.Keeps (s.calTrigger r d) := by
  refine .of ?_
  unfold State.calTrigger
  split <;> simp
@[simp] theorem State.tuneTriggers_canonical (s : State) : s.Keeps s.tuneTriggers := .of (by simp [State.tuneTriggers])
@[simp] theorem execHousekeepingRoundEnd_keepsCanonical (obs : RoundObs) (s : State) :
    s.KeepsCanonical (execHousekeepingRoundEnd obs s) := by
  simp [execHousekeepingRoundEnd]
@[simp] theorem execCalRun_keepsCanonical (n : Lb) (s : State) : s.KeepsCanonical (execCalRun n s) := by simp [execCalRun]
@[simp] theorem execCalStatus_keepsCanonical (n : Lb) (s : State) : s.KeepsCanonical (execCalStatus n s) := by simp [execCalStatus]

/-! ### Operations of Machine/Cornerstone.lean -/

@[simp] theorem State.senseStore_canonical (s : State) (f : Fuses) : s.Keeps (s.senseStore f) := .of (by simp [State.senseStore])
@[simp] theorem State.applyTrim_canonical (s : State) : s.Keeps s.applyTrim := .of (by simp [State.applyTrim])
@[simp] theorem State.applyFuseRemaps_canonical
    (s : State) : s.Keeps s.applyFuseRemaps := .of (by simp [State.applyFuseRemaps])
@[simp] theorem State.noteBurn_canonical (s : State) (b : Burn) (info : Nat) :
    s.Keeps (s.noteBurn b info) := .of (by simp [State.noteBurn])
@[simp] theorem State.burnCut_canonical (s : State) (n : Nat) : s.Keeps (s.burnCut n) := .of (by simp [State.burnCut])
@[simp] theorem execOtpRead_keepsCanonical (n : Lb) (s : State) : s.KeepsCanonical (execOtpRead n s) := by simp [execOtpRead]
@[simp] theorem execOtpBurn_keepsCanonical (n : Lb) (obs : BurnObs) (s : State) : s.KeepsCanonical (execOtpBurn n obs s) := by
  refine State.command_keepsCanonical _ _ _ _ _ fun L u => ?_
  dsimp only
  repeat' split
  all_goals simp
@[simp] theorem execOtpFinalise_keepsCanonical (n : Lb) (obs : BurnObs) (s : State) : s.KeepsCanonical (execOtpFinalise n obs s) := by
  refine State.command_keepsCanonical _ _ _ _ _ fun L u => ?_
  extract_lets r k f count d word b reject b' again c good s1
  have hr : ∀ (v : State) x, v.Keeps (reject v x) := fun v x => .of (by simp only [reject]; split <;> simp)
  split
  · simp
  split
  · simp
  split
  · simp [hr]
  split
  · simp [hr, s1]
  · simp [hr]

/-! ### Operations of Machine/Polisher.lean -/

@[simp] theorem State.logEvent_canonical (s : State) (t : Nat) (e : LogEntry) : s.Keeps (s.logEvent t e) := by
  refine .of ?_
  simp only [State.logEvent]
  split <;> simp
@[simp] theorem State.logPut_canonical (s : State) (t : Nat) (e : LogEntry) : s.Keeps (s.logPut t e) := .of (by simp [State.logPut])
@[simp] theorem execLogMove_keepsCanonical (s : State) : s.KeepsCanonical (execLogMove s) := by simp [execLogMove]
@[simp] theorem execLogRead_keepsCanonical (n : Lb) (s : State) : s.KeepsCanonical (execLogRead n s) := by simp [execLogRead]
@[simp] theorem execLogClear_keepsCanonical (n : Lb) (s : State) : s.KeepsCanonical (execLogClear n s) := by simp [execLogClear]
@[simp] theorem execRecurrenceAgeExpiry_keepsCanonical (c : Channel) (tie : Bool) (s : State) :
    s.KeepsCanonical (execRecurrenceAgeExpiry c tie s) := by
  simp [execRecurrenceAgeExpiry]
@[simp] theorem State.noteProbe_canonical (s : State) (t : Nat) (i : ErrInfo) :
    s.Keeps (s.noteProbe t i) := .of (by simp [State.noteProbe])
@[simp] theorem State.holdWord_canonical (s : State) (t : Nat) (loc : Loc) (w : Nat) : s.Keeps (s.holdWord t loc w) := by
  refine .of ?_
  simp only [State.holdWord]
  split <;> simp
@[simp] theorem execProbeStart_keepsCanonical (c : Channel) (s : State) : s.KeepsCanonical (execProbeStart c s) := by
  simp only [execProbeStart]
  split <;> simp
@[simp] theorem State.classify_canonical (s : State) (t : Nat) (key : (Nat × Nat) × (Nat × Nat)) (i : ErrInfo) (obs : List
    (Fin 8 × Bool)) : s.Keeps (s.classify t key i obs) := by
  refine .of ?_
  simp only [State.classify]
  split <;> simp
@[simp] theorem execProbeComplete_keepsCanonical (c : Channel) (obs : List (Fin 8 × Bool)) (s : State) :
    s.KeepsCanonical (execProbeComplete c obs s) := by
  simp only [execProbeComplete]
  split <;> simp
@[simp] theorem State.setPatrol_canonical (s : State) (t p : Nat) : s.Keeps (s.setPatrol t p) := .of (by simp [State.setPatrol])
@[simp] theorem State.poisonWord_canonical (s : State) (t : Nat) (loc : Loc) (w : Nat) :
    s.Keeps (s.poisonWord t loc w) := .of (by simp [State.poisonWord])
@[simp] theorem execPolisherRead_keepsCanonical (c : Channel) (s : State) : s.KeepsCanonical (execPolisherRead c s) := by
  simp [execPolisherRead]
@[simp] theorem execPolisherWriteback_keepsCanonical (c : Channel) (s : State) : s.KeepsCanonical (execPolisherWriteback c s) := by
  simp only [execPolisherWriteback]
  split
  · simp
  split
  · simp
  split
  · simp
  refine (State.keepsCanonical_next _ _).2 ((State.canonical_foldl _ _ _ fun u w => ?_).after (by simp))
  split <;> simp
@[simp] theorem execLarderScrub_keepsCanonical (q : Quad) (obs : List (Fin 8 × Bool)) (s : State) :
    s.KeepsCanonical (execLarderScrub q obs s) := by
  simp only [execLarderScrub]
  split
  · simp
  split
  · simp
  refine (State.keepsCanonical_next _ _).2 ((State.canonical_foldl _ _ _ fun u w => ?_).after (by simp))
  split <;> simp
@[simp] theorem State.logUnit_canonical (s : State) (t kind bank row : Nat) :
    s.Keeps (s.logUnit t kind bank row) := .of (by simp [State.logUnit])
@[simp] theorem State.showRetired_canonical (s : State) (t : Nat) : s.Keeps (s.showRetired t) := .of (by simp [State.showRetired])
@[simp] theorem execRetireRow_keepsCanonical (n : Lb) (s : State) : s.KeepsCanonical (execRetireRow n s) := by simp [execRetireRow]
@[simp] theorem execRetireBank_keepsCanonical (n : Lb) (s : State) : s.KeepsCanonical (execRetireBank n s) := by simp [execRetireBank]
@[simp] theorem execRetireRemap_keepsCanonical (n : Lb) (s : State) : s.KeepsCanonical (execRetireRemap n s) := by
  refine State.command_keepsCanonical _ _ _ _ _ fun L u => ?_
  dsimp only
  repeat' split
  all_goals simp

/-! ### Operations of Machine/Selftest.lean -/

@[simp] theorem State.showBst_canonical (s : State) : s.Keeps s.showBst := .of (by simp [State.showBst])
@[simp] theorem State.setRuns_canonical (s : State) (rs : List TestRun) : s.Keeps (s.setRuns rs) := .of (by simp [State.setRuns])
@[simp] theorem State.putRun_canonical (s : State) (r : TestRun) : s.Keeps (s.putRun r) := .of (by simp [State.putRun])
@[simp] theorem State.dropRun_canonical (s : State) (r : TestRun) : s.Keeps (s.dropRun r) := .of (by simp [State.dropRun])
@[simp] theorem State.keepResult_canonical (s : State) (x : TestRes) : s.Keeps (s.keepResult x) := .of (by simp [State.keepResult])
@[simp] theorem State.noteOutcome_canonical (s : State) (r : TestRun) (outcome : Nat) :
    s.Keeps (s.noteOutcome r outcome) := .of (by simp [State.noteOutcome])
@[simp] theorem State.endTest_canonical (s : State) (r : TestRun) (outcome : Nat) (keep : Bool) : s.Keeps (s.endTest r outcome keep) := by
  refine .of ?_
  simp only [State.endTest]
  split <;> simp
@[simp] theorem State.showShadow_canonical (s : State) : s.Keeps s.showShadow := .of (by simp [State.showShadow])
theorem State.takeSlots_canonical {s u : State} {q n code : Nat} (h : s.takeSlots q n code = some u) : s.Keeps u := by
  refine .of ?_
  obtain ⟨b, -, rfl⟩ := Option.map_eq_some_iff.mp h
  simp
@[simp] theorem State.freeSlots_canonical (s : State) (code : Nat) : s.Keeps (s.freeSlots code) := .of (by simp [State.freeSlots])
@[simp] theorem State.takeSlots_getD_canonical (s : State) (q n code : Nat) : s.Keeps ((s.takeSlots q n code).getD s) :=
  State.canonical_getD (fun _ h => State.takeSlots_canonical h) s.ensures_self
@[simp] theorem State.launch_canonical (s : State) (kind a b c : Nat) (lb : Option Nat) (restore whole : Bool) :
    s.Keeps (s.launch kind a b c lb restore whole) := by
  refine .of ?_
  unfold State.launch
  extract_lets s1 r s2 s3 s4 s5 s6
  have h3 : s.Keeps s3 := .of (by simp [s3, s2, s1])
  have h4 : s.Keeps s4 := .of (by simp only [s4]; split <;> simp [h3])
  have h6 : s.Keeps s6 := .of (by simp [s6, s5, h4])
  simp [h6]
@[simp] theorem State.noteFull_canonical (s : State) (kind a : Nat) : s.Keeps (s.noteFull kind a) := .of (by simp [State.noteFull])
@[simp] theorem State.startTest_canonical (s : State) (kind a b c : Nat) (lb : Option Nat) (whole : Bool) :
    s.Keeps (s.startTest kind a b c lb whole).1 := by
  refine .of ?_
  unfold State.startTest
  split <;> simp
@[simp] theorem State.noteUnjudged_canonical (s : State) (q : Nat) : s.Keeps (s.noteUnjudged q) := .of (by simp [State.noteUnjudged])
@[simp] theorem State.failEngine_canonical (s : State) (e : Nat) : s.Keeps (s.failEngine e) := .of (by simp [State.failEngine])
@[simp] theorem State.failCore_canonical (s : State) (c : Nat) : s.Keeps (s.failCore c) := .of (by simp [State.failCore])
@[simp] theorem State.barLink_canonical (s : State) (n : Nat) : s.Keeps (s.barLink n) := .of (by simp [State.barLink])
@[simp] theorem State.failUnit_canonical (s : State) (sel : Nat) : s.Keeps (s.failUnit sel) := .of (by simp [State.failUnit])
@[simp] theorem State.failServed_canonical (s : State) (sels : List Nat) : s.Keeps (s.failServed sels) := .of (by simp [State.failServed])
@[simp] theorem State.sliceEnded_canonical (s : State) (r : TestRun) (sig : Option Nat) (fails : List Nat) :
    s.Keeps (s.sliceEnded r sig fails) := .of (by simp [State.sliceEnded])
@[simp] theorem State.startupEnded_canonical (s : State) (q : Nat) (sig : Option Nat) (fails : List Nat) :
    s.Keeps (s.startupEnded q sig fails) := by
  refine .of ?_
  unfold State.startupEnded
  split <;> simp
@[simp] theorem execLogicTestDone_keepsCanonical (u : TestUnit) (sig : BitVec 64) (fails : List (Fin 185)) (tie : Bool)
    (s : State) :
    s.KeepsCanonical (execLogicTestDone u sig fails tie s) := by
  simp only [execLogicTestDone]
  repeat' split
  all_goals simp
@[simp] theorem execLogicTestTimeout_keepsCanonical (u : TestUnit) (s : State) : s.KeepsCanonical (execLogicTestTimeout u s) := by
  simp only [execLogicTestTimeout]
  repeat' split
  all_goals simp
@[simp] theorem execEngineDrainDone_keepsCanonical (e : Fin 128) (s : State) : s.KeepsCanonical (execEngineDrainDone e s) := by
  unfold execEngineDrainDone
  split <;> simp
@[simp] theorem State.riserEnded_canonical (s : State) (r : TestRun) (outcome : Nat) :
    s.Keeps (s.riserEnded r outcome) := .of (by simp [State.riserEnded])
@[simp] theorem execRiserTestStepDone_keepsCanonical (bad : List (BitVec 8)) (s : State) :
    s.KeepsCanonical (execRiserTestStepDone bad s) := by
  simp only [execRiserTestStepDone]
  split
  · simp
  split
  · simp
  · split <;> simp
@[simp] theorem State.copyToSlot_canonical (s : State) (t bank row col n : Nat) :
    s.Keeps (s.copyToSlot t bank row col n) := .of (by simp [State.copyToSlot])
@[simp] theorem State.restoreBurst_canonical (s : State) (t bank row col n : Nat) :
    s.Keeps (s.restoreBurst t bank row col n) := .of (by simp [State.restoreBurst])
@[simp] theorem State.spoilBurst_canonical (s : State) (t bank row col : Nat) :
    s.Keeps (s.spoilBurst t bank row col) := .of (by simp [State.spoilBurst])
@[simp] theorem State.probeFails_canonical (s : State) (r : TestRun) : s.Keeps (s.probeFails r) := by
  refine .of ?_
  unfold State.probeFails
  split <;> simp
@[simp] theorem State.holdRow_canonical (s : State) (r : TestRun) : s.Keeps (s.holdRow r) := .of (by simp [State.holdRow])
@[simp] theorem State.restoreStep_canonical (s : State) (r : TestRun) : s.Keeps (s.restoreStep r) := .of (by simp [State.restoreStep])
@[simp] theorem execRowTestStep_keepsCanonical (c : Channel) (differs lost : Bool) (s : State) :
    s.KeepsCanonical (execRowTestStep c differs lost s) := by
  simp only [execRowTestStep]
  repeat' split
  all_goals simp
@[simp] theorem State.copyLines_canonical (s : State) (l : Nat → LLine) (src dst : Nat → LLine) :
    s.Keeps (s.copyLines l src dst) := .of (by simp [State.copyLines])
@[simp] theorem State.copyBank_canonical (s : State) (q src dst : Nat) : s.Keeps (s.copyBank q src dst) := .of (by simp [State.copyBank])
@[simp] theorem State.parkBank_canonical (s : State) (q b n : Nat) : s.Keeps (s.parkBank q b n) := .of (by simp [State.parkBank])
@[simp] theorem State.unparkBank_canonical (s : State) (q b n : Nat) : s.Keeps (s.unparkBank q b n) := .of (by simp [State.unparkBank])
@[simp] theorem State.setSpareBank_canonical (s : State) (q : Nat) (b : Option Nat) :
    s.Keeps (s.setSpareBank q b) := .of (by simp [State.setSpareBank])
@[simp] theorem State.toStandIn_canonical (s : State) (r : TestRun) : s.Keeps (s.toStandIn r) := by
  refine .of ?_
  unfold State.toStandIn
  split <;> simp
@[simp] theorem State.fromStandIn_canonical (s : State) (r : TestRun) : s.Keeps (s.fromStandIn r) := by
  refine .of ?_
  unfold State.fromStandIn
  split <;> simp
@[simp] theorem State.holdBank_canonical (s : State) (r : TestRun) : s.Keeps (s.holdBank r) := .of (by simp [State.holdBank])
@[simp] theorem State.marchEnded_canonical (s : State) (q : Nat) (bad : List Nat) :
    s.Keeps (s.marchEnded q bad) := .of (by simp [State.marchEnded])
@[simp] theorem execLarderBankTestStep_keepsCanonical (q : Quad) (lines : List (Fin 2048)) (banks : List (Fin 129)) (s : State) :
    s.KeepsCanonical (execLarderBankTestStep q lines banks s) := by
  simp only [execLarderBankTestStep]
  repeat' split
  all_goals simp
@[simp] theorem execTestYield_keepsCanonical (u : TestUnit) (s : State) : s.KeepsCanonical (execTestYield u s) := by
  simp only [execTestYield]
  repeat' split
  all_goals simp
@[simp] theorem execYieldRetryExpiry_keepsCanonical (u : TestUnit) (delay : Bool) (s : State) :
    s.KeepsCanonical (execYieldRetryExpiry u delay s) := by
  simp only [execYieldRetryExpiry]
  repeat' split
  all_goals simp
@[simp] theorem State.returnEngine_canonical (s : State) (r : TestRun) : s.Keeps (s.returnEngine r) := .of (by simp [State.returnEngine])
@[simp] theorem State.returnRow_canonical (s : State) (r : TestRun) : s.Keeps (s.returnRow r) := .of (by simp [State.returnRow])
@[simp] theorem State.returnBank_canonical (s : State) (r : TestRun) : s.Keeps (s.returnBank r) := .of (by simp [State.returnBank])
@[simp] theorem State.releaseRow_canonical (s : State) (h : Nat × Nat × Nat) :
    s.Keeps (s.releaseRow h) := .of (by simp [State.releaseRow])
@[simp] theorem State.switchRemap_canonical (s : State) (r : RemapRun) (ok : Bool) :
    s.Keeps (s.switchRemap r ok) := .of (by simp [State.switchRemap])
@[simp] theorem State.switchPerm_canonical (s : State) (q : Nat) : s.Keeps (s.switchPerm q) := .of (by simp [State.switchPerm])
@[simp] theorem State.reloadFails_canonical (s : State) (r : TestRun) : s.Keeps (s.reloadFails r) := .of (by simp [State.reloadFails])
@[simp] theorem execUnitReturnSwitch_keepsCanonical (u : TestUnit) (ok : Bool) (bad : List (BitVec 8)) (s : State) :
    s.KeepsCanonical (execUnitReturnSwitch u ok bad s) := by
  simp only [execUnitReturnSwitch]
  repeat' split
  all_goals simp
@[simp] theorem State.noteStart_canonical (s : State) (k : Nat × Nat) (went : Bool) :
    s.Keeps (s.noteStart k went) := .of (by simp [State.noteStart])
@[simp] theorem execInfieldTestDue_keepsCanonical (u : TestUnit) (s : State) : s.KeepsCanonical (execInfieldTestDue u s) := by
  simp only [execInfieldTestDue]
  repeat' split
  all_goals simp
@[simp] theorem execTestRun_keepsCanonical (n : Lb) (s : State) : s.KeepsCanonical (execTestRun n s) := by
  refine State.command_keepsCanonical _ _ _ _ _ fun L u => ?_
  split
  · simp
  split
  · simp
  split <;> simp
@[simp] theorem execTestResult_keepsCanonical (n : Lb) (s : State) : s.KeepsCanonical (execTestResult n s) := by
  refine State.command_keepsCanonical _ _ _ _ _ fun L u => ?_
  split
  · simp
  split <;> simp
@[simp] theorem execTestSchedule_keepsCanonical (n : Lb) (s : State) : s.KeepsCanonical (execTestSchedule n s) := by
  refine State.command_keepsCanonical _ _ _ _ _ fun L u => ?_
  split
  · simp
  split
  · simp
  · next hu => simp [State.sessionFor_canonical hu]
@[simp] theorem execRetireRestore_keepsCanonical (n : Lb) (s : State) : s.KeepsCanonical (execRetireRestore n s) := by
  refine State.command_keepsCanonical _ _ _ _ _ fun L u => ?_
  dsimp only
  repeat' split
  all_goals simp
@[simp] theorem State.abandonTest_canonical (s : State) (r : TestRun) : s.Keeps (s.abandonTest r) := .of (by simp [State.abandonTest])
@[simp] theorem State.abandonTests_canonical (s : State) : s.Keeps s.abandonTests := .of (by simp [State.abandonTests])
@[simp] theorem State.displace_canonical (s : State) : s.Keeps (s.displace).1 := by
  refine .of ?_
  simp only [State.displace]
  split <;> simp
@[simp] theorem execSpareRiserMove_keepsCanonical (c : Channel) (s : State) : s.KeepsCanonical (execSpareRiserMove c s) := by
  unfold execSpareRiserMove
  split <;> simp

/-! ### Operations of Machine/Strongroom.lean -/

@[simp] theorem State.showMeas_canonical (s : State) : s.Keeps s.showMeas := .of (by simp [State.showMeas])
@[simp] theorem State.rejectImage_canonical (s : State) (code : Nat) : s.Keeps (s.rejectImage code) := .of (by simp [State.rejectImage])
@[simp] theorem State.copyStores_canonical (s : State) (slot lo hi : Nat) :
    s.Keeps (s.copyStores slot lo hi) := .of (by simp [State.copyStores])
@[simp] theorem State.fwState_canonical (s : State) (event code : Nat) : s.Keeps (s.fwState event code) := .of (by simp [State.fwState])
@[simp] theorem State.deriveIdentity_canonical (s : State) : s.Keeps s.deriveIdentity := .of (by simp [State.deriveIdentity])
@[simp] theorem State.startTrust_canonical (s : State) : s.Keeps s.startTrust := .of (by simp [State.startTrust])
@[simp] theorem State.coldSense_canonical (s : State) (fuses : List (Fin 2048 × Word × Word × Word)) :
    s.Keeps (s.coldSense fuses) := .of (by simp [State.coldSense])
@[simp] theorem State.runImage_canonical (s : State) (slot : Nat) : s.Keeps (s.runImage slot) := .of (by simp [State.runImage])
@[simp] theorem State.strongScan_canonical (s : State) (sig : Option (BitVec 64)) : s.Keeps (s.strongScan sig).2 := by
  refine .of ?_
  simp only [State.strongScan]
  repeat' split
  all_goals simp
@[simp] theorem State.trySlots_canonical (ks : List Nat) (s : State) : s.Keeps (State.trySlots ks s).2.2 := by
  induction ks generalizing s with
  | nil => exact .of id
  | cons k ks ih =>
    refine .of ?_
    simp only [State.trySlots]
    split <;> simp [ih]
@[simp] theorem execStrongroomBoot_keepsCanonical (fuses : List (Fin 2048 × Word × Word × Word)) (sig : Option (BitVec 64))
    (s : State) :
    s.KeepsCanonical (execStrongroomBoot fuses sig s) := by
  simp [execStrongroomBoot]
  repeat' split
  all_goals simp_all
@[simp] theorem execSecAttest_keepsCanonical (n : Lb) (s : State) : s.KeepsCanonical (execSecAttest n s) := by
  refine State.command_keepsCanonical _ _ _ _ _ fun L u => ?_
  dsimp only
  repeat' split
  all_goals simp
@[simp] theorem State.dropNonce_canonical (s : State) : s.Keeps s.dropNonce := .of (by simp [State.dropNonce])
@[simp] theorem execSecChallenge_keepsCanonical (n : Lb) (s : State) : s.KeepsCanonical
    (execSecChallenge n s) := by simp [execSecChallenge]
@[simp] theorem execNonceLapse_keepsCanonical (s : State) : s.KeepsCanonical (execNonceLapse s) := by
  unfold execNonceLapse
  split <;> simp
@[simp] theorem State.signFailed_canonical (s : State) (by_ : Signer) : s.Keeps (s.signFailed by_) := .of (by simp [State.signFailed])
@[simp] theorem execSecUnlock_keepsCanonical (n : Lb) (tie : Bool) (s : State) : s.KeepsCanonical (execSecUnlock n tie s) := by
  refine State.command_keepsCanonical _ _ _ _ _ fun L u => ?_
  dsimp only
  repeat' split
  all_goals simp
@[simp] theorem execUnlockExpiry_keepsCanonical (s : State) : s.KeepsCanonical (execUnlockExpiry s) := by
  unfold execUnlockExpiry
  split <;> simp
@[simp] theorem State.burnMove_canonical (s : State) (n dst : Nat) (obs : BurnObs) :
    s.Keeps (s.burnMove n dst obs) := .of (by simp [State.burnMove])
@[simp] theorem execSecLifecycleMove_keepsCanonical (n : Lb) (obs : BurnObs) (tie : Bool) (s : State) :
    s.KeepsCanonical (execSecLifecycleMove n obs tie s) := by
  refine State.command_keepsCanonical _ _ _ _ _ fun L u => ?_
  dsimp only
  repeat' split
  all_goals simp
@[simp] theorem execLifecycleEffect_keepsCanonical (s : State) : s.KeepsCanonical (execLifecycleEffect s) := by
  simp only [execLifecycleEffect]
  split
  · simp
  · simp
@[simp] theorem State.restartBut_canonical (s : State) (n c : Nat) : s.Keeps (s.restartBut n c) := .of (by simp [State.restartBut])
@[simp] theorem execReturnedWipeDone_keepsCanonical (s : State) : s.KeepsCanonical (execReturnedWipeDone s) := by
  unfold execReturnedWipeDone
  split <;> simp
@[simp] theorem execSecLifecycleRevoke_keepsCanonical (n : Lb) (obs : BurnObs) (tie : Bool) (s : State) :
    s.KeepsCanonical (execSecLifecycleRevoke n obs tie s) := by
  refine State.command_keepsCanonical _ _ _ _ _ fun L u => ?_
  dsimp only
  repeat' split
  all_goals simp
@[simp] theorem execSecWdKick_keepsCanonical (c : Quad) (tie : Bool) (s : State) : s.KeepsCanonical (execSecWdKick c tie s) := by
  simp [execSecWdKick]
@[simp] theorem State.checkStore_canonical (s : State) : s.Keeps s.checkStore := .of (by simp [State.checkStore])
@[simp] theorem execParlourWatchdogExpiry_keepsCanonical (c : Quad) (upsets : List (BitVec 21 × BitVec 8)) (s : State) :
    s.KeepsCanonical (execParlourWatchdogExpiry c upsets s) := by simp [execParlourWatchdogExpiry]
@[simp] theorem execStrongroomWatchdogExpiry_keepsCanonical (kick : Bool) (s : State) :
    s.KeepsCanonical (execStrongroomWatchdogExpiry kick s) := by
  simp [execStrongroomWatchdogExpiry]
@[simp] theorem State.programSlot_canonical (s : State) (have_ : Tab Nat) (off : Nat) (bs : List Byte) :
    s.Keeps (s.programSlot have_ off bs) := .of (by simp [State.programSlot])
@[simp] theorem execFwLoad_keepsCanonical (n : Lb) (s : State) : s.KeepsCanonical (execFwLoad n s) := by simp [execFwLoad]
@[simp] theorem State.rollOver_canonical (s : State) (n slot : Nat) (late : Bool) :
    s.Keeps (s.rollOver n slot late) := .of (by simp [State.rollOver])
@[simp] theorem execFwActivateTry_keepsCanonical (n : Lb) (s : State) : s.KeepsCanonical
    (execFwActivateTry n s) := by simp [execFwActivateTry]
@[simp] theorem execFwActivateCommit_keepsCanonical (n : Lb) (obs : BurnObs) (s : State) :
    s.KeepsCanonical (execFwActivateCommit n obs s) := by
  refine State.command_keepsCanonical _ _ _ _ _ fun L u => ?_
  dsimp only
  repeat' split
  all_goals simp
@[simp] theorem execFwActivateRevert_keepsCanonical (n : Lb) (s : State) : s.KeepsCanonical (execFwActivateRevert n s) := by
  simp [execFwActivateRevert]
@[simp] theorem execFwStatus_keepsCanonical (n : Lb) (s : State) : s.KeepsCanonical (execFwStatus n s) := by simp [execFwStatus]

/-! ### Operations of Machine/Power.lean -/

@[simp] theorem execModeGet_keepsCanonical (n : Lb) (s : State) : s.KeepsCanonical (execModeGet n s) := by simp [execModeGet]
@[simp] theorem State.planChange_canonical (s : State) (c : ModeChange) : s.Keeps (s.planChange c) := .of (by simp [State.planChange])
@[simp] theorem execModeSet_keepsCanonical (n : Lb) (s : State) : s.KeepsCanonical (execModeSet n s) := by simp [execModeSet]
@[simp] theorem State.startDrain_canonical (s : State) (b n : Nat) : s.Keeps (s.startDrain b n) := .of (by simp [State.startDrain])
@[simp] theorem execModeChangeBoundary_keepsCanonical (s : State) : s.KeepsCanonical (execModeChangeBoundary s) := by
  simp only [execModeChangeBoundary]
  repeat' split
  all_goals simp
@[simp] theorem State.forcePark_canonical (s : State) (n : Nat) : s.Keeps (s.forcePark n) := .of (by simp [State.forcePark])
@[simp] theorem execCoolPark_keepsCanonical (l : Link) (s : State) : s.KeepsCanonical (execCoolPark l s) := by simp [execCoolPark]
@[simp] theorem execCoolParkTimeout_keepsCanonical (l : Link) (s : State) : s.KeepsCanonical (execCoolParkTimeout l s) := by
  simp [execCoolParkTimeout]
@[simp] theorem State.flushSpill_canonical (s : State) (q : Nat) : s.Keeps (s.flushSpill q) := .of (by simp [State.flushSpill])
@[simp] theorem execRetentionDrainDone_keepsCanonical (tie : Bool) (s : State) : s.KeepsCanonical (execRetentionDrainDone tie s) := by
  unfold execRetentionDrainDone
  split <;> simp
@[simp] theorem execRetentionDrainTimeout_keepsCanonical (s : State) : s.KeepsCanonical (execRetentionDrainTimeout s) := by
  unfold execRetentionDrainTimeout
  split <;> simp
@[simp] theorem State.exitRiser_canonical (s : State) (r : Nat) : s.Keeps (s.exitRiser r) := .of (by simp [State.exitRiser])
@[simp] theorem State.takePointers_canonical (s : State) (t : Nat) : s.Keeps (s.takePointers t) := .of (by simp [State.takePointers])
@[simp] theorem State.zeroGranules_canonical (s : State) : s.Keeps s.zeroGranules := .of (by simp [State.zeroGranules])
@[simp] theorem execBrownOut_keepsCanonical (rail : Fin 6) (s : State) : s.KeepsCanonical
    (execBrownOut rail s) := by simp [execBrownOut]
@[simp] theorem State.failDomain_canonical (s : State) (d : Nat) : s.Keeps (s.failDomain d) := .of (by simp [State.failDomain])
@[simp] theorem execDomainFault_keepsCanonical (d : Fin 96) (s : State) : s.KeepsCanonical
    (execDomainFault d s) := by simp [execDomainFault]
@[simp] theorem State.startTraining_canonical (s : State) : s.Keeps s.startTraining := .of (by simp [State.startTraining])
@[simp] theorem State.enterLinks_canonical (s : State) : s.Keeps s.enterLinks := .of (by simp [State.enterLinks])
@[simp] theorem execBootPhaseAdvance_keepsCanonical (fuses : List (Fin 2048 × Word × Word × Word)) (s : State) :
    s.KeepsCanonical (execBootPhaseAdvance fuses s) := by
  simp only [execBootPhaseAdvance]
  repeat' split
  all_goals simp
@[simp] theorem execBootTimeout_keepsCanonical (s : State) : s.KeepsCanonical (execBootTimeout s) := by simp [execBootTimeout]
@[simp] theorem State.keepFaults_canonical (s old : State) : s.Keeps (s.keepFaults old) := .of (by simp [State.keepFaults])
/-- What a warm reset keeps of the registers is a map built up from the empty one. -/
theorem warmLive_canonical (s : State) (held : List Nat) (m : RegMap) : s.Ensures (Tab.wf regReset (warmLive held m)) :=
  (RegMap.canonical_foldl s m _ [] fun r e h => RegMap.wf_put r _ _ h).2 (.inl (RegMap.canonical_nil s))
@[simp] theorem State.warm_canonical (s : State) : s.Keeps s.warm := .of (by simp [State.warm, warmLive_canonical])
@[simp] theorem execWarmReset_keepsCanonical (s : State) : s.KeepsCanonical (execWarmReset s) := by simp [execWarmReset]
@[simp] theorem execWarmResetRelease_keepsCanonical (s : State) : s.KeepsCanonical
    (execWarmResetRelease s) := by simp [execWarmResetRelease]

/-! ### Operations of Machine/RegRows.lean -/

@[simp] theorem execRegwr_keepsCanonical (l : Link) (late : Bool) (s : State) : s.KeepsCanonical (execRegwr l late s) := by
  simp only [execRegwr]
  repeat' split
  all_goals simp
@[simp] theorem execRegrd_keepsCanonical (l : Link) (late : Bool) (s : State) : s.KeepsCanonical (execRegrd l late s) := by
  simp only [execRegrd]
  repeat' split
  all_goals simp
@[simp] theorem execSbStatus_keepsCanonical (s : State) : s.KeepsCanonical (execSbStatus s) := by simp [execSbStatus]
@[simp] theorem execSbRead_keepsCanonical (addr : BitVec 24) (late : Bool) (s : State) :
    s.KeepsCanonical (execSbRead addr late s) := by
  simp [execSbRead]
@[simp] theorem execSbWrite_keepsCanonical (addr : BitVec 24) (data : Word) (late : Bool) (s : State) :
    s.KeepsCanonical (execSbWrite addr data late s) := by
  simp only [execSbWrite]
  repeat' split
  all_goals simp
@[simp] theorem execSbUnknownOpcode_keepsCanonical (_op : BitVec 8) (s : State) : s.KeepsCanonical (execSbUnknownOpcode _op s) := by
  simp [execSbUnknownOpcode]
@[simp] theorem execSbCsRise_keepsCanonical (received : Option (BitVec 24 × Word)) (late : Bool) (s : State) :
    s.KeepsCanonical (execSbCsRise received late s) := by
  unfold execSbCsRise
  repeat' split
  all_goals simp
@[simp] theorem execMbxClaimTimeout_keepsCanonical (n : Lb) (tie : Bool) (s : State) :
    s.KeepsCanonical (execMbxClaimTimeout n tie s) := by
  simp [execMbxClaimTimeout]
@[simp] theorem execMbxDeadlineExpiry_keepsCanonical (n : Lb) (tie : Bool) (s : State) :
    s.KeepsCanonical (execMbxDeadlineExpiry n tie s) := by
  simp [execMbxDeadlineExpiry]
@[simp] theorem execRegisterWrite_keepsCanonical (path : Path) (addr : BitVec 24) (data : Word) (late : Bool) (s : State) :
    s.KeepsCanonical (execRegisterWrite path addr data late s) := by
  unfold execRegisterWrite
  repeat' split
  all_goals simp
@[simp] theorem execEngEpochLoRead_keepsCanonical (t : Tile) (path : Path) (s : State) :
    s.KeepsCanonical (execEngEpochLoRead t path s) := by
  simp [execEngEpochLoRead]
@[simp] theorem execLnkRetrain_keepsCanonical (l : Link) (path : Path) (data : Word) (s : State) :
    s.KeepsCanonical (execLnkRetrain l path data s) := by
  simp [execLnkRetrain]
@[simp] theorem execLnkHoldDown_keepsCanonical (l : Link) (path : Path) (data : Word) (s : State) :
    s.KeepsCanonical (execLnkHoldDown l path data s) := by
  simp [execLnkHoldDown]
@[simp] theorem execLnkRepairReq_keepsCanonical (l : Link) (path : Path) (data : Word) (s : State) :
    s.KeepsCanonical (execLnkRepairReq l path data s) := by
  simp [execLnkRepairReq]
@[simp] theorem execLnkCntClear_keepsCanonical (l : Link) (path : Path) (data : Word) (s : State) :
    s.KeepsCanonical (execLnkCntClear l path data s) := by
  simp [execLnkCntClear]
@[simp] theorem execLnkLaneErrClear_keepsCanonical (l : Link) (path : Path) (data : Word) (s : State) :
    s.KeepsCanonical (execLnkLaneErrClear l path data s) := by simp [execLnkLaneErrClear]
@[simp] theorem execLnkEvtLostClear_keepsCanonical (path : Path) (data : Word) (s : State) :
    s.KeepsCanonical (execLnkEvtLostClear path data s) := by
  simp [execLnkEvtLostClear]
@[simp] theorem execMbxBufWrite_keepsCanonical (n : Lb) (i : Fin 64) (path : Path) (data : Word) (s : State) :
    s.KeepsCanonical (execMbxBufWrite n i path data s) := by simp [execMbxBufWrite]
@[simp] theorem execMbxDoorbell_keepsCanonical (n : Lb) (path : Path) (data : Word) (s : State) :
    s.KeepsCanonical (execMbxDoorbell n path data s) := by
  simp [execMbxDoorbell]
@[simp] theorem execMbxAbort_keepsCanonical (n : Lb) (path : Path) (data : Word) (s : State) :
    s.KeepsCanonical (execMbxAbort n path data s) := by
  simp [execMbxAbort]
@[simp] theorem execMbxRelease_keepsCanonical (n : Lb) (path : Path) (data : Word) (s : State) :
    s.KeepsCanonical (execMbxRelease n path data s) := by
  simp [execMbxRelease]
@[simp] theorem execSnapshotRequest_keepsCanonical (path : Path) (data : Word) (s : State) :
    s.KeepsCanonical (execSnapshotRequest path data s) := by
  simp [execSnapshotRequest]
@[simp] theorem execPrtCntClear_keepsCanonical (p : Port) (path : Path) (data : Word) (s : State) :
    s.KeepsCanonical (execPrtCntClear p path data s) := by
  simp [execPrtCntClear]
@[simp] theorem execSchPoolOverClear_keepsCanonical (t : Tile) (path : Path) (data : Word) (s : State) :
    s.KeepsCanonical (execSchPoolOverClear t path data s) := by simp [execSchPoolOverClear]
@[simp] theorem execSchCntClear_keepsCanonical (t : Tile) (path : Path) (data : Word) (s : State) :
    s.KeepsCanonical (execSchCntClear t path data s) := by
  simp [execSchCntClear]
@[simp] theorem execEngRingConsWr_keepsCanonical (path : Path) (data : Word) (s : State) :
    s.KeepsCanonical (execEngRingConsWr path data s) := by
  simp [execEngRingConsWr]
@[simp] theorem execEngCntClear_keepsCanonical (t : Tile) (path : Path) (data : Word) (s : State) :
    s.KeepsCanonical (execEngCntClear t path data s) := by
  simp [execEngCntClear]
@[simp] theorem execEngLkCntClear_keepsCanonical (t : Tile) (path : Path) (data : Word) (s : State) :
    s.KeepsCanonical (execEngLkCntClear t path data s) := by simp [execEngLkCntClear]
@[simp] theorem execCelQreset_keepsCanonical (path : Path) (data : Word) (s : State) :
    s.KeepsCanonical (execCelQreset path data s) := by
  simp [execCelQreset]
@[simp] theorem execCelCntClear_keepsCanonical (path : Path) (data : Word) (s : State) :
    s.KeepsCanonical (execCelCntClear path data s) := by
  simp [execCelCntClear]
@[simp] theorem execLarCntClear_keepsCanonical (q : Quad) (path : Path) (data : Word) (s : State) :
    s.KeepsCanonical (execLarCntClear q path data s) := by
  simp [execLarCntClear]
@[simp] theorem execLarConfClear_keepsCanonical (q : Quad) (path : Path) (data : Word) (s : State) :
    s.KeepsCanonical (execLarConfClear q path data s) := by
  simp [execLarConfClear]
@[simp] theorem execEccInjArm_keepsCanonical (path : Path) (data : Word) (s : State) :
    s.KeepsCanonical (execEccInjArm path data s) := by
  simp [execEccInjArm]
@[simp] theorem execEccCntClear_keepsCanonical (c : Channel) (path : Path) (data : Word) (s : State) :
    s.KeepsCanonical (execEccCntClear c path data s) := by simp [execEccCntClear]
@[simp] theorem execVrtRepairReq_keepsCanonical (r : Tile) (path : Path) (data : Word) (s : State) :
    s.KeepsCanonical (execVrtRepairReq r path data s) := by
  simp [execVrtRepairReq]
@[simp] theorem execVrtCntClear_keepsCanonical (r : Tile) (path : Path) (data : Word) (s : State) :
    s.KeepsCanonical (execVrtCntClear r path data s) := by
  simp [execVrtCntClear]
@[simp] theorem execClkCntClear_keepsCanonical (path : Path) (data : Word) (s : State) :
    s.KeepsCanonical (execClkCntClear path data s) := by
  simp [execClkCntClear]
@[simp] theorem execHkpCntClear_keepsCanonical (path : Path) (data : Word) (s : State) :
    s.KeepsCanonical (execHkpCntClear path data s) := by
  simp [execHkpCntClear]
@[simp] theorem execThmCntClear_keepsCanonical (path : Path) (data : Word) (s : State) :
    s.KeepsCanonical (execThmCntClear path data s) := by
  simp [execThmCntClear]
@[simp] theorem execBstCntClear_keepsCanonical (path : Path) (data : Word) (s : State) :
    s.KeepsCanonical (execBstCntClear path data s) := by
  simp [execBstCntClear]
@[simp] theorem execContainRelease_keepsCanonical (reg : ContainReg) (path : Path) (data : Word) (s : State) :
    s.KeepsCanonical (execContainRelease reg path data s) := by simp [execContainRelease]
@[simp] theorem execFltDetClr_keepsCanonical (path : Path) (data : Word) (s : State) :
    s.KeepsCanonical (execFltDetClr path data s) := by
  simp [execFltDetClr]
@[simp] theorem execFltCntClear_keepsCanonical (path : Path) (data : Word) (s : State) :
    s.KeepsCanonical (execFltCntClear path data s) := by
  simp [execFltCntClear]
@[simp] theorem execCstCntClear_keepsCanonical (path : Path) (data : Word) (s : State) :
    s.KeepsCanonical (execCstCntClear path data s) := by
  simp [execCstCntClear]
@[simp] theorem execSecDbghalt_keepsCanonical (path : Path) (data : Word) (s : State) :
    s.KeepsCanonical (execSecDbghalt path data s) := by
  simp [execSecDbghalt]
@[simp] theorem execSecDbgmemAccess_keepsCanonical (path : Path) (data : Word) (s : State) :
    s.KeepsCanonical (execSecDbgmemAccess path data s) := by
  simp [execSecDbgmemAccess]
@[simp] theorem execSecCntClear_keepsCanonical (path : Path) (data : Word) (s : State) :
    s.KeepsCanonical (execSecCntClear path data s) := by
  simp [execSecCntClear]
@[simp] theorem execPwrWake_keepsCanonical (path : Path) (data : Word) (s : State) : s.KeepsCanonical (execPwrWake path data s) := by
  simp [execPwrWake]
@[simp] theorem execLinkReset_keepsCanonical (path : Path) (data : Word) (s : State) :
    s.KeepsCanonical (execLinkReset path data s) := by
  simp [execLinkReset]
@[simp] theorem execPwrCntClear_keepsCanonical (path : Path) (data : Word) (s : State) :
    s.KeepsCanonical (execPwrCntClear path data s) := by
  simp [execPwrCntClear]

/-! ### Operations of Machine/Tap.lean -/

@[simp] theorem State.modTap_canonical (s : State) (f : TapSt → TapSt) : s.Keeps (s.modTap f) := .of (by simp [State.modTap])
@[simp] theorem State.tapRun_keepsCanonical (s : State) (code : Nat) (f : State → State) (h : ∀ u : State, u.Ensures (f u).Canonical) :
    s.KeepsCanonical (s.tapRun code f) := by
  have h := fun u => State.Keeps.of (h u)
  simp [State.tapRun, h]
@[simp] theorem execIdcode_keepsCanonical (s : State) : s.KeepsCanonical (execIdcode s) := by simp [execIdcode]
@[simp] theorem execSamplePreload_keepsCanonical (pins data : BitVec 2452) (s : State) :
    s.KeepsCanonical (execSamplePreload pins data s) := by
  simp [execSamplePreload]
@[simp] theorem execExtest_keepsCanonical (pins data : BitVec 2452) (s : State) : s.KeepsCanonical (execExtest pins data s) := by
  simp [execExtest]
@[simp] theorem execClamp_keepsCanonical (s : State) : s.KeepsCanonical (execClamp s) := by simp [execClamp]
@[simp] theorem execHighz_keepsCanonical (s : State) : s.KeepsCanonical (execHighz s) := by simp [execHighz]
@[simp] theorem execBypass_keepsCanonical (s : State) : s.KeepsCanonical (execBypass s) := by simp [execBypass]
@[simp] theorem execTierSel_keepsCanonical (sel : BitVec 18) (s : State) : s.KeepsCanonical
    (execTierSel sel s) := by simp [execTierSel]
@[simp] theorem State.setDieIr_canonical (s : State) (k code : Nat) : s.Keeps (s.setDieIr k code) := .of (by simp [State.setDieIr])
@[simp] theorem execTierScan_keepsCanonical (codes : List (Fin 18 × BitVec 4)) (s : State) :
    s.KeepsCanonical (execTierScan codes s) := by
  simp [execTierScan]
@[simp] theorem State.dieRun_keepsCanonical (s : State) (tier code : Nat) (served : Bool) (f : State → State)
    (h : ∀ u : State, u.Ensures (f u).Canonical) :
    s.KeepsCanonical (s.dieRun tier code served f) := by
  have h := fun u => State.Keeps.of (h u)
  refine State.tapRun_keepsCanonical _ _ _ fun u => ?_
  simp [h]
@[simp] theorem execDieIdcode_keepsCanonical (tier : Fin 18) (s : State) : s.KeepsCanonical
    (execDieIdcode tier s) := by simp [execDieIdcode]
@[simp] theorem execDwrSample_keepsCanonical (tier : Fin 18) (lines : BitVec 6864) (s : State) :
    s.KeepsCanonical (execDwrSample tier lines s) := by
  simp [execDwrSample]
@[simp] theorem execDwrExtest_keepsCanonical (tier : Fin 18) (lines data : BitVec 6864) (s : State) :
    s.KeepsCanonical (execDwrExtest tier lines data s) := by simp [execDwrExtest]
@[simp] theorem execDieReg_keepsCanonical (tier : Fin 18) (write : Bool) (addr : BitVec 23) (data : Word) (late : Bool)
    (s : State) :
    s.KeepsCanonical (execDieReg tier write addr data late s) := by
  simp only [execDieReg]
  repeat' split
  all_goals simp
@[simp] theorem execDieBypass_keepsCanonical (tier : Fin 18) (s : State) : s.KeepsCanonical
    (execDieBypass tier s) := by simp [execDieBypass]
@[simp] theorem execCoreSel_keepsCanonical (sel : BitVec 8) (s : State) : s.KeepsCanonical
    (execCoreSel sel s) := by simp [execCoreSel]
@[simp] theorem State.loadWir_canonical (s : State) (code : Nat) : s.Keeps (s.loadWir code) := .of (by simp [State.loadWir])
@[simp] theorem State.scanWdr_canonical (s : State) (pins data : Nat) : s.Keeps (s.scanWdr pins data) := by
  refine .of ?_
  simp only [State.scanWdr]
  repeat' split
  all_goals simp
@[simp] theorem execWirScan_keepsCanonical (code : BitVec 3) (s : State) : s.KeepsCanonical
    (execWirScan code s) := by simp [execWirScan]
@[simp] theorem execWdrScan_keepsCanonical (pins data : Nat) (s : State) : s.KeepsCanonical
    (execWdrScan pins data s) := by simp [execWdrScan]
@[simp] theorem State.wsRun_keepsCanonical (s : State) (code pins data : Nat) : s.KeepsCanonical (s.wsRun code pins data) := by
  simp [State.wsRun]
@[simp] theorem execWsBypass_keepsCanonical (s : State) : s.KeepsCanonical (execWsBypass s) := by simp [execWsBypass]
@[simp] theorem execWsExtest_keepsCanonical (pins data : Nat) (s : State) : s.KeepsCanonical (execWsExtest pins data s) := by
  simp [execWsExtest]
@[simp] theorem execWsIntest_keepsCanonical (pins data : Nat) (s : State) : s.KeepsCanonical (execWsIntest pins data s) := by
  simp [execWsIntest]
@[simp] theorem execWsPreload_keepsCanonical (pins data : Nat) (s : State) : s.KeepsCanonical (execWsPreload pins data s) := by
  simp [execWsPreload]
@[simp] theorem execWsLbist_keepsCanonical (s : State) : s.KeepsCanonical (execWsLbist s) := by simp [execWsLbist]
@[simp] theorem execWsClamp_keepsCanonical (pins data : Nat) (s : State) : s.KeepsCanonical
    (execWsClamp pins data s) := by simp [execWsClamp]
@[simp] theorem State.tapAccess_canonical (s : State) (write : Bool) (addr : Nat) (data : Word) (late : Bool) :
    s.Keeps (s.tapAccess write addr data late) := .of (by simp [State.tapAccess])
@[simp] theorem execRegAccess_keepsCanonical (write : Bool) (addr : BitVec 24) (data : Word) (late : Bool) (s : State) :
    s.KeepsCanonical (execRegAccess write addr data late s) := by
  simp only [execRegAccess]
  repeat' split
  all_goals simp
@[simp] theorem State.secAccess_canonical (s : State) (write : Bool) (addr : Nat) (data : Word) (late : Bool) :
    s.Keeps (s.secAccess write addr data late) := .of (by simp [State.secAccess])
@[simp] theorem execSec_keepsCanonical (write : Bool) (addr : BitVec 24) (data : Word) (late : Bool) (s : State) :
    s.KeepsCanonical (execSec write addr data late s) := by
  simp only [execSec]
  repeat' split
  all_goals simp
@[simp] theorem State.tapReset_canonical (s : State) : s.Keeps s.tapReset := .of (by simp [State.tapReset])
@[simp] theorem execTestReset_keepsCanonical (access : Option TapAccess) (s : State) : s.KeepsCanonical (execTestReset access s) := by
  unfold execTestReset
  repeat' split
  all_goals simp

/-! ### The flit that passes, and the operations that set the time base -/

@[simp] theorem State.tick_canonical (s : State) : s.Keeps s.tick := .of (by
  simp only [State.tick]
  repeat' split
  all_goals simp)

@[simp] theorem execEpochBoundary_keepsCanonical (lanes : List (Link × Nat)) (lines : List (Tile × Nat)) (s : State) :
    s.KeepsCanonical (execEpochBoundary lanes lines s) := by
  unfold execEpochBoundary
  split
  · simp
  extract_lets e₀ s1 s2 s3 s4 sec s5 s6 s7 s8 s9 s10 pwr s11 s12 s13
  have h4 : s.Keeps s4 := .of (by simp [s4, s3, s2, s1])
  have h8 : s.Keeps s8 := .of (by simp [s8, s7, s6, s5, h4])
  have h11 : s.Keeps s11 := .of (by simp [s11, s10, s9, h8])
  have h13 : s.Keeps s13 := .of (by simp [s13, s12, h11])
  split <;> simp [h13, h4]

@[simp] theorem execRetentionExitDone_keepsCanonical (elapsed us : Nat) (bad : List Tile) (s : State) :
    s.KeepsCanonical (execRetentionExitDone elapsed us bad s) := by
  unfold execRetentionExitDone
  split
  · simp
  extract_lets pwr s1 s2 s3 s4 thm s5 s6 s7 s8 s9
  have h5 : s.Keeps s5 := .of (by simp [s5, s4, s3, s2, s1])
  have h9 : s.Keeps s9 := .of (by simp [s9, s8, s7, s6, h5])
  simp [h9]

@[simp] theorem execPowerGood_keepsCanonical (s : State) : s.KeepsCanonical (execPowerGood s) := by simp [execPowerGood]

@[simp] theorem execColdReset_keepsCanonical (s : State) : s.KeepsCanonical (execColdReset s) := by simp [execColdReset]

/-! ### Every step -/

/-- Every command that goes on keeps the state canonical. -/
theorem exec_keepsCanonical (i : Instr) (s : State) : s.KeepsCanonical (exec i s) := by
  cases i with
  | _ => simp [exec]

/-- Settles O59: a command keeps the state canonical, as every operation that it is made of does; so does a flit that passes. -/
theorem everyStepKeepsTheStateCanonical : Obligations.EveryStepKeepsTheStateCanonical := by
  intro s t h e
  unfold step at e
  split at e
  · cases e; exact (State.tick_canonical s).after s.ensures_self h
  · next c rest _ => exact exec_keepsCanonical c { s with pending := rest } t e h

end Sys2Proof.Machine

namespace Sys2Proof.Machine

/-! ## Register accesses

What a write, a read and a refused access leave behind, and the three ways in which they reach the device. -/

/-! ### A write that stores a register's fields (R104, R105) -/

/-- Of the bits of a write, the RW ones that no other access code claims are the new value's. -/
theorem write_and_mask {o n d rw c x w1c w1s wo : Word} (hx : x = x &&& w1c) :
    (((((o &&& ~~~(rw &&& ~~~c)) ||| (n &&& (rw &&& ~~~c))) &&& ~~~(d &&& x) ||| d &&& w1s) &&& ~~~wo) ||| (d &&& wo)) &&&
      (rw &&& ~~~c &&& ~~~(w1c ||| w1s ||| wo)) = n &&& (rw &&& ~~~c &&& ~~~(w1c ||| w1s ||| wo)) := by
  rw [hx]
  ext i hi
  simp only [BitVec.getElem_and, BitVec.getElem_or, BitVec.getElem_not]
  grind

theorem merge_and_self (o n c : Word) : ((o &&& ~~~c) ||| (n &&& c)) &&& c = n &&& c := by
  ext i hi
  simp only [BitVec.getElem_and, BitVec.getElem_or, BitVec.getElem_not]
  grind

theorem merge_and_mask (o n c m : Word) : ((o &&& ~~~c) ||| (n &&& c)) &&& (c &&& m) = n &&& (c &&& m) := by
  rw [← BitVec.and_assoc, merge_and_self, BitVec.and_assoc]

theorem State.storeFields_stored (s : State) (addr : Nat) (h : RegHit) (data : Word) :
    RwStored s (s.storeFields (viewOf addr) h data) addr h data := by
  refine ⟨?_, ?_, fun a ha => ?_, fun a ha => RegMap.val_put_ne _ _ (by simpa using ha)⟩
  · rintro m rfl
    simp only [State.storeFields, RegMap.val_put_self]
    split
    · refine write_and_mask ?_
      split <;> simp
    · exact merge_and_mask _ _ _ _
  · simp only [State.storeFields]
    split
    · next hc => simp [hc]
    · rw [RegMap.val_put_self]
      exact merge_and_self _ _ _
  · simp only [State.storeFields]
    split
    · rfl
    · exact RegMap.val_put_ne _ _ ha

theorem RwStored.congr {s t u : State} {addr : Nat} {h : RegHit} {data : Word} (ht : RwStored s t addr h data) (hl : u.live = t.live)
    (hs : u.staged = t.staged) : RwStored s u addr h data := by
  unfold RwStored LiveBut
  rw [hl, hs]
  exact ht

theorem State.writeReg_plain {s : State} {addr : Nat} {h : RegHit} (path : Nat) (data : Word)
    (hl : lookupReg (offsetOf addr) = some h) (hp : h.row.act = .plain) :
    s.writeReg path addr data = s.storeFields (viewOf addr) h data := by
  simp [State.writeReg, State.bufShut, State.writeEffect, hl, hp]

/-! ### An access that does not end OK (R135) -/

/-- What such an access leaves alone: all but the reports of its source, and the counts of accesses that have met a letterbox's owner. -/
def Refuses (s t : State) : Prop :=
  t = { s with live := t.live, evq := t.evq, evLost := t.evLost, flt := t.flt } ∧
  LiveBut (reportRegs ++ (List.range 6).map R.MBX_CNT_BUSY) s t

theorem Reported.refuses {s t : State} (h : Reported s t) : Refuses s t := ⟨h.1, h.2.trans (LiveBut.refl [] t) (by simp) (by simp)⟩

theorem lbOfPath_lt {path : Nat} (hp : path < 66) : lbOfPath path < 6 := by
  unfold lbOfPath
  split <;> omega

/-- The sources of the letterboxes. -/
theorem Mild.letterbox {s : State} {k n : Nat} (hm : Mild s 656 692) (hk : k < 6) (hn : n < 6) : s.severityOf (Src.letterbox k n) ≠ 5 :=
  hm _ (by unfold Src.letterbox; omega) (by unfold Src.letterbox; omega)

theorem State.accessFault_refuses {s : State} {path : Nat} (addr code : Nat) (hp : path < 66) (hm : Mild s 656 692) :
    Refuses s (s.accessFault path addr code) := by
  have hlb := lbOfPath_lt hp
  unfold State.accessFault
  split
  · exact (State.raise_reported _ _ _ (hm.letterbox (by decide) hlb)).refuses
  split
  · exact (State.raise_reported _ _ _ (hm.letterbox (by decide) hlb)).refuses
  split
  · split
    · next n hn =>
      have hn : n < 6 := List.mem_range.mp (List.mem_of_find?_eq_some hn)
      rw [State.inc_live _ _ rfl]
      have hmem : R.MBX_CNT_BUSY n ∈ (List.range 6).map R.MBX_CNT_BUSY := List.mem_map_of_mem (List.mem_range.mpr hn)
      exact ⟨rfl, fun a ha => RegMap.val_setF_ne _ _ _ fun e => ha (e ▸ List.mem_append_right _ hmem)⟩
    · exact (Reported.refl s).refuses
  · exact (Reported.refl s).refuses

/-! ### Register writes -/

/-- A write that does not end OK puts nothing into a KEEP field (R12). -/
theorem State.keepFault_refused {s : State} {path addr : Nat} {data : Word} {late : Bool}
    (h : s.accessCode path addr true data late ≠ accOK) : s.keepFault path addr data late = none := by
  simp [State.keepFault, h]

theorem State.doWrite_ok {s : State} {path addr : Nat} {data : Word} {late : Bool} (h : s.accessCode path addr true data late = accOK) :
    s.doWrite path addr data late = (accOK, s.writeReg path addr data) := by
  simp [State.doWrite, h]

theorem State.doWrite_refused {s : State} {path addr : Nat} {data : Word} {late : Bool}
    (h : s.accessCode path addr true data late ≠ accOK) :
    s.doWrite path addr data late =
      (s.accessCode path addr true data late, s.accessFault path addr (s.accessCode path addr true data late)) := by
  simp [State.doWrite, h]

/-- Settles O25: a write that ends OK on a plain register stores its fields; one with another code tells and counts. -/
theorem writesEndByTheirCode : Obligations.WritesEndByTheirCode := by
  refine ⟨fun path addr data late s h hok hkeep hl hp => ?_, fun path addr data late s hcode hm => ?_⟩
  · refine ⟨s.storeFields (viewOf addr.toNat) h data, ?_, State.storeFields_stored .., rfl⟩
    simp only [exec, execRegisterWrite, hkeep, State.doWrite_ok hok, State.writeReg_plain _ _ hl hp]
  · have hexec : exec (.registerWrite path addr data late) s =
        .next (s.accessFault path.val addr.toNat (s.accessCode path.val addr.toNat true data late)) := by
      simp only [exec, execRegisterWrite, State.keepFault_refused hcode, State.doWrite_refused hcode]
    exact ⟨_, hexec, State.accessFault_refuses _ _ path.isLt hm⟩

/-! ### Register messages -/

/-- The message that goes from the inbox plays no part in what an access of a path ends with. -/
@[simp] theorem State.accessCode_popInbox (s : State) (n path addr : Nat) (write : Bool) (data : Word) (late : Bool) :
    (s.popInbox n).accessCode path addr write data late = s.accessCode path addr write data late := rfl

@[simp] theorem State.keepFault_popInbox (s : State) (n path addr : Nat) (data : Word) (late : Bool) :
    (s.popInbox n).keepFault path addr data late = s.keepFault path addr data late := rfl

@[simp] theorem State.refusedAt_popInbox (s : State) (n port : Nat) (p : Payload) (write late : Bool) :
    (s.popInbox n).refusedAt port p write late = s.refusedAt port p write late := rfl

/-- A message is taken from the inbox of link `n`, and answered with `p`. -/
structure MsgAnswered (n : Nat) (p : Payload) (s t : State) : Prop where
  inbox : (t.link n).inbox = (s.link n).inbox.tail
  flits : (t.link n).flits = (s.link n).flits ++ [(5, p)]
  sends : LinkSends n s t

theorem State.popInbox_sendMgmt (s : State) (n : Nat) (p : Payload) : MsgAnswered n p s ((s.popInbox n).sendMgmt n p) := by
  have hpop : (s.popInbox n).link n = { s.link n with inbox := (s.link n).inbox.tail } := State.link_modLink_self _ _ _
  refine ⟨?_, ?_, .of_modLink (fun _ => .inl) (State.sendMgmt_sends _ n p)⟩
  · rw [State.sendMgmt_keeps _ _ _ (·.inbox) (fun _ _ _ _ _ _ => rfl) (fun _ => rfl), hpop]
  · rw [State.sendMgmt_flits, hpop]
    rfl

/-- A message of one register that ends OK names no register that refuses it. -/
theorem State.refusedAt_one {s : State} {port : Nat} {p : Payload} {write late : Bool} (hone : p.at 2 1 = 1)
    (h : s.accessCode port (msgAddr p 0) write (msgData p 0) late = accOK) : s.refusedAt port p write late = none := by
  simp [State.refusedAt, hone, h]

theorem msgPath_lt (l : Link) (p : Payload) : 4 * l.val + p.at 1 1 % 4 < 66 := by omega

theorem State.readReg_plain {s : State} {addr : Nat} {h : RegHit} (ha : offsetOf addr < 0x3F0000)
    (hl : lookupReg (offsetOf addr) = some h) (hp : h.row.act = .plain) : s.readReg addr = (s.stored h, s) := by
  simp [State.readReg, State.regValue, hl, hp, Nat.not_le.mpr ha]

theorem LinkSends.staged {n : Nat} {s t : State} (h : LinkSends n s t) : t.staged = s.staged := by rw [h.1]

theorem LinkSends.evq {n : Nat} {s t : State} (h : LinkSends n s t) : t.evq = s.evq := by rw [h.1]

theorem LinkSends.evLost {n : Nat} {s t : State} (h : LinkSends n s t) : t.evLost = s.evLost := by rw [h.1]

theorem LinkSends.flt {n : Nat} {s t : State} (h : LinkSends n s t) : t.flt = s.flt := by rw [h.1]

/-- Settles O26: a message is an access of its port, and what is left of it goes out as the answer. -/
theorem messagesAreAnswered : Obligations.MessagesAreAnswered := by
  refine ⟨fun l late s p h hmsg hone hok hkeep hl hp => ?_, fun l late s p a c hmsg hrefused hm => ?_,
    fun l late s p h hmsg hone hok ha hl hp => ?_⟩
  · have hexec : exec (.regwr l late) s = .next
        (((s.storeFields (viewOf (msgAddr p 0)) h (msgData p 0)).popInbox l.val).sendMgmt l.val (regRsp p accOK [])) := by
      simp [exec, execRegwr, hmsg, State.refusedAt_one hone hok, hone, List.range_one, hkeep, State.writeReg_plain _ _ hl hp]
      rfl
    obtain ⟨hinbox, hflits, hsends⟩ :=
      State.popInbox_sendMgmt (s.storeFields (viewOf (msgAddr p 0)) h (msgData p 0)) l.val (regRsp p accOK [])
    refine ⟨_, hexec, ?_, hinbox, hflits, ?_⟩
    · exact (State.storeFields_stored s _ h _).congr hsends.live hsends.staged
    · rw [hsends.live, hsends.staged]
      exact hsends
  · have hexec : exec (.regwr l late) s =
        .next (((s.popInbox l.val).accessFault (4 * l.val + p.at 1 1 % 4) a c).sendMgmt l.val (regRsp p c [])) := by
      simp [exec, execRegwr, hmsg, hrefused]
    obtain ⟨he, hb⟩ := State.accessFault_refuses (s := s.popInbox l.val) a c (msgPath_lt l p) hm
    generalize (s.popInbox l.val).accessFault (4 * l.val + p.at 1 1 % 4) a c = u at hexec he hb
    have hu : u = State.popInbox { s with live := u.live, evq := u.evq, evLost := u.evLost, flt := u.flt } l.val := by
      conv_lhs => rw [he]
      rfl
    rw [hu] at hexec
    obtain ⟨hinbox, hflits, hsends⟩ :=
      State.popInbox_sendMgmt { s with live := u.live, evq := u.evq, evLost := u.evLost, flt := u.flt } l.val (regRsp p c [])
    refine ⟨_, hexec, hinbox, hflits, ?_, ?_⟩
    · rw [hsends.live, hsends.evq, hsends.evLost, hsends.flt]
      exact hsends
    · exact fun k hk => (congrArg (·.val k) hsends.live).trans (hb k hk)
  · have hexec : exec (.regrd l late) s = .next ((s.popInbox l.val).sendMgmt l.val (regRsp p accOK [s.stored h])) := by
      simp [exec, execRegrd, hmsg, State.refusedAt_one hone hok, hone, List.range_one, State.readReg_plain ha hl hp]
      rfl
    obtain ⟨hinbox, hflits, hsends⟩ := s.popInbox_sendMgmt l.val (regRsp p accOK [s.stored h])
    exact ⟨_, hexec, hinbox, hflits, hsends⟩

/-! ### The sideband -/

theorem State.doRead_plain {s : State} {path addr : Nat} {late : Bool} {h : RegHit} (hok : s.accessCode path addr false 0 late = accOK)
    (ha : offsetOf addr < 0x3F0000) (hl : lookupReg (offsetOf addr) = some h) (hp : h.row.act = .plain) :
    s.doRead path addr late = (accOK, s.stored h, s) := by
  simp only [State.doRead, hok, State.readReg_plain ha hl hp, if_true]

theorem State.doRead_refused {s : State} {path addr : Nat} {late : Bool} (h : s.accessCode path addr false 0 late ≠ accOK) :
    s.doRead path addr late =
      (s.accessCode path addr false 0 late, 0, s.accessFault path addr (s.accessCode path addr false 0 late)) := by
  simp only [State.doRead, h, if_false]

/-- Settles O27: a transaction is an access of path 64, and what it ends with is driven. -/
theorem sidebandTransacts : Obligations.SidebandTransacts := by
  refine ⟨fun s => rfl, fun addr late s h hboot hok ha hl hp => ?_, fun addr late s hboot hcode hm => ?_,
    fun addr data late s h hboot hok hkeep hl hp => ?_, fun op late s => ⟨rfl, rfl⟩, fun addr data late s hboot => ?_⟩
  · simp [exec, execSbRead, hboot, State.doRead_plain hok ha hl hp]
  · obtain ⟨he, hb⟩ := State.accessFault_refuses (s := s) addr.toNat (s.accessCode 64 addr.toNat false 0 late) (by decide : 64 < 66) hm
    refine ⟨{ s.accessFault 64 addr.toNat (s.accessCode 64 addr.toNat false 0 late) with
      sbOut := [0xA5, BitVec.ofNat 8 (s.accessCode 64 addr.toNat false 0 late), 0, 0, 0, 0] }, ?_, rfl, ?_, hb⟩
    · simp only [exec, execSbRead, hboot, State.doRead_refused hcode, if_false]
      rfl
    · conv_lhs => rw [he]
  · have hwrite : (s.doWrite 64 addr.toNat data late) = (accOK, s.storeFields (viewOf addr.toNat) h data) := by
      rw [State.doWrite_ok hok, State.writeReg_plain _ _ hl hp]
    have hstored := s.storeFields_stored addr.toNat h data
    refine ⟨⟨{ s.storeFields (viewOf addr.toNat) h data with sbOut := [0xA5, BitVec.ofNat 8 accOK] }, ?_, rfl, hstored, rfl⟩,
      ⟨{ s.storeFields (viewOf addr.toNat) h data with sbOut := [] }, ?_, rfl, hstored, rfl⟩⟩
    · simp [exec, execSbWrite, hboot, hkeep, hwrite]
    · simp [exec, execSbCsRise, hboot, hkeep, hwrite]
  · simp [exec, execSbRead, execSbWrite, execSbCsRise, hboot]

end Sys2Proof.Machine

namespace Sys2Proof.Machine

/-! ## Letterboxes

The rules of the operations on a letterbox: its buffer, the end of its command and its release. -/

/-! ### The registers of a letterbox -/

theorem reportRegs_apart {a : Nat} (h : a ∈ reportRegs) : a < 0x10000 ∨ 0x11800 ≤ a := by
  have hall : ∀ a ∈ reportRegs, a < 0x10000 ∨ 0x11800 ≤ a := by decide
  exact hall a h

/-- A register between those of the letterboxes is none of the reports. -/
theorem not_mem_reportRegs {a : Nat} (hlo : 0x10000 ≤ a) (hhi : a < 0x11800) : a ∉ reportRegs :=
  fun h => by have := reportRegs_apart h; omega

theorem mem_lbRegs_buf {n i : Nat} (hi : i < 64) : R.MBX_BUF n i ∈ lbRegs n := by
  simp only [lbRegs, List.mem_append, List.mem_map, List.mem_range]
  exact .inl (.inr ⟨i, hi, rfl⟩)

theorem reportRegs_subset_lbRegs (n : Nat) : reportRegs ⊆ lbRegs n := List.subset_append_right _ _

theorem mem_lbRegs_cpl (n : Nat) : R.MBX_CPL n ∈ lbRegs n := by simp [lbRegs]
theorem mem_lbRegs_ctl (n : Nat) : R.MBX_CTL n ∈ lbRegs n := by simp [lbRegs]
theorem mem_lbRegs_owner (n : Nat) : R.MBX_OWNER n ∈ lbRegs n := by simp [lbRegs]
/-! ### The buffer -/

/-- One byte of a command buffer. -/
def State.bufByte (s : State) (n o : Nat) : Byte := BitVec.ofNat 8 ((s.live.val (R.MBX_BUF n (o / 4))).field (8 * (o % 4)) 8)

/-- Write one byte of a command buffer. -/
def State.putByte (s : State) (n o : Nat) (b : Byte) : State :=
  { s with live := s.live.put (R.MBX_BUF n (o / 4)) ((s.live.val (R.MBX_BUF n (o / 4))).setField (8 * (o % 4)) 8 b.toNat) }

theorem State.bufBytes_eq (s : State) (n off len : Nat) : s.bufBytes n off len = (List.range len).map fun k => s.bufByte n (off + k) := rfl

theorem State.putBuf_nil (s : State) (n off : Nat) : s.putBuf n off [] = s := rfl

theorem State.putBuf_append (s : State) (n off : Nat) (bs : List Byte) (b : Byte) :
    s.putBuf n off (bs ++ [b]) = (s.putBuf n off bs).putByte n (off + bs.length) b := by
  simp [State.putBuf, State.putByte, List.zipIdx_append]

theorem State.bufByte_putByte_self (s : State) (n o : Nat) (b : Byte) : (s.putByte n o b).bufByte n o = b := by
  unfold State.bufByte State.putByte
  rw [RegMap.val_put_self, Word.field_setField_self _ _ _ _ (by omega), Nat.mod_eq_of_lt b.isLt, BitVec.ofNat_toNat, BitVec.setWidth_eq]

theorem State.bufByte_putByte_ne (s : State) (n : Nat) {o o' : Nat} (b : Byte) (h : o' ≠ o) :
    (s.putByte n o b).bufByte n o' = s.bufByte n o' := by
  unfold State.bufByte State.putByte
  by_cases hw : o' / 4 = o / 4
  · rw [hw, RegMap.val_put_self, Word.field_setField_ne _ _ (by omega)]
  · rw [RegMap.val_put_ne]
    unfold R.MBX_BUF
    omega

/-- Of the bytes that are put into a buffer, each reads back, and the others read as before. -/
theorem State.bufByte_putBuf (s : State) (n off : Nat) (bs : List Byte) (o : Nat) :
    (s.putBuf n off bs).bufByte n o = if off ≤ o then bs.getD (o - off) (s.bufByte n o) else s.bufByte n o := by
  induction bs using List.reverseRecOn with
  | nil => simp [State.putBuf_nil]
  | append_singleton bs b ih =>
    rw [State.putBuf_append]
    rcases eq_or_ne o (off + bs.length) with rfl | hne
    · simp [State.bufByte_putByte_self]
    · rw [State.bufByte_putByte_ne _ _ _ hne, ih]
      split
      · rcases Nat.lt_or_gt_of_ne hne with hlt | hgt
        · rw [List.getD_append _ _ _ _ (by omega)]
        · rw [List.getD_eq_default _ _ (by omega), List.getD_eq_default _ _ (by simp; omega)]
      · rfl

theorem State.bufBytes_putBuf (s : State) (n off : Nat) (bs : List Byte) : (s.putBuf n off bs).bufBytes n off bs.length = bs := by
  rw [State.bufBytes_eq]
  refine List.ext_getElem (by simp) fun i hi hi' => ?_
  simp [State.bufByte_putBuf, hi']

/-- A buffer is what its registers hold. -/
theorem State.bufBytes_congr {s t : State} {n off len : Nat} (h : ∀ i, i < 64 → t.live.val (R.MBX_BUF n i) = s.live.val (R.MBX_BUF n i))
    (hlen : off + len ≤ 256) : t.bufBytes n off len = s.bufBytes n off len := by
  refine List.map_congr_left fun k hk => ?_
  have := List.mem_range.mp hk
  rw [h _ (by omega)]

/-! ### What a letterbox's own work leaves alone -/

/-- `t` is `s` but for letterbox `n` and reports. -/
def LbMoves (n : Nat) (s t : State) : Prop :=
  t = { s with live := t.live, lbs := t.lbs, evq := t.evq, evLost := t.evLost, flt := t.flt } ∧ LiveBut (lbRegs n) s t ∧
  ∀ k, k ≠ n → t.lb k = s.lb k

namespace LbMoves

variable {n : Nat} {s t u : State}

theorem refl (n : Nat) (s : State) : LbMoves n s s := ⟨rfl, LiveBut.refl _ s, fun _ _ => rfl⟩

theorem trans (h : LbMoves n s t) (h' : LbMoves n t u) : LbMoves n s u := by
  refine ⟨?_, h.2.1.trans h'.2.1 (List.Subset.refl _) (List.Subset.refl _), fun k hk => (h'.2.2 k hk).trans (h.2.2 k hk)⟩
  rw [h'.1, h.1]

theorem setF (s : State) {n : Nat} (f : Fld) (v : Nat) (hc : f.cfg = false) (ha : f.addr ∈ lbRegs n) : LbMoves n s (s.setF f v) := by
  rw [State.setF_live _ _ _ hc]
  exact ⟨rfl, fun a h => RegMap.val_setF_ne _ _ _ fun e => h (e ▸ ha), fun _ _ => rfl⟩

theorem modLb (s : State) (n : Nat) (f : LbSt → LbSt) : LbMoves n s (s.modLb n f) :=
  ⟨rfl, LiveBut.refl _ s, fun _ hk => s.lb_modLb_ne f hk⟩

theorem of_reported (h : Reported s t) : LbMoves n s t := by
  refine ⟨?_, h.2.trans (LiveBut.refl [] t) (reportRegs_subset_lbRegs n) (by simp), fun k _ => ?_⟩
  · rw [h.1]
  · rw [h.1]
    rfl

theorem putByte (s : State) (n : Nat) {o : Nat} (b : Byte) (ho : o < 256) : LbMoves n s (s.putByte n o b) :=
  ⟨rfl, fun _ h => RegMap.val_put_ne _ _ fun e => h (e ▸ mem_lbRegs_buf (by omega)), fun _ _ => rfl⟩

theorem putBuf (s : State) (n off : Nat) (bs : List Byte) (h : off + bs.length ≤ 256) : LbMoves n s (s.putBuf n off bs) := by
  induction bs using List.reverseRecOn with
  | nil => exact refl n s
  | append_singleton bs b ih =>
    simp only [List.length_append, List.length_singleton] at h
    rw [State.putBuf_append]
    exact (ih (by omega)).trans (putByte _ n b (by omega))

theorem releaseLb (s : State) (n : Nat) : LbMoves n s (s.releaseLb n) :=
  ((setF s _ _ rfl (mem_lbRegs_owner n)).trans (setF _ _ _ rfl (mem_lbRegs_owner n))).trans (setF _ _ _ rfl (mem_lbRegs_owner n))

/-- With the completion note in between, this is all that the end of a command does. -/
theorem onlyLetterbox {l : Nat} {v : State} (h : LbMoves n s t) (hsends : LinkSends l t u) (h' : LbMoves n u v) : OnlyLetterbox s v n := by
  obtain ⟨he, hlive, hlbs⟩ := h
  obtain ⟨he', hlinks, hfreed⟩ := hsends
  obtain ⟨he'', hlive', hlbs'⟩ := h'
  have hlink (k : Nat) : t.link k = s.link k := by rw [he]; rfl
  have hlink' (k : Nat) : v.link k = u.link k := by rw [he'']; rfl
  refine ⟨?_, fun a ha => ?_, fun k hk => ?_, l, fun k hk => ?_, ?_⟩
  · rw [he'', he', he]
  · rw [hlive' a ha, ← hlive a ha, he']
  · rw [hlbs' k hk, ← hlbs k hk, he']
    rfl
  · rw [hlink', hlinks k hk, hlink]
  · refine hfreed.congr (fun f hf => .inl (hlink l ▸ hf)) ?_ ?_ ?_ ?_ ?_
    · rw [he]
    · rw [he]
    · rw [he]
      rfl
    · rw [he'']
    · rw [he'']

end LbMoves

theorem LinkSends.refl (n : Nat) (s : State) : LinkSends n s s := ⟨rfl, LinksBut.refl n s, .of_eq rfl rfl⟩

theorem State.cplNote_sends (s : State) (n word : Nat) : ∃ l, LinkSends l s (s.cplNote n word) := by
  unfold State.cplNote
  cases s.lbOwner n with
  | none => exact ⟨0, .refl 0 s⟩
  | some p =>
    dsimp only
    split
    · exact ⟨_, State.sendMgmt_sends s _ _⟩
    · exact ⟨0, .refl 0 s⟩

/-! ### The end of a command -/

theorem cplWord_lt (seq status : Nat) (committed : Bool) (len : Nat) : cplWord seq status committed len < 2 ^ 32 := by
  unfold cplWord
  split <;> omega

/-- What stands in a letterbox when its command has ended, whatever is reported and released then. -/
structure Ended (n word : Nat) (result : List Byte) (t : State) : Prop where
  fits : result.length ≤ 248
  idle : t.lb n = {}
  buf : t.bufBytes n 8 result.length = result
  word : t.fv (F.MBX_CPL_word n) = word

namespace Ended

variable {n w : Nat} {r : List Byte} {s t : State}

/-- It stands as long as the letterbox, its buffer and its completion word do. -/
theorem congr (h : Ended n w r s) (hlb : t.lb n = s.lb n)
    (hbuf : ∀ i, i < 64 → t.live.val (R.MBX_BUF n i) = s.live.val (R.MBX_BUF n i))
    (hcpl : t.fv (F.MBX_CPL_word n) = s.fv (F.MBX_CPL_word n)) : Ended n w r t :=
  ⟨h.fits, hlb.trans h.idle, (State.bufBytes_congr hbuf (by have := h.fits; omega)).trans h.buf, hcpl.trans h.word⟩

theorem setOwner (h : Ended n w r s) (f : Fld) (v : Nat) (hc : f.cfg = false) (ha : f.addr = R.MBX_OWNER n) : Ended n w r (s.setF f v) := by
  have hlive := State.setF_live s f v hc
  refine h.congr (by rw [hlive]; rfl) (fun i _ => ?_) (State.fv_setF_ne s v (.inl ?_))
  · rw [hlive]
    refine RegMap.val_setF_ne _ _ _ ?_
    rw [ha]
    unfold R.MBX_BUF R.MBX_OWNER
    omega
  · rw [ha]
    unfold F.MBX_CPL_word R.MBX_OWNER
    simp

theorem releaseLb (h : Ended n w r s) : Ended n w r (s.releaseLb n) :=
  ((h.setOwner _ _ rfl rfl).setOwner _ _ rfl rfl).setOwner _ _ rfl rfl

end Ended

/-- The completion raises no source that is fatal (R135). -/
def MildEnd (s : State) (n status : Nat) : Prop := ∀ k, cplSource status = some k → s.severityOf (Src.letterbox k n) ≠ 5

theorem MildEnd.ok (s : State) (n : Nat) : MildEnd s n cplOK := fun k h => by cases h

theorem cplSource_lt {status k : Nat} (h : cplSource status = some k) : k < 4 := by
  unfold cplSource at h
  split at h <;> cases h <;> decide

theorem Mild.end {s : State} (h : Mild s 656 692) {n : Nat} (hn : n < 6) (status : Nat) : MildEnd s n status :=
  fun k hk => h.letterbox (by have := cplSource_lt hk; omega) hn

theorem MildEnd.congr {s t : State} {n status : Nat} (h : MildEnd s n status) (ha : t.active = s.active) : MildEnd t n status :=
  fun k hk => by rw [State.severityOf_congr ha]; exact h k hk

/-- The state as a command's end has written it, before anyone is told. -/
def State.written (s : State) (n word : Nat) (result : List Byte) : State :=
  (((s.putBuf n 8 result).setF (F.MBX_CPL_word n) word).setF (F.MBX_CTL_abort n) 0).setLb n {}

/-- The source that a completion raises is raised. -/
def State.raiseEnd (s : State) (n status : Nat) : State :=
  match cplSource status with
  | some k => s.raise (Src.letterbox k n) n
  | none => s

/-- The sequence number of a letterbox's command. -/
def State.lbSeq (s : State) (n : Nat) : Nat := ((s.lb n).running.map Prod.snd).getD 0

theorem State.complete_eq (s : State) (n status : Nat) (committed : Bool) (result : List Byte) (hr : (s.lb n).restarted = false) :
    s.complete n status committed result =
      ((((s.written n (cplWord (s.lbSeq n) status committed result.length) result).raiseEnd n status).cplNote n
        (cplWord (s.lbSeq n) status committed result.length)).when (s.lb n).releaseAtEnd fun t => t.releaseLb n) := by
  unfold State.complete State.lbSeq State.when
  cases hrun : (s.lb n).running <;> simp only [hr, hrun] <;> rfl

theorem LbMoves.written (s : State) (n word : Nat) (result : List Byte) (h : result.length ≤ 248) : LbMoves n s (s.written n word result) :=
  (((LbMoves.putBuf s n 8 result (by omega)).trans (.setF _ _ _ rfl (mem_lbRegs_cpl n))).trans
    (.setF _ _ _ rfl (mem_lbRegs_ctl n))).trans (.modLb _ n fun _ => {})

theorem State.lb_setLb_self (s : State) (n : Nat) (v : LbSt) : (s.setLb n v).lb n = v := Tab.get_set_self _ _ _ _

/-- A letterbox's own state is in none of its registers. -/
theorem State.live_setLb (s : State) (n : Nat) (v : LbSt) : (s.setLb n v).live = s.live := rfl

theorem State.fv_setLb (s : State) (n : Nat) (v : LbSt) (f : Fld) : (s.setLb n v).fv f = s.fv f := rfl

theorem Ended.written (s : State) {n word : Nat} {result : List Byte} (h : word < 2 ^ 32) (hlen : result.length ≤ 248) :
    Ended n word result (s.written n word result) := by
  unfold State.written
  refine ⟨hlen, State.lb_setLb_self _ _ _, ?_, ?_⟩
  · refine (State.bufBytes_congr (s := s.putBuf n 8 result) (fun i _ => ?_) (by omega)).trans (State.bufBytes_putBuf s n 8 result)
    have hcpl : R.MBX_BUF n i ≠ (F.MBX_CPL_word n).addr := by simp only [R.MBX_BUF, F.MBX_CPL_word]; omega
    have hctl : R.MBX_BUF n i ≠ (F.MBX_CTL_abort n).addr := by simp only [R.MBX_BUF, F.MBX_CTL_abort]; omega
    rw [State.live_setLb, State.setF_live _ _ _ rfl, State.setF_live _ _ _ rfl]
    exact (RegMap.val_setF_ne _ _ _ hctl).trans (RegMap.val_setF_ne _ _ _ hcpl)
  · have hapart : (F.MBX_CTL_abort n).apart (F.MBX_CPL_word n) := .inl (by simp [F.MBX_CPL_word, F.MBX_CTL_abort])
    rw [State.fv_setLb, State.fv_setF_ne _ _ hapart, State.fv_setF_self _ _ _ (by simp [F.MBX_CPL_word])]
    exact Nat.mod_eq_of_lt h

theorem State.raiseEnd_reported {s : State} {n status : Nat} (h : MildEnd s n status) : Reported s (s.raiseEnd n status) := by
  unfold State.raiseEnd
  cases hk : cplSource status with
  | none => exact .refl s
  | some k => exact State.raise_reported _ _ _ (h k hk)

theorem Ended.reported {n w : Nat} {r : List Byte} {s t : State} (h : Ended n w r s) (hn : n < 6) (ht : Reported s t) : Ended n w r t := by
  refine h.congr ?_ (fun i hi => ht.2 _ (not_mem_reportRegs ?_ ?_)) (ht.fv _ (not_mem_reportRegs ?_ ?_))
  · rw [ht.1]
    rfl
  all_goals simp only [R.MBX_BUF, F.MBX_CPL_word]; omega

theorem Ended.sends {n w l : Nat} {r : List Byte} {s t : State} (h : Ended n w r s) (ht : LinkSends l s t) : Ended n w r t :=
  h.congr (by rw [ht.1]; rfl) (fun i _ => by rw [ht.live]) (ht.fv _)

/-- A command ends: its letterbox is free, and the rest is left alone. -/
theorem State.complete_ends {s : State} {n status : Nat} (committed : Bool) {result : List Byte} (hn : n < 6) (hlen : result.length ≤ 248)
    (hr : (s.lb n).restarted = false) (hm : MildEnd s n status) :
    Ended n (cplWord (s.lbSeq n) status committed result.length) result (s.complete n status committed result) ∧
    OnlyLetterbox s (s.complete n status committed result) n := by
  rw [State.complete_eq s n status committed result hr]
  have hword := cplWord_lt (s.lbSeq n) status committed result.length
  generalize cplWord (s.lbSeq n) status committed result.length = w at hword ⊢
  have hwritten := LbMoves.written s n w result hlen
  have hraise := State.raiseEnd_reported (hm.congr (t := s.written n w result) (by rw [hwritten.1]))
  obtain ⟨l, hnote⟩ := State.cplNote_sends ((s.written n w result).raiseEnd n status) n w
  have hended := ((Ended.written s hword hlen).reported hn hraise).sends hnote
  have honly {v : State} := (hwritten.trans (.of_reported hraise)).onlyLetterbox (v := v) hnote
  unfold State.when
  split
  · exact ⟨hended.releaseLb, honly (.releaseLb _ n)⟩
  · exact ⟨hended, honly (.refl n _)⟩

end Sys2Proof.Machine

namespace Sys2Proof.Machine

/-! ## The registers and timers of a letterbox -/

/-! ### Writes of a letterbox's registers -/

theorem WriteTaken.regCommand {s : State} {path addr : Nat} {data : Word} (h : WriteTaken s path addr data) :
    s.regCommand path addr data = .next (s.writeReg path addr data) := by
  simp only [State.regCommand, h.2, State.doWrite, h.1, if_true]

/-- A write through the normal view that is not shut out stores the register's fields and has the register's effect. -/
theorem State.writeReg_normal {s : State} {addr : Nat} {h : RegHit} (path : Nat) (data : Word) (hv : viewOf addr = 0)
    (ho : offsetOf addr = addr) (hl : lookupReg addr = some h) (hshut : s.bufShut h = false) (hk : h.row.act ≠ .secWdKick)
    (hd : h.row.act ≠ .secDbghalt) : s.writeReg path addr data = (s.storeFields 0 h data).writeEffect path 0 h data := by
  simp only [State.writeReg, ho, hl, hshut, hv, hd, Bool.or_false, if_false, beq_eq_false_iff_ne.mpr hk, Bool.false_eq_true]

/-- An address that a block does not hold is looked for in the blocks after it. -/
theorem findReg_cons_of_not_mem (b : RegBlock) (bs : List RegBlock) (a : Nat)
    (h : ¬((b.n = 1 ∨ (a - b.base) / b.stride < b.n) ∧ (if b.n = 1 then a - b.base else (a - b.base) % b.stride) < b.size)) :
    findReg (b :: bs) a = findReg bs a := by
  rw [findReg]
  split
  · exact if_neg h
  · rfl

/-- An address that a block of several instances holds. -/
theorem findReg_cons_of_mem (b : RegBlock) (bs : List RegBlock) {n o i j : Nat} {r : RegRow} (hmany : b.n ≠ 1) (hn : n < b.n)
    (ho : o < b.size)
    (hsize : b.size ≤ b.stride) (hr : findRow b.rows o = some (r, i, j)) :
    findReg (b :: bs) (b.base + b.stride * n + o) = some ⟨b.base + b.stride * n + o, n, i + r.first, j, r, b.staged⟩ := by
  have hoff : b.base + b.stride * n + o - b.base = b.stride * n + o := by omega
  have hinst : (b.stride * n + o) / b.stride = n := by rw [Nat.mul_add_div (by omega), Nat.div_eq_of_lt (by omega), Nat.add_zero]
  have hlocal : (b.stride * n + o) % b.stride = o := by rw [Nat.mul_add_mod, Nat.mod_eq_of_lt (by omega)]
  rw [findReg, if_pos (by omega)]
  simp only [hoff, hinst, hlocal, if_neg hmany]
  rw [if_pos ⟨.inr hn, ho⟩, hr]

theorem lookupReg_mbx {n o i j : Nat} {r : RegRow} (hn : n < 6) (ho : o < 0x200) (hr : findRow blockMBX.rows o = some (r, i, j)) :
    lookupReg (0x10000 + 0x400 * n + o) = some ⟨0x10000 + 0x400 * n + o, n, i + r.first, j, r, false⟩ := by
  unfold lookupReg regBlocks
  iterate 11 rw [findReg_cons_of_not_mem]
  · exact findReg_cons_of_mem blockMBX _ (by decide) hn ho (by decide) hr
  all_goals
    simp only [blockCFG, blockFLT, blockPWR, blockCLK, blockSEC, blockCST, blockHKP, blockTHM, blockBST, blockMAP, blockCEL]
    simp only [reduceIte, true_or, true_and]
    omega

/-- The rows of the letterbox registers that act. -/
def ctlRow : RegRow := ⟨0x0, [], 0, .mbxCtl, [⟨2, 2, .w1s, 0⟩, ⟨1, 1, .rw, 1⟩, ⟨0, 0, .rw, 1⟩]⟩
def doorbellRow : RegRow := ⟨0x4, [], 0, .mbxDoorbell, [⟨0, 0, .w1s, 0⟩]⟩
def ownerRow : RegRow := ⟨0xc, [], 0, .mbxOwner, [⟨8, 8, .w1s, 0⟩, ⟨7, 7, .ro, 0⟩, ⟨6, 0, .ro, 0⟩]⟩
def bufRow : RegRow := ⟨0x100, [(4, 64)], 0, .mbxBuf, [⟨31, 0, .rw, 0⟩]⟩

theorem lookupReg_ctl {n : Nat} (hn : n < 6) : lookupReg (R.MBX_CTL n) = some ⟨R.MBX_CTL n, n, 0, 0, ctlRow, false⟩ :=
  lookupReg_mbx (o := 0) hn (by decide) rfl

theorem lookupReg_doorbell {n : Nat} (hn : n < 6) :
    lookupReg (R.MBX_DOORBELL n) = some ⟨R.MBX_DOORBELL n, n, 0, 0, doorbellRow, false⟩ := by
  have h := lookupReg_mbx (o := 4) hn (by decide) rfl
  have ha : 0x10000 + 0x400 * n + 4 = R.MBX_DOORBELL n := by unfold R.MBX_DOORBELL; omega
  rwa [ha] at h

theorem lookupReg_owner {n : Nat} (hn : n < 6) : lookupReg (R.MBX_OWNER n) = some ⟨R.MBX_OWNER n, n, 0, 0, ownerRow, false⟩ := by
  have h := lookupReg_mbx (o := 0xc) hn (by decide) rfl
  have ha : 0x10000 + 0x400 * n + 0xc = R.MBX_OWNER n := by unfold R.MBX_OWNER; omega
  rwa [ha] at h

theorem findRow_buf {i : Nat} (hi : i < 64) : findRow blockMBX.rows (0x100 + 4 * i) = some (bufRow, i, 0) := by
  have hall : ∀ i, i < 64 → findRow blockMBX.rows (0x100 + 4 * i) = some (bufRow, i, 0) := by decide
  exact hall i hi

theorem lookupReg_buf {n i : Nat} (hn : n < 6) (hi : i < 64) :
    lookupReg (R.MBX_BUF n i) = some ⟨R.MBX_BUF n i, n, i, 0, bufRow, false⟩ := by
  have h := lookupReg_mbx hn (by omega) (findRow_buf hi)
  have ha : 0x10000 + 0x400 * n + (0x100 + 4 * i) = R.MBX_BUF n i := by unfold R.MBX_BUF; omega
  rwa [ha] at h

/-- A write of the live register `a`: the bits `rw` are those of the data, and those of `w1s` that it sets are set. -/
def State.putBits (s : State) (a : Nat) (data rw w1s : Word) : State :=
  { s with live := s.live.put a (((s.live.val a &&& ~~~rw) ||| (data &&& rw)) ||| (data &&& w1s)) }

/-- A register that is not configuration holds the bits of its write where they are RW, and gains those that are W1S. -/
theorem State.storeFields_live {s : State} {h : RegHit} {data rw w1s : Word} (hstaged : h.staged = false) (hrw : h.row.maskOf .rw = rw)
    (hw1s : h.row.maskOf .w1s = w1s) (hw1c : h.row.maskOf .w1c = 0) (hwo : h.row.maskOf .wo = 0) :
    s.storeFields 0 h data = s.putBits h.addr data rw w1s := by
  have hc : h.cfgMask = 0 := by simp [RegHit.cfgMask, hstaged]
  have hones (x : Word) : x &&& 4294967295#32 = x := BitVec.and_allOnes
  simp [State.storeFields, State.putBits, hc, hrw, hw1s, hw1c, hwo, viewWrite, hones]

/-- The registers of the letterboxes are written at their own addresses, through the normal view. -/
theorem viewOf_low {a : Nat} (h : a < 2 ^ 22) : viewOf a = 0 := by
  unfold viewOf
  rw [Nat.div_eq_of_lt h]

theorem offsetOf_low {a : Nat} (h : a < 2 ^ 22) (h4 : a % 4 = 0) : offsetOf a = a := by
  unfold offsetOf
  omega

/-- A row of a letterbox's block whose write is all in its RW and W1S bits and in its effect. -/
def RegRow.MbxRow (r : RegRow) (rw w1s : Word) : Prop :=
  r.maskOf .rw = rw ∧ r.maskOf .w1s = w1s ∧ r.maskOf .w1c = 0 ∧ r.maskOf .wo = 0 ∧ r.act ≠ .secWdKick ∧ r.act ≠ .secDbghalt

theorem State.writeReg_mbx {s : State} {a n i : Nat} {r : RegRow} {rw w1s : Word} (path : Nat) (data : Word) (hr : r.MbxRow rw w1s)
    (hlow : a < 2 ^ 22) (h4 : a % 4 = 0) (hl : lookupReg a = some ⟨a, n, i, 0, r, false⟩)
    (hshut : r.act = .mbxBuf → (s.lb n).running = none) :
    s.writeReg path a data = (s.putBits a data rw w1s).writeEffect path 0 ⟨a, n, i, 0, r, false⟩ data := by
  obtain ⟨hrw, hw1s, hw1c, hwo, hkick, hhalt⟩ := hr
  have hopen : s.bufShut ⟨a, n, i, 0, r, false⟩ = false := by
    by_cases h : r.act = .mbxBuf
    · simp [State.bufShut, hshut h]
    · simp [State.bufShut, h]
  rw [State.writeReg_normal path data (viewOf_low hlow) (offsetOf_low hlow h4) hl hopen hkick hhalt,
    State.storeFields_live rfl hrw hw1s hw1c hwo]

/-! ### Owners -/

/-- `t` is `s` but for the live registers `as`. -/
def LiveOnly (as : List Nat) (s t : State) : Prop := t = { s with live := t.live } ∧ LiveBut as s t

namespace LiveOnly

variable {as bs : List Nat} {s t u : State}

theorem refl (s : State) : LiveOnly as s s := ⟨rfl, .refl as s⟩

theorem trans (h : LiveOnly as s t) (h' : LiveOnly bs t u) : LiveOnly (as ++ bs) s u := by
  refine ⟨?_, h.2.trans h'.2 (List.subset_append_left _ _) (List.subset_append_right _ _)⟩
  rw [h'.1, h.1]

theorem mono (h : LiveOnly as s t) (hsub : as ⊆ bs) : LiveOnly bs s t := ⟨h.1, fun a ha => h.2 a fun hm => ha (hsub hm)⟩

theorem putBits (s : State) (a : Nat) (data rw w1s : Word) : LiveOnly [a] s (s.putBits a data rw w1s) :=
  ⟨rfl, fun _ h => RegMap.val_put_ne _ _ (by simpa using h)⟩

theorem setF (s : State) (f : Fld) (v : Nat) (hc : f.cfg = false) : LiveOnly [f.addr] s (s.setF f v) := by
  rw [State.setF_live _ _ _ hc]
  exact ⟨rfl, fun _ h => RegMap.val_setF_ne _ _ _ (by simpa using h)⟩

theorem lb (h : LiveOnly as s t) (k : Nat) : t.lb k = s.lb k := by
  rw [h.1]
  rfl

end LiveOnly

/-- `t` is `s` but for letterbox `n` and the live registers `as`. -/
def LbOnly (n : Nat) (as : List Nat) (s t : State) : Prop :=
  t = { s with live := t.live, lbs := t.lbs } ∧ LiveBut as s t ∧ ∀ k, k ≠ n → t.lb k = s.lb k

namespace LbOnly

variable {n : Nat} {as bs : List Nat} {s t u : State}

theorem trans (h : LbOnly n as s t) (h' : LbOnly n bs t u) : LbOnly n (as ++ bs) s u := by
  refine ⟨?_, h.2.1.trans h'.2.1 (List.subset_append_left _ _) (List.subset_append_right _ _), fun k hk => (h'.2.2 k hk).trans (h.2.2 k hk)⟩
  rw [h'.1, h.1]

theorem symm (h : LbOnly n as s t) : LbOnly n as t s := by
  refine ⟨?_, fun a ha => (h.2.1 a ha).symm, fun k hk => (h.2.2 k hk).symm⟩
  rw [h.1]

theorem mono (h : LbOnly n as s t) (hsub : as ⊆ bs) : LbOnly n bs s t := ⟨h.1, fun a ha => h.2.1 a fun hm => ha (hsub hm), h.2.2⟩

theorem of_live (h : LiveOnly as s t) (n : Nat) : LbOnly n as s t := by
  refine ⟨?_, h.2, fun k _ => h.lb k⟩
  rw [h.1]

theorem modLb (s : State) (n : Nat) (f : LbSt → LbSt) : LbOnly n [] s (s.modLb n f) := ⟨rfl, .refl _ s, fun _ hk => s.lb_modLb_ne f hk⟩

theorem moves (h : LbOnly n as s t) (hsub : as ⊆ lbRegs n) : LbMoves n s t := by
  refine ⟨?_, fun a ha => h.2.1 a fun hm => ha (hsub hm), h.2.2⟩
  conv_lhs => rw [h.1]
  rw [h.1]

theorem fv (h : LbOnly n as s t) (f : Fld) (hf : f.addr ∉ as) : t.fv f = s.fv f :=
  State.fv_congr (h.2.1 _ hf) (by rw [h.1])

theorem fb (h : LbOnly n as s t) (f : Fld) (hf : f.addr ∉ as) : t.fb f = s.fb f := by
  unfold State.fb
  rw [h.fv f hf]

/-- Whether a command may start does not depend on its letterbox beyond the owner. -/
theorem startStatus (h : LbOnly n as s t) (has : ∀ a ∈ as, 0x10000 ≤ a) (howner : t.lbOwner n = s.lbOwner n) (code flags : Nat) :
    t.startStatus n code flags = s.startStatus n code flags := by
  have hlow (f : Fld) (hf : f.addr < 0x10000) : t.fv f = s.fv f := h.fv f fun hm => by have := has _ hm; omega
  have hpolicy : t.policyOf = s.policyOf := by
    unfold State.policyOf State.sectGood
    rw [hlow _ (by decide), h.1]
  have hserved : t.lbServed n code = s.lbServed n code := by
    unfold State.lbServed State.noImage State.pushServed State.lifecycle
    rw [hlow F.SEC_STATUS_halt_cause (by decide), hlow F.SEC_STATUS_lifecycle (by decide), hpolicy, h.1]
    rfl
  have hfits : t.ownerFits n = s.ownerFits n := by unfold State.ownerFits; rw [howner]
  have hlevel : t.level = s.level := hlow _ (by decide)
  have hlimited : t.isLimited = s.isLimited := by unfold State.isLimited State.fb; rw [hlow _ (by decide)]
  unfold State.startStatus
  simp only [hserved, hfits, hlevel, hlimited]
  cases cmdRows.find? fun r => r.code == code with
  | none => rfl
  | some r =>
    dsimp only
    congr! 8
    funext m
    by_cases hm : m = n
    · simp [hm]
    · rw [h.2.2 m hm]

theorem lbOwner (h : LbOnly n as s t) (ha : R.MBX_OWNER n ∉ as) : t.lbOwner n = s.lbOwner n := by
  unfold State.lbOwner
  rw [h.fb _ ha, h.fv _ ha]

end LbOnly

theorem LiveOnly.lbOwner {as : List Nat} {s t : State} (h : LiveOnly as s t) {n : Nat} (ha : R.MBX_OWNER n ∉ as) :
    t.lbOwner n = s.lbOwner n := (LbOnly.of_live h n).lbOwner ha

theorem State.claim_only (s : State) (n path : Nat) : LiveOnly [R.MBX_OWNER n] s (s.claim n path) := by
  unfold State.claim
  split
  · exact .refl s
  · exact ((LiveOnly.setF s _ 1 rfl).trans (.setF _ _ path rfl)).mono (by simp [F.MBX_OWNER_owned, F.MBX_OWNER_owner, R.MBX_OWNER])

theorem State.releaseLb_only (s : State) (n : Nat) : LiveOnly [R.MBX_OWNER n] s (s.releaseLb n) :=
  (((LiveOnly.setF s _ 0 rfl).trans (.setF _ _ 0 rfl)).trans (.setF _ _ 0 rfl)).mono
    (by simp [F.MBX_OWNER_owned, F.MBX_OWNER_owner, F.MBX_OWNER_release, R.MBX_OWNER])

theorem State.lbOwner_setOwner (s : State) (n path : Nat) (h : path < 128) :
    ((s.setF (F.MBX_OWNER_owned n) 1).setF (F.MBX_OWNER_owner n) path).lbOwner n = some path := by
  have hapart : (F.MBX_OWNER_owner n).apart (F.MBX_OWNER_owned n) := .inr (.inr (by simp [F.MBX_OWNER_owned, F.MBX_OWNER_owner]))
  have howned : ((s.setF (F.MBX_OWNER_owned n) 1).setF (F.MBX_OWNER_owner n) path).fb (F.MBX_OWNER_owned n) = true := by
    rw [State.fb_setF_ne _ _ hapart, State.fb_setF_self _ _ _ (by decide) (by simp [F.MBX_OWNER_owned]) rfl]
    rfl
  rw [State.lbOwner, if_pos howned, State.fv_setF_self _ _ _ (by simp [F.MBX_OWNER_owner])]
  exact congrArg some (Nat.mod_eq_of_lt h)

/-- The first write claims an unowned letterbox (R118). -/
theorem State.lbOwner_claim {s : State} {n path : Nat} (hp : path < 128) (h : s.lbOwner n = none ∨ s.lbOwner n = some path) :
    (s.claim n path).lbOwner n = some path := by
  unfold State.claim
  rcases h with h | h
  · rw [h]
    exact s.lbOwner_setOwner n path hp
  · rw [h]
    exact h

theorem State.lbOwner_releaseLb (s : State) (n : Nat) : (s.releaseLb n).lbOwner n = none := by
  have howner : (F.MBX_OWNER_owner n).apart (F.MBX_OWNER_owned n) := .inr (.inr (by simp [F.MBX_OWNER_owned, F.MBX_OWNER_owner]))
  have hrelease : (F.MBX_OWNER_release n).apart (F.MBX_OWNER_owned n) := .inr (.inl (by simp [F.MBX_OWNER_owned, F.MBX_OWNER_release]))
  have howned : (s.releaseLb n).fb (F.MBX_OWNER_owned n) = false := by
    unfold State.releaseLb
    rw [State.fb_setF_ne _ _ hrelease, State.fb_setF_ne _ _ howner,
      State.fb_setF_self _ _ _ (by decide) (by simp [F.MBX_OWNER_owned]) rfl]
    rfl
  rw [State.lbOwner, howned]
  rfl

/-- What keeps an access from its register is never OK. -/
theorem State.pathGate_ne_ok (s : State) (path a : Nat) (write : Bool) : s.pathGate path a write ≠ some accOK := by
  have hinband : s.inbandGate path a ≠ some accOK := by
    unfold State.inbandGate
    cases lbOf a <;> dsimp only <;> split_ifs <;> simp [accOK, accNOACCESS, accNOTREADY, accDENIED]
  have hsideband : s.sidebandGate a ≠ some accOK := by
    unfold State.sidebandGate
    split_ifs <;> simp [accOK, accNOACCESS, accNOTREADY]
  have htest : s.testGate a write ≠ some accOK := by
    unfold State.testGate
    split_ifs <;> simp [accOK, accNOACCESS, accDENIED]
  unfold State.pathGate
  split_ifs <;> simp [*]

/-- A write that ends OK has the right to its register. -/
theorem State.writeCode_of_accessCode {s : State} {path addr : Nat} {data : Word} {late : Bool} {h : RegHit}
    (hok : s.accessCode path addr true data late = accOK) (hlow : offsetOf addr < 0x3F0000) (hl : lookupReg (offsetOf addr) = some h) :
    s.writeCode path (viewOf addr) h data = accOK := by
  unfold State.accessCode at hok
  dsimp only at hok
  cases hg : s.pathGate path (offsetOf addr) true with
  | some c =>
    have hc : c = accOK := by rwa [hg] at hok
    exact absurd (hc ▸ hg) (s.pathGate_ne_ok _ _ _)
  | none =>
    simp only [hg, hl, if_neg (Nat.not_le.mpr hlow), if_true] at hok
    split at hok
    · cases hok
    · exact hok

theorem State.lbBusy_of_writeCode {s : State} {path view : Nat} {h : RegHit} {data : Word} (hok : s.writeCode path view h data = accOK) :
    s.lbBusy path h = false := by
  by_contra hbusy
  rw [Bool.not_eq_false] at hbusy
  unfold State.writeCode at hok
  rw [if_pos hbusy] at hok
  split_ifs at hok <;> cases hok

/-- Only the owner of a letterbox, or one who may claim it, writes what commands it (R118). -/
theorem State.lbOwner_of_lbBusy {s : State} {path : Nat} {h : RegHit} (hfree : s.lbBusy path h = false)
    (hact : h.row.act = .mbxBuf ∨ h.row.act = .mbxDoorbell ∨ h.row.act = .mbxCtl) :
    s.lbOwner h.inst = none ∨ s.lbOwner h.inst = some path := by
  unfold State.lbBusy at hfree
  have hmbx : (h.row.act == .mbxBuf || h.row.act == .mbxDoorbell || h.row.act == .mbxCtl) = true := by
    rcases hact with h | h | h <;> rw [h] <;> rfl
  rw [hmbx, Bool.true_and] at hfree
  cases ho : s.lbOwner h.inst with
  | none => exact .inl rfl
  | some o =>
    rw [ho] at hfree
    exact .inr (by simpa using hfree)

/-! ### A doorbell rung -/

theorem State.ring_eq {s : State} {n : Nat} (hidle : (s.lb n).running = none) (hen : s.fb (F.MBX_CTL_enable n) = true)
    (hc : s.isContained (.letterbox n) = false) : s.ring n = s.startCommand n := by
  simp [State.ring, hidle, hen, hc]

/-- The command that a doorbell takes from the buffer stands in the letterbox as RUNNING. -/
def State.taken (s : State) (n : Nat) (code seq flags : Nat) (args : List Byte) : State :=
  (s.setF (F.MBX_CPL_word n) (cplWord seq cplRUNNING false 0)).modLb n fun _ =>
    { running := some (code, seq), flags := flags, args := args }

/-- The command that stands in the buffer as it is taken from there. -/
theorem State.startCommand_eq {s : State} {n code seq flags len : Nat} (h : s.lbHeader n = (code, seq, flags, len)) (r : Option Nat)
    (hr : (s.taken n code seq flags (s.bufBytes n 8 (min len 248))).startStatus n code flags = r) :
    s.startCommand n = r.elim
      (if 248 < len then (s.taken n code seq flags (s.bufBytes n 8 (min len 248))).fail n cplBADARG
        else s.taken n code seq flags (s.bufBytes n 8 (min len 248)))
      fun st => (s.taken n code seq flags (s.bufBytes n 8 (min len 248))).fail n st := by
  have hbytes (off len : Nat) : s.bufBytes n off len = (List.range len).map fun k => s.bufByte n (off + k) := rfl
  unfold State.lbHeader at h
  simp only [Prod.mk.injEq] at h
  obtain ⟨rfl, rfl, rfl, rfl⟩ := h
  simp [State.taken, hbytes, ofLeBytes, List.range_succ] at hr
  cases r <;> simp [State.startCommand, State.taken, hbytes, ofLeBytes, List.range_succ, hr]

/-- The register has taken the write, its letterbox has an owner, and the bit has cleared itself. -/
def State.knocked (s : State) (n path : Nat) (data : Word) : State :=
  ((s.putBits (R.MBX_DOORBELL n) data 0 1).claim n path).setF (F.MBX_DOORBELL_ring n) 0

theorem State.writeReg_doorbell (s : State) {n : Nat} (path : Nat) {data : Word} (hn : n < 6) (hring : data.field 0 1 = 1) :
    s.writeReg path (R.MBX_DOORBELL n) data = (s.knocked n path data).ring n := by
  have hrow : doorbellRow.MbxRow 0 1 := by unfold RegRow.MbxRow; decide
  rw [State.writeReg_mbx path data hrow (by unfold R.MBX_DOORBELL; omega) (by unfold R.MBX_DOORBELL; omega) (lookupReg_doorbell hn)
    (fun h => by cases h)]
  simp [State.writeEffect, doorbellRow, State.when, hring, State.knocked]

theorem State.knocked_only (s : State) (n path : Nat) (data : Word) :
    LiveOnly [R.MBX_OWNER n, R.MBX_DOORBELL n] s (s.knocked n path data) :=
  (((LiveOnly.putBits s _ _ _ _).trans (State.claim_only _ n path)).trans (.setF _ _ 0 rfl)).mono
    (by simp [F.MBX_DOORBELL_ring, R.MBX_DOORBELL])

theorem State.lbOwner_knocked {s : State} {n path : Nat} (data : Word) (hp : path < 128)
    (h : s.lbOwner n = none ∨ s.lbOwner n = some path) : (s.knocked n path data).lbOwner n = some path := by
  rw [State.knocked, (LiveOnly.setF _ _ 0 rfl).lbOwner (by simp [F.MBX_DOORBELL_ring, R.MBX_OWNER])]
  exact State.lbOwner_claim hp (by rwa [(LiveOnly.putBits s _ data 0 1).lbOwner (by simp [R.MBX_OWNER, R.MBX_DOORBELL])])

theorem State.taken_only (s : State) (n code seq flags : Nat) (args : List Byte) : LbOnly n [R.MBX_CPL n] s
    (s.taken n code seq flags args) :=
  ((LbOnly.of_live (.setF s _ _ rfl) n).trans (.modLb _ n _)).mono (by simp [F.MBX_CPL_word, R.MBX_CPL])

/-- A write of a doorbell that is taken comes from the path that then owns the letterbox. -/
theorem WriteTaken.lbOwner {s : State} {path addr : Nat} {data : Word} {h : RegHit} (ht : WriteTaken s path addr data)
    (haddr : addr < 0x3F0000)
    (h4 : addr % 4 = 0) (hl : lookupReg addr = some h) (hact : h.row.act = .mbxBuf ∨ h.row.act = .mbxDoorbell ∨ h.row.act = .mbxCtl) :
    s.lbOwner h.inst = none ∨ s.lbOwner h.inst = some path := by
  have ho : offsetOf addr = addr := offsetOf_low (by omega) h4
  exact State.lbOwner_of_lbBusy (State.lbBusy_of_writeCode (State.writeCode_of_accessCode ht.1 (by omega) (by rw [ho]; exact hl))) hact

/-- With a letterbox's buffer and header come the command it takes. -/
theorem LbOnly.lbHeader {n : Nat} {as : List Nat} {s t : State} (h : LbOnly n as s t) (ha : ∀ i, i < 64 → R.MBX_BUF n i ∉ as) :
    t.lbHeader n = s.lbHeader n := by
  have hbuf (off len : Nat) (hlen : off + len ≤ 256) := State.bufBytes_congr (fun i hi => h.2.1 _ (ha i hi)) hlen
  unfold State.lbHeader
  rw [hbuf, hbuf, hbuf, hbuf] <;> decide

theorem Ended.completes {s u t : State} {n status : Nat} {committed : Bool} {result : List Byte} (hlb : u.lb n = s.lb n)
    (h : Ended n (cplWord (u.lbSeq n) status committed result.length) result t) : Completes s t n status committed result := by
  refine ⟨h.idle, h.buf, fun code seq hrun => ?_⟩
  rw [h.word, State.lbSeq, hlb, hrun]
  rfl

/-- What a letterbox has done before its command ends. -/
theorem LbMoves.then {n : Nat} {s t u : State} (h : LbMoves n s t) (h' : OnlyLetterbox t u n) : OnlyLetterbox s u n := by
  obtain ⟨he, hlive, hlbs⟩ := h
  obtain ⟨he', hlive', hlbs', l, hlinks, hfreed⟩ := h'
  have hlink (k : Nat) : t.link k = s.link k := by rw [he]; rfl
  refine ⟨?_, hlive.trans hlive' (List.Subset.refl _) (List.Subset.refl _), fun k hk => (hlbs' k hk).trans (hlbs k hk), l,
    fun k hk => (hlinks k hk).trans (hlink k), hfreed.congr (fun f hf => .inl (hlink l ▸ hf)) ?_ ?_ ?_ rfl rfl⟩
  · rw [he', he]
  all_goals rw [he]
  rfl

/-! ### The registers of a letterbox (R118-R121) -/

/-- A write of a buffer is stored, and claims the letterbox. -/
theorem State.writeReg_buf {s : State} {n i : Nat} (path : Nat) (data : Word) (hn : n < 6) (hi : i < 64) (hidle : (s.lb n).running = none) :
    s.writeReg path (R.MBX_BUF n i) data = (s.putBits (R.MBX_BUF n i) data (BitVec.allOnes 32) 0).claim n path := by
  have hrow : bufRow.MbxRow (BitVec.allOnes 32) 0 := by unfold RegRow.MbxRow; decide
  rw [State.writeReg_mbx path data hrow (by unfold R.MBX_BUF; omega) (by unfold R.MBX_BUF; omega) (lookupReg_buf hn hi) fun _ => hidle]
  rfl

theorem mbxBufWrite_claims (n : Lb) (i : Fin 64) (path : Path) (data : Word) (s : State)
    (ht : WriteTaken s path.val (R.MBX_BUF n.val i.val) data)
    (hidle : (s.lb n.val).running = none) :
    ∃ t, exec (.mbxBufWrite n i path data) s = .next t ∧ t.live.val (R.MBX_BUF n.val i.val) = data ∧ t.lbOwner n.val = some path.val ∧
      t = { s with live := t.live } ∧ LiveBut [R.MBX_BUF n.val i.val, R.MBX_OWNER n.val] s t := by
  have howner := ht.lbOwner (by unfold R.MBX_BUF; omega) (by unfold R.MBX_BUF; omega) (lookupReg_buf n.isLt i.isLt) (.inl rfl)
  have hput := LiveOnly.putBits s (R.MBX_BUF n.val i.val) data (BitVec.allOnes 32) 0
  have hclaim := (s.putBits (R.MBX_BUF n.val i.val) data (BitVec.allOnes 32) 0).claim_only n.val path.val
  have hne : R.MBX_BUF n.val i.val ≠ R.MBX_OWNER n.val := by unfold R.MBX_BUF R.MBX_OWNER; omega
  obtain ⟨he, hlive⟩ := hput.trans hclaim
  refine ⟨_, by rw [exec, execMbxBufWrite, ht.regCommand, State.writeReg_buf path.val data n.isLt i.isLt hidle], ?_, ?_, he, hlive⟩
  · have hall : data &&& 4294967295#32 = data := BitVec.and_allOnes
    rw [hclaim.2 _ (by simpa using hne)]
    simp [State.putBits, hall]
  · refine State.lbOwner_claim (by omega) ?_
    rwa [hput.lbOwner (by simpa using hne.symm)]

theorem State.isContained_letterbox (s : State) (n : Nat) : s.isContained (.letterbox n) = (s.fv F.FLT_CONTAIN_MISC_lb).testBit n := rfl

/-- Whether a command may start is as the claim alone has it. -/
theorem LiveOnly.startStatus_taken {s k : State} {n path : Nat} (code seq flags : Nat) (args : List Byte)
    (h : LiveOnly [R.MBX_OWNER n, R.MBX_DOORBELL n] s k) (ho : k.lbOwner n = (s.claim n path).lbOwner n) :
    (k.taken n code seq flags args).startStatus n code flags = (s.claim n path).startStatus n code flags := by
  have hclaim := LbOnly.of_live (s.claim_only n path) n
  have htaken := k.taken_only n code seq flags args
  refine ((hclaim.symm.trans (.of_live h n)).trans htaken).startStatus (fun a ha => ?_) ?_ code flags
  · simp only [List.cons_append, List.nil_append, List.mem_cons, List.not_mem_nil, or_false, R.MBX_OWNER, R.MBX_DOORBELL, R.MBX_CPL] at ha
    omega
  · rw [htaken.lbOwner (by simp [R.MBX_OWNER, R.MBX_CPL]), ho]

/-- A doorbell that is taken: of the state `k` in which the letterbox has its owner, it takes the command of the buffer. -/
structure Knocks (s k : State) (n path code seq flags len : Nat) : Prop where
  only : LiveOnly [R.MBX_OWNER n, R.MBX_DOORBELL n] s k
  owner : k.lbOwner n = some path
  header : k.lbHeader n = (code, seq, flags, len)
  start : ∀ args, (k.taken n code seq flags args).startStatus n code flags = (s.claim n path).startStatus n code flags

theorem mbxDoorbell_knocks {n : Lb} {path : Path} {data : Word} {s : State} {code seq flags len : Nat}
    (ht : WriteTaken s path.val (R.MBX_DOORBELL n.val) data) (hring : data.field 0 1 = 1) (hidle : (s.lb n.val).running = none)
    (hen : s.fb (F.MBX_CTL_enable n.val) = true) (hc : s.isContained (.letterbox n.val) = false)
    (hhead : s.lbHeader n.val = (code, seq, flags, len)) :
    ∃ k, exec (.mbxDoorbell n path data) s = .next (k.startCommand n.val) ∧ Knocks s k n.val path.val code seq flags len := by
  have hs := ht.lbOwner (by unfold R.MBX_DOORBELL; omega) (by unfold R.MBX_DOORBELL; omega) (lookupReg_doorbell n.isLt) (.inr (.inl rfl))
  have honly := s.knocked_only n.val path.val data
  have howner := State.lbOwner_knocked data (by omega) hs
  have hwrite := State.writeReg_doorbell s path.val n.isLt hring
  generalize s.knocked n.val path.val data = k at honly howner hwrite
  have hlb := LbOnly.of_live honly n.val
  have hen' : k.fb (F.MBX_CTL_enable n.val) = true := by
    rwa [hlb.fb _ (by simp [F.MBX_CTL_enable, R.MBX_OWNER, R.MBX_DOORBELL])]
  have hc' : k.isContained (.letterbox n.val) = false := by
    rw [State.isContained_letterbox] at hc ⊢
    rwa [hlb.fv _ (by simp [F.FLT_CONTAIN_MISC_lb, R.MBX_OWNER, R.MBX_DOORBELL]; omega)]
  have hidle' : (k.lb n.val).running = none := by rwa [honly.lb]
  refine ⟨k, by rw [exec, execMbxDoorbell, ht.regCommand, hwrite, State.ring_eq hidle' hen' hc'], honly, howner, ?_, fun args => ?_⟩
  · rwa [hlb.lbHeader fun i _ => by simp [R.MBX_BUF, R.MBX_OWNER, R.MBX_DOORBELL]; omega]
  · exact honly.startStatus_taken code seq flags args (by rw [howner, State.lbOwner_claim (by omega) hs])

/-- A status that keeps a command from its start raises nothing (R135). -/
theorem State.startStatus_raises {s : State} {n code flags st : Nat} (h : s.startStatus n code flags = some st) : cplSource st = none := by
  unfold State.startStatus at h
  cases hrow : cmdRows.find? (fun r => r.code == code) with
  | none =>
    rw [hrow] at h
    cases h
    rfl
  | some r =>
    rw [hrow] at h
    dsimp only at h
    split_ifs at h <;> cases h <;> rfl

theorem State.fv_modLb (s : State) (n : Nat) (f : LbSt → LbSt) (g : Fld) : (s.modLb n f).fv g = s.fv g := rfl

theorem State.taken_word (s : State) (n code seq flags : Nat) (args : List Byte) :
    (s.taken n code seq flags args).fv (F.MBX_CPL_word n) = cplWord seq cplRUNNING false 0 := by
  rw [State.taken, State.fv_modLb, State.fv_setF_self _ _ _ (by simp [F.MBX_CPL_word])]
  exact Nat.mod_eq_of_lt (cplWord_lt seq cplRUNNING false 0)

theorem mbxDoorbell_runs (n : Lb) (path : Path) (data : Word) (s : State) (code seq flags len : Nat)
    (ht : WriteTaken s path.val (R.MBX_DOORBELL n.val) data) (hring : data.field 0 1 = 1) (hidle : (s.lb n.val).running = none)
    (hen : s.fb (F.MBX_CTL_enable n.val) = true) (hc : s.isContained (.letterbox n.val) = false)
    (hhead : s.lbHeader n.val = (code, seq, flags, len)) (hlen : len ≤ 248)
    (hstart : (s.claim n.val path.val).startStatus n.val code flags = none) :
    ∃ t, exec (.mbxDoorbell n path data) s = .next t ∧ t.lb n.val =
      { running := some (code, seq), flags := flags, args := s.bufBytes n.val 8 len } ∧
      t.fv (F.MBX_CPL_word n.val) = cplWord seq cplRUNNING false 0 ∧ t.lbOwner n.val = some path.val ∧
      t = { s with live := t.live, lbs := t.lbs } ∧ LiveBut [R.MBX_CPL n.val, R.MBX_OWNER n.val, R.MBX_DOORBELL n.val] s t ∧
      ∀ k, k ≠ n.val → t.lb k = s.lb k := by
  obtain ⟨k, hexec, honly, howner, hhead', hstart'⟩ := mbxDoorbell_knocks ht hring hidle hen hc hhead
  have hargs : k.bufBytes n.val 8 (min len 248) = s.bufBytes n.val 8 len := by
    rw [Nat.min_eq_left hlen]
    exact State.bufBytes_congr (fun i _ => honly.2 _ (by simp [R.MBX_BUF, R.MBX_OWNER, R.MBX_DOORBELL]; omega)) (by omega)
  have htaken := k.taken_only n.val code seq flags (s.bufBytes n.val 8 len)
  obtain ⟨he, hlive, hlbs⟩ := ((LbOnly.of_live honly n.val).trans htaken).mono
    (bs := [R.MBX_CPL n.val, R.MBX_OWNER n.val, R.MBX_DOORBELL n.val]) (by simp)
  refine ⟨k.taken n.val code seq flags (s.bufBytes n.val 8 len), ?_, State.lb_modLb_self _ _ _, State.taken_word .., ?_, he, hlive, hlbs⟩
  · rw [hexec, State.startCommand_eq hhead' _ ((hstart' _).trans hstart), Option.elim_none, if_neg (Nat.not_lt.mpr hlen), hargs]
  · rw [htaken.lbOwner (by simp [R.MBX_OWNER, R.MBX_CPL]), howner]

theorem mbxDoorbell_refuses (n : Lb) (path : Path) (data : Word) (s : State) (code seq flags len st : Nat)
    (ht : WriteTaken s path.val (R.MBX_DOORBELL n.val) data) (hring : data.field 0 1 = 1) (hidle : (s.lb n.val).running = none)
    (hen : s.fb (F.MBX_CTL_enable n.val) = true) (hc : s.isContained (.letterbox n.val) = false)
    (hhead : s.lbHeader n.val = (code, seq, flags, len))
    (hstart : (s.claim n.val path.val).startStatus n.val code flags = some st) :
    ∃ t, exec (.mbxDoorbell n path data) s = .next t ∧ t.lb n.val = {} ∧ t.fv (F.MBX_CPL_word n.val) = cplWord seq st false 0 ∧
      OnlyLetterbox s t n.val := by
  obtain ⟨k, hexec, honly, howner, hhead', hstart'⟩ := mbxDoorbell_knocks ht hring hidle hen hc hhead
  have hstart' := (hstart' (k.bufBytes n.val 8 (min len 248))).trans hstart
  have hstep := State.startCommand_eq hhead' _ hstart'
  have htaken := k.taken_only n.val code seq flags (k.bufBytes n.val 8 (min len 248))
  have hlb : (k.taken n.val code seq flags (k.bufBytes n.val 8 (min len 248))).lb n.val =
    { running := some (code, seq), flags := flags, args := k.bufBytes n.val 8 (min len 248) } := State.lb_modLb_self _ _ _
  generalize k.taken n.val code seq flags (k.bufBytes n.val 8 (min len 248)) = u at hstart' hstep htaken hlb
  have hquiet : MildEnd u n.val st := fun c hk => by rw [State.startStatus_raises hstart'] at hk; cases hk
  obtain ⟨hended, hends⟩ := State.complete_ends false (result := []) n.isLt (by simp) (by rw [hlb]) hquiet
  refine ⟨u.fail n.val st, ?_, hended.idle, ?_, (((LbOnly.of_live honly n.val).trans htaken).moves (by simp [lbRegs])).then hends⟩
  · rw [hexec, hstep, Option.elim_some]
  · rw [State.fail, hended.word, State.lbSeq, hlb]
    rfl

/-! ### A command ended early, and a release -/

/-- Dropping the work of a letterbox leaves its registers and its own state. -/
theorem State.endEarly_eq {s : State} {n : Nat} (status : Nat) (hrun : (s.lb n).running.isSome = true) (hc : (s.lb n).committed = false) :
    s.endEarly n status = (s.dropWork n).complete n status false [] := by
  simp [State.endEarly, hrun, hc]

/-- A command that has not committed ends with the status, and what it has begun is dropped. -/
theorem State.endEarly_ends {s : State} {n : Nat} (status : Nat) (hn : n < 6) (hrun : (s.lb n).running.isSome = true)
    (hc : (s.lb n).committed = false) (hr : (s.lb n).restarted = false) (hm : Mild s 656 692) :
    Completes s (s.endEarly n status) n status false [] ∧ OnlyLetterbox (s.dropWork n) (s.endEarly n status) n := by
  rw [State.endEarly_eq status hrun hc]
  obtain ⟨hended, honly⟩ := State.complete_ends (s := s.dropWork n) (status := status) false (result := []) hn (by simp) hr
    ((hm.end hn status).congr rfl)
  exact ⟨hended.completes rfl, honly⟩

theorem Word.field_bit (x : Word) (i : Nat) : x.field i 1 = (x.getLsbD i).toNat := by
  rw [Word.field, ← BitVec.testBit_toNat, Nat.toNat_testBit, Nat.shiftRight_eq_div_pow, pow_one]

/-- Asking a letterbox that runs a command for its end ends it (R121). -/
theorem State.writeReg_abort {s : State} {n : Nat} (path : Nat) {data : Word} (hn : n < 6) (hask : data.field 2 1 = 1)
    (hrun : (s.lb n).running.isSome = true) :
    s.writeReg path (R.MBX_CTL n) data = (s.putBits (R.MBX_CTL n) data 3 4).endEarly n cplABORTED := by
  have hrow : ctlRow.MbxRow 3 4 := by unfold RegRow.MbxRow; decide
  have hasked : (s.putBits (R.MBX_CTL n) data 3 4).fb (F.MBX_CTL_abort n) = true := by
    have hbit : data.getLsbD 2 = true := by simpa [Word.field_bit] using hask
    simp [State.fb, State.fv, RegMap.fv, F.MBX_CTL_abort, R.MBX_CTL, State.putBits, Word.field_bit, hbit]
  rw [State.writeReg_mbx path data hrow (by unfold R.MBX_CTL; omega) (by unfold R.MBX_CTL; omega) (lookupReg_ctl hn) (fun h => by cases h)]
  have hrun' : ((s.putBits (R.MBX_CTL n) data 3 4).lb n).running ≠ none := by
    rw [(LiveOnly.putBits s _ data 3 4).lb]
    exact Option.isSome_iff_ne_none.mp hrun
  generalize s.putBits (R.MBX_CTL n) data 3 4 = u at hasked hrun' ⊢
  simp [State.writeEffect, ctlRow, hasked, hrun']

theorem mbxAbort_ends (n : Lb) (path : Path) (data : Word) (s : State) (ht : WriteTaken s path.val (R.MBX_CTL n.val) data)
    (hask : data.field 2 1 = 1) (hrun : (s.lb n.val).running.isSome = true) (hc : (s.lb n.val).committed = false)
    (hr : (s.lb n.val).restarted = false) (hm : Mild s 656 692) :
    ∃ t, exec (.mbxAbort n path data) s = .next t ∧ Completes s t n.val cplABORTED false [] ∧
      OnlyLetterbox (s.dropWork n.val) t n.val := by
  have hput := LiveOnly.putBits s (R.MBX_CTL n.val) data 3 4
  have hlb := hput.lb n.val
  obtain ⟨hended, honly⟩ := State.endEarly_ends (s := s.putBits (R.MBX_CTL n.val) data 3 4) cplABORTED n.isLt (by rw [hlb]; exact hrun)
    (by rw [hlb]; exact hc) (by rw [hlb]; exact hr) fun src hlo hhi => by
      rw [State.severityOf_congr (by rw [hput.1])]
      exact hm src hlo hhi
  have hdrop := (LbOnly.of_live (LiveOnly.putBits (s.dropWork n.val) (R.MBX_CTL n.val) data 3 4) n.val).moves (by simp [lbRegs])
  refine ⟨_, by rw [exec, execMbxAbort, ht.regCommand, State.writeReg_abort path.val n.isLt hask hrun], ?_, hdrop.then honly⟩
  unfold Completes at hended ⊢
  rwa [hlb] at hended

/-- Bits that are set elsewhere leave a field as it is. -/
theorem Word.field_or {x y : Word} {lo w : Nat} (h : ∀ i, i < w → y.getLsbD (lo + i) = false) : (x ||| y).field lo w = x.field lo w := by
  apply Nat.eq_of_testBit_eq
  intro i
  rw [Word.field, Word.field, Nat.testBit_field, Nat.testBit_field, BitVec.toNat_or, Nat.testBit_or]
  by_cases hi : i < w
  · have hy : y.toNat.testBit (lo + i) = false := by rw [BitVec.testBit_toNat, h i hi]
    simp [hy]
  · simp [hi]

/-- Asking for a release changes nothing of who owns the letterbox. -/
theorem State.lbOwner_askRelease (s : State) (n : Nat) (data : Word) :
    ((s.putBits (R.MBX_OWNER n) data 0 0x100).setF (F.MBX_OWNER_release n) 0).lbOwner n = s.lbOwner n := by
  have hbits : ∀ i, i < 8 → (0x100 : Word).getLsbD i = false := by decide
  have hput (lo w : Nat) (h : lo + w ≤ 8) :
      ((s.putBits (R.MBX_OWNER n) data 0 0x100).live.val (R.MBX_OWNER n)).field lo w = (s.live.val (R.MBX_OWNER n)).field lo w := by
    have hzero : (s.live.val (R.MBX_OWNER n) &&& ~~~0 ||| data &&& 0) = s.live.val (R.MBX_OWNER n) := by
      have hones (x : Word) : x &&& 4294967295#32 = x := BitVec.and_allOnes
      simp [hones]
    rw [State.putBits, RegMap.val_put_self, hzero]
    refine Word.field_or fun i hi => ?_
    rw [BitVec.getLsbD_and, hbits _ (by omega), Bool.and_false]
  have howned : (F.MBX_OWNER_release n).apart (F.MBX_OWNER_owned n) := .inr (.inl (by simp [F.MBX_OWNER_owned, F.MBX_OWNER_release]))
  have howner : (F.MBX_OWNER_release n).apart (F.MBX_OWNER_owner n) := .inr (.inl (by simp [F.MBX_OWNER_owner, F.MBX_OWNER_release]))
  unfold State.lbOwner State.fb
  rw [State.fv_setF_ne _ _ howned, State.fv_setF_ne _ _ howner]
  have howned' : (s.putBits (R.MBX_OWNER n) data 0 0x100).fv (F.MBX_OWNER_owned n) = s.fv (F.MBX_OWNER_owned n) := hput 7 1 (by decide)
  have howner' : (s.putBits (R.MBX_OWNER n) data 0 0x100).fv (F.MBX_OWNER_owner n) = s.fv (F.MBX_OWNER_owner n) := hput 0 7 (by decide)
  rw [howned', howner']

/-- What a letterbox's owner asks for when it releases it: at once, or at the end of the command that runs (log 20). -/
theorem State.writeReg_release {s : State} {n : Nat} (path : Nat) {data : Word} (hn : n < 6) (hask : data.field 8 1 = 1)
    (ho : s.lbOwner n = some path) :
    ∃ u, LiveOnly [R.MBX_OWNER n] s u ∧ u.lbOwner n = some path ∧ s.writeReg path (R.MBX_OWNER n) data =
      if (s.lb n).running.isSome then u.modLb n fun L => { L with releaseAtEnd := true } else u.releaseLb n := by
  have hrow : ownerRow.MbxRow 0 0x100 := by unfold RegRow.MbxRow; decide
  have honly := ((LiveOnly.putBits s (R.MBX_OWNER n) data 0 0x100).trans (.setF _ (F.MBX_OWNER_release n) 0 rfl)).mono
    (bs := [R.MBX_OWNER n]) (by simp [F.MBX_OWNER_release, R.MBX_OWNER])
  have howner := (s.lbOwner_askRelease n data).trans ho
  refine ⟨_, honly, howner, ?_⟩
  rw [State.writeReg_mbx path data hrow (by unfold R.MBX_OWNER; omega) (by unfold R.MBX_OWNER; omega) (lookupReg_owner hn)
    (fun h => by cases h),
    ← honly.lb]
  simp only [State.writeEffect, ownerRow, hask]
  generalize (s.putBits (R.MBX_OWNER n) data 0 0x100).setF (F.MBX_OWNER_release n) 0 = u at howner ⊢
  simp [howner]

theorem mbxRelease_frees (n : Lb) (path : Path) (data : Word) (s : State) (ht : WriteTaken s path.val (R.MBX_OWNER n.val) data)
    (hask : data.field 8 1 = 1) (ho : s.lbOwner n.val = some path.val) (hidle : (s.lb n.val).running = none) :
    ∃ t, exec (.mbxRelease n path data) s = .next t ∧ t.lbOwner n.val = none ∧ t = { s with live := t.live } ∧
      LiveBut [R.MBX_OWNER n.val] s t := by
  obtain ⟨u, honly, -, hwrite⟩ := State.writeReg_release path.val n.isLt hask ho
  obtain ⟨he, hlive⟩ := (honly.trans (u.releaseLb_only n.val)).mono (bs := [R.MBX_OWNER n.val]) (by simp)
  refine ⟨_, ?_, u.lbOwner_releaseLb n.val, he, hlive⟩
  rw [exec, execMbxRelease, ht.regCommand, hwrite, hidle]
  rfl

theorem mbxRelease_waits (n : Lb) (path : Path) (data : Word) (s : State) (ht : WriteTaken s path.val (R.MBX_OWNER n.val) data)
    (hask : data.field 8 1 = 1) (ho : s.lbOwner n.val = some path.val) (hrun : (s.lb n.val).running.isSome = true) :
    ∃ t, exec (.mbxRelease n path data) s = .next t ∧ t.lbOwner n.val = some path.val ∧
      t.lb n.val = { s.lb n.val with releaseAtEnd := true } ∧ t = { s with live := t.live, lbs := t.lbs } ∧
      LiveBut [R.MBX_OWNER n.val] s t := by
  obtain ⟨u, honly, howner, hwrite⟩ := State.writeReg_release path.val n.isLt hask ho
  have hmark := LbOnly.modLb u n.val fun L => { L with releaseAtEnd := true }
  obtain ⟨he, hlive, -⟩ := ((LbOnly.of_live honly n.val).trans hmark).mono (bs := [R.MBX_OWNER n.val]) (by simp)
  refine ⟨_, ?_, ?_, ?_, he, hlive⟩
  · rw [exec, execMbxRelease, ht.regCommand, hwrite, if_pos hrun]
  · rw [hmark.lbOwner (by simp), howner]
  · rw [State.lb_modLb_self, honly.lb]

/-! ### The timers of a letterbox (R118, R121, R128) -/

/-- An access or a commit in the cycle of expiry is counted, and nothing else happens. -/
theorem State.nearMiss_counts (s : State) (n : Nat) :
    Counted (F.MBX_CNT_NEARMISS_count n) s (s.inc (F.MBX_CNT_NEARMISS_count n)) ∧
    LiveOnly [R.MBX_CNT_NEARMISS n] s (s.inc (F.MBX_CNT_NEARMISS_count n)) :=
  ⟨State.fv_inc_self _ _ (by simp [F.MBX_CNT_NEARMISS_count]), LiveOnly.setF s (F.MBX_CNT_NEARMISS_count n) _ rfl⟩

theorem mbxTimers_expire (n : Lb) (s : State) :
    ((s.lb n.val).running = none → (s.lbOwner n.val).isSome = true →
      (∃ t, exec (.mbxClaimTimeout n false) s = .next t ∧ t.lbOwner n.val = none ∧ t = { s with live := t.live } ∧
        LiveBut [R.MBX_OWNER n.val] s t) ∧
      (∃ t, exec (.mbxClaimTimeout n true) s = .next t ∧ Counted (F.MBX_CNT_NEARMISS_count n.val) s t ∧ t.lbOwner n.val = s.lbOwner n.val ∧
        t = { s with live := t.live } ∧ LiveBut [R.MBX_CNT_NEARMISS n.val] s t)) ∧
    ((s.lb n.val).running.isSome = true → (s.lb n.val).committed = false → (s.lb n.val).restarted = false → Mild s 656 692 →
      (∃ t, exec (.mbxDeadlineExpiry n false) s = .next t ∧ Completes s t n.val cplDEADLINE false [] ∧
        OnlyLetterbox (s.dropWork n.val) t n.val) ∧
      (∃ t, exec (.mbxDeadlineExpiry n true) s = .next t ∧ Counted (F.MBX_CNT_NEARMISS_count n.val) s t ∧
        t = { s with live := t.live } ∧ LiveBut [R.MBX_CNT_NEARMISS n.val] s t)) := by
  obtain ⟨hcount, honly⟩ := s.nearMiss_counts n.val
  refine ⟨fun hidle howned => ⟨⟨s.releaseLb n.val, ?_, s.lbOwner_releaseLb n.val, s.releaseLb_only n.val⟩,
      ⟨s.inc (F.MBX_CNT_NEARMISS_count n.val), ?_, hcount, honly.lbOwner (by simp [R.MBX_OWNER, R.MBX_CNT_NEARMISS]), honly⟩⟩,
    fun hrun hc hr hm => ⟨⟨s.endEarly n.val cplDEADLINE, ?_, State.endEarly_ends cplDEADLINE n.isLt hrun hc hr hm⟩,
      ⟨s.inc (F.MBX_CNT_NEARMISS_count n.val), ?_, hcount, honly⟩⟩⟩
  · simp [exec, execMbxClaimTimeout, hidle, Option.isSome_iff_ne_none.mp howned]
  · simp [exec, execMbxClaimTimeout, hidle, Option.isSome_iff_ne_none.mp howned]
  · simp [exec, execMbxDeadlineExpiry, Option.isSome_iff_ne_none.mp hrun]
  · simp [exec, execMbxDeadlineExpiry, Option.isSome_iff_ne_none.mp hrun]

/-- Settles O28: the registers of a letterbox and its timers, each by the lemma on its own. -/
theorem letterboxesAreRungAndTimed : Obligations.LetterboxesAreRungAndTimed :=
  ⟨⟨mbxBufWrite_claims, mbxDoorbell_runs, mbxDoorbell_refuses, mbxAbort_ends, mbxRelease_frees, mbxRelease_waits⟩, mbxTimers_expire⟩

end Sys2Proof.Machine

namespace Sys2Proof.Machine

/-! ## Commands that only tell -/

/-! ### What every command's row does -/

theorem State.command_runs {s : State} {n code need : Nat} {f : LbSt → State → State} (h : LbRuns s n code)
    (hargs : need ≤ (s.lb n).args.length) : s.command n code need f = .next (f (s.lb n) s) := by
  simp [State.command, h.1, Nat.not_lt.mpr hargs]

theorem State.command_short {s : State} {n code need : Nat} {f : LbSt → State → State} (h : LbRuns s n code)
    (hargs : (s.lb n).args.length < need) : s.command n code need f = .next (s.fail n cplBADARG) := by
  simp [State.command, h.1, hargs]

theorem State.command_still {s : State} {n code need : Nat} {f : LbSt → State → State} (h : s.runs n code = false) :
    s.command n code need f = .next s := by
  simp [State.command, h]

/-- A command that completes tells its status and its result. -/
theorem LbRuns.completes {s : State} {n code status : Nat} (h : LbRuns s n code) (committed : Bool) {result : List Byte} (hn : n < 6)
    (hlen : result.length ≤ 248) (hm : MildEnd s n status) :
    Completes s (s.complete n status committed result) n status committed result ∧
    OnlyLetterbox s (s.complete n status committed result) n := by
  obtain ⟨hended, honly⟩ := State.complete_ends committed hn hlen h.2 hm
  exact ⟨hended.completes rfl, honly⟩

theorem LbRuns.tells {s : State} {n code need : Nat} {c : Instr} {f : LbSt → State → State}
    {r : Host.Outcome State Fault Refusal} {bytes : List Byte} (h : LbRuns s n code) (hn : n < 6) (hexec : exec c s = r)
    (hcmd : r = s.command n code need f) (hargs : need ≤ (s.lb n).args.length) (hf : f (s.lb n) s = s.done n bytes)
    (hlen : bytes.length ≤ 248) : Tells c s n bytes :=
  ⟨_, ((hexec.trans hcmd).trans (State.command_runs h hargs)).trans (congrArg Host.Outcome.next hf), h.completes true hn hlen (.ok s n)⟩

/-- The command's row is the command `code` of letterbox `n`, which takes `need` bytes of arguments. -/
def IsCommand (c : Instr) (s : State) (n code need : Nat) : Prop := ∃ f, exec c s = s.command n code need f

theorem IsCommand.short {c : Instr} {s : State} {n code need : Nat} (h : IsCommand c s n code need) (hn : n < 6) (hruns : LbRuns s n code)
    (hargs : (s.lb n).args.length < need) :
    ∃ t, exec c s = .next t ∧ Completes s t n cplBADARG false [] ∧ OnlyLetterbox s t n := by
  obtain ⟨f, hexec⟩ := h
  exact ⟨_, hexec.trans (State.command_short hruns hargs), hruns.completes false hn (by simp) fun k hk => by cases hk⟩

theorem IsCommand.still {c : Instr} {s : State} {n code need : Nat} (h : IsCommand c s n code need) (hruns : s.runs n code = false) :
    exec c s = .next s := by
  obtain ⟨f, hexec⟩ := h
  exact hexec.trans (State.command_still hruns)

/-! ### The lengths of results -/

@[simp] theorem length_leBytes (n v : Nat) : (leBytes n v).length = n := by simp [leBytes]

theorem leBytes_one (v : Nat) : leBytes 1 v = [BitVec.ofNat 8 v] := rfl

@[simp] theorem State.length_serial (s : State) : s.serial.length = 8 := by simp [State.serial, List.range_succ]

@[simp] theorem length_testResBytes (r : TestRes) : r.bytes.length = 24 := by simp [TestRes.bytes]

@[simp] theorem length_logEntryBytes (e : LogEntry) : e.bytes.length = 32 := by simp [LogEntry.bytes]

@[simp] theorem length_edEncode (p : EdPoint) : (edEncode p).length = 57 := by simp [edEncode]

@[simp] theorem length_edPublic (key : List Byte) : (edPublic key).length = 57 := by simp [edPublic]

@[simp] theorem length_edSign (key ctx msg : List Byte) : (edSign key ctx msg).length = 114 := by simp [edSign]

theorem planOf_ports (cfg : RegMap) : (planOf cfg).ports = (List.range 64).map fun p =>
      { enable := cfg.fv (F.PRT_CTL_enable p) != 0
        rt := cfg.fv (F.PRT_CTL_rt p) != 0
        mgmt := cfg.fv (F.PRT_CTL_mgmt p) != 0
        weight := cfg.fv (F.PRT_CTL_weight p) + 1
        limit := limitOf cfg p
        budget := max 1 (cfg.fv (F.PRT_ACT_budget p))
        ops := cfg.fv (F.PRT_OPS_ops p)
        g := (List.range 32).map (guar cfg p)
        quotas := [cfg.fv (F.PRT_QUOTA_hlk p), cfg.fv (F.PRT_QUOTA_lpm p), cfg.fv (F.PRT_QUOTA_enq p), cfg.fv (F.PRT_QUOTA_deq p)] } := rfl

/-- A port has four quotas (R184). -/
theorem length_quotas {cfg : RegMap} {p : Nat} {x : PlanPort} (h : (planOf cfg).ports[p]? = some x) : x.quotas.length = 4 := by
  rw [planOf_ports, List.getElem?_map, Option.map_eq_some_iff] at h
  obtain ⟨k, -, rfl⟩ := h
  rfl

theorem length_portRecord (x : PlanPort) : (portRecord x).length = 12 + x.quotas.length := by
  simp [portRecord, List.length_flatMap]
  omega

/-! ### The commands one by one -/

section
variable {n : Lb} {s : State}

theorem infoId_tells (h : LbRuns s n.val 0x0101) : Tells (.infoId n) s n.val (leBytes 4 0x9616 ++
    leBytes 1 (if Config.grade = .dv9616_16 then 16 else 14) ++ [Config.siliconStep] ++ leBytes 2 s.sec.running.fw ++ s.serial ++
      leBytes 8 0) :=
  h.tells n.isLt (r := execInfoId n s) rfl rfl (Nat.zero_le _) rfl (by simp)

theorem infoStatus_tells (h : LbRuns s n.val 0x0102) : Tells (.infoStatus n) s n.val
    (leBytes 4 s.statusWord ++ leBytes 4 (s.live.val R.CFG_STATUS).toNat ++ leBytes 8 s.summary) :=
  h.tells n.isLt (r := execInfoStatus n s) rfl rfl (Nat.zero_le _) rfl (by simp)

theorem infoCaps_tells (h : LbRuns s n.val 0x0103) : Tells (.infoCaps n) s n.val (leBytes 2 s.sec.running.rcp ++
    leBytes 2 ((List.range 128).filter fun e => !s.engineOut e).length ++ leBytes 4 s.degradedMask) :=
  h.tells n.isLt (r := execInfoCaps n s) rfl rfl (Nat.zero_le _) rfl (by simp)

theorem modeGet_tells (h : LbRuns s n.val 0x0201) : Tells (.modeGet n) s n.val (leBytes 1 s.mode ++ leBytes 1 (s.fv F.PWR_MODE_prev) ++
    leBytes 1 (if s.fb F.PWR_MODE_pending then s.fv F.PWR_MODE_target else 0xFF) ++ leBytes 1 0 ++
    leBytes 4 (s.fv F.PWR_MODE_EPOCH_epoch) ++ leBytes 2 (s.fv F.PWR_STATUS_draw)) :=
  h.tells n.isLt (r := execModeGet n s) rfl rfl (Nat.zero_le _) rfl (by simp)

theorem planGet_tells (h : LbRuns s n.val 0x0304) (hargs : 2 ≤ (s.lb n.val).args.length) (hi : (s.lb n.val).arg 0 2 < 14) {c : List Byte}
    (hc : c = ((planImage s.active s.mode s.planId).drop (240 * (s.lb n.val).arg 0 2)).take 240) :
    Tells (.planGet n) s n.val (leBytes 2 14 ++ leBytes 2 c.length ++ leBytes 4 0 ++ c) := by
  have hlen : c.length ≤ 240 := hc ▸ List.length_take_le _ _
  refine h.tells n.isLt (r := execPlanGet n s) rfl rfl hargs ?_ (by simp; omega)
  simp only [if_neg (Nat.not_le.mpr hi), hc]

theorem portGet_tells {x : PlanPort} (h : LbRuns s n.val 0x0402) (hargs : 1 ≤ (s.lb n.val).args.length)
    (hx : (planOf s.active).ports[(s.lb n.val).arg 0 1]? = some x) :
    Tells (.portGet n) s n.val (portRecord x ++ leBytes 4 (s.prtStatus ((s.lb n.val).arg 0 1))) := by
  refine h.tells n.isLt (r := execPortGet n s) rfl rfl hargs ?_ (by simp [length_portRecord, length_quotas hx])
  simp only [hx]

theorem zoneGet_tells (h : LbRuns s n.val 0x0502) (hargs : (s.lb n.val).args.length < 5) :
    Tells (.zoneGet n) s n.val ((List.range 24).flatMap fun z => leBytes 1 (s.fv (F.MAP_ZONE_order z))) := by
  refine h.tells n.isLt (r := execZoneGet n s) rfl rfl (Nat.zero_le _) ?_ (by simp)
  simp only [if_pos hargs, List.append_nil]

theorem zoneGet_locates (h : LbRuns s n.val 0x0502) (hargs : 5 ≤ (s.lb n.val).args.length) (ha : (s.lb n.val).arg 0 5 < dramTop) {l : Loc}
    (hl : l = dramLoc s.active ((s.lb n.val).arg 0 5)) :
    Tells (.zoneGet n) s n.val (((List.range 24).flatMap fun z => leBytes 1 (s.fv (F.MAP_ZONE_order z))) ++
      (leBytes 1 0 ++ leBytes 1 l.ch ++ leBytes 1 l.bank ++ leBytes 2 l.row ++ leBytes 1 l.col)) := by
  refine h.tells n.isLt (r := execZoneGet n s) rfl rfl (Nat.zero_le _) ?_ (by simp)
  simp only [if_neg (Nat.not_lt.mpr hargs), if_neg (Nat.not_le.mpr ha), hl]

theorem thermGet_tells (h : LbRuns s n.val 0x0901) :
    Tells (.thermGet n) s n.val ((List.range 24).flatMap (fun u => leBytes 2 (s.fv (F.THM_UNIT_temp u))) ++
      (List.range 24).flatMap (fun u => leBytes 1 ((s.live.val (R.THM_UNIT u)).field 16 8)) ++ leBytes 4 (s.fv F.HKP_ROUND_round) ++
      leBytes 1 ((if s.thermLow then 1 else 0) + (if s.fb F.HKP_STATUS_slow then 2 else 0)) ++ leBytes 1 0) :=
  h.tells n.isLt (r := execThermGet n s) rfl rfl (Nat.zero_le _) rfl (by simp)

theorem cfgRef_tells (h : LbRuns s n.val 0x0E04) :
    Tells (.cfgRef n) s n.val ((List.range 37).flatMap fun d => leBytes 4 (s.fv (F.CFG_REF_ref d))) :=
  h.tells n.isLt (r := execCfgRef n s) rfl rfl (Nat.zero_le _) rfl (by simp)

theorem testResult_tells {k a b c : Nat} (h : LbRuns s n.val 0x0802) (hargs : 6 ≤ (s.lb n.val).args.length)
    (ht : testArgs (s.lb n.val) = some (k, a, b, c)) :
    Tells (.testResult n) s n.val
      (((s.bst.results.find? fun x => x.kind == k && x.a == a && x.b == b && x.c == c).map TestRes.bytes).getD
        (leBytes 1 0xFF ++ leBytes 23 0)) := by
  cases hfind : s.bst.results.find? fun x => x.kind == k && x.a == a && x.b == b && x.c == c with
  | none =>
    refine h.tells n.isLt (r := execTestResult n s) rfl rfl hargs ?_ (by simp)
    simp only [ht, hfind, Option.map_none, Option.getD_none]
  | some x =>
    refine h.tells n.isLt (r := execTestResult n s) rfl rfl hargs ?_ (by simp)
    simp only [ht, hfind, Option.map_some, Option.getD_some]

theorem logRead_tells (h : LbRuns s n.val 0x0701) (hargs : 5 ≤ (s.lb n.val).args.length) (hlo : 1 ≤ (s.lb n.val).arg 4 1)
    (hhi : (s.lb n.val).arg 4 1 ≤ 7) (hold : (s.lb n.val).arg 0 4 = s.oldestSeq) :
    Tells (.logRead n) s n.val (leBytes 4 s.oldestSeq ++ leBytes 4 s.log.nextSeq ++
      leBytes 1 (s.log.ring.take ((s.lb n.val).arg 4 1)).length ++ leBytes 7 0 ++
      (s.log.ring.take ((s.lb n.val).arg 4 1)).flatMap LogEntry.bytes) := by
  have hlen : ((s.log.ring.take ((s.lb n.val).arg 4 1)).flatMap LogEntry.bytes).length ≤ 224 := by
    have := List.length_take_le ((s.lb n.val).arg 4 1) s.log.ring
    simp only [List.length_flatMap, length_logEntryBytes, List.map_const', List.sum_replicate, smul_eq_mul]
    omega
  have hcount : ¬((s.lb n.val).arg 4 1 = 0 ∨ 7 < (s.lb n.val).arg 4 1) := by omega
  refine h.tells n.isLt (r := execLogRead n s) rfl rfl hargs ?_ (by simp at hlen ⊢; omega)
  simp [hcount, hold]

theorem secAttest_tells {key body : List Byte} (h : LbRuns s n.val 0x0C01) (hargs : 1 ≤ (s.lb n.val).args.length)
    (hkey : s.sec.key = some key) (hbody : s.sec.body = some body) :
    ((s.lb n.val).arg 0 1 = 1 → Tells (.secAttest n) s n.val (edSign key ctxAttest body)) ∧
    ((s.lb n.val).arg 0 1 = 2 → Tells (.secAttest n) s n.val (edPublic key)) := by
  refine ⟨fun hk => h.tells n.isLt (r := execSecAttest n s) rfl rfl hargs ?_ (by simp),
    fun hk => h.tells n.isLt (r := execSecAttest n s) rfl rfl hargs ?_ (by simp)⟩
  · simp only [hkey, hbody, hk, one_ne_zero, if_false, if_true]
  · simp only [hkey, hbody, hk, OfNat.ofNat_ne_zero, OfNat.ofNat_ne_one, if_false, if_true]

theorem otpRead_tells {r k first count : Nat} (h : LbRuns s n.val 0x0B01) (hargs : 5 ≤ (s.lb n.val).args.length)
    (hr : (s.lb n.val).arg 0 1 = r) (hk : (s.lb n.val).arg 1 1 = k) (hfirst : (s.lb n.val).arg 2 2 = first)
    (hcount : (s.lb n.val).arg 4 1 = count) (hr1 : 1 ≤ r) (hr7 : r ≤ 7) (hr6 : r ≠ 6) (hsect : k < (regionRow r).sections)
    (hc1 : 1 ≤ count) (hc60 : count ≤ 60) (hend : first + count ≤ (regionRow r).data) :
    Tells (.otpRead n) s n.val (leBytes 1 (s.section_ r k).state ++ leBytes 1 (s.section_ r k).marginal ++
      leBytes 2 (s.section_ r k).count ++ leBytes 4 0 ++
      (List.range count).flatMap fun j => leBytes 4 ((s.section_ r k).words.getD (first + j) 0).toNat) := by
  have hsections : ∀ r, r ≤ 7 → (regionRow r).sections ≤ 255 := by decide
  have hraw : (k == 0xFF) = false := by
    have := hsections r hr7
    exact beq_eq_false_iff_ne.mpr (by omega)
  have hseed : (r == 0) = false := beq_eq_false_iff_ne.mpr (by omega)
  have hok : ¬(7 < r ∨ r = 6 ∨ (!(k == 0xFF) && decide ((regionRow r).sections ≤ k)) = true ∨ count = 0 ∨ 60 < count ∨
      (if (k == 0xFF) = true then (regionRow r).words else (regionRow r).data) < first + count) := by
    rw [hraw]
    simp
    omega
  refine h.tells n.isLt (r := execOtpRead n s) rfl rfl hargs ?_ ?_
  · simp only [hr, hk, hfirst, hcount]
    rw [if_neg hok]
    simp only [hraw, hseed, Bool.false_and, Bool.false_eq_true, if_false]
  · simp
    omega

/-- CAL.STATUS: 4 bytes of state, and the last calibration of each riser. -/
def State.calBytes (s : State) : List Byte :=
  leBytes 1 (if s.fv F.THM_CAL_STATUS_riser = 0x3F then 0xFF else s.fv F.THM_CAL_STATUS_riser) ++ leBytes 1 (min 255 s.thm.calQ.length) ++
    leBytes 1 ((if s.spareHeld then 1 else 0) + (if s.fb F.THM_CAL_STATUS_reduced then 2 else 0) +
      (if s.fb F.CLK_STATUS_fallback then 4 else 0)) ++
    leBytes 1 0 ++ (List.range 33).flatMap fun r => leBytes 4 (s.live.val (R.THM_CAL_LAST r)).toNat

theorem State.length_calBytes (s : State) : s.calBytes.length = 136 := by simp [State.calBytes]

theorem calStatus_tells (h : LbRuns s n.val 0x0A02) : Tells (.calStatus n) s n.val s.calBytes :=
  h.tells n.isLt (r := execCalStatus n s) rfl rfl (Nat.zero_le _) rfl (by simp [State.length_calBytes])

/-- FW.STATUS: the boot record, what runs, and what the other slot holds. -/
def State.fwBytes (s : State) : List Byte :=
  leBytes 1 (bootRecord s.sec.flash).2.2.1 ++ leBytes 1 (bootRecord s.sec.flash).2.2.2 ++ leBytes 2 s.sec.running.fw ++
    leBytes 2 s.sec.running.rcp ++ leBytes 2 (imgNum (if s.noImage then s.storeImg else s.slotImg s.otherSlot) 8 2) ++
    leBytes 2 (s.burnedCount 0) ++ leBytes 2 (s.burnedCount 1) ++
    leBytes 4 (((s.loadedFor (if s.noImage then 1 else 0)).map (·.2)).sum) ++
    leBytes 1 (s.verifyImage (if s.noImage then s.storeImg else s.slotImg s.otherSlot) s.revokedSlots
      (some (s.loadedFor (if s.noImage then 1 else 0))))

theorem fwStatus_tells (h : LbRuns s n.val 0x0D03) : Tells (.fwStatus n) s n.val s.fwBytes :=
  h.tells n.isLt (r := execFwStatus n s) rfl rfl (Nat.zero_le _) rfl (by simp [State.fwBytes])

end

theorem State.fwBytes_fields (s : State) :
    s.fwBytes.take 2 = [BitVec.ofNat 8 (bootRecord s.sec.flash).2.2.1, BitVec.ofNat 8 (bootRecord s.sec.flash).2.2.2] ∧
    (s.fwBytes.drop 2).take 2 = leBytes 2 s.sec.running.fw ∧
    (s.fwBytes.drop 8).take 4 = leBytes 2 (s.burnedCount 0) ++ leBytes 2 (s.burnedCount 1) := by
  refine ⟨?_, ?_, ?_⟩ <;> simp [State.fwBytes, leBytes, List.range_succ]

/-- A list of fields of four bytes holds the `r`-th at byte `4 r`. -/
theorem take_drop_flatMap_leBytes (f : Nat → Nat) {m r : Nat} (h : r < m) :
    (((List.range m).flatMap fun k => leBytes 4 (f k)).drop (4 * r)).take 4 = leBytes 4 (f r) := by
  induction r generalizing m f with
  | zero =>
    obtain ⟨m, rfl⟩ : ∃ k, m = k + 1 := ⟨m - 1, by omega⟩
    simp [List.range_succ_eq_map]
  | succ r ih =>
    obtain ⟨m, rfl⟩ : ∃ k, m = k + 1 := ⟨m - 1, by omega⟩
    rw [List.range_succ_eq_map, List.flatMap_cons, Nat.mul_succ, Nat.add_comm, ← List.drop_drop, List.drop_left' (by simp),
      List.flatMap_map]
    exact ih (f ∘ Nat.succ) (by omega)

theorem State.calBytes_last (s : State) {r : Nat} (h : r < 33) :
    (s.calBytes.drop (4 + 4 * r)).take 4 = leBytes 4 (s.live.val (R.THM_CAL_LAST r)).toNat := by
  rw [State.calBytes, ← List.drop_drop, List.drop_left' (by simp)]
  exact take_drop_flatMap_leBytes _ h

/-- Every command of the list is one, with the code and the arguments that it has there (R124). -/
theorem isCommand_of_mem {n : Lb} {obs : BurnObs} {tie : Bool} {s : State} {c : Instr} {code need : Nat} (h : (c, code, need) ∈
    ([(.modeSet n, 0x0202, 1), (.planLoad n, 0x0301, 8), (.planCheck n, 0x0302, 2), (.planCommit n, 0x0303, commitNeed (s.lb n.val)),
      (.planGet n, 0x0304, 2), (.portSet n, 0x0401, 14), (.portGet n, 0x0402, 1), (.portReset n, 0x0403, 1), (.zoneSet n, 0x0501, 2),
      (.retireRow n, 0x0601, 5), (.retireBank n, 0x0602, 2), (.retireRestore n, 0x0603, 2), (.retireRemap n, 0x0604, 5),
      (.logRead n, 0x0701, 5), (.testRun n, 0x0801, 6), (.testResult n, 0x0802, 6), (.testSchedule n, 0x0803, 11),
      (.thermSet n, 0x0902, 10), (.calRun n, 0x0A01, 3), (.otpRead n, 0x0B01, 5), (.otpBurn n obs, 0x0B02, 8),
      (.otpFinalise n obs, 0x0B03, 2), (.secAttest n, 0x0C01, 1), (.secUnlock n tie, 0x0C03, 6),
      (.secLifecycleMove n obs tie, 0x0C04, 174), (.secLifecycleRevoke n obs tie, 0x0C04, 174), (.fwLoad n, 0x0D01, 8),
      (.fwActivateTry n, 0x0D02, 2), (.fwActivateCommit n obs, 0x0D02, 2), (.fwActivateRevert n, 0x0D02, 2),
      (.cfgCommit n, 0x0E02, commitNeed (s.lb n.val))] : List (Instr × Nat × Nat))) : IsCommand c s n.val code need := by
  simp only [List.mem_cons, Prod.mk.injEq, List.not_mem_nil, or_false] at h
  iterate 30
    rcases h with ⟨rfl, rfl, rfl⟩ | h
    · exact ⟨_, by rw [exec]; rfl⟩
  obtain ⟨rfl, rfl, rfl⟩ := h
  exact ⟨_, by rw [exec]; rfl⟩

/-- Settles O30: each command that tells has its result, and every row of the list is a command that asks for its arguments. -/
theorem commandsAskForTheirArguments : Obligations.CommandsAskForTheirArguments := by
  refine ⟨fun n s => ⟨infoId_tells, infoStatus_tells, infoCaps_tells, modeGet_tells, fun h hargs hi c hc => planGet_tells h hargs hi hc,
    fun x h hargs hx => portGet_tells h hargs hx, zoneGet_tells, fun h hargs ha l hl => zoneGet_locates h hargs ha hl, thermGet_tells,
    ⟨s.calBytes, s.length_calBytes, calStatus_tells, fun r hr => s.calBytes_last hr⟩, fun k a b c h hargs ht => testResult_tells h hargs ht,
    logRead_tells, cfgRef_tells, ⟨s.fwBytes, fwStatus_tells, s.fwBytes_fields⟩,
    fun r k first count h hargs hr hk hfirst hcount hr1 hr7 hr6 hsect hc1 hc60 hend =>
      otpRead_tells h hargs hr hk hfirst hcount hr1 hr7 hr6 hsect hc1 hc60 hend,
    fun key body h hargs hkey hbody => secAttest_tells h hargs hkey hbody⟩, fun n obs tie s c code need hmem => ?_⟩
  have hcommand := isCommand_of_mem hmem
  exact ⟨hcommand.short n.isLt, hcommand.still⟩

end Sys2Proof.Machine

namespace Sys2Proof.Machine

/-! ## Configuration sessions -/

/-! ### Steps that stage -/

/-- The step writes the staged copy alone, and reads nothing else. -/
def Stager (f : State → State) : Prop := ∃ g : RegMap → RegMap, ∀ s, f s = { s with staged := g s.staged }

namespace Stager

theorem comp {f g : State → State} (hg : Stager g) (hf : Stager f) : Stager fun s => g (f s) := by
  obtain ⟨m, hm⟩ := hf
  obtain ⟨k, hk⟩ := hg
  exact ⟨k ∘ m, fun s => by simp only [hm, hk, Function.comp]⟩

theorem setStagedF (f : Fld) (v : Nat) : Stager fun s => s.setStagedF f v := ⟨fun m => m.setF f v, fun _ => rfl⟩

theorem put (a : Nat) (w : Word) : Stager fun s => { s with staged := s.staged.put a w } := ⟨fun m => m.put a w, fun _ => rfl⟩

theorem map (g : RegMap → RegMap) : Stager fun s => { s with staged := g s.staged } := ⟨g, fun _ => rfl⟩

theorem foldl {α : Type} (l : List α) {f : State → α → State} (hf : ∀ a, Stager fun s => f s a) : Stager fun s => l.foldl f s := by
  induction l with
  | nil => exact ⟨fun m => m, fun _ => rfl⟩
  | cons a l ih => exact ih.comp (hf a)

end Stager

/-- One more field is staged. -/
theorem State.setStagedF_stager {g : State → State} (hg : Stager g) (f : Fld) (v : Nat) : Stager fun s => (g s).setStagedF f v :=
  .comp (.setStagedF f v) hg

theorem State.stagePort_stager (p : Nat) (x : PlanPort) : Stager fun s => s.stagePort p x := by
  unfold State.stagePort
  refine .comp (.foldl _ fun i => .put _ _) (.comp (.foldl _ fun k => .setStagedF _ _) ?_)
  exact .comp (State.setStagedF_stager (State.setStagedF_stager (.setStagedF _ _) _ _) _ _)
    (State.setStagedF_stager (State.setStagedF_stager (State.setStagedF_stager (.setStagedF _ _) _ _) _ _) _ _)

theorem State.stagePlan_stager (x : Plan) : Stager fun s => s.stagePlan x := by
  unfold State.stagePlan
  refine .comp (.foldl _ fun t => ?_) (.foldl _ fun q => State.stagePort_stager _ _)
  exact State.setStagedF_stager (State.setStagedF_stager (State.setStagedF_stager (.setStagedF _ _) _ _) _ _) _ _

/-! ### Opening a session -/

/-- Opening a session touches nothing but it, what tells of it, and whether LB4 has had one. -/
theorem State.openSession_eq (s : State) (path : Nat) :
    s.openSession path =
      { s with live := (s.openSession path).live, session := some { owner := path }
               pwr := { s.pwr with lb4Session := s.pwr.lb4Session || path == 64 } } ∧
    LiveBut [R.CFG_STATUS] s (s.openSession path) := by
  have h := ((LiveOnly.setF s F.CFG_STATUS_session 1 rfl).trans (.setF _ F.CFG_STATUS_session_owner path rfl)).mono
    (bs := [R.CFG_STATUS]) (by simp [F.CFG_STATUS_session, F.CFG_STATUS_session_owner, R.CFG_STATUS])
  refine ⟨?_, h.2⟩
  rw [State.openSession, h.1]

/-- A path's session is as the state has it, or newly opened. -/
structure InSession (s u : State) (path : Nat) : Prop where
  staged : u.staged = s.staged
  active : u.active = s.active
  lbs : u.lbs = s.lbs
  epoch : u.twoEpochsOn = s.twoEpochsOn
  own : ∃ y, u.session = some y ∧ y.owner = path ∧ y.commitAt = none

theorem InSession.lb {s u : State} {path : Nat} (h : InSession s u path) (k : Nat) : u.lb k = s.lb k := by
  unfold State.lb
  rw [h.lbs]

theorem State.sessionFor_inSession {s u : State} {path : Nat} (h : s.sessionFor path = some u) : InSession s u path := by
  unfold State.sessionFor at h
  cases hs : s.session with
  | none =>
    rw [hs] at h
    cases h
    have he := (s.openSession_eq path).1
    exact ⟨by rw [he], by rw [he], by rw [he], by rw [he]; rfl, _, by rw [he], rfl, rfl⟩
  | some x =>
    rw [hs] at h
    dsimp only at h
    split at h
    · next hx =>
      cases h
      exact ⟨rfl, rfl, rfl, rfl, x, hs, hx.1, by simpa using hx.2⟩
    · cases h

theorem OwnSession.sessionFor {s : State} {n : Nat} (h : OwnSession s n) : ∃ u, s.sessionFor (s.lbPath n) = some u := by
  rcases h with hs | ⟨x, hs, hx, hc⟩
  · exact ⟨s.openSession (s.lbPath n), by simp only [State.sessionFor, hs]⟩
  · exact ⟨s, by simp only [State.sessionFor, hs, hx, hc, Option.isNone_none, and_self, if_true]⟩

/-- A command that stages in its path's session, and completes OK. -/
theorem LbRuns.stages {s : State} {n code need : Nat} {c : Instr} {f : State → State} {F : LbSt → State → State}
    {r : Host.Outcome State Fault Refusal} (h : LbRuns s n code) (hn : n < 6) (hown : OwnSession s n) (hf : Stager f)
    (hexec : exec c s = r) (hcmd : r = s.command n code need F) (hargs : need ≤ (s.lb n).args.length)
    (hF : ∀ u, s.sessionFor (s.lbPath n) = some u → F (s.lb n) s = (f u).done n []) : Stages c s n (f s).staged := by
  obtain ⟨u, hu⟩ := hown.sessionFor
  have hlb := (State.sessionFor_inSession hu).lb n
  obtain ⟨hstaged, hactive, -, -, y, hy, hyo, hyc⟩ := State.sessionFor_inSession hu
  obtain ⟨g, hg⟩ := hf
  have hfu : f u = { u with staged := (f s).staged } := by rw [hg, hg, hstaged]
  have hlb' : (f u).lb n = s.lb n := by rw [hfu]; exact hlb
  obtain ⟨hended, honly⟩ := State.complete_ends (s := f u) (status := cplOK) true (result := []) hn (by simp) (by rw [hlb']; exact h.2)
    (.ok _ n)
  refine ⟨u, (f u).done n [], hu, ?_, hended.completes hlb', ?_, ?_, ⟨y, ?_, hyo, hyc⟩, ?_⟩
  · rw [hexec, hcmd, State.command_runs h hargs, hF u hu]
  · rw [State.done, honly.1, hfu]
  · rw [State.done, honly.1, hfu]
    exact hactive
  · rw [State.done, honly.1, hfu]
    exact hy
  · rw [← hfu]
    exact honly

theorem portSet_stages {n : Lb} {s : State} {p : Nat} {x : PlanPort} (h : LbRuns s n.val 0x0401) (hargs : 14 ≤ (s.lb n.val).args.length)
    (hx : portArgs (s.lb n.val) = some (p, x)) (hown : OwnSession s n.val) : Stages (.portSet n) s n.val (s.stagePort p x).staged := by
  refine h.stages n.isLt hown (State.stagePort_stager p x) (r := execPortSet n s) rfl rfl hargs fun u hu => ?_
  simp only [hx, hu]

theorem zoneSet_stages {n : Lb} {s : State} (h : LbRuns s n.val 0x0501) (hargs : 2 ≤ (s.lb n.val).args.length)
    (hz : (s.lb n.val).arg 0 1 ≤ 23) (ho : (s.lb n.val).arg 1 1 ≤ 3) (hown : OwnSession s n.val) :
    Stages (.zoneSet n) s n.val (s.staged.setF (F.MAP_ZONE_order ((s.lb n.val).arg 0 1)) ((s.lb n.val).arg 1 1)) := by
  have hok : ¬(23 < (s.lb n.val).arg 0 1 ∨ 3 < (s.lb n.val).arg 1 1) := by omega
  refine h.stages n.isLt hown (.setStagedF (F.MAP_ZONE_order ((s.lb n.val).arg 0 1)) ((s.lb n.val).arg 1 1)) (r := execZoneSet n s) rfl rfl
    hargs fun u hu => ?_
  simp only [hok, hu, if_false]

theorem ofLeBytes_lt (bs : List Byte) : ofLeBytes bs < 256 ^ bs.length := by
  induction bs with
  | nil => decide
  | cons b bs ih =>
    have := b.isLt
    rw [ofLeBytes, List.length_cons, pow_succ]
    omega

theorem LbSt.arg_lt (L : LbSt) (off len : Nat) : L.arg off len < 256 ^ len :=
  (ofLeBytes_lt _).trans_le (Nat.pow_le_pow_right (by decide) (List.length_take_le _ _))

/-- A field that has been set reads what fits it. -/
theorem RegMap.fv_setF_fits (m : RegMap) (f : Fld) {v : Nat} (hf : f.lo + f.width ≤ 32) (hv : v < 2 ^ f.width) : (m.setF f v).fv f = v := by
  rw [RegMap.fv_setF_self m f v hf, Nat.mod_eq_of_lt hv]

/-- THERM.SET's limits, in the staged registers. -/
def thermStage (L : LbSt) (m : RegMap) : RegMap :=
  ((((((m.setF F.THM_THRESH_warn (L.arg 0 1)).setF F.THM_THRESH_throttle (L.arg 1 1)).setF F.THM_THRESH_hot_ref (L.arg 2 1)).setF
    F.THM_THRESH_relax_max (L.arg 3 1)).setF F.THM_THROT_cap1 (L.arg 4 1)).setF F.THM_THROT_cap2 (L.arg 5 1)).setF F.THM_THROT_step2
      (L.arg 6 1)

/-- A mask with the bit set or cleared. -/
def putMask (m i : Nat) (on : Bool) : Nat := if on then m ||| 1 <<< i else if m.testBit i then m - 1 <<< i else m

/-- THERM.SET's diode, when it names one. -/
def diodeStage (L : LbSt) (m : RegMap) : RegMap :=
  if L.arg 8 1 = 0xFF then m
  else m.setF (F.THM_DIODE_MASK_mask (L.arg 8 1 / 32))
    (putMask (m.fv (F.THM_DIODE_MASK_mask (L.arg 8 1 / 32))) (L.arg 8 1 % 32) (decide (L.arg 9 1 = 1)))

theorem testBit_putMask (m i : Nat) (on : Bool) : (putMask m i on).testBit i = on := by
  have hone : (1 <<< i).testBit i = true := by simp
  unfold putMask
  cases on with
  | true => simp
  | false =>
    by_cases hm : m.testBit i = true
    · have hle : 2 ^ i ≤ m := Nat.ge_two_pow_of_testBit hm
      have hsum := Nat.testBit_two_pow_add_eq (m - 2 ^ i) i
      rw [Nat.add_sub_cancel' hle, hm] at hsum
      simpa [hm, Nat.shiftLeft_eq] using hsum
    · simp [hm]

theorem putMask_lt {m i w : Nat} (on : Bool) (hm : m < 2 ^ w) (hi : i < w) : putMask m i on < 2 ^ w := by
  unfold putMask
  split
  · exact Nat.or_lt_two_pow hm (by rw [Nat.shiftLeft_eq, Nat.one_mul]; exact Nat.pow_lt_pow_right (by decide) hi)
  · split
    · exact (Nat.sub_le _ _).trans_lt hm
    · exact hm

theorem diodeStage_fv {L : LbSt} {m : RegMap} {f : Fld} (h : f.addr < 0x7020) : (diodeStage L m).fv f = m.fv f := by
  unfold diodeStage
  split
  · rfl
  · exact RegMap.fv_setF_ne _ _ (.inl (by simp only [F.THM_DIODE_MASK_mask]; omega))

theorem diodeStage_mask {L : LbSt} {m : RegMap} (h : L.arg 8 1 ≤ 103) :
    ((diodeStage L m).fv (F.THM_DIODE_MASK_mask (L.arg 8 1 / 32))).testBit (L.arg 8 1 % 32) = decide (L.arg 9 1 = 1) := by
  have hm : m.fv (F.THM_DIODE_MASK_mask (L.arg 8 1 / 32)) < 2 ^ 32 := Word.field_lt _ _ _
  have hmask := putMask_lt (decide (L.arg 9 1 = 1)) hm (Nat.mod_lt (L.arg 8 1) (by decide : 0 < 32))
  rw [diodeStage, if_neg (by omega), RegMap.fv_setF_fits m _ (by simp [F.THM_DIODE_MASK_mask]) hmask, testBit_putMask]

theorem thermSet_stages {n : Lb} {s : State} (h : LbRuns s n.val 0x0902) (hargs : 10 ≤ (s.lb n.val).args.length)
    (hok : thermArgsOk (s.lb n.val) = true) (hown : OwnSession s n.val) :
    Stages (.thermSet n) s n.val (diodeStage (s.lb n.val) (thermStage (s.lb n.val) s.staged)) := by
  refine h.stages n.isLt hown (.map fun m => diodeStage (s.lb n.val) (thermStage (s.lb n.val) m))
    (r := execThermSet n s) rfl rfl hargs fun u hu => ?_
  simp only [hok, hu, Bool.not_true, Bool.false_eq_true, if_false, State.setStagedF, State.stagedF, diodeStage, putMask, thermStage]
  by_cases hd : (s.lb n.val).arg 8 1 = 0xFF
  · simp only [if_pos hd]
  · by_cases hon : (s.lb n.val).arg 9 1 = 1
    · simp only [if_neg hd, hon, decide_true, if_true]
    · simp only [if_neg hd, hon, decide_false, Bool.false_eq_true, if_false]
      congr 4

theorem thermStage_reads (L : LbSt) (m : RegMap) :
    (thermStage L m).fv F.THM_THRESH_warn = L.arg 0 1 ∧ (thermStage L m).fv F.THM_THRESH_throttle = L.arg 1 1 ∧
    (thermStage L m).fv F.THM_THROT_cap1 = L.arg 4 1 ∧ (thermStage L m).fv F.THM_THROT_cap2 = L.arg 5 1 := by
  have hbyte (k : Nat) : L.arg k 1 < 2 ^ 8 := L.arg_lt k 1
  unfold thermStage
  refine ⟨?_, ?_, ?_, ?_⟩
  · repeat rw [RegMap.fv_setF_ne _ _ (by unfold Fld.apart; decide)]
    exact RegMap.fv_setF_fits _ _ (by decide) (hbyte 0)
  · iterate 5 rw [RegMap.fv_setF_ne _ _ (by unfold Fld.apart; decide)]
    exact RegMap.fv_setF_fits _ _ (by decide) (hbyte 1)
  · iterate 2 rw [RegMap.fv_setF_ne _ _ (by unfold Fld.apart; decide)]
    exact RegMap.fv_setF_fits _ _ (by decide) (hbyte 4)
  · rw [RegMap.fv_setF_ne _ _ (by unfold Fld.apart; decide)]
    exact RegMap.fv_setF_fits _ _ (by decide) (hbyte 5)

/-- TEST.SCHEDULE's rates, in the staged registers. -/
def scheduleStage (L : LbSt) (m : RegMap) : RegMap :=
  (((((((m.put R.BST_CTL (BitVec.ofNat 32 (L.arg 0 1))).setF F.BST_SCHED_LOGIC_engine_period (L.arg 1 2)).setF
    F.BST_SCHED_LOGIC_parlour_period (L.arg 3 2)).setF F.BST_SCHED_MEM_row_rate (L.arg 5 1)).setF F.BST_SCHED_MEM_lbank_rate
      (L.arg 6 1)).setF
      F.BST_SCHED_RISER_riser_period (L.arg 7 2)).setF F.BST_YIELD_bound (L.arg 9 1)).setF F.BST_YIELD_retry (L.arg 10 1)

theorem testSchedule_stages {n : Lb} {s : State} (h : LbRuns s n.val 0x0803) (hargs : 11 ≤ (s.lb n.val).args.length)
    (hok : (s.lb n.val).arg 0 1 ≤ 127) (hown : OwnSession s n.val) :
    Stages (.testSchedule n) s n.val (scheduleStage (s.lb n.val) s.staged) := by
  refine h.stages n.isLt hown (.map (scheduleStage (s.lb n.val))) (r := execTestSchedule n s) rfl rfl hargs fun u hu => ?_
  simp only [hu, if_neg (Nat.not_lt.mpr hok), State.setStagedF, scheduleStage]

theorem scheduleStage_reads (L : LbSt) (m : RegMap) :
    (scheduleStage L m).val R.BST_CTL = BitVec.ofNat 32 (L.arg 0 1) ∧ (scheduleStage L m).fv F.BST_SCHED_LOGIC_engine_period = L.arg 1 2 ∧
    (scheduleStage L m).fv F.BST_SCHED_LOGIC_parlour_period = L.arg 3 2 ∧ (scheduleStage L m).fv F.BST_SCHED_MEM_row_rate = L.arg 5 1 ∧
    (scheduleStage L m).fv F.BST_SCHED_RISER_riser_period = L.arg 7 2 := by
  have hbyte (k : Nat) : L.arg k 1 < 2 ^ 8 := L.arg_lt k 1
  have hpair (k : Nat) : L.arg k 2 < 2 ^ 16 := L.arg_lt k 2
  unfold scheduleStage
  refine ⟨?_, ?_, ?_, ?_, ?_⟩
  · iterate 7 rw [RegMap.val_setF_ne _ _ _ (by decide)]
    exact RegMap.val_put_self _ _ _
  · iterate 6 rw [RegMap.fv_setF_ne _ _ (by unfold Fld.apart; decide)]
    exact RegMap.fv_setF_fits _ _ (by decide) (hpair 1)
  · iterate 5 rw [RegMap.fv_setF_ne _ _ (by unfold Fld.apart; decide)]
    exact RegMap.fv_setF_fits _ _ (by decide) (hpair 3)
  · iterate 4 rw [RegMap.fv_setF_ne _ _ (by unfold Fld.apart; decide)]
    exact RegMap.fv_setF_fits _ _ (by decide) (hbyte 5)
  · iterate 2 rw [RegMap.fv_setF_ne _ _ (by unfold Fld.apart; decide)]
    exact RegMap.fv_setF_fits _ _ (by decide) (hpair 7)

/-! ### A session begins and ends -/

/-- A session that is closed is none, and what tells of it is cleared. -/
theorem State.abortSession_eq (s : State) :
    s.abortSession = { s with staged := s.active, session := none, live := s.abortSession.live } ∧
      LiveBut [R.CFG_STATUS] s s.abortSession := by
  have h := ((LiveOnly.setF { s with staged := s.active } F.CFG_STATUS_session 0 rfl).trans (.setF _ F.CFG_STATUS_session_owner 0 rfl)).mono
    (bs := [R.CFG_STATUS]) (by simp [F.CFG_STATUS_session, F.CFG_STATUS_session_owner, R.CFG_STATUS])
  refine ⟨?_, h.2⟩
  rw [State.abortSession, State.closeSession, h.1]

theorem not_mem_lbRegs_of_lt {n a : Nat} (h : a < 0x1000) : a ∉ lbRegs n := by
  have hreports : ∀ x ∈ reportRegs, 0x1000 ≤ x := by decide
  simp only [lbRegs, List.mem_append, List.mem_cons, List.not_mem_nil, or_false, List.mem_map, not_or, not_exists, not_and,
    R.MBX_CTL, R.MBX_DOORBELL, R.MBX_CPL, R.MBX_OWNER, R.MBX_BUF]
  refine ⟨⟨by omega, fun i _ => by omega⟩, fun hm => ?_⟩
  have := hreports a hm
  omega

theorem cfgBegin_opens {n : Lb} {s : State} (h : LbRuns s n.val 0x0E01) (hs : s.session = none) :
    ∃ t, exec (.cfgBegin n) s = .next t ∧ Completes s t n.val cplOK true [] ∧ t.session = some { owner := s.lbPath n.val } ∧
      t.fv F.CFG_STATUS_session = 1 ∧ SameConfig s t ∧ OnlyLetterbox (s.openSession (s.lbPath n.val)) t n.val ∧
      LiveBut (R.CFG_STATUS :: lbRegs n.val) s t := by
  obtain ⟨he, hlive⟩ := s.openSession_eq (s.lbPath n.val)
  have hlb : (s.openSession (s.lbPath n.val)).lb n.val = s.lb n.val := by rw [he]; rfl
  have hopen : (s.openSession (s.lbPath n.val)).fv F.CFG_STATUS_session = 1 := by
    have hapart : F.CFG_STATUS_session_owner.apart F.CFG_STATUS_session := by unfold Fld.apart; decide
    refine (State.fv_setF_ne (s.setF F.CFG_STATUS_session 1) (s.lbPath n.val) hapart).trans ?_
    exact State.fv_setF_self s _ 1 (by decide)
  obtain ⟨hended, honly⟩ := State.complete_ends (s := s.openSession (s.lbPath n.val)) (status := cplOK) true (result := []) n.isLt (by simp)
    (by rw [hlb]; exact h.2) (.ok _ n.val)
  refine ⟨(s.openSession (s.lbPath n.val)).done n.val [], ?_, hended.completes hlb, ?_, ?_, ⟨?_, ?_⟩, honly, ?_⟩
  · rw [exec, execCfgBegin, State.command_runs h (Nat.zero_le _)]
    simp only [hs, Option.isSome_none, Bool.false_eq_true, if_false]
  · rw [State.done, honly.1, he]
  · rw [← hopen]
    exact State.fv_congr (honly.2.1 _ (not_mem_lbRegs_of_lt (by decide))) (by rw [State.done, honly.1])
  · rw [State.done, honly.1, he]
  · rw [State.done, honly.1, he]
  · exact hlive.trans honly.2.1 (by simp) (List.subset_cons_self _ _)

theorem cfgAbort_ends {n : Lb} {s : State} {x : Session} (h : LbRuns s n.val 0x0E03) (hs : s.session = some x)
    (ho : x.owner = s.lbPath n.val)
    (hc : x.commitAt = none) :
    ∃ t, exec (.cfgAbort n) s = .next t ∧ Completes s t n.val cplOK true [] ∧ t.session = none ∧ t.staged = s.active ∧
      t.active = s.active ∧ OnlyLetterbox s.abortSession t n.val ∧ LiveBut (R.CFG_STATUS :: lbRegs n.val) s t := by
  obtain ⟨he, hlive⟩ := s.abortSession_eq
  have hlb : s.abortSession.lb n.val = s.lb n.val := by rw [he]; rfl
  obtain ⟨hended, honly⟩ := State.complete_ends (s := s.abortSession) (status := cplOK) true (result := []) n.isLt (by simp)
    (by rw [hlb]; exact h.2) (.ok _ n.val)
  refine ⟨s.abortSession.done n.val [], ?_, hended.completes hlb, ?_, ?_, ?_, honly, hlive.trans honly.2.1 (by simp)
    (List.subset_cons_self _ _)⟩
  · rw [exec, execCfgAbort, State.command_runs h (Nat.zero_le _)]
    simp only [hs, ho, hc, Option.isNone_none, and_self, if_true]
  all_goals rw [State.done, honly.1, he]

theorem cfgAbort_tells {n : Lb} {s : State} (h : LbRuns s n.val 0x0E03) (hs : s.session = none) : Tells (.cfgAbort n) s n.val [] := by
  refine h.tells n.isLt (r := execCfgAbort n s) rfl rfl (Nat.zero_le _) ?_ (by simp)
  simp only [hs]

theorem cfgSessionIdle_ends {s : State} {x : Session} (hs : s.session = some x) (hc : x.commitAt = none) :
    (∃ t, exec (.cfgSessionIdle false) s = .next t ∧ t.session = none ∧ t.staged = s.active ∧ t.active = s.active ∧
      t = { s with session := none, staged := s.active, live := t.live } ∧ LiveBut [R.CFG_STATUS] s t) ∧
    (∃ t, exec (.cfgSessionIdle true) s = .next t ∧ Counted F.CFG_CNT_NEARMISS_count s t ∧ t = { s with live := t.live } ∧
      LiveBut [R.CFG_CNT_NEARMISS] s t) := by
  obtain ⟨he, hlive⟩ := s.abortSession_eq
  refine ⟨⟨s.abortSession, ?_, ?_, ?_, ?_, he, hlive⟩, ⟨s.inc F.CFG_CNT_NEARMISS_count, ?_, State.fv_inc_self s _ (by decide),
    LiveOnly.setF s F.CFG_CNT_NEARMISS_count _ rfl⟩⟩
  · simp [exec, execCfgSessionIdle, hs, hc]
  · rw [he]
  · rw [he]
  · rw [he]
  · simp [exec, execCfgSessionIdle, hs, hc]

/-! ### A plan's chunks -/

theorem planLoad_keeps {n : Lb} {s : State} {i count len : Nat} (h : LbRuns s n.val 0x0301) (hi : (s.lb n.val).arg 0 2 = i)
    (hcount : (s.lb n.val).arg 2 2 = count) (hlen : (s.lb n.val).arg 4 2 = len) (h1 : 1 ≤ len) (h240 : len ≤ 240) (hic : i < count)
    (hargs : 8 + len ≤ (s.lb n.val).args.length) (hseq : i = 0 ∨ (count = s.planChunks ∧ (count ≤ i + 1 ∨ len = 240))) :
    ∃ t, exec (.planLoad n) s = .next t ∧ Completes s t n.val cplOK true [] ∧ t.planChunks = count ∧
      Tab.get (fun _ => []) t.plan i = ((s.lb n.val).args.drop 8).take len ∧
      (∀ j, j ≠ i → Tab.get (fun _ => []) t.plan j = if i = 0 then [] else Tab.get (fun _ => []) s.plan j) ∧
      OnlyLetterbox { s with plan := t.plan, planChunks := t.planChunks } t n.val := by
  have hok : ¬(len = 0 ∨ 240 < len ∨ count ≤ i ∨ (s.lb n.val).args.length < 8 + len ∨
      (i ≠ 0 ∧ (count ≠ s.planChunks ∨ (i + 1 < count ∧ len ≠ 240)))) := by omega
  let plan := Tab.set (fun _ => []) (if i = 0 then [] else s.plan) i (((s.lb n.val).args.drop 8).take len)
  obtain ⟨hended, honly⟩ := State.complete_ends (s := { s with plan := plan, planChunks := count }) (status := cplOK) true
    (result := []) n.isLt
    (by simp) h.2 (.ok _ n.val)
  have hplan : ((({ s with plan := plan, planChunks := count } : State).done n.val [])).plan = plan := by rw [State.done, honly.1]
  have hchunks : ((({ s with plan := plan, planChunks := count } : State).done n.val [])).planChunks = count := by rw [State.done, honly.1]
  refine ⟨({ s with plan := plan, planChunks := count } : State).done n.val [], ?_, hended.completes rfl, hchunks, ?_, fun j hj => ?_, ?_⟩
  · rw [exec, execPlanLoad, State.command_runs h (by omega)]
    simp only [hi, hcount, hlen, if_neg hok]
    rfl
  · rw [hplan]
    exact Tab.get_set_self _ _ _ _
  · rw [hplan]
    refine (Tab.get_set_ne _ _ _ hj).trans ?_
    split <;> rfl
  · rw [hplan, hchunks]
    exact honly

/-! ### Commits -/

theorem domainCrcs_getD (m : RegMap) {d : Nat} (h : d < 37) : (domainCrcs m).getD d 0 = domainCrc m d := by
  rw [domainCrcs, List.getD_eq_getElem _ _ (by simpa using h)]
  simp

/-- A commit whose checks pass freezes the session, with the references that the staged copy has in fact (R112). -/
theorem State.tryCommit_passes {s v : State} {adopt : Bool} {refs : List Word} {id : Option Nat}
    (h : s.tryCommit adopt refs id = (true, v)) :
    ∃ refs' verdict, (adopt = false → refs' = refs) ∧ (∀ d, d < 37 → refs'.getD d 0 = domainCrc s.staged d) ∧
      v = { s.setF F.CFG_STATUS_mismatch_staged 0xFF with
        session := s.session.map fun x =>
          { x with commitAt := some s.twoEpochsOn, refs := refs', adopted := adopt, verdict := verdict, planId := id } } := by
  revert h
  fun_cases State.tryCommit s adopt refs id
  · intro h
    cases h
  · intro h
    cases h
  · next hnone =>
    intro h
    refine ⟨if adopt then domainCrcs s.staged else refs, s.commitVerdict, fun ha => by simp [ha], fun d hd => ?_, (Prod.mk.inj h).2.symm⟩
    have := List.find?_eq_none.mp hnone d (List.mem_range.mpr hd)
    simp only [bne_iff_ne, ne_eq, not_not] at this
    rw [← this, domainCrcs_getD _ hd]

theorem State.tryCommit_fails {s v : State} {adopt : Bool} {refs : List Word} {id : Option Nat}
    (h : s.tryCommit adopt refs id = (false, v)) :
    LiveOnly [R.CFG_STATUS] s v := by
  have hset (k : Nat) : LiveOnly [R.CFG_STATUS] s (s.setF F.CFG_STATUS_mismatch_staged k) :=
    LiveOnly.setF s F.CFG_STATUS_mismatch_staged k rfl
  revert h
  fun_cases State.tryCommit s adopt refs id
  · intro h
    rw [← (Prod.mk.inj h).2]
    exact hset _
  · intro h
    rw [← (Prod.mk.inj h).2]
    exact hset _
  · intro h
    cases h

/-- A frozen session waits for a boundary two epochs on (R112). -/
theorem State.twoEpochsOn_le (s : State) : s.epoch + 2 ≤ s.twoEpochsOn := by
  unfold State.twoEpochsOn
  split <;> omega

theorem tryCommit_freezes {s v : State} {refs : List Word} {id : Option Nat} {x : Session} (hs : s.session = some x)
    (h : s.tryCommit false refs id = (true, v)) :
    (∃ y, v.session = some y ∧ y.commitAt = some s.twoEpochsOn ∧ y.refs = refs ∧ y.owner = x.owner) ∧
    v = { s with session := v.session, live := v.live } ∧ LiveBut [R.CFG_STATUS] s v ∧ s.epoch + 2 ≤ s.twoEpochsOn ∧
    ∀ d, d < 37 → refs.getD d 0 = domainCrc s.staged d := by
  obtain ⟨refs', verdict, hrefs, hcrc, hv⟩ := State.tryCommit_passes h
  cases hrefs rfl
  have hset := LiveOnly.setF s F.CFG_STATUS_mismatch_staged 0xFF rfl
  refine ⟨?_, ?_, ?_, s.twoEpochsOn_le, hcrc⟩
  · rw [hv, hs]
    exact ⟨_, rfl, rfl, rfl, rfl⟩
  · conv_lhs => rw [hv, hset.1]
    rw [hv]
  · rw [hv]
    exact hset.2

/-- The copies of the configuration stay as they are while a session is frozen. -/
theorem State.tryCommit_keeps {s v : State} {adopt : Bool} {refs : List Word} {id : Option Nat}
    (h : s.tryCommit adopt refs id = (true, v)) :
    v.staged = s.staged ∧ v.active = s.active ∧ v.lbs = s.lbs ∧ v.twoEpochsOn = s.twoEpochsOn := by
  obtain ⟨refs', verdict, -, -, hv⟩ := State.tryCommit_passes h
  have hset := (LiveOnly.setF s F.CFG_STATUS_mismatch_staged 0xFF rfl).1
  rw [hv, hset]
  exact ⟨rfl, rfl, rfl, rfl⟩

theorem State.runCommit_passes {s v : State} {n : Nat} {L : LbSt} {id : Option Nat}
    (h : s.tryCommit (L.flags % 2 == 1) (argRefs L.args) id = (true, v)) : s.runCommit n L id = v.begin n true v.twoEpochsOn := by
  simp only [State.runCommit, h, if_true]

theorem State.runCommit_fails {s v : State} {n : Nat} {L : LbSt} {id : Option Nat}
    (h : s.tryCommit (L.flags % 2 == 1) (argRefs L.args) id = (false, v)) : s.runCommit n L id = v.fail n cplREJECTED := by
  simp only [State.runCommit, h, Bool.false_eq_true, if_false]

/-- A command that has begun is marked so, and nothing else is. -/
theorem State.begin_begun {s v : State} {n : Nat} (committed : Bool) (epoch : Nat) (hlb : v.lbs = s.lbs) :
    Begun s (v.begin n committed epoch) n committed epoch := by
  have hk (k : Nat) : v.lb k = s.lb k := by unfold State.lb; rw [hlb]
  refine ⟨?_, fun k hne => ?_⟩
  · rw [State.begin, State.lb_modLb_self, hk]
  · rw [State.begin, State.lb_modLb_ne _ _ hne, hk]

theorem cfgCommit_freezes {n : Lb} {s u v : State} (h : LbRuns s n.val 0x0E02) (hargs : commitNeed (s.lb n.val) ≤ (s.lb n.val).args.length)
    (hadopt : s.adoptDenied (s.lb n.val) = false) (hu : s.sessionFor (s.lbPath n.val) = some u)
    (htry : u.tryCommit ((s.lb n.val).flags % 2 == 1) (argRefs (s.lb n.val).args) none = (true, v)) :
    ∃ t, exec (.cfgCommit n) s = .next t ∧ Begun s t n.val true s.twoEpochsOn ∧ t = { v with lbs := t.lbs } ∧ SameConfig s t := by
  obtain ⟨hstaged, hactive, hlbs, hepoch, -⟩ := State.sessionFor_inSession hu
  obtain ⟨hstaged', hactive', hlbs', hepoch'⟩ := State.tryCommit_keeps htry
  refine ⟨v.begin n.val true s.twoEpochsOn, ?_, State.begin_begun true _ (hlbs'.trans hlbs), rfl, hstaged'.trans hstaged,
    hactive'.trans hactive⟩
  rw [exec, execCfgCommit, State.command_runs h hargs]
  simp only [hadopt, hu, Bool.false_eq_true, if_false, State.runCommit_passes htry, hepoch', hepoch]

theorem cfgCommit_rejects {n : Lb} {s u v : State} (h : LbRuns s n.val 0x0E02) (hargs : commitNeed (s.lb n.val) ≤ (s.lb n.val).args.length)
    (hadopt : s.adoptDenied (s.lb n.val) = false) (hu : s.sessionFor (s.lbPath n.val) = some u) (hm : Mild s 656 692)
    (htry : u.tryCommit ((s.lb n.val).flags % 2 == 1) (argRefs (s.lb n.val).args) none = (false, v)) :
    ∃ t, exec (.cfgCommit n) s = .next t ∧ Completes s t n.val cplREJECTED false [] ∧ OnlyLetterbox v t n.val := by
  have hin := State.sessionFor_inSession hu
  have hfail := State.tryCommit_fails htry
  have hlb' : v.lb n.val = s.lb n.val := (hfail.lb n.val).trans (hin.lb n.val)
  have hactive' : v.active = s.active := by rw [hfail.1]; exact hin.active
  obtain ⟨hended, honly⟩ := State.complete_ends (s := v) false (result := []) n.isLt (by simp) (by rw [hlb']; exact h.2)
    ((hm.end n.isLt cplREJECTED).congr hactive')
  refine ⟨v.fail n.val cplREJECTED, ?_, hended.completes hlb', honly⟩
  rw [exec, execCfgCommit, State.command_runs h hargs]
  simp only [hadopt, hu, Bool.false_eq_true, if_false, State.runCommit_fails htry]

theorem planCommit_freezes {n : Lb} {s u v : State} {b : List Byte} (h : LbRuns s n.val 0x0303)
    (hargs : commitNeed (s.lb n.val) ≤ (s.lb n.val).args.length) (hadopt : s.adoptDenied (s.lb n.val) = false) (hb : s.planBytes = some b)
    (hcheck : verdict ((byteNum b 6 1).testBit 0) (imageFailures b s.active s.modeAfter) ≠ 2)
    (hu : s.sessionFor (s.lbPath n.val) = some u)
    (htry : (u.stagePlan (planFor b u.active s.modeAfter)).tryCommit ((s.lb n.val).flags % 2 == 1) (argRefs (s.lb n.val).args)
      (some (byteNum b 16 4)) = (true, v)) :
    ∃ t, exec (.planCommit n) s = .next t ∧ Begun s t n.val true s.twoEpochsOn ∧ t = { v with lbs := t.lbs } ∧
      t.staged = (u.stagePlan (planFor b u.active s.modeAfter)).staged ∧ t.active = s.active := by
  obtain ⟨-, hactive, hlbs, hepoch, -⟩ := State.sessionFor_inSession hu
  obtain ⟨hstaged', hactive', hlbs', hepoch'⟩ := State.tryCommit_keeps htry
  obtain ⟨g, hg⟩ := State.stagePlan_stager (planFor b u.active s.modeAfter)
  have hplan := hg u
  dsimp only at hplan
  have hepoch'' : v.twoEpochsOn = s.twoEpochsOn := by
    rw [hepoch', hplan]
    exact hepoch
  rw [hplan] at hactive' hlbs'
  refine ⟨v.begin n.val true s.twoEpochsOn, ?_, State.begin_begun true _ (hlbs'.trans hlbs), rfl, hstaged', hactive'.trans hactive⟩
  rw [exec, execPlanCommit, State.command_runs h hargs]
  simp only [hadopt, hb, hcheck, hu, Bool.false_eq_true, if_false, State.runCommit_passes htry, hepoch'']

/-- Settles O31: what commands stage in their path's session, and the commits that freeze it. -/
theorem sessionsStageAndFreeze : Obligations.SessionsStageAndFreeze := by
  intro n s
  refine ⟨cfgBegin_opens, fun x h hs ho hc => cfgAbort_ends h hs ho hc, cfgAbort_tells, fun x hs hc => cfgSessionIdle_ends hs hc,
    fun p x h hargs hx hown => portSet_stages h hargs hx hown, zoneSet_stages, fun h hargs hok hown => ?_, fun h hargs hok hown => ?_,
    fun i count len h hi hcount hlen h1 h240 hic hargs hseq => planLoad_keeps h hi hcount hlen h1 h240 hic hargs hseq,
    fun u v h hargs hadopt hu htry => cfgCommit_freezes h hargs hadopt hu htry,
    fun u v h hargs hadopt hu hm htry => cfgCommit_rejects h hargs hadopt hu hm htry,
    fun b u v h hargs hadopt hb hcheck hu htry => planCommit_freezes h hargs hadopt hb hcheck hu htry,
    fun refs id v x hs htry => tryCommit_freezes hs htry⟩
  · obtain ⟨hwarn, hthrottle, hcap1, hcap2⟩ := thermStage_reads (s.lb n.val) s.staged
    refine ⟨_, thermSet_stages h hargs hok hown, ?_, ?_, ?_, ?_, diodeStage_mask⟩
    · rw [diodeStage_fv (by decide), hwarn]
    · rw [diodeStage_fv (by decide), hthrottle]
    · rw [diodeStage_fv (by decide), hcap1]
    · rw [diodeStage_fv (by decide), hcap2]
  · exact ⟨_, testSchedule_stages h hargs hok hown, scheduleStage_reads _ _⟩

end Sys2Proof.Machine

namespace Sys2Proof.Machine

/-! ## Configuration in force

What a commit leaves of the configuration once it has taken effect, and the other commands of the configuration. -/

/-! ### What the device's own work leaves of the configuration -/

/-- The two copies of the configuration, its session, the mismatches known, and the live registers of the block CFG. -/
def State.inForce (s : State) : RegMap × RegMap × Option Session × List Nat × (Fin 0x1000 → Word) :=
  (s.active, s.staged, s.session, s.cfgBad, fun a => s.live.val a.val)

/-- A live field outside the block CFG. -/
def Fld.device (f : Fld) : Prop := f.cfg = false ∧ 0x1000 ≤ f.addr

@[simp] theorem Fld.device_one {a lo w : Nat} (h : 0x1000 ≤ a) : Fld.device ⟨a, lo, w, false⟩ := ⟨rfl, h⟩
@[simp] theorem Fld.device_row {a k lo w : Nat} (h : 0x1000 ≤ a) : Fld.device ⟨a + k, lo, w, false⟩ :=
  ⟨rfl, Nat.le_add_right_of_le h⟩

theorem RegMap.val_put_block (m : RegMap) {a : Nat} (w : Word) (h : 0x1000 ≤ a) :
    (fun k : Fin 0x1000 => (m.put a w).val k.val) = fun k : Fin 0x1000 => m.val k.val := by
  funext k
  exact RegMap.val_put_ne _ _ (by omega)

@[simp] theorem State.setF_inForce (s : State) (f : Fld) (v : Nat) (h : f.device) : (s.setF f v).inForce = s.inForce := by
  rw [State.setF_live _ _ _ h.1]
  simp only [State.inForce, RegMap.setF, RegMap.val_put_block _ _ h.2]

@[simp] theorem State.addF_inForce (s : State) (f : Fld) (n : Nat) (h : f.device) : (s.addF f n).inForce = s.inForce :=
    State.setF_inForce s f _ h
@[simp] theorem State.inc_inForce (s : State) (f : Fld) (h : f.device) : (s.inc f).inForce = s.inForce := State.setF_inForce s f _ h
@[simp] theorem State.putBit_inForce (s : State) (f : Fld) (i : Nat) (b : Bool) (h : f.device) : (s.putBit f i b).inForce = s.inForce :=
  State.setF_inForce s f _ h

@[simp] theorem State.ite_inForce (c : Prop) [Decidable c] (s t : State) :
    (if c then s else t).inForce = if c then s.inForce else t.inForce := by
  split <;> rfl

theorem State.foldl_inForce {α : Type} (l : List α) (f : State → α → State) (h : ∀ s a, (f s a).inForce = s.inForce) (s : State) :
    (l.foldl f s).inForce = s.inForce := by
  induction l generalizing s with
  | nil => rfl
  | cons a l ih => exact (ih _).trans (h s a)

theorem State.when_inForce (s : State) (c : Bool) (f : State → State) (h : ∀ t, (f t).inForce = t.inForce) :
    (s.when c f).inForce = s.inForce := by
  unfold State.when
  split
  · exact h s
  · rfl

theorem State.putLive_inForce (s : State) {a : Nat} (w : Word) (h : 0x1000 ≤ a) :
    State.inForce { s with live := s.live.put a w } = s.inForce := by
  simp only [State.inForce, RegMap.val_put_block _ _ h]

/-! #### Links and events -/

@[simp] theorem State.setLink_inForce (s : State) (n : Nat) (v : LinkSt) : (s.setLink n v).inForce = s.inForce :=
    by simp only [State.inForce, State.setLink]
@[simp] theorem State.modLink_inForce (s : State) (n : Nat) (f : LinkSt → LinkSt) : (s.modLink n f).inForce = s.inForce :=
    by simp [State.modLink]
@[simp] theorem State.setTile_inForce (s : State) (n : Nat) (v : TileSt) : (s.setTile n v).inForce = s.inForce :=
    by simp only [State.inForce, State.setTile]
@[simp] theorem State.modTile_inForce (s : State) (n : Nat) (f : TileSt → TileSt) : (s.modTile n f).inForce = s.inForce :=
    by simp [State.modTile]
@[simp] theorem State.setLb_inForce (s : State) (n : Nat) (v : LbSt) : (s.setLb n v).inForce = s.inForce :=
    by simp only [State.inForce, State.setLb]
@[simp] theorem State.modLb_inForce (s : State) (n : Nat) (f : LbSt → LbSt) : (s.modLb n f).inForce = s.inForce := by simp [State.modLb]
@[simp] theorem State.freeTag_inForce (s : State) (k : Nat × Nat) : (s.freeTag k).inForce = s.inForce :=
    by simp only [State.inForce, State.freeTag]

@[simp] theorem State.setLinkState_inForce (s : State) (n v : Nat) : (s.setLinkState n v).inForce = s.inForce := by
  simp [State.setLinkState, F.LNK_STATUS_state]

@[simp] theorem State.pump_inForce (s : State) (n : Nat) : (s.pump n).inForce = s.inForce := by
  unfold State.pump
  split
  · exact State.foldl_inForce _ _ (fun s k => State.freeTag_inForce s k) _
  · rfl

@[simp] theorem State.queueFlit_inForce (s : State) (n : Nat) (f : OutFlit) : (s.queueFlit n f).inForce = s.inForce :=
    by simp [State.queueFlit]
@[simp] theorem State.sendFlit_inForce (s : State) (n typ : Nat) (p : Payload) : (s.sendFlit n typ p).inForce = s.inForce := by
  simp [State.sendFlit]
@[simp] theorem State.sendMgmt_inForce (s : State) (n : Nat) (p : Payload) : (s.sendMgmt n p).inForce = s.inForce :=
    by simp [State.sendMgmt]

@[simp] theorem State.undoBursts_inForce (s : State) (r : Req) (c : Charge) : (s.undoBursts r c).inForce = s.inForce := by cases c <;> rfl

@[simp] theorem State.dropTentative_inForce (s : State) (n : Nat) : (s.dropTentative n).inForce = s.inForce := by
  refine Eq.trans ?_ (State.foldl_inForce (s.reqs.filter fun r => r.tentative && r.link == n)
    (fun s r => r.charges.foldl (fun s c => s.undoBursts r c) s) (fun s r => ?_) s)
  · rfl
  · exact State.foldl_inForce _ _ (fun s c => State.undoBursts_inForce s r c) s

@[simp] theorem State.leaveLink_inForce (s : State) (n dst : Nat) : (s.leaveLink n dst).inForce = s.inForce := by
  simp [State.leaveLink]

@[simp] theorem State.linkDown_inForce (s : State) (n : Nat) : (s.linkDown n).inForce = s.inForce := by
  simp only [State.linkDown, State.setLinkState_inForce]
  rw [State.setF_inForce _ _ _ (by simp [F.LNK_STATUS_repair_pending])]
  exact State.leaveLink_inForce s n lsDown

@[simp] theorem State.sendEvent_inForce (s : State) (c v : Nat) (d : List (Nat × Nat × Nat)) : (s.sendEvent c v d).inForce =
    s.inForce := by
  have h : (s.inc F.LNK_EVT_LOST_count).inForce = s.inForce := by simp [F.LNK_EVT_LOST_count]
  unfold State.sendEvent
  split
  · rfl
  · dsimp only
    split <;> exact h

@[simp] theorem State.event_inForce (s : State) (c : Nat) (d : List (Nat × Nat × Nat)) : (s.event c d).inForce = s.inForce :=
  State.sendEvent_inForce s c _ d

/-! #### Faults -/

@[simp] theorem State.setLatch_inForce (s : State) (k : Nat) (l : Latch) : (s.setLatch k l).inForce = s.inForce :=
    by simp only [State.inForce, State.setLatch]
@[simp] theorem State.setWindows_inForce (s : State) : s.setWindows.inForce = s.inForce := by simp only [State.inForce, State.setWindows]
@[simp] theorem State.noteRaised_inForce (s : State) (k : Nat) (l : Latch) : (s.noteRaised k l).inForce = s.inForce :=
    by simp only [State.inForce, State.noteRaised]

@[simp] theorem State.stopDevice_inForce (s : State) : s.stopDevice.inForce = s.inForce := by
  simp only [State.stopDevice]
  have h := State.foldl_inForce (List.range 16) (fun s n => if s.linkState n = lsDown then s else s.linkDown n) (by simp) s
  rw [State.setF_inForce _ _ _ (by simp [F.FLT_STATUS_quiet_running])]
  generalize (List.range 16).foldl (fun s n => if s.linkState n = lsDown then s else s.linkDown n) s = u at h ⊢
  exact h

@[simp] theorem State.restartQuiet_inForce (s : State) : s.restartQuiet.inForce = s.inForce := by
  unfold State.restartQuiet
  dsimp only
  split
  · exact State.inc_inForce _ _ (by simp [F.FLT_CNT_QUIETRESTART_count])
  · exact State.setF_inForce _ _ _ (by simp [F.FLT_STATUS_quiet_running])

@[simp] theorem State.holdUnit_inForce (s : State) (u : Option CUnit) : (s.holdUnit u).inForce = s.inForce := by cases u <;> rfl

@[simp] theorem State.faultEvent_inForce (s : State) (k v : Nat) (l : Latch) (u : Option CUnit) :
    (s.faultEvent k v l u).inForce = s.inForce := by
  simp only [State.faultEvent]
  rw [State.inc_inForce _ _ (by simp [F.FLT_CNT_EVENT_count])]
  exact State.sendEvent_inForce s _ _ _

@[simp] theorem State.keepFatal_inForce (s : State) (k : Nat) : (s.keepFatal k).inForce = s.inForce := by
  unfold State.keepFatal
  split
  · rfl
  · dsimp only
    rw [State.setF_inForce _ _ _ (by simp [F.FLT_FATAL_SRC_valid]), State.setF_inForce _ _ _ (by simp [F.FLT_FATAL_SRC_source])]
    rfl

@[simp] theorem State.when_inForce_ite (s : State) (c : Bool) (f : State → State) : (s.when c f).inForce = if c then
    (f s).inForce else s.inForce := by
  unfold State.when
  split <;> rfl

@[simp] theorem State.raise_inForce (s : State) (k i : Nat) : (s.raise k i).inForce = s.inForce := by
  unfold State.raise
  simp [F.FLT_CNT_RAISE_count, F.FLT_STATUS_fault_state, F.FLT_STATUS_degraded]

/-! #### Units and memories -/

@[simp] theorem State.setDomain_inForce (s : State) (d v : Nat) : (s.setDomain d v).inForce = s.inForce :=
  State.putLive_inForce s _ (by simp only [R.PWR_DOM]; omega)

@[simp] theorem State.coolPhy_inForce (s : State) (n : Nat) : (s.coolPhy n).inForce = s.inForce := by simp [State.coolPhy]
@[simp] theorem State.setEcc_inForce (s : State) (t : Nat) (v : EccSt) : (s.setEcc t v).inForce = s.inForce :=
    by simp only [State.inForce, State.setEcc]
@[simp] theorem State.modEcc_inForce (s : State) (t : Nat) (f : EccSt → EccSt) : (s.modEcc t f).inForce = s.inForce :=
    by simp [State.modEcc]
@[simp] theorem State.dramPut_inForce (s : State) (i : Nat) (c : Codeword) : (s.dramPut i c).inForce = s.inForce :=
    by simp only [State.inForce, State.dramPut]
@[simp] theorem State.loseGranule_inForce (s : State) (k : Nat) : (s.loseGranule k).inForce = s.inForce :=
    by simp only [State.inForce, State.loseGranule]
@[simp] theorem State.larderPut_inForce (s : State) (q b l w : Nat) (c : Codeword) : (s.larderPut q b l w c).inForce = s.inForce :=
    by simp only [State.inForce, State.larderPut]
@[simp] theorem State.putLarder_inForce (s : State) (l : LLine) (w : Nat) (c : Codeword) : (s.putLarder l w c).inForce = s.inForce :=
    by simp [State.putLarder]
@[simp] theorem State.putHeld_inForce (s : State) (l : Loc) (w : Nat) (c : Codeword) : (s.putHeld l w c).inForce = s.inForce :=
    by simp [State.putHeld]
@[simp] theorem State.setCacheSet_inForce (s : State) (k : Nat) (l : List CLine) : (s.setCacheSet k l).inForce = s.inForce :=
    by simp only [State.inForce, State.setCacheSet]

@[simp] theorem State.eccStatus_inForce (s : State) (t : Nat) : (s.eccStatus t).inForce = s.inForce := by
  simp [State.eccStatus, F.ECC_STATUS_probe_q, F.ECC_STATUS_rec_used]

@[simp] theorem State.capture_inForce (s : State) (t k : Nat) (i : ErrInfo) : (s.capture t k i).inForce = s.inForce := by
  simp [State.capture, F.ECC_CNT_LOGLOST_count]

@[simp] theorem State.captures_inForce (s : State) (t k : Nat) (l : List ErrInfo) (f : ErrInfo → ErrInfo) :
    (l.foldl (fun s i => s.capture t k (f i)) s).inForce = s.inForce :=
  State.foldl_inForce _ _ (fun s i => State.capture_inForce s t k (f i)) s

@[simp] theorem State.queueBurst_inForce (s : State) (t b r c : Nat) (l : List ErrInfo) : (s.queueBurst t b r c l).inForce = s.inForce := by
  unfold State.queueBurst
  simp [F.ECC_CNT_PROBEDROP_count]

@[simp] theorem State.leaves_inForce (s : State) (t : Nat) (r : RecEntry) : (s.leaves t r).inForce = s.inForce := by
  simp [State.leaves, State.queueProbe]

@[simp] theorem State.leaveRecs_inForce (s : State) (t b r c w : Nat) : (s.leaveRecs t b r c w).inForce = s.inForce := by
  unfold State.leaveRecs
  split
  · rfl
  · exact State.leaves_inForce s t _

@[simp] theorem State.putSlot_inForce (s : State) (n k : Nat) (c : Codeword) (m : Bool) : (s.putSlot n k c m).inForce = s.inForce := by
  unfold State.putSlot
  dsimp only
  split
  · exact (State.larderPut_inForce _ _ _ _ _ _).trans (State.putLarder_inForce s _ _ c)
  · exact State.putLarder_inForce s _ _ c

@[simp] theorem State.inject_inForce (s : State) (l : Loc) (w : Nat) (c : Codeword) : (s.inject l w c).2.inForce = s.inForce := by
  unfold State.inject
  dsimp only
  split
  · simp [F.ECC_INJ_CTL_arm, F.ECC_INJ_CTL_done]
  · rfl

@[simp] theorem State.putDram_inForce (s : State) (l : Loc) (w : Nat) (c : Codeword) : (s.putDram l w c).inForce = s.inForce := by
  unfold State.putDram
  dsimp only
  split
  · simp
  · split <;> split <;> simp

@[simp] theorem State.writeDram_inForce (s : State) (l : Loc) (w : Nat) (x : DWord) (p : Bool) :
    (s.writeDram l w x p).inForce = s.inForce := by
  simp [State.writeDram]

@[simp] theorem State.queueWork_inForce (s : State) (r : Nat) (i : WorkFor) (l : Loc) (w : Bool) :
    (s.queueWork r i l w).inForce = s.inForce := by
  simp [State.queueWork, State.showFlush, F.ENG_CTL_flush_busy]

@[simp] theorem State.writeBack_inForce (s : State) (t : Nat) (l : CLine) : (s.writeBack t l).inForce = s.inForce := by
  unfold State.writeBack
  dsimp only
  rw [State.inc_inForce _ _ (by simp [F.ENG_CNT_CWB_count])]
  refine State.foldl_inForce _ _ (fun s w => ?_) s
  split <;> simp [F.ECC_CNT_LUE_count]

@[simp] theorem State.cleanLines_inForce (s : State) (i : WorkFor) (p : Nat → CLine → Bool) : (s.cleanLines i p).inForce = s.inForce :=
  State.foldl_inForce _ _ (by simp) s

@[simp] theorem State.dropLines_inForce (s : State) (p : Nat → CLine → Bool) : (s.dropLines p).inForce = s.inForce :=
  (State.foldl_inForce _ _ (by simp) _).trans (State.cleanLines_inForce s noReq p)

/-! #### Letterboxes -/

@[simp] theorem State.putBuf_inForce (s : State) (n o : Nat) (bs : List Byte) : (s.putBuf n o bs).inForce = s.inForce :=
  State.foldl_inForce _ _ (fun s b => State.putLive_inForce s _ (by simp only [R.MBX_BUF]; omega)) s

@[simp] theorem State.releaseLb_inForce (s : State) (n : Nat) : (s.releaseLb n).inForce = s.inForce := by
  simp [State.releaseLb, F.MBX_OWNER_owned, F.MBX_OWNER_owner, F.MBX_OWNER_release]

@[simp] theorem State.cplNote_inForce (s : State) (n w : Nat) : (s.cplNote n w).inForce = s.inForce := by
  unfold State.cplNote
  split
  · simp
  · rfl

@[simp] theorem State.complete_inForce (s : State) (n st : Nat) (c : Bool) (r : List Byte) : (s.complete n st c r).inForce = s.inForce := by
  unfold State.complete
  dsimp only
  generalize cplWord _ _ _ _ = w
  generalize cplSource _ = k
  cases k <;> simp [F.MBX_CPL_word, F.MBX_CTL_abort]

@[simp] theorem State.done_inForce (s : State) (n : Nat) (r : List Byte) : (s.done n r).inForce = s.inForce :=
    State.complete_inForce s n _ _ r

@[simp] theorem State.dropWork_inForce (s : State) (n : Nat) : (s.dropWork n).inForce = s.inForce :=
    by simp only [State.inForce, State.dropWork]

@[simp] theorem State.endEarly_inForce (s : State) (n st : Nat) : (s.endEarly n st).inForce = s.inForce := by simp [State.endEarly]

@[simp] theorem State.restartCore_inForce (s : State) (c : Nat) : (s.restartCore c).inForce = s.inForce := by
  unfold State.restartCore
  dsimp only
  rw [State.foldl_inForce _ _ (by simp)]
  rfl

@[simp] theorem State.answerCommit_inForce (s : State) : s.answerCommit.inForce = s.inForce := by
  unfold State.answerCommit
  refine State.foldl_inForce (List.range 6) _ (fun s n => ?_) s
  dsimp only
  split
  · simp
  · rfl

/-! #### What a commit changes beside the copies -/

@[simp] theorem State.logReady_inForce (s : State) : s.logReady.inForce = s.inForce := by simp only [State.inForce, State.logReady]
@[simp] theorem State.noteQuotas_inForce (s : State) (m : RegMap) : (s.noteQuotas m).inForce = s.inForce :=
    by simp only [State.inForce, State.noteQuotas]
@[simp] theorem State.mirrorPerm_inForce (s : State) (m : RegMap) : (s.mirrorPerm m).inForce = s.inForce :=
    by simp only [State.inForce, State.mirrorPerm]
@[simp] theorem State.pruneBudgets_inForce (s : State) : s.pruneBudgets.inForce = s.inForce :=
    by simp only [State.inForce, State.pruneBudgets]

@[simp] theorem State.loseGranules_inForce (s : State) (l : List Nat) : (l.foldl State.loseGranule s).inForce = s.inForce :=
  State.foldl_inForce _ _ (fun s k => State.loseGranule_inForce s k) s

@[simp] theorem State.powerDown_inForce (s : State) : s.powerDown.inForce = s.inForce :=
  State.loseGranules_inForce _ _

@[simp] theorem State.powerGranules_inForce (s : State) (m : RegMap) : (s.powerGranules m).inForce = s.inForce := by
  unfold State.powerGranules
  dsimp only
  rw [State.powerDown_inForce]
  exact State.loseGranules_inForce s _

@[simp] theorem State.showFallback_inForce (s : State) (b : Nat) : (s.showFallback b).inForce = s.inForce :=
  (State.foldl_inForce _ _ (by simp [F.SCH_STATUS_clock_fallback]) _).trans (by simp [F.CLK_STATUS_fallback])

@[simp] theorem State.enterFallback_inForce (s : State) : s.enterFallback.inForce = s.inForce := by
  unfold State.enterFallback
  dsimp only
  split
  · rfl
  · simp only [State.event_inForce, State.raise_inForce]
    rw [State.inc_inForce _ _ (by simp [F.CLK_CNT_FALLBACK_count]), State.showFallback_inForce]
    rfl

@[simp] theorem State.afterCommit_inForce (s : State) (m : RegMap) : (s.afterCommit m).inForce = s.inForce := by
  unfold State.afterCommit
  dsimp only
  rw [State.when_inForce _ _ _ State.enterFallback_inForce, State.mirrorPerm_inForce, State.powerGranules_inForce,
    State.when_inForce, State.when_inForce, State.when_inForce, State.noteQuotas_inForce]
  · intro t
    change ((t.setF F.ENG_RING_PROD_index 0).setF F.ENG_RING_CONS_index 0).inForce = _
    simp [F.ENG_RING_PROD_index, F.ENG_RING_CONS_index]
  · exact State.logReady_inForce
  · simp [F.CEL_STATUS_ready]

@[simp] theorem State.noteShort_inForce (s : State) (t : Nat) (x : Short) : (s.noteShort t x).inForce = s.inForce := by
  have hdev : (F.SCH_SHORT_be_scale t).device ∧ (F.SCH_SHORT_rt_cut t).device ∧ (F.SCH_SHORT_pool_cut t).device ∧
      (F.SCH_SHORT_first_cut t).device := by
    simp [F.SCH_SHORT_be_scale, F.SCH_SHORT_rt_cut, F.SCH_SHORT_pool_cut, F.SCH_SHORT_first_cut]
  obtain ⟨hscale, hcut, hpool, hfirst⟩ := hdev
  unfold State.noteShort
  dsimp only
  split
  · simp [hscale, hcut, hpool, hfirst]
  · split
    · simp [hscale, hcut, hpool, hfirst]
    · split <;> simp [hscale, hcut, hpool, hfirst]

@[simp] theorem State.fixTile_inForce (s : State) (t : Nat) : (s.fixTile t).1.inForce = s.inForce := by
  unfold State.fixTile
  dsimp only
  rw [State.noteShort_inForce, State.setF_inForce _ _ _ (by simp [F.SCH_CAP_cap])]
  rfl

@[simp] theorem State.showScale_inForce (s : State) (p : Nat) : (s.showScale p).inForce = s.inForce := by
  simp [State.showScale, F.PRT_STATUS_be_scale]

@[simp] theorem State.showGates_inForce (s : State) : s.showGates.inForce = s.inForce := by
  simp [State.showGates, F.SEC_GATE_tap_d1, F.SEC_GATE_tap_d2, F.SEC_GATE_scan, F.SEC_GATE_halt, F.SEC_GATE_dbgmem, F.SEC_GATE_raw]

@[simp] theorem State.endGrants_inForce (s : State) : s.endGrants.inForce = s.inForce := by
  have hhalt : ∀ (t : State) (c : Nat), (if t.bit F.SEC_DBGHALT_halt c then (t.putBit F.SEC_DBGHALT_halt c false).restartCore c
      else t).inForce = t.inForce := by
    have h : F.SEC_DBGHALT_halt.device := by simp [F.SEC_DBGHALT_halt]
    simp [h]
  unfold State.endGrants
  dsimp only
  rw [State.foldl_inForce]
  · rw [State.ite_inForce, State.foldl_inForce _ _ hhalt]
    simp
  · intro t e
    split
    · split
      · exact State.restartCore_inForce _ _
      · rfl
    · rfl

@[simp] theorem State.showDoze_inForce (s : State) : s.showDoze.inForce = s.inForce :=
  State.foldl_inForce _ _ (by simp [F.LNK_PM_auto_doze]) s

@[simp] theorem State.enterCool_inForce (s : State) : s.enterCool.inForce = s.inForce := by
  unfold State.enterCool
  dsimp only
  rw [State.foldl_inForce _ _ (by simp)]
  rfl

@[simp] theorem State.leaveCool_inForce (s : State) : s.leaveCool.inForce = s.inForce := by
  unfold State.leaveCool
  dsimp only
  rw [State.foldl_inForce _ _ (by simp)]
  rfl

@[simp] theorem State.setMode_inForce (s : State) (m c : Nat) : (s.setMode m c).inForce = s.inForce := by
  unfold State.setMode
  dsimp only
  rw [State.endGrants_inForce, State.when_inForce _ _ _ (by simp [F.ECC_INJ_CTL_arm]), State.when_inForce _ _ _ State.enterCool_inForce,
    State.when_inForce _ _ _ State.leaveCool_inForce, State.showDoze_inForce, State.event_inForce]
  refine (State.inc_inForce (((s.setF F.PWR_MODE_prev s.mode).setF F.PWR_MODE_mode m).setF F.PWR_MODE_EPOCH_epoch s.epoch)
    F.PWR_CNT_MODE_count (by simp [F.PWR_CNT_MODE_count])).trans ?_
  simp [F.PWR_MODE_prev, F.PWR_MODE_mode, F.PWR_MODE_EPOCH_epoch]

@[simp] theorem State.showOversub_inForce (s : State) (v : Nat) : (s.showOversub v).inForce = s.inForce :=
  State.foldl_inForce _ _ (by simp [F.SCH_POOL_oversub]) s

@[simp] theorem State.setPhase_inForce (s : State) (p : Nat) : (s.setPhase p).inForce = s.inForce := by
  have h1 := State.when_inForce s ((p == 6 || p == 7) && s.pwr.phase < 6) (fun s' => s'.setF F.PWR_BOOT_MS_awaitcfg_ms (min s.ms 0xFFFF))
    (by simp [F.PWR_BOOT_MS_awaitcfg_ms])
  unfold State.setPhase
  exact (State.when_inForce _ _ _ (by simp [F.PWR_BOOT_MS_ready_ms])).trans h1

@[simp] theorem State.showReady_inForce (s : State) : s.showReady.inForce = s.inForce :=
  State.when_inForce s _ _ fun t => State.setPhase_inForce t 7

theorem State.fixTiles_inForce (l : List Nat) (s : State) (f : Nat) :
    (l.foldl (fun (a : State × Nat) t =>
      if a.1.planning t then
        let (s, f) := a.1.fixTile t
        (s, min a.2 f)
      else a) (s, f)).1.inForce = s.inForce := by
  induction l generalizing s f with
  | nil => rfl
  | cons t l ih =>
    rw [List.foldl_cons]
    split
    · exact (ih _ _).trans (State.fixTile_inForce s t)
    · exact ih s f

@[simp] theorem State.fixFigures_inForce (s : State) : s.fixFigures.inForce = s.inForce := by
  have h := State.fixTiles_inForce (List.range 32) s 256
  unfold State.fixFigures
  generalize (List.range 32).foldl _ (s, 256) = a at h ⊢
  obtain ⟨u, f⟩ := a
  dsimp only at h ⊢
  rw [State.pruneBudgets_inForce, State.foldl_inForce _ _ State.showScale_inForce]
  exact h

/-! ### The commit boundary -/

theorem State.fv_of_inForce {s t : State} (h : t.inForce = s.inForce) {f : Fld} (hf : f.cfg = false)
    (ha : f.addr < 0x1000) : t.fv f = s.fv f := by
  have hlive : t.live.val f.addr = s.live.val f.addr := congrFun (congrArg (fun x => x.2.2.2.2) h) ⟨f.addr, ha⟩
  simp [State.fv, hf, RegMap.fv, hlive]

theorem State.copies_of_inForce {s t : State} (h : t.inForce = s.inForce) :
    t.active = s.active ∧ t.staged = s.staged ∧ t.session = s.session ∧ t.cfgBad = s.cfgBad :=
  ⟨congrArg (fun x => x.1) h, congrArg (fun x => x.2.1) h, congrArg (fun x => x.2.2.1) h, congrArg (fun x => x.2.2.2.1) h⟩

theorem State.closeSession_fv (s : State) {f : Fld} (h : f.addr = 0 → f.lo + f.width ≤ 8 ∨ 16 ≤ f.lo) :
    s.closeSession.fv f = s.fv f := by
  have hf (g : Fld) (hg : g.addr = 0 ∧ 8 ≤ g.lo ∧ g.lo + g.width ≤ 16) : g.apart f := by
    unfold Fld.apart
    omega
  exact (State.fv_setF_ne _ 0 (hf F.CFG_STATUS_session_owner (by decide))).trans
    (State.fv_setF_ne _ 0 (hf F.CFG_STATUS_session (by decide)))

/-- The references that a commit stores, from index `k` on. -/
def State.showRefs (s : State) (l : List Word) (k : Nat) : State :=
  (l.zipIdx k).foldl (fun (s : State) r => s.setF (F.CFG_REF_ref r.2) r.1.toNat) s

theorem State.showRefs_cons (s : State) (w : Word) (l : List Word) (k : Nat) :
    s.showRefs (w :: l) k = (s.setF (F.CFG_REF_ref k) w.toNat).showRefs l (k + 1) := rfl

theorem State.showRefs_live (s : State) (l : List Word) (k : Nat) : s.showRefs l k = { s with live := (s.showRefs l k).live } := by
  induction l generalizing s k with
  | nil => rfl
  | cons w l ih => rw [State.showRefs_cons, ih]; rfl

theorem State.showRefs_before (s : State) (l : List Word) {k d : Nat} (h : d < k) :
    (s.showRefs l k).fv (F.CFG_REF_ref d) = s.fv (F.CFG_REF_ref d) := by
  induction l generalizing s k with
  | nil => rfl
  | cons w l ih => rw [State.showRefs_cons, ih _ (by omega), State.fv_setF_ne _ _ (.inl (by simp only [F.CFG_REF_ref]; omega))]

theorem State.showRefs_get (s : State) {l : List Word} (k : Nat) {i : Nat} {w : Word} (h : l[i]? = some w) :
    (s.showRefs l k).fv (F.CFG_REF_ref (k + i)) = w.toNat := by
  induction l generalizing s k i with
  | nil => simp at h
  | cons v l ih =>
    rw [State.showRefs_cons]
    cases i with
    | zero =>
      obtain rfl : v = w := by simpa using h
      rw [State.showRefs_before _ _ (by omega), Nat.add_zero, State.fv_setF_self _ _ _ (by simp only [F.CFG_REF_ref]; omega)]
      exact Nat.mod_eq_of_lt v.isLt
    | succ i => simpa [Nat.add_assoc, Nat.add_comm 1] using ih (s.setF (F.CFG_REF_ref k) v.toNat) (k + 1) (by simpa using h)

/-- The staged copy is the active one, and the block CFG shows the commit. -/
def State.adopt (s : State) (x : Session) : State :=
  let s := State.showRefs { s with
    active := s.staged
    cfgBad := []
    planId := x.planId.getD s.planId
    votes := s.votes.filter fun v => v.fieldId == 0 || v.fieldId == 89 } x.refs 0
  ((s.setF F.CFG_STATUS_committed 1).setF F.CFG_STATUS_adopted (if x.adopted then 1 else 0)).setF F.CFG_COMMIT_EPOCH_epoch s.epoch

theorem State.adopt_eq (s : State) (x : Session) : s.adopt x = { s with
    active := s.staged
    cfgBad := []
    planId := x.planId.getD s.planId
    votes := s.votes.filter fun v => v.fieldId == 0 || v.fieldId == 89
    live := (s.adopt x).live } := by
  unfold State.adopt
  dsimp only
  rw [State.showRefs_live]
  rfl

theorem State.adopt_committed (s : State) (x : Session) : (s.adopt x).fv F.CFG_STATUS_committed = 1 := by
  unfold State.adopt
  dsimp only
  rw [State.fv_setF_ne _ _ (by simp [Fld.apart, F.CFG_COMMIT_EPOCH_epoch, F.CFG_STATUS_committed]),
    State.fv_setF_ne _ _ (by simp [Fld.apart, F.CFG_STATUS_adopted, F.CFG_STATUS_committed]), State.fv_setF_self _ _ _ (by decide)]
  rfl

theorem State.adopt_epoch (s : State) (x : Session) (h : s.epoch < 2 ^ 32) : (s.adopt x).fv F.CFG_COMMIT_EPOCH_epoch = s.epoch := by
  have he : (s.adopt x).fv F.CFG_COMMIT_EPOCH_epoch = s.epoch % 2 ^ 32 := by
    unfold State.adopt
    dsimp only
    rw [State.fv_setF_self _ _ _ (by decide), State.showRefs_live]
    rfl
  rw [he, Nat.mod_eq_of_lt h]

theorem State.adopt_refs (s : State) {x : Session} {d : Nat} {w : Word} (h : x.refs[d]? = some w) :
    (s.adopt x).fv (F.CFG_REF_ref d) = w.toNat := by
  unfold State.adopt
  dsimp only
  rw [State.fv_setF_ne _ _ (.inl (by simp only [F.CFG_REF_ref, F.CFG_COMMIT_EPOCH_epoch]; omega)),
    State.fv_setF_ne _ _ (.inl (by simp only [F.CFG_REF_ref, F.CFG_STATUS_adopted]; omega)),
    State.fv_setF_ne _ _ (.inl (by simp only [F.CFG_REF_ref, F.CFG_STATUS_committed]; omega))]
  simpa using State.showRefs_get _ 0 h

/-- R194: the verdict of a plan shows at its commit. -/
def State.showVerdict (s : State) (x : Session) : State :=
  match x.verdict with
  | some v => s.showOversub v
  | none => s

@[simp] theorem State.showVerdict_inForce (s : State) (x : Session) : (s.showVerdict x).inForce = s.inForce := by
  unfold State.showVerdict
  split
  · exact State.showOversub_inForce s _
  · rfl

/-- The work of the commit boundary once the session is closed; `old` was the active copy,
  and `first` says that there was no commit before. -/
def State.settle (s : State) (old : RegMap) (first : Bool) : State :=
  let s := s.afterCommit old
  let s := { s with sec := { s.sec with shut := s.sec.moving } }
  let s := if first then (if bootMode s.active = s.mode then s.showDoze else s.setMode (bootMode s.active) 0) else s
  s.fixFigures.showReady.answerCommit

@[simp] theorem State.settle_inForce (s : State) (old : RegMap) (first : Bool) : (s.settle old first).inForce = s.inForce := by
  have h := State.afterCommit_inForce s old
  unfold State.settle
  generalize s.afterCommit old = u at h ⊢
  dsimp only
  rw [State.answerCommit_inForce, State.showReady_inForce, State.fixFigures_inForce]
  refine Eq.trans ?_ h
  split
  · split
    · exact State.showDoze_inForce _
    · exact State.setMode_inForce _ _ 0
  · rfl

theorem configCommitBoundary_eq {s : State} {x : Session} {e : Nat} (hs : s.session = some x) (hx : x.commitAt = some e)
    (hb : s.atBoundary = true) (he : e ≤ s.epoch) :
    exec .configCommitBoundary s = .next
      ((((s.dropLines (lineLeaves s.active s.staged)).adopt x).showVerdict x).closeSession.settle s.active
      (!s.fb F.CFG_STATUS_committed)) := by
  have hepoch : ¬ s.epoch < e := by omega
  rw [exec]
  unfold execConfigCommitBoundary
  simp only [hs, hx, hb, hepoch, Bool.not_true, Bool.false_or, decide_false, Bool.false_eq_true, if_false]
  generalize s.dropLines (lineLeaves s.active s.staged) = u
  unfold State.showVerdict State.settle State.adopt State.showRefs
  cases x.verdict <;> rfl

theorem configCommitBoundary_commits {s : State} {x : Session} {e : Nat} (hs : s.session = some x) (hx : x.commitAt = some e)
    (hb : s.atBoundary = true) (he : e ≤ s.epoch) :
    ∃ t, exec .configCommitBoundary s = .next t ∧ t.active = s.staged ∧ t.staged = s.staged ∧ t.session = none ∧ t.cfgBad = [] ∧
      t.fb F.CFG_STATUS_committed = true ∧ (s.epoch < 2 ^ 32 → t.fv F.CFG_COMMIT_EPOCH_epoch = s.epoch) ∧
      (∀ d w, d < 37 → x.refs[d]? = some w → t.fv (F.CFG_REF_ref d) = w.toNat) := by
  refine ⟨_, configCommitBoundary_eq hs hx hb he, ?_⟩
  have hepoch : (s.dropLines (lineLeaves s.active s.staged)).epoch = s.epoch :=
    congrArg Prod.fst (State.dropLines_instant s (lineLeaves s.active s.staged))
  have hstaged : (s.dropLines (lineLeaves s.active s.staged)).staged = s.staged :=
    (State.copies_of_inForce (State.dropLines_inForce s (lineLeaves s.active s.staged))).2.1
  generalize s.dropLines (lineLeaves s.active s.staged) = u at hepoch hstaged ⊢
  have hadopt : (u.adopt x).active = u.staged ∧ (u.adopt x).staged = u.staged ∧ (u.adopt x).cfgBad = [] := by
    rw [State.adopt_eq]
    exact ⟨rfl, rfl, rfl⟩
  have hv := State.showVerdict_inForce (u.adopt x) x
  generalize (u.adopt x).showVerdict x = v at hv ⊢
  have hsettle := State.settle_inForce v.closeSession s.active (!s.fb F.CFG_STATUS_committed)
  generalize v.closeSession.settle s.active (!s.fb F.CFG_STATUS_committed) = t at hsettle ⊢
  have hfv (f : Fld) (hc : f.cfg = false) (ha : f.addr < 0x1000) (h0 : f.addr = 0 → f.lo + f.width ≤ 8 ∨ 16 ≤ f.lo) :
      t.fv f = (u.adopt x).fv f := by
    rw [State.fv_of_inForce hsettle hc ha, State.closeSession_fv _ h0, State.fv_of_inForce hv hc ha]
  obtain ⟨hact, hstg, hses, hbad⟩ := State.copies_of_inForce hsettle
  obtain ⟨hact', hstg', -, hbad'⟩ := State.copies_of_inForce hv
  obtain ⟨hactive, hcopy, hnone⟩ := hadopt
  refine ⟨?_, ?_, hses, ?_, ?_, fun h => ?_, fun d w hd hw => ?_⟩
  · exact hact.trans (hact'.trans (hactive.trans hstaged))
  · exact hstg.trans (hstg'.trans (hcopy.trans hstaged))
  · exact hbad.trans (hbad'.trans hnone)
  · rw [State.fb, hfv _ rfl (by decide) (by decide), State.adopt_committed]
    rfl
  · rw [hfv _ rfl (by decide) (by decide), State.adopt_epoch _ _ (by omega), hepoch]
  · rw [hfv _ rfl (by simp only [F.CFG_REF_ref]; omega) (by simp [F.CFG_REF_ref]), State.adopt_refs _ hw]
/-! ### The passes of the continuous check -/

theorem LiveOnly.fv {as : List Nat} {s t : State} (h : LiveOnly as s t) {f : Fld} (hf : f.addr ∉ as) : t.fv f = s.fv f := by
  have hactive : t.active = s.active := by rw [h.1]
  simp only [State.fv, RegMap.fv, hactive, h.2 _ hf]

/-- No report writes a register of the block CFG. -/
theorem cfgReg_not_report {a : Nat} (h : a < 0x1000) : a ∉ reportRegs := by
  simp only [reportRegs, R.FLT_STATUS, R.FLT_CNT_RAISE, R.FLT_CNT_EVENT, R.FLT_CNT_QUIETRESTART, R.LNK_EVT_LOST, List.mem_cons,
    List.not_mem_nil,
    or_false]
  omega

/-- R114: the pass of domain `d` shows the CRC it has computed. -/
def State.showCrc (s : State) (d : Nat) : State := s.setF (F.CFG_CUR_crc d) (domainCrc s.active d).toNat

/-- R114: a mismatch of domain `d` shows. -/
def State.showMismatch (s : State) (d : Nat) : State :=
  if d < 32 then s.putBit F.CFG_MISMATCH_T_tile d true else s.putBit F.CFG_MISMATCH_Q_quad (d - 32) true

theorem State.showCrc_only (s : State) (d : Nat) : LiveOnly [R.CFG_CUR d] s (s.showCrc d) := LiveOnly.setF s (F.CFG_CUR_crc d) _ rfl

theorem State.showCrc_shows (s : State) (d : Nat) : (s.showCrc d).fv (F.CFG_CUR_crc d) = (domainCrc s.active d).toNat := by
  rw [State.showCrc, State.fv_setF_self _ _ _ (by simp only [F.CFG_CUR_crc]; omega)]
  exact Nat.mod_eq_of_lt (domainCrc s.active d).isLt

theorem State.showMismatch_only (s : State) (d : Nat) : LiveOnly [R.CFG_MISMATCH_T, R.CFG_MISMATCH_Q] s (s.showMismatch d) := by
  unfold State.showMismatch
  split
  · exact (LiveOnly.setF s F.CFG_MISMATCH_T_tile _ rfl).mono (by decide)
  · exact (LiveOnly.setF s F.CFG_MISMATCH_Q_quad _ rfl).mono (by decide)

theorem cfgCrcPass_eq (d : Fin 37) (overlap : Bool) (s : State) : exec (.cfgCrcPass d none overlap) s =
    if overlap || !(s.showCrc d.val).fb F.CFG_STATUS_committed then .next (s.showCrc d.val)
    else if (domainCrc s.active d.val).toNat = (s.showCrc d.val).fv (F.CFG_REF_ref d.val) then
      .next { s.showCrc d.val with cfgBad := (s.showCrc d.val).cfgBad.filter (· ≠ d.val) }
    else .next (State.raise { (s.showCrc d.val).showMismatch d.val with
      cfgBad := if ((s.showCrc d.val).showMismatch d.val).cfgBad.contains d.val then ((s.showCrc d.val).showMismatch d.val).cfgBad
        else ((s.showCrc d.val).showMismatch d.val).cfgBad ++ [d.val] } (Src.mismatch d.val) d.val) := rfl

theorem mem_insertNew {α : Type} [BEq α] [LawfulBEq α] (l : List α) (d e : α) : (e ∈ if l.contains d then l else l ++ [d]) ↔
    e ∈ l ∨ e = d := by
  by_cases h : d ∈ l
  · simp only [List.contains_iff_mem, h, if_true]
    exact ⟨.inl, fun he => he.elim id (· ▸ h)⟩
  · simp [h]

theorem cfgCrcPass_checks {d : Fin 37} {s : State} (overlap : Bool) (hsev : s.severityOf (Src.mismatch d.val) ≠ 5) :
    ∃ t, exec (.cfgCrcPass d none overlap) s = .next t ∧ t.fv (F.CFG_CUR_crc d.val) = (domainCrc s.active d.val).toNat ∧
      t = { s with live := t.live, cfgBad := t.cfgBad, evq := t.evq, evLost := t.evLost, flt := t.flt } ∧
      LiveBut (R.CFG_CUR d.val :: R.CFG_MISMATCH_T :: R.CFG_MISMATCH_Q :: reportRegs) s t ∧
      (∀ e, e ≠ d.val → (e ∈ t.cfgBad ↔ e ∈ s.cfgBad)) ∧
      (overlap = true → t.cfgBad = s.cfgBad) ∧
      (overlap = false → s.fb F.CFG_STATUS_committed = true →
        (d.val ∈ t.cfgBad ↔ (domainCrc s.active d.val).toNat ≠ s.fv (F.CFG_REF_ref d.val))) := by
  have hshow := State.showCrc_only s d.val
  have hcrc := State.showCrc_shows s d.val
  have hset : (s.showCrc d.val).fb F.CFG_STATUS_committed = s.fb F.CFG_STATUS_committed :=
    congrArg (· != 0) (hshow.fv (by simp only [F.CFG_STATUS_committed, R.CFG_CUR, List.mem_singleton]; omega))
  have href : (s.showCrc d.val).fv (F.CFG_REF_ref d.val) = s.fv (F.CFG_REF_ref d.val) :=
    hshow.fv (by simp only [F.CFG_REF_ref, R.CFG_CUR, List.mem_singleton]; omega)
  rw [cfgCrcPass_eq, hset, href]
  generalize (domainCrc s.active d.val).toNat = crc at hcrc ⊢
  generalize s.showCrc d.val = u at hshow hcrc ⊢
  obtain ⟨hu, hlive⟩ := hshow
  have hbad : u.cfgBad = s.cfgBad := by rw [hu]
  split
  next hskip =>
    refine ⟨_, rfl, hcrc, by rw [hu], fun a ha => hlive a ?_, ?_, ?_, ?_⟩
    · simp only [List.mem_cons, not_or] at ha ⊢
      exact ⟨ha.1, List.not_mem_nil⟩
    · rw [hbad]
      simp
    · exact fun _ => hbad
    · intro h0 h1
      simp [h0, h1] at hskip
  next hpass =>
    have hdone : overlap ≠ true := by
      intro h
      simp [h] at hpass
    split
    next heq =>
      refine ⟨_, rfl, hcrc, ?_, fun a ha => hlive a ?_, ?_, ?_, ?_⟩
      · rw [hu]
      · simp only [List.mem_cons, not_or] at ha ⊢
        exact ⟨ha.1, List.not_mem_nil⟩
      · intro e he
        simp [hbad, he]
      · exact fun h => absurd h hdone
      · simp [heq]
    next hne =>
      obtain ⟨hv, hmark⟩ := State.showMismatch_only u d.val
      generalize u.showMismatch d.val = v at hv hmark ⊢
      have hvbad : v.cfgBad = s.cfgBad := by rw [hv, hbad]
      have hactive : v.active = s.active := by rw [hv, hu]
      have hrep := State.raise_reported
        { v with cfgBad := if v.cfgBad.contains d.val then v.cfgBad else v.cfgBad ++ [d.val] } (Src.mismatch d.val) d.val
        (fun h => hsev ((State.severityOf_congr hactive _).symm.trans h))
      have hmem := mem_insertNew v.cfgBad d.val
      have hfv : v.fv (F.CFG_CUR_crc d.val) = crc := by
        rw [← hcrc]
        exact LiveOnly.fv ⟨hv, hmark⟩ (by
          simp only [F.CFG_CUR_crc, R.CFG_MISMATCH_T, R.CFG_MISMATCH_Q, List.mem_cons, List.not_mem_nil, or_false]
          omega)
      generalize (if v.cfgBad.contains d.val then v.cfgBad else v.cfgBad ++ [d.val]) = bad at hrep hmem ⊢
      have hkept := congrArg State.cfgBad hrep.1
      refine ⟨_, rfl, ?_, ?_, ?_, fun e he => ?_, fun h => absurd h hdone, fun _ _ => ?_⟩
      · rw [hrep.fv _ (cfgReg_not_report (by simp only [F.CFG_CUR_crc]; omega))]
        exact hfv
      · rw [hrep.1, hv, hu]
      · intro a ha
        simp only [List.mem_cons, not_or] at ha
        obtain ⟨h1, h2, h3, h4⟩ := ha
        exact (hrep.2 a h4).trans ((hmark a (by simp [h2, h3])).trans (hlive a (by simp [h1])))
      · rw [hkept, hmem, hvbad]
        simp [he]
      · rw [hkept, hmem]
        simp [hne]

theorem cfgCrcPass_flips (d : Fin 37) (a : BitVec 24) (m : Word) (s : State) : exec (.cfgCrcPass d (some (a, m)) true) s =
    .next (State.showCrc (if cfgRegs.contains (offsetOf a.toNat) && domainOf (offsetOf a.toNat) == d.val then { s with
      active := s.active.put (offsetOf a.toNat)
        (s.active.val (offsetOf a.toNat) ^^^ (m &&& cfgMaskAt (offsetOf a.toNat))) } else s) d.val) := rfl

theorem cfgCrcPass_upset {d : Fin 37} {a : BitVec 24} {m : Word} {s : State} (ha : cfgRegs.contains (offsetOf a.toNat) = true)
    (hd : domainOf (offsetOf a.toNat) = d.val) :
    ∃ t, exec (.cfgCrcPass d (some (a, m)) true) s = .next t ∧
      t.active.val (offsetOf a.toNat) = s.active.val (offsetOf a.toNat) ^^^ (m &&& cfgMaskAt (offsetOf a.toNat)) ∧
      (∀ b, b ≠ offsetOf a.toNat → t.active.val b = s.active.val b) ∧ t = { s with active := t.active, live := t.live } ∧
      LiveBut [R.CFG_CUR d.val] s t := by
  have hexec : exec (.cfgCrcPass d (some (a, m)) true) s = .next (State.showCrc { s with
      active := s.active.put (offsetOf a.toNat) (s.active.val (offsetOf a.toNat) ^^^ (m &&& cfgMaskAt (offsetOf a.toNat))) } d.val) := by
    rw [cfgCrcPass_flips, ha, hd]
    simp only [beq_self_eq_true, Bool.and_self, if_true]
  obtain ⟨ht, hlive⟩ := State.showCrc_only { s with
      active := s.active.put (offsetOf a.toNat) (s.active.val (offsetOf a.toNat) ^^^ (m &&& cfgMaskAt (offsetOf a.toNat))) } d.val
  refine ⟨_, hexec, ?_, fun b hb => ?_, ?_, hlive⟩
  · rw [congrArg State.active ht, RegMap.val_put_self]
  · rw [congrArg State.active ht, RegMap.val_put_ne _ _ hb]
  · rw [ht]
/-! ### Voted fields -/

theorem State.linkDown_votes (s : State) (n : Nat) : (s.linkDown n).votes = s.votes := by rw [(s.linkDown_reports n).1]

theorem State.keepFatal_votes (s : State) (src : Nat) : (s.keepFatal src).votes = s.votes := by
  unfold State.keepFatal
  split
  · rfl
  · simp only [State.setF_live _ F.FLT_FATAL_SRC_source _ rfl, State.setF_live _ F.FLT_FATAL_SRC_valid _ rfl]

theorem State.stopDevice_votes (s : State) : s.stopDevice.votes = s.votes := by
  simp only [State.stopDevice, State.setF_live _ F.FLT_STATUS_quiet_running 0 rfl, State.setWindows]
  refine List.foldlRecOn (motive := fun t : State => t.votes = s.votes) _ _ rfl fun t ht n _ => ?_
  split
  · exact ht
  · exact (t.linkDown_votes n).trans ht

theorem State.stopDevice_halted (s : State) : s.stopDevice.halted = true := by
  simp only [State.stopDevice, State.setF_live _ F.FLT_STATUS_quiet_running 0 rfl, State.setWindows]

/-- R428: raising a fatal source stops the device. -/
theorem State.raise_fatal {s : State} {src : Nat} (info : Nat) (h : s.severityOf src = 5) :
    ∃ u : State, s.raise src info = (u.keepFatal src).stopDevice ∧ u.votes = s.votes := by
  unfold State.raise
  simp only [h]
  exact ⟨_, rfl, rfl⟩

theorem State.raise_halts {s : State} {src : Nat} (info : Nat) (h : s.severityOf src = 5) : (s.raise src info).halted = true := by
  obtain ⟨u, hu, -⟩ := State.raise_fatal info h
  rw [hu, State.stopDevice_halted]

theorem State.raise_votes (s : State) (src info : Nat) : (s.raise src info).votes = s.votes := by
  by_cases h : s.severityOf src = 5
  · obtain ⟨u, hu, hvotes⟩ := State.raise_fatal info h
    rw [hu, State.stopDevice_votes, State.keepFatal_votes, hvotes]
  · rw [(State.raise_reported s src info h).1]

/-- R116: a lost vote is held. -/
def State.loseVote (s : State) (v : Vote) : State := { s with votes := if s.votes.contains v then s.votes else s.votes ++ [v] }

theorem State.mem_loseVote (s : State) (v w : Vote) : w ∈ (s.loseVote v).votes ↔ w ∈ s.votes ∨ w = v := mem_insertNew s.votes v w

theorem Survives.sameMemory {s t : State} (h : Survives s t) : SameMemory s t :=
  ⟨fun _ => by rw [h.dram], fun _ => by rw [h.larder]⟩

theorem voteDisagreement_loses (field : Fin 90) (q : Quad) (s : State) :
    ∃ t, exec (.voteDisagreement field q true) s = .next t ∧ ⟨field.val, q.val⟩ ∈ t.votes ∧ SameConfig s t ∧ SameMemory s t ∧
      (s.severityOf Src.voteLost = 5 → t.halted = true) ∧
      (s.severityOf Src.voteLost ≠ 5 → Reported { s with votes := t.votes } t ∧ ∀ v, v ≠ ⟨field.val, q.val⟩ →
        (v ∈ t.votes ↔ v ∈ s.votes)) := by
  have hmem := State.mem_loseVote s ⟨field.val, q.val⟩
  have hvotes := State.raise_votes (s.loseVote ⟨field.val, q.val⟩) Src.voteLost field.val
  have hkept := State.raise_survives (s.loseVote ⟨field.val, q.val⟩) Src.voteLost field.val
  have hexec : exec (.voteDisagreement field q true) s = .next ((s.loseVote ⟨field.val, q.val⟩).raise Src.voteLost field.val) := rfl
  refine ⟨_, hexec, hvotes ▸ (hmem _).mpr (.inr rfl), ⟨hkept.staged, hkept.active⟩, hkept.sameMemory,
    fun h => State.raise_halts _ h, fun h => ⟨?_, fun v hv => ?_⟩⟩
  · rw [hvotes]
    exact State.raise_reported (s.loseVote _) Src.voteLost field.val h
  · rw [hvotes, hmem]
    exact or_iff_left hv

theorem voteDisagreement_fixes (field : Fin 90) (q : Quad) (s : State) :
    ∃ t, exec (.voteDisagreement field q false) s = .next t ∧ t.fb F.CFG_STATUS_vote_fixed = true ∧ t.votes = s.votes ∧ SameConfig s t ∧
      SameMemory s t ∧ (s.severityOf Src.voteFixed ≠ 5 → Reported (s.setF F.CFG_STATUS_vote_fixed 1) t) := by
  have hkept := State.raise_survives (s.setF F.CFG_STATUS_vote_fixed 1) Src.voteFixed field.val
  have hfixed : ((s.setF F.CFG_STATUS_vote_fixed 1).raise Src.voteFixed field.val).fv F.CFG_STATUS_vote_fixed = 1 :=
    (State.fv_of_inForce (State.raise_inForce _ _ _) rfl (by decide)).trans (State.fv_setF_self s _ 1 (by decide))
  refine ⟨_, rfl, ?_, State.raise_votes _ _ _, ⟨hkept.staged, hkept.active⟩, hkept.sameMemory,
    fun h => State.raise_reported _ _ _ h⟩
  rw [State.fb, hfixed]
  rfl

/-! ### Commands about the configuration -/

/-- R510: the boot flash once CFG.SAVE has programmed the image `seq`. -/
def State.saved (s : State) (seq : Nat) : State :=
  { s with sec := { s.sec with flash := flashPut (flashErase s.sec.flash cfgArea 0x100000) cfgArea (s.cfgImage seq) } }

theorem State.lb_withSec (s : State) (x : SecSt) (k : Nat) : State.lb { s with sec := x } k = s.lb k := rfl

theorem State.saved_lb (s : State) (seq k : Nat) : (s.saved seq).lb k = s.lb k := State.lb_withSec s _ k

theorem cfgSave_saves {n : Lb} {s : State} (h : LbRuns s n.val 0x0E05) :
    ∃ t seq, exec (.cfgSave n) s = .next t ∧ Completes s t n.val cplOK true [] ∧ OnlyLetterbox (s.saved seq) t n.val ∧
      seq = if flashNum s.sec.flash cfgArea 4 = 0x96164346 then flashNum s.sec.flash (cfgArea + 4) 4 + 1 else 1 := by
  let seq := if flashNum s.sec.flash cfgArea 4 = 0x96164346 then flashNum s.sec.flash (cfgArea + 4) 4 + 1 else 1
  obtain ⟨hended, honly⟩ := State.complete_ends (s := s.saved seq) (status := cplOK) true (result := []) n.isLt (by simp)
    (by rw [State.saved_lb]; exact h.2) (.ok _ n.val)
  refine ⟨(s.saved seq).done n.val [], seq, ?_, hended.completes (State.saved_lb s seq n.val), honly, rfl⟩
  rw [exec, execCfgSave, State.command_runs h (Nat.zero_le _)]
  rfl

theorem checkBytes_length (oversub : Bool) (fs : List Failure) : (checkBytes oversub fs).length = 8 := by simp [checkBytes]

theorem State.answerCheck_ends {s : State} {n : Nat} (oversub : Bool) (fs : List Failure) (hn : n < 6)
    (hruns : LbRuns s n 0x0302) (hm : Mild s 656 692) :
    ∃ st c, Completes s (s.answerCheck n oversub fs) n st c (checkBytes oversub fs) ∧ (st = cplOK ∨ st = cplREJECTED) ∧
      OnlyLetterbox s (s.answerCheck n oversub fs) n := by
  have hlen : (checkBytes oversub fs).length ≤ 248 := by simp [checkBytes_length]
  unfold State.answerCheck
  split
  · obtain ⟨hends, honly⟩ := hruns.completes false hn hlen (hm.end hn cplREJECTED)
    exact ⟨_, _, hends, .inr rfl, honly⟩
  · obtain ⟨hends, honly⟩ := hruns.completes true hn hlen (.ok s n)
    exact ⟨_, _, hends, .inl rfl, honly⟩

theorem planCheck_answers {n : Lb} {s : State} (h : LbRuns s n.val 0x0302) (hargs : 2 ≤ (s.lb n.val).args.length)
    (hsrc : (s.lb n.val).arg 0 1 = 1) (hmode : (s.lb n.val).arg 1 1 ≤ 5 ∨ (s.lb n.val).arg 1 1 = 0xFF) (hm : Mild s 656 692) :
    ∃ t st c, exec (.planCheck n) s = .next t ∧ Completes s t n.val st c (checkBytes (planOf s.active).oversub
        ((planOf s.active).failures s.active (if (s.lb n.val).arg 1 1 = 0xFF then s.mode else (s.lb n.val).arg 1 1))) ∧
      (st = cplOK ∨ st = cplREJECTED) ∧ OnlyLetterbox s t n.val := by
  have hgood : ¬(1 < 1 ∨ (5 < (s.lb n.val).arg 1 1 ∧ (s.lb n.val).arg 1 1 ≠ 0xFF)) := by omega
  obtain ⟨st, c, hends, hst, honly⟩ := State.answerCheck_ends (planOf s.active).oversub
    ((planOf s.active).failures s.active (if (s.lb n.val).arg 1 1 = 0xFF then s.mode else (s.lb n.val).arg 1 1)) n.isLt h hm
  refine ⟨_, st, c, ?_, hends, hst, honly⟩
  rw [exec, execPlanCheck, State.command_runs h hargs]
  simp only [hsrc, if_neg hgood, if_true]

theorem logSnapshot_begins {n : Lb} {s : State} (h : LbRuns s n.val 0x0703) :
    ∃ t, exec (.logSnapshot n) s = .next t ∧ Begun s t n.val false s.absFlit ∧ t = { s with lbs := t.lbs } := by
  refine ⟨s.begin n.val false s.absFlit, ?_, State.begin_begun false _ rfl, rfl⟩
  rw [exec, execLogSnapshot, State.command_runs h (Nat.zero_le _)]

/-! ### The image of the boot flash -/

/-- The register of one record of the image, staged. -/
def stageWord (r : Nat × Nat) (m : RegMap) : RegMap :=
  m.put r.1 ((m.val r.1 &&& ~~~(cfgMaskAt r.1)) ||| (BitVec.ofNat 32 r.2 &&& cfgMaskAt r.1))

/-- One record of the image is staged. -/
def State.stageRecord (s : State) (r : Nat × Nat) : State :=
  if cfgRegs.contains r.1 then { s with staged := stageWord r s.staged } else s

/-- R510: the image is staged in a session of the device. -/
def State.stageFlash (s : State) (rs : List (Nat × Nat)) : State :=
  rs.foldl State.stageRecord (State.openSession { s with pwr := { s.pwr with flashDone := true } } 127)

theorem State.stageRecord_stager (r : Nat × Nat) : Stager fun s => s.stageRecord r := by
  unfold State.stageRecord
  split
  · exact .map (stageWord r)
  · exact ⟨id, fun _ => rfl⟩

theorem State.stageFlash_eq (s : State) (rs : List (Nat × Nat)) :
    s.stageFlash rs = { s with
      pwr := { s.pwr with flashDone := true }, staged := (s.stageFlash rs).staged, session := some { owner := 127 }
      live := (s.stageFlash rs).live } ∧ LiveBut [R.CFG_STATUS] s (s.stageFlash rs) := by
  obtain ⟨g, hg⟩ := Stager.foldl rs State.stageRecord_stager
  have hopen := State.openSession_eq { s with pwr := { s.pwr with flashDone := true } } 127
  have hstage : s.stageFlash rs = _ := hg (State.openSession { s with pwr := { s.pwr with flashDone := true } } 127)
  generalize State.openSession { s with pwr := { s.pwr with flashDone := true } } 127 = u at hopen hstage
  obtain ⟨hu, hlive⟩ := hopen
  rw [hstage]
  refine ⟨?_, hlive⟩
  have hlb4 : (s.pwr.lb4Session || (127 : Nat) == 64) = s.pwr.lb4Session := Bool.or_false _
  rw [hu]
  simp only [hlb4]

/-- R127: the first link is in the vestibule state. -/
def State.flashReached (s : State) : Bool := (s.pwr.phase == 5 || s.pwr.phase == 6) &&
    (List.range 16).any fun n => s.linkState n == lsVestibule

theorem State.flashReached_of {s : State} (hp : s.pwr.phase = 5 ∨ s.pwr.phase = 6) (hl : ∃ l, l < 16 ∧ s.linkState l = lsVestibule) :
    s.flashReached = true := by
  obtain ⟨l, hlt, hl⟩ := hl
  simp only [State.flashReached, Bool.and_eq_true, Bool.or_eq_true, beq_iff_eq, List.any_eq_true, List.mem_range]
  exact ⟨hp, l, hlt, hl⟩

theorem bootFlashConfigApply_waives {s : State} (hd : s.pwr.flashDone = false) (hp : s.pwr.phase = 5 ∨ s.pwr.phase = 6)
    (hl : ∃ l, l < 16 ∧ s.linkState l = lsVestibule)
    (hno : s.pwr.lb4Session = true ∨ (s.session = none ∧ flashConfig s.sec.flash = none)) :
    exec .bootFlashConfigApply s = .next { s with pwr := { s.pwr with flashDone := true } } := by
  have hreached := State.flashReached_of hp hl
  unfold State.flashReached at hreached
  rw [exec]
  unfold execBootFlashConfigApply
  rcases hno with hlb4 | ⟨hs, himage⟩
  · simp only [hd, hreached, hlb4, Bool.not_true, Bool.and_false, Bool.or_self, Bool.false_eq_true, if_false, if_true]
  · simp only [hd, hreached, hs, himage, Option.isSome_none, Bool.not_true, Bool.false_and, Bool.or_self, Bool.false_eq_true, if_false,
    ite_self]

theorem bootFlashConfigApply_eq {s : State} {rs : List (Nat × Nat)} {refs : List Word} (hd : s.pwr.flashDone = false)
    (hp : s.pwr.phase = 5 ∨ s.pwr.phase = 6) (hl : ∃ l, l < 16 ∧ s.linkState l = lsVestibule)
      (himage : flashConfig s.sec.flash = some (rs, refs))
    (hs : s.session = none) (hlb4 : s.pwr.lb4Session = false) :
    exec .bootFlashConfigApply s = .next
      (if ((s.stageFlash rs).tryCommit false refs none).1 then ((s.stageFlash rs).tryCommit false refs none).2
      else ((s.stageFlash rs).tryCommit false refs none).2.abortSession.raise (Src.letterbox 1 4) 4) := by
  have hreached := State.flashReached_of hp hl
  unfold State.flashReached at hreached
  rw [exec]
  unfold execBootFlashConfigApply
  dsimp only
  rw [if_neg (by simp [hd, hreached, hs]), if_neg (by simp [hlb4]), himage]
  rfl

theorem bootFlashConfigApply_commits {s : State} {rs : List (Nat × Nat)} {refs : List Word} (hd : s.pwr.flashDone = false)
    (hp : s.pwr.phase = 5 ∨ s.pwr.phase = 6) (hl : ∃ l, l < 16 ∧ s.linkState l = lsVestibule)
      (himage : flashConfig s.sec.flash = some (rs, refs))
    (hs : s.session = none) (hlb4 : s.pwr.lb4Session = false) (hsev : s.severityOf (Src.letterbox 1 4) ≠ 5) :
    ∃ t, exec .bootFlashConfigApply s = .next t ∧ t.pwr = { s.pwr with flashDone := true } ∧ t.active = s.active ∧
      ((∃ y, t.session = some y ∧ y.owner = 127 ∧ y.commitAt = some s.twoEpochsOn ∧ y.refs = refs) ∨
        (t.session = none ∧ t.staged = s.active)) ∧
      t = { s with pwr := t.pwr, staged := t.staged, session := t.session, live := t.live, evq := t.evq, evLost := t.evLost, flt :=
        t.flt } ∧
      LiveBut (R.CFG_STATUS :: reportRegs) s t := by
  rw [bootFlashConfigApply_eq hd hp hl himage hs hlb4]
  obtain ⟨hu, hstaged⟩ := s.stageFlash_eq rs
  generalize s.stageFlash rs = u at hu hstaged ⊢
  have htwo : u.twoEpochsOn = s.twoEpochsOn := by
    rw [hu]
    rfl
  cases htry : u.tryCommit false refs none with
  | mk ok v =>
  cases ok with
  | true =>
    obtain ⟨⟨y, hy, hat, hrefs, howner⟩, hv, hlive, -, -⟩ := tryCommit_freezes (by rw [hu]) htry
    refine ⟨v, rfl, ?_, ?_, .inl ⟨y, hy, howner, ?_, hrefs⟩, ?_, ?_⟩
    · rw [hv, hu]
    · rw [hv, hu]
    · rw [hat, htwo]
    · rw [hv, hu]
    · exact hstaged.trans hlive (by simp) (by simp)
  | false =>
    obtain ⟨hv, hlive⟩ := State.tryCommit_fails htry
    obtain ⟨hw, hclosed⟩ := v.abortSession_eq
    have hactive : v.abortSession.active = s.active := by rw [hw, hv, hu]
    obtain ⟨ht, hreport⟩ := State.raise_reported v.abortSession (Src.letterbox 1 4) 4 (by rwa [State.severityOf_congr hactive])
    generalize v.abortSession = w at hw hclosed ht hreport ⊢
    refine ⟨w.raise (Src.letterbox 1 4) 4, rfl, ?_, ?_, .inr ⟨?_, ?_⟩, ?_, ?_⟩
    · rw [ht, hw, hv, hu]
    · rw [ht, hw, hv, hu]
    · rw [ht, hw]
    · rw [ht, hw, hv, hu]
    · rw [ht, hw, hv, hu]
    · have hcfg : LiveBut [R.CFG_STATUS] s w :=
        hstaged.trans (hlive.trans hclosed (List.Subset.refl _) (List.Subset.refl _)) (List.Subset.refl _) (List.Subset.refl _)
      exact hcfg.trans hreport (by simp) (List.subset_cons_self _ _)

/-! ### Snapshots -/

/-- The registers of the counters lie below the window of the holding registers. -/
theorem snapRows_below : ∀ b ∈ regBlocks, ∀ r ∈ b.rows, r.act.snapped = true →
    ∀ o ∈ dimOffsets r.dims, b.base + b.stride * (b.n - 1) + r.off + o < 0x300000 := by decide +kernel

theorem snapRegs_below {x : Nat × Word} (h : x ∈ snapRegs) : x.1 < 0x300000 := by
  unfold snapRegs at h
  rw [(List.mergeSort_perm _ _).mem_iff, List.mem_flatMap] at h
  obtain ⟨b, hb, h⟩ := h
  obtain ⟨r, hr, h⟩ := List.mem_flatMap.mp h
  split at h
  next hsnap =>
    obtain ⟨y, hy, rfl⟩ := List.mem_map.mp h
    obtain ⟨k, hk, hy⟩ := List.mem_flatMap.mp hy
    obtain ⟨r', hr', hy⟩ := List.mem_flatMap.mp hy
    obtain ⟨o, ho, rfl⟩ := List.mem_map.mp hy
    obtain rfl : r' = r := by simpa using List.mem_of_mem_filter hr'
    have hbelow := snapRows_below b hb r' hr hsnap o ho
    have hstride : b.stride * k ≤ b.stride * (b.n - 1) := Nat.mul_le_mul_left _ (Nat.le_sub_one_of_lt (List.mem_range.mp hk))
    dsimp only
    omega
  next => cases h

/-- The counters `l` are copied into the holding registers, from the one of index `k` on. -/
def State.copyFrom (s : State) (l : List (Nat × Word)) (k : Nat) : State :=
  (l.zipIdx k).foldl (fun (s : State) a =>
    { s with live := s.live.put (0x300000 + 4 * a.2) (s.live.val a.1.1 &&& a.1.2) }) s

theorem State.copyFrom_cons (s : State) (x : Nat × Word) (l : List (Nat × Word)) (k : Nat) :
    s.copyFrom (x :: l) k = State.copyFrom { s with live := s.live.put (0x300000 + 4 * k) (s.live.val x.1 &&& x.2) } l (k + 1) := rfl

theorem State.copyFrom_live (s : State) (l : List (Nat × Word)) (k : Nat) : s.copyFrom l k = { s with live := (s.copyFrom l k).live } := by
  induction l generalizing s k with
  | nil => rfl
  | cons x l ih => rw [State.copyFrom_cons, ih]

/-- The other registers stay. -/
theorem State.copyFrom_val (s : State) {l : List (Nat × Word)} {k a : Nat} (h : ∀ i, i < l.length → a ≠ 0x300000 + 4 * (k + i)) :
    (s.copyFrom l k).live.val a = s.live.val a := by
  induction l generalizing s k with
  | nil => rfl
  | cons x l ih =>
    have hrest : ∀ i, i < l.length → a ≠ 0x300000 + 4 * (k + 1 + i) := fun i hi => by
      have := h (i + 1) (Nat.succ_lt_succ hi)
      omega
    rw [State.copyFrom_cons, ih _ hrest]
    exact RegMap.val_put_ne _ _ (h 0 (Nat.succ_pos _))

theorem State.copyFrom_get (s : State) {l : List (Nat × Word)} (hl : ∀ x ∈ l, x.1 < 0x300000) (k : Nat) {i a : Nat} {m : Word}
    (h : l[i]? = some (a, m)) : (s.copyFrom l k).live.val (0x300000 + 4 * (k + i)) = s.live.val a &&& m := by
  induction l generalizing s k i with
  | nil => simp at h
  | cons x l ih =>
    rw [State.copyFrom_cons]
    cases i with
    | zero =>
      obtain rfl : x = (a, m) := by simpa using h
      rw [State.copyFrom_val _ (by omega)]
      exact RegMap.val_put_self _ _ _
    | succ i =>
      have hi : l[i]? = some (a, m) := by simpa using h
      have ha : a < 0x300000 := hl _ (List.mem_cons_of_mem _ (List.mem_of_getElem? hi))
      have hget := ih { s with live := s.live.put (0x300000 + 4 * k) (s.live.val x.1 &&& x.2) }
        (fun y hy => hl y (List.mem_cons_of_mem _ hy)) (k + 1) hi
      rw [show k + 1 + i = k + (i + 1) by omega] at hget
      rw [hget]
      exact congrArg (· &&& m) (RegMap.val_put_ne _ _ (by omega))

theorem State.copyCounters_eq (s : State) : s.copyCounters = s.copyFrom snapRegs 0 := rfl

/-- The holding registers of the snapshot counters. -/
def holdRegs : List Nat := (List.range snapRegs.length).map (0x300000 + 4 * ·)

theorem State.copyCounters_only (s : State) : LiveOnly holdRegs s s.copyCounters := by
  refine ⟨State.copyFrom_live s _ 0, fun a ha => State.copyFrom_val s fun i hi => ?_⟩
  simp only [holdRegs, List.mem_map, List.mem_range, not_exists, not_and] at ha
  have := ha i hi
  omega

theorem not_mem_holdRegs {a : Nat} (h : a < 0x300000) : a ∉ holdRegs := by
  simp only [holdRegs, List.mem_map, not_exists, not_and]
  omega

/-- The copy, and what tells of it. -/
def State.snapTaken (s : State) : State :=
  ((s.copyCounters.setF F.CFG_SNAP_seq ((s.fv F.CFG_SNAP_seq + 1) % 2 ^ 16)).setF F.CFG_SNAP_done 1).setF F.CFG_SNAP_EPOCH_epoch s.epoch

theorem State.snapTaken_only (s : State) : LiveOnly (R.CFG_SNAP :: R.CFG_SNAP_EPOCH :: holdRegs) s s.snapTaken :=
  (((s.copyCounters_only.trans (.setF _ F.CFG_SNAP_seq _ rfl)).trans (.setF _ F.CFG_SNAP_done _ rfl)).trans
    (.setF _ F.CFG_SNAP_EPOCH_epoch _ rfl)).mono
      (by simp [F.CFG_SNAP_seq, F.CFG_SNAP_done, F.CFG_SNAP_EPOCH_epoch, R.CFG_SNAP, R.CFG_SNAP_EPOCH])

theorem State.snapTaken_shows (s : State) : s.snapTaken.fv F.CFG_SNAP_done = 1 ∧ s.snapTaken.fv F.CFG_SNAP_req = s.fv F.CFG_SNAP_req ∧
    s.snapTaken.fv F.CFG_SNAP_seq = (s.fv F.CFG_SNAP_seq + 1) % 2 ^ 16 ∧ s.snapTaken.fv F.CFG_SNAP_EPOCH_epoch = s.epoch % 2 ^ 32 := by
  have hepoch (f : Fld) (h : f.addr = R.CFG_SNAP) : F.CFG_SNAP_EPOCH_epoch.apart f := .inl (by rw [h]; decide)
  have happart : F.CFG_SNAP_done.apart F.CFG_SNAP_seq ∧ F.CFG_SNAP_done.apart F.CFG_SNAP_req ∧ F.CFG_SNAP_seq.apart F.CFG_SNAP_req := by
    unfold Fld.apart
    decide
  obtain ⟨hds, hdr, hsr⟩ := happart
  unfold State.snapTaken
  refine ⟨?_, ?_, ?_, State.fv_setF_self _ _ _ (by decide)⟩
  · rw [State.fv_setF_ne _ _ (hepoch _ rfl), State.fv_setF_self _ _ _ (by decide)]
    rfl
  · rw [State.fv_setF_ne _ _ (hepoch _ rfl), State.fv_setF_ne _ _ hdr, State.fv_setF_ne _ _ hsr, s.copyCounters_only.fv
    (not_mem_holdRegs (by decide))]
  · rw [State.fv_setF_ne _ _ (hepoch _ rfl), State.fv_setF_ne _ _ hds, State.fv_setF_self _ _ _ (by decide)]
    exact Nat.mod_mod _ _

theorem State.snapTaken_holds (s : State) {i a : Nat} {m : Word} (h : snapRegs[i]? = some (a, m)) :
    s.snapTaken.live.val (0x300000 + 4 * i) = s.live.val a &&& m := by
  have hcopy := State.copyFrom_get s (fun _ => snapRegs_below) 0 h
  rw [Nat.zero_add] at hcopy
  rw [← hcopy, State.snapTaken, State.setF_live _ _ _ rfl, State.setF_live _ _ _ rfl, State.setF_live _ _ _ rfl, State.copyCounters_eq]
  dsimp only
  rw [RegMap.val_setF_ne _ _ _ (by simp only [F.CFG_SNAP_EPOCH_epoch]; omega), RegMap.val_setF_ne _ _ _
    (by simp only [F.CFG_SNAP_done]; omega),
    RegMap.val_setF_ne _ _ _ (by simp only [F.CFG_SNAP_seq]; omega)]

/-- R132: the state once the counters are copied, before the commands that wait for it are answered. -/
def State.snapshot (s : State) : State := if s.snapDue then { s.snapTaken.setF F.CFG_SNAP_req 0 with snapAt := none } else s.snapTaken

theorem State.fv_withSnapAt (s : State) (x : Option Nat) (f : Fld) : State.fv { s with snapAt := x } f = s.fv f := rfl

theorem State.snapshot_snapped (s : State) : Snapped s s.snapshot := by
  obtain ⟨hu, hlive⟩ := s.snapTaken_only
  obtain ⟨hdone, hreq, hseq, hepoch⟩ := s.snapTaken_shows
  have hholds := fun i a m => @State.snapTaken_holds s i a m
  cases hdue : s.snapDue with
  | false =>
    have hsnap : s.snapshot = s.snapTaken := if_neg (by simp [hdue])
    rw [hsnap]
    generalize s.snapTaken = u at hu hlive hdone hreq hseq hepoch hholds ⊢
    refine ⟨?_, ?_, ?_, hseq, hepoch, hholds, hlive⟩
    · rw [hdue]
      exact hu
    · rw [State.fb, hdone]
      rfl
    · rw [hdue]
      simp only [State.fb, hreq, Bool.not_false, Bool.and_true]
  | true =>
    have hsnap (w : State) (hw : s.snapTaken.setF F.CFG_SNAP_req 0 = w) : s.snapshot = { w with snapAt := none } := by
      rw [← hw]
      exact if_pos hdue
    have hapart (f : Fld) (h : f.addr = R.CFG_SNAP → 1 ≤ f.lo) : F.CFG_SNAP_req.apart f := by
      by_cases ha : f.addr = R.CFG_SNAP
      · exact .inr (.inr (h ha))
      · exact .inl ha
    have hfv (f : Fld) (h : f.addr = R.CFG_SNAP → 1 ≤ f.lo) : (s.snapTaken.setF F.CFG_SNAP_req 0).fv f = s.snapTaken.fv f :=
      State.fv_setF_ne _ _ (hapart f h)
    have hclear : (s.snapTaken.setF F.CFG_SNAP_req 0).fv F.CFG_SNAP_req = 0 := State.fv_setF_self s.snapTaken F.CFG_SNAP_req 0 (by decide)
    obtain ⟨hw, hkept⟩ := LiveOnly.setF s.snapTaken F.CFG_SNAP_req 0 rfl
    generalize s.snapTaken.setF F.CFG_SNAP_req 0 = w at hsnap hfv hclear hw hkept
    rw [hsnap w rfl]
    refine ⟨?_, ?_, ?_, ?_, ?_, fun i a m h => ?_, fun a ha => ?_⟩
    · rw [hdue]
      exact congrArg (fun v : State => { v with snapAt := none }) (hw.trans (by rw [hu]))
    · rw [State.fb, State.fv_withSnapAt, hfv _ (by decide), hdone]
      rfl
    · rw [State.fb, State.fv_withSnapAt, hclear, hdue, Bool.not_true, Bool.and_false]
      rfl
    · rw [State.fv_withSnapAt, hfv _ (by decide), hseq]
    · rw [State.fv_withSnapAt, hfv _ (by decide), hepoch]
    · exact (hkept _ (by simp only [F.CFG_SNAP_req, List.mem_singleton]; omega)).trans (hholds i a m h)
    · exact (hkept a fun h => ha (List.mem_cons.mpr (.inl (List.mem_singleton.mp h)))).trans (hlive a ha)

theorem snapshotTake_eq {s : State} (hb : s.atBoundary = true) (hdue : s.snapDue = true ∨ (List.range 6).filter s.snapWaits ≠ []) :
    exec .snapshotTake s = .next (((List.range 6).filter s.snapWaits).foldl (fun (u : State) n =>
      u.done n (leBytes 4 ((s.fv F.CFG_SNAP_seq + 1) % 2 ^ 16) ++ leBytes 4 u.epoch)) s.snapshot) := by
  have hgo : (!s.atBoundary || !(s.snapDue || !((List.range 6).filter s.snapWaits).isEmpty)) = false := by
    rcases hdue with h | h <;> simp [hb, h]
  rw [exec]
  unfold execSnapshotTake
  dsimp only
  rw [hgo]
  rfl

theorem snapshotTake_copies {s : State} (hb : s.atBoundary = true) (hdue : s.snapDue = true)
    (hno : ∀ n, n < 6 → s.snapWaits n = false) :
    ∃ t, exec .snapshotTake s = .next t ∧ Snapped s t := by
  have hnone : (List.range 6).filter s.snapWaits = [] :=
    List.filter_eq_nil_iff.mpr fun n hn => by simp [hno n (List.mem_range.mp hn)]
  refine ⟨s.snapshot, ?_, s.snapshot_snapped⟩
  rw [snapshotTake_eq hb (.inl hdue), hnone]
  rfl

theorem snapshotTake_answers {s : State} {n : Lb} (hb : s.atBoundary = true) (hn : s.snapWaits n.val = true)
    (hno : ∀ k, k < 6 → k ≠ n.val → s.snapWaits k = false) (hr : (s.lb n.val).restarted = false) :
    ∃ u t, exec .snapshotTake s = .next t ∧ Snapped s u ∧
      Completes s t n.val cplOK true (leBytes 4 ((s.fv F.CFG_SNAP_seq + 1) % 2 ^ 16) ++ leBytes 4 s.epoch) ∧ OnlyLetterbox u t n.val := by
  have hone : (List.range 6).filter s.snapWaits = [n.val] := by
    have hsame : ∀ k ∈ List.range 6, s.snapWaits k = decide (k = n.val) := fun k hk => by
      by_cases h : k = n.val
      · simp [h, hn]
      · simp [h, hno k (List.mem_range.mp hk)]
    have hfin : ∀ m : Fin 6, (List.range 6).filter (fun k => decide (k = m.val)) = [m.val] := by decide
    rw [List.filter_congr hsame]
    exact hfin n
  have hsnap := s.snapshot_snapped
  have hepoch : s.snapshot.epoch = s.epoch := by rw [hsnap.1]
  have hlb : s.snapshot.lb n.val = s.lb n.val := by
    rw [hsnap.1]
    rfl
  obtain ⟨hended, honly⟩ := State.complete_ends (s := s.snapshot) (status := cplOK) true
    (result := leBytes 4 ((s.fv F.CFG_SNAP_seq + 1) % 2 ^ 16) ++ leBytes 4 s.epoch) n.isLt (by simp) (by rw [hlb]; exact hr) (.ok _ n.val)
  refine ⟨s.snapshot, _, ?_, hsnap, hended.completes hlb, honly⟩
  rw [snapshotTake_eq hb (.inr (by rw [hone]; simp)), hone, List.foldl_cons, List.foldl_nil, hepoch]
  rfl

/-! ### The obligation -/

/-- Settles O32: a frozen session takes effect at its boundary whole, and whatever the device does beside the commit leaves it in force;
the checks, the flash image, CFG.SAVE, PLAN.CHECK and the snapshots move no other part of the configuration. -/
theorem commitsTakeEffectWhole : Obligations.CommitsTakeEffectWhole := by
  unfold Obligations.CommitsTakeEffectWhole
  refine ⟨?_, ?_, ?_, ?_, ?_, ?_, ?_, ?_, ?_, ?_, ?_⟩
  · exact fun _ _ _ hs hx hb he => configCommitBoundary_commits hs hx hb he
  · exact fun _ overlap _ hsev => cfgCrcPass_checks overlap hsev
  · exact fun _ _ _ _ ha hd => cfgCrcPass_upset ha hd
  · exact fun field q s => ⟨voteDisagreement_loses field q s, voteDisagreement_fixes field q s⟩
  · exact fun _ _ h => cfgSave_saves h
  · exact fun _ hd hp hl hno => bootFlashConfigApply_waives hd hp hl hno
  · exact fun _ _ _ hd hp hl himage hs hlb4 hsev => bootFlashConfigApply_commits hd hp hl himage hs hlb4 hsev
  · exact fun _ _ h hargs hsrc hmode hm => planCheck_answers h hargs hsrc hmode hm
  · exact fun _ _ h => logSnapshot_begins h
  · exact fun _ hb hdue hno => snapshotTake_copies hb hdue hno
  · exact fun _ _ hb hn hno hr => snapshotTake_answers hb hn hno hr

end Sys2Proof.Machine

namespace Sys2Proof.Machine

/-! ## Hammered rows (R155-R158, R187) -/

/-! ### A port is penalised -/

theorem Mild.congr {s t : State} {lo hi : Nat} (h : Mild s lo hi) (ha : t.active = s.active) : Mild t lo hi := fun src hlo hhi => by
  rw [State.severityOf_congr ha]
  exact h src hlo hhi

theorem Mild.sched {s : State} (h : Mild s 144 304) {kind : Nat} (hk : kind < 5) (c : Channel) :
    s.severityOf (Src.sched kind c.val) ≠ 5 :=
  h _ (by unfold Src.sched; omega) (by unfold Src.sched; omega)

/-- `t` is `s` but for the live counter `f` and reports. -/
def CountsReported (f : Fld) (s t : State) : Prop :=
  t = { s with live := t.live, evq := t.evq, evLost := t.evLost, flt := t.flt } ∧ LiveBut (f.addr :: reportRegs) s t

theorem State.severityOf_inc (s : State) {f : Fld} (hf : f.cfg = false) (src : Nat) : (s.inc f).severityOf src = s.severityOf src :=
  State.severityOf_congr (by rw [s.inc_live f hf]) src

section
variable {s : State} {f : Fld} {src : Nat} (hf : f.cfg = false) (info : Nat) (hsev : s.severityOf src ≠ 5)
include hf hsev

/-- A live counter rises and a source that does not stop the device is raised. -/
theorem State.inc_raise_reported : CountsReported f s ((s.inc f).raise src info) := by
  have hinc := s.inc_live f hf
  obtain ⟨hrest, hlive⟩ := State.raise_reported (s.inc f) src info (by rwa [s.severityOf_inc hf])
  refine ⟨by rw [hrest, hinc], fun a ha => ?_⟩
  rw [hlive a fun h => ha (List.mem_cons_of_mem _ h), hinc]
  exact RegMap.val_setF_ne _ _ _ fun h => ha (h ▸ List.mem_cons_self)

theorem State.inc_raise_counted (hlo : f.lo + f.width ≤ 32) (ha : f.addr ∉ reportRegs) : Counted f s ((s.inc f).raise src info) :=
  ((State.raise_reported (s.inc f) src info (by rwa [s.severityOf_inc hf])).fv f ha).trans (s.fv_inc_self f hlo)

end

/-- A penalty of `port` at a bank of tile `t`, in force or not. -/
def Penalty.isFor (t bank port : Nat) (x : Penalty) : Bool := x.tile == t && x.port == port && x.bank == bank

theorem Penalty.isFor_iff {t bank port : Nat} {x : Penalty} :
    Penalty.isFor t bank port x = true ↔ x.tile = t ∧ x.bank = bank ∧ x.port = port := by
  simp only [Penalty.isFor, Bool.and_eq_true, beq_iff_eq]
  tauto

/-- The penalty that a trigger starts: one level above those of the port at the bank that still stand (R158). -/
def State.newPenalty (s : State) (t bank port : Nat) : Penalty :=
  let level := (s.gate.penalties.filter (Penalty.isFor t bank port)).foldl (fun m x => max m x.level) 0
  ⟨t, port, bank, level + 1, s.epoch + 1, s.epoch + 256 * max 1 (s.fv (F.SCH_HAM_penalty t)), none⟩

/-- The penalties once `port` is penalised for a bank of tile `t`: its earlier ones there end as the new one begins (R158). -/
def State.penaltiesWith (s : State) (t bank port : Nat) : List Penalty :=
  (s.gate.penalties.map fun x => if Penalty.isFor t bank port x then { x with until_ := some (s.epoch + 1) } else x) ++
    [s.newPenalty t bank port]

theorem State.penalise_eq (s : State) (t bank port : Nat) :
    s.penalise t bank port =
      ({ s with gate := { s.gate with penalties := s.penaltiesWith t bank port } }.inc (F.SCH_CNT_PENALTY_count t)).raise
        (Src.sched 1 t) t :=
  rfl

/-- A penalty of `port` at a bank of tile `c` stands in `t`, as a trigger in `s` starts it: its period has not run out. -/
def Penalised (s t : State) (c bank port : Nat) : Prop :=
  ∃ y ∈ t.gate.penalties, y.tile = c ∧ y.port = port ∧ y.bank = bank ∧ 1 ≤ y.level ∧ y.start = s.epoch + 1 ∧
    y.ends = s.epoch + 256 * max 1 (s.fv (F.SCH_HAM_penalty c)) ∧ y.until_ = none

/-- The period of a penalty depends on the epoch and the configuration alone. -/
theorem Penalised.congr {s t u : State} {c bank port : Nat} (h : Penalised t u c bank port) (he : t.epoch = s.epoch)
    (ha : t.active = s.active) : Penalised s u c bank port := by
  have hf : t.fv (F.SCH_HAM_penalty c) = s.fv (F.SCH_HAM_penalty c) := congrArg (RegMap.fv · (F.SCH_HAM_penalty c)) ha
  unfold Penalised at h
  rwa [he, hf] at h

/-- `t` is `s` after the ports `ps` have been penalised for a bank of tile `c`, with the counts and reports of that. -/
structure Penalises (c bank : Nat) (ps : List Nat) (s t : State) : Prop where
  rest : t = { s with
    gate := { s.gate with penalties := t.gate.penalties }, live := t.live, evq := t.evq, evLost := t.evLost, flt := t.flt }
  live : LiveBut (R.SCH_CNT_PENALTY c :: reportRegs) s t
  anew : ∀ p ∈ ps, Penalised s t c bank p
  kept : ∀ y ∈ s.gate.penalties, ¬ (y.tile = c ∧ y.bank = bank ∧ y.port ∈ ps) → y ∈ t.gate.penalties

namespace Penalises

variable {c bank : Nat} {ps qs : List Nat} {s t u : State}

theorem nil (c bank : Nat) (s : State) : Penalises c bank [] s s :=
  ⟨rfl, LiveBut.refl _ s, fun _ h => absurd h List.not_mem_nil, fun _ h _ => h⟩

theorem active (h : Penalises c bank ps s t) : t.active = s.active := by rw [h.rest]

/-- The ports `ps`, then the ports `qs`: a penalty of `ps` stands unless `qs` starts it again. -/
theorem append (h : Penalises c bank ps s t) (h' : Penalises c bank qs t u) : Penalises c bank (ps ++ qs) s u where
  rest := by rw [h'.rest, h.rest]
  live := h.live.trans h'.live (List.Subset.refl _) (List.Subset.refl _)
  anew p hp := by
    by_cases hq : p ∈ qs
    · exact (h'.anew p hq).congr (by rw [h.rest]) h.active
    · obtain ⟨y, hy, ht, hport, hrest⟩ := h.anew p ((List.mem_append.mp hp).resolve_right hq)
      exact ⟨y, h'.kept y hy fun ⟨_, _, hn⟩ => hq (hport ▸ hn), ht, hport, hrest⟩
  kept y hy hn :=
    h'.kept y (h.kept y hy fun ⟨ht, hb, hp⟩ => hn ⟨ht, hb, List.mem_append_left _ hp⟩)
      fun ⟨ht, hb, hq⟩ => hn ⟨ht, hb, List.mem_append_right _ hq⟩

end Penalises

/-- R157, R158: one port is penalised. -/
theorem State.penalise_penalises {c : Channel} {s : State} (hm : Mild s 144 304) (bank port : Nat) :
    Penalises c.val bank [port] s (s.penalise c.val bank port) := by
  obtain ⟨hrest, hlive⟩ := State.inc_raise_reported
    (s := { s with gate := { s.gate with penalties := s.penaltiesWith c.val bank port } })
    (f := F.SCH_CNT_PENALTY_count c.val) rfl c.val (hm.sched (kind := 1) (by decide) c)
  rw [← State.penalise_eq] at hrest hlive
  have hps : (s.penalise c.val bank port).gate.penalties = s.penaltiesWith c.val bank port := by rw [hrest]
  refine ⟨by rw [hrest], hlive, fun p hp => ?_, fun y hy hn => ?_⟩
  · refine ⟨s.newPenalty c.val bank port, ?_, rfl, (List.mem_singleton.mp hp).symm, rfl, Nat.le_add_left 1 _, rfl, rfl, rfl⟩
    rw [hps]
    exact List.mem_append_right _ (List.mem_singleton.mpr rfl)
  · have hother : ¬ Penalty.isFor c.val bank port y = true := fun h => by
      obtain ⟨ht, hb, hp⟩ := Penalty.isFor_iff.mp h
      exact hn ⟨ht, hb, List.mem_singleton.mpr hp⟩
    rw [hps]
    exact List.mem_append_left _ (List.mem_map.mpr ⟨y, hy, if_neg hother⟩)

/-- R157: the ports of a trigger are penalised one after the other. -/
theorem State.foldl_penalise {c : Channel} (bank : Nat) (ps : List Nat) {s : State} (hm : Mild s 144 304) :
    Penalises c.val bank ps s (ps.foldl (fun s p => s.penalise c.val bank p) s) := by
  induction ps generalizing s with
  | nil => exact .nil _ _ s
  | cons p ps ih =>
    have hp : Penalises c.val bank [p] s (s.penalise c.val bank p) := State.penalise_penalises hm bank p
    exact hp.append (ih (hm.congr hp.active))

/-! ### A trigger -/

/-- R156: the row `x` leaves those that have reached the threshold for the mitigation queue; the trigger is counted and reported. -/
def State.queueMitigation (s : State) (t : Nat) (x : Reached) : State :=
  ((s.modTile t fun T => { T with reached := T.reached.erase x, mitQ := T.mitQ ++ [(x.bank, x.row, neighbours x.row)] }).inc
    (F.SCH_CNT_TRIG_count t)).raise (Src.sched 0 t) t

/-- R157: the ports that a trigger penalises, the one with the most where none made a quarter of the count. -/
def Reached.penalisedPorts (x : Reached) : List Nat :=
  let quarter := x.ports.filter fun p => decide (x.count ≤ 4 * p.2)
  (if quarter.isEmpty then [x.ports.foldl (fun m p => if m.2 < p.2 then p else m) (0, 0)] else quarter).map Prod.fst

theorem Reached.mem_penalisedPorts {x : Reached} {p n : Nat} (hmem : (p, n) ∈ x.ports) (hn : x.count ≤ 4 * n) :
    p ∈ x.penalisedPorts := by
  have hq : (p, n) ∈ x.ports.filter fun p => decide (x.count ≤ 4 * p.2) := List.mem_filter.mpr ⟨hmem, decide_eq_true hn⟩
  have hne : ¬ (x.ports.filter fun p => decide (x.count ≤ 4 * p.2)).isEmpty = true := fun he => by
    rw [List.isEmpty_iff.mp he] at hq
    exact List.not_mem_nil hq
  unfold Reached.penalisedPorts
  refine List.mem_map.mpr ⟨(p, n), ?_, rfl⟩
  rwa [if_neg hne]

theorem find?_reached_eq {bank row : Nat} {x : Reached} {rs : List Reached}
    (h : rs.find? (fun y => y.bank == bank && y.row == row) = some x) : x.bank = bank ∧ x.row = row := by
  simpa using List.find?_some h

theorem hammerTrigger_none {c : Channel} {b : Fin 32} {row : BitVec 16} {s : State}
    (h : ∀ x ∈ (s.tile c.val).reached, ¬ (x.bank = b.val ∧ x.row = row.toNat)) : exec (.hammerTrigger c b row) s = .next s := by
  have hnone : (s.tile c.val).reached.find? (fun x => x.bank == b.val && x.row == row.toNat) = none :=
    List.find?_eq_none.mpr fun x hx => by simpa using h x hx
  show execHammerTrigger c b row s = _
  unfold execHammerTrigger
  simp only [hnone]

theorem hammerTrigger_some {c : Channel} {b : Fin 32} {row : BitVec 16} {s : State} {x : Reached}
    (h : (s.tile c.val).reached.find? (fun y => y.bank == b.val && y.row == row.toNat) = some x) :
    exec (.hammerTrigger c b row) s =
      .next (x.penalisedPorts.foldl (fun s p => s.penalise c.val b.val p) (s.queueMitigation c.val x)) := by
  have hbank := (find?_reached_eq h).1
  show execHammerTrigger c b row s = _
  unfold execHammerTrigger
  simp only [h, Reached.penalisedPorts, List.foldl_map, hbank, State.queueMitigation]

/-- What queueing a row for mitigation does: the row's queue, the count, the report. -/
structure QueuesMitigation (c : Nat) (x : Reached) (s t : State) : Prop where
  rest : t = { s with tiles := t.tiles, live := t.live, evq := t.evq, evLost := t.evLost, flt := t.flt }
  tile : t.tile c = { s.tile c with
    reached := (s.tile c).reached.erase x, mitQ := (s.tile c).mitQ ++ [(x.bank, x.row, neighbours x.row)] }
  others : ∀ k, k ≠ c → t.tile k = s.tile k
  counted : Counted (F.SCH_CNT_TRIG_count c) s t
  live : LiveBut (R.SCH_CNT_TRIG c :: reportRegs) s t

theorem trig_not_mem_penaltyRegs (c : Channel) : (F.SCH_CNT_TRIG_count c.val).addr ∉ R.SCH_CNT_PENALTY c.val :: reportRegs := by
  revert c
  decide

theorem State.queueMitigation_queues {c : Channel} {s : State} (hm : Mild s 144 304) (x : Reached) :
    QueuesMitigation c.val x s (s.queueMitigation c.val x) := by
  unfold State.queueMitigation
  generalize hu : s.modTile c.val _ = u
  have hsev : u.severityOf (Src.sched 0 c.val) ≠ 5 := by
    rw [← hu]
    exact hm.sched (by decide) c
  obtain ⟨hrest, hlive⟩ := State.inc_raise_reported (f := F.SCH_CNT_TRIG_count c.val) rfl c.val hsev
  have hcount := State.inc_raise_counted (f := F.SCH_CNT_TRIG_count c.val) rfl c.val hsev (Nat.le_refl 32)
    fun h => trig_not_mem_penaltyRegs c (List.mem_cons_of_mem _ h)
  generalize State.raise _ _ _ = t at hrest hlive hcount ⊢
  have htile : ∀ k, t.tile k = u.tile k := fun k => by
    rw [hrest]
    rfl
  subst hu
  refine ⟨?_, ?_, fun k hk => ?_, hcount, hlive⟩
  · rw [hrest]
    rfl
  · rw [htile, State.tile_modTile_self]
  · rw [htile, State.tile_modTile_ne _ _ hk]

theorem QueuesMitigation.active {c : Nat} {x : Reached} {s t : State} (h : QueuesMitigation c x s t) : t.active = s.active := by rw [h.rest]

/-- R155-R158: what a trigger whose row has reached the threshold does. -/
theorem hammerTrigger_mitigates {c : Channel} {b : Fin 32} {row : BitVec 16} {s : State} {x : Reached} (hm : Mild s 144 304)
    (h : (s.tile c.val).reached.find? (fun y => y.bank == b.val && y.row == row.toNat) = some x) :
    ∃ u t, exec (.hammerTrigger c b row) s = .next t ∧ QueuesMitigation c.val x s u ∧ Penalises c.val b.val x.penalisedPorts u t := by
  have hq := State.queueMitigation_queues (c := c) hm x
  exact ⟨_, _, hammerTrigger_some h, hq, State.foldl_penalise b.val x.penalisedPorts (hm.congr hq.active)⟩

/-! ### A period runs out -/

/-- R187: a penalty whose period has run out ends at the next boundary. -/
def Penalty.expire (epoch : Nat) (x : Penalty) : Penalty :=
  if x.until_ = none ∧ x.ends ≤ epoch then { x with until_ := some (epoch + 1) } else x

theorem penaltyExpiry_eq (s : State) :
    exec .penaltyExpiry s = .next { s with gate := { s.gate with penalties := s.gate.penalties.map (Penalty.expire s.epoch) } } := by
  show execPenaltyExpiry s = _
  unfold execPenaltyExpiry
  simp only [Bool.and_eq_true, Option.isNone_iff_eq_none, decide_eq_true_eq]
  rfl

/-! ### The obligation -/

/-- Settles O40: a trigger queues its row and penalises its ports one after the other, and what starts one port's
penalty leaves every other port's. -/
theorem hammeredRowsAreMitigated : Obligations.HammeredRowsAreMitigated := by
  unfold Obligations.HammeredRowsAreMitigated
  refine ⟨fun c b row s hm => ⟨hammerTrigger_none, fun x hx => ?_⟩,
    fun s => ⟨_, penaltyExpiry_eq s, rfl, List.length_map _, fun i x hx => ?_⟩⟩
  · obtain ⟨u, t, hexec, hq, hp⟩ := hammerTrigger_mitigates hm hx
    obtain ⟨hbank, hrow⟩ := find?_reached_eq hx
    have htile : ∀ k, t.tile k = u.tile k := fun k => by
      rw [hp.rest]
      rfl
    have hpen : u.gate.penalties = s.gate.penalties := by rw [hq.rest]
    have hcount : t.fv (F.SCH_CNT_TRIG_count c.val) = u.fv (F.SCH_CNT_TRIG_count c.val) :=
      State.fv_congr (hp.live _ (trig_not_mem_penaltyRegs c)) hp.active
    refine ⟨t, hexec, ?_, fun k hk => (htile k).trans (hq.others k hk), hcount.trans hq.counted, fun p n hmem hn => ?_,
      fun y hy hne => ?_, by rw [hp.rest, hq.rest], hq.live.trans hp.live (by simp) (by simp)⟩
    · rw [htile, hq.tile, hbank, hrow]
    · exact (hp.anew p (Reached.mem_penalisedPorts hmem hn)).congr (by rw [hq.rest]) hq.active
    · exact hp.kept y (hpen ▸ hy) fun ⟨ht, hb, _⟩ => hne.elim (· ht) (· hb)
  · rw [List.getElem?_map, hx]
    rfl

end Sys2Proof.Machine

namespace Sys2Proof.Machine

/-! ## Counters and policers

The ring, the arithmetic of counters and policers, their words, and the counter cache. -/

/-! ### A merged loss counts its event -/

/-- Epoch 256, with one record of quadrant 0 lost since the SPILL_LOST of epoch 0: its report is due (R219). -/
def lossesDue : State :=
  { State.reset with
    pwr := { good := true, phase := 7, booted := true }
    epoch := 256
    eng := { spill := [(0, { lost := some (0, 1, 0) })] } }

/-- The event is one of those that the collector has queued in this cycle (R431). -/
theorem spillLostMergeExpiry_queued {t : State} (e : exec (.spillLostMergeExpiry 0) lossesDue = .next t) : t.flt.queued = 1 := by
  rw [← Host.Outcome.next.inj e]
  decide +kernel

/-- Refutes O41: its frame of the expiry of merged losses leaves the collector's state as it was, but the event that is sent is
counted there among those of the cycle (R61, R431). -/
theorem not_ringAndCellarMoveOn : ¬ Obligations.RingAndCellarMoveOn := by
  intro h
  obtain ⟨-, hlost, -⟩ := h
  obtain ⟨-, hdue⟩ := hlost 0 lossesDue 0 1 0 rfl
  obtain ⟨t, hexec, -, -, -, hframe, -⟩ := hdue (Nat.le_refl 256)
  have hflt : t.flt = lossesDue.flt := by rw [hframe]
  have hone : t.flt.queued = 1 := spillLostMergeExpiry_queued hexec
  rw [hflt] at hone
  exact absurd hone (by decide)

end Sys2Proof.Machine

namespace Sys2Proof.Machine

/-! ### The arithmetic of a counter word (R201-R203) -/

/-- A field after an addition: the policy says what becomes of a sum that is too large. -/
def fieldSum (policy w sum : Nat) : Nat := if policy = 1 then min sum (2 ^ w - 1) else sum % 2 ^ w

theorem fieldSum_lt (policy w sum : Nat) : fieldSum policy w sum < 2 ^ w := by
  have hpos : 0 < 2 ^ w := by positivity
  unfold fieldSum
  split
  · omega
  · exact Nat.mod_lt _ hpos

theorem addField_eq (policy w old inc : Nat) :
    addField policy w old inc = (fieldSum policy w (old + inc), decide (2 ^ w ≤ old + inc)) := by
  unfold addField fieldSum
  extract_lets sum
  by_cases hfits : sum < 2 ^ w
  · rw [if_pos hfits, Nat.mod_eq_of_lt hfits, Nat.min_eq_left (by omega), ite_self, decide_eq_false (by omega)]
  · rw [if_neg hfits, Nat.min_eq_right (by omega), decide_eq_true (by omega)]
    split <;> rfl

/-- R202: the overflowed fields are those whose sum does not fit. -/
theorem mem_overflowed {format policy : Nat} {old inc : DWord} {i lo w : Nat} (hi : (counterFields format)[i]? = some (lo, w)) :
    i ∈ (addCounter format policy old inc).2 ↔ 2 ^ w ≤ bits old.toNat lo w + bits inc.toNat lo w := by
  simp only [addCounter, addField_eq, List.mem_map, List.mem_filter, Prod.exists, List.mem_zipIdx_iff_getElem?]
  constructor
  · rintro ⟨v, ov, j, ⟨⟨lo', w', j', hj, heq⟩, hov⟩, rfl⟩
    simp only [Prod.mk.injEq] at heq
    obtain ⟨-, rfl, rfl⟩ := heq
    obtain ⟨rfl, rfl⟩ := Prod.mk.inj (Option.some.inj (hj.symm.trans hi))
    exact of_decide_eq_true hov
  · intro hov
    exact ⟨_, _, i, ⟨⟨lo, w, i, hi, rfl⟩, decide_eq_true hov⟩, rfl⟩

/-- Two fields side by side in a word of 64 bits read as what was put in. -/
theorem bits_pair {lo w a b : Nat} (hw : lo + w = 64) (ha : a < 2 ^ lo) (hb : b < 2 ^ w) :
    bits (BitVec.ofNat 64 (a + b * 2 ^ lo)).toNat 0 lo = a ∧ bits (BitVec.ofNat 64 (a + b * 2 ^ lo)).toNat lo w = b := by
  have hpos : 0 < 2 ^ lo := by positivity
  have hlt : a + b * 2 ^ lo < 2 ^ 64 := by
    rw [← hw, pow_add]
    nlinarith
  rw [BitVec.toNat_ofNat, Nat.mod_eq_of_lt hlt]
  unfold bits
  simp only [Nat.shiftRight_eq_div_pow]
  exact ⟨by rw [pow_zero, Nat.div_one, Nat.add_mul_mod_self_right, Nat.mod_eq_of_lt ha],
    by rw [Nat.add_mul_div_right _ _ hpos, Nat.div_eq_of_lt ha, Nat.zero_add, Nat.mod_eq_of_lt hb]⟩

/-- The sum of a field of two words. -/
def bitsSum (old inc : DWord) (lo w : Nat) : Nat := bits old.toNat lo w + bits inc.toNat lo w

theorem addCounter_one_field (policy : Nat) (old inc : DWord) :
    (addCounter 0 policy old inc).1 = BitVec.ofNat 64 (fieldSum policy 64 (bitsSum old inc 0 64)) := by
  simp [addCounter, counterFields, addField_eq, bitsSum]

theorem addCounter_two_fields {format lo w : Nat} (h : counterFields format = [(0, lo), (lo, w)]) (policy : Nat) (old inc : DWord) :
    (addCounter format policy old inc).1 =
      BitVec.ofNat 64 (fieldSum policy lo (bitsSum old inc 0 lo) + fieldSum policy w (bitsSum old inc lo w) * 2 ^ lo) := by
  simp [addCounter, h, addField_eq, bitsSum]

/-- R202: each field is added apart. -/
theorem bits_addCounter {format policy : Nat} {old inc : DWord} {i lo w : Nat} (hi : (counterFields format)[i]? = some (lo, w)) :
    bits (addCounter format policy old inc).1.toNat lo w = fieldSum policy w (bitsSum old inc lo w) := by
  have two : ∀ {lo' w'}, counterFields format = [(0, lo'), (lo', w')] → lo' + w' = 64 →
      bits (addCounter format policy old inc).1.toNat lo w = fieldSum policy w (bitsSum old inc lo w) := by
    intro lo' w' hf hw
    obtain ⟨hlow, hhigh⟩ := bits_pair hw (fieldSum_lt policy lo' (bitsSum old inc 0 lo')) (fieldSum_lt policy w' (bitsSum old inc lo' w'))
    rw [addCounter_two_fields hf]
    rw [hf] at hi
    obtain h | h := List.mem_pair.mp (List.mem_of_getElem? hi) <;> obtain ⟨rfl, rfl⟩ := Prod.mk.inj h
    · exact hlow
    · exact hhigh
  obtain _ | _ | n := format
  · obtain ⟨rfl, rfl⟩ := Prod.mk.inj (List.mem_singleton.mp (List.mem_of_getElem? hi))
    have hlt := fieldSum_lt policy 64 (bitsSum old inc 0 64)
    rw [addCounter_one_field, BitVec.toNat_ofNat, Nat.mod_eq_of_lt hlt]
    exact Nat.mod_eq_of_lt hlt
  · exact two rfl rfl
  · exact two rfl rfl

/-- R202: a word of one field that does not overflow is the sum of the two. -/
theorem addCounter_fits {policy : Nat} {old inc : DWord} (h : (addCounter 0 policy old inc).2 = []) :
    (addCounter 0 policy old inc).1 = old + inc := by
  have hfits : ¬ 2 ^ 64 ≤ bitsSum old inc 0 64 := fun hov =>
    absurd ((mem_overflowed (format := 0) (policy := policy) (i := 0) rfl).mpr hov) (by rw [h]; exact List.not_mem_nil)
  have hsum : bitsSum old inc 0 64 = old.toNat + inc.toNat := by
    have hold := old.isLt
    have hinc := inc.isLt
    unfold bitsSum bits
    simp only [Nat.shiftRight_zero]
    rw [Nat.mod_eq_of_lt hold, Nat.mod_eq_of_lt hinc]
  rw [addCounter_one_field]
  apply BitVec.eq_of_toNat_eq
  rw [BitVec.toNat_ofNat, BitVec.toNat_add, ← hsum]
  unfold fieldSum
  split <;> omega

/-! ### The arithmetic of a policer (R221, R224, R225) -/

/-- R221: the two words of a policer in range hold it. -/
theorem Policer.ofWords_words {x : Policer} (hprofile : x.profile < 64) (hstamp : x.stamp < 2 ^ 32) (hcfrac : x.cfrac < 4096)
    (hefrac : x.efrac < 4096) (hte : x.te < 2 ^ 32) (htc : x.tc < 2 ^ 32) : Policer.ofWords x.words.1 x.words.2 = x := by
  obtain ⟨profile, stamp, cfrac, efrac, te, tc⟩ := x
  simp only [Policer.ofWords, Policer.words, bits, BitVec.toNat_ofNat, Nat.shiftRight_eq_div_pow, Policer.mk.injEq] at *
  omega

/-- R224: a bucket after its refill holds no more than its size, and with no time gone what it held. -/
theorem refillBucket_le (size tokens frac rate elapsed : Nat) : (refillBucket size tokens frac rate elapsed).1 ≤ size :=
  Nat.min_le_left _ _

theorem refillBucket_still {frac : Nat} (h : frac < 4096) (size tokens rate : Nat) :
    (refillBucket size tokens frac rate 0).1 = min size tokens := by
  simp [refillBucket, Nat.div_eq_of_lt h]

section
variable (x : Policer) (f : Profile) (n : Nat)

/-- R224 step 1: how far the epoch of the packet lies ahead of the stamp, and the time that this gives: none for a stamp up to 64
epochs ahead. -/
def Policer.since : Nat := (n % 2 ^ 32 + 2 ^ 32 - x.stamp) % 2 ^ 32
def Policer.elapsed : Nat := if 2 ^ 32 - 64 ≤ x.since n then 0 else x.since n

theorem Policer.refill_profile : (x.refill f n).profile = x.profile := by
  unfold Policer.refill
  dsimp only
  split <;> rfl

theorem Policer.refill_stamp : (x.refill f n).stamp = if 2 ^ 32 - 64 ≤ x.since n then x.stamp else n % 2 ^ 32 := by
  simp only [Policer.refill, decide_eq_true_eq]
  by_cases halg : f.alg = 1
  · rw [if_pos halg]
    rfl
  · rw [if_neg halg]
    rfl

theorem Policer.refill_tc : (x.refill f n).tc = (refillBucket f.cbs x.tc x.cfrac f.cir (x.elapsed n)).1 := by
  simp only [Policer.refill, decide_eq_true_eq]
  by_cases halg : f.alg = 1
  · rw [if_pos halg]
    rfl
  · rw [if_neg halg]
    rfl

theorem Policer.refill_te_le : (x.refill f n).te ≤ f.ebs := by
  unfold Policer.refill
  dsimp only
  split
  · exact Nat.min_le_left _ _
  · exact refillBucket_le _ _ _ _ _

/-- R224. -/
theorem Policer.refill_bounds : (x.refill f n).tc ≤ f.cbs ∧ (x.refill f n).te ≤ f.ebs ∧ (x.refill f n).profile = x.profile ∧
    (x.since n < 2 ^ 32 - 64 → (x.refill f n).stamp = n % 2 ^ 32) ∧
    (2 ^ 32 - 64 ≤ x.since n → x.cfrac < 4096 → x.efrac < 4096 → (x.refill f n).stamp = x.stamp ∧ (x.refill f n).tc = min f.cbs x.tc) := by
  refine ⟨?_, x.refill_te_le f n, x.refill_profile f n, fun h => ?_, fun h hc _ => ⟨?_, ?_⟩⟩
  · rw [Policer.refill_tc]
    exact refillBucket_le _ _ _ _ _
  · rw [Policer.refill_stamp, if_neg (Nat.not_le.mpr h)]
  · rw [Policer.refill_stamp, if_pos h]
  · rw [Policer.refill_tc, Policer.elapsed, if_pos h, refillBucket_still hc]

end

section
variable (x : Policer) (f : Profile) (b c : Nat)

/-- R225: what a packet of `b` bytes takes for each colour: of a green one under the single-rate algorithm the first bucket alone. -/
theorem Policer.mark_cases :
    x.mark f b c = (x, 2) ∨
    b ≤ x.te ∧ (f.aware = true → c ≠ 2) ∧ x.mark f b c = ({ x with te := x.te - b }, 1) ∨
    b ≤ x.tc ∧ (f.alg ≠ 1 → b ≤ x.te) ∧ (f.aware = true → c = 0 ∨ 2 < c) ∧
      x.mark f b c = ({ x with tc := x.tc - b, te := if f.alg = 1 then x.te else x.te - b }, 0) := by
  unfold Policer.mark
  extract_lets c'
  have haware : f.aware = true → c' = c := fun h => if_pos h
  by_cases halg : f.alg = 1
  · simp only [if_pos halg]
    by_cases hgreen : c' = 0 ∧ b ≤ x.tc
    · refine .inr (.inr ⟨hgreen.2, fun h => absurd halg h, fun h => ?_, if_pos hgreen⟩)
      have := haware h
      omega
    · rw [if_neg hgreen]
      by_cases hyellow : c' ≠ 2 ∧ b ≤ x.te
      · exact .inr (.inl ⟨hyellow.2, fun h => haware h ▸ hyellow.1, if_pos hyellow⟩)
      · exact .inl (if_neg hyellow)
  · simp only [if_neg halg]
    by_cases hred : c' = 2 ∨ x.te < b
    · exact .inl (if_pos hred)
    · rw [if_neg hred]
      by_cases hyellow : c' = 1 ∨ x.tc < b
      · refine .inr (.inl ⟨by omega, fun h => ?_, if_pos hyellow⟩)
        have := haware h
        omega
      · refine .inr (.inr ⟨by omega, fun _ => by omega, fun h => ?_, if_neg hyellow⟩)
        have := haware h
        omega

/-- R225. -/
theorem Policer.mark_takes :
    ((x.mark f b c).2 = 2 → (x.mark f b c).1 = x) ∧
    ((x.mark f b c).2 = 1 → b ≤ x.te ∧ (x.mark f b c).1 = { x with te := x.te - b }) ∧
    ((x.mark f b c).2 = 0 → b ≤ x.tc ∧ (x.mark f b c).1 = { x with tc := x.tc - b, te := if f.alg = 1 then x.te else x.te - b }) ∧
    (f.alg ≠ 1 → (x.mark f b c).2 = 0 → b ≤ x.te) ∧
    (x.mark f b c).2 ≤ 2 ∧ (f.aware = true → c ≤ 2 → c ≤ (x.mark f b c).2) := by
  obtain h | ⟨hte, haware, h⟩ | ⟨htc, hte, haware, h⟩ := x.mark_cases f b c <;> rw [h]
  · simp
  · refine ⟨by simp, fun _ => ⟨hte, rfl⟩, by simp, by simp, by simp, fun ha hc => ?_⟩
    have := haware ha
    show c ≤ 1
    omega
  · refine ⟨by simp, by simp, fun _ => ⟨htc, rfl⟩, fun ha _ => hte ha, by simp, fun ha hc => ?_⟩
    have := haware ha
    show c ≤ 0
    omega

end

end Sys2Proof.Machine

namespace Sys2Proof.Machine

/-! ### Registers of counter and policer operations -/

theorem wordRegs_subset_counterRegs : wordRegs ⊆ counterRegs := fun _ h => List.mem_append_right _ h

/-- The counters of tile `t` that counter and policer operations may write. -/
def tileCounterRegs (t : Nat) : List Nat :=
  [R.ENG_CNT_CUPD t, R.ENG_CNT_CHIT t, R.ENG_CNT_CMISS t, R.ENG_CNT_CWB t, R.ENG_CNT_OVF t, R.ENG_CNT_SPILL t, R.ENG_CNT_SPILL_LOST t,
    R.ENG_CNT_POL t, R.ENG_CNT_POLRED t, R.ENG_CNT_CDAMAGE t]

theorem mem_counterRegs {t a : Nat} (ht : t < 32) (ha : a ∈ tileCounterRegs t) : a ∈ counterRegs := by
  unfold counterRegs
  simp only [List.append_assoc]
  exact List.mem_append_left _ (List.mem_flatMap.mpr ⟨t, List.mem_range.mpr ht, ha⟩)

/-- No register of a tile's counters is one that reading and writing words may write. -/
theorem tileCounter_not_mem_wordRegs {t a : Nat} (ht : t < 32) (ha : a ∈ tileCounterRegs t) : a ∉ wordRegs := by
  have hall : ∀ t, t < 32 → ∀ a ∈ tileCounterRegs t, a ∉ wordRegs := by decide +kernel
  exact hall t ht a ha

/-- What an address is modulo the spacing of units tells the registers of spare banks and of erased lines from all of these. -/
theorem counterRegs_mod {a : Nat} (ha : a ∈ counterRegs) : a % 0x1000 ≠ 0x24 ∧ a % 0x1000 ≠ 0x14 ∧ a ≠ R.ECC_INJ_CTL := by
  have hall : ∀ a ∈ counterRegs, a % 0x1000 ≠ 0x24 ∧ a % 0x1000 ≠ 0x14 ∧ a ≠ R.ECC_INJ_CTL := by decide +kernel
  exact hall a ha

/-! ### Reading and writing the words of a target -/

/-- `t` is `s` but for the codewords `ds`, put at their indices of the array, and `ls`, of the Larder, the live registers `as`, and what
keeping track of errors leaves behind: no row is remapped, and the bursts under probe stay. -/
structure WordStores (as : List Nat) (ds ls : List (Nat × Codeword)) (s t : State) : Prop where
  known : as ⊆ counterRegs
  rest : t = { s with live := t.live, dram := t.dram, larder := t.larder, ecc := t.ecc, vrt := t.vrt, evq := t.evq, evLost := t.evLost
                      flt := t.flt }
  live : LiveBut as s t
  dram : t.dram = storeWords s.dram ds
  larder : t.larder = storeWords s.larder ls
  remap : ∀ c, (t.eccOf c).remap = (s.eccOf c).remap
  probe : ∀ c, (t.eccOf c).probe.map ProbeJob.burst = (s.eccOf c).probe.map ProbeJob.burst

namespace WordStores

variable {as bs : List Nat} {ds ds' ls ls' : List (Nat × Codeword)} {s t u : State}

theorem refl (h : as ⊆ counterRegs) (s : State) : WordStores as [] [] s s :=
  ⟨h, rfl, LiveBut.refl _ s, rfl, rfl, fun _ => rfl, fun _ => rfl⟩

theorem trans (h : WordStores as ds ls s t) (h' : WordStores as ds' ls' t u) : WordStores as (ds ++ ds') (ls ++ ls') s u where
  known := h.known
  rest := by rw [h'.rest, h.rest]
  live := h.live.trans h'.live (List.Subset.refl _) (List.Subset.refl _)
  dram := by rw [h'.dram, h.dram, storeWords_append]
  larder := by rw [h'.larder, h.larder, storeWords_append]
  remap c := (h'.remap c).trans (h.remap c)
  probe c := (h'.probe c).trans (h.probe c)

theorem mono (h : WordStores as ds ls s t) (hab : as ⊆ bs) (hb : bs ⊆ counterRegs) : WordStores bs ds ls s t :=
  { h with known := hb, live := fun a ha => h.live a fun hm => ha (hab hm) }

/-- A step that stores nothing. -/
theorem keep (h : WordStores as ds ls s t) (h' : WordStores as [] [] t u) : WordStores as ds ls s u := by
  have := h.trans h'
  rwa [List.append_nil, List.append_nil] at this

theorem of_dram (h : DramStores ds s t) : WordStores wordRegs ds [] s t where
  known := wordRegs_subset_counterRegs
  rest := by
    conv_lhs => rw [h.rest]
    rw [h.rest]
  live := h.live
  dram := h.dram
  larder := by rw [h.rest]; rfl
  remap := h.remap
  probe := h.probe

theorem setF (s : State) (f : Fld) (v : Nat) (hc : f.cfg = false) (ha : f.addr ∈ as) (hk : as ⊆ counterRegs) :
    WordStores as [] [] s (s.setF f v) := by
  rw [State.setF_live _ _ _ hc]
  exact ⟨hk, rfl, fun a hm => RegMap.val_setF_ne _ _ _ fun e => hm (e ▸ ha), rfl, rfl, fun _ => rfl, fun _ => rfl⟩

theorem inc (s : State) (f : Fld) (hc : f.cfg = false) (ha : f.addr ∈ as) (hk : as ⊆ counterRegs) : WordStores as [] [] s (s.inc f) :=
  setF s f _ hc ha hk

theorem larderPut (s : State) (q bank line w : Nat) (c : Codeword) :
    WordStores wordRegs [] [(larderIndex q bank line w, c ^^^ s.powerMask q bank (larderIndex q bank line w))] s
      (s.larderPut q bank line w c) :=
  ⟨wordRegs_subset_counterRegs, rfl, LiveBut.refl _ s, rfl, rfl, fun _ => rfl, fun _ => rfl⟩

theorem foldl {α : Type} {f : State → α → State} (xs : List α) (hk : as ⊆ counterRegs) (hf : ∀ t a, WordStores as [] [] t (f t a)) (s : State) :
    WordStores as [] [] s (xs.foldl f s) := by
  induction xs generalizing s with
  | nil => exact refl hk s
  | cons a xs ih => exact (hf s a).keep (ih _)

section
variable (h : WordStores as ds ls s t)
include h

/-- The state before, with the registers, the Larder and the risers of the state after, differs from it as stores to the array do. -/
theorem toDram : DramStores ds { s with live := t.live, larder := t.larder, vrt := t.vrt } t where
  rest := by
    conv_lhs => rw [h.rest]
  live := LiveBut.refl _ _
  dram := h.dram
  remap := h.remap
  probe := h.probe

theorem active : t.active = s.active := by rw [h.rest]

theorem reqs : t.reqs = s.reqs := by rw [h.rest]

theorem mild {lo hi : Nat} (hm : Mild s lo hi) : Mild t lo hi := Mild.congr hm h.active

theorem fv {f : Fld} (hf : f.addr ∉ as) : t.fv f = s.fv f := State.fv_congr (h.live _ hf) h.active

/-- A count made before stays, where its register is none of those written. -/
theorem counted {r : State} {f : Fld} (hf : f.addr ∉ as) (hc : Counted f r s) : Counted f r t := (h.fv hf).trans hc

theorem inArray {l : Loc} (hin : s.InArray l) : t.InArray l := h.toDram.inArray hin

theorem physWord (l : Loc) (w : Nat) : t.physWord l w = s.physWord l w := h.toDram.physWord l w

theorem lostMask (i : Nat) : t.lostMask i = s.lostMask i := h.toDram.lostMask i

theorem powerMask (q b i : Nat) : t.powerMask q b i = s.powerMask q b i := by
  unfold State.powerMask
  rw [h.rest]

theorem unarmed (ha : s.fb F.ECC_INJ_CTL_arm = false) : t.fb F.ECC_INJ_CTL_arm = false := by
  unfold State.fb at *
  rwa [h.fv fun hm => (counterRegs_mod (h.known hm)).2.2 rfl]

theorem erasures (c w : Nat) : t.erasures c w = s.erasures c w := by
  have hfv : ∀ f, f.addr = R.ECC_ERASE c → t.fv f = s.fv f := fun f hf => h.fv fun hm => (counterRegs_mod (h.known hm)).2.1 (by
    rw [hf, R.ECC_ERASE]
    omega)
  unfold State.erasures State.fb
  dsimp only
  rw [hfv (F.ECC_ERASE_a_valid c) rfl, hfv (F.ECC_ERASE_a_line c) rfl, hfv (F.ECC_ERASE_b_valid c) rfl, hfv (F.ECC_ERASE_b_line c) rfl]

theorem serving (l : LLine) : t.serving l = s.serving l := by
  have hfv : ∀ q f, f.addr = R.LAR_SPARE_STAT q → t.fv f = s.fv f := fun q f hf => h.fv fun hm => (counterRegs_mod (h.known hm)).1 (by
    rw [hf, R.LAR_SPARE_STAT]
    omega)
  have hspare : ∀ l, t.spareLine l = s.spareLine l := fun l => by
    unfold State.spareLine State.fb
    rw [hfv l.q (F.LAR_SPARE_STAT_active l.q) rfl, hfv l.q (F.LAR_SPARE_STAT_bank l.q) rfl]
  have hparked : ∀ q b, t.parkedAt q b = s.parkedAt q b := fun q b => by
    unfold State.parkedAt State.slotOf
    rw [show t.bst = s.bst by rw [h.rest]]
  unfold State.serving
  simp only [hspare, hparked]

theorem larderPlace (l : LLine) (w : Nat) : t.larderPlace l w = s.larderPlace l w := by
  unfold State.larderPlace
  rw [h.serving]

theorem storesDram {p : Nat → Prop} (hl : ls = []) (hp : ∀ x ∈ ds, p x.1) : StoresDram p s t := by
  subst hl
  refine ⟨fun i hi => ?_, fun i => by rw [h.larder]; rfl⟩
  rw [h.dram]
  exact memByte_storeWords_ne (fun x hx hxi => hi (hxi ▸ hp x hx)) _

theorem storesLarder {p : Nat → Prop} (hd : ds = []) (hp : ∀ x ∈ ls, p x.1) : StoresLarder p s t := by
  subst hd
  refine ⟨fun i hi => ?_, fun i => by rw [h.dram]; rfl⟩
  rw [h.larder]
  exact memByte_storeWords_ne (fun x hx hxi => hi (hxi ▸ hp x hx)) _

end

end WordStores

/-! #### Words that are read -/

/-- R340: corrected bits are attributed to a riser: the channel's own, or the spare one. -/
theorem State.attribute_stores (s : State) {c : Nat} (hc : c < 32) (w : Nat) (bits : List Nat) :
    WordStores wordRegs [] [] s (s.attribute c w bits) := by
  have hr : s.carrier c < 33 := by
    unfold State.carrier
    split
    · omega
    · omega
  have hmem : (F.VRT_CNT_ATTR_count (s.carrier c)).addr ∈ wordRegs :=
    List.mem_append_left _ (List.mem_append_right _ (List.mem_map_of_mem (f := R.VRT_CNT_ATTR) (List.mem_range.mpr hr)))
  unfold State.attribute
  refine WordStores.foldl _ wordRegs_subset_counterRegs (fun t i => ?_) s
  refine WordStores.keep (ds := []) (ls := []) ?_ (.inc _ _ rfl hmem wordRegs_subset_counterRegs)
  exact ⟨wordRegs_subset_counterRegs, rfl, LiveBut.refl _ _, rfl, rfl, fun _ => rfl, fun _ => rfl⟩

section
variable {s : State} {t : Nat} (ht : t < 32) (hm : Mild s 504 544)
include ht hm

/-- R316: an entry leaves the recurrence table. -/
theorem State.leaves_keeps (r : RecEntry) : DramStores [] s (s.leaves t r) := by
  have hgone : DramStores [] s (s.modEcc t fun e => { e with recs := e.recs.filter fun x => decide (x ≠ r) }) :=
    .modEcc s t (fun _ => rfl) fun _ => rfl
  exact hgone.keep (State.queueBurst_keeps ht (hgone.mild hm) _ _ _ _)

/-- R315: a corrected word enters the recurrence table, or counts in it. -/
theorem State.recur_keeps (bank row col word : Nat) (i : ErrInfo) : DramStores [] s (s.recur t bank row col word i) := by
  have table : ∀ {u} (f : EccSt → EccSt), DramStores [] s u → (∀ e, (f e).remap = e.remap) → (∀ e, (f e).probe = e.probe) →
      DramStores [] s (u.modEcc t f) :=
    fun f hu hr hp => hu.keep (.modEcc _ t hr fun e => by rw [hp])
  have evicts : ∀ old, DramStores [] s (((s.inc (F.ECC_CNT_RECEVICT_count t)).raise (Src.integrity 6 (t / 8)) t).leaves t old) := fun old => by
    have hinc : DramStores [] s (s.inc (F.ECC_CNT_RECEVICT_count t)) :=
      .inc s _ rfl (mem_wordRegs ht (by simp [eccWordRegs, F.ECC_CNT_RECEVICT_count, R.ECC_CNT_RECEVICT]))
    have hraise := hinc.keep (.raise ht (hinc.mild hm) (k := 6) (by decide) t)
    exact hraise.keep (State.leaves_keeps ht (hraise.mild hm) old)
  have leaves : ∀ {u} r, DramStores [] s u → DramStores [] s (u.leaves t r) := fun r hu => hu.keep (State.leaves_keeps ht (hu.mild hm) r)
  unfold State.recur
  extract_lets same e new v u
  split
  · exact State.queueBurst_keeps ht hm _ _ _ _
  · have hu : DramStores [] s u := by
      unfold u
      split
      · exact table _ (.refl s) (fun _ => rfl) fun _ => rfl
      · refine table _ ?_ (fun _ => rfl) fun _ => rfl
        unfold v
        split
        · exact .refl s
        · split
          · exact evicts _
          · exact .refl s
    split
    · split
      · exact leaves _ hu
      · exact .eccStatus ht hu
    · exact .eccStatus ht hu

end

end Sys2Proof.Machine

namespace Sys2Proof.Machine

/-- What the decoder makes of a word that it can read. -/
def readAs (d : Nat) (errs : List Nat) : WordRead := ⟨BitVec.ofNat 64 d, d.testBit 64, !errs.isEmpty, false⟩

namespace WordStores

variable {ds ls : List (Nat × Codeword)} {s t : State} (h : WordStores wordRegs ds ls s t)
include h

theorem keepDram {u : State} (h' : DramStores [] t u) : WordStores wordRegs ds ls s u := h.keep (.of_dram h')

theorem incWord (f : Fld) (hc : f.cfg = false) (ha : f.addr ∈ wordRegs) : WordStores wordRegs ds ls s (t.inc f) :=
  h.keep (.inc t f hc ha wordRegs_subset_counterRegs)

/-- A source of an integrity block is reported, an error captured. -/
theorem raiseIntegrity {c : Nat} (hc : c < 32) (hm : Mild s 504 544) {k : Nat} (hk : k < 10) (info : Nat) :
    WordStores wordRegs ds ls s (t.raise (Src.integrity k (c / 8)) info) := h.keepDram (.raise hc (h.mild hm) hk info)

theorem captured {c : Nat} (hc : c < 32) (hm : Mild s 504 544) (cls : Nat) (i : ErrInfo) :
    WordStores wordRegs ds ls s (t.capture c cls i) := h.keepDram (State.capture_keeps hc (h.mild hm) cls i)

end WordStores

/-- R306, R309, R315: a word in the array alone that the decoder can read. -/
theorem State.readArray_ok {s : State} {l : Loc} {w d : Nat} {errs : List Nat} (hch : l.ch < 32) (hin : s.InArray l)
    (her : s.erasures l.ch w = []) (hdec : decodeWord (s.dramGet (s.physWord l w)).toNat [] = .ok d errs false)
    (hm : Mild s 504 544) (ctx : ReadCtx) :
    ∃ u, s.readArray l w ctx = (readAs d errs, u) ∧ WordStores wordRegs [] [] s u ∧ (errs = [] → u = s) := by
  have hphys : s.physLoc ctx.accepted l = s.physLoc none l := by
    obtain ⟨-, -, -, -, -, hrow⟩ := hin
    unfold State.physLoc
    rw [hrow, hrow]
  have hover : ∀ c, s.overLines c [] = (c, s) := fun _ => rfl
  unfold State.readArray
  rw [hphys, ← State.physWord, her]
  simp only [hover, hdec]
  cases errs with
  | nil => exact ⟨s, rfl, .refl wordRegs_subset_counterRegs s, fun _ => rfl⟩
  | cons e errs =>
    have hmem : ∀ {a}, a ∈ eccWordRegs l.ch → a ∈ wordRegs := mem_wordRegs hch
    have hseen : ∀ bits, WordStores wordRegs [] [] s ((((s.inc (F.ECC_CNT_CE_count l.ch)).attribute l.ch w bits).when false
        fun s => s.inc (F.ECC_CNT_ERASE_count l.ch)).when (ctx.source == 2) fun s => s.inc (F.ECC_CNT_SCRUB_CE_count l.ch)) := fun bits => by
      have hce := ((WordStores.refl wordRegs_subset_counterRegs s).incWord (F.ECC_CNT_CE_count l.ch) rfl
        (hmem (by simp [eccWordRegs, F.ECC_CNT_CE_count, R.ECC_CNT_CE]))).keep (State.attribute_stores _ hch w bits)
      unfold State.when
      split
      · exact hce.incWord _ rfl (hmem (by simp [eccWordRegs, F.ECC_CNT_SCRUB_CE_count, R.ECC_CNT_SCRUB_CE]))
      · exact hce
    simp only [List.isEmpty_cons, Bool.false_and, Bool.false_eq_true, if_false]
    generalize e :: errs ++ changedAt _ _ _ = bits
    replace hseen := hseen bits
    generalize State.when _ _ _ = t at hseen ⊢
    split
    · have hretired := hseen.incWord (F.ECC_CNT_RETIRED_count l.ch) rfl
        (hmem (by simp [eccWordRegs, F.ECC_CNT_RETIRED_count, R.ECC_CNT_RETIRED]))
      exact ⟨_, rfl, (hretired.raiseIntegrity hch hm (by decide) _).captured hch hm _ _, fun h => nomatch h⟩
    · have hraised := hseen.raiseIntegrity hch hm (k := 0) (by decide) l.ch
      split
      · exact ⟨_, rfl, hraised.keepDram (State.queueBurst_keeps hch (hraised.mild hm) _ _ _ _), fun h => nomatch h⟩
      · exact ⟨_, rfl, hraised.keepDram (State.recur_keeps hch (hraised.mild hm) _ _ _ _ _), fun h => nomatch h⟩

/-- R91, R315: a word of the Larder that the decoder can read; a corrected one is written back. -/
theorem State.readPhys_ok {s : State} {x l : LLine} {w d : Nat} {errs : List Nat} (hq : l.q < 4)
    (hdec : decodeWord (s.larderGet x.q x.bank x.line w).toNat [] = .ok d errs false) (hm : Mild s 504 544) (ctx : ReadCtx) (scr : Option Nat) :
    ∃ u ls, s.readPhys x l w ctx scr = (readAs d errs, u) ∧ WordStores wordRegs [] ls s u ∧ (∀ y ∈ ls, y.1 = larderIndex x.q x.bank x.line w) ∧
      (errs = [] → ls = [] ∧ u = s) := by
  unfold State.readPhys
  simp only [hdec]
  cases errs with
  | nil => exact ⟨s, [], rfl, .refl wordRegs_subset_counterRegs s, by simp, fun _ => ⟨rfl, rfl⟩⟩
  | cons e errs =>
    have hlce : (F.ECC_CNT_LCE_count l.q).addr ∈ wordRegs :=
      List.mem_append_left _ (List.mem_append_left _ (List.mem_append_right _ (List.mem_flatMap.mpr
        ⟨l.q, List.mem_range.mpr hq, List.mem_cons_self⟩)))
    have hch : 8 * l.q < 32 := by omega
    have hquad : 8 * l.q / 8 = l.q := by omega
    have hraised := ((WordStores.refl wordRegs_subset_counterRegs s).incWord (F.ECC_CNT_LCE_count l.q) rfl hlce).raiseIntegrity hch hm (k := 0)
      (by decide) (8 * l.q)
    rw [hquad] at hraised
    have hput := hraised.trans (.larderPut _ x.q x.bank x.line w (encodeWord (BitVec.ofNat 64 d) (d.testBit 64)))
    have hstored : ∀ c : Codeword, ∀ y ∈ [] ++ [(larderIndex x.q x.bank x.line w, c)], y.1 = larderIndex x.q x.bank x.line w := fun c y hy => by
      rw [List.mem_singleton.mp hy]
    simp only [List.isEmpty_cons, Bool.false_eq_true, if_false]
    split
    · exact ⟨_, _, rfl, hput, hstored _, fun h => nomatch h⟩
    · exact ⟨_, _, rfl, hput.captured hch hm _ _, hstored _, fun h => nomatch h⟩

end Sys2Proof.Machine

namespace Sys2Proof.Machine

/-! ### The target of a counter or policer operation -/

/-- The place of the codeword `off` bytes into a target in its memory, and the change that losses have made to what it holds. -/
def State.targetPlace (s : State) (r : Req) (off : Nat) : Nat :=
  if isL r.op r.flags then s.larderPlace (scratchLine r.cfg (r.addr + off)) ((r.addr + off) / 8 % 8)
  else s.physWord (dramLoc r.cfg (r.addr + off)) ((r.addr + off) / 8 % 8)

def State.targetMask (s : State) (r : Req) (off : Nat) : Codeword :=
  if isL r.op r.flags then
    s.powerMask (s.serving (scratchLine r.cfg (r.addr + off))).q (s.serving (scratchLine r.cfg (r.addr + off))).bank (s.targetPlace r off)
  else s.lostMask (s.targetPlace r off)

/-- The memory of a target. -/
def State.targetMem (s : State) (r : Req) : List Host.Cell := if isL r.op r.flags then s.larder else s.dram

theorem State.targetCode_eq (s : State) (r : Req) (off : Nat) :
    s.targetCode r off = memWord (s.targetMem r) (s.targetPlace r off) ^^^ s.targetMask r off := by
  unfold State.targetCode State.targetMask State.targetPlace State.targetMem
  cases isL r.op r.flags <;> simp only [Bool.false_eq_true, if_true, if_false]
  · rfl
  · rfl

/-- The codeword that a clean word `x` puts there, and its index. -/
def State.targetCell (s : State) (r : Req) (off : Nat) (x : DWord) : Nat × Codeword :=
  (s.targetPlace r off, encodeWord x false ^^^ s.targetMask r off)

theorem WordStores.of_larder (s : State) (ls : List (Nat × Codeword)) :
    WordStores wordRegs [] ls s { s with larder := storeWords s.larder ls } :=
  ⟨wordRegs_subset_counterRegs, rfl, LiveBut.refl _ s, rfl, rfl, fun _ => rfl, fun _ => rfl⟩

/-- `t` is `s` but for the codewords `ws`, put at their indices of the target's memory, and what goes with it. -/
def TargetStores (r : Req) (as : List Nat) (ws : List (Nat × Codeword)) (s t : State) : Prop :=
  if isL r.op r.flags then WordStores as [] ws s t else WordStores as ws [] s t

/-- The codeword put last at an index is read back. -/
theorem memWord_storeWords_last {ws vs : List (Nat × Codeword)} {x : Nat × Codeword} (h : ∀ y ∈ vs, y.1 ≠ x.1) (m : List Host.Cell) :
    memWord (storeWords m (ws ++ x :: vs)) x.1 = x.2 := by
  rw [storeWords_append]
  exact (memWord_storeWords_ne h _).trans (memWord_memPut_self _ _ _)

namespace TargetStores

variable {r : Req} {as bs : List Nat} {ws vs : List (Nat × Codeword)} {s t u : State}

theorem of_still (h : WordStores as [] [] s t) : TargetStores r as [] s t := by
  unfold TargetStores
  split <;> exact h

theorem trans (h : TargetStores r as ws s t) (h' : TargetStores r as vs t u) : TargetStores r as (ws ++ vs) s u := by
  unfold TargetStores at *
  cases hL : isL r.op r.flags <;> simp only [hL, Bool.false_eq_true, if_true, if_false] at h h' ⊢
  · exact h.trans h'
  · exact h.trans h'

theorem still (h : TargetStores r as ws s t) (h' : WordStores as [] [] t u) : TargetStores r as ws s u :=
  List.append_nil ws ▸ h.trans (of_still h')

theorem mono (h : TargetStores r as ws s t) (hab : as ⊆ bs) (hb : bs ⊆ counterRegs) : TargetStores r bs ws s t := by
  unfold TargetStores at *
  cases hL : isL r.op r.flags <;> simp only [hL, Bool.false_eq_true, if_true, if_false] at h ⊢
  · exact h.mono hab hb
  · exact h.mono hab hb

section
variable (h : TargetStores r as ws s t)
include h

theorem words : ∃ ds ls, WordStores as ds ls s t := by
  unfold TargetStores at h
  split at h
  · exact ⟨_, _, h⟩
  · exact ⟨_, _, h⟩

theorem mild {lo hi : Nat} (hm : Mild s lo hi) : Mild t lo hi := by
  obtain ⟨ds, ls, hw⟩ := h.words
  exact hw.mild hm

theorem place (off : Nat) : t.targetPlace r off = s.targetPlace r off := by
  obtain ⟨ds, ls, hw⟩ := h.words
  unfold State.targetPlace
  rw [hw.larderPlace, hw.physWord]

theorem mask (off : Nat) : t.targetMask r off = s.targetMask r off := by
  obtain ⟨ds, ls, hw⟩ := h.words
  unfold State.targetMask
  rw [h.place, hw.serving, hw.powerMask, hw.lostMask]

theorem cell (off : Nat) (x : DWord) : t.targetCell r off x = s.targetCell r off x := by
  unfold State.targetCell
  rw [h.place, h.mask]

theorem plain {off : Nat} (hp : s.targetPlain r off) : t.targetPlain r off := by
  obtain ⟨ds, ls, hw⟩ := h.words
  obtain ⟨harm, hdram⟩ := hp
  refine ⟨hw.unarmed harm, fun hL => ?_⟩
  obtain ⟨hin, her⟩ := hdram hL
  exact ⟨hw.inArray hin, (hw.erasures _ _).trans her⟩

theorem storesTarget {offs : List Nat} (hws : ∀ x ∈ ws, ∃ o ∈ offs, x.1 = s.targetPlace r o) : StoresTarget r offs s t := by
  unfold TargetStores at h
  unfold StoresTarget
  unfold State.targetPlace at hws
  cases hL : isL r.op r.flags <;> simp only [hL, Bool.false_eq_true, if_true, if_false] at h hws ⊢
  · exact h.storesDram rfl hws
  · exact h.storesLarder rfl hws

theorem mem : t.targetMem r = storeWords (s.targetMem r) ws := by
  unfold TargetStores at h
  unfold State.targetMem
  cases hL : isL r.op r.flags <;> simp only [hL, Bool.false_eq_true, if_true, if_false] at h ⊢
  · exact h.dram
  · exact h.larder

/-- The word put last at its place is the one that is read. -/
theorem targetCode {ws' : List (Nat × Codeword)} {off : Nat} {x : DWord} (hw : ws = vs ++ s.targetCell r off x :: ws')
    (hne : ∀ y ∈ ws', y.1 ≠ s.targetPlace r off) : t.targetCode r off = encodeWord x false := by
  have hlast : memWord (t.targetMem r) (s.targetPlace r off) = encodeWord x false ^^^ s.targetMask r off := by
    rw [h.mem, hw]
    exact memWord_storeWords_last (x := s.targetCell r off x) hne _
  rw [State.targetCode_eq, h.place, h.mask, hlast, BitVec.xor_assoc, BitVec.xor_self, BitVec.xor_zero]

/-- A place at which nothing is put holds what it held. -/
theorem targetCode_kept {off : Nat} (hne : ∀ y ∈ ws, y.1 ≠ s.targetPlace r off) : t.targetCode r off = s.targetCode r off := by
  rw [State.targetCode_eq, State.targetCode_eq, h.place, h.mask, h.mem, memWord_storeWords_ne hne]

end

end TargetStores

theorem dramLoc_ch (cfg : RegMap) (a : Nat) : (dramLoc cfg a).ch < 32 := (mapOrder_range _ _ _).1

/-- R91, R204, R205: a word of a target that the decoder can read; a corrected one of the Larder is written back. -/
theorem State.readTarget_ok {s : State} {r : Req} {off d : Nat} {errs : List Nat} (hp : s.targetPlain r off)
    (hdec : decodeWord (s.targetCode r off).toNat [] = .ok d errs false) (hm : Mild s 504 544) (rmw : Bool) :
    ∃ u ws, s.readTarget r off rmw = (readAs d errs, u) ∧ TargetStores r wordRegs ws s u ∧ (∀ y ∈ ws, y.1 = s.targetPlace r off) ∧
      (errs = [] → ws = [] ∧ u = s) := by
  obtain ⟨-, hdram⟩ := hp
  unfold State.readTarget TargetStores State.targetPlace
  unfold State.targetCode at hdec
  cases hL : isL r.op r.flags with
  | true =>
    simp only [hL, if_true] at hdec ⊢
    obtain ⟨u, ls, hread, hstores, hplace, hclean⟩ := State.readPhys_ok (x := s.serving (scratchLine r.cfg (r.addr + off)))
      (scratchLine_range r.cfg (r.addr + off)).1 hdec hm (engineCtx r rmw) (some (r.addr + off))
    exact ⟨u, ls, hread, hstores, hplace, hclean⟩
  | false =>
    simp only [hL, Bool.false_eq_true, if_false] at hdec ⊢
    obtain ⟨hin, her⟩ := hdram hL
    obtain ⟨u, hread, hstores, hclean⟩ := State.readArray_ok (dramLoc_ch r.cfg (r.addr + off)) hin her hdec hm (engineCtx r rmw)
    obtain ⟨hcached, hheld, -, hcopy, -, hrow⟩ := hin
    refine ⟨u, [], ?_, hstores, by simp, fun h => ⟨rfl, hclean h⟩⟩
    rw [← hread]
    unfold State.readMem State.readDram
    simp only [hcached, hheld, hrow, hcopy]

/-- R304, R316: a clean word is stored. -/
theorem State.writeTarget_stores {s : State} {r : Req} {off : Nat} (hp : s.targetPlain r off) (hm : Mild s 504 544) (x : DWord) :
    TargetStores r wordRegs [s.targetCell r off x] s (s.writeTarget r off x false) := by
  obtain ⟨harm, hdram⟩ := hp
  unfold TargetStores State.writeTarget
  cases hL : isL r.op r.flags with
  | true =>
    have hcell : s.targetCell r off x = s.larderCell (scratchLine r.cfg (r.addr + off)) ((r.addr + off) / 8 % 8) x := by
      simp only [State.targetCell, State.targetMask, State.targetPlace, State.larderCell, hL, if_true]
    simp only [if_true]
    rw [State.writeScratch_eq, hcell]
    exact .of_larder s _
  | false =>
    have hcell : s.targetCell r off x = s.dramCell (dramLoc r.cfg (r.addr + off)) ((r.addr + off) / 8 % 8) x := by
      simp only [State.targetCell, State.targetMask, State.targetPlace, State.dramCell, hL, Bool.false_eq_true, if_false]
    simp only [Bool.false_eq_true, if_false]
    rw [hcell]
    exact .of_dram (State.writeMem_stores (hdram hL).1 harm hm x)

end Sys2Proof.Machine

namespace Sys2Proof.Machine

/-! ### What an engine operation on a target leaves behind -/

/-- The registers that an operation of tile `t` on a target may write once it has been counted. -/
def actRegs (t : Nat) : List Nat := R.ENG_CNT_CDAMAGE t :: R.ENG_CNT_POLRED t :: wordRegs

theorem actRegs_subset_counterRegs {t : Nat} (ht : t < 32) : actRegs t ⊆ counterRegs := by
  intro a ha
  simp only [actRegs, List.mem_cons] at ha
  obtain rfl | rfl | ha := ha
  · exact mem_counterRegs ht (by simp [tileCounterRegs])
  · exact mem_counterRegs ht (by simp [tileCounterRegs])
  · exact wordRegs_subset_counterRegs ha

theorem wordRegs_subset_actRegs (t : Nat) : wordRegs ⊆ actRegs t := fun _ h => List.mem_cons_of_mem _ (List.mem_cons_of_mem _ h)

/-- `t` is `s` after an operation on the target of `r`, which counts in `f` and puts the codewords `ws`. -/
structure Performs (r : Req) (f : Fld) (ws : List (Nat × Codeword)) (s t : State) : Prop where
  host : t.lar.host = s.lar.host
  stores : TargetStores r counterRegs ws { s with lar := t.lar } t
  counted : Counted f s t

/-- The operation has the Larder's words that it uses, and is counted before it acts. -/
theorem Performs.of_counted {r : Req} {f : Fld} {ws : List (Nat × Codeword)} {s t : State} {n : Nat} (l : LarSt) (hhost : l.host = s.lar.host)
    (hn : n < 32) (hf : f.addr ∈ tileCounterRegs n) (hc : f.cfg = false) (hw : f.lo + f.width ≤ 32) (hact : f.addr ∉ actRegs n)
    (h : TargetStores r (actRegs n) ws (State.inc { s with lar := l } f) t) : Performs r f ws s t := by
  obtain ⟨ds, ls, hwords⟩ := h.words
  have hlar : t.lar = l := by rw [hwords.rest, State.inc_lar]
  have hinc : WordStores counterRegs [] [] { s with lar := l } (State.inc { s with lar := l } f) :=
    .inc _ f hc (mem_counterRegs hn hf) (List.Subset.refl _)
  refine ⟨hlar ▸ hhost, ?_, hwords.counted hact (State.fv_inc_self { s with lar := l } f hw)⟩
  rw [hlar]
  exact (TargetStores.of_still hinc).trans (h.mono (actRegs_subset_counterRegs hn) (List.Subset.refl _))

namespace Performs

variable {r : Req} {f : Fld} {ws : List (Nat × Codeword)} {s t : State} (h : Performs r f ws s t) (qs : List Req)
include h

theorem engineMoves : EngineMoves s { t with reqs := qs } := by
  obtain ⟨ds, ls, hw⟩ := h.stores.words
  refine ⟨?_, h.host, hw.live⟩
  conv_lhs => rw [hw.rest]
  rw [hw.rest]

theorem storesTarget {offs : List Nat} (hws : ∀ x ∈ ws, ∃ o ∈ offs, x.1 = s.targetPlace r o) : StoresTarget r offs s { t with reqs := qs } :=
  h.stores.storesTarget hws

theorem targetCode {vs ws' : List (Nat × Codeword)} {off : Nat} {x : DWord} (hw : ws = vs ++ s.targetCell r off x :: ws')
    (hne : ∀ y ∈ ws', y.1 ≠ s.targetPlace r off) : ({ t with reqs := qs } : State).targetCode r off = encodeWord x false :=
  h.stores.targetCode hw hne

theorem sameMemory (hws : ws = []) : SameMemory s { t with reqs := qs } := by
  obtain ⟨-, hstores, -⟩ := h
  subst hws
  unfold TargetStores at hstores
  split at hstores
  · exact ⟨fun a => by rw [hstores.dram]; rfl, fun a => by rw [hstores.larder]; rfl⟩
  · exact ⟨fun a => by rw [hstores.dram]; rfl, fun a => by rw [hstores.larder]; rfl⟩

end Performs

/-! ### Where an operation runs -/

theorem Req.engTile_lt {s : State} {op : Nat} {p : Port} {tag : BitVec 9} {r : Req} (hrun : Runs s op p tag r) : r.engTile < 32 := by
  obtain ⟨-, hport, -, -⟩ := hrun.request
  unfold Req.engTile
  split
  · have := p.isLt
    unfold homeTile
    omega
  · exact dramLoc_ch _ _

theorem Req.wordTile_lt (r : Req) : r.wordTile < 32 := by
  unfold Req.wordTile
  split
  · have := (scratchLine_range r.cfg r.addr).1
    omega
  · exact dramLoc_ch _ _

/-- R208: which addresses are cached is configuration. -/
theorem State.caches_congr {s t : State} (h : t.active = s.active) (r : Req) (n : Nat) : t.caches r n = s.caches r n := by
  unfold State.caches
  rw [h]

theorem State.cacheStep_uncached {s : State} {r : Req} {t : Nat} (h : s.caches r t = false) : s.cacheStep r t = (false, s) := by
  unfold State.cacheStep
  simp [h]

/-! ### Damage and poison -/

theorem poisonRd_mem_wordRegs {t : Nat} (ht : t < 32) : (F.ECC_CNT_POISON_RD_count t).addr ∈ wordRegs :=
  mem_wordRegs ht (by simp [eccWordRegs, F.ECC_CNT_POISON_RD_count, R.ECC_CNT_POISON_RD])

/-- R205, R230, R336: a poisoned word is counted and delivered. -/
theorem State.poisoned_stores {s : State} (hm : Mild s 504 544) {n t : Nat} (hn : n < 32) (ht : t < 32) (e : Nat) :
    WordStores (actRegs n) [] [] s ((s.countDamage n e false).deliverPoison t 1) := by
  have hk := actRegs_subset_counterRegs hn
  have hdamage : WordStores (actRegs n) [] [] s (s.countDamage n e false) :=
    .inc s (F.ENG_CNT_CDAMAGE_count n) rfl List.mem_cons_self hk
  have hread : WordStores wordRegs [] [] (s.countDamage n e false) ((s.countDamage n e false).addF (F.ECC_CNT_POISON_RD_count t) 1) :=
    .setF _ _ _ rfl (poisonRd_mem_wordRegs ht) wordRegs_subset_counterRegs
  exact hdamage.keep ((hread.raiseIntegrity ht (hdamage.mild hm) (k := 2) (by decide) t).mono (wordRegs_subset_actRegs n) hk)

/-! ### The engine path -/

/-- The state in which an operation of an engine of tile `t` has the Larder's words `use`. -/
def State.engineTaken (s : State) (r : Req) (t : Nat) (use : List LAcc) : State :=
  { s with lar := { s.lar with
      eng := s.lar.eng ++ use
      waits := s.lar.waits.filter fun w => !(w.port == r.port && w.tag == r.tag)
      turn := (use.map LAcc.at_).dedup.foldl (fun m b => natSet m b (t + 1)) s.lar.turn } }

/-- R296, R297: an operation that nothing stands in the way of goes on at once. -/
theorem State.enginePath_taken {s : State} {r : Req} {t : Nat} {use : List LAcc} (h : EngineFree s r t use) (e : Nat) (go : State → State) :
    s.enginePath r t e use go = go (s.engineTaken r t use) := by
  have hapart : (use.any fun x => s.lar.host.any x.meets) = false := by
    rw [List.any_eq_false]
    intro x hx
    simpa using fun y hy => h.2 x hx y hy
  simp only [State.enginePath, h.1, hapart, Bool.false_eq_true, if_false]
  rfl

/-- `z` is a state in which an operation on the target of `r` begins in `s`: it is counted in `f`, and target, requests and configuration
are as they were. -/
structure Begins (r : Req) (f : Fld) (s z : State) : Prop where
  place : ∀ off, z.targetPlace r off = s.targetPlace r off
  cell : ∀ off x, z.targetCell r off x = s.targetCell r off x
  code : ∀ off, z.targetCode r off = s.targetCode r off
  plain : ∀ off, s.targetPlain r off → z.targetPlain r off
  active : z.active = s.active
  reqs : z.reqs = s.reqs
  fv : ∀ g, g.addr ≠ f.addr → z.fv g = s.fv g

theorem State.targetCell_lar (s : State) (l : LarSt) (r : Req) (off : Nat) (x : DWord) :
    State.targetCell { s with lar := l } r off x = s.targetCell r off x := by
  unfold State.targetCell
  rfl

theorem State.targetCode_lar (s : State) (l : LarSt) (r : Req) (off : Nat) : State.targetCode { s with lar := l } r off = s.targetCode r off := by
  simp only [State.targetCode_eq]
  rfl

theorem State.targetPlain_lar {s : State} (l : LarSt) {r : Req} {off : Nat} (h : s.targetPlain r off) :
    State.targetPlain { s with lar := l } r off := h

/-- An operation that has its words of the Larder and is counted begins. -/
theorem State.begins (s : State) (r : Req) {t n : Nat} (use : List LAcc) {f : Fld} (hn : n < 32) (hc : f.cfg = false)
    (hf : f.addr ∈ tileCounterRegs n) : Begins r f s ((s.engineTaken r t use).inc f) := by
  have hinc : WordStores counterRegs [] [] (s.engineTaken r t use) ((s.engineTaken r t use).inc f) :=
    .inc _ f hc (mem_counterRegs hn hf) (List.Subset.refl _)
  have hstill := TargetStores.of_still (r := r) hinc
  exact ⟨fun off => (hstill.place off).trans rfl,
    fun off x => (hstill.cell off x).trans (State.targetCell_lar s _ r off x),
    fun off => (hstill.targetCode_kept fun y hy => nomatch hy).trans (State.targetCode_lar s _ r off),
    fun off hp => hstill.plain (State.targetPlain_lar _ hp), hinc.active, hinc.reqs,
    fun g hg => State.fv_inc_ne (s.engineTaken r t use) (.inl hg)⟩

/-- What such an operation then does to its target. -/
theorem Performs.of_begun {s : State} {r : Req} {t n : Nat} {use : List LAcc} {f : Fld} {ws : List (Nat × Codeword)} {u : State} (hn : n < 32)
    (hc : f.cfg = false) (hf : f.addr ∈ tileCounterRegs n) (hw : f.lo + f.width ≤ 32) (hact : f.addr ∉ actRegs n)
    (h : TargetStores r (actRegs n) ws ((s.engineTaken r t use).inc f) u) : Performs r f ws s u :=
  Performs.of_counted (s := s) (s.engineTaken r t use).lar rfl hn hf hc hw hact h

end Sys2Proof.Machine

namespace Sys2Proof.Machine

/-! ### CRD and CRDCLR -/

/-- A condition on what it was called with. -/
theorem TargetStores.when {r : Req} {as : List Nat} {ws : List (Nat × Codeword)} {s t : State} {c : Bool} {f : State → State}
    (h : TargetStores r as ws s t) (hf : c = true → WordStores as [] [] t (f t)) : TargetStores r as ws s (t.when c f) := by
  unfold State.when
  split
  · next hc => exact h.still (hf hc)
  · exact h

/-- What an operation that answers `OK` or `POISON` leaves behind. -/
theorem State.answer_ok (s : State) {r : Req} {a : Answer} (hd : r.discard = false) (ha : a.status < 6) :
    s.answer r a = { s with reqs := answered r a s.reqs } := State.answer_eq s hd (by omega) (by omega)

@[simp] theorem readAs_isPoison (d : Nat) (errs : List Nat) : (readAs d errs).isPoison = d.testBit 64 := Bool.or_false _

@[simp] theorem readAs_data (d : Nat) (errs : List Nat) : (readAs d errs).data = BitVec.ofNat 64 d := rfl

theorem readAs_info (d : Nat) (errs : List Nat) : (if ((readAs d errs).corr || false) = true then 1 else 0) = if errs = [] then 0 else 1 := by
  cases errs <;> rfl

/-- A word that the decoder can read, read for a change, and then stored anew. -/
theorem State.readWrite_ok {s : State} {r : Req} {off d : Nat} {errs : List Nat} (hp : s.targetPlain r off)
    (hdec : decodeWord (s.targetCode r off).toNat [] = .ok d errs false) (hm : Mild s 504 544) (c : Bool) (x : DWord) :
    ∃ u ws, s.readTarget r off c = (readAs d errs, u) ∧ TargetStores r wordRegs ws s (u.when c fun s => s.writeTarget r off x false) ∧
      (∀ y ∈ ws, y.1 = s.targetPlace r off) ∧ (c = false → errs = [] → ws = []) ∧
      (c = true → ∃ vs, ws = vs ++ [s.targetCell r off x]) := by
  obtain ⟨u, ws, hread, hstores, hws, hclean⟩ := State.readTarget_ok hp hdec hm c
  refine ⟨u, ?_⟩
  cases c with
  | false => exact ⟨ws, hread, hstores, hws, fun _ h => (hclean h).1, fun h => nomatch h⟩
  | true =>
    have hwrite := hstores.trans (State.writeTarget_stores (hstores.plain hp) (hstores.mild hm) x)
    rw [hstores.cell] at hwrite
    refine ⟨_, hread, hwrite, fun y hy => ?_, fun h => (nomatch h), fun _ => ⟨ws, rfl⟩⟩
    obtain hy | hy := List.mem_append.mp hy
    · exact hws y hy
    · rw [List.mem_singleton.mp hy]
      rfl

theorem not_mem_actRegs {n a : Nat} (hn : n < 32) (ha : a ∈ tileCounterRegs n) (hdamage : a ≠ R.ENG_CNT_CDAMAGE n)
    (hred : a ≠ R.ENG_CNT_POLRED n) : a ∉ actRegs n := by
  simp only [actRegs, List.mem_cons, not_or]
  exact ⟨hdamage, hred, tileCounter_not_mem_wordRegs hn ha⟩

theorem cupd_not_mem_actRegs {n : Nat} (hn : n < 32) : (F.ENG_CNT_CUPD_count n).addr ∉ actRegs n :=
  not_mem_actRegs hn List.mem_cons_self (by simp [F.ENG_CNT_CUPD_count, R.ENG_CNT_CDAMAGE]) (by simp [F.ENG_CNT_CUPD_count, R.ENG_CNT_POLRED])

section
variable {s : State} {r : Req} {d : Nat} {errs : List Nat} (hd : r.discard = false) (ht : r.engTile < 32) (hchk : s.engCheck r = none)
  (hfree : EngineFree s r r.engTile (s.engUse r)) (hcache : s.caches r r.engTile = false) (hplain : s.targetPlain r 0)
  (hdec : decodeWord (s.targetCode r 0).toNat [] = .ok d errs false) (hm : Mild s 504 544) (k : Nat)
include hd ht hchk hfree hcache hplain hdec hm

/-- R204, R205: a CRD or CRDCLR of a word in its memory that the decoder can read. -/
theorem State.crd_performs (clear : Bool) :
    ∃ z ws, s.crd r k clear =
        { z with reqs := answered r ⟨if d.testBit 64 then 1 else 0, if errs = [] then 0 else 1, 0, BitVec.ofNat 64 d, []⟩ s.reqs } ∧
      Performs r (F.ENG_CNT_CUPD_count r.engTile) ws s z ∧ (∀ y ∈ ws, y.1 = s.targetPlace r 0) ∧
      (clear = false → errs = [] → ws = []) ∧ (clear = true → ∃ vs, ws = vs ++ [s.targetCell r 0 0]) := by
  have hcupd : (F.ENG_CNT_CUPD_count r.engTile).addr ∈ tileCounterRegs r.engTile := List.mem_cons_self
  have hb := State.begins s r (t := r.engTile) (s.engUse r) ht rfl hcupd
  have hbegun : ∀ ws t, TargetStores r (actRegs r.engTile) ws _ t → Performs r (F.ENG_CNT_CUPD_count r.engTile) ws s t := fun ws t =>
    Performs.of_begun (t := r.engTile) (use := s.engUse r) ht rfl hcupd (Nat.le_refl 32) (cupd_not_mem_actRegs ht)
  simp only [State.crd, hchk, State.enginePath_taken hfree]
  generalize State.inc (s.engineTaken r r.engTile (s.engUse r)) (F.ENG_CNT_CUPD_count r.engTile) = z at hb hbegun ⊢
  have hmz : Mild z 504 544 := Mild.congr hm hb.active
  obtain ⟨u, ws, hread, hstores, hws, hnone, hlast⟩ := State.readWrite_ok (hb.plain 0 hplain) ((hb.code 0).symm ▸ hdec) hmz clear 0
  rw [State.cacheStep_uncached ((State.caches_congr hb.active r _).trans hcache), hread]
  have hact := (hstores.mono (wordRegs_subset_actRegs r.engTile) (actRegs_subset_counterRegs ht)).when (c := d.testBit 64)
    (f := fun s => (s.countDamage r.engTile (s.engineFor r.engTile k) false).deliverPoison r.wordTile 1)
    fun _ => State.poisoned_stores (hstores.mild hmz) ht r.wordTile_lt _
  obtain ⟨_, _, hwords⟩ := hact.words
  rw [hb.place] at hws
  rw [hb.cell] at hlast
  refine ⟨_, ws, ?_, hbegun ws _ hact, hws, hnone, hlast⟩
  rw [← hb.reqs, ← hwords.reqs]
  simp only [readAs_isPoison, readAs_data, readAs_info]
  exact State.answer_ok _ (a := ⟨_, _, _, _, _⟩) hd (show ite _ _ _ < 6 by split <;> decide)

end

end Sys2Proof.Machine

namespace Sys2Proof.Machine

/-! ### Counters add apart and are read -/

/-- A word with its poison, as the decoder gives it. -/
theorem decoded_word (x : DWord) (poison : Bool) :
    BitVec.ofNat 64 (x.toNat + if poison then 2 ^ 64 else 0) = x ∧ (x.toNat + if poison then 2 ^ 64 else 0).testBit 64 = poison := by
  have hx := x.isLt
  constructor
  · refine BitVec.eq_of_toNat_eq ?_
    rw [BitVec.toNat_ofNat]
    cases poison
    · exact Nat.mod_eq_of_lt hx
    · exact (Nat.add_mod_right _ _).trans (Nat.mod_eq_of_lt hx)
  · cases poison
    · exact Nat.testBit_lt_two_pow hx
    · rw [if_pos rfl, Nat.add_comm, Nat.testBit_two_pow_add_eq, Nat.testBit_lt_two_pow hx]
      rfl

/-- Settles O17: each field of the format is a number of its own, and a read word is answered before it is cleared. -/
theorem countersAddApartAndAreRead : Obligations.CountersAddApartAndAreRead := by
  unfold Obligations.CountersAddApartAndAreRead
  refine ⟨fun format policy old inc i lo w hi => ?_, fun p tag k s r x errs poison hchk hfree hcache hplain hdec _ hm => ?_⟩
  · exact ⟨bits_addCounter hi, mem_overflowed hi⟩
  obtain ⟨hx, hpoison⟩ := decoded_word x poison
  have performs := fun (ht : r.engTile < 32) (hd : r.discard = false) =>
    State.crd_performs hd ht hchk hfree hcache hplain hdec hm k
  rw [hx, hpoison] at performs
  refine ⟨fun hrun => ?_, fun hrun => ?_⟩
  · obtain ⟨z, ws, hcrd, hz, hws, hnone, -⟩ := performs (Req.engTile_lt hrun) hrun.2 false
    refine ⟨_, by show execCrd _ _ _ _ = _; simp only [execCrd, hrun.1]; exact congrArg _ hcrd, ?_⟩
    exact ⟨answers_iff.mpr rfl, hz.storesTarget _ fun y hy => ⟨0, List.mem_singleton_self 0, hws y hy⟩,
      fun he => hz.sameMemory _ (hnone rfl he), hz.counted, hz.engineMoves _⟩
  · obtain ⟨z, ws, hcrd, hz, hws, -, hlast⟩ := performs (Req.engTile_lt hrun) hrun.2 true
    obtain ⟨vs, hvs⟩ := hlast rfl
    refine ⟨_, by show execCrdclr _ _ _ _ = _; simp only [execCrdclr, hrun.1]; exact congrArg _ hcrd, ?_⟩
    exact ⟨answers_iff.mpr rfl, hz.storesTarget _ fun y hy => ⟨0, List.mem_singleton_self 0, hws y hy⟩,
      hz.targetCode _ hvs fun y hy => (nomatch hy), hz.counted, hz.engineMoves _⟩

end Sys2Proof.Machine

namespace Sys2Proof.Machine

/-! ### Policers mark within their buckets -/

/-- The two words of a policer lie at different places. -/
theorem State.targetPlace_pol_ne (s : State) {r : Req} (ha : r.addr % 16 = 0) : s.targetPlace r 8 ≠ s.targetPlace r 0 := by
  have hword : (r.addr + 8) / 8 % 8 ≠ (r.addr + 0) / 8 % 8 := by omega
  unfold State.targetPlace
  split
  · intro h
    exact hword (State.larderPlace_inj (scratchLine_range _ _).2 (scratchLine_range _ _).2 (Nat.mod_lt _ (by decide)) (Nat.mod_lt _ (by decide)) h).2
  · rw [dramLoc_block r.cfg (show (r.addr + 8) / 64 = (r.addr + 0) / 64 by omega)]
    exact fun h => hword (State.physWord_word_inj h)

/-- R70: a target that is not refused is aligned. -/
theorem State.engCheck_aligned {s : State} {r : Req} (h : s.engCheck r = none) : r.addr % alignOf r.op r.flags = 0 := by
  by_contra hodd
  simp [State.engCheck, misaligned, hodd] at h

theorem pol_mem_tileCounterRegs (n : Nat) : (F.ENG_CNT_POL_count n).addr ∈ tileCounterRegs n := by
  show R.ENG_CNT_POL n ∈ _
  simp [tileCounterRegs]

theorem pol_not_mem_actRegs {n : Nat} (hn : n < 32) : (F.ENG_CNT_POL_count n).addr ∉ actRegs n :=
  not_mem_actRegs hn (pol_mem_tileCounterRegs n) (by simp [F.ENG_CNT_POL_count, R.ENG_CNT_CDAMAGE])
    (by simp [F.ENG_CNT_POL_count, R.ENG_CNT_POLRED])

/-- A clean word of a target reads without a change of the state. -/
theorem State.readTarget_clean {s : State} {r : Req} {off : Nat} {x : DWord} (hp : s.targetPlain r off)
    (hdec : decodeWord (s.targetCode r off).toNat [] = .ok x.toNat [] false) (hm : Mild s 504 544) (rmw : Bool) :
    s.readTarget r off rmw = (⟨x, false, false, false⟩, s) := by
  obtain ⟨u, ws, hread, -, -, hclean⟩ := State.readTarget_ok hp hdec hm rmw
  obtain ⟨-, rfl⟩ := hclean rfl
  rw [hread, readAs, Nat.testBit_lt_two_pow x.isLt, BitVec.ofNat_toNat, BitVec.setWidth_eq]
  rfl

section
variable {s : State} {p : Port} {tag : BitVec 9} {r : Req} {x y : DWord} (hrun : Runs s opPOL p tag r) (hchk : s.engCheck r = none)
  (hfree : EngineFree s r r.engTile (s.engUse r)) (hx : TargetReads s r 0 x []) (hy : TargetReads s r 8 y []) (hm : Mild s 504 544) (k : Fin 4)
include hrun hchk hfree hx hy hm

/-- R226: what a POL on two clean words does. -/
theorem execPol_clean : ∃ z, Begins r (F.ENG_CNT_POL_count r.engTile) s z ∧
    (∀ ws t, TargetStores r (actRegs r.engTile) ws z t → Performs r (F.ENG_CNT_POL_count r.engTile) ws s t) ∧
    exec (.pol p tag k) s = .next (
      if badProfile (profileOf r.cfg (Policer.ofWords x y).profile) x then z.answer r { status := 7 }
      else
        let out := ((Policer.ofWords x y).refill (profileOf r.cfg (Policer.ofWords x y).profile) (r.frame / 8)).mark
            (profileOf r.cfg (Policer.ofWords x y).profile) (r.operand.toNat % 2 ^ 32) (r.flags % 4)
        (((z.writeTarget r 0 out.1.words.1 false).writeTarget r 8 out.1.words.2 false).when (out.2 == 2) fun s =>
          s.inc (F.ENG_CNT_POLRED_count r.engTile)).answer r { status := 0, info := out.2 }) := by
  have ht := Req.engTile_lt hrun
  have hpol : (F.ENG_CNT_POL_count r.engTile).addr ∈ tileCounterRegs r.engTile := pol_mem_tileCounterRegs _
  refine ⟨_, State.begins s r (t := r.engTile) (s.engUse r) ht rfl hpol, fun ws t =>
    Performs.of_begun (t := r.engTile) (use := s.engUse r) ht rfl hpol (Nat.le_refl 32) (pol_not_mem_actRegs ht), ?_⟩
  have hb := State.begins s r (t := r.engTile) (s.engUse r) ht (f := F.ENG_CNT_POL_count r.engTile) rfl hpol
  show execPol p tag k s = _
  simp only [execPol, hrun.1, hchk, State.enginePath_taken hfree]
  generalize State.inc (s.engineTaken r r.engTile (s.engUse r)) (F.ENG_CNT_POL_count r.engTile) = z at hb ⊢
  have hmz : Mild z 504 544 := Mild.congr hm hb.active
  rw [State.readTarget_clean (hb.plain 0 hx.1) ((hb.code 0).symm ▸ hx.2) hmz]
  dsimp only
  rw [State.readTarget_clean (hb.plain 8 hy.1) ((hb.code 8).symm ▸ hy.2) hmz]
  simp only [Bool.or_false, Bool.false_eq_true, if_false, Nat.zero_add]

/-- R221, R222, R226: a POL on two clean words: a bad profile is refused, another one gives a colour and stores the policer. -/
theorem execPol_performs (out : Policer × Nat)
    (hout : out = ((Policer.ofWords x y).refill (profileOf r.cfg (Policer.ofWords x y).profile) (r.frame / 8)).mark
      (profileOf r.cfg (Policer.ofWords x y).profile) (r.operand.toNat % 2 ^ 32) (r.flags % 4)) :
    ∃ z, if badProfile (profileOf r.cfg (Policer.ofWords x y).profile) x = true then
        exec (.pol p tag k) s = .next { z with reqs := answered r { status := 7 } s.reqs } ∧ Performs r (F.ENG_CNT_POL_count r.engTile) [] s z
      else exec (.pol p tag k) s = .next { z with reqs := answered r { status := 0, info := out.2 } s.reqs } ∧
        Performs r (F.ENG_CNT_POL_count r.engTile) [s.targetCell r 0 out.1.words.1, s.targetCell r 8 out.1.words.2] s z ∧
        (out.2 = 2 → Counted (F.ENG_CNT_POLRED_count r.engTile) s z) := by
  have ht := Req.engTile_lt hrun
  obtain ⟨z, hb, hbegun, hexec⟩ := execPol_clean hrun hchk hfree hx hy hm k
  have hmz : Mild z 504 544 := Mild.congr hm hb.active
  simp only [← hout] at hexec
  split
  · next hbad =>
    rw [if_pos hbad, State.answer_eq z hrun.2 (by decide) (by decide), hb.reqs] at hexec
    exact ⟨z, hexec, hbegun _ _ (.of_still (.refl (actRegs_subset_counterRegs ht) z))⟩
  · next hgood =>
    rw [if_neg hgood] at hexec
    have hfirst := State.writeTarget_stores (hb.plain 0 hx.1) hmz out.1.words.1
    have hboth := hfirst.trans (State.writeTarget_stores (hfirst.plain (hb.plain 8 hy.1)) (hfirst.mild hmz) out.1.words.2)
    rw [hfirst.cell, hb.cell, hb.cell] at hboth
    have hpolred : (F.ENG_CNT_POLRED_count r.engTile).addr ∈ tileCounterRegs r.engTile := by
      show R.ENG_CNT_POLRED _ ∈ _
      simp [tileCounterRegs]
    obtain ⟨_, _, hwords⟩ := hboth.words
    have hkept := hwords.fv (tileCounter_not_mem_wordRegs ht hpolred)
    generalize State.writeTarget _ r 8 _ _ = u at hexec hboth hwords hkept
    have hact := (hboth.mono (wordRegs_subset_actRegs r.engTile) (actRegs_subset_counterRegs ht)).when (c := out.2 == 2)
      (f := fun s => s.inc (F.ENG_CNT_POLRED_count r.engTile)) fun _ =>
        .inc _ _ rfl (List.mem_cons_of_mem _ List.mem_cons_self) (actRegs_subset_counterRegs ht)
    obtain ⟨_, _, hreqs⟩ := hact.words
    rw [State.answer_ok _ hrun.2 (Nat.succ_pos 5), hreqs.reqs, hb.reqs] at hexec
    refine ⟨_, hexec, hbegun _ _ hact, fun hred => ?_⟩
    have hold : u.fv (F.ENG_CNT_POLRED_count r.engTile) = s.fv (F.ENG_CNT_POLRED_count r.engTile) :=
      hkept.trans (hb.fv _ (by simp [F.ENG_CNT_POLRED_count, F.ENG_CNT_POL_count]))
    simp only [hred, State.when]
    exact (State.fv_inc_self u (F.ENG_CNT_POLRED_count r.engTile) (Nat.le_refl 32)).trans (by rw [hold])

end

/-- Settles O19: both words of a policer are read clean, and stored at their two places. -/
theorem policersMarkWithinTheirBuckets : Obligations.PolicersMarkWithinTheirBuckets := by
  unfold Obligations.PolicersMarkWithinTheirBuckets
  refine ⟨fun p tag k s r x y hrun hchk hfree hx hy hm => ?_, fun x f n => x.refill_bounds f n, fun x f b c => x.mark_takes f b c,
    fun x hprofile hstamp hcfrac hefrac hte htc => Policer.ofWords_words hprofile hstamp hcfrac hefrac hte htc⟩
  have haligned : r.addr % 16 = 0 := by
    have := State.engCheck_aligned hchk
    rwa [hrun.request.1] at this
  obtain ⟨z, hz⟩ := execPol_performs hrun hchk hfree hx hy hm k _ rfl
  refine ⟨fun hgood => ?_, fun hbad => ?_⟩
  · rw [if_neg (by simp [hgood])] at hz
    obtain ⟨hexec, hperforms, hred⟩ := hz
    refine ⟨_, hexec, ?_⟩
    rintro out rfl
    refine ⟨answers_iff.mpr rfl, hperforms.targetCode _ (vs := []) rfl fun y hy => ?_,
      hperforms.targetCode _ (vs := [_]) (off := 8) rfl fun y hy => (nomatch hy), hperforms.storesTarget _ fun y hy => ?_, hperforms.counted, hred,
      hperforms.engineMoves _⟩
    · rw [List.mem_singleton.mp hy]
      exact s.targetPlace_pol_ne haligned
    · simp only [List.mem_cons, List.not_mem_nil, or_false] at hy
      obtain rfl | rfl := hy
      · exact ⟨0, by simp, rfl⟩
      · exact ⟨8, by simp, rfl⟩
  · rw [if_pos hbad] at hz
    obtain ⟨hexec, hperforms⟩ := hz
    exact ⟨_, hexec, answers_iff.mpr rfl, hperforms.sameMemory _ rfl, hperforms.counted, hperforms.engineMoves _⟩

end Sys2Proof.Machine

namespace Sys2Proof.Machine

/-! ### Tables in canonical form -/

section
variable {α β : Type} [DecidableEq α] {d : Nat → α}

theorem Tab.lt_of_wfFrom {t : Tab α} {m k : Nat} {v : α} (h : Tab.wfFrom d (some m) t = true) (hm : (k, v) ∈ t) : m < k := by
  induction t generalizing m with
  | nil => nomatch hm
  | cons e t ih =>
    obtain ⟨k', v'⟩ := e
    simp only [Tab.wfFrom, Tab.above, Bool.and_eq_true, decide_eq_true_eq] at h
    obtain ⟨⟨hlt, -⟩, ht⟩ := h
    obtain heq | hm := List.mem_cons.mp hm
    · rw [(Prod.mk.inj heq).1]
      exact hlt
    · exact lt_trans hlt (ih ht hm)

theorem Tab.get_of_mem {t : Tab α} {lo : Option Nat} {k : Nat} {v : α} (h : Tab.wfFrom d lo t = true) (hm : (k, v) ∈ t) : Tab.get d t k = v := by
  induction t generalizing lo with
  | nil => nomatch hm
  | cons e t ih =>
    obtain ⟨k', v'⟩ := e
    simp only [Tab.wfFrom, Bool.and_eq_true] at h
    obtain heq | hm := List.mem_cons.mp hm
    · obtain ⟨rfl, rfl⟩ := Prod.mk.inj heq
      simp [Tab.get]
    · have := Tab.lt_of_wfFrom h.2 hm
      rw [Tab.get, if_neg (by omega), ih h.2 hm]

omit [DecidableEq α] in
theorem Tab.mem_of_get {t : Tab α} {k : Nat} (h : Tab.get d t k ≠ d k) : (k, Tab.get d t k) ∈ t := by
  induction t with
  | nil => exact absurd rfl h
  | cons e t ih =>
    obtain ⟨k', v'⟩ := e
    rw [Tab.get] at h ⊢
    split
    · next hk => exact hk ▸ List.mem_cons_self
    · next hk => exact List.mem_cons_of_mem _ (ih (by rwa [if_neg hk] at h))

/-- What is found first at a key is found there still when that entry changes. -/
theorem Tab.findSome?_insert {f : Nat × α → Option β} {k : Nat} {v : α} {y y' : β} {t : Tab α} {lo : Option Nat} (hwf : Tab.wfFrom d lo t = true)
    (hfind : t.findSome? f = some y) (hkey : ∀ e, f e = some y → e.1 = k) (hnew : f (k, v) = some y') :
    (Tab.insert k v t).findSome? f = some y' := by
  induction t generalizing lo with
  | nil => nomatch hfind
  | cons e t ih =>
    obtain ⟨k', v'⟩ := e
    simp only [Tab.wfFrom, Bool.and_eq_true] at hwf
    cases hf : f (k', v') with
    | some x =>
      rw [List.findSome?_cons, hf] at hfind
      obtain rfl : k' = k := hkey _ (hf.trans hfind)
      rw [Tab.insert, if_neg (lt_irrefl _), if_pos rfl, List.findSome?_cons, hnew]
    | none =>
      rw [List.findSome?_cons, hf] at hfind
      obtain ⟨e, he, hfe⟩ := List.exists_of_findSome?_eq_some hfind
      have hlt : k' < k := hkey e hfe ▸ Tab.lt_of_wfFrom hwf.2 he
      rw [Tab.insert, if_neg (by omega), if_neg (by omega), List.findSome?_cons, hf]
      exact ih hwf.2 hfind

end

/-! ### Lines of the counter cache -/

/-- The line of a burst in a set of the cache. -/
def lineIn (loc : Loc) (e : Nat × List CLine) : Option (Nat × CLine) :=
  if e.1 / 16384 = loc.ch then (e.2.find? fun l => decide (l.loc loc.ch = loc)).map fun l => (e.1, l) else none

theorem State.cached_eq (s : State) (loc : Loc) : s.cached loc = s.eng.cache.findSome? (lineIn loc) := rfl

theorem lineIn_eq_some {loc : Loc} {e : Nat × List CLine} {k : Nat} {l : CLine} (h : lineIn loc e = some (k, l)) :
    e.1 = k ∧ k / 16384 = loc.ch ∧ l.loc loc.ch = loc := by
  unfold lineIn at h
  split at h
  · next hch =>
    obtain ⟨l', hl', heq⟩ := Option.map_eq_some_iff.mp h
    obtain ⟨rfl, rfl⟩ := Prod.mk.inj heq
    exact ⟨rfl, hch, by simpa using List.find?_some hl'⟩
  · nomatch h

theorem State.cached_loc {s : State} {loc : Loc} {k : Nat} {l : CLine} (h : s.cached loc = some (k, l)) :
    k / 16384 = loc.ch ∧ l.loc loc.ch = loc := by
  obtain ⟨e, -, he⟩ := List.exists_of_findSome?_eq_some h
  exact (lineIn_eq_some he).2

/-- A line of the burst that is put first in its set is the one found. -/
theorem State.cached_setCacheSet {s : State} {loc : Loc} {k : Nat} {l l' : CLine} {ls : List CLine} (hwf : Tab.wf (fun _ => []) s.eng.cache = true)
    (h : s.cached loc = some (k, l)) (hl' : l'.loc loc.ch = loc) : (s.setCacheSet k (l' :: ls)).cached loc = some (k, l') := by
  have hnew : lineIn loc (k, l' :: ls) = some (k, l') := by
    simp [lineIn, (State.cached_loc h).1, hl']
  show (Tab.set (fun _ => []) s.eng.cache k (l' :: ls)).findSome? (lineIn loc) = _
  rw [Tab.set, if_neg (List.cons_ne_nil _ _)]
  exact Tab.findSome?_insert hwf h (fun e he => (lineIn_eq_some he).1) hnew

end Sys2Proof.Machine

namespace Sys2Proof.Machine

/-! ### A CADD64 that hits -/

/-- R209, R315: a clean word of a cached line. -/
theorem State.readMem_cached {s : State} {cfg : RegMap} {a k : Nat} {l : CLine} {x : DWord} (h : s.cached (dramLoc cfg a) = some (k, l))
    (hdec : decodeWord (l.words.getD (a / 8 % 8) 0).toNat [] = .ok x.toNat [] false) (ctx : ReadCtx) :
    s.readMem cfg a ctx = (⟨x, false, false, false⟩, s) := by
  simp only [State.readMem, h, State.readCached, State.readBuffer, hdec, Nat.testBit_lt_two_pow x.isLt, BitVec.ofNat_toNat, BitVec.setWidth_eq]
  rfl

/-- The line `l` with a clean word of it changed. -/
def CLine.put (l : CLine) (w : Nat) (x : DWord) : CLine := { l with words := l.words.set w (encodeWord x false), dirty := true }

/-- A word of the line that is first in its set. -/
theorem State.putLine_head {s : State} {k : Nat} {l : CLine} {ls : List CLine} (h : s.cacheSet k = l :: ls) (w : Nat) (x : DWord) :
    ∃ ls', s.putLine k l w (encodeWord x false) true = s.setCacheSet k (l.put w x :: ls') := by
  refine ⟨ls.map fun y => if y.loc 0 = l.loc 0 then { y with words := y.words.set w (encodeWord x false), dirty := y.dirty || true } else y, ?_⟩
  rw [State.putLine, h, List.map_cons, if_pos rfl, Bool.or_true]
  rfl

theorem State.wf_setCacheSet {s : State} (h : Tab.wf (fun _ => []) s.eng.cache = true) (k : Nat) (ls : List CLine) :
    Tab.wf (fun _ => []) (s.setCacheSet k ls).eng.cache = true := Tab.wf_set (fun _ => []) s.eng.cache k ls h

theorem State.cacheSet_setCacheSet (s : State) (k : Nat) (ls : List CLine) : (s.setCacheSet k ls).cacheSet k = ls :=
  Tab.get_set_self (fun _ => []) s.eng.cache k ls

/-- R210: a hit counts, moves the line to the front and opens the slots of the request. -/
theorem State.cacheStep_hit {s : State} {r : Req} {t k : Nat} {l : CLine} (hcaches : s.caches r t = true)
    (hcached : s.cached (dramLoc r.cfg r.addr) = some (k, l)) :
    s.cacheStep r t = (false, ((s.inc (F.ENG_CNT_CHIT_count t)).touchLine k l).release r fun _ => true) := by
  simp [State.cacheStep, hcaches, hcached]

/-- R208: only targets in DRAM are cached. -/
theorem State.caches_dram {s : State} {r : Req} {t : Nat} (h : s.caches r t = true) : isL r.op r.flags = false := by
  simp only [State.caches, Bool.and_eq_true, Bool.not_eq_true'] at h
  exact h.1.1.1

/-- What the counting of an operation that hits leaves. -/
def State.hitCounted (s : State) (r : Req) : State :=
  ((s.engineTaken r r.engTile (s.engUse r)).inc (F.ENG_CNT_CUPD_count r.engTile)).inc (F.ENG_CNT_CHIT_count r.engTile)

theorem LiveBut.inc (s : State) (f : Fld) (h : f.cfg = false) : LiveBut [f.addr] s (s.inc f) := by
  rw [State.inc_live s f h]
  exact fun a ha => RegMap.val_setF_ne _ _ _ fun heq => ha (heq ▸ List.mem_singleton_self _)

theorem State.hitCounted_rest (s : State) (r : Req) :
    s.hitCounted r = { s with live := (s.hitCounted r).live, lar := (s.hitCounted r).lar } := rfl

theorem State.hitCounted_live (s : State) (r : Req) : LiveBut [R.ENG_CNT_CUPD r.engTile, R.ENG_CNT_CHIT r.engTile] s (s.hitCounted r) := by
  have hupd := LiveBut.inc (s.engineTaken r r.engTile (s.engUse r)) (F.ENG_CNT_CUPD_count r.engTile) rfl
  have hhit := LiveBut.inc ((s.engineTaken r r.engTile (s.engUse r)).inc (F.ENG_CNT_CUPD_count r.engTile)) (F.ENG_CNT_CHIT_count r.engTile) rfl
  exact hupd.trans hhit (List.cons_subset_cons _ (List.nil_subset _)) (List.subset_cons_self _ _)

theorem State.hitCounted_counted (s : State) (r : Req) : Counted (F.ENG_CNT_CHIT_count r.engTile) s (s.hitCounted r) := by
  have hother := State.fv_inc_ne (s.engineTaken r r.engTile (s.engUse r)) (f := F.ENG_CNT_CUPD_count r.engTile)
    (g := F.ENG_CNT_CHIT_count r.engTile) (.inl (by simp [F.ENG_CNT_CUPD_count, F.ENG_CNT_CHIT_count]))
  have hself := State.fv_inc_self ((s.engineTaken r r.engTile (s.engUse r)).inc (F.ENG_CNT_CUPD_count r.engTile))
    (F.ENG_CNT_CHIT_count r.engTile) (Nat.le_refl 32)
  rw [hother] at hself
  exact hself

section
variable {s : State} {r : Req} {k : Nat} {l : CLine} {x : DWord} (hL : isL r.op r.flags = false)
  (hcached : s.cached (dramLoc r.cfg r.addr) = some (k, l))
include hL hcached

/-- R209: a target whose line is cached is read there. -/
theorem State.readTarget_cached (hdec : decodeWord (l.words.getD (r.addr / 8 % 8) 0).toNat [] = .ok x.toNat [] false) (rmw : Bool) :
    s.readTarget r 0 rmw = (⟨x, false, false, false⟩, s) := by
  rw [State.readTarget, if_neg (by simp [hL])]
  exact State.readMem_cached hcached hdec _

/-- R209: a target whose line is cached is written there. -/
theorem State.writeTarget_cached {ls : List CLine} (hset : s.cacheSet k = l :: ls) (v : DWord) :
    ∃ ls', s.writeTarget r 0 v false = s.setCacheSet k (l.put (r.addr / 8 % 8) v :: ls') := by
  obtain ⟨ls', hput⟩ := State.putLine_head hset (r.addr / 8 % 8) v
  refine ⟨ls', ?_⟩
  rw [State.writeTarget, if_neg (by simp [hL]), State.writeMem, Nat.add_zero, hcached]
  exact hput

end

section
variable {s : State} {r : Req} {k : Nat} {l : CLine} {x : DWord} (hd : r.discard = false)
  (hchk : s.engCheck r = none) (hfree : EngineFree s r r.engTile (s.engUse r)) (hcaches : s.caches r r.engTile = true)
  (hwf : Tab.wf (fun _ => []) s.eng.cache = true) (hcached : s.cached (dramLoc r.cfg r.addr) = some (k, l))
  (hdec : decodeWord (l.words.getD (r.addr / 8 % 8) 0).toNat [] = .ok x.toNat [] false)
  (hfits : (addCounter 0 (r.flags % 4) x r.operand).2 = []) (e : Nat)
include hd hchk hfree hcaches hwf hcached hdec hfits

/-- R202, R209: it answers the sum and puts it in the line. -/
theorem State.cadd_hit : ∃ ls tiles, s.cadd r e 0 =
    { s.hitCounted r with
      eng := ((s.touchLine k l).setCacheSet k (l.put (r.addr / 8 % 8) (x + r.operand) :: ls)).eng
      tiles := tiles
      reqs := answered r { status := 0, result := x + r.operand } s.reqs } := by
  have hL := State.caches_dram hcaches
  have hfirst : (s.touchLine k l).cached (dramLoc r.cfg r.addr) = some (k, l) := State.cached_setCacheSet hwf hcached (State.cached_loc hcached).2
  have hset : (s.touchLine k l).cacheSet k = _ := State.cacheSet_setCacheSet s k _
  have hstep : ((s.engineTaken r r.engTile (s.engUse r)).inc (F.ENG_CNT_CUPD_count r.engTile)).cacheStep r r.engTile =
      (false, ((s.hitCounted r).touchLine k l).release r fun _ => true) := State.cacheStep_hit hcaches hcached
  obtain ⟨u, hu, hrel⟩ : ∃ u, ((s.hitCounted r).touchLine k l).release r (fun _ => true) = u ∧
      u = { (s.hitCounted r).touchLine k l with tiles := u.tiles } := ⟨_, rfl, State.release_eq _ r _⟩
  have hueng : u.eng = (s.touchLine k l).eng := by rw [hrel]; rfl
  have hucached : u.cached (dramLoc r.cfg r.addr) = some (k, l) := by rwa [State.cached_eq, hueng]
  have huset := (show u.cacheSet k = (s.touchLine k l).cacheSet k by rw [State.cacheSet, hueng]; rfl).trans hset
  obtain ⟨ls, hwrite⟩ := State.writeTarget_cached hL hucached huset (x + r.operand)
  simp only [State.cadd, hchk, State.enginePath_taken hfree, hstep, hu, State.readTarget_cached hL hucached hdec, Bool.false_eq_true, if_false,
    addCounter_fits hfits, hfits, hwrite, List.isEmpty_nil, if_true, Bool.or_false]
  rw [State.answer_ok _ hd (Nat.succ_pos 5)]
  refine ⟨ls, u.tiles, ?_⟩
  simp only [State.setCacheSet, hueng]
  rw [hrel]
  rfl

/-- R208: neither memory changes, and the line becomes dirty. -/
theorem State.cadd_hit_moves : ∃ t, s.cadd r e 0 = t ∧ Answers s t r { status := 0, result := x + r.operand } ∧ SameMemory s t ∧
    (∃ l', t.cached (dramLoc r.cfg r.addr) = some (k, l') ∧ l'.dirty = true ∧
      l'.words = l.words.set (r.addr / 8 % 8) (encodeWord (x + r.operand) false)) ∧
    Counted (F.ENG_CNT_CHIT_count r.engTile) s t ∧
    t = { s with reqs := t.reqs, live := t.live, eng := { s.eng with cache := t.eng.cache }, lar := t.lar, tiles := t.tiles } ∧
    t.lar.host = s.lar.host ∧ LiveBut [R.ENG_CNT_CUPD r.engTile, R.ENG_CNT_CHIT r.engTile] s t := by
  obtain ⟨ls, tiles, hcadd⟩ := State.cadd_hit hd hchk hfree hcaches hwf hcached hdec hfits e
  have hloc := (State.cached_loc hcached).2
  have hfirst : (s.touchLine k l).cached (dramLoc r.cfg r.addr) = some (k, l) := State.cached_setCacheSet hwf hcached hloc
  have hline := State.cached_setCacheSet (s := s.touchLine k l) (l' := l.put (r.addr / 8 % 8) (x + r.operand)) (ls := ls)
    (State.wf_setCacheSet hwf k _) hfirst hloc
  have hlive := s.hitCounted_live r
  have hcounted := s.hitCounted_counted r
  have hrest := s.hitCounted_rest r
  have hhost : (s.hitCounted r).lar.host = s.lar.host := rfl
  generalize s.hitCounted r = z at *
  refine ⟨_, hcadd, answers_iff.mpr rfl, ⟨fun _ => ?_, fun _ => ?_⟩, ⟨_, hline, rfl, rfl⟩, hcounted, ?_, hhost, hlive⟩
  · show memByte z.dram _ = _
    rw [hrest]
  · show memByte z.larder _ = _
    rw [hrest]
  · conv_lhs => rw [hrest]
    rfl

end

end Sys2Proof.Machine

namespace Sys2Proof.Machine

/-! ### The write-back of a line -/

/-- `t` is `s` after writes to the array; where nothing of the device is under test, the Larder is as it was (R289, R404). -/
def Writes (s t : State) : Prop :=
  ∃ ds ls, WordStores wordRegs ds ls s t ∧ (s.bst.held = [] → s.bst.runs = [] → ls = [])

namespace Writes

variable {s t u : State}

theorem refl (s : State) : Writes s s := ⟨[], [], .refl wordRegs_subset_counterRegs s, fun _ _ => rfl⟩

theorem of_dram {ds : List (Nat × Codeword)} (h : DramStores ds s t) : Writes s t := ⟨ds, [], .of_dram h, fun _ _ => rfl⟩

theorem trans (h : Writes s t) (h' : Writes t u) : Writes s u := by
  obtain ⟨ds, ls, hw, hls⟩ := h
  obtain ⟨ds', ls', hw', hls'⟩ := h'
  have hbst : t.bst = s.bst := by rw [hw.rest]
  refine ⟨_, _, hw.trans hw', fun hheld hruns => ?_⟩
  rw [hls hheld hruns, hls' (hbst ▸ hheld) (hbst ▸ hruns)]
  rfl

theorem foldl {α : Type} {f : State → α → State} (xs : List α) (hf : ∀ t a, a ∈ xs → Writes s t → Writes t (f t a)) (h : Writes s t) :
    Writes s (xs.foldl f t) := by
  induction xs generalizing t with
  | nil => exact h
  | cons a xs ih => exact ih (fun u b hb => hf u b (List.mem_cons_of_mem _ hb)) (h.trans (hf t a List.mem_cons_self h))

section
variable (h : Writes s t)
include h

theorem mild {lo hi : Nat} (hm : Mild s lo hi) : Mild t lo hi := by
  obtain ⟨ds, ls, hw, -⟩ := h
  exact hw.mild hm

theorem unarmed (ha : s.fb F.ECC_INJ_CTL_arm = false) : t.fb F.ECC_INJ_CTL_arm = false := by
  obtain ⟨ds, ls, hw, -⟩ := h
  exact hw.unarmed ha

end

end Writes

/-- R404: with nothing under test, no write goes to a copy of its row. -/
theorem State.mirrorOf_untested {s : State} (hheld : s.bst.held = []) (hruns : s.bst.runs = []) (ch bank row col : Nat) :
    s.mirrorOf ch bank row col = none := by
  simp [State.mirrorOf, State.copyOf, State.isBorrowed, hheld, hruns]

/-- R289: a word of a slot goes to the Larder. -/
theorem State.putSlot_stores (s : State) (n k : Nat) (c : Codeword) (mark : Bool) : ∃ ls, WordStores wordRegs [] ls s (s.putSlot n k c mark) := by
  have hput : ∃ ls, WordStores wordRegs [] ls s (s.putLarder (slotLine n (k / 8)) (k % 8) c) := ⟨_, .larderPut s _ _ _ _ _⟩
  obtain ⟨ls, hput⟩ := hput
  unfold State.putSlot
  cases mark with
  | false => exact ⟨_, hput⟩
  | true => exact ⟨_, hput.trans (.larderPut _ _ _ _ _ _)⟩

section
variable {s : State} (ha : s.fb F.ECC_INJ_CTL_arm = false) (l : Loc) (w : Nat)
include ha

/-- R313, R320, R329, R404: a codeword goes to the probe buffer, or to the array and to the copies of its row. -/
theorem State.putDram_writes (c : Codeword) : Writes s (s.putDram l w c) := by
  unfold State.putDram
  rw [State.inject_unarmed ha]
  dsimp only
  split
  · exact .of_dram (.modEcc s l.ch (fun _ => rfl) fun e => by cases e.probe <;> rfl)
  · have hwb : DramStores [] s (s.modEcc l.ch fun e => { e with wb := e.wb.filter (· ≠ (l.bank, l.row, l.col)) }) :=
      .modEcc s l.ch (fun _ => rfl) fun _ => rfl
    have hput : ∀ t i, Writes s t → Writes s (t.dramPut i c) := fun t i ht => ht.trans (.of_dram (.dramPut t i c))
    have hslot : ∀ t n, Writes s t → t.mirrorOf l.ch l.bank (t.physRow l.ch l.bank l.row) l.col = some n →
        Writes s (t.putSlot n (8 * l.col + w) c true) := fun t n ht hn => by
      obtain ⟨ls, hstores⟩ := t.putSlot_stores n (8 * l.col + w) c true
      exact ht.trans ⟨[], ls, hstores, fun hheld hruns => by rw [State.mirrorOf_untested hheld hruns] at hn; nomatch hn⟩
    split
    · next n hn =>
      refine hslot _ n ?_ hn
      split
      · exact hput _ _ (hput _ _ (.of_dram hwb))
      · exact hput _ _ (.of_dram hwb)
    · split
      · exact hput _ _ (hput _ _ (.of_dram hwb))
      · exact hput _ _ (.of_dram hwb)

variable (hch : l.ch < 32) (hm : Mild s 504 544)
include hch hm

/-- R313, R316. -/
theorem State.writeDram_writes (x : DWord) (poison : Bool) : Writes s (s.writeDram l w x poison) := by
  have hput := State.putDram_writes ha l w (encodeWord x poison)
  exact hput.trans (.of_dram (State.leaveRecs_keeps hch (hput.mild hm) _ _ _ _))

end

end Sys2Proof.Machine

namespace Sys2Proof.Machine

/-- The words of a line that is written back. -/
def State.writeWords (s : State) (t : Nat) (l : CLine) : State :=
  l.words.zipIdx.foldl (fun (s : State) w =>
    match decodeWord w.1.toNat [] with
    | .ok x _ _ => s.writeDram (l.loc t) w.2 (BitVec.ofNat 64 x) (x.testBit 64)
    | .bad =>
      ((s.inc (F.ECC_CNT_LUE_count (t / 8))).raise (Src.engine 3 (t / 8)) (s.engineOf t)).writeDram (l.loc t) w.2
        (BitVec.ofNat 64 w.1.toNat) true) s

theorem State.writeBack_eq (s : State) (t : Nat) (l : CLine) : s.writeBack t l = (s.writeWords t l).inc (F.ENG_CNT_CWB_count t) := rfl

/-- R213, R232, R311: an uncorrectable word is reported, and goes back poisoned. -/
theorem State.writeWords_writes {s : State} {t : Nat} (ht : t < 32) (ha : s.fb F.ECC_INJ_CTL_arm = false) (hue : Mild s 304 336)
    (hm : Mild s 504 544) (l : CLine) : Writes s (s.writeWords t l) := by
  refine Writes.foldl _ (fun u w _ hu => ?_) (.refl s)
  have hlue : (F.ECC_CNT_LUE_count (t / 8)).addr ∈ wordRegs :=
    List.mem_append_left _ (List.mem_append_left _ (List.mem_append_right _ (List.mem_flatMap.mpr
      ⟨t / 8, List.mem_range.mpr (by omega), List.mem_cons_of_mem _ List.mem_cons_self⟩)))
  split
  · exact State.writeDram_writes (hu.unarmed ha) (l.loc t) w.2 ht (hu.mild hm) _ _
  · have hinc := Writes.of_dram (.inc u (F.ECC_CNT_LUE_count (t / 8)) rfl hlue)
    have hraise := hinc.trans (.of_dram (.of_reported (State.raise_reported _ (Src.engine 3 (t / 8)) (u.engineOf t)
      ((hu.trans hinc).mild hue _ (by unfold Src.engine; omega) (by unfold Src.engine; omega)))))
    exact hraise.trans (State.writeDram_writes ((hu.trans hraise).unarmed ha) (l.loc t) w.2 ht ((hu.trans hraise).mild hm) _ _)

/-! #### A burst that no copy follows -/

/-- What is written to a burst goes to the array alone. -/
structure State.Unmirrored (s : State) (l : Loc) : Prop where
  held : s.heldJob l = none
  row : s.mirrorRow l.ch l.bank l.row l.col = none
  slot : s.mirrorOf l.ch l.bank (s.physRow l.ch l.bank l.row) l.col = none

theorem DramStores.unmirrored {ws : List (Nat × Codeword)} {s t : State} (h : DramStores ws s t) {l : Loc} (hl : s.Unmirrored l) :
    t.Unmirrored l := by
  obtain ⟨hheld, hrow, hslot⟩ := hl
  have hbst : t.bst = s.bst := by rw [h.rest]
  refine ⟨?_, ?_, ?_⟩
  · have hp := h.probe l.ch
    unfold State.heldJob at hheld ⊢
    cases hs : (s.eccOf l.ch).probe <;> cases ht : (t.eccOf l.ch).probe <;> simp_all
  · unfold State.mirrorRow State.outlived at *
    simp only [h.spareAt, show t.reqs = s.reqs by rw [h.rest], show t.remapRuns = s.remapRuns by rw [h.rest]]
    exact hrow
  · unfold State.mirrorOf State.copyOf State.isBorrowed State.slotOf at *
    rw [h.physRow, hbst, show t.epoch = s.epoch by rw [h.rest]]
    exact hslot

section
variable {s : State} {l : Loc} (hl : s.Unmirrored l) (ha : s.fb F.ECC_INJ_CTL_arm = false)
include hl ha

theorem State.putDram_unmirrored (w : Nat) (c : Codeword) : s.putDram l w c =
    (s.modEcc l.ch fun e => { e with wb := e.wb.filter (· ≠ (l.bank, l.row, l.col)) }).dramPut (s.physWord l w) c := by
  have hwb : DramStores [] s (s.modEcc l.ch fun e => { e with wb := e.wb.filter (· ≠ (l.bank, l.row, l.col)) }) :=
    .modEcc s l.ch (fun _ => rfl) fun _ => rfl
  obtain ⟨-, hrow, hslot⟩ := (hwb.trans (.dramPut _ (s.physWord l w) c)).unmirrored hl
  simp only [State.putDram, State.inject_unarmed ha, hl.held, hwb.physWord, hrow, hslot]

variable (hch : l.ch < 32) (hm : Mild s 504 544)
include hch hm

/-- R316. -/
theorem State.writeDram_stores (w : Nat) (x : DWord) : DramStores [s.dramCell l w x] s (s.writeDram l w x false) := by
  have hwb : DramStores [] s (s.modEcc l.ch fun e => { e with wb := e.wb.filter (· ≠ (l.bank, l.row, l.col)) }) :=
    .modEcc s l.ch (fun _ => rfl) fun _ => rfl
  have hput := hwb.trans (.dramPut _ (s.physWord l w) (encodeWord x false))
  rw [hwb.lostMask] at hput
  rw [State.writeDram, State.putDram_unmirrored hl ha]
  exact hput.keep (State.leaveRecs_keeps hch (hput.mild hm) _ _ _ _)

end

/-- R213: a line whose words hold no error goes back as it is. -/
theorem State.writeWords_clean {s : State} {t : Nat} {l : CLine} {x : Nat → DWord} (ht : t < 32) (hl : s.Unmirrored (l.loc t))
    (ha : s.fb F.ECC_INJ_CTL_arm = false) (hm : Mild s 504 544)
    (hx : ∀ w, w < l.words.length → decodeWord (l.words.getD w 0).toNat [] = .ok (x w).toNat [] false) :
    DramStores (l.words.zipIdx.map fun w => s.dramCell (l.loc t) w.2 (x w.2)) s (s.writeWords t l) := by
  rw [List.map_eq_flatMap]
  refine DramStores.foldl l.words.zipIdx fun ws u w hw hu => ?_
  have hlt := List.snd_lt_of_mem_zipIdx hw
  have hword : w.1 = l.words.getD w.2 0 := by
    obtain ⟨hi, heq⟩ := List.getElem?_eq_some_iff.mp (List.mem_zipIdx_iff_getElem?.mp hw)
    exact heq.symm.trans (List.getD_eq_getElem _ _ hi).symm
  have hstores := State.writeDram_stores (hu.unmirrored hl) (hu.unarmed ha) ht (hu.mild hm) w.2 (x w.2)
  rw [hword, hx _ hlt]
  simpa only [Nat.testBit_lt_two_pow (x w.2).isLt, BitVec.ofNat_toNat, BitVec.setWidth_eq, hu.dramCell] using hstores

end Sys2Proof.Machine

namespace Sys2Proof.Machine

/-! ### CFLUSH -/

/-- `t` is `s` after write-backs of cached lines. -/
structure Flushes (s t : State) : Prop where
  rest : t = { s with live := t.live, dram := t.dram, larder := t.larder, ecc := t.ecc, vrt := t.vrt, evq := t.evq, evLost := t.evLost
                      flt := t.flt, tiles := t.tiles, eng := { s.eng with cache := t.eng.cache } }
  live : LiveBut counterRegs s t
  larder : s.bst.held = [] → s.bst.runs = [] → t.larder = s.larder

namespace Flushes

variable {s t u : State}

theorem refl (s : State) : Flushes s s := ⟨rfl, LiveBut.refl _ s, fun _ _ => rfl⟩

theorem trans (h : Flushes s t) (h' : Flushes t u) : Flushes s u where
  rest := by rw [h'.rest, h.rest]
  live := h.live.trans h'.live (List.Subset.refl _) (List.Subset.refl _)
  larder hheld hruns := by
    have hbst : t.bst = s.bst := by rw [h.rest]
    exact (h'.larder (hbst ▸ hheld) (hbst ▸ hruns)).trans (h.larder hheld hruns)

theorem of_words {ds ls : List (Nat × Codeword)} (h : WordStores counterRegs ds ls s t)
    (hls : s.bst.held = [] → s.bst.runs = [] → ls = []) : Flushes s t := by
  refine ⟨?_, h.live, fun hheld hruns => by rw [h.larder, hls hheld hruns]; rfl⟩
  conv_lhs => rw [h.rest]
  rw [h.rest]

section
variable (h : Flushes s t)
include h

theorem active : t.active = s.active := by rw [h.rest]

theorem reqs : t.reqs = s.reqs := by rw [h.rest]

theorem mild {lo hi : Nat} (hm : Mild s lo hi) : Mild t lo hi := Mild.congr hm h.active

theorem unarmed (ha : s.fb F.ECC_INJ_CTL_arm = false) : t.fb F.ECC_INJ_CTL_arm = false := by
  have hfv : t.fv F.ECC_INJ_CTL_arm = s.fv F.ECC_INJ_CTL_arm :=
    State.fv_congr (h.live _ fun hm => (counterRegs_mod hm).2.2 rfl) h.active
  rwa [State.fb, hfv]

theorem engineMoves (qs : List Req) : EngineMoves s { t with reqs := qs } := by
  refine ⟨?_, by rw [h.rest], h.live⟩
  conv_lhs => rw [h.rest]
  rw [h.rest]

end

end Flushes

theorem State.cacheSet_setCacheSet_ne (s : State) {k j : Nat} (ls : List CLine) (h : j ≠ k) : (s.setCacheSet k ls).cacheSet j = s.cacheSet j :=
  Tab.get_set_ne (fun _ => []) s.eng.cache ls h

/-- The line of an entry becomes clean. -/
def State.cleaned (s : State) (e : Nat × CLine) : State :=
  s.setCacheSet e.1 ((s.cacheSet e.1).map fun x => if x.loc 0 = e.2.loc 0 then { x with dirty := false } else x)

/-- R211: a line becomes clean and is written back in an open slot. -/
def State.flushLine (id : WorkFor) (s : State) (e : Nat × CLine) : State :=
  ((s.cleaned e).writeBack (e.1 / 16384) e.2).queueWork 1 id (e.2.loc (e.1 / 16384)) true

theorem State.cleanLines_eq (s : State) (id : WorkFor) (p : Nat → CLine → Bool) :
    s.cleanLines id p = (s.dirtyLines p).foldl (State.flushLine id) s := rfl

theorem flushBusy_mem_counterRegs {t : Nat} (ht : t < 32) : (F.ENG_CTL_flush_busy t).addr ∈ counterRegs := by
  unfold counterRegs
  exact List.mem_append_left _ (List.mem_append_left _ (List.mem_append_right _ (List.mem_map_of_mem (List.mem_range.mpr ht))))

theorem State.queueWork_rest (s : State) (rank : Nat) (id : WorkFor) (l : Loc) (wr : Bool) :
    s.queueWork rank id l wr = { s with tiles := (s.queueWork rank id l wr).tiles, live := (s.queueWork rank id l wr).live } := by
  unfold State.queueWork
  split
  · rw [State.showFlush, State.setF_live _ _ _ rfl]
    rfl
  · rfl

/-- R230: it shows in flush_busy alone. -/
theorem State.queueWork_live (s : State) (rank : Nat) (id : WorkFor) (l : Loc) (wr : Bool) :
    LiveBut [(F.ENG_CTL_flush_busy l.ch).addr] s (s.queueWork rank id l wr) := by
  unfold State.queueWork
  split
  · rw [State.showFlush, State.setF_live _ _ _ rfl]
    exact fun a ha => RegMap.val_setF_ne _ _ _ fun heq => ha (heq ▸ List.mem_singleton_self _)
  · exact LiveBut.refl _ s

section
variable {s : State} {e : Nat × CLine} {ds ls : List (Nat × Codeword)} (ht : e.1 / 16384 < 32)
  (h : WordStores wordRegs ds ls (s.cleaned e) ((s.cleaned e).writeWords (e.1 / 16384) e.2)) (id : WorkFor)
include ht h

/-- A line whose words go back is counted and is flushed. -/
theorem State.flushLine_flushes (hls : s.bst.held = [] → s.bst.runs = [] → ls = []) : Flushes s (State.flushLine id s e) := by
  have hclean : Flushes s (s.cleaned e) := ⟨rfl, LiveBut.refl _ s, fun _ _ => rfl⟩
  have hcwb : (F.ENG_CNT_CWB_count (e.1 / 16384)).addr ∈ counterRegs := mem_counterRegs ht (by
    show R.ENG_CNT_CWB _ ∈ _
    simp [tileCounterRegs])
  have hback := (h.mono wordRegs_subset_counterRegs (List.Subset.refl _)).keep (.inc _ _ rfl hcwb (List.Subset.refl _))
  rw [← State.writeBack_eq] at hback
  have hrest := State.queueWork_rest ((s.cleaned e).writeBack (e.1 / 16384) e.2) 1 id (e.2.loc (e.1 / 16384)) true
  have hlive := State.queueWork_live ((s.cleaned e).writeBack (e.1 / 16384) e.2) 1 id (e.2.loc (e.1 / 16384)) true
  rw [State.flushLine]
  generalize State.queueWork _ 1 id _ true = t at hrest hlive ⊢
  refine (hclean.trans (.of_words hback hls)).trans ⟨?_, fun a ha => hlive a fun hm => ha ?_, fun _ _ => by rw [hrest]⟩
  · conv_lhs => rw [hrest]
    rw [hrest]
  · rw [List.mem_singleton.mp hm]
    exact flushBusy_mem_counterRegs ht

omit ht in
theorem State.flushLine_cache : (State.flushLine id s e).eng = (s.cleaned e).eng := by
  rw [State.flushLine, State.queueWork_rest, State.writeBack_eq, State.inc_live _ _ rfl, h.rest]

end

/-! #### No line stays dirty -/

theorem State.mem_dirtyLines {s : State} (hwf : Tab.wf (fun _ => []) s.eng.cache = true) {p : Nat → CLine → Bool} {k : Nat} {l : CLine} :
    (k, l) ∈ s.dirtyLines p ↔ l ∈ s.cacheSet k ∧ l.dirty = true ∧ p (k / 16384) l = true := by
  simp only [State.dirtyLines, List.mem_flatMap, List.mem_map, List.mem_filter, Bool.and_eq_true]
  constructor
  · rintro ⟨⟨k', ls⟩, he, l', ⟨hl, hdirty, hp⟩, heq⟩
    obtain ⟨rfl, rfl⟩ := Prod.mk.inj heq
    rw [State.cacheSet, Tab.get_of_mem hwf he]
    exact ⟨hl, hdirty, hp⟩
  · rintro ⟨hl, hdirty, hp⟩
    have hne : Tab.get (fun _ => []) s.eng.cache k ≠ [] := List.ne_nil_of_mem hl
    exact ⟨_, Tab.mem_of_get (d := fun _ => []) hne, l, ⟨hl, hdirty, hp⟩, rfl⟩

/-- A line that becomes clean is dirty no more, and none becomes dirty. -/
theorem State.dirtyLines_cleaned {s : State} (hwf : Tab.wf (fun _ => []) s.eng.cache = true) {p : Nat → CLine → Bool} {e : Nat × CLine}
    {D : List (Nat × CLine)} (h : s.dirtyLines p ⊆ e :: D) : (s.cleaned e).dirtyLines p ⊆ D := by
  rintro ⟨k, l⟩ hl
  obtain ⟨hmem, hdirty, hp⟩ := (State.mem_dirtyLines (s := s.cleaned e) (State.wf_setCacheSet hwf _ _)).mp hl
  have hold : l ∈ s.cacheSet k ∧ (k, l) ≠ e := by
    by_cases hk : k = e.1
    · rw [hk, State.cleaned, State.cacheSet_setCacheSet] at hmem
      obtain ⟨x, hx, heq⟩ := List.mem_map.mp hmem
      split at heq
      · rw [← heq] at hdirty
        nomatch hdirty
      · next hloc => exact ⟨hk ▸ heq ▸ hx, fun he => hloc (he ▸ heq ▸ rfl)⟩
    · rw [State.cleaned, State.cacheSet_setCacheSet_ne _ _ hk] at hmem
      exact ⟨hmem, fun he => hk (he ▸ rfl)⟩
  exact (List.mem_cons.mp (h ((State.mem_dirtyLines hwf).mpr ⟨hold.1, hdirty, hp⟩))).resolve_left hold.2

end Sys2Proof.Machine

namespace Sys2Proof.Machine

theorem State.dirtyLines_congr {s t : State} (h : t.eng = s.eng) (p : Nat → CLine → Bool) : t.dirtyLines p = s.dirtyLines p := by
  unfold State.dirtyLines
  rw [h]

/-- R211: dirty lines go back one after another. -/
theorem State.flushLines_flushes (id : WorkFor) {p : Nat → CLine → Bool} {D : List (Nat × CLine)} {s : State}
    (hwf : Tab.wf (fun _ => []) s.eng.cache = true) (ha : s.fb F.ECC_INJ_CTL_arm = false) (hue : Mild s 304 336) (hm : Mild s 504 544)
    (hD : ∀ e ∈ D, e.1 / 16384 < 32) (hsub : s.dirtyLines p ⊆ D) :
    Flushes s (D.foldl (State.flushLine id) s) ∧ (D.foldl (State.flushLine id) s).dirtyLines p = [] := by
  induction D generalizing s with
  | nil => exact ⟨.refl s, List.subset_nil.mp hsub⟩
  | cons e D ih =>
    have ht := hD e List.mem_cons_self
    obtain ⟨ds, ls, hwords, hls⟩ := State.writeWords_writes (s := s.cleaned e) ht ha (Mild.congr hue rfl) (Mild.congr hm rfl) e.2
    have hflush := State.flushLine_flushes ht hwords id hls
    have heng := State.flushLine_cache hwords id
    have hrest := ih (s := State.flushLine id s e) (heng ▸ State.wf_setCacheSet hwf _ _) (hflush.unarmed ha) (hflush.mild hue) (hflush.mild hm)
      (fun e he => hD e (List.mem_cons_of_mem _ he)) (State.dirtyLines_congr heng p ▸ State.dirtyLines_cleaned hwf hsub)
    exact ⟨hflush.trans hrest.1, hrest.2⟩

/-- A CFLUSH that its checks let through. -/
theorem exec_cflush {s : State} {p : Port} {tag : BitVec 9} {r : Req} (hrun : Runs s opCFLUSH p tag r) {u : State}
    {pick : Nat → CLine → Bool} (hcheck : r.flags.testBit 0 = true ∨ s.dramCheck r = none ∧ s.serves (dramLoc r.cfg r.addr).ch = true ∧
      s.engineUp (dramLoc r.cfg r.addr).ch = true)
    (hpick : pick = fun t l => r.flags.testBit 0 || decide (l.loc t = dramLoc r.cfg r.addr))
    (hu : s.cleanLines r.work pick = u) (hreqs : u.reqs = s.reqs) :
    exec (.cflush p tag) s = .next
      { u with reqs := answered r { status := 0, aux := min (8 * (s.dirtyLines pick).length) (2 ^ 32 - 1) } s.reqs } := by
  show execCflush p tag s = _
  rw [← hreqs, ← State.answer_ok u hrun.2 (Nat.succ_pos 5), ← hu, hpick]
  simp only [execCflush, hrun.1]
  obtain hall | ⟨hcheck, hserves, hup⟩ := hcheck
  · simp [hall]
  · simp [hcheck, hserves, hup]

theorem State.flushLine_rest (id : WorkFor) (s : State) (e : Nat × CLine) : State.flushLine id s e =
    { (s.cleaned e).writeWords (e.1 / 16384) e.2 with tiles := (State.flushLine id s e).tiles, live := (State.flushLine id s e).live } := by
  conv_lhs => rw [State.flushLine, State.queueWork_rest, State.writeBack_eq, State.inc_live _ _ rfl]
  rfl

/-- R230: a write-back is counted. -/
theorem State.flushLine_counted {s : State} {e : Nat × CLine} {ds ls : List (Nat × Codeword)} (ht : e.1 / 16384 < 32)
    (h : WordStores wordRegs ds ls (s.cleaned e) ((s.cleaned e).writeWords (e.1 / 16384) e.2)) (id : WorkFor) :
    Counted (F.ENG_CNT_CWB_count (e.1 / 16384)) s (State.flushLine id s e) := by
  have hcwb : (F.ENG_CNT_CWB_count (e.1 / 16384)).addr ∉ wordRegs := tileCounter_not_mem_wordRegs ht (by
    show R.ENG_CNT_CWB _ ∈ _
    simp [tileCounterRegs])
  have hapart : (F.ENG_CNT_CWB_count (e.1 / 16384)).addr ∉ [(F.ENG_CTL_flush_busy (e.1 / 16384)).addr] := by
    simp only [F.ENG_CNT_CWB_count, F.ENG_CTL_flush_busy, List.mem_singleton]
    omega
  have hqueued := State.fv_congr
    (State.queueWork_live ((s.cleaned e).writeBack (e.1 / 16384) e.2) 1 id (e.2.loc (e.1 / 16384)) true _ hapart)
    (by rw [State.queueWork_rest])
  have hinc := State.fv_inc_self ((s.cleaned e).writeWords (e.1 / 16384) e.2) (F.ENG_CNT_CWB_count (e.1 / 16384)) (Nat.le_refl 32)
  rw [h.fv hcwb] at hinc
  exact hqueued.trans hinc

section
variable {s : State} {loc : Loc} {k : Nat} {l : CLine} {x : Nat → DWord} (hch : loc.ch < 32) (hl : s.Unmirrored loc)
  (ha : s.fb F.ECC_INJ_CTL_arm = false) (hm : Mild s 504 544) (hlen : l.words.length = 8)
  (hx : ∀ w, w < 8 → decodeWord (l.words.getD w 0).toNat [] = .ok (x w).toNat [] false) (hloc : l.loc (k / 16384) = loc) (id : WorkFor)
include hch hl ha hm hlen hx hloc

/-- R211, R213: a line whose words hold no error is stored as it is. -/
theorem State.flushLine_clean : ∃ ds, DramStores ds (s.cleaned (k, l)) ((s.cleaned (k, l)).writeWords (k / 16384) l) ∧
    ∀ y, y ∈ ds ↔ ∃ w, w < 8 ∧ y = s.dramCell loc w (x w) := by
  have ht : k / 16384 = loc.ch := congrArg Loc.ch hloc
  have hclean : (s.cleaned (k, l)).Unmirrored (l.loc (k / 16384)) := hloc ▸ ⟨hl.held, hl.row, hl.slot⟩
  refine ⟨_, State.writeWords_clean (ht ▸ hch) hclean ha (Mild.congr hm rfl) (hlen ▸ hx), fun y => ?_⟩
  rw [hloc, List.mem_map]
  constructor
  · rintro ⟨w, hw, rfl⟩
    have hlt := List.snd_lt_of_mem_zipIdx hw
    exact ⟨w.2, by omega, rfl⟩
  · rintro ⟨w, hw, rfl⟩
    exact ⟨(l.words[w], w), List.mem_zipIdx_iff_getElem?.mpr (List.getElem?_eq_getElem (by omega)), rfl⟩

/-- R211: what the array then holds. -/
theorem State.flushLine_stores (qs : List Req) :
    (∀ w, w < 8 → (State.flushLine id s (k, l)).dramGet (s.physWord loc w) = encodeWord (x w) false) ∧
    StoresDram (fun i => ∃ w, w < 8 ∧ i = s.physWord loc w) s { State.flushLine id s (k, l) with reqs := qs } := by
  obtain ⟨ds, hstores, hds⟩ := State.flushLine_clean hch hl ha hm hlen hx hloc
  rw [State.flushLine_rest]
  refine ⟨fun w hw => hstores.dramGet ⟨_, (hds _).mpr ⟨w, hw, rfl⟩, rfl⟩ fun y hy hi => ?_, ?_⟩
  · obtain ⟨v, -, rfl⟩ := (hds y).mp hy
    obtain rfl := State.physWord_word_inj hi
    rfl
  · obtain ⟨hdram, hlarder⟩ := hstores.storesDram (p := fun i => ∃ w, w < 8 ∧ i = s.physWord loc w) (fun y hy => by
      obtain ⟨w, hw, rfl⟩ := (hds y).mp hy
      exact ⟨w, hw, rfl⟩) qs
    exact ⟨hdram, hlarder⟩

end

/-- Settles O18: a hit changes its line alone; a flushed line becomes clean and is stored, one line after another. -/
theorem theCacheHoldsAndFlushes : Obligations.TheCacheHoldsAndFlushes := by
  unfold Obligations.TheCacheHoldsAndFlushes
  refine ⟨fun p tag e s r k l x hrun hchk hfree hcaches hwf _ hcached hdec hfits => ?_,
    fun p tag s r k l x hrun hone hcheck hserves hup hwf ha hm hlen hheld hrow hslot hlines hx => ?_,
    fun p tag s r hrun hall ha hkeys hwf hue hm => ?_⟩
  · obtain ⟨t, hcadd, hrest⟩ := State.cadd_hit_moves hrun.2 hchk hfree hcaches hwf hcached hdec hfits e.val
    refine ⟨t, ?_, hrest⟩
    show execCadd64 p tag e s = _
    simp only [execCadd64, hrun.1, hcadd]
  · have hch := dramLoc_ch r.cfg r.addr
    obtain ⟨-, -, hpick⟩ := (State.mem_dirtyLines hwf).mp (hlines ▸ List.mem_singleton_self (k, l))
    have hloc : l.loc (k / 16384) = dramLoc r.cfg r.addr := of_decide_eq_true hpick
    have ht : k / 16384 = (dramLoc r.cfg r.addr).ch := congrArg Loc.ch hloc
    have hl : s.Unmirrored (dramLoc r.cfg r.addr) := ⟨hheld, hrow, hslot⟩
    obtain ⟨ds, hstores, -⟩ := State.flushLine_clean hch hl ha hm hlen hx hloc
    obtain ⟨hwords, hdram⟩ := State.flushLine_stores hch hl ha hm hlen hx hloc r.work (answered r { status := 0, aux := 8 } s.reqs)
    have hflush := State.flushLine_flushes (e := (k, l)) (ht ▸ hch) (.of_dram hstores) r.work fun _ _ => rfl
    have hcounted := State.flushLine_counted (e := (k, l)) (ht ▸ hch) (.of_dram hstores) r.work
    have hdirty := (State.dirtyLines_congr (State.flushLine_cache (e := (k, l)) (.of_dram hstores) r.work) _).trans
      (List.subset_nil.mp (State.dirtyLines_cleaned hwf fun x hx => hlines ▸ hx))
    have hexec := exec_cflush hrun (u := State.flushLine r.work s (k, l)) (.inr ⟨hcheck, hserves, hup⟩)
      (pick := fun t l => decide (l.loc t = dramLoc r.cfg r.addr)) (by funext t l; rw [hone, Bool.false_or])
      (by rw [State.cleanLines_eq, hlines]; rfl) hflush.reqs
    rw [hlines] at hexec
    exact ⟨_, hexec, answers_iff.mpr rfl, hwords, hdram, hdirty, ht ▸ hcounted, hflush.engineMoves _⟩
  · have hflush := State.flushLines_flushes r.work hwf ha hue hm (D := s.dirtyLines fun _ _ => true) (fun e he => ?_) (List.Subset.refl _)
    · rw [← State.cleanLines_eq] at hflush
      refine ⟨_, exec_cflush hrun (.inl hall) (by funext t l; rw [hall, Bool.true_or]) rfl hflush.1.reqs, answers_iff.mpr rfl, hflush.2,
        hflush.1.larder, hflush.1.engineMoves _⟩
    · obtain ⟨e', he', hmem⟩ := List.mem_flatMap.mp he
      obtain ⟨l, -, rfl⟩ := List.mem_map.mp hmem
      have := hkeys e' he'
      show e'.1 / 16384 < 32
      omega

end Sys2Proof.Machine
